-- ==== Sys2Proof/Word.lean ====
section
/-!
DEFINITION. Word.lean: the words of the ZX8 model and their plainest arithmetic.
Bytes are 8-bit vectors; register words and field values are carried as `Nat` already cut to their
width (a field store cuts on every write), addresses are `Nat`, signed quantities `Int`.
-/

namespace Sys2Proof

/-- A byte of memory, of a frame body or of an image. -/
abbrev Byte := BitVec 8

/-- A string of bytes, lowest offset first. -/
abbrev Bytes := List Byte

/-- The `w` low bits of `v`. -/
abbrev cut (w v : Nat) : Nat := v % 2 ^ w

end Sys2Proof
end

