-- ==== Sys2Proof/Syntax.lean ====
section
/-!
DEFINITION. Syntax.lean: the commands of the ZX8 block, one constructor of `Instr` per row of
spec/opcode_table.json, and the operands they carry. A command is something that happens to the
block: a frame or a block arriving, a register access, a pin, a unit's own step falling due. What the
spec leaves to the outside world (what a self-test found, what a sensor read, when a symbol arrived)
is an operand; what the block itself holds is not.
-/

namespace Sys2Proof

/-- The three filtered board inputs (R647). -/
inductive Pin | resetN | pwrGood | holdN
  deriving DecidableEq, Repr

/-- Who issues an access to control space (R404, R628): the Sprue port, Mordant, a management core,
a general core. -/
inductive Requester
  | sprue | mordant
  | mgmt (i : Fin 16)
  | gcore (i : Fin 640)
  deriving DecidableEq, Repr

/-- A command as its CMD frame gives it (Table 12-4); its opcode is the row's own. -/
structure Cmd where
  id : Nat
  part : Nat
  start : Nat
  args : Bytes
  /-- received by relay over Runner (R433) -/
  relayed : Bool := false
  deriving DecidableEq, Repr

/-- A symbol that a lane's coder gives its line: its level (0 to 3 in PAM4, 0 and 1 in NRZ), and whether it is one of the SLACK
symbols (R373, R374). -/
structure LineSym where
  level : Nat
  slack : Bool := false
  deriving DecidableEq, Repr

/-- A block's turn on the line: the port, and by logical lane the symbols its coder gives the line for the block. -/
structure FillTurn where
  port : Fin 24
  symbols : List (List LineSym) := []
  deriving DecidableEq, Repr

/-- A frame towards the device as its fields (Table 12-2), with what the receiver saw of its
codewords. -/
structure Frame where
  ty : Nat
  flags : Nat := 0
  len : Nat := 0
  seq : Nat := 0
  pkg : Nat := 0xFFFF
  part : Nat := 0xFF
  body : Bytes := []
  tag : Bytes := []
  /-- the wrong symbols of each codeword that carries the frame (R371, R447) -/
  errors : List Nat := []
  /-- the symbols that the line brought for it, stuff symbols among them (R373) -/
  symbols : List Nat := []
  deriving DecidableEq, Repr

/-- A unit that start-up test found bad: die (8 is the base die), kind and index of Table 16-10. -/
structure BadUnit where
  die : Nat
  kind : Nat
  index : Nat
  deriving DecidableEq, Repr

/-- A die as it answers at stage 6, with what the manifest's compatibility table grants its
stepping (R537) where the Ledger's set is not spelled out: level 0 where the stepping is not listed. -/
structure DieObs where
  die : Nat
  stepping : Nat
  level : Nat
  features : Nat
  deriving DecidableEq, Repr

/-- A trained unit's outcome: 0 full width, 1 half width on the lower half, 2 on the upper half, 3 failed; `unit` is its
PAGE_ID value, `index` the direction of the Parting Link; the spares in use (a channel's as MC_SPARES.USED shows them), a channel's exhausted groups
as MC_SPARES.EXHAUSTED and replaced lanes as MC_REPAIR_LO and MC_REPAIR_HI show them, the worst margins in steps, and a channel's lane that has them. -/
structure WidthObs where
  unit : Nat
  index : Nat := 0
  width : Nat
  spares : Nat := 0
  exhausted : Nat := 0
  lanes : Nat := 0
  phase : Nat := 255
  volt : Nat := 255
  lane : Nat := 0
  deriving DecidableEq, Repr

/-- What the outside of the model settles about a CXL port's training and enumeration (R469, R470). -/
structure CxlObs where
  up : Bool
  x8 : Bool := false
  rate32 : Bool := false
  /-- capacity in GiB of each Type 3 expander found, with "behind a switch" -/
  targets : List (Nat × Bool) := []
  /-- devices of Type 1 or 2 found: bus and device number, type -/
  ignored : List (Nat × Nat) := []
  deriving DecidableEq, Repr

/-- What a start-up stage, or a reset's re-run, meets in the silicon (R524 to R541). -/
structure StageObs where
  /-- duration of the stage, µs -/
  us : Nat := 0
  /-- stage 0: the clocks lock, and the fuse sense passes its CRC within 3 reads -/
  clocks : Bool := true
  fuses : Bool := true
  /-- stage 1: Mordant's self-test passes; loader, manifest and images verify -/
  selfTest : Bool := true
  images : Bool := true
  /-- units that fail start-up test (stages 2 and 6) -/
  bad : List BadUnit := []
  /-- Risers with base-die units that no spare restores (stage 2) -/
  lost : List Nat := []
  /-- outcomes of units trained in stages 3 to 5; a unit not listed is at full width without spares, its margins the
  greatest -/
  widths : List WidthObs := []
  /-- trained units whose measured margin after restoring is below its threshold (R531) -/
  low : List Nat := []
  /-- stage 3: the Parting Link's time-path delay, ps (R58) -/
  skew : Nat := 0
  /-- the compute dies that answer -/
  dies : List DieObs := []
  /-- stage 7: clusters unreachable by route tables -/
  unreachable : List Nat := []
  /-- stage 9: the CXL ports -/
  cxl0 : CxlObs := { up := true }
  cxl1 : CxlObs := { up := true }
  deriving DecidableEq, Repr

/-- A new entry of an expander's event logs (R477): the CXL port, the target, the log and the record's handle. -/
structure CxlLog where
  port : Fin 2
  target : Fin 4
  log : Nat
  handle : Nat
  deriving DecidableEq, Repr

/-- A housekeeping sample besides the reading: the sensor fails its self-check; and, at the end of a round, the entries that are new in the
expanders' event logs. -/
structure HkObs where
  fault : Bool := false
  logs : List CxlLog := []
  deriving DecidableEq, Repr

/-- What a lane's decoder saw while a block or an LCF came in (R368, R371, R373, R395): the wrong symbols of each codeword that carries its
bytes, and the symbols that the line brought, stuff symbols among them. -/
structure LaneRx where
  errors : List Nat := []
  symbols : List Nat := []
  deriving DecidableEq, Repr

/-- A payload block as the receiver decoded it (Table 10-5), with the tag the next LCF brings. -/
structure Block where
  seq : Nat
  ftype : Nat := 0
  utype : Nat := 0
  poison : Nat := 0
  replay : Bool := false
  /-- the 63 payload flits as they came over the line: ciphertext -/
  payload : Bytes := []
  tag : Bytes := []
  /-- the sender's slot (epoch × 4,096 + slot) of each scheduled word the block completes -/
  drives : List Nat := []
  lanes : List LaneRx := []
  deriving DecidableEq, Repr

/-- A link control flit as received: the fields at 0x28 to 0x4F, its LTAG, and when its first symbol
arrived (in the form of R44). -/
structure Lcf where
  ack : Nat := 0
  credSync : Nat := 0
  credIndigo : Nat := 0
  credWoad : Nat := 0
  req : Nat := 0
  arg : Nat := 0
  flags : Nat := 0
  stamp : Nat := 0
  ltag : Bytes := []
  arrival : Nat := 0
  lanes : List LaneRx := []
  deriving DecidableEq, Repr

/-- A KX1 message (R495). -/
structure Kx1 where
  devid : Bytes
  alias1 : Bytes
  alias2 : Bytes
  epk : Bytes
  nonce : Bytes
  life : Nat
  svn : Nat
  domain : Bytes
  deriving DecidableEq, Repr

/-- A key-agreement LINKMSG (R495). -/
inductive KxMsg
  | kx1 (k : Kx1)
  | kx2 (sig : Bytes)
  deriving DecidableEq, Repr

/-- The training set that a lane's receiver saw last: the lane by its physical number, the 16 characters as they came, and how many sets came alike in
a row (R362 to R366). -/
structure RtsRun where
  lane : Nat
  chars : List Nat := []
  runs : Nat := 0
  deriving DecidableEq, Repr

/-- What a lane's receiver counted at the rate being tried (R368): symbols, corrected symbols, uncorrectable codewords, and whether codeword and
block lock held throughout. -/
structure LaneStep where
  symbols : Nat := 0
  corrected : Nat := 0
  uncorr : Nat := 0
  fec : Bool := false
  block : Bool := false
  deriving DecidableEq, Repr

/-- A delay probe's four stamps (R45, R388): departure, the partner's arrival and departure, arrival. -/
structure Probe where
  t1 : Nat
  t2 : Nat
  t3 : Nat
  t4 : Nat
  deriving DecidableEq, Repr

/-- What a Runner port receives in training (R362 to R368, R388). -/
structure TrainObs where
  sets : List RtsRun := []
  /-- the lanes in use, in order -/
  steps : List LaneStep := []
  probes : List Probe := []
  /-- the partner's mean one-way delay, ps -/
  partnerMean : Nat := 0
  /-- the partner has loaded its first traffic key -/
  keyed : Bool := false
  deriving DecidableEq, Repr

/-- A lane that has failed, and why (R395): 0 its FEC lock was lost for 1 µs, 1 a margin is 0, 2 more than 16 of its codewords in this epoch are
uncorrectable, 3 its OWED exceeds 256. -/
structure LaneFault where
  lane : Fin 8
  cause : Fin 4 := 0
  deriving DecidableEq, Repr

/-- A request as an engine issues it (R406 to R410). -/
structure Request where
  who : Requester
  op : Nat
  ty : Nat := 0
  posted : Bool := false
  addr : Nat
  len : Nat := 0
  value : Nat := 0
  compare : Nat := 0
  data : Bytes := []
  /-- poison per sector of the data -/
  poison : Nat := 0
  /-- a general core in machine mode (cluster firmware) -/
  machine : Bool := false
  deriving DecidableEq, Repr

/-- An access at a cluster memory's banks (R199 to R208). -/
structure MemAccess where
  who : Nat
  off : Nat
  write : Bool := false
  len : Nat := 64
  data : Bytes := []
  poison : Nat := 0
  /-- the requester runs cluster firmware in machine mode of this cluster -/
  machine : Bool := false
  /-- the sectors read, counted from the first, in which a 64-bit word fails parity -/
  parity : List Nat := []
  deriving DecidableEq, Repr

/-- A request's turn at its home memory: its number, and the sectors it reads, counted from the first, in which a 64-bit word fails
parity (R207, R326). -/
structure Turn where
  id : Nat
  parity : List Nat := []
  deriving DecidableEq, Repr

/-- A mover's turn to issue its transfer: the mover, and the sectors its LOCAL source reads, counted from the first, in which a word fails
parity (R207, R326). -/
structure MoverTurn where
  mv : Fin 112
  errs : List Nat := []
  deriving DecidableEq, Repr

/-- A slice's turn to write back or to rebuild: the slice, and the addresses of the sectors it reads in which a word fails parity (R326). -/
structure SliceTurn where
  slice : Fin 8
  errs : List Nat := []
  deriving DecidableEq, Repr

/-- What retraining or re-centring a unit of wires meets (R308 to R311). -/
structure LaneObs where
  /-- worst margins and the lane, column or wire that has them -/
  phase : Nat := 0
  volt : Nat := 0
  lane : Nat := 0
  /-- lanes below the thresholds: (group, lane) -/
  weak : List (Nat × Nat) := []
  deriving DecidableEq, Repr

/-- What a re-centring of the Parting Link measures (R58, R308): the worst phase margin of each direction, and the time-path delay in ps. -/
structure PlObs where
  cd : Nat := 255
  dc : Nat := 255
  skew : Nat := 0
  deriving DecidableEq, Repr

/-- A 16-byte sync token (R377). -/
structure Token where
  destPkg : Nat
  flag : Nat
  op : Nat
  srcPkg : Nat := 0
  value : Nat := 0
  deriving DecidableEq, Repr


/-- The commands of the block, in the order of spec/opcode_table.json. -/
inductive Instr
  /-- PWR_GOOD_CHANGE (R648) -/
  | pwrGoodChange (level : Bool)
  /-- RESET_N_CHANGE (R648) -/
  | resetNChange (level : Bool)
  /-- HOLD_N_CHANGE (R648) -/
  | holdNChange (level : Bool)
  /-- PIN_TRANSITION (R649) -/
  | pinTransition (pin : Pin)
  /-- INPUT_QUIET_EXPIRY (R649) -/
  | inputQuietExpiry (pin : Pin)
  /-- REFCLK_LOSS (R645) -/
  | refclkLoss
  /-- REFCLK_RESTORED (R645) -/
  | refclkRestored
  /-- VAUX_LOSS (R642) -/
  | vauxLoss (vinFell : Bool)
  /-- SCAN_INSTRUCTION (R652) -/
  | scanInstruction (code : Fin 16)
  /-- START_UP_STAGE (R524) -/
  | startUpStage (obs : StageObs)
  /-- SAVED_SET_WRITE (R530) -/
  | savedSetWrite (unit : Nat) (spares : Nat) (phase : Nat) (volt : Nat)
  /-- RESET (R550) -/
  | reset (c : Cmd)
  /-- RESET_ACTS (R544) -/
  | resetActs
  /-- DRAIN_END (R545) -/
  | drainEnd (sectors : List Nat) (lost : List Nat)
  /-- RESET_COMPLETE (R550) -/
  | resetComplete (obs : StageObs)
  /-- TIME_FRAME (R450) -/
  | timeFrame (f : Frame) (frac : Fin 65536) (gap : Nat)
  /-- COUNTER_STEP (R51) -/
  | counterStep
  /-- TIME_HOLDOVER (R52) -/
  | timeHoldover
  /-- HOLDOVER_EXPIRY (R53) -/
  | holdoverExpiry
  /-- TIME_MARK_SEND (R392) -/
  | timeMarkSend (port : Fin 24)
  /-- TIME_MARK (R392) -/
  | timeMark (port : Fin 24) (stamp : Nat) (state : Fin 5) (arrival : Nat)
  /-- BOUNDARY_PREPARATION (R426) -/
  | boundaryPreparation
  /-- RECENTRE (R307) -/
  | recentre (riser : Fin 8) (phase : Nat) (volt : Nat) (lane : Nat) (xgMargin : Nat) (pl : PlObs)
  /-- AGEING_MONITOR_SAMPLE (R593) -/
  | ageingMonitorSample (cluster : Fin 80) (delay : Nat) (slack : Nat)
  /-- MEMORY_MAINTENANCE_SLOT (R301) -/
  | memoryMaintenanceSlot (chan : Fin 256)
  /-- LOAD_PATTERN (R70) -/
  | loadPattern (c : Cmd)
  /-- PATTERN_LOAD_DONE (R70) -/
  | patternLoadDone (part : Fin 8) (slot : Fin 2)
  /-- POUR (R71) -/
  | pour (c : Cmd)
  /-- HOLD (R72) -/
  | hold (c : Cmd)
  /-- RELEASE (R73) -/
  | release (c : Cmd)
  /-- CMD (R452) -/
  | cmd (f : Frame)
  /-- REGRD (R457) -/
  | regrd (f : Frame)
  /-- REGWR (R457) -/
  | regwr (f : Frame)
  /-- DMA_WRITE (R460) -/
  | dmaWrite (f : Frame)
  /-- DMA_READ (R461) -/
  | dmaRead (f : Frame)
  /-- BULK (R462) -/
  | bulk (f : Frame)
  /-- BULK_TIMEOUT (R463) -/
  | bulkTimeout (stream : Nat)
  /-- SPRUE_LINK_UP (R448) -/
  | sprueLinkUp (good : Bool)
  /-- SPRUE_DOWN (R448) -/
  | sprueDown (cause : Fin 3)
  /-- EVT_FRAME_SEND (R467) -/
  | evtFrameSend
  /-- RING_WRITE (R465) -/
  | ringWrite (page : Nat)
  /-- SPRUE_KEYX (R494) -/
  | sprueKeyx (c : Cmd)
  /-- DEPLOY (R491) -/
  | deploy (c : Cmd)
  /-- OPERATOR_REKEY (R493) -/
  | operatorRekey (c : Cmd)
  /-- DECOMMISSION (R491) -/
  | decommission (c : Cmd)
  /-- GET_CERTS (R521) -/
  | getCerts (c : Cmd)
  /-- ATTEST (R500) -/
  | attest (c : Cmd)
  /-- GET_LOG (R521) -/
  | getLog (c : Cmd)
  /-- SET_PATTERN_KEY (R509) -/
  | setPatternKey (c : Cmd)
  /-- ROTATE_FAR_KEY (R504) -/
  | rotateFarKey (c : Cmd)
  /-- FAR_KEY_ROTATED (R504) -/
  | farKeyRotated (part : Fin 8)
  /-- SESSION_OPEN (R505) -/
  | sessionOpen (c : Cmd)
  /-- SEAL (R512) -/
  | seal (c : Cmd)
  /-- UNSEAL (R519) -/
  | unseal (c : Cmd)
  /-- SESSION_WRITE (R508) -/
  | sessionWrite (c : Cmd)
  /-- SESSION_READ (R508) -/
  | sessionRead (c : Cmd)
  /-- SVN_ADVANCE (R502) -/
  | svnAdvance (c : Cmd)
  /-- SVN_FUSE_BLOW (R502) -/
  | svnFuseBlow
  /-- SCRUB_COMPLETE (R513) -/
  | scrubComplete (part : Fin 8)
  /-- DRBG_HEALTH_FAIL (R489) -/
  | drbgHealthFail (test : Fin 2)
  /-- GET_DESCRIPTION (R556) -/
  | getDescription (c : Cmd)
  /-- UPD_BEGIN (R562) -/
  | updBegin (c : Cmd)
  /-- LEDGER_STAGE_DONE (R563) -/
  | ledgerStageDone (readBack : Bool)
  /-- UPD_DISTRIBUTE (R564) -/
  | updDistribute (c : Cmd)
  /-- DISTRIBUTION_END (R566) -/
  | distributionEnd (rounds : Fin 4) (notReady : List Nat)
  /-- UPD_COMMIT (R567) -/
  | updCommit (c : Cmd)
  /-- COMMIT_PREPARE (R567) -/
  | commitPrepare (ready : List Nat)
  /-- HAND_OVER (R568) -/
  | handOver
  /-- SELECT_RECORD_WRITE (R570) -/
  | selectRecordWrite (verified : Bool)
  /-- UPD_DISCARD (R574) -/
  | updDiscard (c : Cmd)
  /-- RECOVERY_BEGIN (R573) -/
  | recoveryBegin (c : Cmd)
  /-- RECOVERY_RESTART (R573) -/
  | recoveryRestart (c : Cmd)
  /-- SHUTDOWN_ACK (R588) -/
  | shutdownAck (c : Cmd)
  /-- SHUTDOWN_READ (R610) -/
  | shutdownRead (c : Cmd)
  /-- AGEING_READ (R610) -/
  | ageingRead (c : Cmd)
  /-- STOP (R434) -/
  | stop (c : Cmd)
  /-- STOP_EXPIRY (R434) -/
  | stopExpiry (port : Fin 24)
  /-- RELAY (R429) -/
  | relay (c : Cmd)
  /-- STOP_RELAY (R429) -/
  | stopRelay (port : Fin 24)
  /-- INGRESS_UNIT (R430) -/
  | ingressUnit (port : Fin 24) (vc : Fin 3)
  /-- TRAINING_STATE_ADVANCE (R366) -/
  | trainingStateAdvance (port : Fin 24) (obs : TrainObs)
  /-- TRAINING_TIMEOUT (R366) -/
  | trainingTimeout (port : Fin 24)
  /-- KEYX_MESSAGE (R495) -/
  | keyxMessage (port : Fin 24) (msg : KxMsg)
  /-- TRAFFIC_KEY_SWITCH (R382) -/
  | trafficKeySwitch (port : Fin 24)
  /-- BLOCK_RECEIVE (R383) -/
  | blockReceive (port : Fin 24) (blk : Block)
  /-- LCF_RECEIVE (R381) -/
  | lcfReceive (port : Fin 24) (lcf : Lcf)
  /-- REPLAY (R383) -/
  | replay (port : Fin 24)
  /-- FILL_BLOCK (R385) -/
  | fillBlock (port : FillTurn)
  /-- LINK_LOSS (R384) -/
  | linkLoss (port : Fin 24) (cause : Fin 4)
  /-- RUNNER_LANE_FAILURE (R396) -/
  | runnerLaneFailure (port : Fin 24) (fault : LaneFault)
  /-- NARROW (R396) -/
  | narrow (port : Fin 24) (upper : Bool)
  /-- RETRAIN (R369) -/
  | retrain (port : Fin 24)
  /-- EYE_SCAN_GRID_END (R394) -/
  | eyeScanGridEnd (port : Fin 24) (lane : Fin 8) (eye : Fin 3) (grid : List (Nat × Nat))
  /-- SCHED_WORD_DRIVE (R387) -/
  | schedWordDrive (port : Fin 24) (cyc : Nat)
  /-- SCHED_WORD_RELEASE (R389) -/
  | schedWordRelease (port : Fin 24)
  /-- RELEASE_BUFFER_FLUSH (R390) -/
  | releaseBufferFlush (port : Fin 24)
  /-- REQUEST_ISSUE (R406) -/
  | requestIssue (rq : Request)
  /-- READ (R407) -/
  | read (id : Nat) (parity : List Nat)
  /-- WRITE (R407) -/
  | write (turn : Turn)
  /-- WRITE_SHORT (R407) -/
  | writeShort (turn : Turn)
  /-- ATOMIC (R336) -/
  | atomic (turn : Turn)
  /-- REDUCE (R341) -/
  | reduce (turn : Turn)
  /-- RESPONSE (R411) -/
  | response (id : Nat) (cycles : Nat)
  /-- REQUEST_TIMEOUT (R414) -/
  | requestTimeout (id : Nat)
  /-- TRANSIT_PACKET (R424) -/
  | transitPacket (port : Fin 24)
  /-- ROUTER_FORWARD (R244) -/
  | routerForward (router : Fin 88) (out : Fin 64)
  /-- SCHEDULE_ENTRY (R235) -/
  | scheduleEntry (router : Fin 88) (index : Nat)
  /-- SYNC_TOKEN_ARRIVAL (R248) -/
  | syncTokenArrival (store : Fin 88)
  /-- NEIGHBOUR_MODE_STEP (R253) -/
  | neighbourModeStep (riser : Fin 8) (chunk : Nat)
  /-- ROUTER_BAD (R271) -/
  | routerBad (router : Fin 88) (net : Fin 3) (cause : Fin 2)
  /-- CROSSING_PARITY_ERROR (R239) -/
  | crossingParityError (router : Fin 88) (port : Fin 64) (group : Nat) (cyc : Nat)
  /-- TNOP (R186) -/
  | tnop (core : Fin 320)
  /-- TLOADS (R171) -/
  | tloads (core : Fin 320)
  /-- TSWAP (R172) -/
  | tswap (core : Fin 320)
  /-- TMM (R103) -/
  | tmm (core : Fin 320) (errs : List (Nat × Nat × Nat))
  /-- TOUT (R176) -/
  | tout (core : Fin 320) (errs : List (Nat × Nat × Nat))
  /-- TSYNC (R183) -/
  | tsync (core : Fin 320)
  /-- TSYNC_WAIT_MET (R184) -/
  | tsyncWaitMet (core : Fin 320)
  /-- TPRED (R185) -/
  | tpred (core : Fin 320)
  /-- TEND (R162) -/
  | tend (core : Fin 320)
  /-- PERIOD_RESTART (R162) -/
  | periodRestart (core : Fin 320)
  /-- MXFER (R261) -/
  | mxfer (turn : MoverTurn)
  /-- MXFER_COMPLETE (R269) -/
  | mxferComplete (mv : Fin 112)
  /-- MNOP (R257) -/
  | mnop (mv : Fin 112)
  /-- MSYNC (R257) -/
  | msync (mv : Fin 112)
  /-- MEND (R257) -/
  | mend (mv : Fin 112)
  /-- WINDOW_START (R220) -/
  | windowStart (core : Fin 640)
  /-- WINDOW_END (R221) -/
  | windowEnd (core : Fin 640)
  /-- WFI (R221) -/
  | wfi (core : Fin 640)
  /-- USER_TRAP (R222) -/
  | userTrap (core : Fin 640) (cause : Nat) (tval : Nat)
  /-- HTREAD (R214) -/
  | htread (core : Fin 640) (rd : Fin 32)
  /-- HTWAIT (R214) -/
  | htwait (core : Fin 640) (rd : Fin 32) (rs1 : Fin 32)
  /-- HTWAIT_COMPLETE (R214) -/
  | htwaitComplete (core : Fin 640)
  /-- CRCBLK (R214) -/
  | crcblk (core : Fin 640) (rd : Fin 32) (rs1 : Fin 32)
  /-- SYNCSET (R214) -/
  | syncset (core : Fin 640) (rs1 : Fin 32) (rs2 : Fin 32) (add : Bool)
  /-- SYNCWAIT (R214) -/
  | syncwait (core : Fin 640) (rd : Fin 32) (rs1 : Fin 32) (rs2 : Fin 32) (ge : Bool)
  /-- SYNCWAIT_COMPLETE (R214) -/
  | syncwaitComplete (core : Fin 640)
  /-- DESCLD (R214) -/
  | descld (core : Fin 640) (vd : Fin 32) (rs1 : Fin 32)
  /-- MXPACK (R215) -/
  | mxpack (core : Fin 640) (vd : Fin 32) (vs : Fin 32) (rs1 : Fin 32)
  /-- MXUNPACK (R216) -/
  | mxunpack (core : Fin 640) (vd : Fin 32) (vs : Fin 32) (rs1 : Fin 32)
  /-- AMO (R210) -/
  | amo (core : Fin 640) (op : Fin 9) (wide : Bool) (rd : Fin 32) (rs1 : Fin 32) (rs2 : Fin 32)
  /-- LR (R210) -/
  | lr (core : Fin 640) (wide : Bool) (rd : Fin 32) (rs1 : Fin 32)
  /-- SC (R210) -/
  | sc (core : Fin 640) (wide : Bool) (rd : Fin 32) (rs1 : Fin 32) (rs2 : Fin 32)
  /-- CLUSTER_MEMORY_ACCESS (R200) -/
  | clusterMemoryAccess (cluster : Fin 80) (acc : MemAccess)
  /-- PATROL_STEP (R224) -/
  | patrolStep (cluster : Fin 80)
  /-- REBUILD_STEP (R355) -/
  | rebuildStep (turn : SliceTurn)
  /-- MEMORY_RUN (R291) -/
  | memoryRun (chan : Fin 256) (index : Nat)
  /-- READ_WORD_DRIVE (R294) -/
  | readWordDrive (chan : Fin 256)
  /-- WRITE_WORD_ARRIVAL (R295) -/
  | writeWordArrival (chan : Fin 256) (cyc : Nat)
  /-- UNSCHEDULED_ACCESS (R298) -/
  | unscheduledAccess (chan : Fin 256) (id : Nat)
  /-- WRITE_PARITY_REWRITE (R306) -/
  | writeParityRewrite (chan : Fin 256) (addr : Nat) (passed : Bool)
  /-- LANE_PARITY_ERROR (R309) -/
  | laneParityError (kind : Fin 3) (unit : Nat) (group : Nat) (addr : Nat)
  /-- LANE_FAILURE (R310) -/
  | laneFailure (kind : Fin 3) (unit : Nat) (group : Nat)
  /-- RETRAINING_START (R311) -/
  | retrainingStart (kind : Fin 2) (unit : Nat)
  /-- RETRAINING_DONE (R311) -/
  | retrainingDone (kind : Fin 2) (unit : Nat) (obs : LaneObs)
  /-- CACHE_ACCESS (R331) -/
  | cacheAccess (slice : Fin 8) (id : Nat) (parity : List Nat)
  /-- CACHE_FILL_RETURN (R331) -/
  | cacheFillReturn (slice : Fin 8) (line : Nat) (status : Nat) (data : Bytes) (poison : Nat) (tagOk : Bool)
  /-- FLUSH (R333) -/
  | flush (r : Requester) (slice : Fin 8)
  /-- FLUSH_COMPLETE (R333) -/
  | flushComplete (turn : SliceTurn)
  /-- SB_REGIONS (R322) -/
  | sbRegions (r : Requester) (slice : Fin 8) (w : Nat)
  /-- CXL_PORT_DOWN (R477) -/
  | cxlPortDown (port : Fin 2)
  /-- CXL_REQUEST_TIMEOUT (R477) -/
  | cxlRequestTimeout (port : Fin 2) (id : Nat)
  /-- COMMIT (R471) -/
  | commit (r : Requester) (port : Fin 2) (dec : Fin 8)
  /-- DECODER_COMMIT_EFFECT (R471) -/
  | decoderCommitEffect (port : Fin 2) (dec : Fin 8)
  /-- HK_SAMPLE (R578) -/
  | hkSample (value : Int) (fault : HkObs)
  /-- SHUTDOWN_RECORD_WRITE (R587) -/
  | shutdownRecordWrite (verified : Bool)
  /-- PWR_OFF_REQ (R586) -/
  | pwrOffReq
  /-- VOLTAGE_STEP (R594) -/
  | voltageStep (domain : Fin 96)
  /-- REPLAN (R595) -/
  | replan
  /-- OPERATING_HOUR (R600) -/
  | operatingHour (verified : Bool)
  /-- LEDGER_ERASE (R607) -/
  | ledgerErase (verified : Bool)
  /-- REG_WRITE (R623) -/
  | regWrite (r : Requester) (off : Nat) (w : Nat)
  /-- REG_READ_CLEAR (R14) -/
  | regReadClear (r : Requester) (off : Nat)
  /-- LATCHING_READ (R628) -/
  | latchingRead (r : Requester) (off : Nat)
  /-- EVT_FORCE (R619) -/
  | evtForce (r : Requester) (page : Nat)
  /-- FENCE (R621) -/
  | fence (r : Requester) (page : Nat)
  /-- RESET_REQ (R621) -/
  | resetReq (r : Requester) (page : Nat)
  /-- ENABLE (R621) -/
  | enable (r : Requester) (page : Nat)
  /-- PT_CONFIG (R28) -/
  | ptConfig (r : Requester) (count : Fin 4)
  /-- PT_SEED (R552) -/
  | ptSeed (r : Requester) (part : Fin 8) (seed : Nat)
  /-- PT_RN_ASSIGN (R30) -/
  | ptRnAssign (r : Requester) (port : Fin 24) (part : Fin 8) (valid : Bool)
  /-- PT_CX_ASSIGN (R30) -/
  | ptCxAssign (r : Requester) (port : Fin 2) (part : Fin 8) (valid : Bool)
  /-- PATROL_LIST_WRITE (R226) -/
  | patrolListWrite (r : Requester) (cluster : Fin 80) (reg : Fin 3) (w : Nat)
  /-- NW_HMEMB_STAGE_HI (R420) -/
  | nwHmembStageHi (r : Requester) (tag : Nat)
  /-- NW_HRT_SWAP (R425) -/
  | nwHrtSwap (r : Requester) (parts : Nat)
  /-- NW_HRT_COPY (R425) -/
  | nwHrtCopy (r : Requester) (parts : Nat)
  /-- ROUTE_COPY_DONE (R425) -/
  | routeCopyDone (part : Fin 8)
  /-- NW_HPKG (R401) -/
  | nwHpkg (r : Requester) (w : Nat)
  /-- NW_REG_TGT (R276) -/
  | nwRegTgt (r : Requester) (router : Fin 88) (cls : Fin 6) (target : Nat)
  /-- NW_SFLAG_HI (R629) -/
  | nwSflagHi (r : Requester) (store : Fin 88) (index : Fin 256) (w : Nat)
  /-- MC_TRAIN_REQUEST (R311) -/
  | mcTrainRequest (r : Requester) (chan : Fin 256)
  /-- MC_XG_RETRAIN (R318) -/
  | mcXgRetrain (r : Requester) (riser : Fin 8) (mask : Nat)
  /-- RN_PCTRL_RETRAIN (R369) -/
  | rnPctrlRetrain (r : Requester) (port : Fin 24)
  /-- EV_RING_HI (R466) -/
  | evRingHi (r : Requester) (w : Nat)
  /-- HK_REPLAN_REQUEST (R595) -/
  | hkReplanRequest (r : Requester)
  /-- BLOCK_SEND (R375) -/
  | blockSend (port : Fin 24) (stuffed : List (List LineSym))
  /-- SPRUE_FRAME_SEND (R449) -/
  | sprueFrameSend (stuffed : List LineSym)
  /-- FRAME_DISCARDED (R442) -/
  | frameDiscarded (f : Frame)
  /-- VAUX_RISE (R650) -/
  | vauxRise
  /-- VLAS_RETURN (R448) -/
  | vlasReturn
  /-- CXL_PORT_RETRAIN (R477) -/
  | cxlPortRetrain (port : Fin 2) (obs : CxlObs)
  /-- MSYNC_WAIT_MET (R184) -/
  | msyncWaitMet (mv : Fin 112)
  deriving DecidableEq, Repr

end Sys2Proof
end

