-- ==== Sys2Proof/Decode.lean ====
section
/-!
DEFINITION. Decode.lean: the commands that words spell by the bits of spec/opcode_table.json. No row
of the table gives bits (every row's `fields` is empty): a command of this block is an event or a
frame, not a word, so every word spells none.
-/

namespace Sys2Proof

/-- The command that a table word spells: none, as the table gives no row any bits. -/
def decodeTableWord (_nbits _w : Nat) : Option Instr := none

end Sys2Proof
end

