-- ==== Sys2Proof/Config.lean ====
section
/-!
DEFINITION. Config.lean: what an implementation fixes and the values the spec leaves open. Every
`opaque` constant here is a free value: it has no body, so no proof can see what it is, and a
statement that holds of the model holds for every value of it (log entry 2).
-/

namespace Sys2Proof.Config

open Sys2Proof

/-- A free byte: byte `i` of the `n`-th free value drawn (fresh secrets, DRBG outputs, undefined
contents). -/
opaque freeByte (n i : Nat) : Byte

/-- A free number: the `n`-th free value drawn, cut by its user. -/
opaque freeNat (n : Nat) : Nat

/-- The frequency that the time unit's filter gives with the `n`-th free value, fs per slot: any within the 2 ps per slot
that R48 allows the synthesiser (log entry 113). -/
def freeFreq (n : Nat) : Int := (freeNat n % 4001 : Nat) - 2000

/-- The output port a control router sends a packet for another router by: the route table that
management firmware writes (R245), by version, router and destination. -/
opaque ctlRoute (version router dest : Nat) : Nat

/-- The phase of the cycles in which a half-width vertical link carries nothing (R314). -/
opaque linkPhase : Nat

/-- STATE_VER of the image of type `t` in the set of manufacture (Table 15-3). -/
opaque stateVer (t : Nat) : Nat

/-- The device's fused secret (R485). -/
opaque uds : Bytes

/-- A string of `len` free bytes. -/
def freeBytes (n len : Nat) : Bytes := (List.range len).map (freeByte n)

end Sys2Proof.Config
end

