-- ==== Sys2Proof/Machine/AMap.lean ====
section
/-!
DEFINITION. Machine/AMap.lean: sparse maps from numbers to plain data, kept as one list in one
canonical form: keys strictly rising, no entry equal to the value an unlisted key reads as. Every
indexed part of State (register fields, sync flags, per-unit state, memory) is such a list.
-/

namespace Sys2Proof.Machine

/-- What key `k` holds; `d` where it is not listed. -/
def aget {α : Type} (d : α) : List (Nat × α) → Nat → α
  | [], _ => d
  | (k', v) :: m, k => if k = k' then v else aget d m k

/-- The map without key `k`. -/
def adel {α : Type} (k : Nat) : List (Nat × α) → List (Nat × α)
  | [] => []
  | (k', v) :: m => if k = k' then adel k m else (k', v) :: adel k m

/-- The map with key `k` listed as `v`, in its place by key. -/
def ains {α : Type} (k : Nat) (v : α) : List (Nat × α) → List (Nat × α)
  | [] => [(k, v)]
  | (k', v') :: m =>
    if k < k' then (k, v) :: (k', v') :: m
    else if k = k' then (k, v) :: m
    else (k', v') :: ains k v m

/-- The map with key `k` holding `v`, where `d` is what an unlisted key reads as: storing `d`
removes the entry. -/
def aset {α : Type} [DecidableEq α] (d : α) (m : List (Nat × α)) (k : Nat) (v : α) :
    List (Nat × α) :=
  if v = d then adel k m else ains k v m

/-- The map with key `k` changed by `f`. -/
def aupd {α : Type} [DecidableEq α] (d : α) (m : List (Nat × α)) (k : Nat) (f : α → α) :
    List (Nat × α) :=
  aset d m k (f (aget d m k))

/-- The keys strictly rise. -/
def asorted {α : Type} : List (Nat × α) → Bool
  | [] => true
  | [_] => true
  | a :: b :: m => decide (a.1 < b.1) && asorted (b :: m)

/-- The canonical form over a default that may depend on the key. -/
def acanon {α : Type} [DecidableEq α] (d : Nat → α) (m : List (Nat × α)) : Bool :=
  asorted m && m.all fun e => decide (e.2 ≠ d e.1)

end Sys2Proof.Machine
end

