-- ==== Sys2Proof/Machine/Regs.lean ====
section
/-!
DEFINITION. Machine/Regs.lean: the register fields of every page, one definition each, from the
spec's register tables (2-12, 3-5, 4-12, 5-17, 6-8, 6-9, 7-10 to 7-13, 8-7, 8-8, 9-6, 10-8, 10-9,
11-14, 12-12 to 12-14, 13-9, 14-8, 15-10, 16-14, 16-15, 17-3, 18-11). A field is its page offset,
its bits, its access code (R12, Table 0-8), its reset value (R626; a "Fixed", "Fused" or "Ledger"
field resets to 0 here and is computed where it is read) and, where the register repeats, how often
and at which stride.
-/

namespace Sys2Proof.Machine

/-- The access codes of Table 0-8. -/
inductive Acc | ro | rw | w1c | w1s | wo | rc | rwl
  deriving DecidableEq, Repr

/-- One field of a register page. -/
structure Fld where
  off : Nat
  hi : Nat
  lo : Nat
  acc : Acc
  reset : Nat
  count : Nat
  stride : Nat
  resets : List Nat
  deriving DecidableEq, Repr

/-- The width of a field in bits. -/
def Fld.width (F : Fld) : Nat := F.hi - F.lo + 1

/-- The page offset of instance `i` of a repeated register. -/
def Fld.at (F : Fld) (i : Nat) : Nat := F.off + i * F.stride

/-- The reset value of instance `i` (NW_REG_TGT has one per class, R274). -/
def Fld.resetAt (F : Fld) (i : Nat) : Nat := F.resets.getD i F.reset

/-- The key of instance `i` of field `F` on page `pg` (a PAGE_ID value, R618) in the field store. -/
def fkey (pg : Nat) (F : Fld) (i : Nat) : Nat := (pg * 4096 + F.at i) * 32 + F.lo

/-! ### hallTime page -/

def HT_NOW_LO_TICKS : Fld := ⟨0x040, 31, 0, .ro, 0, 1, 4, []⟩
def HT_NOW_HI_TICKS : Fld := ⟨0x044, 31, 0, .ro, 0, 1, 4, []⟩
def HT_POS_TICK : Fld := ⟨0x048, 7, 0, .ro, 0, 1, 4, []⟩
def HT_POS_SLOT : Fld := ⟨0x048, 19, 8, .ro, 0, 1, 4, []⟩
def HT_POS_CYCLE : Fld := ⟨0x048, 27, 20, .ro, 0, 1, 4, []⟩
def HT_STATE_STATE : Fld := ⟨0x04C, 2, 0, .ro, 0, 1, 4, []⟩
def HT_STATE_GOOD : Fld := ⟨0x04C, 7, 3, .ro, 0, 1, 4, []⟩
def HT_STATE_OUTLIERS : Fld := ⟨0x04C, 15, 8, .ro, 0, 1, 4, []⟩
def HT_STATE_HOLD_MS : Fld := ⟨0x04C, 31, 16, .ro, 0, 1, 4, []⟩
def HT_OFFSET_PS : Fld := ⟨0x050, 31, 0, .ro, 0, 1, 4, []⟩
def HT_DELAY_PS : Fld := ⟨0x054, 31, 0, .ro, 0, 1, 4, []⟩
def HT_ASYM_PS : Fld := ⟨0x058, 31, 0, .rwl, 0, 1, 4, []⟩
def HT_SKEW_PS : Fld := ⟨0x05C, 31, 0, .ro, 0, 1, 4, []⟩
def HT_XCHK_LOCKED_NB : Fld := ⟨0x060, 4, 0, .ro, 0, 1, 4, []⟩
def HT_XCHK_DIVERGED : Fld := ⟨0x060, 12, 8, .ro, 0, 1, 4, []⟩
def HT_PSTATE_RUN : Fld := ⟨0x080, 2, 0, .ro, 0, 8, 4, []⟩
def HT_PSTATE_ACTIVE_SLOT : Fld := ⟨0x080, 3, 3, .ro, 0, 8, 4, []⟩
def HT_PSTATE_SLOT0 : Fld := ⟨0x080, 5, 4, .ro, 0, 8, 4, []⟩
def HT_PSTATE_SLOT1 : Fld := ⟨0x080, 7, 6, .ro, 0, 8, 4, []⟩
def HT_PEPOCH_REL : Fld := ⟨0x0A0, 31, 0, .ro, 0, 8, 4, []⟩
def HT_PSLIP_COUNT : Fld := ⟨0x0C0, 15, 0, .rc, 0, 8, 4, []⟩

def Fld.hallTimePage : List Fld :=
  [HT_NOW_LO_TICKS, HT_NOW_HI_TICKS, HT_POS_TICK, HT_POS_SLOT, HT_POS_CYCLE, HT_STATE_STATE, HT_STATE_GOOD, HT_STATE_OUTLIERS, HT_STATE_HOLD_MS, HT_OFFSET_PS, HT_DELAY_PS, HT_ASYM_PS, HT_SKEW_PS, HT_XCHK_LOCKED_NB, HT_XCHK_DIVERGED, HT_PSTATE_RUN, HT_PSTATE_ACTIVE_SLOT, HT_PSTATE_SLOT0, HT_PSTATE_SLOT1, HT_PEPOCH_REL, HT_PSLIP_COUNT]

/-! ### matrix page -/

def MX_STATUS_STATE : Fld := ⟨0x040, 1, 0, .ro, 0, 1, 4, []⟩
def MX_STATUS_ACTIVE_SET : Fld := ⟨0x040, 2, 2, .ro, 0, 1, 4, []⟩
def MX_STATUS_SHADOW_FULL : Fld := ⟨0x040, 3, 3, .ro, 0, 1, 4, []⟩
def MX_STATUS_ARRAYS : Fld := ⟨0x040, 7, 4, .ro, 0, 1, 4, []⟩
def MX_FOLD_MODE : Fld := ⟨0x044, 2, 0, .ro, 0, 1, 4, []⟩
def MX_FOLD_LOG2_T : Fld := ⟨0x044, 4, 3, .ro, 0, 1, 4, []⟩
def MX_FOLD_LOG2_S : Fld := ⟨0x044, 7, 5, .ro, 0, 1, 4, []⟩
def MX_FOLD_FORCED : Fld := ⟨0x044, 8, 8, .ro, 0, 1, 4, []⟩
def MX_FOLD_STREAMED : Fld := ⟨0x044, 9, 9, .ro, 0, 1, 4, []⟩
def MX_FOLD_RHO2 : Fld := ⟨0x044, 10, 10, .ro, 0, 1, 4, []⟩
def MX_LOADS_COUNT : Fld := ⟨0x048, 31, 0, .ro, 0, 1, 4, []⟩
def MX_CYC_EXP_CYCLES : Fld := ⟨0x04C, 31, 0, .ro, 0, 1, 4, []⟩
def MX_CYC_ACT_CYCLES : Fld := ⟨0x050, 31, 0, .ro, 0, 1, 4, []⟩
def MX_WLATE_COUNT : Fld := ⟨0x054, 15, 0, .rc, 0, 1, 4, []⟩
def MX_PARITY_STATIONARY : Fld := ⟨0x058, 3, 0, .w1c, 0, 1, 4, []⟩
def MX_PARITY_STAGING : Fld := ⟨0x058, 7, 4, .w1c, 0, 1, 4, []⟩
def MX_PARITY_WBUF : Fld := ⟨0x058, 8, 8, .w1c, 0, 1, 4, []⟩
def MX_WBUF_BYTES : Fld := ⟨0x05C, 19, 0, .ro, 0, 1, 4, []⟩
def MX_BUSY_LO_CYCLES : Fld := ⟨0x060, 31, 0, .ro, 0, 1, 4, []⟩
def MX_BUSY_HI_CYCLES : Fld := ⟨0x064, 31, 0, .ro, 0, 1, 4, []⟩
def MX_AFLAGS_INVALID : Fld := ⟨0x068, 0, 0, .w1c, 0, 1, 4, []⟩
def MX_AFLAGS_NAN_IN : Fld := ⟨0x068, 1, 1, .w1c, 0, 1, 4, []⟩
def MX_AFLAGS_OVERFLOW : Fld := ⟨0x068, 2, 2, .w1c, 0, 1, 4, []⟩
def MX_AFLAGS_SATURATED : Fld := ⟨0x068, 3, 3, .w1c, 0, 1, 4, []⟩
def MX_AFLAGS_UNDERFLOW : Fld := ⟨0x068, 4, 4, .w1c, 0, 1, 4, []⟩
def MX_AFLAGS_SCALE_CLAMP : Fld := ⟨0x068, 5, 5, .w1c, 0, 1, 4, []⟩
def MX_AFLAGS_TRACK_NAN : Fld := ⟨0x068, 6, 6, .w1c, 0, 1, 4, []⟩
def MX_AFLAGS_TRACK_POISON : Fld := ⟨0x068, 7, 7, .w1c, 0, 1, 4, []⟩
def MX_AFLAGS_LAST_FLAGS : Fld := ⟨0x06C, 7, 0, .ro, 0, 1, 4, []⟩
def MX_AFLAGS_LAST_ARRAYS : Fld := ⟨0x06C, 11, 8, .ro, 0, 1, 4, []⟩
def MX_SEQ_STATE_STATE : Fld := ⟨0x100, 2, 0, .ro, 0, 1, 4, []⟩
def MX_SEQ_STATE_PERIOD_PAR : Fld := ⟨0x100, 3, 3, .ro, 0, 1, 4, []⟩
def MX_SEQ_STATE_TRK_BANK : Fld := ⟨0x100, 4, 4, .ro, 0, 1, 4, []⟩
def MX_SEQ_PC_PC : Fld := ⟨0x104, 12, 0, .ro, 0, 1, 4, []⟩
def MX_SEQ_LAST_CYC : Fld := ⟨0x108, 7, 0, .ro, 0, 1, 4, []⟩
def MX_SEQ_LAST_SLOT : Fld := ⟨0x108, 19, 8, .ro, 0, 1, 4, []⟩
def MX_SEQ_LEPOCH_REL : Fld := ⟨0x10C, 31, 0, .ro, 0, 1, 4, []⟩
def MX_SEQ_PRED_P0 : Fld := ⟨0x110, 0, 0, .ro, 1, 1, 4, []⟩
def MX_SEQ_PRED_P : Fld := ⟨0x110, 7, 1, .ro, 127, 1, 4, []⟩
def MX_SEQ_HAZ_COUNT : Fld := ⟨0x114, 15, 0, .rc, 0, 1, 4, []⟩
def MX_SEQ_SYNCW_COUNT : Fld := ⟨0x118, 15, 0, .rc, 0, 1, 4, []⟩
def MX_SEQ_DEFER_COUNT : Fld := ⟨0x11C, 15, 0, .rc, 0, 1, 4, []⟩
def MX_SEQ_SIZE_INSTR : Fld := ⟨0x120, 13, 0, .ro, 0, 1, 4, []⟩
def MX_SEQ_SIZE_TREC : Fld := ⟨0x120, 28, 16, .ro, 0, 1, 4, []⟩
def MX_SEQ_SIZE2_DESC : Fld := ⟨0x124, 10, 0, .ro, 0, 1, 4, []⟩
def MX_SEQ_SIZE2_MASK : Fld := ⟨0x124, 29, 16, .ro, 0, 1, 4, []⟩

def Fld.matrixPage : List Fld :=
  [MX_STATUS_STATE, MX_STATUS_ACTIVE_SET, MX_STATUS_SHADOW_FULL, MX_STATUS_ARRAYS, MX_FOLD_MODE, MX_FOLD_LOG2_T, MX_FOLD_LOG2_S, MX_FOLD_FORCED, MX_FOLD_STREAMED, MX_FOLD_RHO2, MX_LOADS_COUNT, MX_CYC_EXP_CYCLES, MX_CYC_ACT_CYCLES, MX_WLATE_COUNT, MX_PARITY_STATIONARY, MX_PARITY_STAGING, MX_PARITY_WBUF, MX_WBUF_BYTES, MX_BUSY_LO_CYCLES, MX_BUSY_HI_CYCLES, MX_AFLAGS_INVALID, MX_AFLAGS_NAN_IN, MX_AFLAGS_OVERFLOW, MX_AFLAGS_SATURATED, MX_AFLAGS_UNDERFLOW, MX_AFLAGS_SCALE_CLAMP, MX_AFLAGS_TRACK_NAN, MX_AFLAGS_TRACK_POISON, MX_AFLAGS_LAST_FLAGS, MX_AFLAGS_LAST_ARRAYS, MX_SEQ_STATE_STATE, MX_SEQ_STATE_PERIOD_PAR, MX_SEQ_STATE_TRK_BANK, MX_SEQ_PC_PC, MX_SEQ_LAST_CYC, MX_SEQ_LAST_SLOT, MX_SEQ_LEPOCH_REL, MX_SEQ_PRED_P0, MX_SEQ_PRED_P, MX_SEQ_HAZ_COUNT] ++
  [MX_SEQ_SYNCW_COUNT, MX_SEQ_DEFER_COUNT, MX_SEQ_SIZE_INSTR, MX_SEQ_SIZE_TREC, MX_SEQ_SIZE2_DESC, MX_SEQ_SIZE2_MASK]

/-! ### cluster page -/

def CL_STATUS_STATE : Fld := ⟨0x040, 1, 0, .ro, 0, 1, 4, []⟩
def CL_STATUS_REDUCED : Fld := ⟨0x040, 2, 2, .ro, 0, 1, 4, []⟩
def CL_MX_MAP_PHYS : Fld := ⟨0x044, 11, 0, .ro, 0, 1, 4, []⟩
def CL_MX_MAP_GOOD : Fld := ⟨0x044, 16, 12, .ro, 0, 1, 4, []⟩
def CL_MX_MAP_FIELD_DEFECT : Fld := ⟨0x044, 21, 17, .ro, 0, 1, 4, []⟩
def CL_GC_MAP_PHYS : Fld := ⟨0x048, 31, 0, .ro, 0, 1, 4, []⟩
def CL_GC_GOOD_GOOD : Fld := ⟨0x04C, 8, 0, .ro, 0, 1, 4, []⟩
def CL_GC_GOOD_FIELD_DEFECT : Fld := ⟨0x04C, 17, 9, .ro, 0, 1, 4, []⟩
def CL_MERGE_COUNT : Fld := ⟨0x050, 31, 0, .rc, 0, 1, 4, []⟩
def CL_BANK_WAIT_COUNT : Fld := ⟨0x054, 31, 0, .rc, 0, 1, 4, []⟩
def CL_MEM_PAR_COUNT : Fld := ⟨0x058, 15, 0, .rc, 0, 1, 4, []⟩
def CL_MEM_PAR_ADDR_IN_FW : Fld := ⟨0x05C, 0, 0, .ro, 0, 1, 4, []⟩
def CL_MEM_PAR_ADDR_SECTOR : Fld := ⟨0x05C, 23, 6, .ro, 0, 1, 4, []⟩
def CL_FW_DENY_COUNT : Fld := ⟨0x060, 15, 0, .rc, 0, 1, 4, []⟩
def CL_FW_DENY_SRC : Fld := ⟨0x060, 31, 16, .ro, 0, 1, 4, []⟩
def CL_PATROL_LO_ADDR : Fld := ⟨0x064, 31, 0, .rwl, 0, 1, 4, []⟩
def CL_PATROL_HI_ADDR : Fld := ⟨0x068, 31, 0, .rwl, 0, 1, 4, []⟩
def CL_PATROL_CNT_COUNT : Fld := ⟨0x06C, 10, 0, .rwl, 0, 1, 4, []⟩
def CL_PATROL_DESC_DESC : Fld := ⟨0x070, 10, 0, .ro, 0, 1, 4, []⟩
def CL_PATROL_BLK_BLOCK : Fld := ⟨0x074, 31, 0, .ro, 0, 1, 4, []⟩
def CL_PATROL_PASS_COUNT : Fld := ⟨0x078, 31, 0, .ro, 0, 1, 4, []⟩
def CL_PATROL_FAIL_COUNT : Fld := ⟨0x07C, 15, 0, .rc, 0, 1, 4, []⟩

def Fld.clusterPage : List Fld :=
  [CL_STATUS_STATE, CL_STATUS_REDUCED, CL_MX_MAP_PHYS, CL_MX_MAP_GOOD, CL_MX_MAP_FIELD_DEFECT, CL_GC_MAP_PHYS, CL_GC_GOOD_GOOD, CL_GC_GOOD_FIELD_DEFECT, CL_MERGE_COUNT, CL_BANK_WAIT_COUNT, CL_MEM_PAR_COUNT, CL_MEM_PAR_ADDR_IN_FW, CL_MEM_PAR_ADDR_SECTOR, CL_FW_DENY_COUNT, CL_FW_DENY_SRC, CL_PATROL_LO_ADDR, CL_PATROL_HI_ADDR, CL_PATROL_CNT_COUNT, CL_PATROL_DESC_DESC, CL_PATROL_BLK_BLOCK, CL_PATROL_PASS_COUNT, CL_PATROL_FAIL_COUNT]

/-! ### gcore page -/

def GC_STATUS_STATE : Fld := ⟨0x040, 2, 0, .ro, 0, 1, 4, []⟩
def GC_STATUS_PRIV : Fld := ⟨0x040, 3, 3, .ro, 1, 1, 4, []⟩
def GC_STATUS_PSLOT : Fld := ⟨0x040, 4, 4, .ro, 0, 1, 4, []⟩
def GC_STATUS_PATROL : Fld := ⟨0x040, 5, 5, .ro, 0, 1, 4, []⟩
def GC_PC_LO_PC : Fld := ⟨0x044, 31, 0, .ro, 0, 1, 4, []⟩
def GC_PC_HI_PC : Fld := ⟨0x048, 31, 0, .ro, 0, 1, 4, []⟩
def GC_WIN_INDEX : Fld := ⟨0x04C, 11, 0, .ro, 0, 1, 4, []⟩
def GC_OVERRUN_COUNT : Fld := ⟨0x050, 15, 0, .rc, 0, 1, 4, []⟩
def GC_TRAP_CAUSE : Fld := ⟨0x054, 7, 0, .ro, 0, 1, 4, []⟩
def GC_TRAP_STATUS : Fld := ⟨0x054, 15, 8, .ro, 0, 1, 4, []⟩
def GC_TRAP_COUNT : Fld := ⟨0x054, 31, 16, .rc, 0, 1, 4, []⟩
def GC_TRAP_PC_OFFSET : Fld := ⟨0x058, 31, 0, .ro, 0, 1, 4, []⟩
def GC_TRAP_TVAL_LO_TVAL : Fld := ⟨0x05C, 31, 0, .ro, 0, 1, 4, []⟩
def GC_TRAP_TVAL_HI_TVAL : Fld := ⟨0x060, 31, 0, .ro, 0, 1, 4, []⟩
def GC_RET_LO_COUNT : Fld := ⟨0x064, 31, 0, .ro, 0, 1, 4, []⟩
def GC_RET_HI_COUNT : Fld := ⟨0x068, 31, 0, .ro, 0, 1, 4, []⟩

def Fld.gcorePage : List Fld :=
  [GC_STATUS_STATE, GC_STATUS_PRIV, GC_STATUS_PSLOT, GC_STATUS_PATROL, GC_PC_LO_PC, GC_PC_HI_PC, GC_WIN_INDEX, GC_OVERRUN_COUNT, GC_TRAP_CAUSE, GC_TRAP_STATUS, GC_TRAP_COUNT, GC_TRAP_PC_OFFSET, GC_TRAP_TVAL_LO_TVAL, GC_TRAP_TVAL_HI_TVAL, GC_RET_LO_COUNT, GC_RET_HI_COUNT]

/-! ### bulkRouter page -/

def NW_BSTAT_MODE : Fld := ⟨0x040, 1, 0, .ro, 0, 1, 4, []⟩
def NW_BSTAT_LOCAL_FENCED : Fld := ⟨0x040, 2, 2, .ro, 0, 1, 4, []⟩
def NW_BPROG_ENTRIES : Fld := ⟨0x044, 16, 0, .ro, 0, 1, 4, []⟩
def NW_BMISS_COUNT : Fld := ⟨0x048, 15, 0, .rc, 0, 1, 4, []⟩
def NW_BFENCE_COUNT : Fld := ⟨0x04C, 15, 0, .rc, 0, 1, 4, []⟩
def NW_XPARITY_COUNT : Fld := ⟨0x050, 15, 0, .rc, 0, 1, 4, []⟩
def NW_XPARITY_PORT : Fld := ⟨0x050, 21, 16, .ro, 0, 1, 4, []⟩
def NW_BPKT_COUNT : Fld := ⟨0x054, 31, 0, .rc, 0, 1, 4, []⟩
def NW_PL_RESV_CYCLES : Fld := ⟨0x058, 7, 0, .rwl, 0, 1, 4, []⟩

def Fld.bulkRouterPage : List Fld :=
  [NW_BSTAT_MODE, NW_BSTAT_LOCAL_FENCED, NW_BPROG_ENTRIES, NW_BMISS_COUNT, NW_BFENCE_COUNT, NW_XPARITY_COUNT, NW_XPARITY_PORT, NW_BPKT_COUNT, NW_PL_RESV_CYCLES]

/-! ### ctrlRouter page -/

def NW_CSTAT_STATE : Fld := ⟨0x040, 1, 0, .ro, 0, 1, 4, []⟩
def NW_CSTAT_AVOIDED : Fld := ⟨0x040, 2, 2, .ro, 0, 1, 4, []⟩
def NW_CROUTE_VERSION : Fld := ⟨0x044, 15, 0, .ro, 0, 1, 4, []⟩
def NW_CPREEMPT_COUNT : Fld := ⟨0x048, 31, 0, .rc, 0, 1, 4, []⟩
def NW_CABSORB_FENCED : Fld := ⟨0x04C, 15, 0, .rc, 0, 1, 4, []⟩
def NW_CABSORB_LOST : Fld := ⟨0x04C, 31, 16, .rc, 0, 1, 4, []⟩
def NW_REG_TGT_TARGET : Fld := ⟨0x080, 15, 0, .rwl, 0, 6, 4, [2000, 1000, 200, 500, 1500, 4000]⟩
def NW_REG_STAT_FILT : Fld := ⟨0x0A0, 23, 0, .ro, 0, 6, 4, []⟩
def NW_REG_STAT_LEVEL : Fld := ⟨0x0A0, 26, 24, .ro, 0, 6, 4, []⟩
def NW_REG_MISS_COUNT : Fld := ⟨0x0C0, 31, 0, .rc, 0, 6, 4, []⟩

def Fld.ctrlRouterPage : List Fld :=
  [NW_CSTAT_STATE, NW_CSTAT_AVOIDED, NW_CROUTE_VERSION, NW_CPREEMPT_COUNT, NW_CABSORB_FENCED, NW_CABSORB_LOST, NW_REG_TGT_TARGET, NW_REG_STAT_FILT, NW_REG_STAT_LEVEL, NW_REG_MISS_COUNT]

/-! ### syncRouter page -/

def NW_SSTAT_STATE : Fld := ⟨0x040, 1, 0, .ro, 0, 1, 4, []⟩
def NW_SDROP_COUNT : Fld := ⟨0x044, 15, 0, .rc, 0, 1, 4, []⟩
def NW_SDROP_ADDR : Fld := ⟨0x044, 31, 16, .ro, 0, 1, 4, []⟩
def NW_STOKENS_COUNT : Fld := ⟨0x048, 31, 0, .rc, 0, 1, 4, []⟩
def NW_SREMOTE_PACKAGE : Fld := ⟨0x100, 15, 0, .rwl, 0, 16, 4, []⟩
def NW_SREMOTE_HOME : Fld := ⟨0x100, 23, 16, .rwl, 0, 16, 4, []⟩
def NW_SREMOTE_VALID : Fld := ⟨0x100, 31, 31, .rwl, 0, 16, 4, []⟩
def NW_SFLAG_LO_VALUE : Fld := ⟨0x800, 31, 0, .rw, 0, 256, 8, []⟩
def NW_SFLAG_HI_VALUE : Fld := ⟨0x804, 31, 0, .rw, 0, 256, 8, []⟩

def Fld.syncRouterPage : List Fld :=
  [NW_SSTAT_STATE, NW_SDROP_COUNT, NW_SDROP_ADDR, NW_STOKENS_COUNT, NW_SREMOTE_PACKAGE, NW_SREMOTE_HOME, NW_SREMOTE_VALID, NW_SFLAG_LO_VALUE, NW_SFLAG_HI_VALUE]

/-! ### mover page -/

def MV_STATUS_STATE : Fld := ⟨0x040, 2, 0, .ro, 0, 1, 4, []⟩
def MV_STATUS_OUTSTANDING : Fld := ⟨0x040, 11, 3, .ro, 0, 1, 4, []⟩
def MV_PC_PC : Fld := ⟨0x044, 11, 0, .ro, 0, 1, 4, []⟩
def MV_CYC_EXP_CYCLES : Fld := ⟨0x048, 31, 0, .ro, 0, 1, 4, []⟩
def MV_CYC_ACT_CYCLES : Fld := ⟨0x04C, 31, 0, .ro, 0, 1, 4, []⟩
def MV_POISON_COUNT : Fld := ⟨0x050, 15, 0, .rc, 0, 1, 4, []⟩
def MV_CRC_FAIL_COUNT : Fld := ⟨0x054, 15, 0, .rc, 0, 1, 4, []⟩
def MV_UNVERIFIED_COUNT : Fld := ⟨0x058, 31, 0, .rc, 0, 1, 4, []⟩
def MV_FAIL_LO_ADDR : Fld := ⟨0x05C, 31, 0, .ro, 0, 1, 4, []⟩
def MV_FAIL_HI_ADDR : Fld := ⟨0x060, 31, 0, .ro, 0, 1, 4, []⟩
def MV_XERR_STATUS : Fld := ⟨0x064, 7, 0, .ro, 0, 1, 4, []⟩
def MV_HAZ_COUNT : Fld := ⟨0x068, 15, 0, .rc, 0, 1, 4, []⟩

def Fld.moverPage : List Fld :=
  [MV_STATUS_STATE, MV_STATUS_OUTSTANDING, MV_PC_PC, MV_CYC_EXP_CYCLES, MV_CYC_ACT_CYCLES, MV_POISON_COUNT, MV_CRC_FAIL_COUNT, MV_UNVERIFIED_COUNT, MV_FAIL_LO_ADDR, MV_FAIL_HI_ADDR, MV_XERR_STATUS, MV_HAZ_COUNT]

/-! ### channel page -/

def MC_STATUS_STATE : Fld := ⟨0x040, 2, 0, .ro, 0, 1, 4, []⟩
def MC_STATUS_HALF_UPPER : Fld := ⟨0x040, 3, 3, .ro, 0, 1, 4, []⟩
def MC_STATUS_RETRAIN_DUE : Fld := ⟨0x040, 4, 4, .ro, 0, 1, 4, []⟩
def MC_STATUS_BAND : Fld := ⟨0x040, 6, 5, .ro, 0, 1, 4, []⟩
def MC_SPARES_USED : Fld := ⟨0x044, 7, 0, .ro, 0, 1, 4, []⟩
def MC_SPARES_EXHAUSTED : Fld := ⟨0x044, 15, 8, .ro, 0, 1, 4, []⟩
def MC_REPAIR_LO_LANES : Fld := ⟨0x048, 31, 0, .ro, 0, 1, 4, []⟩
def MC_REPAIR_HI_LANES : Fld := ⟨0x04C, 31, 0, .ro, 0, 1, 4, []⟩
def MC_PARITY_COUNT : Fld := ⟨0x050, 15, 0, .rc, 0, 1, 4, []⟩
def MC_PARITY_GROUP : Fld := ⟨0x050, 18, 16, .ro, 0, 1, 4, []⟩
def MC_MARGIN_PHASE : Fld := ⟨0x054, 7, 0, .ro, 0, 1, 4, []⟩
def MC_MARGIN_VOLT : Fld := ⟨0x054, 15, 8, .ro, 0, 1, 4, []⟩
def MC_MARGIN_LANE : Fld := ⟨0x054, 24, 16, .ro, 0, 1, 4, []⟩
def MC_MARGIN_MIN_PHASE : Fld := ⟨0x058, 7, 0, .rwl, 6, 1, 4, []⟩
def MC_MARGIN_MIN_VOLT : Fld := ⟨0x058, 15, 8, .rwl, 6, 1, 4, []⟩
def MC_RECENTRE_EPOCH : Fld := ⟨0x05C, 31, 0, .ro, 0, 1, 4, []⟩
def MC_ACT_TH_TH : Fld := ⟨0x060, 13, 0, .rwl, 1024, 1, 4, []⟩
def MC_TNR_COUNT : Fld := ⟨0x064, 15, 0, .rc, 0, 1, 4, []⟩
def MC_TNR_QUEUE : Fld := ⟨0x064, 20, 16, .ro, 0, 1, 4, []⟩
def MC_HAMMER_COUNT : Fld := ⟨0x068, 15, 0, .rc, 0, 1, 4, []⟩
def MC_SECTORS_COUNT : Fld := ⟨0x06C, 31, 0, .ro, 0, 1, 4, []⟩
def MC_HOT_EPOCHS : Fld := ⟨0x070, 15, 0, .ro, 0, 1, 4, []⟩
def MC_POISON_ENTRIES : Fld := ⟨0x074, 12, 0, .ro, 0, 1, 4, []⟩
def MC_SLIP_COUNT : Fld := ⟨0x078, 15, 0, .rc, 0, 1, 4, []⟩
def MC_WLATE_COUNT : Fld := ⟨0x07C, 15, 0, .rc, 0, 1, 4, []⟩
def MC_WDROP_READ : Fld := ⟨0x080, 15, 0, .rc, 0, 1, 4, []⟩
def MC_WDROP_WRITE : Fld := ⟨0x080, 31, 16, .rc, 0, 1, 4, []⟩
def MC_TRAIN_CTRL_AUTO : Fld := ⟨0x084, 0, 0, .rwl, 1, 1, 4, []⟩
def MC_TRAIN_CTRL_REQUEST : Fld := ⟨0x084, 1, 1, .w1s, 0, 1, 4, []⟩
def MC_PROG_ENTRIES : Fld := ⟨0x088, 14, 0, .ro, 0, 1, 4, []⟩
def MC_SEED_SEED : Fld := ⟨0x08C, 15, 0, .ro, 0, 1, 4, []⟩
def MC_UNSCHED_COUNT : Fld := ⟨0x090, 31, 0, .rc, 0, 1, 4, []⟩

def Fld.channelPage : List Fld :=
  [MC_STATUS_STATE, MC_STATUS_HALF_UPPER, MC_STATUS_RETRAIN_DUE, MC_STATUS_BAND, MC_SPARES_USED, MC_SPARES_EXHAUSTED, MC_REPAIR_LO_LANES, MC_REPAIR_HI_LANES, MC_PARITY_COUNT, MC_PARITY_GROUP, MC_MARGIN_PHASE, MC_MARGIN_VOLT, MC_MARGIN_LANE, MC_MARGIN_MIN_PHASE, MC_MARGIN_MIN_VOLT, MC_RECENTRE_EPOCH, MC_ACT_TH_TH, MC_TNR_COUNT, MC_TNR_QUEUE, MC_HAMMER_COUNT, MC_SECTORS_COUNT, MC_HOT_EPOCHS, MC_POISON_ENTRIES, MC_SLIP_COUNT, MC_WLATE_COUNT, MC_WDROP_READ, MC_WDROP_WRITE, MC_TRAIN_CTRL_AUTO, MC_TRAIN_CTRL_REQUEST, MC_PROG_ENTRIES, MC_SEED_SEED, MC_UNSCHED_COUNT]

/-! ### colGroup page -/

def MC_XG_STATE_UP_STATE : Fld := ⟨0x040, 31, 0, .ro, 0, 1, 4, []⟩
def MC_XG_STATE_DN_STATE : Fld := ⟨0x044, 31, 0, .ro, 0, 1, 4, []⟩
def MC_XG_SEL_GROUP : Fld := ⟨0x048, 4, 0, .rw, 0, 1, 4, []⟩
def MC_XG_INFO_SPARES : Fld := ⟨0x04C, 5, 0, .ro, 0, 1, 4, []⟩
def MC_XG_INFO_HALF_UPPER : Fld := ⟨0x04C, 6, 6, .ro, 0, 1, 4, []⟩
def MC_XG_INFO_MARGIN : Fld := ⟨0x04C, 15, 8, .ro, 0, 1, 4, []⟩
def MC_XG_INFO_PARITY : Fld := ⟨0x04C, 31, 16, .rc, 0, 1, 4, []⟩
def MC_XG_RETRAIN_DUE : Fld := ⟨0x050, 31, 0, .w1s, 0, 1, 4, []⟩

def Fld.colGroupPage : List Fld :=
  [MC_XG_STATE_UP_STATE, MC_XG_STATE_DN_STATE, MC_XG_SEL_GROUP, MC_XG_INFO_SPARES, MC_XG_INFO_HALF_UPPER, MC_XG_INFO_MARGIN, MC_XG_INFO_PARITY, MC_XG_RETRAIN_DUE]

/-! ### partingLink page -/

def MC_PL_STATE_CD : Fld := ⟨0x040, 1, 0, .ro, 0, 1, 4, []⟩
def MC_PL_STATE_DC : Fld := ⟨0x040, 3, 2, .ro, 0, 1, 4, []⟩
def MC_PL_STATE_CD_UPPER : Fld := ⟨0x040, 4, 4, .ro, 0, 1, 4, []⟩
def MC_PL_STATE_DC_UPPER : Fld := ⟨0x040, 5, 5, .ro, 0, 1, 4, []⟩
def MC_PL_SPARES_CD : Fld := ⟨0x044, 7, 0, .ro, 0, 1, 4, []⟩
def MC_PL_SPARES_DC : Fld := ⟨0x044, 15, 8, .ro, 0, 1, 4, []⟩
def MC_PL_PARITY_COUNT : Fld := ⟨0x048, 15, 0, .rc, 0, 1, 4, []⟩
def MC_PL_PARITY_GROUP : Fld := ⟨0x048, 23, 16, .ro, 0, 1, 4, []⟩
def MC_PL_PARITY_DIR : Fld := ⟨0x048, 24, 24, .ro, 0, 1, 4, []⟩
def MC_PL_MARGIN_CD : Fld := ⟨0x04C, 7, 0, .ro, 0, 1, 4, []⟩
def MC_PL_MARGIN_DC : Fld := ⟨0x04C, 15, 8, .ro, 0, 1, 4, []⟩

def Fld.partingLinkPage : List Fld :=
  [MC_PL_STATE_CD, MC_PL_STATE_DC, MC_PL_STATE_CD_UPPER, MC_PL_STATE_DC_UPPER, MC_PL_SPARES_CD, MC_PL_SPARES_DC, MC_PL_PARITY_COUNT, MC_PL_PARITY_GROUP, MC_PL_PARITY_DIR, MC_PL_MARGIN_CD, MC_PL_MARGIN_DC]

/-! ### slice page -/

def SB_STATUS_STATE : Fld := ⟨0x040, 1, 0, .ro, 0, 1, 4, []⟩
def SB_STATUS_PARTITION : Fld := ⟨0x040, 4, 2, .ro, 0, 1, 4, []⟩
def SB_STATUS_REBUILD_HOME : Fld := ⟨0x040, 5, 5, .ro, 0, 1, 4, []⟩
def SB_REGIONS_SCRATCH_MB : Fld := ⟨0x044, 6, 0, .rwl, 96, 1, 4, []⟩
def SB_REGIONS_ATOM_MB : Fld := ⟨0x044, 14, 8, .rwl, 0, 1, 4, []⟩
def SB_REGIONS_RED_MB : Fld := ⟨0x044, 22, 16, .rwl, 0, 1, 4, []⟩
def SB_REGIONS_RED_FMT : Fld := ⟨0x044, 25, 24, .rwl, 0, 1, 4, []⟩
def SB_REGIONS_CLEAR_ON_READ : Fld := ⟨0x044, 26, 26, .rwl, 0, 1, 4, []⟩
def SB_CACHE_CTRL_RET_WAYS : Fld := ⟨0x048, 2, 0, .rwl, 0, 1, 4, []⟩
def SB_CACHE_CTRL_FLUSH : Fld := ⟨0x048, 8, 8, .w1s, 0, 1, 4, []⟩
def SB_CRANGE_BASE : Fld := ⟨0x04C, 10, 0, .rwl, 0, 4, 4, []⟩
def SB_CRANGE_COUNT : Fld := ⟨0x04C, 26, 16, .rwl, 0, 4, 4, []⟩
def SB_CRANGE_VALID : Fld := ⟨0x04C, 31, 31, .rwl, 0, 4, 4, []⟩
def SB_RRANGE_BASE : Fld := ⟨0x05C, 10, 0, .rwl, 0, 2, 4, []⟩
def SB_RRANGE_COUNT : Fld := ⟨0x05C, 26, 16, .rwl, 0, 2, 4, []⟩
def SB_RRANGE_VALID : Fld := ⟨0x05C, 31, 31, .rwl, 0, 2, 4, []⟩
def SB_HIT_COUNT : Fld := ⟨0x064, 31, 0, .rc, 0, 1, 4, []⟩
def SB_MISS_COUNT : Fld := ⟨0x068, 31, 0, .rc, 0, 1, 4, []⟩
def SB_WB_COUNT : Fld := ⟨0x06C, 31, 0, .rc, 0, 1, 4, []⟩
def SB_DIRTY_SECTORS : Fld := ⟨0x070, 20, 0, .ro, 0, 1, 4, []⟩
def SB_ATOMS_COUNT : Fld := ⟨0x074, 31, 0, .rc, 0, 1, 4, []⟩
def SB_REDWORDS_COUNT : Fld := ⟨0x078, 31, 0, .rc, 0, 1, 4, []⟩
def SB_MERGE_COUNT : Fld := ⟨0x07C, 31, 0, .rc, 0, 1, 4, []⟩
def SB_BANK_WAIT_COUNT : Fld := ⟨0x080, 31, 0, .rc, 0, 1, 4, []⟩
def SB_REGION_DENY_COUNT : Fld := ⟨0x084, 15, 0, .rc, 0, 1, 4, []⟩
def SB_REGION_DENY_SRC : Fld := ⟨0x084, 31, 16, .ro, 0, 1, 4, []⟩
def SB_PARITY_COUNT : Fld := ⟨0x088, 15, 0, .rc, 0, 1, 4, []⟩
def SB_PARITY_LAST_CLEAN : Fld := ⟨0x088, 16, 16, .ro, 0, 1, 4, []⟩
def SB_PARITY_ADDR_SECTOR : Fld := ⟨0x08C, 26, 6, .ro, 0, 1, 4, []⟩
def SB_WB_LOST_COUNT : Fld := ⟨0x090, 15, 0, .rc, 0, 1, 4, []⟩
def SB_CHK_SUSPECT_COUNT : Fld := ⟨0x094, 15, 0, .rc, 0, 1, 4, []⟩
def SB_CHK_SUSPECT_QUEUE : Fld := ⟨0x094, 24, 16, .ro, 0, 1, 4, []⟩
def SB_CHK_REBUILT_BLOCKS : Fld := ⟨0x098, 15, 0, .rc, 0, 1, 4, []⟩
def SB_CHK_REBUILT_ENTRY_FIXED : Fld := ⟨0x098, 31, 16, .rc, 0, 1, 4, []⟩
def SB_CHK_LOST_BLOCKS : Fld := ⟨0x09C, 15, 0, .rc, 0, 1, 4, []⟩
def SB_CHK_LOST_TRANSIENT : Fld := ⟨0x09C, 31, 16, .rc, 0, 1, 4, []⟩

def Fld.slicePage : List Fld :=
  [SB_STATUS_STATE, SB_STATUS_PARTITION, SB_STATUS_REBUILD_HOME, SB_REGIONS_SCRATCH_MB, SB_REGIONS_ATOM_MB, SB_REGIONS_RED_MB, SB_REGIONS_RED_FMT, SB_REGIONS_CLEAR_ON_READ, SB_CACHE_CTRL_RET_WAYS, SB_CACHE_CTRL_FLUSH, SB_CRANGE_BASE, SB_CRANGE_COUNT, SB_CRANGE_VALID, SB_RRANGE_BASE, SB_RRANGE_COUNT, SB_RRANGE_VALID, SB_HIT_COUNT, SB_MISS_COUNT, SB_WB_COUNT, SB_DIRTY_SECTORS, SB_ATOMS_COUNT, SB_REDWORDS_COUNT, SB_MERGE_COUNT, SB_BANK_WAIT_COUNT, SB_REGION_DENY_COUNT, SB_REGION_DENY_SRC, SB_PARITY_COUNT, SB_PARITY_LAST_CLEAN, SB_PARITY_ADDR_SECTOR, SB_WB_LOST_COUNT, SB_CHK_SUSPECT_COUNT, SB_CHK_SUSPECT_QUEUE, SB_CHK_REBUILT_BLOCKS, SB_CHK_REBUILT_ENTRY_FIXED, SB_CHK_LOST_BLOCKS, SB_CHK_LOST_TRANSIENT]

/-! ### runner page -/

def RN_PSTAT_STATE : Fld := ⟨0x040, 3, 0, .ro, 0, 1, 4, []⟩
def RN_PSTAT_WIDTH : Fld := ⟨0x040, 5, 4, .ro, 0, 1, 4, []⟩
def RN_PSTAT_RATE : Fld := ⟨0x040, 8, 6, .ro, 0, 1, 4, []⟩
def RN_PSTAT_REVERSED : Fld := ⟨0x040, 9, 9, .ro, 0, 1, 4, []⟩
def RN_PSTAT_RETRAIN_DUE : Fld := ⟨0x040, 10, 10, .ro, 0, 1, 4, []⟩
def RN_PSTAT_SCHED_OK : Fld := ⟨0x040, 11, 11, .ro, 0, 1, 4, []⟩
def RN_PCTRL_MAX_RATE : Fld := ⟨0x044, 2, 0, .rwl, 4, 1, 4, []⟩
def RN_PCTRL_ENABLE : Fld := ⟨0x044, 3, 3, .rwl, 1, 1, 4, []⟩
def RN_PCTRL_AUTO : Fld := ⟨0x044, 4, 4, .rwl, 1, 1, 4, []⟩
def RN_PCTRL_RETRAIN : Fld := ⟨0x044, 5, 5, .w1s, 0, 1, 4, []⟩
def RN_PCTRL_ALLOW_X4 : Fld := ⟨0x044, 6, 6, .rwl, 1, 1, 4, []⟩
def RN_PARTNER_PACKAGE : Fld := ⟨0x048, 15, 0, .ro, 65535, 1, 4, []⟩
def RN_PARTNER_PORT : Fld := ⟨0x048, 20, 16, .ro, 0, 1, 4, []⟩
def RN_PARTNER_RATES : Fld := ⟨0x048, 28, 24, .ro, 0, 1, 4, []⟩
def RN_DELAY_PS : Fld := ⟨0x04C, 31, 0, .ro, 0, 1, 4, []⟩
def RN_DL_SLOTS : Fld := ⟨0x050, 3, 0, .ro, 0, 1, 4, []⟩
def RN_DL_SCHED_WORDS : Fld := ⟨0x050, 10, 4, .ro, 0, 1, 4, []⟩
def RN_REPLAY_COUNT : Fld := ⟨0x054, 15, 0, .rc, 0, 1, 4, []⟩
def RN_REPLAY_OUTSTANDING : Fld := ⟨0x054, 21, 16, .ro, 0, 1, 4, []⟩
def RN_FEC_UNCORR : Fld := ⟨0x058, 15, 0, .rc, 0, 1, 4, []⟩
def RN_FEC_AUTH_FAIL : Fld := ⟨0x058, 31, 16, .rc, 0, 1, 4, []⟩
def RN_SCHED_LATE_LATE : Fld := ⟨0x05C, 15, 0, .rc, 0, 1, 4, []⟩
def RN_SCHED_LATE_DROP : Fld := ⟨0x05C, 31, 16, .rc, 0, 1, 4, []⟩
def RN_TRAIN_FAILS : Fld := ⟨0x060, 7, 0, .rc, 0, 1, 4, []⟩
def RN_TRAIN_FAIL_STATE : Fld := ⟨0x060, 11, 8, .ro, 0, 1, 4, []⟩
def RN_KEY_INDEX : Fld := ⟨0x064, 31, 0, .ro, 0, 1, 4, []⟩
def RN_TM_OFFSET_PS : Fld := ⟨0x068, 31, 0, .ro, 0, 1, 4, []⟩
def RN_TM_STATE_PARTNER : Fld := ⟨0x06C, 2, 0, .ro, 0, 1, 4, []⟩
def RN_TM_STATE_FRESH : Fld := ⟨0x06C, 3, 3, .rc, 0, 1, 4, []⟩
def RN_CREDIT_INDIGO : Fld := ⟨0x070, 8, 0, .ro, 0, 1, 4, []⟩
def RN_CREDIT_WOAD : Fld := ⟨0x070, 21, 9, .ro, 0, 1, 4, []⟩
def RN_CREDIT_SYNC : Fld := ⟨0x070, 28, 22, .ro, 0, 1, 4, []⟩

def Fld.runnerPage : List Fld :=
  [RN_PSTAT_STATE, RN_PSTAT_WIDTH, RN_PSTAT_RATE, RN_PSTAT_REVERSED, RN_PSTAT_RETRAIN_DUE, RN_PSTAT_SCHED_OK, RN_PCTRL_MAX_RATE, RN_PCTRL_ENABLE, RN_PCTRL_AUTO, RN_PCTRL_RETRAIN, RN_PCTRL_ALLOW_X4, RN_PARTNER_PACKAGE, RN_PARTNER_PORT, RN_PARTNER_RATES, RN_DELAY_PS, RN_DL_SLOTS, RN_DL_SCHED_WORDS, RN_REPLAY_COUNT, RN_REPLAY_OUTSTANDING, RN_FEC_UNCORR, RN_FEC_AUTH_FAIL, RN_SCHED_LATE_LATE, RN_SCHED_LATE_DROP, RN_TRAIN_FAILS, RN_TRAIN_FAIL_STATE, RN_KEY_INDEX, RN_TM_OFFSET_PS, RN_TM_STATE_PARTNER, RN_TM_STATE_FRESH, RN_CREDIT_INDIGO, RN_CREDIT_WOAD, RN_CREDIT_SYNC]

/-! ### lane page -/

def RN_LSTAT_STATE : Fld := ⟨0x040, 1, 0, .ro, 0, 1, 4, []⟩
def RN_LSTAT_POLINV : Fld := ⟨0x040, 2, 2, .ro, 0, 1, 4, []⟩
def RN_LSTAT_PHYS : Fld := ⟨0x040, 5, 3, .ro, 0, 1, 4, []⟩
def RN_LSTAT_FEC_LOCK : Fld := ⟨0x040, 6, 6, .ro, 0, 1, 4, []⟩
def RN_LCORR_COUNT : Fld := ⟨0x044, 31, 0, .rc, 0, 1, 4, []⟩
def RN_LUNCORR_COUNT : Fld := ⟨0x048, 15, 0, .rc, 0, 1, 4, []⟩
def RN_LSTUFF_TX : Fld := ⟨0x04C, 15, 0, .rc, 0, 1, 4, []⟩
def RN_LSTUFF_RX : Fld := ⟨0x04C, 31, 16, .rc, 0, 1, 4, []⟩
def RN_LSLACK_OWED : Fld := ⟨0x050, 8, 0, .ro, 0, 1, 4, []⟩
def RN_LSLACK_STUFF_ERR : Fld := ⟨0x050, 31, 16, .rc, 0, 1, 4, []⟩
def RN_EYE_CTRL_EYE : Fld := ⟨0x054, 1, 0, .rwl, 0, 1, 4, []⟩
def RN_EYE_CTRL_DWELL : Fld := ⟨0x054, 6, 2, .rwl, 20, 1, 4, []⟩
def RN_EYE_CTRL_ENABLE : Fld := ⟨0x054, 7, 7, .rwl, 1, 1, 4, []⟩
def RN_EYE_MARGIN_PHASE : Fld := ⟨0x058, 7, 0, .ro, 0, 1, 4, []⟩
def RN_EYE_MARGIN_VOLT : Fld := ⟨0x058, 15, 8, .ro, 0, 1, 4, []⟩
def RN_EYE_MARGIN_EYE : Fld := ⟨0x058, 17, 16, .ro, 0, 1, 4, []⟩
def RN_EYE_MARGIN_PASSES : Fld := ⟨0x058, 31, 18, .ro, 0, 1, 4, []⟩
def RN_MARGIN_MIN_PHASE : Fld := ⟨0x05C, 7, 0, .rwl, 8, 1, 4, []⟩
def RN_MARGIN_MIN_VOLT : Fld := ⟨0x05C, 15, 8, .rwl, 6, 1, 4, []⟩
def RN_EYE_SEL_PHASE : Fld := ⟨0x060, 5, 0, .rw, 0, 1, 4, []⟩
def RN_EYE_SEL_VOLT : Fld := ⟨0x060, 13, 8, .rw, 0, 1, 4, []⟩
def RN_EYE_SEL_EYE : Fld := ⟨0x060, 15, 14, .rw, 0, 1, 4, []⟩
def RN_EYE_COUNT_ERRORS : Fld := ⟨0x064, 31, 0, .ro, 0, 1, 4, []⟩

def Fld.lanePage : List Fld :=
  [RN_LSTAT_STATE, RN_LSTAT_POLINV, RN_LSTAT_PHYS, RN_LSTAT_FEC_LOCK, RN_LCORR_COUNT, RN_LUNCORR_COUNT, RN_LSTUFF_TX, RN_LSTUFF_RX, RN_LSLACK_OWED, RN_LSLACK_STUFF_ERR, RN_EYE_CTRL_EYE, RN_EYE_CTRL_DWELL, RN_EYE_CTRL_ENABLE, RN_EYE_MARGIN_PHASE, RN_EYE_MARGIN_VOLT, RN_EYE_MARGIN_EYE, RN_EYE_MARGIN_PASSES, RN_MARGIN_MIN_PHASE, RN_MARGIN_MIN_VOLT, RN_EYE_SEL_PHASE, RN_EYE_SEL_VOLT, RN_EYE_SEL_EYE, RN_EYE_COUNT_ERRORS]

/-! ### hallFabric page -/

def NW_HPKG_PKG : Fld := ⟨0x040, 15, 0, .rwl, 65535, 1, 4, []⟩
def NW_HTIMEOUT_US : Fld := ⟨0x044, 15, 0, .rwl, 50, 1, 4, []⟩
def NW_HHOPMAX_MAX : Fld := ⟨0x048, 3, 0, .rwl, 12, 1, 4, []⟩
def NW_HMEMB_STAGE_LO_PKG : Fld := ⟨0x04C, 15, 0, .wo, 0, 1, 4, []⟩
def NW_HMEMB_STAGE_LO_STATE : Fld := ⟨0x04C, 17, 16, .wo, 0, 1, 4, []⟩
def NW_HMEMB_STAGE_HI_TAG : Fld := ⟨0x050, 29, 0, .wo, 0, 1, 4, []⟩
def NW_HMEMB_STAT_QUEUED : Fld := ⟨0x054, 10, 0, .ro, 0, 1, 4, []⟩
def NW_HMEMB_STAT_LAST_REFUSED : Fld := ⟨0x054, 11, 11, .ro, 0, 1, 4, []⟩
def NW_HMEMB_STAT_APPLIED : Fld := ⟨0x054, 31, 16, .rc, 0, 1, 4, []⟩
def NW_HRT_EPOCH_EPOCH : Fld := ⟨0x058, 31, 0, .rw, 0, 1, 4, []⟩
def NW_HRT_SWAP_PARTS : Fld := ⟨0x05C, 7, 0, .w1s, 0, 1, 4, []⟩
def NW_HRT_SWAP_LAST_REFUSED : Fld := ⟨0x05C, 8, 8, .ro, 0, 1, 4, []⟩
def NW_HRT_COPY_PARTS : Fld := ⟨0x060, 7, 0, .w1s, 0, 1, 4, []⟩
def NW_HRT_VER_SWAPS : Fld := ⟨0x064, 15, 0, .ro, 0, 1, 4, []⟩
def NW_HNOMEMB_COUNT : Fld := ⟨0x068, 15, 0, .rc, 0, 1, 4, []⟩
def NW_HNOMEMB_PKG : Fld := ⟨0x068, 31, 16, .ro, 0, 1, 4, []⟩
def NW_HUNMAP_COUNT : Fld := ⟨0x06C, 15, 0, .rc, 0, 1, 4, []⟩
def NW_HUNMAP_SRC : Fld := ⟨0x06C, 31, 16, .ro, 0, 1, 4, []⟩
def NW_HROUTE_COUNT : Fld := ⟨0x070, 15, 0, .rc, 0, 1, 4, []⟩
def NW_HROUTE_PKG : Fld := ⟨0x070, 31, 16, .ro, 0, 1, 4, []⟩
def NW_HTOUT_COUNT : Fld := ⟨0x074, 15, 0, .rc, 0, 1, 4, []⟩
def NW_HTOUT_LATE : Fld := ⟨0x074, 31, 16, .rc, 0, 1, 4, []⟩
def NW_HOUT_REQS : Fld := ⟨0x078, 15, 0, .ro, 0, 1, 4, []⟩
def NW_HRELAY_STATUS : Fld := ⟨0x07C, 7, 0, .ro, 0, 1, 4, []⟩
def NW_HRELAY_PORT : Fld := ⟨0x07C, 12, 8, .ro, 0, 1, 4, []⟩
def NW_HSTOP_ACTION : Fld := ⟨0x080, 1, 0, .ro, 0, 24, 4, []⟩
def NW_HSTOP_CLASSES : Fld := ⟨0x080, 4, 2, .ro, 0, 24, 4, []⟩
def NW_HSTOP_LIMIT : Fld := ⟨0x080, 15, 5, .ro, 0, 24, 4, []⟩
def NW_HSTOP_SRC : Fld := ⟨0x080, 31, 16, .ro, 0, 24, 4, []⟩
def NW_HSTOP_CNT_DROPPED : Fld := ⟨0x0E0, 15, 0, .rc, 0, 24, 4, []⟩
def NW_HSTOP_CNT_HELD : Fld := ⟨0x0E0, 31, 16, .rc, 0, 24, 4, []⟩
def NW_HSTOP_ID_ID : Fld := ⟨0x140, 31, 0, .ro, 0, 1, 4, []⟩

def Fld.hallFabricPage : List Fld :=
  [NW_HPKG_PKG, NW_HTIMEOUT_US, NW_HHOPMAX_MAX, NW_HMEMB_STAGE_LO_PKG, NW_HMEMB_STAGE_LO_STATE, NW_HMEMB_STAGE_HI_TAG, NW_HMEMB_STAT_QUEUED, NW_HMEMB_STAT_LAST_REFUSED, NW_HMEMB_STAT_APPLIED, NW_HRT_EPOCH_EPOCH, NW_HRT_SWAP_PARTS, NW_HRT_SWAP_LAST_REFUSED, NW_HRT_COPY_PARTS, NW_HRT_VER_SWAPS, NW_HNOMEMB_COUNT, NW_HNOMEMB_PKG, NW_HUNMAP_COUNT, NW_HUNMAP_SRC, NW_HROUTE_COUNT, NW_HROUTE_PKG, NW_HTOUT_COUNT, NW_HTOUT_LATE, NW_HOUT_REQS, NW_HRELAY_STATUS, NW_HRELAY_PORT, NW_HSTOP_ACTION, NW_HSTOP_CLASSES, NW_HSTOP_LIMIT, NW_HSTOP_SRC, NW_HSTOP_CNT_DROPPED, NW_HSTOP_CNT_HELD, NW_HSTOP_ID_ID]

/-! ### sprue page -/

def SP_STATUS_LINK : Fld := ⟨0x040, 1, 0, .ro, 0, 1, 4, []⟩
def SP_STATUS_KEYED : Fld := ⟨0x040, 2, 2, .ro, 0, 1, 4, []⟩
def SP_STATUS_VLAS_OK : Fld := ⟨0x040, 3, 3, .ro, 0, 1, 4, []⟩
def SP_RXERR_UNCORR : Fld := ⟨0x044, 15, 0, .rc, 0, 1, 4, []⟩
def SP_RXERR_AUTH : Fld := ⟨0x044, 31, 16, .rc, 0, 1, 4, []⟩
def SP_DISCARD_COUNT : Fld := ⟨0x048, 15, 0, .rc, 0, 1, 4, []⟩
def SP_INTAKE_QUEUED : Fld := ⟨0x04C, 8, 0, .ro, 0, 1, 4, []⟩
def SP_INTAKE_REFUSED : Fld := ⟨0x04C, 31, 16, .rc, 0, 1, 4, []⟩
def SP_TXQ_FRAMES : Fld := ⟨0x050, 8, 0, .ro, 0, 1, 4, []⟩
def SP_TXQ_DROPPED : Fld := ⟨0x050, 31, 16, .rc, 0, 1, 4, []⟩
def SP_SEQ_RX_SEQ : Fld := ⟨0x054, 31, 0, .ro, 0, 1, 4, []⟩
def SP_SEQ_TX_SEQ : Fld := ⟨0x058, 31, 0, .ro, 0, 1, 4, []⟩
def SP_RELAY_SEQ_SEQ : Fld := ⟨0x05C, 31, 0, .ro, 0, 1, 4, []⟩
def SP_BULK_STREAMS : Fld := ⟨0x060, 3, 0, .ro, 0, 1, 4, []⟩
def SP_BULK_DROP : Fld := ⟨0x060, 31, 16, .rc, 0, 1, 4, []⟩
def SP_BULK_TO_US : Fld := ⟨0x064, 15, 0, .rwl, 1000, 1, 4, []⟩
def SP_DMA_READS : Fld := ⟨0x068, 4, 0, .ro, 0, 1, 4, []⟩
def SP_DMA_DISCARDED : Fld := ⟨0x068, 31, 16, .rc, 0, 1, 4, []⟩
def SP_LSLACK_OWED : Fld := ⟨0x06C, 8, 0, .ro, 0, 1, 4, []⟩
def SP_LSLACK_STUFF_ERR : Fld := ⟨0x06C, 31, 16, .rc, 0, 1, 4, []⟩
def SP_OPT_TX_PWR : Fld := ⟨0x070, 7, 0, .ro, 0, 1, 4, []⟩
def SP_OPT_RX_PWR : Fld := ⟨0x070, 15, 8, .ro, 0, 1, 4, []⟩
def SP_OPT_LASER_T : Fld := ⟨0x070, 23, 16, .ro, 0, 1, 4, []⟩

def Fld.spruePage : List Fld :=
  [SP_STATUS_LINK, SP_STATUS_KEYED, SP_STATUS_VLAS_OK, SP_RXERR_UNCORR, SP_RXERR_AUTH, SP_DISCARD_COUNT, SP_INTAKE_QUEUED, SP_INTAKE_REFUSED, SP_TXQ_FRAMES, SP_TXQ_DROPPED, SP_SEQ_RX_SEQ, SP_SEQ_TX_SEQ, SP_RELAY_SEQ_SEQ, SP_BULK_STREAMS, SP_BULK_DROP, SP_BULK_TO_US, SP_DMA_READS, SP_DMA_DISCARDED, SP_LSLACK_OWED, SP_LSLACK_STUFF_ERR, SP_OPT_TX_PWR, SP_OPT_RX_PWR, SP_OPT_LASER_T]

/-! ### events page -/

def EV_CTRL_RING_EN : Fld := ⟨0x040, 0, 0, .rwl, 0, 1, 4, []⟩
def EV_CTRL_FRAME_MIN : Fld := ⟨0x040, 2, 1, .rwl, 0, 1, 4, []⟩
def EV_RING_LO_ADDR : Fld := ⟨0x044, 31, 0, .rwl, 0, 1, 4, []⟩
def EV_RING_HI_ADDR : Fld := ⟨0x048, 31, 0, .rwl, 0, 1, 4, []⟩
def EV_RING_SIZE_LOG2 : Fld := ⟨0x04C, 4, 0, .rwl, 7, 1, 4, []⟩
def EV_WR_INDEX : Fld := ⟨0x050, 31, 0, .ro, 0, 1, 4, []⟩
def EV_RD_INDEX : Fld := ⟨0x054, 31, 0, .rw, 0, 1, 4, []⟩
def EV_LOST_COUNT : Fld := ⟨0x058, 31, 0, .rc, 0, 1, 4, []⟩
def EV_STAT_RING_FAULT : Fld := ⟨0x05C, 0, 0, .ro, 0, 1, 4, []⟩
def EV_STAT_FAULT_STATUS : Fld := ⟨0x05C, 15, 8, .ro, 0, 1, 4, []⟩
def LG_STATUS_BUSY : Fld := ⟨0x100, 0, 0, .ro, 0, 1, 4, []⟩
def LG_STATUS_WRITE_FAIL : Fld := ⟨0x100, 1, 1, .w1c, 0, 1, 4, []⟩
def LG_STATUS_SHUT_LOW : Fld := ⟨0x100, 2, 2, .ro, 0, 1, 4, []⟩
def LG_SHUT_FREE : Fld := ⟨0x104, 8, 0, .ro, 0, 1, 4, []⟩
def LG_SHUT_PENDING : Fld := ⟨0x104, 24, 16, .ro, 0, 1, 4, []⟩
def LG_SHUT_SEQ_LO_SEQ : Fld := ⟨0x108, 31, 0, .ro, 0, 1, 4, []⟩
def LG_SHUT_SEQ_HI_SEQ : Fld := ⟨0x10C, 31, 0, .ro, 0, 1, 4, []⟩
def LG_AGE_SEQ_SEQ : Fld := ⟨0x110, 31, 0, .ro, 0, 1, 4, []⟩
def LG_AGE_FILL_RECORDS : Fld := ⟨0x114, 18, 0, .ro, 0, 1, 4, []⟩
def LG_WEAR_MAX_ERASE : Fld := ⟨0x118, 16, 0, .ro, 0, 1, 4, []⟩

def Fld.eventsPage : List Fld :=
  [EV_CTRL_RING_EN, EV_CTRL_FRAME_MIN, EV_RING_LO_ADDR, EV_RING_HI_ADDR, EV_RING_SIZE_LOG2, EV_WR_INDEX, EV_RD_INDEX, EV_LOST_COUNT, EV_STAT_RING_FAULT, EV_STAT_FAULT_STATUS, LG_STATUS_BUSY, LG_STATUS_WRITE_FAIL, LG_STATUS_SHUT_LOW, LG_SHUT_FREE, LG_SHUT_PENDING, LG_SHUT_SEQ_LO_SEQ, LG_SHUT_SEQ_HI_SEQ, LG_AGE_SEQ_SEQ, LG_AGE_FILL_RECORDS, LG_WEAR_MAX_ERASE]

/-! ### cxl page -/

def CX_STATUS_STATE : Fld := ⟨0x040, 2, 0, .ro, 0, 1, 4, []⟩
def CX_STATUS_X8 : Fld := ⟨0x040, 3, 3, .ro, 0, 1, 4, []⟩
def CX_STATUS_RATE32 : Fld := ⟨0x040, 4, 4, .ro, 0, 1, 4, []⟩
def CX_TARGET_PRESENT : Fld := ⟨0x044, 0, 0, .ro, 0, 4, 4, []⟩
def CX_TARGET_SWITCHED : Fld := ⟨0x044, 1, 1, .ro, 0, 4, 4, []⟩
def CX_TARGET_CAP_GIB : Fld := ⟨0x044, 14, 2, .ro, 0, 4, 4, []⟩
def CX_ERR_TIMEOUT : Fld := ⟨0x054, 15, 0, .rc, 0, 1, 4, []⟩
def CX_ERR_POISON : Fld := ⟨0x054, 31, 16, .rc, 0, 1, 4, []⟩
def CX_TAGFAIL_COUNT : Fld := ⟨0x058, 15, 0, .rc, 0, 1, 4, []⟩
def CX_TAGFAIL_CTR_EXHAUST : Fld := ⟨0x058, 31, 16, .rc, 0, 1, 4, []⟩
def CX_TIMEOUT_US : Fld := ⟨0x05C, 15, 0, .rwl, 10, 1, 4, []⟩
def CX_DEC_BASE_BASE : Fld := ⟨0x080, 13, 0, .rwl, 0, 8, 16, []⟩
def CX_DEC_BASE_SIZE : Fld := ⟨0x080, 29, 16, .rwl, 0, 8, 16, []⟩
def CX_DEC_CTRL_WAYS : Fld := ⟨0x084, 1, 0, .rwl, 0, 8, 16, []⟩
def CX_DEC_CTRL_IG : Fld := ⟨0x084, 4, 2, .rwl, 0, 8, 16, []⟩
def CX_DEC_CTRL_TARGETS : Fld := ⟨0x084, 12, 5, .rwl, 0, 8, 16, []⟩
def CX_DEC_CTRL_TAGS : Fld := ⟨0x084, 13, 13, .rwl, 0, 8, 16, []⟩
def CX_DEC_CTRL_TAGDEC : Fld := ⟨0x084, 16, 14, .rwl, 0, 8, 16, []⟩
def CX_DEC_CTRL_TAGREGION : Fld := ⟨0x084, 17, 17, .rwl, 0, 8, 16, []⟩
def CX_DEC_CTRL_COMMIT : Fld := ⟨0x084, 30, 30, .w1s, 0, 8, 16, []⟩
def CX_DEC_CTRL_COMMITTED : Fld := ⟨0x084, 31, 31, .ro, 0, 8, 16, []⟩
def CX_DEC_STAT_INITIALISING : Fld := ⟨0x088, 0, 0, .ro, 0, 8, 16, []⟩
def CX_DEC_STAT_REFUSED : Fld := ⟨0x088, 1, 1, .ro, 0, 8, 16, []⟩

def Fld.cxlPage : List Fld :=
  [CX_STATUS_STATE, CX_STATUS_X8, CX_STATUS_RATE32, CX_TARGET_PRESENT, CX_TARGET_SWITCHED, CX_TARGET_CAP_GIB, CX_ERR_TIMEOUT, CX_ERR_POISON, CX_TAGFAIL_COUNT, CX_TAGFAIL_CTR_EXHAUST, CX_TIMEOUT_US, CX_DEC_BASE_BASE, CX_DEC_BASE_SIZE, CX_DEC_CTRL_WAYS, CX_DEC_CTRL_IG, CX_DEC_CTRL_TARGETS, CX_DEC_CTRL_TAGS, CX_DEC_CTRL_TAGDEC, CX_DEC_CTRL_TAGREGION, CX_DEC_CTRL_COMMIT, CX_DEC_CTRL_COMMITTED, CX_DEC_STAT_INITIALISING, CX_DEC_STAT_REFUSED]

/-! ### mordant page -/

def MD_STATUS_LIFECYCLE : Fld := ⟨0x040, 1, 0, .ro, 0, 1, 4, []⟩
def MD_STATUS_OPERATOR : Fld := ⟨0x040, 2, 2, .ro, 0, 1, 4, []⟩
def MD_STATUS_ALIAS_OK : Fld := ⟨0x040, 3, 3, .ro, 0, 1, 4, []⟩
def MD_STATUS_DRBG_OK : Fld := ⟨0x040, 4, 4, .ro, 0, 1, 4, []⟩
def MD_SVN_FUSED : Fld := ⟨0x044, 6, 0, .ro, 0, 1, 4, []⟩
def MD_SVN_MANIFEST : Fld := ⟨0x044, 14, 8, .ro, 0, 1, 4, []⟩
def MD_SVN_PENDING : Fld := ⟨0x044, 22, 16, .ro, 0, 1, 4, []⟩
def MD_ALIAS_GEN_COUNT : Fld := ⟨0x048, 15, 0, .ro, 0, 1, 4, []⟩
def MD_LINKS_KEYED : Fld := ⟨0x04C, 23, 0, .ro, 0, 1, 4, []⟩
def MD_FOREIGN_PORTS : Fld := ⟨0x050, 23, 0, .ro, 0, 1, 4, []⟩
def MD_FAIL_SESSION : Fld := ⟨0x054, 15, 0, .rc, 0, 1, 4, []⟩
def MD_FAIL_KEYX : Fld := ⟨0x054, 31, 16, .rc, 0, 1, 4, []⟩
def MD_PART_SESSION : Fld := ⟨0x080, 0, 0, .ro, 0, 8, 4, []⟩
def MD_PART_SEALED : Fld := ⟨0x080, 1, 1, .ro, 0, 8, 4, []⟩
def MD_PART_STRICT : Fld := ⟨0x080, 2, 2, .ro, 0, 8, 4, []⟩
def MD_PART_SCRUBBING : Fld := ⟨0x080, 3, 3, .ro, 0, 8, 4, []⟩
def MD_PART_PATKEY : Fld := ⟨0x080, 4, 4, .ro, 0, 8, 4, []⟩
def MD_PART_LOG_FULL : Fld := ⟨0x080, 5, 5, .ro, 0, 8, 4, []⟩
def MD_PART_KEYGEN : Fld := ⟨0x080, 15, 8, .ro, 0, 8, 4, []⟩
def MD_PART_LOG : Fld := ⟨0x080, 26, 16, .ro, 0, 8, 4, []⟩
def MD_PEV_WR_INDEX : Fld := ⟨0x0A0, 31, 0, .ro, 0, 8, 4, []⟩
def MD_OPHASH_HASH : Fld := ⟨0x0E0, 31, 0, .ro, 0, 8, 4, []⟩
def MD_SLOT_VALUE : Fld := ⟨0x100, 31, 0, .ro, 0, 128, 4, []⟩

def Fld.mordantPage : List Fld :=
  [MD_STATUS_LIFECYCLE, MD_STATUS_OPERATOR, MD_STATUS_ALIAS_OK, MD_STATUS_DRBG_OK, MD_SVN_FUSED, MD_SVN_MANIFEST, MD_SVN_PENDING, MD_ALIAS_GEN_COUNT, MD_LINKS_KEYED, MD_FOREIGN_PORTS, MD_FAIL_SESSION, MD_FAIL_KEYX, MD_PART_SESSION, MD_PART_SEALED, MD_PART_STRICT, MD_PART_SCRUBBING, MD_PART_PATKEY, MD_PART_LOG_FULL, MD_PART_KEYGEN, MD_PART_LOG, MD_PEV_WR_INDEX, MD_OPHASH_HASH, MD_SLOT_VALUE]

/-! ### bringup page -/

def BU_STAGE_STAGE : Fld := ⟨0x040, 3, 0, .ro, 0, 1, 4, []⟩
def BU_STAGE_STATUS : Fld := ⟨0x040, 5, 4, .ro, 0, 1, 4, []⟩
def BU_STAGE_DONE : Fld := ⟨0x040, 6, 6, .ro, 0, 1, 4, []⟩
def BU_STAGE_RESTORED : Fld := ⟨0x040, 7, 7, .ro, 0, 1, 4, []⟩
def BU_STAGE_FAIL : Fld := ⟨0x040, 15, 8, .ro, 0, 1, 4, []⟩
def BU_START_COUNT : Fld := ⟨0x044, 15, 0, .ro, 0, 1, 4, []⟩
def BU_START_CAUSE : Fld := ⟨0x044, 17, 16, .ro, 0, 1, 4, []⟩
def BU_CTRL_FAST_EN : Fld := ⟨0x048, 0, 0, .rwl, 1, 1, 4, []⟩
def BU_CTRL_SAVE_EN : Fld := ⟨0x048, 1, 1, .rwl, 1, 1, 4, []⟩
def BU_DEFECTS_LISTED : Fld := ⟨0x04C, 10, 0, .ro, 0, 1, 4, []⟩
def BU_DEFECTS_NEW : Fld := ⟨0x04C, 31, 16, .ro, 0, 1, 4, []⟩
def BU_REDUCED_DIES : Fld := ⟨0x050, 7, 0, .ro, 0, 1, 4, []⟩
def BU_REDUCED_ABSENT : Fld := ⟨0x050, 15, 8, .ro, 0, 1, 4, []⟩
def BU_REDUCED_RISER_ABSENT : Fld := ⟨0x050, 23, 16, .ro, 0, 1, 4, []⟩
def BU_LEVEL_LEVEL : Fld := ⟨0x054, 3, 0, .ro, 0, 1, 4, []⟩
def BU_LEVEL_FEATURES : Fld := ⟨0x054, 31, 4, .ro, 0, 1, 4, []⟩
def BU_RESET_SCOPE : Fld := ⟨0x058, 2, 0, .ro, 7, 1, 4, []⟩
def BU_RESET_DRAINING : Fld := ⟨0x058, 3, 3, .ro, 0, 1, 4, []⟩
def BU_RESET_ABORT_ABSORBED : Fld := ⟨0x05C, 15, 0, .rc, 0, 1, 4, []⟩
def BU_RESET_ABORT_DISCARDED : Fld := ⟨0x05C, 31, 16, .rc, 0, 1, 4, []⟩
def BU_STAGE_MS_MS : Fld := ⟨0x080, 31, 0, .ro, 0, 12, 4, []⟩
def BU_DIE_REV_STEPPING : Fld := ⟨0x0C0, 7, 0, .ro, 0, 8, 4, []⟩
def BU_DIE_REV_LEVEL : Fld := ⟨0x0C0, 11, 8, .ro, 0, 8, 4, []⟩
def BU_DIE_REV_PRESENT : Fld := ⟨0x0C0, 12, 12, .ro, 0, 8, 4, []⟩
def BU_DIE_REV_FENCED : Fld := ⟨0x0C0, 13, 13, .ro, 0, 8, 4, []⟩
def BU_BASE_REV_STEPPING : Fld := ⟨0x0E0, 7, 0, .ro, 0, 1, 4, []⟩
def PT_CONFIG_COUNT : Fld := ⟨0x100, 1, 0, .rwl, 0, 1, 4, []⟩
def PT_CONFIG_ACTIVE : Fld := ⟨0x100, 3, 2, .ro, 0, 1, 4, []⟩
def PT_CONFIG_PENDING : Fld := ⟨0x100, 4, 4, .ro, 0, 1, 4, []⟩
def PT_SEED_SEED : Fld := ⟨0x120, 15, 0, .rwl, 0, 8, 4, []⟩
def PT_RN_ASSIGN_PART : Fld := ⟨0x140, 2, 0, .rwl, 0, 24, 4, []⟩
def PT_RN_ASSIGN_VALID : Fld := ⟨0x140, 3, 3, .rwl, 1, 24, 4, []⟩
def PT_CX_ASSIGN_PART : Fld := ⟨0x1A0, 2, 0, .rwl, 0, 2, 4, []⟩
def PT_CX_ASSIGN_VALID : Fld := ⟨0x1A0, 3, 3, .rwl, 1, 2, 4, []⟩
def BU_UPD_STATE_STATE : Fld := ⟨0x200, 2, 0, .ro, 0, 1, 4, []⟩
def BU_UPD_STATE_SET : Fld := ⟨0x200, 3, 3, .ro, 0, 1, 4, []⟩
def BU_UPD_STATE_ROUND : Fld := ⟨0x200, 5, 4, .ro, 0, 1, 4, []⟩
def BU_UPD_EPOCH_EPOCH : Fld := ⟨0x204, 31, 0, .ro, 0, 1, 4, []⟩
def BU_UPD_NOTREADY_COUNT : Fld := ⟨0x208, 10, 0, .ro, 0, 1, 4, []⟩
def BU_UPD_FIRST_PAGE_ID : Fld := ⟨0x20C, 31, 0, .ro, 0, 1, 4, []⟩
def BU_UPD_COUNT_COMMITS : Fld := ⟨0x210, 15, 0, .ro, 0, 1, 4, []⟩
def BU_UPD_COUNT_ABORTS : Fld := ⟨0x210, 31, 16, .rc, 0, 1, 4, []⟩
def BU_UPD_REL_LO_RELEASE : Fld := ⟨0x214, 31, 0, .ro, 0, 1, 4, []⟩
def BU_UPD_REL_HI_RELEASE : Fld := ⟨0x218, 31, 0, .ro, 0, 1, 4, []⟩
def BU_PINS_RESET_N : Fld := ⟨0x060, 0, 0, .ro, 0, 1, 4, []⟩
def BU_PINS_PWR_GOOD : Fld := ⟨0x060, 1, 1, .ro, 0, 1, 4, []⟩
def BU_PINS_HOLD_N : Fld := ⟨0x060, 2, 2, .ro, 0, 1, 4, []⟩
def BU_PINS_PWR_OFF_REQ : Fld := ⟨0x060, 3, 3, .ro, 0, 1, 4, []⟩
def BU_PINS_THERM_TRIP : Fld := ⟨0x060, 4, 4, .ro, 0, 1, 4, []⟩
def BU_PINS_UNSTABLE : Fld := ⟨0x060, 7, 5, .ro, 0, 1, 4, []⟩
def BU_PINS_REFCLK_LOST : Fld := ⟨0x060, 8, 8, .ro, 0, 1, 4, []⟩
def BU_PIN_TOGGLE_RESET_N : Fld := ⟨0x064, 9, 0, .ro, 0, 1, 4, []⟩
def BU_PIN_TOGGLE_PWR_GOOD : Fld := ⟨0x064, 19, 10, .ro, 0, 1, 4, []⟩
def BU_PIN_TOGGLE_HOLD_N : Fld := ⟨0x064, 29, 20, .ro, 0, 1, 4, []⟩
def BU_PIN_HOLD_EPOCHS : Fld := ⟨0x068, 31, 0, .rc, 0, 1, 4, []⟩

def Fld.bringupPage : List Fld :=
  [BU_STAGE_STAGE, BU_STAGE_STATUS, BU_STAGE_DONE, BU_STAGE_RESTORED, BU_STAGE_FAIL, BU_START_COUNT, BU_START_CAUSE, BU_CTRL_FAST_EN, BU_CTRL_SAVE_EN, BU_DEFECTS_LISTED, BU_DEFECTS_NEW, BU_REDUCED_DIES, BU_REDUCED_ABSENT, BU_REDUCED_RISER_ABSENT, BU_LEVEL_LEVEL, BU_LEVEL_FEATURES, BU_RESET_SCOPE, BU_RESET_DRAINING, BU_RESET_ABORT_ABSORBED, BU_RESET_ABORT_DISCARDED, BU_STAGE_MS_MS, BU_DIE_REV_STEPPING, BU_DIE_REV_LEVEL, BU_DIE_REV_PRESENT, BU_DIE_REV_FENCED, BU_BASE_REV_STEPPING, PT_CONFIG_COUNT, PT_CONFIG_ACTIVE, PT_CONFIG_PENDING, PT_SEED_SEED, PT_RN_ASSIGN_PART, PT_RN_ASSIGN_VALID, PT_CX_ASSIGN_PART, PT_CX_ASSIGN_VALID, BU_UPD_STATE_STATE, BU_UPD_STATE_SET, BU_UPD_STATE_ROUND, BU_UPD_EPOCH_EPOCH, BU_UPD_NOTREADY_COUNT, BU_UPD_FIRST_PAGE_ID] ++
  [BU_UPD_COUNT_COMMITS, BU_UPD_COUNT_ABORTS, BU_UPD_REL_LO_RELEASE, BU_UPD_REL_HI_RELEASE, BU_PINS_RESET_N, BU_PINS_PWR_GOOD, BU_PINS_HOLD_N, BU_PINS_PWR_OFF_REQ, BU_PINS_THERM_TRIP, BU_PINS_UNSTABLE, BU_PINS_REFCLK_LOST, BU_PIN_TOGGLE_RESET_N, BU_PIN_TOGGLE_PWR_GOOD, BU_PIN_TOGGLE_HOLD_N, BU_PIN_HOLD_EPOCHS]

/-! ### housekeeping page -/

def HK_STATUS_ROUND : Fld := ⟨0x040, 0, 0, .ro, 0, 1, 4, []⟩
def HK_STATUS_SHUTDOWN : Fld := ⟨0x040, 1, 1, .ro, 0, 1, 4, []⟩
def HK_STATUS_ACK_PENDING : Fld := ⟨0x040, 2, 2, .ro, 0, 1, 4, []⟩
def HK_STATUS_CAUSE : Fld := ⟨0x040, 15, 8, .ro, 0, 1, 4, []⟩
def HK_ROUNDS_COUNT : Fld := ⟨0x044, 31, 0, .ro, 0, 1, 4, []⟩
def HK_HOTTEST_CHANNEL : Fld := ⟨0x048, 8, 0, .ro, 0, 1, 4, []⟩
def HK_HOTTEST_TEMP : Fld := ⟨0x048, 31, 16, .ro, 0, 1, 4, []⟩
def HK_NOTICE_COMP : Fld := ⟨0x04C, 7, 0, .rwl, 100, 1, 4, []⟩
def HK_NOTICE_BASE : Fld := ⟨0x04C, 15, 8, .rwl, 100, 1, 4, []⟩
def HK_NOTICE_DRAM : Fld := ⟨0x04C, 23, 16, .rwl, 95, 1, 4, []⟩
def HK_THOLD_RATE : Fld := ⟨0x050, 7, 0, .ro, 0, 1, 4, []⟩
def HK_THOLD_ABS : Fld := ⟨0x050, 15, 8, .ro, 0, 1, 4, []⟩
def HK_THOLD_POWER : Fld := ⟨0x050, 23, 16, .ro, 0, 1, 4, []⟩
def HK_EVENTS_NOTICE : Fld := ⟨0x054, 15, 0, .rc, 0, 1, 4, []⟩
def HK_EVENTS_HOLD : Fld := ⟨0x054, 31, 16, .rc, 0, 1, 4, []⟩
def HK_SENSOR_FAIL_COUNT : Fld := ⟨0x058, 7, 0, .ro, 0, 1, 4, []⟩
def HK_SENSOR_FAIL_CHANNEL : Fld := ⟨0x058, 16, 8, .ro, 0, 1, 4, []⟩
def HK_HOURS_HOURS : Fld := ⟨0x05C, 31, 0, .ro, 0, 1, 4, []⟩
def HK_REPLAN_HOURS : Fld := ⟨0x060, 31, 0, .ro, 0, 1, 4, []⟩
def HK_REPLAN_CTRL_REQUEST : Fld := ⟨0x064, 0, 0, .w1s, 0, 1, 4, []⟩
def HK_REPLAN_CTRL_RUNNING : Fld := ⟨0x064, 1, 1, .ro, 0, 1, 4, []⟩
def PD_VIN_MV : Fld := ⟨0x080, 15, 0, .ro, 0, 1, 4, []⟩
def PD_VIN_DA : Fld := ⟨0x080, 31, 16, .ro, 0, 1, 4, []⟩
def PD_VAUX_MV : Fld := ⟨0x084, 15, 0, .ro, 0, 1, 4, []⟩
def PD_VAUX_MA : Fld := ⟨0x084, 31, 16, .ro, 0, 1, 4, []⟩
def PD_VLAS_MV : Fld := ⟨0x088, 15, 0, .ro, 0, 1, 4, []⟩
def PD_VLAS_MA : Fld := ⟨0x088, 31, 16, .ro, 0, 1, 4, []⟩
def PD_POWER_MEAN_W : Fld := ⟨0x08C, 15, 0, .ro, 0, 1, 4, []⟩
def PD_POWER_PEAK_W : Fld := ⟨0x08C, 31, 16, .rc, 0, 1, 4, []⟩
def PD_LIMIT_W : Fld := ⟨0x090, 15, 0, .ro, 0, 1, 4, []⟩
def PD_OVER_ROUNDS : Fld := ⟨0x094, 15, 0, .rc, 0, 1, 4, []⟩
def PD_VCL_SET : Fld := ⟨0x100, 9, 0, .ro, 0, 80, 4, []⟩
def PD_VCL_START : Fld := ⟨0x100, 19, 10, .ro, 0, 80, 4, []⟩
def PD_VCL_CEILING : Fld := ⟨0x100, 20, 20, .ro, 0, 80, 4, []⟩
def PD_VCL_RETIRED : Fld := ⟨0x100, 21, 21, .ro, 0, 80, 4, []⟩
def PD_VBR_SET : Fld := ⟨0x240, 9, 0, .ro, 0, 16, 4, []⟩
def PD_VBR_START : Fld := ⟨0x240, 19, 10, .ro, 0, 16, 4, []⟩
def PD_VBR_CEILING : Fld := ⟨0x240, 20, 20, .ro, 0, 16, 4, []⟩
def PD_VBR_RETIRED : Fld := ⟨0x240, 21, 21, .ro, 0, 16, 4, []⟩
def PD_CEIL_CODE : Fld := ⟨0x280, 9, 0, .ro, 0, 1, 4, []⟩
def HK_READ_VALUE : Fld := ⟨0x400, 15, 0, .ro, 0, 512, 4, []⟩
def HK_RATE_RATE : Fld := ⟨0xC00, 15, 0, .ro, 0, 160, 4, []⟩

def Fld.housekeepingPage : List Fld :=
  [HK_STATUS_ROUND, HK_STATUS_SHUTDOWN, HK_STATUS_ACK_PENDING, HK_STATUS_CAUSE, HK_ROUNDS_COUNT, HK_HOTTEST_CHANNEL, HK_HOTTEST_TEMP, HK_NOTICE_COMP, HK_NOTICE_BASE, HK_NOTICE_DRAM, HK_THOLD_RATE, HK_THOLD_ABS, HK_THOLD_POWER, HK_EVENTS_NOTICE, HK_EVENTS_HOLD, HK_SENSOR_FAIL_COUNT, HK_SENSOR_FAIL_CHANNEL, HK_HOURS_HOURS, HK_REPLAN_HOURS, HK_REPLAN_CTRL_REQUEST, HK_REPLAN_CTRL_RUNNING, PD_VIN_MV, PD_VIN_DA, PD_VAUX_MV, PD_VAUX_MA, PD_VLAS_MV, PD_VLAS_MA, PD_POWER_MEAN_W, PD_POWER_PEAK_W, PD_LIMIT_W, PD_OVER_ROUNDS, PD_VCL_SET, PD_VCL_START, PD_VCL_CEILING, PD_VCL_RETIRED, PD_VBR_SET, PD_VBR_START, PD_VBR_CEILING, PD_VBR_RETIRED, PD_CEIL_CODE] ++
  [HK_READ_VALUE, HK_RATE_RATE]

/-! ### header page -/

def PAGE_ID_INSTANCE : Fld := ⟨0x000, 15, 0, .ro, 0, 1, 4, []⟩
def PAGE_ID_TYPE : Fld := ⟨0x000, 31, 16, .ro, 0, 1, 4, []⟩
def PAGE_REV_STEPPING : Fld := ⟨0x004, 7, 0, .ro, 0, 1, 4, []⟩
def PAGE_REV_LEVEL : Fld := ⟨0x004, 11, 8, .ro, 0, 1, 4, []⟩
def PAGE_REV_LAYOUT : Fld := ⟨0x004, 15, 12, .ro, 1, 1, 4, []⟩
def PAGE_CAP_EXTENT : Fld := ⟨0x008, 11, 0, .ro, 0, 1, 4, []⟩
def PAGE_CAP_FENCEABLE : Fld := ⟨0x008, 16, 16, .ro, 0, 1, 4, []⟩
def PAGE_CAP_RESETTABLE : Fld := ⟨0x008, 17, 17, .ro, 0, 1, 4, []⟩
def PAGE_CAP_TYPE_CAP : Fld := ⟨0x008, 31, 18, .ro, 0, 1, 4, []⟩
def PAGE_CTRL_ENABLE : Fld := ⟨0x00C, 0, 0, .rwl, 1, 1, 4, []⟩
def PAGE_CTRL_FENCE : Fld := ⟨0x00C, 1, 1, .w1s, 0, 1, 4, []⟩
def PAGE_CTRL_RESET_REQ : Fld := ⟨0x00C, 2, 2, .w1s, 0, 1, 4, []⟩
def PAGE_STAT_SERVICE : Fld := ⟨0x010, 1, 0, .ro, 0, 1, 4, []⟩
def PAGE_STAT_LEVEL : Fld := ⟨0x010, 3, 2, .ro, 0, 1, 4, []⟩
def PAGE_STAT_PARTITION : Fld := ⟨0x010, 6, 4, .ro, 0, 1, 4, []⟩
def PAGE_STAT_PART_VALID : Fld := ⟨0x010, 7, 7, .ro, 0, 1, 4, []⟩
def PAGE_STAT_SEALED : Fld := ⟨0x010, 8, 8, .ro, 0, 1, 4, []⟩
def PAGE_STAT_LOCKED : Fld := ⟨0x010, 9, 9, .ro, 0, 1, 4, []⟩
def PAGE_STAT_QUEUE : Fld := ⟨0x010, 14, 10, .ro, 0, 1, 4, []⟩
def EVT_STAT_OCHRE : Fld := ⟨0x014, 0, 0, .w1c, 0, 1, 4, []⟩
def EVT_STAT_MADDER : Fld := ⟨0x014, 1, 1, .w1c, 0, 1, 4, []⟩
def EVT_STAT_UMBER : Fld := ⟨0x014, 2, 2, .w1c, 0, 1, 4, []⟩
def EVT_STAT_LAMPBLACK : Fld := ⟨0x014, 3, 3, .w1c, 0, 1, 4, []⟩
def EVT_STAT_ESCALATED : Fld := ⟨0x014, 4, 4, .w1c, 0, 1, 4, []⟩
def EVT_STAT_OVERFLOW : Fld := ⟨0x014, 5, 5, .w1c, 0, 1, 4, []⟩
def EVT_MASK_OCHRE : Fld := ⟨0x018, 0, 0, .rwl, 0, 1, 4, []⟩
def EVT_FORCE_TEST : Fld := ⟨0x01C, 0, 0, .wo, 0, 1, 4, []⟩
def ERR_CNT_EVENTS : Fld := ⟨0x020, 15, 0, .rc, 0, 1, 4, []⟩
def ERR_CNT_REFUSED : Fld := ⟨0x020, 31, 16, .rc, 0, 1, 4, []⟩
def ERR_FIRST_CODE : Fld := ⟨0x024, 15, 0, .ro, 0, 1, 4, []⟩
def ERR_FIRST_SEV : Fld := ⟨0x024, 17, 16, .ro, 0, 1, 4, []⟩
def ERR_FIRST_VALID : Fld := ⟨0x024, 18, 18, .ro, 0, 1, 4, []⟩
def ERR_LAST_CODE : Fld := ⟨0x028, 15, 0, .ro, 0, 1, 4, []⟩
def ERR_LAST_SEV : Fld := ⟨0x028, 17, 16, .ro, 0, 1, 4, []⟩
def ERR_LAST_VALID : Fld := ⟨0x028, 18, 18, .ro, 0, 1, 4, []⟩
def ERR_INFO_OFFSET : Fld := ⟨0x02C, 11, 0, .ro, 0, 1, 4, []⟩
def ERR_INFO_CAUSE : Fld := ⟨0x02C, 15, 12, .ro, 0, 1, 4, []⟩
def ERR_INFO_SRC : Fld := ⟨0x02C, 31, 16, .ro, 0, 1, 4, []⟩
def LOCK_OWNER : Fld := ⟨0x030, 1, 0, .ro, 0, 1, 4, []⟩
def SCRATCH_VALUE : Fld := ⟨0x03C, 31, 0, .rw, 0, 1, 4, []⟩

def Fld.headerPage : List Fld :=
  [PAGE_ID_INSTANCE, PAGE_ID_TYPE, PAGE_REV_STEPPING, PAGE_REV_LEVEL, PAGE_REV_LAYOUT, PAGE_CAP_EXTENT, PAGE_CAP_FENCEABLE, PAGE_CAP_RESETTABLE, PAGE_CAP_TYPE_CAP, PAGE_CTRL_ENABLE, PAGE_CTRL_FENCE, PAGE_CTRL_RESET_REQ, PAGE_STAT_SERVICE, PAGE_STAT_LEVEL, PAGE_STAT_PARTITION, PAGE_STAT_PART_VALID, PAGE_STAT_SEALED, PAGE_STAT_LOCKED, PAGE_STAT_QUEUE, EVT_STAT_OCHRE, EVT_STAT_MADDER, EVT_STAT_UMBER, EVT_STAT_LAMPBLACK, EVT_STAT_ESCALATED, EVT_STAT_OVERFLOW, EVT_MASK_OCHRE, EVT_FORCE_TEST, ERR_CNT_EVENTS, ERR_CNT_REFUSED, ERR_FIRST_CODE, ERR_FIRST_SEV, ERR_FIRST_VALID, ERR_LAST_CODE, ERR_LAST_SEV, ERR_LAST_VALID, ERR_INFO_OFFSET, ERR_INFO_CAUSE, ERR_INFO_SRC, LOCK_OWNER, SCRATCH_VALUE]

end Sys2Proof.Machine
end

