-- ==== Sys2Proof/Machine/Types.lean ====
section
/-!
DEFINITION. Machine/Types.lean: the plain-data parts of State for time, Patterns, the Sprue port,
events, housekeeping, the Ledger, pins, start-up and reset. What a register field already holds is
not repeated here.
-/

namespace Sys2Proof.Machine

open Sys2Proof

/-! ### Hall Time (02_hall_time.md) -/

/-- The time states of Table 2-2. -/
inductive TimeState | free | acquire | locked | holdover | lost
  deriving DecidableEq, Repr

/-- The code of a time state in HT_STATE.STATE (Table 2-12). -/
def TimeState.code : TimeState → Nat
  | .free => 0 | .acquire => 1 | .locked => 2 | .holdover => 3 | .lost => 4

/-- A port's latest time mark (R54, R392): when it arrived (real time), its corrected offset in ps,
and whether its sender reported LOCKED. -/
structure Mark where
  at_ : Nat := 0
  offset : Int := 0
  locked : Bool := false
  deriving DecidableEq, Repr

/-- An 80-bit stamp of R44 as a count of 1/65,536 ticks. -/
abbrev Stamp := Nat

/-- The exchange of R45 in progress: the device's own reply. -/
structure Exchange where
  xnum : Nat
  t1 : Stamp
  t2 : Stamp
  t3 : Stamp
  deriving DecidableEq, Repr

/-- The time unit (R42 to R58, R658). -/
structure TimeUnit where
  /-- the 64-bit Hall Time counter, ticks -/
  ticks : Nat := 0
  /-- the counter counts (from stage 0; stopped by REFCLK loss, R645) -/
  running : Bool := false
  state : TimeState := .free
  /-- slot and epoch boundaries the counter has passed through (R658: a step adds none) -/
  slots : Nat := 0
  epochs : Nat := 0
  /-- passed slots at the last valid TIME frame (R52) -/
  validAt : Nat := 0
  /-- real time at entering HOLDOVER (R53), and at entering HOLDOVER or LOST (HOLD_MS) -/
  holdAt : Nat := 0
  /-- the last good offset, ps (TIME_HOLDOVER) -/
  lastGood : Int := 0
  /-- ACQUIRE was entered and its one step is still to come (R51) -/
  stepDue : Bool := false
  /-- the correction in ticks that the last complete exchange of ACQUIRE gave -/
  step : Option Int := none
  /-- the device was LOST when that step was requested (R51) -/
  stepFromLost : Bool := false
  /-- consecutive exchanges within ±40 ps after the step (Table 2-2, R55) -/
  aligned : Nat := 0
  /-- the counter slews towards the master in HOLDOVER (R55) -/
  slewing : Bool := false
  /-- the synthesiser's last filtered frequency, fs per slot against REFCLK (Table 2-2) -/
  freq : Int := 0
  /-- the correction still to be made by slewing, fs (R48) -/
  owe : Int := 0
  /-- how far the tick edge runs ahead of REFCLK's, 0 to 799,999 fs, and whole ticks that the counter has still to gain
  or to lose against REFCLK -/
  phase : Int := 0
  lead : Int := 0
  xchg : Option Exchange := none
  /-- latest mark of each Runner port -/
  marks : List (Nat × Mark) := []
  /-- TIME_XCHK condition standing (R57) -/
  xchkHeld : Bool := false
  /-- passed epochs plus one at the last boundary preparation -/
  prepared : Nat := 0
  deriving DecidableEq, Repr

/-! ### Partitions and Pattern slots -/

/-- The run states of Table 2-7. -/
inductive Run | idle | armed | running | holding | held | done
  deriving DecidableEq, Repr

/-- The code of a run state in HT_PSTATE.RUN. -/
def Run.code : Run → Nat
  | .idle => 0 | .armed => 1 | .running => 2 | .holding => 3 | .held => 4 | .done => 5

/-- The states of a Pattern slot (R68). -/
inductive SlotSt | empty | loading | loaded
  deriving DecidableEq, Repr

/-- The code of a slot state in HT_PSTATE.SLOT0. -/
def SlotSt.code : SlotSt → Nat
  | .empty => 0 | .loading => 1 | .loaded => 2

/-- One program section of a loaded Pattern (R66), its unit numbers still partition-relative. -/
structure Section where
  ty : Nat
  riser : Nat
  unit : Nat
  body : Bytes
  deriving DecidableEq, Repr

/-- A Pattern slot: its state, and what a LOADED one holds. -/
structure PSlot where
  st : SlotSt := .empty
  period : Nat := 1
  repeats : Nat := 0
  sections : List Section := []
  /-- the load in progress: the LOAD_PATTERN's CMD_ID, source, stream, address, length -/
  loadId : Nat := 0
  loadStart : Nat := 0
  fromScratch : Bool := false
  stream : Nat := 0
  addr : Nat := 0
  length : Nat := 0
  deriving DecidableEq, Repr

/-- A partition (R27, R68 to R77, R602). -/
structure Part where
  run : Run := .idle
  /-- the state before the POUR or RELEASE that armed it (R72) -/
  prev : Run := .idle
  active : Nat := 0
  /-- the active slot before it armed -/
  prevActive : Nat := 0
  slot0 : PSlot := {}
  slot1 : PSlot := {}
  /-- a load under way whose slot stays as it is, because the slot holds the Pattern in use (R70; log entry 112) -/
  over0 : Option PSlot := none
  over1 : Option PSlot := none
  /-- the start epoch of the arming, its CMD_ID and opcode -/
  startE : Nat := 0
  armId : Nat := 0
  armOp : Nat := 0
  /-- epoch base B (R60) -/
  base : Int := 0
  /-- the slot of the Pattern it holds was loaded anew: there is none to release -/
  gone : Bool := false
  /-- the last relative epoch completed, once one has -/
  rel : Option Nat := none
  /-- the epoch whose slot 4095 decides the pending hold (R72) -/
  holdE : Option Nat := none
  /-- lost by an Umber or Lampblack event (R602) -/
  lost : Bool := false
  /-- a reset discarded the position: the partition enters IDLE when it holds (R548) -/
  toIdle : Bool := false
  /-- the interleave seed in force (R288) -/
  seed : Nat := 0
  deriving DecidableEq, Repr

/-! ### Events (R464 to R468, R604) -/

/-- An event record of Table 12-9. -/
structure EvRec where
  stamp : Nat
  source : Nat
  code : Nat
  sev : Nat
  esc : Bool := false
  lostBefore : Bool := false
  count : Nat := 1
  info : Bytes := []
  deriving DecidableEq, Repr

/-- A record waiting for its EVT frame, with the passed slots at its delivery (R467). -/
structure EvWait where
  rcd : EvRec
  at_ : Nat
  deriving DecidableEq, Repr

structure EventUnit where
  /-- undelivered records of each page (R604) -/
  queues : List (Nat × List EvRec) := []
  /-- records waiting for their EVT frame, oldest first -/
  wait : List EvWait := []
  /-- the next record written to the ring carries LOST_BEFORE -/
  lostBefore : Bool := false
  deriving DecidableEq, Repr

/-! ### The Sprue port (12_sprue_and_far_tier.md) -/

/-- An accepted command waiting in the intake (R453). -/
structure Queued where
  opcode : Nat
  cmd : Cmd
  /-- the boundary from which it acts: START, or that of slot s + 2 for START 0 -/
  due : Nat
  deriving DecidableEq, Repr

/-- A frame the device sends, less what SPRUE_FRAME_SEND adds (SEQ, PKG, TAG). -/
inductive TxFrame
  | time (xnum t2 t3 state : Nat)
  | rsp (id opcode status acted part : Nat) (data : Bytes)
  | reg (write : Bool) (part : Nat) (entries : List (Nat × Nat))
  | dmaData (xid addr : Nat) (data : Bytes) (poison : Bool)
  | dmaDone (xid status addr : Nat)
  | evt (recs : List EvRec)
  deriving DecidableEq, Repr

/-- A bound BULK stream (R462): what binds it, the bytes received, when the last frame came. -/
structure Stream where
  num : Nat
  /-- 0 LOAD_PATTERN, 1 UPD_BEGIN, 2 the recovery intake -/
  binder : Nat
  part : Nat
  slot : Nat
  data : Bytes := []
  last : Bool := false
  at_ : Nat := 0
  deriving DecidableEq, Repr

/-- A DMA WRITE transfer in progress (R460): the frames of it that came, the requests not answered (number, frame,
address, bytes), whether its LAST frame came, and its failures (frame, address, status). -/
structure DmaXfer where
  xid : Nat
  frames : Nat := 0
  waits : List (Nat × Nat × Nat × Nat) := []
  last : Bool := false
  fails : List (Nat × Nat × Nat) := []
  deriving DecidableEq, Repr

/-- A DMA READ outstanding (R461): the address of the bytes asked for now, how many, the request for them, and where
the READ ends. -/
structure DmaRead where
  xid : Nat
  at_ : Nat
  len : Nat
  id : Nat
  stop : Nat
  deriving DecidableEq, Repr

/-- A lane's transmitter at rates 1 to 4 (R371): message bits that wait for their codeword, how many, and the codewords that the last piece of the
flit stream completed, 544 symbols each. -/
structure LaneTx where
  count : Nat := 0
  bits : Nat := 0
  words : List (List Nat) := []
  deriving DecidableEq, Repr

/-- One direction of a lane's line (R373, R374): the level of its last symbol and how many equal ones end with it (0 where none has passed); the
symbols of the last piece, with stuffing as sent and without it as received; and, at a receiver, the removed stuff symbols for which no SLACK
symbol has been put back yet. -/
structure LineRun where
  level : Nat := 0
  count : Nat := 0
  last : List Nat := []
  owed : Nat := 0
  back : Nat := 0
  deriving DecidableEq, Repr

/-- The key state of one Sprue key (R443 to R445). -/
structure SprueUnit where
  /-- consecutive good AM frames, and consecutive AM positions without one (R448) -/
  goodAm : Nat := 0
  badAm : Nat := 0
  vlas : Bool := false
  key : Option Bytes := none
  salt : Nat := 0
  /-- the key, salt and SEQ that the RSP of a SPRUE_KEYX still waiting to be sent leaves under: none
  where no exchange waits; an inner none is "untagged" -/
  former : Option (Option Bytes × Nat × Nat) := none
  rxSeq : Option Nat := none
  txSeq : Nat := 0
  relaySeq : Option Nat := none
  /-- SP_KEY_LATE already raised: towards, from, relayed -/
  lateRx : Bool := false
  lateTx : Bool := false
  lateRelay : Bool := false
  /-- passed epochs plus one at the last SP_AUTH -/
  authEpoch : Nat := 0
  intake : List Queued := []
  /-- CMD_ID memory: the last 1,024 accepted, newest first, with the RSP once completed -/
  memory : List (Nat × Option TxFrame) := []
  /-- accepted commands that acted and have not completed: CMD_ID, the Hall Time at which each acted (R451) -/
  acted : List (Nat × Nat) := []
  /-- frames waiting to be sent, oldest first (at most 256, R448) -/
  tx : List TxFrame := []
  /-- DMA frames not yet sent, in order -/
  dmaOut : List TxFrame := []
  writes : List DmaXfer := []
  reads : List DmaRead := []
  streams : List Stream := []
  /-- the lane's stream of coded bits, and its lines, from the device and towards it (R371 to R373, R440) -/
  line : LaneTx := {}
  txLine : LineRun := {}
  rxLine : LineRun := {}
  /-- frame position, 0 to 256; 256 is the AM position (R440) -/
  pos : Nat := 0
  /-- SEQ of the last tagged frame sent -/
  sentSeq : Nat := 0
  /-- the frame that left last, as its 512 bytes -/
  out : Bytes := []
  deriving DecidableEq, Repr

/-! ### Housekeeping, power and the Ledger (16_health.md) -/

/-- The shutdown sequence of Table 16-3. -/
structure Shutdown where
  t0 : Nat
  cause : Nat
  channel : Nat
  reading : Int
  rate : Int
  stamp : Nat
  running : Nat
  recorded : Bool := false
  off : Bool := false
  deriving DecidableEq, Repr

structure Health where
  /-- the next channel of the round (R578) -/
  chan : Nat := 0
  roundOn : Bool := false
  /-- real time at which the round began -/
  roundAt : Nat := 0
  /-- last five readings of each temperature channel, newest first (R579) -/
  hist : List (Nat × List Int) := []
  /-- consecutive rounds above the rate notice, hold, shutdown limit, by channel -/
  rateNotice : List (Nat × Nat) := []
  rateHold : List (Nat × Nat) := []
  rateShut : List (Nat × Nat) := []
  /-- rounds since the last notice while its condition persists, plus one (R581) -/
  tempSince : List (Nat × Nat) := []
  riseSince : List (Nat × Nat) := []
  overSince : Nat := 0
  /-- consecutive good rounds towards the end of each hold (R582, R592), by partition -/
  okRate : List (Nat × Nat) := []
  okAbs : List (Nat × Nat) := []
  okPower : Nat := 0
  failed : List Nat := []
  /-- consecutive rounds with VIN out of range, VIN over current, power above 105 % -/
  vinV : Nat := 0
  vinI : Nat := 0
  over105 : Nat := 0
  /-- VIN power of the last rounds, W, newest first -/
  power : List Nat := []
  shutdown : Option Shutdown := none
  /-- domains (0 to 79 cluster, 80 to 95 base region) with a step due: the passed epochs plus one when
  the slack count was seen, and that count -/
  stepDue : List (Nat × Nat) := []
  stepSlack : List (Nat × Nat) := []
  /-- rounds at the last R594 step of each domain, plus one -/
  stepAt : List (Nat × Nat) := []
  /-- least path-delay margin of each domain in each of the last 24 operating hours, at 96 × (hour mod 24) + domain, 1/1,024 of the cycle -/
  least : List (Nat × Nat) := []
  /-- slack events since the last ageing record -/
  slack : List (Nat × Nat) := []
  /-- a re-plan under way: steps each domain still takes (signed), and the passed epochs plus one when
  it last moved one -/
  moves : List (Nat × Int) := []
  movedAt : Nat := 0
  /-- domains that it has raised, and lowered -/
  raised : List Nat := []
  lowered : List Nat := []
  /-- clusters to be fenced at the next boundary (R597), with the code required -/
  retire : List Nat := []
  /-- real time counted towards the next operating hour (R600) -/
  hourAt : Nat := 0
  /-- operating hours at the start, or at the last re-plan that 24 hours called for (R595) -/
  replanAt : Nat := 0
  /-- real time of the last shutdown-sector erase (R607) -/
  eraseAt : Option Nat := none
  /-- refresh band of each Riser (R300), and its consecutive rounds cool enough to fall -/
  band : List (Nat × Nat) := []
  cool : List (Nat × Nat) := []
  /-- real time at power-on (UPTIME_MS) -/
  onAt : Nat := 0
  deriving DecidableEq, Repr

/-- A field-defect entry (Table 16-10). -/
structure Defect where
  die : Nat
  kind : Nat
  index : Nat
  cause : Nat := 1
  hours : Nat := 0
  deriving DecidableEq, Repr

/-- A saved training set (Table 14-4), its SPARES and settings as one number. -/
structure SavedSet where
  unit : Nat
  devid : Nat
  steppings : List Nat
  fw : Nat
  spares : Nat
  phase : Nat
  volt : Nat
  ageSeq : Nat
  crcOk : Bool := true
  deriving DecidableEq, Repr

/-- An ageing record (Table 16-9). -/
structure Age where
  seq : Nat
  unit : Nat
  hours : Nat
  kind : Nat
  index : Nat
  phase : Nat := 0
  volt : Nat := 0
  vset : Nat := 0
  delay : Nat := 0
  slack : Nat := 0
  temp : Nat := 0
  deriving DecidableEq, Repr

/-- The Ledger (Table 16-8, R605 to R608), less its set areas and select records. -/
structure Ledger where
  /-- operator key hash (R493) -/
  opHash : Bytes := []
  starts : Nat := 0
  hours : Nat := 0
  defects : List Defect := []
  /-- shutdown slots by index, 64 bytes each; an unlisted slot is erased -/
  shut : List (Nat × Bytes) := []
  saved : List SavedSet := []
  /-- units trained in full whose settings are not yet saved (R530); lost with the start -/
  unsaved : List Nat := []
  /-- ageing records, oldest first, and the next SEQ -/
  ageing : List Age := []
  ageSeq : Nat := 0
  /-- erase counts by 4-KiB sector -/
  wear : List (Nat × Nat) := []
  deriving DecidableEq, Repr

/-! ### Pins, start-up and reset (14, 18) -/

structure Pins where
  vaux : Bool := true
  vin : Bool := true
  refclk : Bool := true
  /-- raw transitions of each pin: real time of each within the last 1,000 ms, newest first -/
  edges : List (Nat × List Nat) := []
  /-- the RESET_N assertion was made while PWR_GOOD was asserted (Table 18-6) -/
  byReset : Bool := false
  /-- the boundary-scan instruction in force: 0 EXTEST, 2 SAMPLE, 15 BYPASS (R652) -/
  scan : Nat := 15
  /-- compute-die clocks gated (R601, R645, Table 16-3) -/
  gated : Bool := false
  /-- passed epochs plus one at the last BU_PIN_HOLD -/
  heldAt : Nat := 0
  /-- CXL_PERST0_N and CXL_PERST1_N are released and both CXL_REFCLK run (R637) -/
  cxlOut : Bool := false
  deriving DecidableEq, Repr

structure Boot where
  /-- stage 0 has begun -/
  begun : Bool := false
  /-- the next stage to run; 12 once stage 11 has ended -/
  next : Nat := 0
  /-- a stage ended FAILED -/
  stopped : Bool := false
  /-- the recovery intake is open (R573) -/
  recovery : Bool := false
  /-- halted at the end of stage 2 for acknowledgement (R588) -/
  halted : Bool := false
  restored : Bool := false
  /-- the next stage of a COMPUTE reset's re-run of stages 6, 7 and 11; 12 once it is done, 0 with none under way -/
  rerun : Nat := 0
  /-- the FULL-reset or power-on start under way allocates new seeds and keys at stage 11 -/
  fresh : Bool := true
  /-- units that failed a test since this start began: bad for it, whether or not the field-defect list had room (R534) -/
  failed : List BadUnit := []
  deriving DecidableEq, Repr

/-- The phases of a reset (R544, R545). -/
inductive ResetPhase | requested | draining | running
  deriving DecidableEq, Repr

/-- A reset requested, draining or running (R542 to R550). -/
structure Reset where
  scope : Nat
  riser : Nat := 0
  cluster : Nat := 0
  kind : Nat := 0
  unit : Nat := 0
  part : Nat := 0
  phase : ResetPhase := .requested
  /-- the slot count from which it acts -/
  at_ : Nat := 0
  absorbed : Nat := 0
  discarded : Nat := 0
  /-- the pages of its units, once it acts (PAGE_ID values) -/
  pages : List Nat := []
  deriving DecidableEq, Repr

/-- The device description of one scope (R554, R555): its bytes, hash, generation. -/
structure Desc where
  bytes : Bytes := []
  gen : Nat := 0
  deriving DecidableEq, Repr

/-! ### Fuses and the queue of the Ledger's set areas (13_trust.md, 15_firmware_update.md) -/

/-- The lifecycle states of Table 13-2. -/
inductive Life | manufacture | provisioned | deployed | decommissioned
  deriving DecidableEq, Repr

/-- The code of a lifecycle state. -/
def Life.code : Life → Nat
  | .manufacture => 0 | .provisioned => 1 | .deployed => 2 | .decommissioned => 3

/-- The fuses: what manufacture fixed, and what one-way steps have moved since. -/
structure Fuse where
  /-- 0 VZX8-A, 1 VZX8-B, 2 VZX8-C (R2) -/
  variant : Nat := 0
  life : Life := .provisioned
  /-- the fused SVN, 0 to 64 (R501) -/
  svn : Nat := 0
  /-- the fused bad map (R533) -/
  bad : List BadUnit := []
  baseStepping : Nat := 0
  /-- fused start voltage codes by domain: 80 clusters, then 16 base-die regions; an unlisted domain has the lowest of its
  variant (Table 16-6) -/
  startCodes : List (Nat × Nat) := []
  /-- the device secret (R485) -/
  uds : Bytes := []
  /-- DEPLOY accepted, in effect from the next epoch boundary; DECOMMISSION accepted, in effect from
  the next FULL reset or power-on (R491) -/
  deploying : Bool := false
  decommissioning : Bool := false
  /-- UDS is disabled (R491) -/
  udsOff : Bool := false
  deriving DecidableEq, Repr

end Sys2Proof.Machine
end

