-- ==== Sys2Proof/Machine/TypesFabric.lean ====
section
/-!
DEFINITION. Machine/TypesFabric.lean: the plain-data parts of State for requests and the hall, the
Runner ports, the three networks, the slices' caches and the memory channels (07 to 11).
-/

namespace Sys2Proof.Machine

open Sys2Proof

/-! ### Requests (07, 11) -/

/-- A control packet: its header flit (Table 7-5) with the OPERAND of Table 11-4, and its payload. -/
structure Packet where
  dest : Nat := 0
  src : Nat := 0
  op : Nat := 0
  ctrl : Nat := 0
  status : Nat := 0
  tag : Nat := 0
  poison : Nat := 0
  /-- the TYPE byte -/
  ty : Nat := 0
  hops : Nat := 0
  len : Nat := 0
  srcPkg : Nat := 0
  /-- header bytes 0x20 to 0x3F: VALUE and COMPARE, or the data of a WRITE_SHORT -/
  body : Bytes := []
  payload : Bytes := []
  deriving DecidableEq, Repr

/-- What a request is answered with: status, old value, data, poison per sector. -/
structure Ans where
  status : Nat := 0
  value : Nat := 0
  data : Bytes := []
  poison : Nat := 0
  deriving DecidableEq, Repr

/-- A request under way in this package (R406 to R416): one of its own engines', or one that came in
on a Runner port. -/
structure Req where
  /-- identity of the requester (R618) -/
  src : Nat
  cls : Nat
  op : Nat
  ty : Nat := 0
  posted : Bool := false
  addr : Nat := 0
  len : Nat := 0
  value : Nat := 0
  compare : Nat := 0
  data : Bytes := []
  poison : Nat := 0
  /-- the partition whose rights it carries; none for a device-wide requester -/
  part : Option Nat := none
  /-- the Runner port on which it arrived, with its SRC_PKG and TAG -/
  via : Option Nat := none
  srcPkg : Nat := 0xFFFF
  tag : Nat := 0
  /-- the package it was sent to -/
  remote : Option Nat := none
  /-- machine-mode cluster firmware issued it -/
  machine : Bool := false
  /-- the level it carries (R275) -/
  level : Nat := 0
  /-- real time of issue -/
  issuedAt : Nat := 0
  /-- a mover's transfer number plus one, and where read data goes (local address) -/
  xfer : Nat := 0
  dst : Nat := 0
  /-- DRAM channels that have served their part (R298) -/
  served : List Nat := []
  ans : Option Ans := none
  deriving DecidableEq, Repr

/-- The hall fabric's state (11_hall_memory.md). -/
structure Hall where
  /-- requests under way by number, and the next number -/
  reqs : List (Nat × Req) := []
  nextId : Nat := 0
  /-- the completions that requesters received, by request -/
  done : List (Nat × Ans) := []
  /-- active membership: package → STATE + 4 × TAG (an entry word, R417) -/
  memb : List (Nat × Nat) := []
  /-- staged entries, oldest first: package, entry word, the epoch it names -/
  staged : List (Nat × Nat × Nat) := []
  /-- active and shadow route entries: partition × 65,536 + package → entry (Table 11-8) -/
  routes : List (Nat × Nat) := []
  shadow : List (Nat × Nat) := []
  /-- exchanges requested: partition → the epoch E -/
  swaps : List (Nat × Nat) := []
  /-- copies under way: partition → passed slots at the request, plus one -/
  copies : List (Nat × Nat) := []
  /-- requests out of a reset's scope that no one waits for any more (R546) -/
  orphans : List Nat := []
  /-- NW_HPKG as written, until the boundary (R401) -/
  newPkg : Option Nat := none
  /-- port assignments in force whose registers were written and wait for the boundary (R30): Runner port,
  or 24 + CXL port → PART + 8 × VALID -/
  owners : List (Nat × Nat) := []
  /-- the epoch at whose start each staged change applies at the earliest (R658): 0 to 23 a Runner port's assignment, 24 and
  25 a CXL port's, 26 the partition count, 27 the package's number, 28 + n the regions of slice n, 40 + 8x + d decoder d of CXL
  port x -/
  dueAt : List (Nat × Nat) := []
  /-- passed epochs plus one at the last NW_UNMAPPED -/
  unmapAt : Nat := 0
  /-- packets that came in on a port and wait to be taken: port, packet -/
  inbox : List (Nat × Packet) := []
  /-- STOP_RELAY packets sent and not answered: tag → port -/
  relays : List (Nat × Nat) := []
  /-- commands received by relay and not yet answered: CMD_ID, port, the packet -/
  relayIn : List (Nat × Nat × Packet) := []
  deriving DecidableEq, Repr

/-! ### Runner ports (10_runner_lanes.md) -/

/-- A 512-byte word of the bulk network with its poison bits (R237). -/
structure BWord where
  data : Bytes := []
  poison : Nat := 0
  deriving DecidableEq, Repr

/-- A packet in a port's transmit queue: whose request it carries, and the units already sent. -/
structure TxPkt where
  pkt : Packet
  id : Option Nat := none
  sent : Nat := 0
  deriving DecidableEq, Repr

/-- An unacknowledged block, kept for resending (R383). -/
structure TxBlock where
  seq : Nat
  ftype : Nat := 0
  utype : Nat := 0
  poison : Nat := 0
  plain : Bytes := []
  resent : Nat := 0
  /-- the tag of the block before it, which its LCF carries -/
  before : Bytes := []
  deriving DecidableEq, Repr

/-- A packet whose flits ingress is passing: how many are still to come, and whether it is dropped. -/
structure Assembly where
  pkt : Packet
  left : Nat
  drop : Bool := false
  deriving DecidableEq, Repr

/-- A STOP in force on a port (R434). -/
structure StopFilter where
  id : Nat
  action : Nat
  classes : Nat
  limit : Nat
  src : Nat
  /-- all the ports its command named -/
  ports : Nat := 0
  /-- passed slots from which it is in force -/
  starts : Nat := 0
  /-- passed slots at which it ends, if DURATION is not 0 -/
  ends : Option Nat := none
  /-- passed slots of the slot now counted, the units passed in it, and whether one was held back -/
  slot : Nat := 0
  passed : Nat := 0
  held : Bool := false
  deriving DecidableEq, Repr

structure RPort where
  /-- the lanes' lines, towards the partner and from it (R373, R374) -/
  txLine : List (Nat × LineRun) := []
  rxLine : List (Nat × LineRun) := []
  /-- real time at entering the training state -/
  since : Nat := 0
  /-- CONFIG's outcome: target rate and width code -/
  target : Nat := 0
  width : Nat := 0
  /-- STEP: the rate tried, failures of it, the highest verified -/
  rate : Nat := 1
  fails : Nat := 0
  best : Nat := 0
  /-- KEYX: the ephemeral key, the two KX1 messages, PRK once agreed, and this side's position -/
  eph : Nat := 0
  own : Option Kx1 := none
  peer : Option Kx1 := none
  prk : Option Bytes := none
  first : Bool := false
  /-- the key agreement has failed and waits for its timeout -/
  kxFailed : Bool := false
  /-- the KX2 of this side -/
  kx2 : Bytes := []
  /-- highest traffic key index loaded, plus one -/
  loaded : Nat := 0
  lateFor : Nat := 0
  /-- blocks: the next number to send, the next expected; LCFs sent and received since KEYX -/
  txSeq : Nat := 0
  rxSeq : Nat := 0
  lcfTx : Nat := 0
  lcfRx : Nat := 0
  /-- tag of the last new block sent -/
  lastTag : Bytes := []
  unacked : List TxBlock := []
  /-- numbers of the blocks still to be resent -/
  resend : List Nat := []
  /-- this side sends NAK; the partner's NAK was seen -/
  nakTx : Bool := false
  nakRx : Bool := false
  /-- block times without an ACK_SEQ advance while blocks are outstanding; consecutive bad LTAGs -/
  stall : Nat := 0
  badLtag : Nat := 0
  /-- units freed since the last LCF -/
  freeSync : Nat := 0
  freeIndigo : Nat := 0
  freeWoad : Nat := 0
  /-- transmit queues; `half` is the second half of a word whose first was sent -/
  txSched : List BWord := []
  half : Option BWord := none
  txSync : List (List Token) := []
  txIndigo : List TxPkt := []
  txWoad : List TxPkt := []
  /-- receive buffers: units with their poison bits -/
  rxSync : List (Bytes × Bool) := []
  rxIndigo : List (Bytes × Bool) := []
  rxWoad : List (Bytes × Bool) := []
  rxHalf : Option BWord := none
  asmIndigo : Option Assembly := none
  asmWoad : Option Assembly := none
  /-- scheduled words waiting for their release slot; released words of this epoch with that slot -/
  rxSched : List (Nat × BWord) := []
  released : List (Nat × BWord) := []
  /-- the LINK_REQ of the next LCF, and its argument -/
  linkReq : Nat := 0
  linkArg : Nat := 0
  /-- a NARROW this side sent and waits to see echoed -/
  narrow : Option Nat := none
  /-- RETRAIN is asked for and not yet accepted -/
  asking : Bool := false
  /-- what the lanes send: the training set, as 16 characters of ten bits (R362); the streams of coded bits (R371) -/
  rts : List (Nat × List Nat) := []
  line : List (Nat × LaneTx) := []
  /-- the next LCF carries a time mark -/
  markDue : Bool := false
  /-- the multiple of 1,024 ticks last marked, plus one -/
  markAt : Nat := 0
  /-- RETRAIN was accepted: training starts once the RETRAIN_ACK has left -/
  accepted : Bool := false
  /-- complete eye grids since training: lane × 4 + eye → counts by point; margins likewise -/
  grids : List (Nat × List (Nat × Nat)) := []
  eyes : List (Nat × (Nat × Nat)) := []
  stop : Option StopFilter := none
  /-- figures of the last ACTIVE state: width, rate, DL, SCHED_WORDS, partner port and package -/
  shown : List Nat := []
  /-- the last LCF received, where its LTAG verified (R381) -/
  heard : Option Lcf := none
  /-- delay probes sent (R388) -/
  probes : Nat := 0
  /-- scheduled words driven in a slot: the slot, and how many (R387) -/
  drove : Nat × Nat := (0, 0)
  /-- uncorrectable codewords by lane: the epoch, and how many in it (R395) -/
  uncorr : List (Nat × (Nat × Nat)) := []
  /-- what left last: the LCF and the payload as coded on the line -/
  wire : Option (Bytes × Bytes) := none
  deriving DecidableEq, Repr

/-! ### Networks (07_networks.md) -/

/-- A connection a schedule entry set: output and input of a router, the absolute core cycle of its
stamp, the scheduled cycles it holds (R235). -/
structure Conn where
  router : Nat
  out : Nat
  inp : Nat
  start : Nat
  run : Nat
  deriving DecidableEq, Repr

/-- A word at a router's input port in an absolute core cycle, and the cycle its source set it going in. -/
structure Driven where
  router : Nat
  port : Nat
  cycle : Nat
  word : BWord
  made : Nat := 0
  deriving DecidableEq, Repr

/-- A sync token on its way to a store (R248). -/
structure Flying where
  store : Nat
  index : Nat
  op : Nat
  value : Nat
  /-- the cycle of its arrival: on one die exactly (R250), else the earliest -/
  due : Nat
  /-- the store's input port, which orders tokens of one cycle (R248) -/
  port : Nat
  /-- the links it crosses and when: router × 64 + output, cycle (R251) -/
  hops : List (Nat × Nat) := []
  deriving DecidableEq, Repr

/-- A flit in a control router's input buffer: its request, whether it is of the response, its virtual channel (1 Indigo) and level,
the router (or device block, R245) it is bound for, the input port it came by, whether it is the packet's first or last, its 64 bytes
(the header of Table 7-5, or payload), and the cycle from which it can go on. `unit`: which of the packet's payload it is. -/
structure CFlit where
  id : Nat
  resp : Bool := false
  vc : Nat
  level : Nat
  dest : Nat
  inp : Nat
  head : Bool
  last : Bool
  data : Bytes := []
  at_ : Nat := 0
  unit : Option Nat := none
  deriving DecidableEq, Repr

structure Net where
  conns : List Conn := []
  driven : List Driven := []
  /-- words hurt by a crossing parity error: router × 64 + port, cycle, sector mask (R239) -/
  hurt : List (Nat × Nat × Nat) := []
  tokens : List Flying := []
  /-- chunks each router has accepted; those it has still to send on, each with the cycle it came in; by Riser, the cycle from
  which the next step may begin (R253) -/
  chunks : List (Nat × List Nat) := []
  fresh : List (Nat × List (Nat × Nat)) := []
  stepAt : List (Nat × Nat) := []
  /-- control flits waiting at each router, oldest first; those that its units have still to inject (R242) -/
  flits : List (Nat × List CFlit) := []
  outbox : List (Nat × List CFlit) := []
  /-- packets partly sent: (router × 64 + output) × 2 + channel → (request × 2 + response) + 1 -/
  busy : List (Nat × Nat) := []
  /-- by link, router × 64 + output: the last cycle in which it carried flits, and how many (R232, R241) -/
  sent : List (Nat × (Nat × Nat)) := []
  /-- filtered latency F of R274 in 1/256 cycles: router × 8 + class -/
  filt : List (Nat × Nat) := []
  /-- routers declared bad whose tables change at the next boundary; those that the tables in force avoid (R271) -/
  avoid : List Nat := []
  tables : List Nat := []
  deriving DecidableEq, Repr

/-! ### Slices (09_shared_buffer.md) -/

/-- A cache line: its line number (R330), and per sector valid, dirty and poison bits. -/
structure CLine where
  line : Nat
  retained : Bool := false
  valid : Nat := 0
  dirty : Nat := 0
  poison : Nat := 0
  data : Bytes := []
  used : Nat := 0
  deriving DecidableEq, Repr

/-- A suspect block (R354): the data address and the check table's. -/
structure Suspect where
  block : Nat
  table : Nat
  deriving DecidableEq, Repr

structure SliceUnit where
  lines : List CLine := []
  /-- lines being filled, with the sectors asked for; bit 4: an epoch ended since a remote fill was asked
  for -/
  fills : List (Nat × Nat) := []
  /-- the cycle in which each was first asked for (R273) -/
  fillAt : List (Nat × Nat) := []
  /-- sectors that were dirty at the FLUSH write: line, mask -/
  flush : List (Nat × Nat) := []
  /-- the regions in effect, laid out as SB_REGIONS (R320; at reset all scratch), and a word accepted
  and not yet in effect (R322) -/
  active : Nat := 96
  newRegions : Option Nat := none
  clock : Nat := 0
  /-- the rebuild core's check queue, oldest first (R354) -/
  suspects : List Suspect := []
  deriving DecidableEq, Repr

/-! ### Banks of cluster memories and slices (R199 to R205, R319, R323, R327) -/

/-- The read or the write port of a bank: the first cycle in which it is free again, the cycle of its last grant, the place in the
order of R200 or R323 that it was granted at, and who got it. -/
structure BankPort where
  free : Nat := 0
  at_ : Nat := 0
  rank : Nat := 0
  page : Nat := 0
  deriving DecidableEq, Repr

/-- What waits for banks: a cluster-memory access, or a request that a memory is to perform; with the parity errors it meets. -/
inductive BankWork
  | access (k : Nat) (acc : MemAccess)
  | request (id : Nat) (parity : List Nat)
  deriving DecidableEq, Repr

/-- An access that waits: its place in the order, its requester, the ports it needs, each with the accesses it makes there. -/
structure BankWait where
  rank : Nat
  page : Nat
  need : List (Nat × Nat)
  work : BankWork
  deriving DecidableEq, Repr

/-- The sectors that a transfer of a mover moves at a LOCAL end, in order, by core cycle: a word in every `rate`-th part of a cycle,
from cycle `start` on, over scheduled cycles alone where `sched` says so (R261); 0 they are read, 1 written, 2 both (R324). -/
structure BankBook where
  mover : Nat
  start : Nat
  sched : Bool := false
  rate : Nat := 1
  how : Nat := 0
  sectors : List Nat := []
  deriving DecidableEq, Repr

/-- The banks' state. A bank is numbered cluster × 32 + bank, and 2,560 + slice × 16 + bank; its read port is twice that, its
write port one more. -/
structure Banks where
  ports : List (Nat × BankPort) := []
  /-- accesses not granted, in the order they came -/
  wait : List BankWait := []
  /-- what the movers' transfers under way move -/
  books : List BankBook := []
  /-- merge windows, newest first: bank, sector, last cycle (R204) -/
  windows : List (Nat × Nat × Nat) := []
  /-- cluster-memory sectors written in core cycle `at_` as they were before it: address, bytes, poison (R201) -/
  at_ : Nat := 0
  old : List (Nat × Bytes × Bool) := []
  deriving DecidableEq, Repr

/-! ### CXL ports (R469 to R477) -/

/-- A host decoder as committed (R471). -/
structure Dec where
  base : Nat
  size : Nat
  ways : Nat
  ig : Nat
  targets : Nat
  tags : Bool
  tagDec : Nat
  tagRegion : Bool
  deriving DecidableEq, Repr

structure CxlUnit where
  /-- decoders in effect, by number -/
  dec : List (Nat × Dec) := []
  /-- commits accepted and not yet in effect, with the passed epochs at the COMMIT -/
  asked : List (Nat × Nat × Dec) := []
  deriving DecidableEq, Repr

/-! ### Movers (R255 to R269) -/

/-- A request that a REMOTE or CXL transfer has still to issue: a write or a read of up to 256 bytes. -/
structure Chunk where
  write : Bool
  addr : Nat
  len : Nat
  data : Bytes := []
  poison : Nat := 0
  deriving DecidableEq, Repr

/-- A REMOTE or CXL transfer that is not complete (R268): the responses outstanding, the first failing status, its
instruction word and descriptors, what its reads brought, and the requests still to issue. -/
structure Remote where
  left : Nat := 0
  status : Nat := 0
  word : Nat := 0
  sdesc : Bytes := []
  ddesc : Bytes := []
  /-- bytes read: hall address, data, poison by 64 bytes -/
  got : List (Nat × Bytes × Nat) := []
  todo : List Chunk := []
  /-- its reads are done and it writes -/
  writing : Bool := false
  deriving DecidableEq, Repr

/-- A transfer under way: the instruction, its issue cycle, its count and the cycle after its last one; the words
of a BULK source taken so far, newest first, and by port the cycle from which the next is looked for; for LOCAL ends
the elements to be written (bit address, width, code, poison); and the status it was refused with. -/
structure Xfer where
  word : Nat
  issue : Nat
  count : Nat
  done : Nat
  got : List BWord := []
  ports : List (Nat × Nat) := []
  puts : List (Nat × Nat × Nat × Bool) := []
  status : Nat := 0
  deriving DecidableEq, Repr

/-- The sequencer of a tile or mover program (R155 to R163). -/
structure Seq where
  /-- next instruction, the period being run, and whether TEND or MEND ended it -/
  pc : Nat := 0
  period : Nat := 0
  ended : Bool := false
  /-- the cycle after that of the last issue, and the cycle in which an AFTER instruction may issue -/
  last : Nat := 0
  free : Nat := 0
  /-- the predecessor's completion is not known yet -/
  loose : Bool := false
  /-- no instruction issues before this cycle: the start of the POUR or RELEASE epoch -/
  floor : Nat := 0
  /-- a pending TSYNC or MSYNC WAIT: its number and word -/
  wait : Option (Nat × Nat) := none
  /-- the sync port is free from this cycle -/
  syncTo : Nat := 0
  /-- the wait of the next instruction has been recorded, and a deferral of it counted -/
  noted : Bool := false
  counted : Bool := false
  /-- it waits for a resource (R156), to a cycle that may not be known yet -/
  hazard : Option (Option Nat) := none
  deriving DecidableEq, Repr

structure Mover where
  seq : Seq := {}
  /-- the transfer under way: one at a time (R255) -/
  xfer : Option Xfer := none
  /-- the cycle after which none of the words it had set going leaves: it went out of service (R270) -/
  cutAt : Option Nat := none
  /-- REMOTE and CXL transfers not complete, and the next number -/
  remote : List (Nat × Remote) := []
  nextXfer : Nat := 0
  /-- the cycle from which it may issue its next request: one in a cycle (R268) -/
  askAt : Nat := 0
  deriving DecidableEq, Repr

/-! ### Memory channels (08_stacked_memory.md) -/

/-- A write word in a channel's buffer: the sectors of it consumed, the cycle it came in, and the eighth
at which its last consumed sector leaves the bus. -/
structure WEntry where
  word : BWord
  used : Nat := 0
  cycle : Nat := 0
  until_ : Nat := 0
  /-- the sectors of the channel its own went to, in their order: the word is kept until each has passed (R306) -/
  addrs : List Nat := []
  deriving DecidableEq, Repr

/-- A sector on a channel's bus (R291, R292): its address in the channel, direction (1 read, 2 write), start and length in eighths of a
cycle; whether it is the first of its run, a command of the program's own, what commands precede it (precharge, activation, column
command), and whether its row is precharged after it. -/
structure BusSector where
  addr : Nat
  dir : Nat
  start : Nat
  len : Nat
  first : Bool := false
  own : Bool := true
  pre : Bool := false
  act : Bool := false
  col : Bool := false
  close : Bool := false
  deriving DecidableEq, Repr

/-- A sector of a write run that waits for its data: its address, its bus position, and whether the rest
of the word is discarded after it (FLUSH). -/
structure DueSector where
  addr : Nat
  start : Nat
  flush : Bool := false
  deriving DecidableEq, Repr

structure Chan where
  /-- end of the last run on the bus, in absolute eighths of a cycle, what it would be at full width, and
  its direction (1 read, 2 write) -/
  prevEnd : Nat := 0
  prevFull : Nat := 0
  prevDir : Nat := 0
  /-- next entry of the program, and the epoch, plus one, in which the entry before it ran -/
  pc : Nat := 0
  ranAt : Nat := 0
  /-- open rows: bank → row + 1, and the slot (epoch × 4,096 + slot) of the last access -/
  rows : List (Nat × Nat) := []
  lastSlot : Nat := 0
  /-- activation trackers: bank → rows with counts (R303) -/
  track : List (Nat × List (Nat × Nat)) := []
  /-- rows waiting for targeted refresh: bank, row -/
  tnr : List (Nat × Nat) := []
  /-- the entry whose wait for a targeted refresh has been counted, plus one; how many of its sectors went before; the rows whose next
  activation waits (R303) -/
  blocked : Nat := 0
  part : Nat := 0
  held : List (Nat × Nat) := []
  /-- sectors placed on the bus, latest first, those of the last cycles and to come; the banks that an unscheduled access opened (R298) -/
  bus : List BusSector := []
  lent : List Nat := []
  /-- sectors of the read word being packed; complete words with the eighth their last sector ended -/
  packing : List (Bytes × Bool) := []
  ready : List (Nat × BWord) := []
  /-- the sectors' addresses in the word being packed, and in each ready word by its eighth -/
  packOf : List Nat := []
  readOf : List (Nat × List Nat) := []
  wbuf : List WEntry := []
  due : List DueSector := []
  /-- sectors that were late: their data is passed over when it comes (R295) -/
  skip : Nat := 0
  /-- write sectors awaiting a rewrite (R306): local address, data -/
  rewrite : List (Nat × Bytes) := []
  /-- sectors moved in the current epoch; epochs in a row in which the channel was hot (R304) -/
  moved : Nat := 0
  hotRun : Nat := 0
  /-- refreshes performed, the real time up to which none is owed (R302), and the passed slots plus one of
  the last maintenance slot served -/
  refreshes : Nat := 0
  refreshAt : Nat := 0
  maintAt : Nat := 0
  /-- cycles of recent parity errors by group; groups that failed since training -/
  errs : List (Nat × List Nat) := []
  bad : Nat := 0
  /-- groups of which a lane failure is declared that has not acted yet (R309); the epoch, plus one, in whose maintenance window a lane
  failure last acted (Table 8-6) -/
  declared : Nat := 0
  cut : Nat := 0
  /-- bus stopped until this absolute cycle (R310) -/
  stopped : Nat := 0
  /-- retraining under way: passed epochs at its start, plus one, and the state before it -/
  training : Nat := 0
  was : Nat := 0
  deriving DecidableEq, Repr

/-- A column group (index Riser × 32 + group; 256 and 257 the Parting Link's directions): spares in
use, which half a half-width unit keeps, parity errors, margin, the recent errors (group of 32 wires, cycle), retraining and the state
before it, and the lane failures declared that have not acted yet (bit 0 in the lower half, 1 in the upper, 2 in the half that fails). -/
structure Wires where
  spares : Nat := 0
  upper : Bool := false
  margin : Nat := 0
  parity : Nat := 0
  errs : List (Nat × Nat) := []
  training : Nat := 0
  was : Nat := 0
  declared : Nat := 0
  cut : Nat := 0
  deriving DecidableEq, Repr

end Sys2Proof.Machine
end

