-- ==== Sys2Proof/Machine/TypesCore.lean ====
section
/-!
DEFINITION. Machine/TypesCore.lean: the plain-data parts of State for the clusters: general cores and
matrix cores (03, 05, 06).
-/

namespace Sys2Proof.Machine

open Sys2Proof

/-! ### Matrix cores (03, 04, 05) -/

/-- A stationary set (R86): element codes and scale codes of each token position, poison, and the arrays whose copy of it met a
parity error (R115). -/
structure StSet where
  x : List (List Nat) := []
  sc : List (List Nat) := []
  bad : Bool := false
  hurt : List Nat := []
  deriving DecidableEq, Repr

/-- A 64-byte sector that arrived in a weight stream buffer: the cycle it arrived in, data, poison, and whether the TMM in flight has
streamed it. -/
structure RSector where
  cycle : Nat
  data : Bytes
  bad : Bool := false
  seen : Bool := false
  deriving DecidableEq, Repr

/-- A best-k tracker (Table 4-11): its poison mark, its direction and its entries, best first: score (EXT64), index, array. -/
structure Trk where
  bad : Bool := false
  small : Bool := false
  l : List (Nat × Nat × Nat) := []
  deriving DecidableEq, Repr

/-- A TMM in flight: its number and word, issue cycle, whether it acts, and how far it has come. -/
structure TRun where
  pc : Nat
  word : Nat
  start : Nat
  acts : Bool
  /-- fills of the shadow sets begun, swaps done, and the cycle of the last swap -/
  fills : Nat := 0
  swaps : Nat := 0
  swapAt : Nat := 0
  /-- row steps that have streamed -/
  step : Nat := 0
  /-- the next step is known to be late; rows that were late, and the cycles lost to them -/
  waits : Bool := false
  late : Nat := 0
  stall : Nat := 0
  /-- partial outputs: array × 2^24 + array-local row × N + token → EXT64 × 2 + poison -/
  acc : List (Nat × Nat) := []
  /-- blocks that are complete and not yet written out: the cycle their write-out is complete in, N-group and block -/
  outs : List (Nat × Nat × Nat) := []
  /-- the arrays' LFSRs of its read-out -/
  lfsr : List Nat := []
  /-- arithmetic flags it has set, and the arrays that set one -/
  flags : Nat := 0
  arrays : Nat := 0
  /-- parity errors met: array, store (0 stationary set, 1 staging, 2 weight stream buffer), stationary load, staging entry or
  buffer sector (R115) -/
  errs : List (Nat × Nat × Nat) := []
  /-- the second cycle of a row step that streams in two (R94, R103), until it is over -/
  second : Option Nat := none
  deriving DecidableEq, Repr

/-- A TOUT whose writes come with its last cycle: its number, word, issue cycle, the cycle after its last one,
whether it acts, the TMMs completed before it, and the tracker bank it reads. -/
structure TOut where
  pc : Nat
  word : Nat
  start : Nat
  fin : Nat
  acts : Bool
  after : Nat
  bank : Option Nat := none
  deriving DecidableEq, Repr

/-- A matrix core. -/
structure MxCore where
  seq : Seq := {}
  active : StSet := {}
  shadow : StSet := {}
  /-- the cycle from which the shadow sets hold a whole fill that no swap has taken -/
  shadowAt : Option Nat := none
  /-- staging entries: array × 8,192 + entry → EXT64 × 2 + poison; what the others hold: 0, or the free value of
  that number -/
  stage : List (Nat × Nat) := []
  stageBack : Option Nat := none
  /-- arrivals in each 64-byte sector of the weight stream buffer, oldest first: the last one streamed and those after it -/
  ring : List (Nat × List RSector) := []
  /-- tracker banks: bank × 64 + array × 16 + token; the bank of the last tracker TMM completed since POUR -/
  trks : List (Nat × Trk) := []
  filled : Option Nat := none
  run : Option TRun := none
  out : Option TOut := none
  /-- cycles from which each resource of Table 5-3 is free, and the staging range a TOUT reads -/
  fillTo : Nat := 0
  arrTo : Nat := 0
  outTo : Nat := 0
  bank0To : Nat := 0
  bank1To : Nat := 0
  outRange : Nat × Nat := (0, 0)
  /-- the staging range of the last resident TMM, and the cycle from which it is free (R157) -/
  stageRange : Nat × Nat := (0, 0)
  stageTo : Nat := 0
  /-- completed TMMs (for MX_AFLAGS_LAST) -/
  done : Nat := 0
  deriving DecidableEq, Repr

/-- A general core's instruction that waits for an access: its request, what it is (0 AMO, 1 LR, 2 SC, 3 CRCBLK, 4 DESCLD, 5 a load,
6 a store), its destination register (a load's or a store's whole word), whether it is a doubleword's (its word 32 bits long), and whether a window with RESTART has begun since, so that its
end leaves the program counter alone (R221). -/
structure Await where
  id : Nat
  kind : Nat
  rd : Nat
  wide : Bool := true
  moved : Bool := false
  req : Req
  deriving DecidableEq, Repr

/-- A general core (R209 to R223). -/
structure Gcore where
  /-- x1 to x31, f0 to f31, v0 to v31 (VLEN 512: 64 bytes) -/
  x : List (Nat × Nat) := []
  f : List (Nat × Nat) := []
  v : List (Nat × Bytes) := []
  pc : Nat := 0
  /-- control and status registers by number (RISC-V and Table 6-5) -/
  csr : List (Nat × Nat) := []
  /-- instructions retired by the program -/
  retired : Nat := 0
  /-- the next window, or the current one -/
  win : Nat := 0
  inWindow : Bool := false
  /-- the period the windows belong to -/
  period : Nat := 0
  /-- the program was suspended, executed WFI, or was stopped until the next POUR (R222) -/
  suspended : Bool := false
  wfi : Bool := false
  stopped : Bool := false
  patrol : Bool := false
  /-- a pending HTWAIT: rd and the tick waited for -/
  htwait : Option (Nat × Nat) := none
  /-- a pending SYNCWAIT: rd, flag index, value, GE -/
  syncwait : Option (Nat × Nat × Nat × Bool) := none
  awaits : Option Await := none
  /-- patrol's reads under way, by the cluster's first general core: of a descriptor, or of a block and its entry (R224) -/
  patrolIds : List Nat := []
  /-- where the cursor stood as they were issued: the descriptor's address, and the block -/
  patrolAt : Nat × Nat := (0, 0)
  /-- what the last LR read: address, bytes, value (R210) -/
  reserved : Option (Nat × Nat × Nat) := none
  /-- an access fault to be taken: cause and address (R212) -/
  fault : Option (Nat × Nat) := none
  /-- the field that a vector load or store of segments has come to in its element vstart; the core cycle from which the next instruction
  may issue (Table 6-2) -/
  field : Nat := 0
  ready : Nat := 0
  /-- a vector load or store is in progress, which a window's end does not stop; where the program goes on after it, if a window with
  RESTART has begun since (R221) -/
  mid : Bool := false
  entry : Option Nat := none
  deriving DecidableEq, Repr

end Sys2Proof.Machine
end

