-- ==== Sys2Proof/Machine/TypesTrust.lean ====
section
/-!
DEFINITION. Machine/TypesTrust.lean: the plain-data parts of State for Mordant and for firmware and its
update (13_trust.md, 15_firmware_update.md).
-/

namespace Sys2Proof.Machine

open Sys2Proof

/-- An open session (R505 to R507). -/
structure Session where
  kSess : Bytes
  kWrap : Bytes
  qt : Bytes
  qd : Bytes
  nt : Bytes
  nd : Bytes
  /-- the last SCTR accepted -/
  sctr : Option Nat := none
  deriving DecidableEq, Repr

/-- Why a seal ends (MD_UNSEALED): 0 UNSEAL, 1 reset, 2 partition-count change, 3 commit. -/
structure SealEnd where
  cause : Nat
  /-- the UNSEAL that waits for the scrub, if one does, and its RSP's DATA -/
  cmd : Option Cmd := none
  data : Bytes := []
  /-- the Risers it held, which the scrub covers -/
  risers : List Nat := []
  deriving DecidableEq, Repr

/-- What Mordant holds for one partition. -/
structure Trusted where
  session : Option Session := none
  patKey : Option Bytes := none
  /-- measurement log entries, oldest first: stamp, type, digest (R499) -/
  log : List (Nat × Nat × Bytes) := []
  /-- the seal asked for or in force -/
  domain : Bytes := []
  flags : Nat := 0
  pevAddr : Nat := 0
  pevLog2 : Nat := 0
  pevFault : Bool := false
  /-- a SEAL's scrub is done: it comes into force at the next boundary (R512) -/
  sealReady : Bool := false
  /-- a scrub under way: the passed slots at which it completes, and what it belongs to -/
  scrubAt : Option Nat := none
  ending : Option SealEnd := none
  /-- a commit ends this STRICT seal at the coming boundary (R519) -/
  strictEnd : Bool := false
  /-- a ROTATE_FAR_KEY under way (R504) -/
  rotate : Option Cmd := none
  /-- undelivered partition-ring records (R518) -/
  ring : List EvRec := []
  deriving DecidableEq, Repr

/-- Mordant (R484 to R503). Private keys are held; none is readable. -/
structure Mordant where
  devid : Nat := 0
  cdi1 : Bytes := []
  alias1 : Nat := 0
  alias2 : Nat := 0
  /-- the lifecycle code and fused SVN that CDI1 was derived from -/
  baseLife : Nat := 0
  baseSvn : Nat := 0
  /-- keys derived: stage 1 has ended -/
  keyed : Bool := false
  alias1Cert : Bytes := []
  alias2Cert : Bytes := []
  drbgFail : Bool := false
  /-- MS0 to MS15 -/
  ms : List (Nat × Bytes) := []
  parts : List (Nat × Trusted) := []
  /-- the operator key enrolled, as DEPLOY or OPERATOR_REKEY gave it -/
  opKey : Bytes := []
  deriving DecidableEq, Repr

/-- A select record of the Ledger (R559). -/
structure Select where
  seq : Nat
  set : Nat
  hash : Bytes
  valid : Bool := true
  deriving DecidableEq, Repr

/-- Firmware update (R557 to R573), with the Ledger's set areas. -/
structure Update where
  areaA : Bytes := []
  areaB : Bytes := []
  selA : Option Select := none
  selB : Option Select := none
  /-- the manifest in force -/
  inForce : Bytes := []
  /-- the UPD_BEGIN or RECOVERY_BEGIN receiving or writing: opcode and command -/
  begun : Option (Nat × Cmd) := none
  /-- the bundle that passed its checks and is being written to the Ledger -/
  incoming : Bytes := []
  /-- the staged set -/
  bundle : Bytes := []
  staged : Bool := false
  /-- the UPD_DISTRIBUTE whose broadcast runs -/
  distribute : Option Cmd := none
  /-- the staged set has been distributed -/
  distributed : Bool := false
  /-- cores whose inactive bank is not complete -/
  lacking : List Nat := []
  commit : Option Cmd := none
  commitE : Nat := 0
  /-- cores counted at PREPARE, once it was sent, and those that answered READY -/
  prepared : Option (List Nat) := none
  ready : List Nat := []
  /-- GO was issued and the select record is still to be written -/
  goDone : Bool := false
  deriving DecidableEq, Repr

end Sys2Proof.Machine
end

