-- ==== Sys2Proof/Machine/State.lean ====
section
/-!
DEFINITION. Machine/State.lean: the state of the ZX8 block as plain data, the reasons a step can
stop, and the machine right after power-on.
-/

namespace Sys2Proof.Machine

open Sys2Proof

/-- The machine. Every indexed part is a sparse map in canonical form (Machine/AMap.lean). -/
structure State where
  /-- commands waiting, first in first out (the block model's own) -/
  pending : List Instr := []
  /-- free values drawn so far (the model's own; Config.freeByte, Config.freeNat) -/
  free : Nat := 0
  /-- real time since power-on in units of 0.8 ns (R42; what REFCLK timers count) -/
  real : Nat := 0
  /-- register fields by unit (Machine/Regs.lean, `fkey`); an unlisted field is at its reset value -/
  regs : List (Nat × Nat) := []
  /-- what happened to fields in the current core cycle, by the same key: the value before it, and what it set or added: W1C bits
  that hardware set, W1S bits that software set, counts or values that RC fields took (R13, R15). Part of `Comp.regs` -/
  hot : List (Nat × (Nat × Nat)) := []
  /-- latched companion registers by requester (R628, R629) -/
  latches : List (Nat × Nat) := []
  /-- bytes of local memory (DRAM, slices, cluster memories, CXL windows) -/
  mem : List (Nat × Byte) := []
  /-- ranges rewritten whole, newest first: start, length, and the number of the free value they read
  as, or none where they read zero -/
  undef : List (Nat × Nat × Option Nat) := []
  /-- poisoned 64-byte sectors, by sector number: 1 poisoned, 2 poisoned until its rewrite has passed (R305, R306) -/
  poison : List (Nat × Nat) := []
  /-- sync flags: store × 4,096 + index (R246) -/
  flags : List (Nat × Nat) := []
  /-- units to be fenced at the start of the next slot (R621) -/
  fences : List Nat := []
  fuse : Fuse := {}
  ledger : Ledger := {}
  pins : Pins := {}
  boot : Boot := {}
  resets : List Reset := []
  time : TimeUnit := {}
  parts : List (Nat × Part) := []
  sprue : SprueUnit := {}
  events : EventUnit := {}
  health : Health := {}
  /-- descriptions of partitions 0 to 7, and of the device at 8 (R554) -/
  descs : List (Nat × Desc) := []
  /-- CTR of each far-tier line with TAGS, by line number (local offset / 256, R475) -/
  ctrs : List (Nat × Nat) := []
  hall : Hall := {}
  runner : List (Nat × RPort) := []
  net : Net := {}
  slices : List (Nat × SliceUnit) := []
  banks : Banks := {}
  chans : List (Nat × Chan) := []
  wires : List (Nat × Wires) := []
  cxl : List (Nat × CxlUnit) := []
  movers : List (Nat × Mover) := []
  mxs : List (Nat × MxCore) := []
  gcores : List (Nat × Gcore) := []
  mordant : Mordant := {}
  update : Update := {}
  /-- certificates that chain to the Ngaver root, each with its subject's public key (the model's own:
  X.509 is not parsed) -/
  pki : List (Bytes × Bytes) := []
  /-- certificates the Ledger stores: the manufacturing CA's and DEVID's (R487) -/
  certs : List Bytes := []
  deriving DecidableEq, Repr

/-- The components of State that a command may change: all but the queue, real time, and the certificates the model is
given (`pki`, `certs`). -/
inductive Comp
  | free | regs | latches | mem | undef | poison | flags | fences | fuse | ledger | pins
  | boot | resets | time | parts | sprue | events | health | descs | ctrs | hall | runner
  | net | slices | banks | chans | wires | cxl | movers | mxs | gcores | mordant | update
  deriving DecidableEq, Repr

/-- The contents of the DRAM and of the CXL windows at power-on: undefined (R288, R503, R659), two
free values. The local map puts DRAM at offset 0 and the CXL windows at 0x0800_0000_0000. -/
def undefAtPowerOn (n : Nat) : List (Nat × Nat × Option Nat) :=
  [(0, 0xA000000000, some n), (0x080000000000, 0x80000000000, some (n + 1))]

/-- The machine right after power-on with VAUX and VIN within limits and the board inputs low: no
register field is listed, so every one is at its reset value (R626); no byte of memory is listed:
cluster memories and slices read zero (R659), the DRAM and the far tier are undefined. The values the
spec does not give are named in log entries 1 to 5. -/
def State.reset : State :=
  { undef := undefAtPowerOn 0, free := 2, fuse := { uds := Config.uds } }

/-- Why a step stops for good. -/
inductive Fault
  /-- VAUX left its limits with VIN at or above 0.5 V and VIN stayed there past 10 ms (R642): the
  spec promises no undamaged device. Raised by VAUX_LOSS. Safe: the machine stops where the spec
  says nothing. -/
  | damaged
  deriving DecidableEq, Repr

/-- Why a command has no meaning in the model. -/
inductive Refusal
  /-- The command's meaning is not written. Raised by the dispatcher only. Safe. -/
  | notModelled (mnemonic : String)
  deriving DecidableEq, Repr

end Sys2Proof.Machine
end

