-- ==== Sys2Proof/Machine/Ops.lean ====
section
/-!
DEFINITION. Machine/Ops.lean: the named operations every command is written with: register fields,
units and their identities, ownership, byte strings, time arithmetic, the end of a command.
-/

namespace Sys2Proof.Machine

open Sys2Proof

/-! ### How a command ends -/

/-- The state `t` in the components listed, `s` in all others. -/
def State.only (l : List Comp) (s t : State) : State :=
  { s with
    free := if l.contains .free then t.free else s.free
    regs := if l.contains .regs then t.regs else s.regs
    hot := if l.contains .regs then t.hot else s.hot
    latches := if l.contains .latches then t.latches else s.latches
    mem := if l.contains .mem then t.mem else s.mem
    undef := if l.contains .undef then t.undef else s.undef
    poison := if l.contains .poison then t.poison else s.poison
    flags := if l.contains .flags then t.flags else s.flags
    fences := if l.contains .fences then t.fences else s.fences
    fuse := if l.contains .fuse then t.fuse else s.fuse
    ledger := if l.contains .ledger then t.ledger else s.ledger
    pins := if l.contains .pins then t.pins else s.pins
    boot := if l.contains .boot then t.boot else s.boot
    resets := if l.contains .resets then t.resets else s.resets
    time := if l.contains .time then t.time else s.time
    parts := if l.contains .parts then t.parts else s.parts
    sprue := if l.contains .sprue then t.sprue else s.sprue
    events := if l.contains .events then t.events else s.events
    health := if l.contains .health then t.health else s.health
    descs := if l.contains .descs then t.descs else s.descs
    ctrs := if l.contains .ctrs then t.ctrs else s.ctrs
    hall := if l.contains .hall then t.hall else s.hall
    runner := if l.contains .runner then t.runner else s.runner
    net := if l.contains .net then t.net else s.net
    slices := if l.contains .slices then t.slices else s.slices
    banks := if l.contains .banks then t.banks else s.banks
    chans := if l.contains .chans then t.chans else s.chans
    wires := if l.contains .wires then t.wires else s.wires
    cxl := if l.contains .cxl then t.cxl else s.cxl
    movers := if l.contains .movers then t.movers else s.movers
    mxs := if l.contains .mxs then t.mxs else s.mxs
    gcores := if l.contains .gcores then t.gcores else s.gcores
    mordant := if l.contains .mordant then t.mordant else s.mordant
    update := if l.contains .update then t.update else s.update }

/-- What a command answers: its effect `t` in the components `l` it may touch, all else as it stood in `s`. A command
never touches the queue or real time. -/
def finish (l : List Comp) (s t : State) : Host.Outcome State Fault Refusal := .next (s.only l t)

/-- What raising an event can change: page headers and queues, and, by the action of its severity, the unit fenced, the
partitions lost, the clocks gated (Table 16-7), with the undefined staging a fenced core leaves and the partition rings. -/
def evented : List Comp := [.free, .regs, .pins, .parts, .events, .movers, .mxs, .mordant]

/-- What completing a command can change: an event besides, the Sprue port, or the relay that brought the command. -/
def answered : List Comp := evented ++ [.sprue, .hall, .runner]

/-- What a register write can change. -/
def accessed : List Comp :=
  evented ++ [.latches, .mem, .poison, .flags, .fences, .resets, .ctrs, .hall, .runner, .slices, .cxl]

/-- What the power-on scope takes to its start (Table 14-5): all but the Ledger and the fuses. -/
def powered : List Comp :=
  accessed ++ [.undef, .boot, .time, .sprue, .health, .descs, .net, .banks, .chans, .wires, .gcores, .update]

/-- What a tile instruction can change. -/
def tiled : List Comp := evented ++ [.mem, .poison]

/-- What serving a request at a home can change. -/
def served : List Comp := evented ++ [.mem, .poison, .ctrs, .hall, .runner, .net, .slices, .banks]

/-- What issuing requests can change. -/
def asked : List Comp := evented ++ [.resets, .hall, .runner, .net, .slices, .gcores]

/-! ### Byte strings -/

/-- `v` as `n` bytes, little-endian. -/
def le (n v : Nat) : Bytes := (List.range n).map fun i => BitVec.ofNat 8 (v >>> (8 * i))

/-- A little-endian number from its bytes. -/
def unle : Bytes → Nat
  | [] => 0
  | b :: bs => b.toNat + 256 * unle bs

/-- `n` bytes of `b` from offset `o`; a byte beyond the end is zero. -/
def slice (b : Bytes) (o n : Nat) : Bytes :=
  let t := (b.drop o).take n
  t ++ List.replicate (n - t.length) 0

/-- The little-endian field of `n` bytes at offset `o`. -/
def fieldAt (b : Bytes) (o n : Nat) : Nat := unle (slice b o n)

/-- An integer cut to `w` bits, two's complement. -/
def ofInt (w : Nat) (v : Int) : Nat := (v % (2 ^ w : Int)).toNat

/-- A `w`-bit word read as a signed number. -/
def toInt (w v : Nat) : Int := if v % 2 ^ w < 2 ^ (w - 1) then (v % 2 ^ w : Nat) else (v % 2 ^ w : Nat) - (2 ^ w : Int)

/-- Bit `i` of `v`. -/
def bit (v i : Nat) : Bool := v.testBit i

/-- `v` with bit `i` set to `b`. -/
def setBit (v i : Nat) (b : Bool) : Nat :=
  if b then v ||| (1 <<< i) else v - (if v.testBit i then 2 ^ i else 0)

/-! ### Register fields -/

/-- The value of field `F`, instance `i`, on page `pg`. -/
def State.rd (s : State) (pg : Nat) (F : Fld) (i : Nat := 0) : Nat :=
  aget (F.resetAt i) s.regs (fkey pg F i)

/-- The state with that field holding `v`, cut to the field's width. -/
def State.wr (s : State) (pg : Nat) (F : Fld) (v : Nat) (i : Nat := 0) : State :=
  { s with regs := aset (F.resetAt i) s.regs (fkey pg F i) (v % 2 ^ F.width) }

/-- What happened to the field in this core cycle: its value before, and what was set or added (R13, R15). -/
def State.happened (s : State) (pg : Nat) (F : Fld) (i : Nat := 0) : Nat × Nat :=
  aget (s.rd pg F i, 0) s.hot (fkey pg F i)

/-- The state that notes `v` as what this cycle set in, or added to, the field. -/
def State.note (s : State) (pg : Nat) (F : Fld) (v : Nat) (i : Nat := 0) : State :=
  { s with hot := ains (fkey pg F i) ((s.happened pg F i).1, v) s.hot }

/-- The field raised by `n`, saturating at its greatest value; what an RC field gains in a cycle is noted for a read of the same
cycle (R15). -/
def State.bump (s : State) (pg : Nat) (F : Fld) (n : Nat := 1) (i : Nat := 0) : State :=
  (if F.acc = .rc then s.note pg F (min ((s.happened pg F i).2 + n) (2 ^ F.width - 1)) i else s).wr pg F
    (min (s.rd pg F i + n) (2 ^ F.width - 1)) i

/-- Hardware sets `bits` of a W1C field: they stay set against a clear of the same cycle (R13). -/
def State.hwSet (s : State) (pg : Nat) (F : Fld) (bits : Nat := 1) (i : Nat := 0) : State :=
  (s.note pg F ((s.happened pg F i).2 ||| bits) i).wr pg F (s.rd pg F i ||| bits) i

/-- Hardware stores `v` in an RC field that is no count: a read of the same cycle returns the value before (R15). -/
def State.hwPut (s : State) (pg : Nat) (F : Fld) (v : Nat) (i : Nat := 0) : State := (s.note pg F v i).wr pg F v i

/-- Hardware clears `bits` of a W1S field, but those that software set in the same cycle (R13). -/
def State.hwClear (s : State) (pg : Nat) (F : Fld) (bits : Nat := 1) (i : Nat := 0) : State :=
  s.wr pg F ((s.rd pg F i - (s.rd pg F i &&& bits)) ||| ((s.happened pg F i).2 &&& bits)) i

/-- The state `t` with the count of field `F` as it stood in `s`, what this cycle added to it too. -/
def State.recount (s t : State) (pg : Nat) (F : Fld) : State :=
  let k := fkey pg F 0
  { t.wr pg F (s.rd pg F) with
    hot := match s.hot.find? fun (e : Nat × Nat × Nat) => decide (e.1 = k) with | some e => ains k e.2 t.hot | none => adel k t.hot }

/-- The field is not zero. -/
def State.on (s : State) (pg : Nat) (F : Fld) (i : Nat := 0) : Bool := s.rd pg F i != 0

/-- The state with a list of field writes done in order. -/
def State.wrs (s : State) (pg : Nat) (l : List (Fld × Nat)) (i : Nat := 0) : State :=
  l.foldl (fun s e => s.wr pg e.1 e.2 i) s

/-! ### Units: PAGE_ID values (R618, Table 17-2) -/

/-- The PAGE_ID value of a type and an instance. -/
def pageId (ty inst : Nat) : Nat := ty * 65536 + inst

def pgDevice : Nat := pageId 0x0001 0
def pgHall : Nat := pageId 0x0002 0
def pgCluster (c : Nat) : Nat := pageId 0x0010 c
def pgMatrix (m : Nat) : Nat := pageId 0x0011 m
def pgGcore (g : Nat) : Nat := pageId 0x0012 g
def pgClMover (c : Nat) : Nat := pageId 0x0013 c
def pgChannel (c : Nat) : Nat := pageId 0x0020 c
def pgColumns (r : Nat) : Nat := pageId 0x0021 r
def pgParting : Nat := pageId 0x0022 0
/-- The identity page of column group 32 × Riser + g. -/
def pgGroup (u : Nat) : Nat := pageId 0x0023 u
def pgSlice (n : Nat) : Nat := pageId 0x0030 n
def pgSlMover (m : Nat) : Nat := pageId 0x0034 m
def pgRunner (p : Nat) : Nat := pageId 0x0040 p
def pgLane (l : Nat) : Nat := pageId 0x0041 l
def pgSprue : Nat := pageId 0x0050 0
def pgCxl (x : Nat) : Nat := pageId 0x0051 x
def pgMordant : Nat := pageId 0x0060 0
def pgHk : Nat := pageId 0x0061 0
def pgBu : Nat := pageId 0x0062 0
def pgHt : Nat := pageId 0x0063 0
def pgEv : Nat := pageId 0x0064 0

/-- Movers: 0 to 79 are the cluster movers, 80 to 111 the slice movers (slice × 4 + j). -/
def pgMover (m : Nat) : Nat := if m < 80 then pgClMover m else pgSlMover (m - 80)

/-- Routers: 0 to 79 stand in the clusters, 80 to 87 are the hubs of Risers 0 to 7. -/
def pgRouter (net r : Nat) : Nat :=
  if r < 80 then pageId (0x0014 + net) r else pageId (0x0031 + net) (r - 80)
def pgBulk (r : Nat) : Nat := pgRouter 0 r
def pgControl (r : Nat) : Nat := pgRouter 1 r
def pgSync (r : Nat) : Nat := pgRouter 2 r

/-- TYPE and INSTANCE of a PAGE_ID value. -/
def pgType (pg : Nat) : Nat := pg / 65536
def pgInst (pg : Nat) : Nat := pg % 65536

/-- The identity of a requester (R618). -/
def reqIdent : Requester → Nat
  | .sprue => pgSprue
  | .mordant => pgMordant
  | .mgmt i => pageId 0x0070 i
  | .gcore i => pgGcore i

/-- The Riser a page's unit belongs to, for the pages R630 gives their Riser's partition. -/
def riserOf (pg : Nat) : Option Nat :=
  let n := pgInst pg
  match pgType pg with
  | 0x0010 | 0x0013 | 0x0014 | 0x0015 | 0x0016 => some (n / 10)
  | 0x0011 => some (n / 40)
  | 0x0012 => some (n / 80)
  | 0x0020 | 0x0023 => some (n / 32)
  | 0x0021 | 0x0030 | 0x0031 | 0x0032 | 0x0033 => some n
  | 0x0034 => some (n / 4)
  | _ => none

/-- The cluster a compute-die page belongs to. -/
def clusterOf (pg : Nat) : Option Nat :=
  let n := pgInst pg
  match pgType pg with
  | 0x0010 | 0x0013 | 0x0014 | 0x0015 | 0x0016 => some n
  | 0x0011 => some (n / 4)
  | 0x0012 => some (n / 8)
  | _ => none

/-! ### Partitions (R27 to R33, R630) -/

/-- Risers per partition under the count in force. -/
def State.partSize (s : State) : Nat := 8 / 2 ^ s.rd pgBu PT_CONFIG_ACTIVE

/-- The partition count in force. -/
def State.partCount (s : State) : Nat := 2 ^ s.rd pgBu PT_CONFIG_ACTIVE

/-- The partition that holds a Riser. -/
def State.partOfRiser (s : State) (r : Nat) : Nat := r / s.partSize

/-- The Risers of a partition. -/
def State.risersOf (s : State) (p : Nat) : List Nat :=
  (List.range 8).filter fun r => s.partOfRiser r == p

/-- The Risers partition `p` is allocated with: those of its range that are not absent whole (R536). -/
def State.allocRisers (s : State) (p : Nat) : List Nat := (s.risersOf p).filter fun n => !bit (s.rd pgBu BU_REDUCED_RISER_ABSENT) n

/-- The assignment in force of a port, PART + 8 × VALID: its register, or while a change of it waits for the
boundary, what it was (R30). -/
def State.portWord (s : State) (k pg : Nat) (P V : Fld) (i : Nat) : Nat :=
  match s.hall.owners.find? fun e => decide (e.1 = k) with
  | some e => e.2
  | none => s.rd pg P i + 8 * s.rd pg V i

/-- The owner of a Runner port, if assigned. -/
def State.rnOwner (s : State) (q : Nat) : Option Nat :=
  let w := s.portWord q pgBu PT_RN_ASSIGN_PART PT_RN_ASSIGN_VALID q
  if w / 8 = 1 then some (w % 8) else none

/-- The owner of a CXL port, if assigned. -/
def State.cxOwner (s : State) (x : Nat) : Option Nat :=
  let w := s.portWord (24 + x) pgBu PT_CX_ASSIGN_PART PT_CX_ASSIGN_VALID x
  if w / 8 = 1 then some (w % 8) else none

/-- The partition of a page's unit (R630); none for the device pages and unassigned ports. -/
def State.ownerOf (s : State) (pg : Nat) : Option Nat :=
  match riserOf pg with
  | some r => some (s.partOfRiser r)
  | none =>
    match pgType pg with
    | 0x0040 => s.rnOwner (pgInst pg)
    | 0x0041 => s.rnOwner (pgInst pg / 8)
    | 0x0051 => s.cxOwner (pgInst pg)
    | _ => none

/-- The partition's state. -/
def State.part (s : State) (p : Nat) : Part := aget {} s.parts p

/-- The state with partition `p` changed by `f`. -/
def State.modPart (s : State) (p : Nat) (f : Part → Part) : State :=
  { s with parts := aupd {} s.parts p f }

/-- The partition is sealed (R512; in force until its scrub completes, R519). -/
def State.sealed (s : State) (p : Nat) : Bool := s.on pgMordant MD_PART_SEALED p

/-- A pattern slot of a partition. -/
def Part.slot (q : Part) (k : Nat) : PSlot := if k = 0 then q.slot0 else q.slot1

/-- The load under way beside Pattern slot `k`, which stays as it is. -/
def Part.over (q : Part) (k : Nat) : Option PSlot := if k = 0 then q.over0 else q.over1

/-- The partition with that load set to `v`. -/
def Part.setOver (q : Part) (k : Nat) (v : Option PSlot) : Part :=
  if k = 0 then { q with over0 := v } else { q with over1 := v }

/-- The partition with Pattern slot `k` holding `v`. -/
def Part.setSlot (q : Part) (k : Nat) (v : PSlot) : Part :=
  if k = 0 then { q with slot0 := v } else { q with slot1 := v }

/-! ### Hall Time (R42, R43, Table 2-1) -/

/-- Core cycles per slot of the fused variant (Table 0-1). -/
def State.cps (s : State) : Nat :=
  match s.fuse.variant with
  | 0 => 256 | 1 => 224 | _ => 192

def State.epoch (s : State) : Nat := s.time.ticks / 2 ^ 20
def State.slot (s : State) : Nat := s.time.ticks / 256 % 4096
def State.tick (s : State) : Nat := s.time.ticks % 256

/-- The core cycle of the slot (R43). -/
def State.cycle (s : State) : Nat := s.tick * s.cps / 256

/-- The Hall Time at which slot `n` after the current one begins. -/
def State.slotStart (s : State) (n : Nat) : Nat := (s.time.ticks / 256 + n) * 256

/-- Absolute core cycles: the cycle count of Hall Time on this variant. -/
def State.cycles (s : State) : Nat := s.time.ticks / 256 * s.cps + s.cycle

/-- Ticks of 0.8 ns in a microsecond and in a millisecond. -/
def usTicks : Nat := 1250
def msTicks : Nat := 1250000

/-- Draws one free value: its number, and the counter advanced. -/
def State.draw (s : State) : Nat × State := (s.free, { s with free := s.free + 1 })

/-- The boundary from which the change staged under key `k` applies lies at or before the start of epoch `e` (R658). -/
def State.dueBy (s : State) (k e : Nat) : Bool := decide (aget 0 s.hall.dueAt k ≤ e)

/-- The change of key `k` is staged for the next boundary: of an epoch `late` epochs later where that one has been prepared. -/
def State.stageFor (s : State) (k late : Nat) : State :=
  let e := s.epoch + 1 + (if s.slot = 4095 ∧ s.time.prepared = s.time.epochs + 1 then late else 0)
  { s with hall := { s.hall with dueAt := ains k e s.hall.dueAt } }

/-! ### Service state of units (R621, R632, R270) -/

/-- PAGE_STAT.SERVICE of a unit: 0 in service, 1 fenced, 2 absent, 3 in reset. -/
def State.service (s : State) (pg : Nat) : Nat := s.rd pg PAGE_STAT_SERVICE

/-- A cluster's own pages: itself, its cores, mover and routers. -/
def clusterPages (c : Nat) : List Nat :=
  pgCluster c :: ((List.range 4).map fun m => pgMatrix (4 * c + m)) ++
    ((List.range 8).map fun g => pgGcore (8 * c + g)) ++
    [pgClMover c, pgBulk c, pgControl c, pgSync c]

/-- The pages of a compute die. -/
def diePages (r : Nat) : List Nat := ((List.range 10).map fun k => clusterPages (10 * r + k)).flatten

/-- The base-die pages of a Riser: channels, columns, slice, hub routers, slice movers. -/
def basePages (r : Nat) : List Nat :=
  ((List.range 32).map fun c => pgChannel (32 * r + c)) ++
    [pgColumns r, pgSlice r, pgBulk (80 + r), pgControl (80 + r), pgSync (80 + r)] ++
    ((List.range 4).map fun j => pgSlMover (4 * r + j))

/-- FENCEABLE pages (R620). -/
def fenceable (pg : Nat) : Bool := [0x0010, 0x0011, 0x0012, 0x0013, 0x0034].contains (pgType pg)

/-- RESETTABLE pages (R620). -/
def resettable (pg : Nat) : Bool := [0x0010, 0x0011, 0x0012, 0x0013].contains (pgType pg)

/-- What a unit was doing ends: a matrix core's instructions in flight, with its staging undefined (R117), a
mover's transfers. -/
def State.halt (s : State) (pg : Nat) : State :=
  let n := pgInst pg
  match pgType pg with
  | 0x0011 =>
    { s with
      mxs := aupd {} s.mxs n fun c => { c with run := none, out := none, stage := [], stageBack := some s.free }
      free := s.free + 1 }
  | 0x0013 => { s with movers := aupd {} s.movers n fun u => { u with xfer := none, remote := [], cutAt := some s.cycles } }
  | 0x0034 => { s with movers := aupd {} s.movers (80 + n) fun u => { u with xfer := none, remote := [], cutAt := some s.cycles } }
  | _ => s

/-- One unit goes out of service as fenced; a unit absent or in reset stays so. -/
def State.fenceOne (s : State) (pg : Nat) : State :=
  if s.service pg = 0 then ((s.wr pg PAGE_STAT_SERVICE 1).wr pg PAGE_CTRL_FENCE 1).halt pg else s

/-- The unit is fenced; for a cluster page, every unit of the cluster but its routers, which stay
powered in their own domain (R270, R621). -/
def State.fenceUnit (s : State) (pg : Nat) : State :=
  if pgType pg = 0x0010 then
    ((clusterPages (pgInst pg)).filter fenceable).foldl State.fenceOne s
  else s.fenceOne pg

/-- Units of the unit's page that serve no request: fenced, absent, or in reset. -/
def State.out (s : State) (pg : Nat) : Bool := s.service pg != 0

end Sys2Proof.Machine
end

