-- ==== Sys2Proof/Machine/Crypto.lean ====
section
/-!
DEFINITION. Machine/Crypto.lean: the algorithms the spec names by their standards: CRC-32C (the
Castagnoli polynomial), SHA-256, HMAC and HKDF, AES-256 with GCM and GMAC, ECDSA and ECDH on P-256.
The spec names the standards; their content is PRESUMED from them (log entry 6). All are structural
recursions over numbers, which the kernel evaluates.
-/

namespace Sys2Proof.Machine

open Sys2Proof

/-! ### CRC-32C -/

/-- `n` shifts of the reflected CRC-32C register. -/
def crcShift : Nat → Nat → Nat
  | 0, c => c
  | n + 1, c => crcShift n (if c % 2 = 1 then (c / 2) ^^^ 0x82F63B78 else c / 2)

/-- CRC-32C of a byte string. -/
def crc32c (b : Bytes) : Nat :=
  (b.foldl (fun c x => crcShift 8 (c ^^^ x.toNat)) 0xFFFFFFFF) ^^^ 0xFFFFFFFF

/-! ### SHA-256 -/

def ror32 (x n : Nat) : Nat := ((x >>> n) ||| (x <<< (32 - n))) % 2 ^ 32

/-- The 64 round constants, packed from the lowest word up. -/
def shaK : Nat := 0xc67178f2bef9a3f7a4506ceb90befffa8cc7020884c8781478a5636f748f82ee682e6ff35b9cca4f4ed8aa4a391c0cb334b0bcb52748774c1e376c0819a4c116106aa070f40e3585d6990624d192e819c76c51a3c24b8b70a81a664ba2bfe8a192722c8581c2c92e766a0abb650a735453380d134d2c6dfc2e1b213827b70a851429296706ca6351d5a79147c6e00bf3bf597fc7b00327c8a831c66d983e515276f988da5cb0a9dc4a7484aa2de92c6f240ca1cc0fc19dc6efbe4786e49b69c1c19bf1749bdc06a780deb1fe72be5d74550c7dc3243185be12835b01d807aa98ab1c5ed5923f82a459f111f13956c25be9b5dba5b5c0fbcf71374491428a2f98

/-- The big-endian number of a byte string. -/
def beNat (b : Bytes) : Nat := b.foldl (fun a x => a * 256 + x.toNat) 0

/-- `v` as `n` bytes, big-endian. -/
def be (n v : Nat) : Bytes := (le n v).reverse

/-- Words of 4 bytes, big-endian; `n` words. -/
def beWords : Nat → Bytes → List Nat
  | 0, _ => []
  | n + 1, b => beNat (b.take 4) :: beWords n (b.drop 4)

/-- `n` rounds over the last 16 schedule words `w` (oldest first) and the eight working words. -/
def shaRounds : Nat → Nat → List Nat → List Nat → List Nat
  | 0, _, _, v => v
  | n + 1, i, w, v =>
    match v with
    | [a, b, c, d, e, f, g, h] =>
      let wi := w.headD 0
      let s1 := ror32 e 6 ^^^ ror32 e 11 ^^^ ror32 e 25
      let ch := (e &&& f) ^^^ ((0xFFFFFFFF ^^^ e) &&& g)
      let t1 := (h + s1 + ch + (shaK >>> (32 * i)) % 2 ^ 32 + wi) % 2 ^ 32
      let s0 := ror32 a 2 ^^^ ror32 a 13 ^^^ ror32 a 22
      let mj := (a &&& b) ^^^ (a &&& c) ^^^ (b &&& c)
      let w1 := w.getD 1 0
      let w14 := w.getD 14 0
      let x0 := ror32 w1 7 ^^^ ror32 w1 18 ^^^ (w1 >>> 3)
      let x1 := ror32 w14 17 ^^^ ror32 w14 19 ^^^ (w14 >>> 10)
      let wn := (wi + x0 + w.getD 9 0 + x1) % 2 ^ 32
      shaRounds n (i + 1) (w.drop 1 ++ [wn])
        [(t1 + s0 + mj) % 2 ^ 32, a, b, c, (d + t1) % 2 ^ 32, e, f, g]
    | _ => v

/-- The compression of `n` 64-byte blocks into the chaining words. -/
def shaBlocks : Nat → Bytes → List Nat → List Nat
  | 0, _, h => h
  | n + 1, b, h =>
    let v := shaRounds 64 0 (beWords 16 (b.take 64)) h
    shaBlocks n (b.drop 64) ((h.zip v).map fun e => (e.1 + e.2) % 2 ^ 32)

/-- The message with its padding. -/
def shaPad (b : Bytes) : Bytes :=
  b ++ [0x80] ++ List.replicate ((119 - b.length % 64) % 64) 0 ++ be 8 (8 * b.length)

/-- The initial chaining words. -/
def shaInit : List Nat := [0x6a09e667, 0xbb67ae85, 0x3c6ef372, 0xa54ff53a, 0x510e527f, 0x9b05688c, 0x1f83d9ab, 0x5be0cd19]

/-- SHA-256. -/
def sha256 (b : Bytes) : Bytes :=
  let p := shaPad b
  ((shaBlocks (p.length / 64) p shaInit).map (be 4)).flatten

/-- HMAC-SHA-256. -/
def hmac (key msg : Bytes) : Bytes :=
  let k := if 64 < key.length then sha256 key else key
  let k64 := k ++ List.replicate (64 - k.length) 0
  sha256 (k64.map (· ^^^ 0x5C) ++ sha256 (k64.map (· ^^^ 0x36) ++ msg))

/-- HKDF expansion: `n` blocks. -/
def hkdfBlocks : Nat → Nat → Bytes → Bytes → Bytes → Bytes
  | 0, _, _, _, _ => []
  | n + 1, i, prk, info, t =>
    let t' := hmac prk (t ++ info ++ le 1 i)
    t' ++ hkdfBlocks n (i + 1) prk info t'

/-- HKDF-SHA-256: `len` bytes from input keying material, salt and info. -/
def hkdf (ikm salt info : Bytes) (len : Nat) : Bytes :=
  (hkdfBlocks ((len + 31) / 32) 1 (hmac salt ikm) info []).take len

/-! ### AES-256 -/

/-- The S-box, packed from entry 0 up. -/
def aesBox : Nat := 0x16bb54b00f2d99416842e6bf0d89a18cdf2855cee9871e9b948ed9691198f8e19e1dc186b95735610ef6034866b53e708a8bbd4b1f74dde8c6b4a61c2e2578ba08ae7a65eaf4566ca94ed58d6d37c8e779e4959162acd3c25c2406490a3a32e0db0b5ede14b8ee4688902a22dc4f816073195d643d7ea7c41744975fec130ccdd2f3ff1021dab6bcf5389d928f40a351a89f3c507f02f94585334d43fbaaefd0cf584c4a39becb6a5bb1fc20ed00d153842fe329b3d63b52a05a6e1b1a2c830975b227ebe28012079a059618c323c7041531d871f1e5a534ccf73f362693fdb7c072a49cafa2d4adf04759fa7dc982ca76abd7fe2b670130c56f6bf27b777c63

def subByte (b : Nat) : Nat := (aesBox >>> (8 * b)) % 256

def xtime (a : Nat) : Nat := if a < 128 then 2 * a else (2 * a) ^^^ 0x11B

/-- A word of four bytes, first byte highest, through the S-box. -/
def subWord (w : Nat) : Nat :=
  subByte (w >>> 24) <<< 24 ||| subByte ((w >>> 16) % 256) <<< 16 |||
    subByte ((w >>> 8) % 256) <<< 8 ||| subByte (w % 256)

/-- `n` more key words after the last eight `w` (oldest first); `i` is the next word's number. -/
def aesExpand : Nat → Nat → Nat → List Nat → List Nat
  | 0, _, _, _ => []
  | n + 1, i, rc, w =>
    let t := w.getD 7 0
    let x :=
      if i % 8 = 0 then subWord ((t <<< 8 ||| t >>> 24) % 2 ^ 32) ^^^ (rc <<< 24)
      else if i % 8 = 4 then subWord t else t
    let k := w.headD 0 ^^^ x
    k :: aesExpand n (i + 1) (if i % 8 = 0 then xtime rc else rc) (w.drop 1 ++ [k])

/-- The 60 key words of a 32-byte key. -/
def aesKeys (key : Bytes) : List Nat :=
  let w := beWords 8 key
  w ++ aesExpand 52 8 1 w

/-- Key words as bytes, each word's first byte highest. -/
def wordBytes (ws : List Nat) : List Nat :=
  (ws.map fun w => [(w >>> 24) % 256, (w >>> 16) % 256, (w >>> 8) % 256, w % 256]).flatten

def xorLists (a b : List Nat) : List Nat := (a.zip b).map fun e => e.1 ^^^ e.2

/-- ShiftRows over the 16 bytes in column order. -/
def shiftRows (x : List Nat) : List Nat :=
  [0, 5, 10, 15, 4, 9, 14, 3, 8, 13, 2, 7, 12, 1, 6, 11].map fun i => x.getD i 0

/-- MixColumns, a column at a time. -/
def mixColumns : List Nat → List Nat
  | a :: b :: c :: d :: r =>
    (xtime a ^^^ xtime b ^^^ b ^^^ c ^^^ d) :: (a ^^^ xtime b ^^^ xtime c ^^^ c ^^^ d) ::
      (a ^^^ b ^^^ xtime c ^^^ xtime d ^^^ d) :: (xtime a ^^^ a ^^^ b ^^^ c ^^^ xtime d) ::
      mixColumns r
  | _ => []

/-- `n` rounds, the last without MixColumns; `ks` are the key words still to use. -/
def aesRounds : Nat → List Nat → List Nat → List Nat
  | 0, _, x => x
  | n + 1, ks, x =>
    let y := shiftRows (x.map subByte)
    let z := if n = 0 then y else mixColumns y
    aesRounds n (ks.drop 4) (xorLists z (wordBytes (ks.take 4)))

/-- One block through AES-256. -/
def aesBlock (keys : List Nat) (b : List Nat) : List Nat :=
  aesRounds 14 (keys.drop 4) (xorLists b (wordBytes (keys.take 4)))

/-- A 128-bit number from 16 bytes, first byte highest, and back. -/
def blockNat (b : List Nat) : Nat := b.foldl (fun a x => a * 256 + x) 0
def natBlock (v : Nat) : List Nat := (List.range 16).map fun i => (v >>> (8 * (15 - i))) % 256

/-- AES-256 of a 128-bit number. -/
def aesNat (keys : List Nat) (v : Nat) : Nat := blockNat (aesBlock keys (natBlock v))

/-! ### GCM -/

/-- `n` steps of the GF(2^128) product of GCM; bits of `x` from the highest. -/
def gfMulAux : Nat → Nat → Nat → Nat → Nat
  | 0, _, _, z => z
  | n + 1, x, v, z =>
    gfMulAux n x (if v % 2 = 1 then (v / 2) ^^^ (0xE1 <<< 120) else v / 2)
      (if x.testBit n then z ^^^ v else z)

def gfMul (x y : Nat) : Nat := gfMulAux 128 x y 0

/-- GHASH over `n` blocks of 16 bytes, zero-padded. -/
def ghash : Nat → Nat → Bytes → Nat → Nat
  | 0, _, _, y => y
  | n + 1, h, b, y => ghash n h (b.drop 16) (gfMul (y ^^^ beNat (slice b 0 16)) h)

/-- The GCM tag of associated data and ciphertext under a 96-bit nonce. -/
def gcmTag (key : Bytes) (nonce : Nat) (aad ct : Bytes) : Bytes :=
  let ks := aesKeys key
  let h := aesNat ks 0
  let y1 := ghash ((aad.length + 15) / 16) h aad 0
  let y2 := ghash ((ct.length + 15) / 16) h ct y1
  let y3 := gfMul (y2 ^^^ ((8 * aad.length) <<< 64 ||| 8 * ct.length)) h
  be 16 (y3 ^^^ aesNat ks (nonce <<< 32 ||| 1))

/-- The counter-mode text of `n` blocks from counter `i`. -/
def ctrText : Nat → Nat → List Nat → Nat → Bytes → Bytes
  | 0, _, _, _, _ => []
  | n + 1, i, ks, nonce, b =>
    let k := be 16 (aesNat ks (nonce <<< 32 ||| i))
    ((b.take 16).zip k).map (fun e => e.1 ^^^ e.2) ++ ctrText n (i + 1) ks nonce (b.drop 16)

/-- AES-256-GCM encryption or decryption of the text (the same operation). -/
def gcmText (key : Bytes) (nonce : Nat) (b : Bytes) : Bytes :=
  ctrText ((b.length + 15) / 16) 2 (aesKeys key) nonce b

/-- AES-256-GMAC. -/
def gmac (key : Bytes) (nonce : Nat) (aad : Bytes) : Bytes := gcmTag key nonce aad []

/-! ### P-256 -/

def p256p : Nat := 0xffffffff00000001000000000000000000000000ffffffffffffffffffffffff
def p256n : Nat := 0xffffffff00000000ffffffffffffffffbce6faada7179e84f3b9cac2fc632551
def p256b : Nat := 0x5ac635d8aa3a93e7b3ebbd55769886bc651d06b0cc53b0f63bce3c3e27d2604b
def p256gx : Nat := 0x6b17d1f2e12c4247f8bce6e563a440f277037d812deb33a0f4a13945d898c296
def p256gy : Nat := 0x4fe342e2fe1a7f9b8ee7eb4a7c0f9e162bce33576b315ececbb6406837bf51f5

/-- `b ^ e` modulo `m` over `n` bits of `e`, lowest first. -/
def powMod : Nat → Nat → Nat → Nat → Nat → Nat
  | 0, _, _, _, a => a
  | n + 1, b, e, m, a => powMod n (b * b % m) (e / 2) m (if e % 2 = 1 then a * b % m else a)

/-- The inverse modulo a prime. -/
def invMod (x m : Nat) : Nat := powMod 256 (x % m) (m - 2) m 1

/-- A point in Jacobian coordinates; z = 0 is the point at infinity. -/
abbrev JPoint := Nat × Nat × Nat

def subP (a b : Nat) : Nat := (a + p256p - b % p256p) % p256p

def jDouble (q : JPoint) : JPoint :=
  let (x, y, z) := q
  let d := z * z % p256p
  let g := y * y % p256p
  let b := x * g % p256p
  let a := 3 * (subP x d * ((x + d) % p256p)) % p256p
  let x3 := subP (a * a) (8 * b)
  let z3 := subP ((y + z) * (y + z)) (g + d)
  (x3, subP (a * subP (4 * b) x3) (8 * (g * g % p256p)), z3)

def jAdd (q r : JPoint) : JPoint :=
  let (x1, y1, z1) := q
  let (x2, y2, z2) := r
  if z1 = 0 then r else if z2 = 0 then q
  else
    let a := z1 * z1 % p256p
    let b := z2 * z2 % p256p
    let u1 := x1 * b % p256p
    let u2 := x2 * a % p256p
    let s1 := y1 * z2 % p256p * b % p256p
    let s2 := y2 * z1 % p256p * a % p256p
    if u1 = u2 then (if s1 = s2 then jDouble q else (1, 1, 0))
    else
      let h := subP u2 u1
      let rr := subP s2 s1
      let h2 := h * h % p256p
      let h3 := h * h2 % p256p
      let v := u1 * h2 % p256p
      let x3 := subP (subP (rr * rr) h3) (2 * v)
      (x3, subP (rr * subP v x3) (s1 * h3), h * z1 % p256p * z2 % p256p)

/-- `k` times a point, over `n` bits of `k` from the highest. -/
def jMul : Nat → Nat → JPoint → JPoint → JPoint
  | 0, _, _, a => a
  | n + 1, k, q, a =>
    let d := jDouble a
    jMul n k q (if k.testBit n then jAdd d q else d)

/-- The affine coordinates of a point; none at infinity. -/
def jAffine (q : JPoint) : Option (Nat × Nat) :=
  let (x, y, z) := q
  if z = 0 then none
  else
    let i := invMod z p256p
    let i2 := i * i % p256p
    some (x * i2 % p256p, y * (i * i2 % p256p) % p256p)

/-- The pair lies on the curve. -/
def onCurve (x y : Nat) : Bool :=
  decide (x < p256p) && decide (y < p256p) &&
    decide (y * y % p256p = (x * x * x + (p256p - 3) * x + p256b) % p256p)

/-- A public key: the two coordinates, 32 bytes each, big-endian; none where it is no point. -/
def pubKey (b : Bytes) : Option (Nat × Nat) :=
  let x := beNat (slice b 0 32)
  let y := beNat (slice b 32 32)
  if onCurve x y then some (x, y) else none

/-- ECDSA P-256 verification of a 64-byte signature (r then s) over a 32-byte digest. -/
def ecdsaOk (key digest sig : Bytes) : Bool :=
  let r := beNat (slice sig 0 32)
  let t := beNat (slice sig 32 32)
  match pubKey key with
  | none => false
  | some (x, y) =>
    if r = 0 ∨ p256n ≤ r ∨ t = 0 ∨ p256n ≤ t then false
    else
      let w := invMod t p256n
      let a := jMul 256 (beNat digest * w % p256n) (p256gx, p256gy, 1) (1, 1, 0)
      let b := jMul 256 (r * w % p256n) (x, y, 1) (1, 1, 0)
      match jAffine (jAdd a b) with
      | none => false
      | some (vx, _) => decide (vx % p256n = r)

/-- The public key of a private scalar. -/
def pubOf (d : Nat) : Bytes :=
  match jAffine (jMul 256 d (p256gx, p256gy, 1) (1, 1, 0)) with
  | none => List.replicate 64 0
  | some (x, y) => be 32 x ++ be 32 y

/-- The ECDSA signature of a digest by private scalar `d` with nonce `k`. -/
def ecdsaSign (d k : Nat) (digest : Bytes) : Bytes :=
  match jAffine (jMul 256 k (p256gx, p256gy, 1) (1, 1, 0)) with
  | none => List.replicate 64 0
  | some (x, _) =>
    let r := x % p256n
    be 32 r ++ be 32 (invMod k p256n * (beNat digest + r * d) % p256n)

/-- The ECDH shared secret: the x coordinate; none where the partner's key is no point. (A scalar of 1 to n - 1 times a point of
the curve, whose order is the prime n, is never the point at infinity; the 0 that stands for it is not reached.) -/
def ecdh (d : Nat) (key : Bytes) : Option Bytes :=
  (pubKey key).map fun q => be 32 (((jAffine (jMul 256 d (q.1, q.2, 1) (1, 1, 0))).map Prod.fst).getD 0)

end Sys2Proof.Machine
end

