-- ==== Sys2Proof/Machine/Fp.lean ====
section
/-!
DEFINITION. Machine/Fp.lean: numbers with infinities and NaN, the formats of Table 4-1 and EXT64 (R124),
rounding (R125, R132, R134), and the FP32 arithmetic of R340. Operands become exact numbers, arithmetic is
exact, and one rounding makes the result.
-/

namespace Sys2Proof.Machine

open Sys2Proof

/-- A number: NaN, an infinity, or (−1)^neg × m × 2^e. -/
inductive Num
  | nan
  | inf (neg : Bool)
  | fin (neg : Bool) (m : Nat) (e : Int)
  deriving DecidableEq, Repr

/-- Positive zero. -/
def Num.zero : Num := .fin false 0 0

/-- An integer as a number. -/
def Num.ofInt (v : Int) : Num := .fin (decide (v < 0)) v.natAbs 0

/-- The number of bits of `m`. -/
def bitLen (m : Nat) : Nat := if m = 0 then 0 else Nat.log2 m + 1

/-! ### Formats -/

/-- A format: width, mantissa bits, weight of the least subnormal as a power of two, magnitude code of
the largest finite value, and of infinity where there is one; `nan`: codes above it are NaN. -/
structure Fmt where
  bits : Nat
  mb : Nat
  qmin : Int
  maxc : Nat
  infc : Option Nat
  nan : Bool
  deriving DecidableEq, Repr

def fE4M3 : Fmt := ⟨8, 3, -9, 0x7E, none, true⟩
def fE5M2 : Fmt := ⟨8, 2, -16, 0x7B, some 0x7C, true⟩
def fE3M2 : Fmt := ⟨6, 2, -4, 0x1F, none, false⟩
def fE2M3 : Fmt := ⟨6, 3, -3, 0x1F, none, false⟩
def fE2M1 : Fmt := ⟨4, 1, -1, 0x7, none, false⟩
def fBF16 : Fmt := ⟨16, 7, -133, 0x7F7F, some 0x7F80, true⟩
def fFP16 : Fmt := ⟨16, 10, -24, 0x7BFF, some 0x7C00, true⟩
def fFP32 : Fmt := ⟨32, 23, -149, 0x7F7FFFFF, some 0x7F800000, true⟩

/-- The sign of a code, and its magnitude code. -/
def Fmt.neg (f : Fmt) (c : Nat) : Bool := c.testBit (f.bits - 1)
def Fmt.mag (f : Fmt) (c : Nat) : Nat := c % 2 ^ (f.bits - 1)

/-- The value of a code (Table 4-1; subnormals at their value, R120). -/
def Fmt.decode (f : Fmt) (c : Nat) : Num :=
  let g := f.mag c
  if f.infc = some g then .inf (f.neg c)
  else if f.nan ∧ f.maxc < g then .nan
  else
    let x := g / 2 ^ f.mb
    if x = 0 then .fin (f.neg c) g f.qmin
    else .fin (f.neg c) (g % 2 ^ f.mb + 2 ^ f.mb) (f.qmin + (x - 1 : Nat))

/-- A code from its sign and magnitude code. -/
def Fmt.code (f : Fmt) (neg : Bool) (g : Nat) : Nat := (if neg then 2 ^ (f.bits - 1) else 0) + g

/-! ### Rounding -/

/-- Round to nearest with ties to even, or stochastically with the 24 random bits `r` (R134). -/
inductive Rnd
  | near
  | stoch (r : Nat)
  deriving DecidableEq, Repr

/-- `m / 2^sh` rounded. -/
def roundShift (rule : Rnd) (m sh : Nat) : Nat :=
  let k := m >>> sh
  let rem := m % 2 ^ sh
  match rule with
  | .near =>
    if 2 ^ sh < 2 * rem ∨ (2 * rem = 2 ^ sh ∧ sh ≠ 0 ∧ k % 2 = 1) then k + 1 else k
  | .stoch r => if 2 ^ 24 ≤ rem * 2 ^ 24 / 2 ^ sh + r then k + 1 else k

/-- `m × 2^e` rounded to `prec` bits and no finer than `2^qmin`: the count and the weight of its unit,
and whether it is inexact. -/
def quant (rule : Rnd) (prec : Nat) (qmin : Int) (m : Nat) (e : Int) : Nat × Int × Bool :=
  let q := max (e + (bitLen m : Int) - prec) qmin
  if m = 0 then (0, qmin, false)
  else if q ≤ e then (m * 2 ^ (e - q).toNat, q, false)
  else
    let sh := (q - e).toNat
    (roundShift rule m sh, q, decide (m % 2 ^ sh ≠ 0))

/-- The magnitude code of a rounded finite value, which may lie above the largest finite one, and
whether it is inexact. -/
def Fmt.round (f : Fmt) (rule : Rnd) (m : Nat) (e : Int) : Nat × Bool :=
  let r := quant rule (f.mb + 1) f.qmin m e
  (r.1 + (r.2.1 - f.qmin).toNat * 2 ^ f.mb, r.2.2)

/-! ### Exact arithmetic -/

def Num.isNan : Num → Bool
  | .nan => true
  | _ => false

def Num.neg? : Num → Bool
  | .nan => false
  | .inf n => n
  | .fin n _ _ => n

/-- A finite value as an integer multiple of `2^k`, for `k` at or below its exponent. -/
def scaled (neg : Bool) (m : Nat) (e k : Int) : Int :=
  let v : Int := (m * 2 ^ (e - k).toNat : Nat)
  if neg then -v else v

/-- The exact sum; a zero sum is −0 only where both terms are −0 (R137). -/
def Num.add : Num → Num → Num
  | .nan, _ => .nan
  | _, .nan => .nan
  | .inf a, .inf b => if a = b then .inf a else .nan
  | .inf a, .fin _ _ _ => .inf a
  | .fin _ _ _, .inf b => .inf b
  | .fin n1 m1 e1, .fin n2 m2 e2 =>
    let k := min e1 e2
    let v := scaled n1 m1 e1 k + scaled n2 m2 e2 k
    if v = 0 then .fin (n1 && n2 && decide (m1 = 0) && decide (m2 = 0)) 0 0
    else .fin (decide (v < 0)) v.natAbs k

/-- The exact product (Table 4-6). -/
def Num.mul : Num → Num → Num
  | .nan, _ => .nan
  | _, .nan => .nan
  | .inf a, .inf b => .inf (a != b)
  | .inf a, .fin n m _ => if m = 0 then .nan else .inf (a != n)
  | .fin n m _, .inf b => if m = 0 then .nan else .inf (n != b)
  | .fin n1 m1 e1, .fin n2 m2 e2 => .fin (n1 != n2) (m1 * m2) (e1 + e2)

def Num.negate : Num → Num
  | .nan => .nan
  | .inf n => .inf !n
  | .fin n m e => .fin (!n) m e

def Num.abs : Num → Num
  | .nan => .nan
  | .inf _ => .inf false
  | .fin _ m e => .fin false m e

/-- `a` is strictly below `b`, with −0 below +0 (R141, R340); false with a NaN. -/
def Num.below : Num → Num → Bool
  | .nan, _ => false
  | _, .nan => false
  | .inf a, .inf b => a && !b
  | .inf a, .fin _ _ _ => a
  | .fin _ _ _, .inf b => !b
  | .fin n1 m1 e1, .fin n2 m2 e2 =>
    let k := min e1 e2
    let v1 := scaled n1 m1 e1 k
    let v2 := scaled n2 m2 e2 k
    decide (v1 < v2) || (decide (v1 = v2) && n1 && !n2)

/-- Greater and lesser; a NaN term gives NaN (Table 4-6). -/
def Num.maxN (a b : Num) : Num := if a.isNan || b.isNan then .nan else if a.below b then b else a
def Num.minN (a b : Num) : Num := if a.isNan || b.isNan then .nan else if b.below a then b else a

/-- Multiplied exactly by `2^k`. -/
def Num.scale (k : Int) : Num → Num
  | .fin n m e => .fin n m (e + k)
  | v => v

/-! ### EXT64 (R124, R125) -/

/-- Rounded to EXT64: 48 bits, nearest even. -/
def Num.ext : Num → Num
  | .fin n m e =>
    let r := quant .near 48 (-16429) m e
    .fin n r.1 r.2.1
  | v => v

/-- The 64 bits of a number already rounded to EXT64. -/
def Num.toExt : Num → Nat
  | .nan => 0x7FFF * 2 ^ 48 + 1
  | .inf n => (if n then 2 ^ 63 else 0) + 0x7FFF * 2 ^ 48
  | .fin n m e =>
    let s := if n then 2 ^ 63 else 0
    let r := quant .near 48 (-16429) m e
    let r' := if r.1 = 2 ^ 48 then (2 ^ 47, r.2.1 + 1) else (r.1, r.2.1)
    if r'.1 < 2 ^ 47 then s + r'.1
    else s + (r'.2 + 16430).toNat * 2 ^ 48 + r'.1

/-- The number 64 bits of EXT64 hold. -/
def ofExt (w : Nat) : Num :=
  let n := w.testBit 63
  let x := w / 2 ^ 48 % 2 ^ 15
  let g := w % 2 ^ 48
  if x = 0x7FFF then (if g % 2 ^ 47 = 0 then .inf n else .nan)
  else .fin n g (if x = 0 then (-16429 : Int) else Int.ofNat x - 16430)

/-- An EXT64 addition: one rounding. -/
def Num.extAdd (a b : Num) : Num := (a.add b).ext

/-! ### FP32 (R340) -/

/-- The 32 bits of a number rounded to nearest even: overflow gives an infinity, a NaN 0x7FC0_0000. -/
def Num.toF32 : Num → Nat
  | .nan => 0x7FC00000
  | .inf n => fFP32.code n 0x7F800000
  | .fin n m e =>
    let r := fFP32.round .near m e
    fFP32.code n (if 0x7F7FFFFF < r.1 then 0x7F800000 else r.1)

/-- FP32 addition. -/
def f32Add (a b : Nat) : Nat := ((fFP32.decode a).add (fFP32.decode b)).toF32

/-- FP32 minimum and maximum: the number where one operand is NaN, −0 below +0 (R340). -/
def f32Pick (less : Bool) (a b : Nat) : Nat :=
  let x := fFP32.decode a
  let y := fFP32.decode b
  if x.isNan then (if y.isNan then 0x7FC00000 else b)
  else if y.isNan then a
  else if (if less then y.below x else x.below y) then b else a

end Sys2Proof.Machine
end

