-- ==== Sys2Proof/Machine/EventCodes.lean ====
section
/-!
DEFINITION. Machine/EventCodes.lean: the event codes of Table 12-15 (R483) with the severity each is
raised at, and whether the rule that raises a Madder event names its own containment (R601).
-/

namespace Sys2Proof.Machine

/-- A kind of event: its code, its severity (0 Ochre to 3 Lampblack), and, for a Madder event,
whether its rule names the containment in place of the fence of Table 16-7. -/
structure EvKind where
  code : Nat
  sev : Nat
  named : Bool
  deriving DecidableEq, Repr

/-- CMD_REFUSED, Ochre (R75, R452); INFO 0x0 (4) CMD_ID; 0x4 (2) OPCODE; 0x6 (1) STATUS; 0x7 (1) PART; 0x8 (8) START -/
def ev_CMD_REFUSED : EvKind := ⟨0x0001, 0, false⟩

/-- ARM_UNDONE, Ochre (R56, Table 2-9); INFO 0x0 (4) CMD_ID; 0x4 (2) OPCODE; 0x6 (1) STATUS, NO-TIME; 0x7 (1) PART; 0x8 (8) epoch that would have started -/
def ev_ARM_UNDONE : EvKind := ⟨0x0002, 0, false⟩

/-- PARTITION_DENIED, Ochre (R32); INFO 0x0 (8) hall address; 0x8 (4) requester identity; 0xC (1) OP -/
def ev_PARTITION_DENIED : EvKind := ⟨0x0003, 0, false⟩

/-- BAD_DESCRIPTOR, Ochre (R196); INFO 0x0 (8) descriptor hall address, or its table index; 0x8 (4) requester identity -/
def ev_BAD_DESCRIPTOR : EvKind := ⟨0x0004, 0, false⟩

/-- PAGE_TEST, Ochre (EVT_FORCE); INFO 0x0 (4) SCRATCH -/
def ev_PAGE_TEST : EvKind := ⟨0x0005, 0, false⟩

/-- PAGE_FENCED, Ochre (R621); INFO 0x0 (4) writer's identity -/
def ev_PAGE_FENCED : EvKind := ⟨0x0006, 0, false⟩

/-- TIME_SUSPECT, Ochre (R49); INFO 0x0 (4) last offset, ps; 0x4 (1) outliers -/
def ev_TIME_SUSPECT : EvKind := ⟨0x0100, 0, false⟩

/-- TIME_HOLDOVER, Ochre (R52); INFO 0x0 (4) last good offset, ps -/
def ev_TIME_HOLDOVER : EvKind := ⟨0x0101, 0, false⟩

/-- TIME_LOST, Madder (R56); INFO 0x0 (1) cause: 0 two seconds, 1 neighbour marks (R54), 2 TIME frame beyond ±10 ns; 0x4 (4) HOLD_MS -/
def ev_TIME_LOST : EvKind := ⟨0x0102, 1, true⟩

/-- TIME_XCHK, Ochre (R57); INFO 0x0 (1) neighbours diverged; 0x4 (4) largest divergence, ps -/
def ev_TIME_XCHK : EvKind := ⟨0x0103, 0, false⟩

/-- PATTERN_DONE, Ochre (R74); INFO 0x0 (1) partition; 0x1 (1) Pattern slot; 0x4 (4) last relative epoch -/
def ev_PATTERN_DONE : EvKind := ⟨0x0110, 0, false⟩

/-- SCHED_SLIP, Ochre (R77); INFO 0x0 (4) relative epoch; 0x4 (2) stamp slot; 0x6 (1) stamp cycle; 0x7 (1) partition; 0x8 (4) cycles late, saturating -/
def ev_SCHED_SLIP : EvKind := ⟨0x0111, 0, false⟩

/-- MX_WEIGHT_LATE, Ochre (R93); INFO 0x0 (2) instruction number; 0x4 (4) rows late in the TMM -/
def ev_MX_WEIGHT_LATE : EvKind := ⟨0x0200, 0, false⟩

/-- MX_PARITY, Ochre (R115); INFO 0x0 (1) array; 0x1 (1) store: 0 stationary set, 1 staging, 2 weight stream buffer; 0x4 (4) entry or row -/
def ev_MX_PARITY : EvKind := ⟨0x0201, 0, false⟩

/-- CL_FW_DENY, Ochre (R206); INFO 0x0 (8) hall address; 0x8 (4) requester identity -/
def ev_CL_FW_DENY : EvKind := ⟨0x0210, 0, false⟩

/-- CL_PARITY, Ochre (R207); INFO 0x0 (4) sector offset in the cluster window -/
def ev_CL_PARITY : EvKind := ⟨0x0211, 0, false⟩

/-- CL_FW_PARITY, Madder (R208); INFO 0x0 (4) sector offset in the cluster window -/
def ev_CL_FW_PARITY : EvKind := ⟨0x0212, 1, false⟩

/-- GC_OVERRUN, Ochre (R221); INFO 0x0 (2) window index; 0x4 (4) text offset of the program counter -/
def ev_GC_OVERRUN : EvKind := ⟨0x0220, 0, false⟩

/-- GC_TRAP, Ochre (R222); INFO 0x0 (1) mcause; 0x1 (1) ngvstat.STATUS; 0x4 (4) text offset; 0x8 (8) mtval -/
def ev_GC_TRAP : EvKind := ⟨0x0221, 0, false⟩

/-- NW_XPARITY, Ochre (R239); INFO 0x0 (1) port id; 0x1 (1) wire group -/
def ev_NW_XPARITY : EvKind := ⟨0x0300, 0, false⟩

/-- NW_SYNC_DROP, Ochre (R248); INFO 0x0 (2) flag address; 0x4 (4) requester identity, or the receiving Runner port's identity for a token from another package; 0x8 (2) SRC_PKG of such a token, else 0xFFFF -/
def ev_NW_SYNC_DROP : EvKind := ⟨0x0301, 0, false⟩

/-- NW_ROUTER_BAD, Madder; Umber for a hub (R271); INFO 0x0 (1) network: 0 bulk, 1 control, 2 sync; 0x1 (1) cause: 0 state parity, 1 self-test -/
def ev_NW_ROUTER_BAD : EvKind := ⟨0x0302, 1, true⟩

/-- NW_REG_MISS, Ochre (R274); INFO 0x0 (1) class; 0x4 (4) miss count; 0x8 (4) latency of the miss, core cycles -/
def ev_NW_REG_MISS : EvKind := ⟨0x0303, 0, false⟩

/-- MV_CRC_FAIL, Ochre (R265); INFO 0x0 (8) block hall address; 0x8 (8) check table hall address -/
def ev_MV_CRC_FAIL : EvKind := ⟨0x0310, 0, false⟩

/-- MC_BAND, Ochre (R300); INFO 0x0 (1) new band, as MC_STATUS.BAND; 0x1 (1) hottest layer; 0x2 (2) reading, 1/64 °C -/
def ev_MC_BAND : EvKind := ⟨0x0400, 0, false⟩

/-- MC_HOT_CHANNEL, Ochre (R304); INFO 0x0 (1) channel; 0x4 (4) sectors; 0x8 (4) Riser mean -/
def ev_MC_HOT_CHANNEL : EvKind := ⟨0x0401, 0, false⟩

/-- MC_POISON_OVF, Umber (R305); INFO 0x0 (4) granule address -/
def ev_MC_POISON_OVF : EvKind := ⟨0x0402, 2, false⟩

/-- MC_MARGIN_LOW, Ochre (R308); INFO 0x0 (2) lane, column or wire; 0x2 (1) phase margin; 0x3 (1) voltage margin -/
def ev_MC_MARGIN_LOW : EvKind := ⟨0x0403, 0, false⟩

/-- MC_LANE_PARITY, Ochre (R309); INFO 0x0 (1) group; 0x1 (1) errors in the last 256 cycles -/
def ev_MC_LANE_PARITY : EvKind := ⟨0x0404, 0, false⟩

/-- MC_HALF_WIDTH, Ochre (R310, R313); INFO 0x0 (1) unit: 0 channel, 1 column group, 2 Parting Link; 0x1 (1) group or direction; 0x2 (1) half kept: 0 lower, 1 upper -/
def ev_MC_HALF_WIDTH : EvKind := ⟨0x0405, 0, false⟩

/-- MC_REPAIRED, Ochre (R311); INFO 0x0 (1) unit, as MC_HALF_WIDTH; 0x1 (1) group or direction; 0x2 (1) spares in use -/
def ev_MC_REPAIRED : EvKind := ⟨0x0406, 0, false⟩

/-- MC_LINK_FENCED, Madder (R314); INFO 0x0 (1) vertical link; 0x1 (1) column group -/
def ev_MC_LINK_FENCED : EvKind := ⟨0x0407, 1, true⟩

/-- MC_CHANNEL_FAILED, Umber (R315); INFO 0x0 (1) channel -/
def ev_MC_CHANNEL_FAILED : EvKind := ⟨0x0408, 2, false⟩

/-- MC_PL_FAILED, Lampblack (R315); INFO 0x0 (1) direction: 0 Cope to Drag, 1 Drag to Cope -/
def ev_MC_PL_FAILED : EvKind := ⟨0x0409, 3, false⟩

/-- SB_REGION_DENY, Ochre (R321, R336); INFO 0x0 (8) hall address; 0x8 (4) requester identity; 0xC (1) OP -/
def ev_SB_REGION_DENY : EvKind := ⟨0x0500, 0, false⟩

/-- SB_PARITY, Ochre (R326); INFO 0x0 (4) slice offset of the sector; 0x4 (1) 1 when corrected by refetch -/
def ev_SB_PARITY : EvKind := ⟨0x0501, 0, false⟩

/-- SB_WB_LOST, Ochre (R334, R547); INFO 0x0 (8) line hall address; 0x8 (1) sector mask -/
def ev_SB_WB_LOST : EvKind := ⟨0x0502, 0, false⟩

/-- CHK_SUSPECT, Ochre (R354); INFO 0x0 (8) block hall address; 0x8 (8) check table hall address -/
def ev_CHK_SUSPECT : EvKind := ⟨0x0510, 0, false⟩

/-- CHK_QUEUE_FULL, Ochre (R354); INFO As CHK_SUSPECT -/
def ev_CHK_QUEUE_FULL : EvKind := ⟨0x0511, 0, false⟩

/-- CHK_BAD_TABLE, Ochre (R355, step 1); INFO As CHK_SUSPECT -/
def ev_CHK_BAD_TABLE : EvKind := ⟨0x0512, 0, false⟩

/-- CHK_ENTRY_FIXED, Ochre (R355, step 5); INFO As CHK_SUSPECT -/
def ev_CHK_ENTRY_FIXED : EvKind := ⟨0x0513, 0, false⟩

/-- CHK_REBUILT, Ochre (R355, step 5); INFO As CHK_SUSPECT -/
def ev_CHK_REBUILT : EvKind := ⟨0x0514, 0, false⟩

/-- CHK_LOST, Ochre (R355, step 6); INFO As CHK_SUSPECT -/
def ev_CHK_LOST : EvKind := ⟨0x0515, 0, false⟩

/-- RN_TRAIN_FAIL, Ochre (R366, R367); INFO 0x0 (1) state, Table 10-4 code; 0x1 (1) highest rate verified -/
def ev_RN_TRAIN_FAIL : EvKind := ⟨0x0600, 0, false⟩

/-- RN_LOW_RATE, Ochre (R368); INFO 0x0 (1) rate in use; 0x1 (1) target rate -/
def ev_RN_LOW_RATE : EvKind := ⟨0x0601, 0, false⟩

/-- RN_AUTH, Ochre (R381); INFO 0x0 (8) LCF count of the failed LCF -/
def ev_RN_AUTH : EvKind := ⟨0x0602, 0, false⟩

/-- RN_KEY_LATE, Ochre (R382); INFO 0x0 (4) traffic key index due -/
def ev_RN_KEY_LATE : EvKind := ⟨0x0603, 0, false⟩

/-- RN_PORT_DOWN, Madder (R384); INFO 0x0 (1) cause: 0 four resends, 1 ACK stall, 2 LTAG failures, 3 key switch; 0x4 (4) packets ended ROUTE-LOST -/
def ev_RN_PORT_DOWN : EvKind := ⟨0x0604, 1, true⟩

/-- RN_MARGIN_LOW, Ochre (R394); INFO 0x0 (1) lane; 0x1 (1) eye; 0x2 (1) phase margin; 0x3 (1) voltage margin -/
def ev_RN_MARGIN_LOW : EvKind := ⟨0x0605, 0, false⟩

/-- RN_NARROW, Ochre (R396); INFO 0x0 (1) failed lane; 0x1 (1) half kept: 0 lanes 0–3, 1 lanes 4–7 -/
def ev_RN_NARROW : EvKind := ⟨0x0606, 0, false⟩

/-- NW_UNMAPPED, Ochre (R403); INFO 0x0 (8) hall address; 0x8 (4) requester identity -/
def ev_NW_UNMAPPED : EvKind := ⟨0x0700, 0, false⟩

/-- NW_HMEMB, Ochre (R420); INFO 0x0 (2) entries applied; 0x4 (4) epoch bits [31:0] -/
def ev_NW_HMEMB : EvKind := ⟨0x0701, 0, false⟩

/-- NW_STOP, Ochre (R434); INFO 0x0 (4) STOP_ID; 0x4 (3) PORTS; 0x7 (1) ACTION; 0x8 (1) CLASSES; 0xA (2) SRC; 0xC (1) 1 when received by relay -/
def ev_NW_STOP : EvKind := ⟨0x0702, 0, false⟩

/-- NW_STOP_END, Ochre (R434); INFO 0x0 (4) STOP_ID; 0x4 (3) PORTS -/
def ev_NW_STOP_END : EvKind := ⟨0x0703, 0, false⟩

/-- SP_AUTH, Ochre (R447); INFO 0x0 (4) SEQ of the failed frame; 0x4 (1) TYPE -/
def ev_SP_AUTH : EvKind := ⟨0x0800, 0, false⟩

/-- SP_LINK_DOWN, Ochre (R448); INFO 0x0 (1) cause: 0 AM loss, 1 VLAS absent, 2 OWED above 256 -/
def ev_SP_LINK_DOWN : EvKind := ⟨0x0801, 0, false⟩

/-- SP_KEY_LATE, Ochre (R445); INFO 0x0 (4) SEQ reached; 0x4 (1) direction: 0 towards the device, 1 from the device, 2 relayed -/
def ev_SP_KEY_LATE : EvKind := ⟨0x0802, 0, false⟩

/-- SP_KEY_EXHAUSTED, Ochre (R445); INFO 0x0 (1) direction, as SP_KEY_LATE -/
def ev_SP_KEY_EXHAUSTED : EvKind := ⟨0x0803, 0, false⟩

/-- CX_DEVICE_IGNORED, Ochre (R469); INFO 0x0 (2) bus and device number; 0x2 (1) CXL device type -/
def ev_CX_DEVICE_IGNORED : EvKind := ⟨0x0810, 0, false⟩

/-- CX_TAG_FAIL, Ochre (R476); INFO 0x0 (8) line hall address -/
def ev_CX_TAG_FAIL : EvKind := ⟨0x0811, 0, false⟩

/-- CX_CTR_EXHAUST, Madder (R476); INFO 0x0 (8) line hall address -/
def ev_CX_CTR_EXHAUST : EvKind := ⟨0x0812, 1, true⟩

/-- CX_PORT_DOWN, Madder (R477); INFO 0x0 (4) requests completed CXL-ERROR -/
def ev_CX_PORT_DOWN : EvKind := ⟨0x0813, 1, true⟩

/-- CX_DEVICE_EVENT, Ochre (R477); INFO 0x0 (1) target; 0x1 (1) expander log; 0x8 (8) expander record handle -/
def ev_CX_DEVICE_EVENT : EvKind := ⟨0x0814, 0, false⟩

/-- MD_DRBG_FAIL, Madder (R489); INFO 0x0 (1) test: 0 repetition count, 1 adaptive proportion -/
def ev_MD_DRBG_FAIL : EvKind := ⟨0x0900, 1, true⟩

/-- MD_KEYX_FAIL, Ochre (R495); INFO 0x0 (1) port; 0x1 (1) cause: 0 chain, 1 lifecycle, 2 signature, 3 timeout -/
def ev_MD_KEYX_FAIL : EvKind := ⟨0x0901, 0, false⟩

/-- MD_SESSION_AUTH, Ochre (R507); INFO 0x0 (1) partition; 0x8 (8) SCTR offered -/
def ev_MD_SESSION_AUTH : EvKind := ⟨0x0902, 0, false⟩

/-- MD_SEALED, Ochre (R512); INFO 0x0 (1) partition; 0x1 (1) STRICT -/
def ev_MD_SEALED : EvKind := ⟨0x0903, 0, false⟩

/-- MD_PORT_REKEY, Ochre (R514); INFO 0x0 (1) port -/
def ev_MD_PORT_REKEY : EvKind := ⟨0x0904, 0, false⟩

/-- MD_UNSEALED, Ochre (R519); INFO 0x0 (1) partition; 0x1 (1) cause: 0 UNSEAL, 1 reset, 2 partition-count change, 3 commit -/
def ev_MD_UNSEALED : EvKind := ⟨0x0905, 0, false⟩

/-- MD_TCB_CHANGE, Ochre (R519); INFO 0x0 (16) first 16 bytes of the new MS2; the whole value is in MD_SLOT -/
def ev_MD_TCB_CHANGE : EvKind := ⟨0x0906, 0, false⟩

/-- BU_STAGE_DONE, Ochre, or as Table 14-2 (R527); INFO Table 14-3 -/
def ev_BU_STAGE_DONE : EvKind := ⟨0x0A00, 0, false⟩

/-- BU_FIELD_DEFECT, Ochre (R533); INFO 0x0 (16) field-defect entry, Table 16-10 -/
def ev_BU_FIELD_DEFECT : EvKind := ⟨0x0A01, 0, false⟩

/-- BU_DEFECT_LIST_FULL, Madder (R534); INFO As BU_FIELD_DEFECT -/
def ev_BU_DEFECT_LIST_FULL : EvKind := ⟨0x0A02, 1, true⟩

/-- BU_REDUCED, Ochre (R535); INFO 0x0 (1) compute die; 0x1 (1) absent logical units -/
def ev_BU_REDUCED : EvKind := ⟨0x0A03, 0, false⟩

/-- BU_RESET_DONE, Ochre (R550); INFO 0x0 (1) scope; 0x1 (1) Riser; 0x2 (1) cluster; 0x3 (1) kind; 0x4 (1) unit; 0x8 (2) absorbed; 0xA (2) discarded -/
def ev_BU_RESET_DONE : EvKind := ⟨0x0A04, 0, false⟩

/-- BU_DESC_CHANGED, Ochre (R555); INFO 0x0 (1) partition, or 0xFF for the device description; 0x4 (4) generation; 0x8 (8) first 8 bytes of the new hash -/
def ev_BU_DESC_CHANGED : EvKind := ⟨0x0A05, 0, false⟩

/-- BU_PIN_HOLD, Ochre (R648); INFO 0x0 (4) epoch bits [31:0] -/
def ev_BU_PIN_HOLD : EvKind := ⟨0x0A06, 0, false⟩

/-- BU_UNSTABLE_INPUT, Ochre (R649); INFO 0x0 (1) pin: 0 RESET_N, 1 PWR_GOOD, 2 HOLD_N; 0x2 (2) transitions in the last 1,000 ms -/
def ev_BU_UNSTABLE_INPUT : EvKind := ⟨0x0A07, 0, false⟩

/-- BU_INPUT_STABLE, Ochre (R649); INFO 0x0 (1) pin, as BU_UNSTABLE_INPUT -/
def ev_BU_INPUT_STABLE : EvKind := ⟨0x0A08, 0, false⟩

/-- REFCLK_LOST, Lampblack (R645); INFO 0x0 (8) Hall Time counter at the loss -/
def ev_REFCLK_LOST : EvKind := ⟨0x0A09, 3, false⟩

/-- UPD_STAGED, Ochre (R563); INFO 0x0 (8) RELEASE; 0x8 (1) SVN -/
def ev_UPD_STAGED : EvKind := ⟨0x0A10, 0, false⟩

/-- UPD_DISTRIBUTED, Ochre (R566); INFO 0x0 (2) cores not ready; 0x2 (1) repair rounds; 0x4 (4) PAGE_ID of the first not ready -/
def ev_UPD_DISTRIBUTED : EvKind := ⟨0x0A11, 0, false⟩

/-- UPD_ABORTED, Ochre (R569); INFO 0x0 (2) cores not ready; 0x4 (4) PAGE_ID of the first not ready -/
def ev_UPD_ABORTED : EvKind := ⟨0x0A12, 0, false⟩

/-- UPD_COMMITTED, Ochre (R570); INFO 0x0 (8) RELEASE; 0x8 (8) epoch E -/
def ev_UPD_COMMITTED : EvKind := ⟨0x0A13, 0, false⟩

/-- HK_TEMP_NOTICE, Ochre (R580); INFO 0x0 (2) channel; 0x2 (2) reading, 1/64 °C; 0x4 (2) limit, °C -/
def ev_HK_TEMP_NOTICE : EvKind := ⟨0x0B00, 0, false⟩

/-- HK_RISE_NOTICE, Ochre (R580); INFO 0x0 (2) channel; 0x2 (2) reading; 0x4 (2) rate, 1/16 °C/s -/
def ev_HK_RISE_NOTICE : EvKind := ⟨0x0B01, 0, false⟩

/-- HK_PROT_HOLD, Ochre (R582, R592); INFO 0x0 (1) partition; 0x1 (1) kind: 0 rate, 1 absolute, 2 power; 0x2 (2) channel; 0x4 (2) reading, rate or power -/
def ev_HK_PROT_HOLD : EvKind := ⟨0x0B02, 0, false⟩

/-- HK_PROT_END, Ochre (R582, R592); INFO 0x0 (1) partition; 0x1 (1) kind, as HK_PROT_HOLD -/
def ev_HK_PROT_END : EvKind := ⟨0x0B03, 0, false⟩

/-- HK_SENSOR_FAIL, Madder; Umber for the second base-die sensor under one Riser (R583); INFO 0x0 (2) channel; 0x2 (2) last reading -/
def ev_HK_SENSOR_FAIL : EvKind := ⟨0x0B04, 1, true⟩

/-- HK_SHUTDOWN, Lampblack (R586); INFO 0x0 (1) CAUSE; 0x2 (2) channel; 0x4 (2) reading; 0x6 (2) rate -/
def ev_HK_SHUTDOWN : EvKind := ⟨0x0B05, 3, false⟩

/-- HK_SHUTDOWN_PENDING, Madder (R588); INFO 0x0 (8) SEQUENCE of the oldest pending record; 0x8 (2) pending records -/
def ev_HK_SHUTDOWN_PENDING : EvKind := ⟨0x0B06, 1, true⟩

/-- PD_OVER_LIMIT, Ochre (R592); INFO 0x0 (2) package power, W; 0x2 (2) limit, W -/
def ev_PD_OVER_LIMIT : EvKind := ⟨0x0B07, 0, false⟩

/-- HK_VSTEP, Ochre (R594); INFO 0x0 (1) domain: 0 cluster, 1 base-die region; 0x1 (1) index; 0x2 (2) new voltage code; 0x4 (2) slack events -/
def ev_HK_VSTEP : EvKind := ⟨0x0B08, 0, false⟩

/-- HK_REPLAN_DONE, Ochre (R595); INFO 0x0 (4) operating hours; 0x4 (2) domains raised; 0x6 (2) domains lowered -/
def ev_HK_REPLAN_DONE : EvKind := ⟨0x0B09, 0, false⟩

/-- HK_CLUSTER_RETIRED, Madder (R597); INFO 0x0 (1) package-wide cluster index; 0x2 (2) required voltage code -/
def ev_HK_CLUSTER_RETIRED : EvKind := ⟨0x0B0A, 1, true⟩

/-- HK_BASE_CEILING, Madder (R598); INFO 0x0 (1) region; 0x2 (2) required voltage code -/
def ev_HK_BASE_CEILING : EvKind := ⟨0x0B0B, 1, true⟩

/-- LG_SHUT_LOW, Ochre (R607); INFO 0x0 (2) erased shutdown slots -/
def ev_LG_SHUT_LOW : EvKind := ⟨0x0B0C, 0, false⟩

/-- LG_WRITE_FAIL, Ochre (R608); INFO 0x0 (4) Ledger offset; 0x4 (1) 0 program, 1 erase -/
def ev_LG_WRITE_FAIL : EvKind := ⟨0x0B0D, 0, false⟩

end Sys2Proof.Machine
end

