-- ==== Sys2Proof/Machine/Events.lean ====
section
/-!
DEFINITION. Machine/Events.lean: raising an event (R464, R468, R601 to R604, R619), the actions of
each severity, delivery from a page's queue, and the schedule slip of R77.
-/

namespace Sys2Proof.Machine

open Sys2Proof

/-! ### The actions of Table 16-7 -/

/-- A Pattern slot of a lost partition is EMPTY; what a load under way answers to is kept until it ends. -/
def PSlot.lose (k : PSlot) : PSlot := if k.st = .loading then { k with st := .empty } else {}

/-- Partition `p` is lost (R602): it issues nothing, both Pattern slots are EMPTY, HT_PSTATE reads
HELD. -/
def State.losePart (s : State) (p : Nat) : State :=
  s.modPart p fun q => { q with run := .held, slot0 := q.slot0.lose, slot1 := q.slot1.lose, lost := true, holdE := none }

/-- The partitions in use. -/
def State.partList (s : State) : List Nat := List.range s.partCount

/-- Every Runner and CXL port goes down. -/
def State.portsDown (s : State) : State :=
  let s1 := (List.range 24).foldl (fun s q => s.wr (pgRunner q) RN_PSTAT_STATE 0) s
  (List.range 2).foldl (fun s x => s.wr (pgCxl x) CX_STATUS_STATE 0) s1

/-- The device is lost: every partition, the compute clocks, the Runner and CXL ports (Table 16-7). -/
def State.lampblack (s : State) : State :=
  let s1 := s.partList.foldl State.losePart s
  { s1.portsDown with pins := { s1.pins with gated := true } }

/-- The action of a severity on the page that raised it; where the defining rule names its own
containment (`named`), that rule's command performs it instead. -/
def State.act (s : State) (pg sev : Nat) (named : Bool) : State :=
  match sev with
  | 0 => s
  | 1 => if named then s else s.fenceUnit pg
  | 2 =>
    if named then s
    else match s.ownerOf pg with
      | some p => s.losePart p
      | none => s.partList.foldl State.losePart s
  | _ => s.lampblack

/-! ### Queues and delivery (R604, R466, R467) -/

/-- The undelivered records of a page. -/
def State.queue (s : State) (pg : Nat) : List EvRec := aget [] s.events.queues pg

def State.setQueue (s : State) (pg : Nat) (q : List EvRec) : State :=
  { s with events := { s.events with queues := aset [] s.events.queues pg q } }

/-- The ring takes records: enabled and not stopped by a fault. -/
def State.ringOn (s : State) : Bool := s.on pgEv EV_CTRL_RING_EN && !s.on pgEv EV_STAT_RING_FAULT

/-- INFO as it leaves: zero for a unit of a sealed partition (R468). -/
def State.leaveInfo (s : State) (r : EvRec) : EvRec :=
  match riserOf r.source with
  | some n => if s.sealed (s.partOfRiser n) then { r with info := List.replicate 16 0 } else r
  | none => r

/-- A waiting record put in its place by STAMP. -/
def insertWait (w : EvWait) : List EvWait → List EvWait
  | [] => [w]
  | x :: xs => if w.rcd.stamp < x.rcd.stamp then w :: x :: xs else x :: insertWait w xs

/-- A delivered record waits for its EVT frame where its severity reaches FRAME_MIN; while the port
is down only the 64 newest wait (R467). SP_LINK_DOWN goes to the ring only (R448). -/
def State.await (s : State) (r : EvRec) : State :=
  if r.sev < s.rd pgEv EV_CTRL_FRAME_MIN ∨ r.code = ev_SP_LINK_DOWN.code then s
  else
    let l := insertWait ⟨s.leaveInfo r, s.time.slots⟩ s.events.wait
    let l' := if s.rd pgSprue SP_STATUS_LINK = 2 then l else l.drop (l.length - 64)
    { s with events := { s.events with wait := l' } }

/-- A record of a unit of a sealed partition joins those for its partition ring, in full (R518). -/
def State.partRing (s : State) (r : EvRec) : State :=
  match riserOf r.source with
  | some n =>
    let p := s.partOfRiser n
    if s.sealed p then
      { s with mordant := { s.mordant with parts := aupd {} s.mordant.parts p fun t => { t with ring := t.ring ++ [r] } } }
    else s
  | none => s

/-- A record leaves its page's queue: it is delivered. -/
def State.delivered (s : State) (r : EvRec) : State := (s.partRing r).await r

/-- With the ring off, a page's records are delivered at once; a stopped ring counts them lost
(R466). -/
def State.deliver (s : State) (pg : Nat) : State :=
  if s.ringOn then s
  else
    let q := s.queue pg
    let s1 := q.foldl State.delivered (s.setQueue pg [])
    if s.on pgEv EV_CTRL_RING_EN then s1.bump pgEv EV_LOST_COUNT q.length else s1

/-! ### Raising -/

/-- The severity bit of EVT_STAT. -/
def sevField : Nat → Fld
  | 0 => EVT_STAT_OCHRE
  | 1 => EVT_STAT_MADDER
  | 2 => EVT_STAT_UMBER
  | _ => EVT_STAT_LAMPBLACK

/-- No severity bit of EVT_STAT stands. -/
def State.evQuiet (s : State) (pg : Nat) : Bool :=
  !(s.on pg EVT_STAT_OCHRE || s.on pg EVT_STAT_MADDER || s.on pg EVT_STAT_UMBER
    || s.on pg EVT_STAT_LAMPBLACK)

/-- The header of a page after an event (R619): EVT_STAT, ERR_CNT, ERR_FIRST, ERR_LAST, and the
event level of R603. -/
def State.evHeader (s : State) (pg code sev : Nat) (esc : Bool) : State :=
  let s0 := if s.evQuiet pg then
      s.wrs pg [(ERR_FIRST_CODE, code), (ERR_FIRST_SEV, sev), (ERR_FIRST_VALID, 1)] else s
  let s1 := (s0.hwSet pg (sevField sev)).bump pg ERR_CNT_EVENTS
  let s2 := s1.wrs pg [(ERR_LAST_CODE, code), (ERR_LAST_SEV, sev), (ERR_LAST_VALID, 1)]
  let s3 := if esc then s2.hwSet pg EVT_STAT_ESCALATED else s2
  s3.wr pg PAGE_STAT_LEVEL (max (s.rd pg PAGE_STAT_LEVEL) sev)

/-- A record coalesced into a queued one of the same code (R604). -/
def coalesce (q : List EvRec) (code sev : Nat) : List EvRec :=
  q.map fun r => if r.code = code then { r with count := min 255 (r.count + 1), sev := max r.sev sev }
    else r

/-- The tail of a full queue, escalated over a discarded event of severity `sev` (R604). -/
def escalateTail (q : List EvRec) (sev : Nat) : List EvRec :=
  match q.reverse with
  | [] => []
  | t :: rest => ({ t with sev := min 3 (max t.sev sev + 1), esc := true } :: rest).reverse

/-- The page raises an event of severity `sev0` (R604): a second Madder is raised as Umber; the
record coalesces, joins the queue, or is discarded over an escalated tail; the severity's action
follows in the next cycle. -/
def State.raiseAt (s : State) (pg code sev0 : Nat) (named : Bool) (info : Bytes) : State :=
  let second := decide (sev0 = 1 ∧ s.rd pg PAGE_STAT_LEVEL = 1)
  let sev := if second then 2 else sev0
  let own := named && !second
  let s1 := s.evHeader pg code sev second
  let q := s.queue pg
  if sev = 0 ∧ s.on pg EVT_MASK_OCHRE then s1
  else if q.any fun r => decide (r.code = code) then
    ((s1.setQueue pg (coalesce q code sev)).deliver pg).act pg sev own
  else if q.length < 16 then
    let r : EvRec := { stamp := s.time.ticks, source := pg, code := code, sev := sev, esc := second,
                       info := slice info 0 16 }
    ((s1.setQueue pg (q ++ [r])).deliver pg).act pg sev own
  else
    let q' := escalateTail q sev
    let top := (q'.getLast?.map EvRec.sev).getD 3
    let s2 := ((s1.setQueue pg q').hwSet pg EVT_STAT_OVERFLOW).hwSet pg EVT_STAT_ESCALATED
    let s3 := (s2.hwSet pg (sevField top)).wr pg PAGE_STAT_LEVEL (max (s1.rd pg PAGE_STAT_LEVEL) top)
    (s3.deliver pg).act pg top false

/-- The page raises an event of its kind's own severity. -/
def State.raise (s : State) (pg : Nat) (k : EvKind) (info : Bytes) : State :=
  s.raiseAt pg k.code k.sev k.named info

/-! ### Schedule slip (R77, R78) -/

/-- The epoch whose slot 4095 decides a hold that acts now (R72). -/
def State.holdEpoch (s : State) : Nat := if s.slot = 4095 then s.epoch + 1 else s.epoch

/-- A running partition goes to HOLDING for the next decision; other states are unchanged. -/
def State.holdRunning (s : State) (p : Nat) : State :=
  s.modPart p fun q =>
    match q.run with
    | .running => { q with run := .holding, holdE := some s.holdEpoch }
    | _ => q

/-- A unit could not start a scheduled event in its stamped cycle (R77): the SCHED_SLIP event,
HT_PSLIP of the partition, and HOLDING. -/
def State.slip (s : State) (pg p rel slot cyc late : Nat) : State :=
  let s1 := s.raise pg ev_SCHED_SLIP
    (le 4 rel ++ le 2 slot ++ le 1 cyc ++ le 1 p ++ le 4 (min late (2 ^ 32 - 1)))
  (s1.bump pgHt HT_PSLIP_COUNT 1 p).holdRunning p

end Sys2Proof.Machine
end

