-- ==== Sys2Proof/Machine/Mem.lean ====
section
/-!
DEFINITION. Machine/Mem.lean: local memory by bytes (R400), its canonical form, its undefined ranges
and its poison by 64-byte sectors.

An unlisted byte outside every undefined range reads 0 (log entry 3). A byte of an undefined range
that nothing has written since reads a free value.
-/

namespace Sys2Proof.Machine

open Sys2Proof

/-- What address `a` reads as where memory does not list it: by the newest range that holds it, a
free value (`none`) or zero; zero outside every range. -/
def backOf : List (Nat × Nat × Option Nat) → Nat → Option Byte
  | [], _ => some 0
  | (b, n, t) :: rs, a =>
    if b ≤ a ∧ a < b + n then (match t with | some _ => none | none => some 0) else backOf rs a

/-- The free byte an undefined address reads as. -/
def undefByte : List (Nat × Nat × Option Nat) → Nat → Byte
  | [], _ => 0
  | (b, n, t) :: rs, a =>
    if b ≤ a ∧ a < b + n then (match t with | some k => Config.freeByte k (a - b) | none => 0)
    else undefByte rs a

/-- The byte at address `a`, where memory lists it. -/
def cellAt (m : List (Nat × Byte)) (a : Nat) : Option Byte :=
  match m with
  | [] => none
  | (k, v) :: m => if a = k then some v else cellAt m a

/-- The byte at local address `a`. -/
def State.getB (s : State) (a : Nat) : Byte :=
  match cellAt s.mem a with
  | some v => v
  | none => undefByte s.undef a

/-- The state with byte `a` holding `v`: listed unless an unlisted `a` reads as `v`. -/
def State.setB (s : State) (a : Nat) (v : Byte) : State :=
  { s with mem := if backOf s.undef a = some v then adel a s.mem else ains a v s.mem }

/-- `n` bytes from address `a`. -/
def State.getBs (s : State) (a n : Nat) : Bytes := (List.range n).map fun i => s.getB (a + i)

/-- The state with `bs` written from address `a`. -/
def State.setBs (s : State) (a : Nat) : Bytes → State
  | [] => s
  | b :: bs => (s.setB a b).setBs (a + 1) bs

/-- The canonical form of memory: addresses strictly rising, and no entry equal to what an unlisted
address reads as. -/
def Memory.wf (s : State) : Bool :=
  asorted s.mem && s.mem.all fun e => decide (backOf s.undef e.1 ≠ some e.2)

/-- The range from `b` of `n` bytes no longer lists any byte, and reads as `t` says. -/
def State.retag (s : State) (b n : Nat) (t : Option Nat) : State :=
  { s with
    mem := s.mem.filter fun e => decide (e.1 < b ∨ b + n ≤ e.1)
    undef := (b, n, t) :: s.undef.filter fun r => decide (¬(b ≤ r.1 ∧ r.1 + r.2.1 ≤ b + n)) }

/-- The contents of a range become undefined: free values (R288, R503). -/
def State.undefine (s : State) (b n : Nat) : State :=
  let s1 := s.retag b n (some s.free)
  { s1 with free := s.free + 1 }

/-! ### Poison -/

/-- The sector of an address. -/
def sectorOf (a : Nat) : Nat := a / 64

/-- The sector that holds `a` is poisoned. -/
def State.poisoned (s : State) (a : Nat) : Bool := decide (aget 0 s.poison (sectorOf a) ≠ 0)

/-- The state with the sector of `a` poisoned, or clean; a rewrite that waited for it is cancelled (Table 8-6). -/
def State.setPoison (s : State) (a : Nat) (b : Bool) : State :=
  { s with poison := aset 0 s.poison (sectorOf a) b.toNat }

/-- The poisoned sector of `a` waits for its rewrite (R306). -/
def State.awaiting (s : State) (a : Nat) : Bool := decide (aget 0 s.poison (sectorOf a) = 2)
def State.awaitRewrite (s : State) (a : Nat) : State := if s.poisoned a then { s with poison := aset 0 s.poison (sectorOf a) 2 } else s

/-- The sectors that `n` bytes from `a` touch, by their first addresses. -/
def sectors (a n : Nat) : List Nat :=
  if n = 0 then [] else (List.range ((a + n - 1) / 64 - a / 64 + 1)).map fun i => (a / 64 + i) * 64

/-- Some sector of `n` bytes from `a` is poisoned. -/
def State.poisonIn (s : State) (a n : Nat) : Bool := (sectors a n).any s.poisoned

/-- Every sector of `n` bytes from `a` poisoned, or clean. -/
def State.markPoison (s : State) (a n : Nat) (b : Bool) : State :=
  (sectors a n).foldl (fun s x => s.setPoison x b) s

/-- Every poison mark in `n` bytes from `a` removed. -/
def State.clearPoison (s : State) (a n : Nat) : State :=
  { s with poison := s.poison.filter fun e => decide (e.1 * 64 < a ∨ a + n ≤ e.1 * 64) }

/-- A store written to zero with good parity and no poison (R659). -/
def State.zeroStore (s : State) (a n : Nat) : State := (s.retag a n none).clearPoison a n

end Sys2Proof.Machine
end

