-- ==== Sys2Proof/Machine/Net.lean ====
section
/-!
DEFINITION. Machine/Net.lean: what the fabric's commands share: loaded programs and stamps (R60, R66,
R153), scheduled cycles (R63, R235), the bulk network's wiring and the word at a port in a cycle (R229 to
R237), sync flags and tokens (R246 to R250), membership and route lookups (R417 to R423).
-/

namespace Sys2Proof.Machine

open Sys2Proof

/-! ### State parts by index -/

def State.port (s : State) (q : Nat) : RPort := aget {} s.runner q
def State.modPort (s : State) (q : Nat) (f : RPort → RPort) : State :=
  { s with runner := aupd {} s.runner q f }
def State.chan (s : State) (c : Nat) : Chan := aget {} s.chans c
def State.modChan (s : State) (c : Nat) (f : Chan → Chan) : State :=
  { s with chans := aupd {} s.chans c f }
def State.sl (s : State) (n : Nat) : SliceUnit := aget {} s.slices n
def State.modSl (s : State) (n : Nat) (f : SliceUnit → SliceUnit) : State :=
  { s with slices := aupd {} s.slices n f }
def State.cx (s : State) (x : Nat) : CxlUnit := aget {} s.cxl x
def State.modCx (s : State) (x : Nat) (f : CxlUnit → CxlUnit) : State :=
  { s with cxl := aupd {} s.cxl x f }
def State.mover (s : State) (m : Nat) : Mover := aget {} s.movers m
def State.modMover (s : State) (m : Nat) (f : Mover → Mover) : State :=
  { s with movers := aupd {} s.movers m f }
def State.modNet (s : State) (f : Net → Net) : State := { s with net := f s.net }
def State.modHall (s : State) (f : Hall → Hall) : State := { s with hall := f s.hall }

/-- This package's number (NW_HPKG). -/
def State.pkg (s : State) : Nat := s.rd pgHall NW_HPKG_PKG

/-! ### Programs (R65, R66) -/

/-- The Pattern in force of partition `p`: what its active slot holds, where that is LOADED. -/
def State.pattern (s : State) (p : Nat) : PSlot := (s.part p).slot (s.part p).active

/-- The program section of a unit: section type, absolute Riser, section UNIT (R66). -/
def State.sect (s : State) (ty riser unit : Nat) : Option Bytes :=
  let p := s.partOfRiser riser
  ((s.pattern p).sections.find? fun e =>
    decide (e.ty = ty ∧ e.riser + p * s.partSize = riser ∧ e.unit = unit)).map Section.body

/-- The partition issues Pattern events: RUNNING or HOLDING (Table 2-7). -/
def State.playing (s : State) (p : Nat) : Bool :=
  (decide ((s.part p).run = .running) || decide ((s.part p).run = .holding)) && !(s.part p).lost

/-- The relative epoch of the current epoch (R60). -/
def State.relEpoch (s : State) (p : Nat) : Nat := ((s.epoch : Int) - (s.part p).base).toNat

/-- The relative epoch within the period, and the period's number (R153). -/
def State.relInPeriod (s : State) (p : Nat) : Nat := s.relEpoch p % max 1 (s.pattern p).period
def State.periodNo (s : State) (p : Nat) : Nat := s.relEpoch p / max 1 (s.pattern p).period

/-- The fields of a stamp at the bottom of an instruction or entry: REPOCH, SLOT, CYC. -/
def stampEpoch (w : Nat) : Nat := w % 2 ^ 20
def stampSlot (w : Nat) : Nat := w / 2 ^ 20 % 2 ^ 12
def stampCyc (w : Nat) : Nat := w / 2 ^ 32 % 2 ^ 8

/-- The absolute core cycle of a slot and cycle of the current epoch. -/
def State.absCycle (s : State) (slot cyc : Nat) : Nat := (s.epoch * 4096 + slot) * s.cps + cyc

/-! ### Scheduled cycles (R61, R63, R235) -/

/-- Epoch, slot within the epoch and cycle of an absolute core cycle. -/
def epochOf (cps c : Nat) : Nat := c / cps / 4096
def slotOf (cps c : Nat) : Nat := c / cps % 4096
def cycOf (cps c : Nat) : Nat := c % cps

/-- The cycle is a scheduled cycle of a link. -/
def scheduled (cps c : Nat) : Bool := decide (slotOf cps c ≤ 4087 ∧ slotOf cps c % 8 ≠ 7)

/-- The number of scheduled cycles of the epoch before cycle `c`. -/
def schedIdx (cps c : Nat) : Nat :=
  let k := min (slotOf cps c) 4088
  if slotOf cps c ≤ 4087 ∧ k % 8 ≠ 7 then (k - k / 8) * cps + cycOf cps c else (k - k / 8) * cps

/-- The absolute cycle with scheduled index `n` in epoch `e`. -/
def schedCycle (cps e n : Nat) : Nat :=
  let q := n / cps
  (e * 4096 + (q + q / 7)) * cps + n % cps

/-- The connection holds in cycle `c`. -/
def Conn.holds (cps : Nat) (k : Conn) (c : Nat) : Bool :=
  scheduled cps c && decide (epochOf cps c = epochOf cps k.start ∧ k.start ≤ c) &&
    decide (schedIdx cps c - schedIdx cps k.start < k.run)

/-! ### The wiring (R229, R230, Tables 7-1 to 7-3, Table 1-1) -/

/-- Grid position (row, column) of a Riser. -/
def riserPos (r : Nat) : Nat × Nat :=
  match r with
  | 0 => (0, 0) | 1 => (0, 1) | 4 => (0, 2) | 5 => (0, 3)
  | 2 => (1, 0) | 3 => (1, 1) | 6 => (1, 2) | _ => (1, 3)

/-- The cluster at which a vertical link lands, and the link of a cluster. -/
def vLanding (v : Nat) : Nat := [0, 1, 3, 4, 5, 6, 8, 9].getD v 0
def vLinkOf (k : Nat) : Option Nat := [some 0, some 1, none, some 2, some 3, some 4, some 5, none, some 6, some 7].getD k none

/-- The Riser of the other column (LC) or other row (LR) of a Riser's half, and across the Parting
Link. -/
def lcPeer (r : Nat) : Nat := if r % 2 = 0 then r + 1 else r - 1
def lrPeer (r : Nat) : Nat := if r % 4 < 2 then r + 2 else r - 2
def plPeer (r : Nat) : Option Nat :=
  match r with
  | 1 => some 4 | 4 => some 1 | 3 => some 6 | 6 => some 3 | _ => none

/-- The Riser of a router. -/
def routerRiser (r : Nat) : Nat := if r < 80 then r / 10 else r - 80

/-- What feeds input port `p` of a router over a link: the far router, its output port, the latency
λ. -/
def feeder (r p : Nat) : Option (Nat × Nat × Nat) :=
  if r < 80 then
    let k := r % 10
    match p with
    | 0 => if 5 ≤ k then some (r - 5, 2, 1) else none
    | 1 => if k % 5 < 4 then some (r + 1, 3, 1) else none
    | 2 => if k < 5 then some (r + 5, 0, 1) else none
    | 3 => if 0 < k % 5 then some (r - 1, 1, 1) else none
    | 4 => (vLinkOf k).map fun v => (80 + r / 10, v, 4)
    | _ => none
  else
    let n := r - 80
    if p < 8 then some (10 * n + vLanding p, 4, 4)
    else if 32 ≤ p ∧ p < 36 then some (80 + lcPeer n, p, 4)
    else if 36 ≤ p ∧ p < 40 then some (80 + lrPeer n, p, 4)
    else if p = 40 ∨ p = 41 then (plPeer n).map fun m => (80 + m, p, 8)
    else none

/-- The links join equal ends: output `o` of a router leads to the port that feeds port `o` of it, with the link's latency. -/
def linkTo (r o : Nat) : Option (Nat × Nat × Nat) := feeder r o

/-- What kind of link an output drives: 0 a mesh link or a unit's own port, 1 a vertical link or a lateral path, 2 the Parting Link. -/
def linkKind (r o : Nat) : Nat :=
  if r < 80 then (if o = 4 then 1 else 0) else if o < 8 ∨ (32 ≤ o ∧ o ≤ 39) then 1 else if o = 40 ∨ o = 41 then 2 else 0

/-- The port exists at the router (Table 7-1). -/
def portOk (r p : Nat) : Bool :=
  if r < 80 then (feeder r p).isSome || decide (8 ≤ p ∧ p ≤ 11)
  else
    (feeder r p).isSome || decide (8 ≤ p ∧ p ≤ 31) || decide (43 ≤ p ∧ p ≤ 45) ||
      (decide (p = 46) && decide (r = 80 ∨ r = 84))

/-! ### The word at a port in a cycle (R236, R237, R390) -/

/-- The word of a missed slot: valid, zero, all sectors poisoned. -/
def missWord : BWord := { data := List.replicate 512 0, poison := 255 }

/-- The connections that take input `p` of router `r`. -/
def Net.takers (n : Net) (r p : Nat) : List Conn := n.conns.filter fun k => decide (k.router = r ∧ k.inp = p)

/-- The bulk-router program section of a router, and its entry `i`. -/
def State.routerSect (s : State) (r : Nat) : Option Bytes :=
  s.sect 3 (routerRiser r) (if r < 80 then r % 10 else 16)

def State.schedEntry (s : State) (r i : Nat) : Option Nat :=
  match s.routerSect r with
  | none => none
  | some b => if i < fieldAt b 0 4 then some (fieldAt b (fieldAt b 4 4 + 16 * i) 16) else none

/-- The connections of a schedule entry (Table 7-4). -/
def entryConns (r start : Nat) (w : Nat) : List Conn :=
  (List.range 5).filterMap fun k =>
    let c := w / 2 ^ (64 + 12 * k) % 2 ^ 12
    if c / 64 = 63 then none else some ⟨r, c % 64, c / 64, start, w / 2 ^ 40 % 2 ^ 16⟩

/-- A connection drives output `o` of router `r` in cycle `c`: one set, or one that the program will have set by then. -/
def State.schedDrives (s : State) (r o c : Nat) : Bool :=
  (s.net.conns.any fun k => decide (k.router = r ∧ k.out = o) && k.holds s.cps c) ||
    match s.routerSect r with
    | none => false
    | some b =>
      let p := s.partOfRiser (routerRiser r)
      let e := epochOf s.cps c
      let rel := ((e : Int) - (s.part p).base).toNat % max 1 (s.pattern p).period
      (List.range (fieldAt b 0 4)).any fun i =>
        let w := fieldAt b (fieldAt b 4 4 + 16 * i) 16
        decide (stampEpoch w = rel) &&
          (entryConns r ((e * 4096 + stampSlot w) * s.cps + stampCyc w) w).any fun k => decide (k.out = o) && k.holds s.cps c

/-- The link's two ends lie in different partitions (R233). -/
def State.crossLink (s : State) (r o : Nat) : Bool :=
  match linkTo r o with
  | some (r2, _, _) => decide (s.partOfRiser (routerRiser r) ≠ s.partOfRiser (routerRiser r2))
  | none => false

/-- Cycle `c` is a packet cycle of the bulk link that output `o` of router `r` drives (R232, R233). -/
def State.packetCycle (s : State) (r o c : Nat) : Bool :=
  !scheduled s.cps c || !s.playing (s.partOfRiser (routerRiser r)) || s.crossLink r o || !s.schedDrives r o c

/-- Some connection takes input `p` of router `r` in cycle `c`. -/
def Net.taken (n : Net) (cps r p c : Nat) : Bool := (n.takers r p).any fun k => k.holds cps c

/-- The first cycle from scheduled index `i` of epoch `e` on in which input `p` of router `r` is
taken: the least over its connections. -/
def Net.nextTake (n : Net) (cps r p e i : Nat) : Option Nat :=
  ((n.takers r p).filterMap fun k =>
    let a := schedIdx cps k.start
    if epochOf cps k.start = e ∧ i < a + k.run then some (max a i) else none).foldl
      (fun m x => some (match m with | none => x | some y => min x y)) none

/-- Which released word a Runner input gives in scheduled index `i`: released words are taken in
order, each in the first connected cycle from its release on (R390). -/
def takeReleased (n : Net) (cps r p e i : Nat) : Nat → List (Nat × BWord) → Option BWord
  | _, [] => none
  | from_, (slot, w) :: ws =>
    let a := max from_ (schedIdx cps (slot * cps))
    match n.nextTake cps r p e a with
    | none => none
    | some t => if t = i then some w else if i < t then none else takeReleased n cps r p e i (t + 1) ws

/-- A word with the poison of the crossing errors recorded for it (R239). -/
def Net.hurtWord (n : Net) (r p c : Nat) (w : BWord) : BWord :=
  let hits := n.hurt.filter fun e => decide (e.1 = r * 64 + p ∧ e.2.1 = c)
  { w with poison := hits.foldl (fun m e => m ||| e.2.2) w.poison }

/-- The router passes words: not bad (R271). -/
def State.routerUp (s : State) (r : Nat) : Bool := decide (s.rd (pgBulk r) NW_BSTAT_MODE ≠ 3)

/-- The router schedules: neither bad nor in neighbour mode, in which it ignores its program (R253). -/
def State.routerRuns (s : State) (r : Nat) : Bool := decide (s.rd (pgBulk r) NW_BSTAT_MODE ≠ 3 ∧ s.rd (pgBulk r) NW_BSTAT_MODE ≠ 0)

/-- The state code of column group `g` of Riser `n` (Table 8-8). -/
def State.groupState (s : State) (n g : Nat) : Nat :=
  (if g < 16 then s.rd (pgColumns n) MC_XG_STATE_UP_STATE else s.rd (pgColumns n) MC_XG_STATE_DN_STATE)
    / 2 ^ (2 * (g % 16)) % 4

/-- The groups of vertical link `v`: two each way (R230); groups 0 to 15 are up, 16 to 31 down. -/
def linkGroups (v : Nat) : List Nat := [2 * v, 2 * v + 1, 16 + 2 * v, 17 + 2 * v]

/-- The groups that carry words into input `p` of router `r` over a vertical link: up to a cluster, or down
to a hub. -/
def inGroups (r p : Nat) : List Nat :=
  if r < 80 then
    if p = 4 then match vLinkOf (r % 10) with | some v => [2 * v, 2 * v + 1] | none => [] else []
  else if p < 8 then [16 + 2 * p, 17 + 2 * p] else []

/-- The Parting Link direction into a hub: 0 Cope to Drag (into Risers 4 to 7), 1 Drag to Cope. -/
def plDir (r : Nat) : Nat := if 84 ≤ r then 0 else 1

/-- The groups of the vertical link into input `p` of router `r`, both ways: a failed one fences the link (R314). -/
def bothGroups (r p : Nat) : List Nat :=
  if r < 80 then
    if p = 4 then match vLinkOf (r % 10) with | some v => linkGroups v | none => [] else []
  else if p < 8 then linkGroups p else []

/-- The link into input `p` of router `r` carries a scheduled word in cycle `c`: none over a link with a failed group or a failed Parting
Link direction, PL1 not at half width, and a vertical link with half-width groups 3 cycles in 4, or 1 in 2 (R313, R314; the idle phase is
free, log entry 35). -/
def State.linkCarries (s : State) (r p c : Nat) : Bool :=
  if 80 ≤ r ∧ (p = 40 ∨ p = 41) then
    let st := s.rd pgParting (if plDir r = 0 then MC_PL_STATE_CD else MC_PL_STATE_DC)
    decide (st ≠ 3) && !(decide (st = 2) && decide (p = 41))
  else
    let gs := (inGroups r p).map fun g => s.groupState (routerRiser r) g
    let half := (gs.filter fun x => decide (x = 2)).length
    !((bothGroups r p).any fun g => decide (s.groupState (routerRiser r) g = 3)) && (decide (half = 0) ||
      (if half = 1 then decide (c % 4 ≠ Config.linkPhase % 4) else decide (c % 2 ≠ Config.linkPhase % 2)))

/-- The mover that a router port serves (Table 7-1). -/
def portMover (r p : Nat) : Option Nat :=
  if r < 80 then (if 8 ≤ p ∧ p ≤ 11 then some r else none)
  else if 8 ≤ p ∧ p ≤ 23 then some (80 + 4 * (r - 80) + (p - 8) / 4) else none

/-- A word set going still leaves: a mover that went out of service meanwhile sends none (R270). -/
def State.leaves (s : State) (d : Driven) : Bool :=
  match (portMover d.router d.port).bind fun m => (s.mover m).cutAt with
  | some t => !decide (d.made ≤ t ∧ t ≤ d.cycle)
  | none => true

/-- The router that feeds input `p` of router `r` is bad (R271). -/
def State.badFeed (s : State) (r p : Nat) : Bool :=
  match feeder r p with
  | some (r2, _, _) => !s.routerUp r2
  | none => false

/-- More links than a word can cross in an epoch: each takes a cycle or more. -/
def maxLinks : Nat := 4096 * 256

/-- The valid word at input port `p` of router `r` in cycle `c`, traced back over at most `fuel`
links; the second part says whether R237 put it in at a router that a bad router feeds (R271). -/
def State.wordIn (s : State) : Nat → Nat → Nat → Nat → Option (BWord × Bool)
  | 0, _, _, _ => none
  | fuel + 1, r, p, c =>
    let got : Option (BWord × Bool) :=
      match s.net.driven.find? fun d => decide (d.router = r ∧ d.port = p ∧ d.cycle = c) && s.leaves d with
      | some d => some (d.word, false)
      | none =>
        if 80 ≤ r ∧ 43 ≤ p ∧ p ≤ 45 then
          (takeReleased s.net s.cps r p (epochOf s.cps c) (schedIdx s.cps c) 0
            (s.port (3 * (r - 80) + (p - 43))).released).map fun w => (w, false)
        else
          match feeder r p with
          | none => none
          | some (r2, o2, lam) =>
            if !s.routerRuns r2 || !s.linkCarries r p c then none
            else match s.net.conns.find? fun k => decide (k.router = r2 ∧ k.out = o2) && k.holds s.cps (c - lam) with
              | none => none
              | some k =>
                match s.wordIn fuel r2 k.inp (c - lam) with
                | some w => some w
                | none => some (missWord, s.badFeed r2 k.inp)
    got.map fun w => (s.net.hurtWord r p c w.1, w.2)

/-- What output `o` of router `r` carries in cycle `c`: nothing where no connection drives it, else
the word of the connected input or the missed word of R237. -/
def State.wordOut (s : State) (r o c : Nat) : Option (BWord × Bool) :=
  match (if s.routerRuns r then s.net.conns.find? fun k => decide (k.router = r ∧ k.out = o) && k.holds s.cps c else none) with
  | none => none
  | some k => some ((s.wordIn maxLinks r k.inp c).getD (missWord, s.badFeed r k.inp))

/-- The slip of the unit with page `pg`, on Riser `n`, for what it missed in cycle `c` (R77). -/
def State.slipAt (s : State) (pg n c : Nat) : State :=
  let p := s.partOfRiser n
  s.slip pg p ((epochOf s.cps c : Int) - (s.part p).base).toNat (slotOf s.cps c) (cycOf s.cps c) 0

/-- What a connection that held in cycle `c` leaves behind: a missed word counts at its router (R237); a word to a mover out of service
is discarded and counts (R270); a word that a degraded link could not carry is a slip (R77). -/
def State.countConn (s : State) (c : Nat) (k : Conn) : State :=
  if !s.routerRuns k.router || !k.holds s.cps c then s
  else
    let w := s.wordIn maxLinks k.router k.inp c
    let s1 := if w.isNone then s.bump (pgBulk k.router) NW_BMISS_COUNT else s
    let s2 := match portMover k.router k.out with
      | some m => if s.out (pgMover m) then s1.bump (pgBulk k.router) NW_BFENCE_COUNT else s1
      | none => s1
    match linkTo k.router k.out with
    | some (r2, p2, lam) => if w.isSome && !s.linkCarries r2 p2 (c + lam) then s2.slipAt (pgBulk k.router) (routerRiser k.router) c else s2
    | none => s2

/-- The links that carried control flits or sync tokens in cycle `c` in packet cycles count a word each (R232, NW_BPKT). -/
def State.countPackets (s : State) (c : Nat) : State :=
  let ls := ((s.net.sent.filter fun e => decide (e.2.1 = c)).map fun e => e.1) ++
    (s.net.tokens.flatMap fun k => (k.hops.filter fun h => decide (h.2 = c)).map fun h => h.1)
  ((ls.filter fun l => decide (linkKind (l / 64) (l % 64) = 1)).dedup).foldl (fun s l => s.bump (pgBulk (l / 64)) NW_BPKT_COUNT) s

/-- Core cycle `c` has passed on the bulk network. -/
def State.countNet (s : State) (c : Nat) : State := (s.net.conns.foldl (fun s k => s.countConn c k) s).countPackets c

/-- A word driven into input port `p` of router `r` at cycle `c`. -/
def State.drive (s : State) (r p c : Nat) (w : BWord) : State :=
  s.modNet fun n => { n with driven := ⟨r, p, c, w, s.cycles⟩ :: n.driven }

/-- The cycles of the current epoch in which output `o` of router `r` is connected, in order, from
scheduled index `i` to below `j`. -/
def Net.outIdx (n : Net) (cps e r o i j : Nat) : List Nat :=
  let runs := n.conns.filter fun k => decide (k.router = r ∧ k.out = o ∧ epochOf cps k.start = e)
  (List.range (j - i)).map (· + i) |>.filter fun x => runs.any fun k =>
    decide (schedIdx cps k.start ≤ x ∧ x < schedIdx cps k.start + k.run)

/-! ### Membership and routes (R417, R418, R422, R423) -/

/-- The entry of a package, and its state code; entry 0xFFFF has no effect (R417). -/
def State.membWord (s : State) (p : Nat) : Nat := aget 0 s.hall.memb p
def State.membState (s : State) (p : Nat) : Nat := if p = 0xFFFF then 0 else s.membWord p % 4

/-- The port is usable by partition `p`: assigned to it, ACTIVE, not FOREIGN (R423, R517). -/
def State.portUsable (s : State) (p q : Nat) : Bool :=
  decide (q < 24) && decide (s.rnOwner q = some p) && decide (s.rd (pgRunner q) RN_PSTAT_STATE = 6) &&
    !bit (s.rd pgMordant MD_FOREIGN_PORTS) q

/-- The Runner port by which a packet for package `P` leaves under partition `p`'s table (R423). -/
def State.routeFor (s : State) (p P : Nat) : Option Nat :=
  let w := aget 0 s.hall.routes (p * 65536 + P)
  [w % 32, w / 2 ^ 5 % 32, w / 2 ^ 10 % 32, w / 2 ^ 15 % 32].find? fun q => s.portUsable p q

/-- A package counted in NW_HROUTE. -/
def State.countRoute (s : State) (P : Nat) : State :=
  (s.bump pgHall NW_HROUTE_COUNT).wr pgHall NW_HROUTE_PKG P

/-- A package counted in NW_HNOMEMB. -/
def State.countNoMemb (s : State) (P : Nat) : State :=
  (s.bump pgHall NW_HNOMEMB_COUNT).wr pgHall NW_HNOMEMB_PKG P

/-! ### Control flits (R241, R242) -/

/-- The flits waiting at a router. -/
def State.flitsAt (s : State) (r : Nat) : List CFlit := aget [] s.net.flits r

/-- Flits that a router's units have still to inject enter its input 63, each while fewer than four of its channel wait there (R242). -/
def State.letIn : Nat → Nat → State → State
  | 0, _, s => s
  | fuel + 1, r, s =>
    match (aget [] s.net.outbox r).find? fun f => decide (((s.flitsAt r).filter fun g => decide (g.inp = 63 ∧ g.vc = f.vc)).length < 4) with
    | none => s
    | some f =>
      State.letIn fuel r (s.modNet fun n =>
        { n with outbox := aupd [] n.outbox r fun l => l.erase f, flits := aupd [] n.flits r fun l => l ++ [{ f with at_ := s.cycles + 1 }] })

/-- A packet's flits are given to router `r` by one of its units. -/
def State.injectFlits (s : State) (r : Nat) (l : List CFlit) : State :=
  State.letIn 8 r (s.modNet fun n => { n with outbox := aupd [] n.outbox r fun x => x ++ l })

/-- Some flit of the request, or of its response, is still on its way. -/
def State.travels (s : State) (id : Nat) (resp : Bool) : Bool :=
  (s.net.flits ++ s.net.outbox).any fun e => e.2.any fun f => decide (f.id = id) && (f.resp == resp)

/-! ### Sync flags and tokens (R246 to R250) -/

/-- The flag of a store: 0 to 79 the clusters', 80 to 87 the slices'. -/
def State.flag (s : State) (store index : Nat) : Nat := aget 0 s.flags (store * 4096 + index)

def State.setFlag (s : State) (store index v : Nat) : State :=
  { s with flags := aset 0 s.flags (store * 4096 + index) (v % 2 ^ 64) }

/-- A store of partition `p` by bits [15:8] of a flag address (Table 7-6). -/
def State.storeOf (s : State) (p h : Nat) : Option Nat :=
  if 1 ≤ h ∧ h ≤ 0x50 then
    if h - 1 < 10 * s.partSize then some (p * s.partSize * 10 + (h - 1)) else none
  else if 0x80 ≤ h ∧ h ≤ 0x87 then
    if h - 0x80 < s.partSize then some (80 + p * s.partSize + (h - 0x80)) else none
  else none

/-- The token is dropped by sync router `r` (R248). -/
def State.dropToken (s : State) (r flag who srcPkg : Nat) : State :=
  ((s.bump (pgSync r) NW_SDROP_COUNT).wr (pgSync r) NW_SDROP_ADDR flag).raise (pgSync r) ev_NW_SYNC_DROP
    (le 2 flag ++ le 2 0 ++ le 4 who ++ le 2 srcPkg)

/-- Router `r` and the store lie on one compute die. -/
def oneDie (r store : Nat) : Bool := decide (r < 80 ∧ store < 80 ∧ r / 10 = store / 10)

/-- The links from cluster `r` to cluster `d` of its die (R250): along the row by E (1) or W (3), then the column by
S (2) or N (0). -/
def tokenLinks (r d : Nat) : List Nat :=
  let x := r % 5
  let y := d % 5
  let row := if x ≤ y then (List.range (y - x)).map fun i => (r + i) * 64 + 1 else (List.range (x - y)).map fun i => (r - i) * 64 + 3
  let at_ := r + y - x
  row ++ (if r / 5 % 2 < d / 5 % 2 then [at_ * 64 + 2] else if d / 5 % 2 < r / 5 % 2 then [at_ * 64] else [])

/-- The link out of port `o` of router `r` is fenced: a column group of it, either way, has failed, or the Parting Link's direction has (R314,
R315). -/
def State.linkFenced (s : State) (r o : Nat) : Bool :=
  match linkTo r o with
  | some (r2, p, _) =>
    if 80 ≤ r2 ∧ (p = 40 ∨ p = 41) then decide (s.rd pgParting (if plDir r2 = 0 then MC_PL_STATE_CD else MC_PL_STATE_DC) = 3)
    else (bothGroups r2 p).any fun g => decide (s.groupState (routerRiser r2) g = 3)
  | none => false

/-- The links out of a router that are not fenced, lowest port first: port, the far router. -/
def State.linksOut (s : State) (r : Nat) : List (Nat × Nat) :=
  (List.range 42).filterMap fun o => if s.linkFenced r o then none else (linkTo r o).map fun e => (o, e.1)

/-- The routers from which router `t` can be reached over at most `n` links without passing one that the tables avoid. -/
def State.routersWithin (s : State) (t : Nat) : Nat → List Nat
  | 0 => [t]
  | n + 1 =>
    let l := s.routersWithin t n
    (l ++ (List.range 88).filter fun r => !s.net.tables.contains r && (s.linksOut r).any fun e => l.contains e.2).dedup

/-- The port by which the shortest way from router `r` to router `t` round them leaves, the lowest of equals. -/
def State.portToward (s : State) (r t : Nat) : Option Nat :=
  (List.range 24).findSome? fun n => let l := s.routersWithin t n; ((s.linksOut r).find? fun e => l.contains e.2).map fun e => e.1

/-- The links of that way. -/
def State.wayLinks (s : State) (t : Nat) : Nat → Nat → List Nat
  | 0, _ => []
  | fuel + 1, r =>
    if r = t then []
    else match s.portToward r t with
      | some o => (r * 64 + o) :: s.wayLinks t fuel (((linkTo r o).map fun e => e.1).getD t)
      | none => []

/-- The links a token takes from router `r` to `store`: on one die by R250's order; else, and round a router that the tables avoid, the
shortest way (log entry 130). -/
def State.tokenPath (s : State) (r store : Nat) : List Nat :=
  let l := tokenLinks r store
  if r = store then []
  else if oneDie r store && l.all fun k => !s.net.tables.contains (k / 64) && ((linkTo (k / 64) (k % 64)).all fun e => !s.net.tables.contains e.1) then l
  else s.wayLinks store 24 r

/-- Tokens of `l` that cross `link` in cycle `t`. -/
def crossing (l : List Flying) (link t : Nat) : Nat := (l.filter fun k => k.hops.contains (link, t)).length

/-- The link whose flits and tokens output `o` shares: the two ports of a Parting Link crossing share one sideband (Table 7-3). -/
def flitLink (r o : Nat) : Nat := r * 64 + (if o = 41 then 40 else o)

/-- Tokens of `l` on the sideband of a Parting Link crossing in cycle `t`. -/
def sideband (l : List Flying) (r t : Nat) : Nat := crossing l (r * 64 + 40) t + crossing l (r * 64 + 41) t

/-- The link takes one more token in cycle `t`: four a cycle on a die (R251); eight units of four in a packet cycle of a vertical link or
a lateral path (R232); two of the sideband's 32 bytes on the Parting Link, in a cycle in which no half of a flit crosses (Table 7-3). -/
def State.linkOpen (s : State) (l : List Flying) (link t : Nat) : Bool :=
  match linkKind (link / 64) (link % 64) with
  | 0 => decide (crossing l link t < 4)
  | 1 => decide (crossing l link t < 32) && s.packetCycle (link / 64) (link % 64) t
  | _ =>
    let e := aget (0, 0) s.net.sent (flitLink (link / 64) (link % 64))
    decide (sideband l (link / 64) t < 2) && !decide (e.2 ≠ 0 ∧ (e.1 = t ∨ e.1 + 1 = t))

/-- The first cycle from `t` in which it does. -/
def State.linkFree (s : State) (l : List Flying) (link : Nat) : Nat → Nat → Nat
  | 0, t => t
  | n + 1, t => if s.linkOpen l link t then t else s.linkFree l link n (t + 1)

/-- What a link adds to a token's way: two cycles on a die, λ over a crossing (R250). -/
def hopCycles (link : Nat) : Nat :=
  if linkKind (link / 64) (link % 64) = 0 then 2 else ((linkTo (link / 64) (link % 64)).map fun e => e.2.2).getD 0

/-- A token's way over links from cycle `t`: when it crosses them, and the cycle after the last. -/
def State.tokenWay (s : State) (l : List Flying) : List Nat → Nat → List (Nat × Nat) × Nat
  | [], t => ([], t)
  | k :: ks, t =>
    let u := s.linkFree l k (16 * s.cps + l.length) t
    let w := s.tokenWay l ks (u + hopCycles k)
    ((k, u) :: w.1, w.2)

/-- The input port by which a token reaches its store (R248): that of its last link; `own`, where it crosses none: 8 for a unit of the
store's own router, the Runner port's for one from another package (log entry 111). -/
def entryPort (own : Nat) (path : List Nat) : Nat :=
  match path.getLast? with
  | some k => ((linkTo (k / 64) (k % 64)).map fun e => e.2.1).getD own
  | none => own

/-- The token leaves router `r` in cycle `t`, having come in by port `own`, for a store of this package: 3 + 2h cycles on one die, λ of
each crossing besides, more where a link is crowded or waits for a packet cycle (R250, R251). -/
def State.flyToken (s : State) (t own r store index op value : Nat) : State :=
  let path := s.tokenPath r store
  let w := s.tokenWay s.net.tokens path (t + 1)
  s.modNet fun n => { n with tokens := n.tokens ++ [⟨store, index, op, value, w.2 + 2, entryPort own path, w.1⟩] }

/-- Token `a` applies before token `b`: it arrives earlier, or in the same cycle by a lower port (R248). -/
def Flying.before (a b : Flying) : Bool := decide (a.due < b.due ∨ (a.due = b.due ∧ a.port < b.port))

/-- The token that `store` applies next, of those that have arrived by cycle `now`. -/
def Net.nextToken (n : Net) (store now : Nat) : Option Flying :=
  (n.tokens.filter fun t => decide (t.store = store ∧ t.due ≤ now)).foldl (fun m t =>
    match m with
    | none => some t
    | some x => some (if t.before x then t else x)) none

/-- A token put in the sync queue of a port, four to a unit. -/
def addToken (q : List (List Token)) (t : Token) : List (List Token) :=
  match q.reverse with
  | l :: r => if l.length < 4 then (((l ++ [t]) :: r).reverse) else q ++ [[t]]
  | [] => [[t]]

/-- A token leaves for another package under partition `p`'s routes; where no port qualifies it is
discarded and counts in NW_HROUTE. -/
def State.farToken (s : State) (p : Nat) (t : Token) : State :=
  match s.routeFor p t.destPkg with
  | some q => s.modPort q fun u => { u with txSync := addToken u.txSync t }
  | none => s.countRoute t.destPkg

/-- A requester at router `r` of partition `p` sends a token in cycle `t` (R247 to R249). -/
def State.sendToken (s : State) (t r p who flag op value : Nat) : State :=
  let h := flag / 256 % 256
  let i := flag % 256
  if h = 0 then s.flyToken t 8 r r i op value
  else if 0xC0 ≤ h ∧ h ≤ 0xCF then
    let w := h - 0xC0
    let pk := s.rd (pgSync r) NW_SREMOTE_PACKAGE w
    let home := s.rd (pgSync r) NW_SREMOTE_HOME w
    if !s.on (pgSync r) NW_SREMOTE_VALID w then s.dropToken r flag who 0xFFFF
    else if pk = s.pkg then
      match s.storeOf p home with
      | some st => s.flyToken t 8 r st i op value
      | none => s.dropToken r flag who 0xFFFF
    else if s.membState pk ≠ 2 then s.dropToken r flag who 0xFFFF
    else s.farToken p { destPkg := pk, flag := home * 256 + i, op := op, srcPkg := s.pkg, value := value }
  else match s.storeOf p h with
    | some st => s.flyToken t 8 r st i op value
    | none => s.dropToken r flag who 0xFFFF

/-- A token that came in on Runner port `q` (R249, R418). -/
def State.tokenIn (s : State) (q : Nat) (t : Token) : State :=
  let hub := 80 + q / 3
  match s.rnOwner q with
  | none => s.dropToken hub t.flag (pgRunner q) t.srcPkg
  | some p =>
    if t.destPkg = s.pkg ∨ t.destPkg = 0xFFFF then
      match s.storeOf p (t.flag / 256) with
      | some st => s.flyToken s.cycles (43 + q % 3) hub st (t.flag % 256) t.op t.value
      | none => s.dropToken hub t.flag (pgRunner q) t.srcPkg
    else if s.membState t.destPkg ≠ 2 then s.dropToken hub t.flag (pgRunner q) t.srcPkg
    else s.farToken p t

/-- The bytes of a token (R377), and a token from its bytes. -/
def tokenBytes (t : Token) : Bytes :=
  le 2 t.destPkg ++ le 2 t.flag ++ le 1 t.op ++ le 1 0 ++ le 2 t.srcPkg ++ le 8 t.value

def tokenOf (b : Bytes) : Token :=
  { destPkg := fieldAt b 0 2, flag := fieldAt b 2 2, op := fieldAt b 4 1, srcPkg := fieldAt b 6 2,
    value := fieldAt b 8 8 }

/-- An empty token: OP 0xFF. -/
def emptyToken : Bytes := List.replicate 4 0 ++ [0xFF] ++ List.replicate 11 0

/-! ### Commands -/

/-- SYNC_TOKEN_ARRIVAL (R246 to R248): the first token that has arrived at the store is applied. -/
def execSyncTokenArrival (store : Fin 88) (s : State) : Host.Outcome State Fault Refusal :=
  finish [.regs, .flags, .net] s <|
    match s.net.nextToken store s.cycles with
    | none => s
    | some t =>
      let v := if t.op = 0 then t.value else s.flag store t.index + t.value
      (((s.setFlag store t.index v).bump (pgSync store) NW_STOKENS_COUNT)).modNet fun n =>
        { n with tokens := n.tokens.erase t }

/-- SCHEDULE_ENTRY (R235, R236): in its relative epoch the entry sets its connections from its stamp, at a router that schedules: one
in neighbour mode ignores its program (R253). -/
def execScheduleEntry (router : Fin 88) (index : Nat) (s : State) :
    Host.Outcome State Fault Refusal :=
  finish [.regs, .net] s <|
    let p := s.partOfRiser (routerRiser router)
    match s.schedEntry router index with
    | none => s
    | some w =>
      if s.playing p && decide (s.rd (pgBulk router) NW_BSTAT_MODE = 2) && decide (stampEpoch w = s.relInPeriod p) then
        s.modNet fun n => { n with conns := n.conns ++ entryConns router (s.absCycle (stampSlot w) (stampCyc w)) w }
      else s

/-- The routers that the links of router `r` reach (mesh, vertical, lateral; R253). -/
def neighbourRouters (r : Nat) : List Nat :=
  ((List.range 40).filterMap fun p => (feeder r p).map fun f => f.1).dedup

/-- The routers in neighbour mode and good. -/
def State.floods (s : State) (r : Nat) : Bool := decide (s.rd (pgBulk r) NW_BSTAT_MODE = 0)

/-- A chunk reaches router `r` in cycle `c`: the first copy is accepted. -/
def Net.accept (n : Net) (c r chunk : Nat) : Net :=
  if (aget [] n.chunks r).contains chunk then n
  else { n with chunks := aupd [] n.chunks r fun l => chunk :: l
                fresh := aupd [] n.fresh r fun l => (chunk, c) :: l }

/-- NEIGHBOUR_MODE_STEP (R253, R254): a step of 64 cycles on a Riser: every router of it in neighbour mode sends the chunks that came in
before to its good neighbours, and the hub injects the next chunk. -/
def execNeighbourModeStep (riser : Fin 8) (chunk : Nat) (s : State) :
    Host.Outcome State Fault Refusal :=
  finish [.net] s <|
    let c := s.cycles
    if c < aget 0 s.net.stepAt riser then s
    else
      let old := (s.net.fresh.filter fun e => decide (routerRiser e.1 = riser.val)).map fun e => (e.1, e.2.filter fun k => decide (k.2 < c))
      let s1 := s.modNet fun n =>
        { n with stepAt := aset 0 n.stepAt riser (c + 64)
                 fresh := (n.fresh.map fun e => if routerRiser e.1 = riser.val then (e.1, e.2.filter fun k => decide (c ≤ k.2)) else e).filter
                   fun e => !e.2.isEmpty }
      let s2 := old.foldl (fun s e =>
        if s.floods e.1 then
          ((neighbourRouters e.1).filter s.floods).foldl
            (fun s r => e.2.foldl (fun s k => s.modNet fun n => n.accept c r k.1) s) s
        else s) s1
      if s2.floods (80 + riser) then s2.modNet fun n => n.accept c (80 + riser) chunk else s2

end Sys2Proof.Machine
end

