-- ==== Sys2Proof/Machine/Home.lean ====
section
/-!
DEFINITION. Machine/Home.lean: where a hall address lies (R400, R402, R472), the interleaving of DRAM
(R286), local memory with its poison (R240, R305, R315), slice regions (R320, R343) and the statuses of
R405 and R406.
-/

namespace Sys2Proof.Machine

open Sys2Proof

/-! ### Statuses (Table 11-2) -/

def xPOISONED : Nat := 1
def xFENCED : Nat := 2
def xPARTDENIED : Nat := 3
def xREGIONDENIED : Nat := 4
def xMISALIGNED : Nat := 5
def xBADDESC : Nat := 6
def xUNMAPPED : Nat := 7
def xNOMEMBER : Nat := 8
def xROUTELOST : Nat := 9
def xSTOPPED : Nat := 10
def xTIMEOUT : Nat := 11
def xRESETABORT : Nat := 12
def xSEALED : Nat := 13
def xCXLERROR : Nat := 14
def xBADOP : Nat := 15

/-! ### Where an address lies (Table 11-1) -/

/-- The home of a local offset: DRAM of a Riser, a slice and its offset, a cluster memory and its
offset, control space, a CXL port and its offset, or nothing. -/
inductive Home
  | dram (riser : Nat)
  | slice (n off : Nat)
  | cluster (k off : Nat)
  | control (off : Nat)
  | cxl (x off : Nat)
  | none
  deriving DecidableEq, Repr

def sliceBase (n : Nat) : Nat := 0x010000000000 + n * 0x08000000
def clusterBase (k : Nat) : Nat := 0x010100000000 + k * 0x01000000

/-- 1 MiB. -/
def mib : Nat := 0x100000

def homeOf (o : Nat) : Home :=
  if o < 0xA000000000 then .dram (o / 0x1400000000)
  else if 0x010000000000 ≤ o ∧ o < 0x010040000000 then
    let d := o - 0x010000000000
    if d % 0x08000000 < 96 * mib then .slice (d / 0x08000000) (d % 0x08000000) else .none
  else if 0x010100000000 ≤ o ∧ o < 0x010150000000 then
    let d := o - 0x010100000000
    if d % 0x01000000 < 12 * mib then .cluster (d / 0x01000000) (d % 0x01000000) else .none
  else if 0x014000000000 ≤ o ∧ o < 0x014100000000 then .control (o - 0x014000000000)
  else if 0x080000000000 ≤ o ∧ o < 0x0C0000000000 then .cxl 0 (o - 0x080000000000)
  else if 0x0C0000000000 ≤ o ∧ o < 0x100000000000 then .cxl 1 (o - 0x0C0000000000)
  else .none

/-- The package and the local offset a hall address names (R400). -/
def pkgOf (a : Nat) : Nat := a / 2 ^ 48 % 2 ^ 16
def localOf (a : Nat) : Nat := a % 2 ^ 48

/-- The address names this package: by 0xFFFF or by its own number. -/
def State.ownPkg (s : State) (a : Nat) : Bool :=
  decide (pkgOf a = 0xFFFF) || decide (pkgOf a = s.pkg)

/-- The partition that owns a home. An offset of a slice's or cluster's window that holds nothing has no owner: R33 does not say
whether it lies in the port's partition, and an inbound request to it answers PARTITION-DENIED (log entry 116). -/
def State.homePart (s : State) : Home → Option Nat
  | .dram r => some (s.partOfRiser r)
  | .slice n _ => some (s.partOfRiser n)
  | .cluster k _ => some (s.partOfRiser (k / 10))
  | .cxl x _ => s.cxOwner x
  | .control _ => none
  | .none => none

/-! ### CXL decoders (R471, R472) -/

/-- The decoder covers port offset `f`. -/
def Dec.covers (d : Dec) (f : Nat) : Bool :=
  decide (d.base ≤ f / 2 ^ 28 ∧ f / 2 ^ 28 < d.base + d.size)

/-- The committed decoder that maps `f`, a TAGREGION one or not. -/
def State.cxDec (s : State) (x f : Nat) (region : Bool) : Option Dec :=
  ((s.cx x).dec.find? fun e => e.2.covers f && (e.2.tagRegion == region)).map fun e => e.2

/-- The port carries traffic: state up. -/
def State.cxUp (s : State) (x : Nat) : Bool := decide (s.rd (pgCxl x) CX_STATUS_STATE = 3)

/-- The range that holds `f` has TAGS. -/
def State.cxTags (s : State) (x f : Nat) : Bool :=
  match s.cxDec x f false with
  | some d => d.tags
  | none => false

/-! ### DRAM interleaving (R286, R287) -/

def rotl5 (x r : Nat) : Nat := (x <<< (r % 5) ||| x >>> (5 - r % 5)) % 32

/-- The channel of a Riser offset under a seed. -/
def channelOf (o seed : Nat) : Nat :=
  let q (i : Nat) := o / 2 ^ i % 32
  (q 8 ^^^ seed % 32 ^^^ rotl5 (q 13) (seed / 2 ^ 14 % 4) ^^^ rotl5 (q 18) (seed / 2 ^ 5 % 8)
    ^^^ rotl5 (q 23) (seed / 2 ^ 8 % 8) ^^^ rotl5 (o / 2 ^ 28 % 8) (seed / 2 ^ 11 % 8)) % 32

/-- The channel-local address of a Riser offset. -/
def chanLocal (o : Nat) : Nat := (o / 2 ^ 13) * 2 ^ 8 + o % 2 ^ 8

/-- The channel (Riser × 32 + channel) of a DRAM local offset, under the seed in force. -/
def State.chanAt (s : State) (a : Nat) : Nat :=
  let r := a / 0x1400000000
  32 * r + channelOf (a % 0x1400000000) (s.rd (pgChannel (32 * r)) MC_SEED_SEED)

/-- The Riser offset of channel `c` and channel-local address `l`: the inverse of R286. -/
def riserOffset (c l seed : Nat) : Nat :=
  let hi := (l / 2 ^ 8) * 2 ^ 13
  let k := channelOf hi seed
  hi + (k ^^^ c) * 2 ^ 8 + l % 2 ^ 8

/-- A failed channel (R315). -/
def State.chanFailed (s : State) (c : Nat) : Bool := decide (s.rd (pgChannel c) MC_STATUS_STATE = 5)

/-- Address `a` is DRAM on a failed channel. -/
def State.deadAt (s : State) (a : Nat) : Bool :=
  decide (a < 0xA000000000) && s.chanFailed (s.chanAt a)

/-- The channels that `n` bytes of DRAM from `a` lie on. -/
def State.chansOf (s : State) (a n : Nat) : List Nat := ((sectors a n).map s.chanAt).dedup

/-! ### Poison of DRAM (R305) -/

/-- The granules with a poisoned sector in channel `c`: the entries of its poison table. -/
def State.poisonEntries (s : State) (c : Nat) : List Nat :=
  ((s.poison.filter fun e => decide (e.1 * 64 < 0xA000000000) && decide (s.chanAt (e.1 * 64) = c)).map
    fun e => e.1 / 4).dedup

/-- A sector becomes poisoned or clean; a DRAM sector only where its channel's table has room, else
the channel raises MC_POISON_OVF. -/
def State.mark (s : State) (a : Nat) (b : Bool) : State :=
  if !b then s.setPoison a false
  else if a < 0xA000000000 then
    let c := s.chanAt a
    let l := s.poisonEntries c
    if l.contains (a / 256) || decide (l.length < 4096) then s.setPoison a true
    else s.raise (pgChannel c) ev_MC_POISON_OVF (le 4 (chanLocal (a % 0x1400000000) / 256))
  else s.setPoison a true

/-! ### Local memory with poison (R240, R415) -/

/-- Payload chunk `i` (64 bytes) of `n` bytes from `a` holds a poisoned sector, or one of a failed
channel. -/
def State.chunkBad (s : State) (a n i : Nat) : Bool :=
  (sectors (a + 64 * i) (min 64 (n - 64 * i))).any fun x => s.poisoned x || s.deadAt x

/-- A mask with bit `i` set where `f i` holds, `i` below `n`. -/
def maskOf (n : Nat) (f : Nat → Bool) : Nat :=
  (List.range n).foldl (fun m i => if f i then m + 2 ^ i else m) 0

/-- A read of `n` bytes: the data and the poison of each 64-byte payload sector. Bytes on a failed
channel are free values (R315). -/
def State.readMem (s : State) (a n : Nat) : Bytes × Nat :=
  ((List.range n).map fun i => if s.deadAt (a + i) then Config.freeByte s.free i else s.getB (a + i),
    maskOf ((n + 63) / 64) (s.chunkBad a n))

/-- Some chunk of the data that overlaps sector `x` is poisoned. -/
def dataBad (a n poison x : Nat) : Bool :=
  (List.range ((n + 63) / 64)).any fun i =>
    bit poison i && decide (a + 64 * i < x + 64 ∧ x < min (a + 64 * i + 64) (a + n))

/-- A write of bytes with their poison: a whole-sector write copies the poison, a partial one to a
poisoned sector leaves it (R240); writes to a failed channel are discarded (R315). -/
def State.writeMem (s : State) (a : Nat) (d : Bytes) (poison : Nat) : State :=
  let n := d.length
  (sectors a n).foldl (fun s x =>
    if s.deadAt x then s
    else
      let lo := max a x
      let hi := min (a + n) (x + 64)
      let whole := decide (lo = x ∧ hi = x + 64)
      let bad := dataBad a n poison x || (!whole && s.poisoned x)
      (s.setBs lo (slice d (lo - a) (hi - lo))).mark x bad) s

/-! ### Slice regions (R320, R321, R343) -/

/-- Sizes in force of slice `n`, MiB: scratch, atomic, reduction part. -/
def State.scratchMb (s : State) (n : Nat) : Nat := (s.sl n).active % 128
def State.atomMb (s : State) (n : Nat) : Nat := (s.sl n).active / 2 ^ 8 % 128
def State.redMb (s : State) (n : Nat) : Nat := (s.sl n).active / 2 ^ 16 % 128
def State.redFmt (s : State) (n : Nat) : Nat := (s.sl n).active / 2 ^ 24 % 4
def State.clearOnRead (s : State) (n : Nat) : Bool := (s.sl n).active.testBit 26
def State.cacheMb (s : State) (n : Nat) : Nat := 96 - s.scratchMb n - s.atomMb n

/-- The slice offset lies in the cache region, in the atomic region, in its reduction part. -/
def State.inCache (s : State) (n o : Nat) : Bool :=
  decide (s.scratchMb n * mib ≤ o ∧ o < (96 - s.atomMb n) * mib)
def State.inAtomic (s : State) (n o : Nat) : Bool := decide ((96 - s.atomMb n) * mib ≤ o)
def State.inRed (s : State) (n o : Nat) : Bool :=
  decide ((96 - s.atomMb n) * mib ≤ o ∧ o < (96 - s.atomMb n + s.redMb n) * mib)

/-! ### Scalar operations of Table 9-3 -/

/-- Bytes of a type's target (Table 11-5). -/
def tyBytes (ty : Nat) : Nat := if [1, 3, 7].contains ty then 8 else 4

/-- The operation `a` of type `ty` on an old value and an operand. -/
def atomicOp (a ty old v cmp : Nat) : Nat :=
  let w := 8 * tyBytes ty
  let lt := if ty ≤ 1 then decide (toInt w v < toInt w old) else decide (v % 2 ^ w < old % 2 ^ w)
  match a with
  | 0 =>
    if ty = 4 then f32Add old v
    else if ty = 5 then f32Add old (v % 2 ^ 16 * 2 ^ 16)
    else (old + v) % 2 ^ w
  | 1 => if ty = 4 then f32Pick true old v else if lt then v % 2 ^ w else old
  | 2 => if ty = 4 then f32Pick false old v else if !lt then v % 2 ^ w else old
  | 3 => v % 2 ^ w
  | 4 => if old % 2 ^ w = cmp % 2 ^ w then v % 2 ^ w else old
  | 5 => (old &&& v) % 2 ^ w
  | 6 => (old ||| v) % 2 ^ w
  | _ => (old ^^^ v) % 2 ^ w

/-- Element-wise ADD, MIN or MAX over a vector: the new target bytes. BF16 elements widen to FP32. -/
def reduceOp (a ty : Nat) (old data : Bytes) : Bytes :=
  let e := if ty = 5 then 2 else tyBytes ty
  let t := if ty = 5 then 4 else tyBytes ty
  ((List.range (data.length / e)).map fun i =>
    le t (atomicOp a ty (fieldAt old (t * i) t) (fieldAt data (e * i) e) 0)).flatten

/-- The type code of a reduction format (SB_REGIONS.RED_FMT). -/
def redType (f : Nat) : Nat := if f = 2 then 4 else f

/-- A store into the reduction part of slice `n` (R343): the elements it touches, taken at their
natural alignment with absent bytes zero, add to those held. -/
def State.addMem (s : State) (n a : Nat) (d : Bytes) (poison : Nat) : State :=
  let ty := redType (s.redFmt n)
  let w := tyBytes ty
  let lo := a / w * w
  let hi := (a + d.length + w - 1) / w * w
  let pad := List.replicate (a - lo) (0 : Byte) ++ d ++ List.replicate (hi - (a + d.length)) 0
  let new := reduceOp 0 ty (s.getBs lo (hi - lo)) pad
  let s1 := (sectors lo (hi - lo)).foldl (fun s x =>
    s.mark x (s.poisoned x || dataBad a d.length poison x)) (s.setBs lo new)
  s1.bump (pgSlice n) SB_REDWORDS_COUNT ((d.length + 511) / 512)

/-- A store by an engine to local offset `o`: an addition in a reduction part, else a write. -/
def State.storeLocal (s : State) (o : Nat) (d : Bytes) (poison : Nat) : State :=
  match homeOf o with
  | .slice n off => if s.inRed n off then s.addMem n o d poison else s.writeMem o d poison
  | _ => s.writeMem o d poison

/-! ### Service of a target -/

/-- A home lies in the scope of a reset (Table 14-5, R406). -/
def State.inScope (s : State) (r : Reset) : Home → Bool
  | .dram n => decide (3 ≤ r.scope) || (decide (r.scope = 2) && decide (s.partOfRiser n = r.part))
  | .slice n _ => decide (3 ≤ r.scope) || (decide (r.scope = 2) && decide (s.partOfRiser n = r.part))
  | .cluster k _ => decide (3 ≤ r.scope) || (decide (r.scope = 2) && decide (s.partOfRiser (k / 10) = r.part)) ||
      (decide (r.scope = 1) && decide (k = 10 * r.riser + r.cluster))
  | _ => false

/-- A reset has closed its boundary around a home (R544, R406). -/
def State.closed (s : State) (h : Home) : Bool :=
  s.resets.any fun r => decide (r.phase ≠ .requested) && s.inScope r h

/-- The target is fenced or absent (R25, R270, R536), or its partition is lost and the request came from
another package (R602). -/
def State.fencedHome (s : State) (h : Home) (inbound : Bool) : Bool :=
  (match h with
    | .slice n _ => decide (s.service (pgSlice n) = 1 ∨ s.service (pgSlice n) = 2)
    | .cluster k _ => decide (s.service (pgCluster k) = 1 ∨ s.service (pgCluster k) = 2)
    | .dram n => bit (s.rd pgBu BU_REDUCED_RISER_ABSENT) n
    | _ => false) ||
  (inbound && match s.homePart h with
    | some p => (s.part p).lost
    | none => false)

end Sys2Proof.Machine
end

