-- ==== Sys2Proof/Machine/Intake.lean ====
section
/-!
DEFINITION. Machine/Intake.lean: the completion of a command (R451 to R454, R75, R662), its turn in
the intake, and the frames the device has waiting (R448).
-/

namespace Sys2Proof.Machine

open Sys2Proof

/-! ### Status codes (Tables 2-8, 12-5, 13-7, 15-8, 16-13) -/

def stOK : Nat := 0x00
def stBADFORMAT : Nat := 0x01
def stBADSIGNATURE : Nat := 0x02
def stWRONGVARIANT : Nat := 0x03
def stLEVELTOOHIGH : Nat := 0x04
def stWRONGSIZE : Nat := 0x05
def stDESCMISMATCH : Nat := 0x06
def stBUSY : Nat := 0x07
def stNOTLOADED : Nat := 0x08
def stNOTHELD : Nat := 0x09
def stLATE : Nat := 0x0A
def stNOTIME : Nat := 0x0B
def stPINHOLD : Nat := 0x0C
def stINTAKEFULL : Nat := 0x0D
def stUNKNOWN : Nat := 0x0E
def stTOOFAR : Nat := 0x0F
def stPROTECTHOLD : Nat := 0x18

/-- The Sprue engine is lit and supplied: VLAS (R439), REFCLK, VIN and VAUX present (R17). -/
def State.sprueLit (s : State) : Bool := s.sprue.vlas && s.pins.refclk && s.pins.vin && s.pins.vaux

/-- The page whose block owns a command (R662). -/
def cmdPage (op : Nat) : Nat :=
  if op ≤ 0x0004 then pgHt
  else if op ≤ 0x0011 then pgHall
  else if 0x0100 ≤ op ∧ op ≤ 0x01FF then pgMordant
  else if 0x0200 ≤ op ∧ op ≤ 0x03FF then pgBu
  else pgHk

/-- An RSP or register response joins the transmit queue; beyond 256 frames it is dropped (R448). -/
def State.sendTx (s : State) (f : TxFrame) : State :=
  if s.sprue.tx.length < 256 then { s with sprue := { s.sprue with tx := s.sprue.tx ++ [f] } }
  else s.bump pgSprue SP_TXQ_DROPPED

/-- The INFO of CMD_REFUSED (Table 12-15). -/
def refusedInfo (op : Nat) (c : Cmd) (status : Nat) : Bytes :=
  le 4 c.id ++ le 2 op ++ le 1 status ++ le 1 c.part ++ le 8 c.start

/-- A CMD_ID memory with the RSP of a command once it has completed (R454): the last 1,024 are kept. -/
def remember (m : List (Nat × Option TxFrame)) (id : Nat) (r : Option TxFrame) : List (Nat × Option TxFrame) :=
  if m.any fun e => decide (e.1 = id) then m.map fun e => if e.1 = id then (id, r) else e
  else ((id, r) :: m).take 1024

/-- The command leaves the intake; its RSP, if it completes, is kept, else the time at which it acted. -/
def State.closeCmd (s : State) (id : Nat) (r : Option TxFrame) : State :=
  { s with sprue := { s.sprue with
      intake := s.sprue.intake.filter fun q => decide (q.cmd.id ≠ id)
      memory := remember s.sprue.memory id r
      acted := if r.isSome then adel id s.sprue.acted else ains id s.time.ticks s.sprue.acted } }

/-- A command that came by relay is also answered by a one-flit Indigo response on the port it came by
(R433). -/
def State.relayAnswer (s : State) (id status : Nat) : State :=
  match s.hall.relayIn.find? fun e => decide (e.1 = id) with
  | none => s
  | some (_, q, p) =>
    let a : Packet := { dest := p.srcPkg * 2 ^ 48, src := p.src, op := p.op, ctrl := 0x80 + 8, status := status, tag := p.tag,
                        srcPkg := s.rd pgHall NW_HPKG_PKG, body := List.replicate 32 0 }
    { s with hall := { s.hall with relayIn := s.hall.relayIn.filter fun e => decide (e.1 ≠ id) }
             runner := aupd {} s.runner q fun u => { u with txIndigo := u.txIndigo ++ [{ pkt := a }] } }

/-- The command completes: its RSP is sent, and a refusal raises CMD_REFUSED on the page that owns
the command (R75, R453, R454, R662). ACTED is the present, or the time `acted` (R451). -/
def State.complete (s : State) (op : Nat) (c : Cmd) (status : Nat) (data : Bytes := []) (acted : Option Nat := none) : State :=
  let r := TxFrame.rsp c.id op status (acted.getD s.time.ticks) c.part data
  let s1 := ((s.closeCmd c.id (some r)).sendTx r).relayAnswer c.id status
  if status = 0 then s1 else s1.raise (cmdPage op) ev_CMD_REFUSED (refusedInfo op c status)

/-- The Hall Time at which a command that has not completed acted. -/
def State.actedAt (s : State) (id : Nat) : Option Nat := (s.sprue.acted.find? fun e => decide (e.1 = id)).map fun e => e.2

/-- A command that acted in an earlier slot completes OK: ACTED is the time at which it acted (R451). -/
def State.completeLate (s : State) (op : Nat) (c : Cmd) (data : Bytes := []) : State := s.complete op c 0 data (s.actedAt c.id)

/-- The command has its turn: where it waits in the intake, it is at the head and the current slot
begins at or after its START (R453). -/
def State.turn (s : State) (c : Cmd) : Bool :=
  match s.sprue.intake.find? fun q => decide (q.cmd.id = c.id) with
  | none => true
  | some q =>
    decide (q.due ≤ s.slotStart 0) &&
      decide ((s.sprue.intake.head?.map fun q => q.cmd.id) = some c.id)

/-- PART is valid for an opcode (R452, R456, Tables 13-6, 15-7, 16-12): 0xFF for a device-wide
command, else a partition below the count in force; HOLD, ATTEST and GET_DESCRIPTION take either, and
RESET takes a partition for PARTITION scope only. -/
def State.partOk (s : State) (op : Nat) (c : Cmd) : Bool :=
  let one := decide (c.part < s.partCount)
  let dev := decide (c.part = 0xFF)
  if [0x0003, 0x0109, 0x0310].contains op then one || dev
  else if op = 0x0300 then (if fieldAt c.args 0 1 = 2 then one else dev)
  else if [0x0001, 0x0002, 0x0004, 0x010A, 0x0110, 0x0111, 0x0120, 0x0121, 0x0122, 0x0123, 0x0124].contains op
  then one
  else dev

/-- The turn of STOP and RELAY, which are taken ahead of the intake's order (R433). -/
def State.turnFirst (s : State) (c : Cmd) : Bool :=
  match s.sprue.intake.find? fun q => decide (q.cmd.id = c.id) with
  | none => true
  | some q => decide (q.due ≤ s.slotStart 0)

/-- A command acts: not before it is `ready`; refused with the first status its check gives; else `eff`
gives its effect, and the RSP leaves with the DATA `data`. -/
def State.actIf (s : State) (ready : Bool) (op : Nat) (c : Cmd) (check : Nat) (eff : State → State)
    (data : Bytes := []) : State :=
  if !ready then s
  else if !s.partOk op c then s.complete op c stBADFORMAT
  else if check ≠ 0 then s.complete op c check
  else (eff s).complete op c 0 data

/-- A command acts in its turn. -/
def State.act1 (s : State) (op : Nat) (c : Cmd) (check : Nat) (eff : State → State)
    (data : Bytes := []) : State :=
  s.actIf (s.turn c) op c check eff data

/-- The first non-zero status of a list of checks. -/
def firstStatus : List (Bool × Nat) → Nat
  | [] => 0
  | (bad, st) :: r => if bad then st else firstStatus r

end Sys2Proof.Machine
end

