-- ==== Sys2Proof/Machine/HallTime.lean ====
section
/-!
DEFINITION. Machine/HallTime.lean: the time unit (02_hall_time.md): exchanges, lock states, holdover
and loss.
-/

namespace Sys2Proof.Machine

open Sys2Proof

/-- The state with the time unit changed by `f`. -/
def State.modTime (s : State) (f : TimeUnit → TimeUnit) : State := { s with time := f s.time }

/-- Milliseconds in HOLDOVER or LOST (HT_STATE.HOLD_MS, saturating). -/
def State.holdMs (s : State) : Nat :=
  match s.time.state with
  | .holdover | .lost => min ((s.real - s.time.holdAt) / msTicks) 65535
  | _ => 0

/-- Partition `p` when the time unit enters LOST: a RUNNING one holds at the next boundary, one that was to hold at a later
boundary holds there too, an ARMED one is undone there (R56, Table 2-9). -/
def State.lostPart (s : State) (p : Nat) : State :=
  s.modPart p fun q =>
    match q.run with
    | .running | .holding => { q with run := .holding, holdE := some s.epoch }
    | .armed => { q with holdE := some s.epoch }
    | _ => q

/-- The unit enters LOST (R56): TIME_LOST, and every ARMED or RUNNING partition holds at the next
epoch boundary. -/
def State.toLost (s : State) (cause : Nat) : State :=
  let s1 := s.raise pgHt ev_TIME_LOST (le 1 cause ++ le 3 0 ++ le 4 s.holdMs)
  let s2 := s1.modTime fun u =>
    { u with state := .lost, holdAt := if u.state = .holdover ∨ u.state = .lost then u.holdAt else s.real, aligned := 0 }
  s2.partList.foldl State.lostPart s2

/-- The unit enters LOCKED; the page's event level returns to none (R603). -/
def State.toLocked (s : State) : State :=
  (s.modTime fun u => { u with state := .locked, slewing := false, stepFromLost := false }).wr pgHt
    PAGE_STAT_LEVEL (if s.rd pgHt PAGE_STAT_LEVEL = 3 then 3 else 0)

/-- The device's own stamp at tick `t` and a fraction (R44). -/
def stampOf (t frac : Nat) : Nat := t * 65536 + frac

/-- Stamp units to ps, rounded down: one unit is 800 / 65,536 ps. -/
def unitsPs (u : Int) : Int := u * 25 / 2048

/-- The delay and offset of a complete exchange, ps (R45). -/
def exchangeOf (x : Exchange) (t4 : Nat) (asym : Int) : Int × Int :=
  let d2 : Int := ((t4 : Int) - x.t1) - ((x.t3 : Int) - x.t2)
  let delay := d2 * 25 / 4096
  (delay, unitsPs ((x.t2 : Int) - x.t1) - delay - asym)

/-- Offset within ±`l` ps. -/
def within (o l : Int) : Bool := decide (-l ≤ o ∧ o ≤ l)

/-! ### Time marks (R54, R57, R392) -/

/-- Ports whose latest mark counts: at most 2,048 ticks old, link ACTIVE, sender LOCKED. -/
def State.neighbours (s : State) : List (Nat × Mark) :=
  s.time.marks.filter fun e =>
    decide (s.real - e.2.at_ ≤ 2048) && e.2.locked && decide (s.rd (pgRunner e.1) RN_PSTAT_STATE = 6)

/-- The limit of R54 in HOLDOVER, by whole milliseconds (DESIGN CHOICE, log entry 167), and of R57 otherwise, ps. -/
def State.markLimit (s : State) : Int :=
  match s.time.state with
  | .holdover => 1000 + 20 * (s.holdMs : Int)
  | _ => 1000

/-- Neighbours beyond the limit. -/
def State.diverged (s : State) : List (Nat × Mark) :=
  s.neighbours.filter fun e => !within e.2.offset s.markLimit

/-- Fewer than three neighbours lie more than 1 ns off: the condition of R57 has ceased. -/
def State.xchkOver (s : State) : Bool := decide ((s.neighbours.filter fun e => !within e.2.offset 1000).length < 3)

/-- The largest divergence, ps. -/
def worstMark (l : List (Nat × Mark)) : Nat := l.foldl (fun m e => max m e.2.offset.natAbs) 0

/-- The cross-checks of R54 and R57 on the marks that count now: made as a mark arrives, on entering HOLDOVER, and every tick,
in which marks grow old and links change. -/
def State.crossCheck (s : State) : State :=
  let d := s.diverged
  let s1 := if s.time.xchkHeld && s.xchkOver then s.modTime fun u => { u with xchkHeld := false } else s
  match s.time.state with
  | .holdover => if 2 ≤ d.length then s1.toLost 1 else s1
  | .locked =>
    if 3 ≤ d.length ∧ s1.time.xchkHeld = false then
      (s1.raise pgHt ev_TIME_XCHK (le 1 d.length ++ le 3 0 ++ le 4 (worstMark d))).modTime fun u => { u with xchkHeld := true }
    else s1
  | _ => s1

/-- The unit enters HOLDOVER (R49, R52): LOST at once where the marks held already differ by too much (R54). -/
def State.toHoldover (s : State) : State :=
  (s.modTime fun u => { u with state := .holdover, holdAt := s.real, aligned := 0, slewing := false }).crossCheck

/-! ### Exchanges (R48 to R55) -/

/-- The good and outlier counts of HT_STATE. Which exchange is good is the model's choice (DESIGN CHOICE, log entry 28). -/
def State.countGood (s : State) (good : Bool) : State :=
  if good then (s.bump pgHt HT_STATE_GOOD).wr pgHt HT_STATE_OUTLIERS 0
  else (s.wr pgHt HT_STATE_GOOD 0)

/-- An offset that is used: the counter is to be slewed by its opposite (R48). -/
def State.follow (s : State) (o : Int) : State := s.modTime fun u => { u with owe := -(1000 * o) }

/-- The frequency filter takes an exchange in (Table 2-2): how it does is not stated, and the frequency it holds after is a
free value (log entry 113). -/
def State.filterFreq (s : State) : State := { s with free := s.free + 1, time := { s.time with freq := Config.freeFreq s.free } }

/-- An exchange while LOCKED (R48, R49). -/
def State.xchLocked (s : State) (o : Int) : State :=
  if within o 1000 then
    (((s.countGood true).follow o).filterFreq).modTime fun u => { u with lastGood := o }
  else
    let s1 := (s.countGood false).bump pgHt HT_STATE_OUTLIERS
    let n := s1.rd pgHt HT_STATE_OUTLIERS
    if 8 ≤ n then
      (s1.raise pgHt ev_TIME_SUSPECT (le 4 (ofInt 32 o) ++ le 1 n)).toHoldover
    else s1

/-- An exchange while aligning in ACQUIRE or slewing in HOLDOVER: LOCKED at the 16th consecutive one
within ±40 ps (Table 2-2, R55). -/
def State.xchAlign (s : State) (o : Int) : State :=
  let good := within o 40
  let s1 := s.countGood good
  let n := if good then s1.time.aligned + 1 else 0
  let s2 := s1.modTime fun u => { u with aligned := n, lastGood := if good then o else u.lastGood }
  if 16 ≤ n then s2.toLocked else s2

/-- The correction in whole ticks that brings the counter to the master value. -/
def stepTicks (o : Int) : Int := -((o + 400) / 800)

/-- What a complete exchange of offset `o` does in each time state (Table 2-2). -/
def State.exchange (s : State) (delay o : Int) : State :=
  let s1 := (s.wr pgHt HT_OFFSET_PS (ofInt 32 o)).wr pgHt HT_DELAY_PS (ofInt 32 delay)
  match s.time.state with
  | .free =>
    (s1.countGood (within o 40)).modTime fun u => { u with state := .acquire, stepDue := true, step := some (stepTicks o), aligned := 0 }
  | .acquire =>
    if s.time.stepDue then (s1.countGood (within o 40)).modTime fun u => { u with step := some (stepTicks o) } else s1.filterFreq.xchAlign o
  | .locked => s1.xchLocked o
  | .holdover =>
    if within o 10000 then ((s1.follow o).modTime fun u => { u with slewing := true }).xchAlign o
    else (s1.countGood false).toLost 2
  | .lost => s1

/-- A TIME frame received in LOST moves the unit to ACQUIRE, whose step waits until no partition is
ARMED, RUNNING or HOLDING (Table 2-2, R51). -/
def State.timeInLost (s : State) : State :=
  match s.time.state with
  | .lost => s.modTime fun u =>
      { u with state := .acquire, stepDue := true, step := none, stepFromLost := true, aligned := 0 }
  | _ => s

/-- An accepted TIME frame (R450, R45, R52): T2 is stamped, an exchange whose reply's XNUM is one
less completes, and the reply leaves with T2, T3, XNUM and the time state. -/
def State.timeFrame (s : State) (f : Frame) (frac gap : Nat) : State :=
  let t2 := stampOf s.time.ticks frac
  let t1 := fieldAt f.body 0x00 10
  let t4 := fieldAt f.body 0x0A 10
  let xn := fieldAt f.body 0x14 4
  let s0 := (s.modTime fun u => { u with validAt := u.slots }).timeInLost
  let s1 :=
    match s.time.xchg with
    | some x =>
      if (x.xnum + 1) % 2 ^ 32 = xn then
        let e := exchangeOf x t4 (toInt 32 (s.rd pgHt HT_ASYM_PS))
        s0.exchange e.1 e.2
      else s0
    | none => s0
  let t3 := t2 + gap
  let s2 := s1.modTime fun u => { u with xchg := some ⟨xn, t1, t2, t3⟩ }
  { s2 with sprue := { s2.sprue with tx := .time xn t2 t3 s2.time.state.code :: s2.sprue.tx } }

/-! ### Time-driven happenings -/

/-- TIME_HOLDOVER (R52): no valid TIME frame for 4,096 slots in LOCKED. -/
def execTimeHoldover (s : State) : Host.Outcome State Fault Refusal :=
  finish (evented ++ [.time]) s <|
    if s.time.state = .locked ∧ 4096 ≤ s.time.slots - s.time.validAt then
      (s.raise pgHt ev_TIME_HOLDOVER (le 4 (ofInt 32 s.time.lastGood))).toHoldover
    else s

/-- HOLDOVER_EXPIRY (R53): two seconds in HOLDOVER. -/
def execHoldoverExpiry (s : State) : Host.Outcome State Fault Refusal :=
  finish (evented ++ [.time]) s <|
    if s.time.state = .holdover ∧ 2000 * msTicks ≤ s.real - s.time.holdAt then s.toLost 0 else s

end Sys2Proof.Machine
end

