-- ==== Sys2Proof/Machine/Pattern.lean ====
section
/-!
DEFINITION. Machine/Pattern.lean: POUR, HOLD, RELEASE and the start of LOAD_PATTERN (R68 to R76).
-/

namespace Sys2Proof.Machine

open Sys2Proof

def stAUTHFAIL : Nat := 0x10
def stWRONGSTATE : Nat := 0x11
def stNOSESSION : Nat := 0x12
def stNOENTROPY : Nat := 0x13
def stROLLBACK : Nat := 0x14
def stINCOMPATIBLE : Nat := 0x15
def stNOTSTAGED : Nat := 0x16
def stCOMMITABORTED : Nat := 0x17

/-- The bit of BU_PINS.UNSTABLE of a pin. -/
def pinIdx : Pin → Nat
  | .resetN => 0 | .pwrGood => 1 | .holdN => 2

/-- The field of BU_PINS with a pin's filtered level. -/
def pinField : Pin → Fld
  | .resetN => BU_PINS_RESET_N | .pwrGood => BU_PINS_PWR_GOOD | .holdN => BU_PINS_HOLD_N

/-- The level a pin acts with: its filtered level, or low, its safe state, while it is unstable
(R649). -/
def State.pinHigh (s : State) (p : Pin) : Bool :=
  s.on pgBu (pinField p) && !bit (s.rd pgBu BU_PINS_UNSTABLE) (pinIdx p)

/-- HOLD_N is asserted (low). -/
def State.holdPin (s : State) : Bool := !s.pinHigh .holdN

/-- Partition `p` is under a protective hold (R582, R592). -/
def State.protectHold (s : State) (p : Nat) : Bool :=
  bit (s.rd pgHk HK_THOLD_RATE) p || bit (s.rd pgHk HK_THOLD_ABS) p || bit (s.rd pgHk HK_THOLD_POWER) p

/-- A reset that covers the whole of partition `p` is draining or running. -/
def State.partInReset (s : State) (p : Nat) : Bool :=
  s.resets.any fun r => decide (r.phase ≠ .requested) && decide (2 ≤ r.scope) &&
    (decide (3 ≤ r.scope) || decide (r.part = p))

/-- A lost partition, or one inside a running reset, takes no Pattern command but HOLD (R602,
Table 14-7). -/
def State.partShut (s : State) (p : Nat) : Bool := (s.part p).lost || s.partInReset p

/-- The lead rule of R71 and R73: `e` is too early a start epoch for a command acting now. -/
def State.tooEarly (s : State) (e : Nat) : Bool :=
  if 4088 ≤ s.slot then decide (e < s.epoch + 2) else decide (e < s.epoch + 1)

/-- The partition's Pattern holds or will hold the machine: ARMED, RUNNING or HOLDING. -/
def Run.live : Run → Bool
  | .armed | .running | .holding => true
  | _ => false

/-! ### POUR -/

/-- The partition's far tier is being re-encrypted (R504). -/
def State.rotating (s : State) (p : Nat) : Bool := (aget {} s.mordant.parts p).rotate.isSome

/-- The checks of POUR in the order of Table 2-8, PROTECT-HOLD last (log entry 12). -/
def State.pourCheck (s : State) (c : Cmd) : Nat :=
  let q := s.part c.part
  firstStatus [
    (s.partShut c.part, stWRONGSTATE),
    (decide (2 ≤ fieldAt c.args 0x00 1), stBADFORMAT),
    (s.rotating c.part, stBUSY),
    (decide ((q.slot (fieldAt c.args 0x00 1)).st ≠ .loaded), stNOTLOADED),
    (q.run.live, stNOTHELD),
    (s.tooEarly (fieldAt c.args 0x08 8), stLATE),
    (decide (s.time.state ≠ .locked), stNOTIME),
    (s.holdPin, stPINHOLD),
    (s.protectHold c.part, stPROTECTHOLD)]

/-- The partition armed with Pattern slot `k` for epoch `e` (R71). -/
def Part.arm (q : Part) (op id k e : Nat) : Part :=
  { q with run := .armed, prev := q.run, active := k, prevActive := q.active, startE := e, armId := id, armOp := op,
           holdE := none }

/-- POUR (R71): the slot is armed for epoch E. -/
def execPour (c : Cmd) (s : State) : Host.Outcome State Fault Refusal :=
  finish answered s <| s.act1 0x0002 c (s.pourCheck c) fun s =>
    s.modPart c.part fun q => q.arm 0x0002 c.id (fieldAt c.args 0x00 1) (fieldAt c.args 0x08 8)

/-! ### HOLD -/

/-- The arming is undone: the partition is as it was before (R72, Table 2-9). R72 says IDLE, or HELD where it was HELD; of one that
was DONE Table 2-9's "prior state" is taken (log entry 114). -/
def Part.unarm (q : Part) : Part := { q with run := q.prev, active := q.prevActive, holdE := none }

/-- What HOLD does to one partition (R72): ARMED returns to the state before, RUNNING goes to
HOLDING for the epoch's decision, every other state is unchanged. -/
def Part.holdAt (q : Part) (e : Nat) : Part :=
  match q.run with
  | .armed => q.unarm
  | .running => { q with run := .holding, holdE := some e }
  | _ => q

/-- HOLD of one partition now. -/
def State.holdPart (s : State) (p : Nat) : State := s.modPart p fun q => q.holdAt s.holdEpoch

/-- BU_PIN_HOLD, once in each epoch in which HOLD_N is asserted, which counts the epoch (R648, Table 18-11). -/
def State.notePinHold (s : State) : State :=
  if s.holdPin && decide (s.pins.heldAt ≠ s.time.epochs + 1) then
    ({ s with pins := { s.pins with heldAt := s.time.epochs + 1 } }.bump pgBu BU_PIN_HOLD_EPOCHS).raise pgBu ev_BU_PIN_HOLD
      (le 4 s.epoch)
  else s

/-- The partitions a HOLD names: one, or all for 0xFF. -/
def State.holdNames (s : State) (c : Cmd) : List Nat := if c.part = 0xFF then s.partList else [c.part]

/-- HOLD (R72). -/
def execHold (c : Cmd) (s : State) : Host.Outcome State Fault Refusal :=
  finish answered s <| s.act1 0x0003 c 0 fun s => (s.holdNames c).foldl State.holdPart s

/-! ### RELEASE -/

/-- The checks of RELEASE. -/
def State.releaseCheck (s : State) (c : Cmd) : Nat :=
  let q := s.part c.part
  firstStatus [
    (s.partShut c.part, stWRONGSTATE),
    (s.rotating c.part, stBUSY),
    (decide (q.run = .held) && (q.gone || decide ((q.slot q.active).st ≠ .loaded)), stNOTLOADED),
    (decide (q.run ≠ .held), stNOTHELD),
    (s.tooEarly (fieldAt c.args 0x08 8), stLATE),
    (decide (s.time.state ≠ .locked), stNOTIME),
    (s.holdPin, stPINHOLD),
    (s.protectHold c.part, stPROTECTHOLD)]

/-- RELEASE (R73): the held partition is armed to go on at epoch E. -/
def execRelease (c : Cmd) (s : State) : Host.Outcome State Fault Refusal :=
  finish answered s <| s.act1 0x0004 c (s.releaseCheck c) fun s =>
    s.modPart c.part fun q => q.arm 0x0004 c.id q.active (fieldAt c.args 0x08 8)

/-! ### LOAD_PATTERN -/

/-- Slot `k` holds the Pattern of an ARMED, RUNNING or HOLDING partition (R70). -/
def Part.inUse (q : Part) (k : Nat) : Bool := q.run.live && decide (q.active = k)

/-- A load into slot `k` is under way. -/
def Part.loadsInto (q : Part) (k : Nat) : Bool := decide ((q.slot k).st = .loading) || (q.over k).isSome

/-- The checks LOAD_PATTERN makes as it acts; the image's own checks follow when it has arrived, and BUSY for a slot in use after
them, in the order of Table 2-8. A slot that is LOADING (log entry 13), a STREAM already bound, and a ninth stream (log entry 115)
are BUSY at once. -/
def State.loadCheck (s : State) (c : Cmd) : Nat :=
  firstStatus [
    (s.partShut c.part, stWRONGSTATE),
    (decide (2 ≤ fieldAt c.args 0x00 1) || decide (2 ≤ fieldAt c.args 0x01 1), stBADFORMAT),
    ((s.part c.part).loadsInto (fieldAt c.args 0x00 1), stBUSY),
    (decide (fieldAt c.args 0x01 1 = 0) &&
      (decide (8 ≤ s.sprue.streams.length) ||
        s.sprue.streams.any fun t => decide (t.num = fieldAt c.args 0x02 2)), stBUSY)]

/-- The slot as LOADING, with what the LOAD_PATTERN named. -/
def loadingSlot (c : Cmd) : PSlot :=
  { st := .loading, loadId := c.id, loadStart := c.start, fromScratch := decide (fieldAt c.args 0x01 1 = 1),
    stream := fieldAt c.args 0x02 2, addr := fieldAt c.args 0x08 8, length := fieldAt c.args 0x10 8 }

/-- The Pattern that slot `k` of a HELD partition held is gone from it: there is none to release. -/
def Part.forget (q : Part) (k : Nat) : Part := { q with gone := q.gone || decide (q.active = k) }

/-- The load begins: the slot is LOADING, or stays as it is where it is in use; a BULK source binds its stream (R70, R462). -/
def State.beginLoad (s : State) (c : Cmd) : State :=
  let k := fieldAt c.args 0x00 1
  let s1 := (s.modPart c.part fun q =>
    if q.inUse k then q.setOver k (some (loadingSlot c)) else (q.setSlot k (loadingSlot c)).forget k).closeCmd c.id none
  if fieldAt c.args 0x01 1 = 0 then
    { s1 with sprue := { s1.sprue with streams := s1.sprue.streams ++
        [{ num := fieldAt c.args 0x02 2, binder := 0, part := c.part, slot := k, at_ := s.real }] } }
  else s1

/-- A load refused as it acts leaves its slot EMPTY (R70), unless the slot is in use or another load is under way in it. -/
def Part.refuseLoad (q : Part) (k : Nat) : Part :=
  if 2 ≤ k ∨ q.inUse k = true ∨ q.loadsInto k = true then q else (q.setSlot k {}).forget k

/-- LOAD_PATTERN (R70): refused at once, or the load begins and its RSP waits for its end (R453). -/
def execLoadPattern (c : Cmd) (s : State) : Host.Outcome State Fault Refusal :=
  finish answered s <|
    if !s.turn c then s
    else if !s.partOk 0x0001 c then s.complete 0x0001 c stBADFORMAT
    else if s.loadCheck c ≠ 0 then
      (s.modPart c.part fun q => q.refuseLoad (fieldAt c.args 0x00 1)).complete 0x0001 c (s.loadCheck c)
    else s.beginLoad c

/-- A load into slot `k` of partition `p` is under way: the slot is LOADING, or was when its partition was lost, or is left as it
is. -/
def State.loadDue (s : State) (p k : Nat) : Bool :=
  let q := (s.part p).slot k
  ((s.part p).over k).isSome || decide (q.st = .loading) || (decide (q.st = .empty) && (q.fromScratch ||
    s.sprue.streams.any fun t => decide (t.binder = 0 ∧ t.part = p ∧ t.slot = k)))

/-- The load into slot `k` of partition `p`. -/
def State.loadOf (s : State) (p k : Nat) : PSlot := ((s.part p).over k).getD ((s.part p).slot k)

/-- The load into slot `k` of partition `p` ends: the slot holds `v`, unless it is left as it is; its stream is unbound. -/
def State.endLoad (s : State) (p k : Nat) (v : Option PSlot) : State :=
  let s1 := s.modPart p fun r => match v with
    | some x => (r.setOver k none).setSlot k x
    | none => r.setOver k none
  { s1 with sprue := { s1.sprue with
    streams := s1.sprue.streams.filter fun t => !(decide (t.binder = 0) && decide (t.part = p) && decide (t.slot = k)) } }

/-- The load into slot `k` of partition `p` ends refused: the slot is EMPTY, or as it was where it is in use, its stream is
unbound and the LOAD_PATTERN completes with `st` (R70, R463). -/
def State.failLoad (s : State) (p k st : Nat) : State :=
  let q := s.loadOf p k
  (s.endLoad p k (if (s.part p).inUse k then none else some {})).complete 0x0001
    { id := q.loadId, part := p, start := q.loadStart, args := [] } st

end Sys2Proof.Machine
end

