-- ==== Sys2Proof/Machine/Ledger.lean ====
section
/-!
DEFINITION. Machine/Ledger.lean: the Ledger's records (R587, R605 to R608) and the commands that read
and acknowledge them (R610).
-/

namespace Sys2Proof.Machine

open Sys2Proof

/-- The state with the Ledger changed by `f`. -/
def State.modLedger (s : State) (f : Ledger → Ledger) : State := { s with ledger := f s.ledger }

/-- The state with housekeeping changed by `f`. -/
def State.modHealth (s : State) (f : Health → Health) : State := { s with health := f s.health }

/-- A Ledger program or erase that failed its verification (R608). -/
def State.writeFail (s : State) (off kind : Nat) : State :=
  (s.raise pgEv ev_LG_WRITE_FAIL (le 4 off ++ le 1 kind)).hwSet pgEv LG_STATUS_WRITE_FAIL

/-! ### Shutdown records -/

/-- The record is valid: MAGIC, FORMAT and CRC (Table 16-4). -/
def shutValid (r : Bytes) : Bool :=
  decide (fieldAt r 0x00 4 = 0x44485356) && decide (fieldAt r 0x04 1 = 1) &&
    decide (fieldAt r 0x38 4 = crc32c (r.take 0x38))

/-- Valid records with ACK 0xFF: pending (R588). -/
def Ledger.pending (l : Ledger) : List (Nat × Bytes) :=
  l.shut.filter fun e => shutValid e.2 && decide (fieldAt e.2 0x3C 1 = 0xFF)

/-- The highest SEQUENCE in the shutdown area. -/
def Ledger.topSeq (l : Ledger) : Nat :=
  (l.shut.filter fun e => shutValid e.2).foldl (fun m e => max m (fieldAt e.2 0x08 8)) 0

/-- The SEQUENCE of the oldest pending record. -/
def Ledger.oldest (l : Ledger) : Nat :=
  match l.pending with
  | [] => 0
  | e :: r => r.foldl (fun m x => min m (fieldAt x.2 0x08 8)) (fieldAt e.2 0x08 8)

/-- Erased shutdown slots, 0 to 256. -/
def Ledger.erased (l : Ledger) : Nat := 256 - l.shut.length

/-- The first erased slot. -/
def Ledger.freeSlot (l : Ledger) : Option Nat :=
  (List.range 256).find? fun i => !(l.shut.any fun e => decide (e.1 = i))

/-- SHUTDOWN_ACK (R588, R610): the pending record's ACK byte is programmed to 0x00; stage 3 begins
once no record is pending. -/
def execShutdownAck (c : Cmd) (s : State) : Host.Outcome State Fault Refusal :=
  let seq := fieldAt c.args 0x00 8
  let hit := s.ledger.pending.filter fun e => decide (fieldAt e.2 0x08 8 = seq)
  finish (answered ++ [.ledger, .boot]) s <| s.act1 0x0400 c
    (firstStatus [
      (s.ledger.pending.isEmpty || s.sprue.key.isNone, stWRONGSTATE),
      (decide (fieldAt c.args 0x08 4 ≠ c.id) || hit.isEmpty, stBADFORMAT)])
    fun s =>
      let s1 := s.modLedger fun l =>
        { l with shut := hit.foldl (fun m e => ains e.1 (e.2.set 0x3C 0) m) l.shut }
      if s1.ledger.pending.isEmpty then
        { (s1.wr pgHk HK_STATUS_ACK_PENDING 0).wr pgHk PAGE_STAT_LEVEL
            (if s.rd pgHk PAGE_STAT_LEVEL = 1 then 0 else s.rd pgHk PAGE_STAT_LEVEL) with
          boot := { s1.boot with halted := false } }
      else s1

/-- SHUTDOWN_READ (R610): the record of a slot; an erased slot reads 0xFF. -/
def execShutdownRead (c : Cmd) (s : State) : Host.Outcome State Fault Refusal :=
  finish answered s <| s.act1 0x0401 c 0 id
    (aget (List.replicate 64 0xFF) s.ledger.shut (fieldAt c.args 0x00 1))

/-! ### Ageing records -/

/-- An ageing record as its 32 bytes (Table 16-9). -/
def Age.bytes (a : Age) : Bytes :=
  let b := le 4 a.seq ++ le 4 a.unit ++ le 4 a.hours ++ le 1 a.kind ++ le 1 a.index ++ le 1 a.phase ++
    le 1 a.volt ++ le 2 a.vset ++ le 2 a.delay ++ le 2 a.slack ++ le 2 a.temp ++ le 4 0
  b ++ le 4 (crc32c b)

/-- The ledger with a record appended under the next SEQ; a full ledger first loses the sector of
128 records that holds its oldest (R606). -/
def Ledger.append (l : Ledger) (a : Age) : Ledger :=
  let l1 := if 393216 ≤ l.ageing.length then { l with ageing := l.ageing.drop 128 } else l
  { l1 with ageing := l1.ageing ++ [{ a with seq := l.ageSeq, hours := l.hours }], ageSeq := l.ageSeq + 1 }

/-- A full training of the unit has ended, successfully where `ok`: its settings are then to be saved (R530). -/
def State.trainedFull (s : State) (unit : Nat) (ok : Bool) : State :=
  if !ok then s else s.modLedger fun l => { l with unsaved := if l.unsaved.contains unit then l.unsaved else l.unsaved ++ [unit] }

/-- The unit's ageing record after a full training (R599). -/
def State.ageTrained (s : State) (a : Age) : State := s.modLedger fun l => l.append a

/-- The unit's worst margin moved by 2 steps or more from its last record: a record, at most one per
unit per operating hour (R599). -/
def State.ageMoved (s : State) (a : Age) : State :=
  let far (x y : Nat) := decide (x + 2 ≤ y ∨ y + 2 ≤ x)
  match s.ledger.ageing.reverse.find? fun b => decide (b.unit = a.unit ∧ b.kind = a.kind ∧ b.index = a.index) with
  | none => s.ageTrained a
  | some b => if (far a.phase b.phase || far a.volt b.volt) && decide (b.hours < s.ledger.hours) then s.ageTrained a else s

/-- AGEING_READ (R610): up to 14 records from a SEQ on. -/
def execAgeingRead (c : Cmd) (s : State) : Host.Outcome State Fault Refusal :=
  let r := (s.ledger.ageing.filter fun a => decide (fieldAt c.args 0x00 4 ≤ a.seq)).take 14
  finish answered s <| s.act1 0x0402 c 0 id
    (le 1 r.length ++ List.replicate 15 0 ++ (r.map Age.bytes).flatten)

/-! ### Field defects -/

/-- A field-defect entry as its 16 bytes (Table 16-10). -/
def Defect.bytes (d : Defect) : Bytes :=
  let b := le 1 d.die ++ le 1 d.kind ++ le 2 d.index ++ le 1 d.cause ++ le 3 0 ++ le 4 d.hours
  b ++ le 4 (crc32c b)

/-- The unit stands in the field-defect list. -/
def Ledger.listed (l : Ledger) (die kind index : Nat) : Bool :=
  l.defects.any fun d => decide (d.die = die ∧ d.kind = kind ∧ d.index = index)

/-! ### The device record (Table 13-3) -/

def State.modMordant (s : State) (f : Mordant → Mordant) : State := { s with mordant := f s.mordant }

/-- Measurement slot MSi. -/
def State.ms (s : State) (i : Nat) : Bytes := aget (List.replicate 32 0) s.mordant.ms i

def State.setMs (s : State) (i : Nat) (v : Bytes) : State :=
  s.modMordant fun m => { m with ms := aset (List.replicate 32 0) m.ms i v }

/-- The device record of MS3 (Table 13-3), in the order the table names its parts (log entry 20). -/
def State.deviceRecord (s : State) : Bytes :=
  le 1 s.fuse.variant ++ le 1 s.fuse.life.code ++ le 1 s.fuse.svn ++ le 1 s.partCount ++
    ((List.range 24).map fun q => le 1 (s.rd pgBu PT_RN_ASSIGN_PART q + 8 * s.rd pgBu PT_RN_ASSIGN_VALID q)).flatten ++
    ((List.range 2).map fun q => le 1 (s.rd pgBu PT_CX_ASSIGN_PART q + 8 * s.rd pgBu PT_CX_ASSIGN_VALID q)).flatten ++
    (s.fuse.bad.map fun b => le 1 b.die ++ le 1 b.kind ++ le 2 b.index).flatten ++
    (s.ledger.defects.map Defect.bytes).flatten

/-- MS3 follows the device record (Table 13-3). -/
def State.refreshMs3 (s : State) : State := s.setMs 3 (sha256 s.deviceRecord)

/-- From stage 11 on MS3 follows a field of the device record that has changed (Table 13-3). -/
def State.noteRecord (s : State) : State := if 12 ≤ s.boot.next then s.refreshMs3 else s

/-- A new field defect (R533, R534): appended, or, with the list full, reported as BU_DEFECT_LIST_FULL. A
unit that failed start-up test (CAUSE 1) raises BU_FIELD_DEFECT; a cluster retired by R597 and a router
declared bad by R271 have events of their own. -/
def State.newDefect (s : State) (die kind index cause : Nat) : State :=
  let d : Defect := { die, kind, index, cause, hours := s.ledger.hours }
  if s.ledger.listed die kind index then s
  else if s.ledger.defects.length < 1024 then
    let s1 := (s.modLedger fun l => { l with defects := l.defects ++ [d] }).noteRecord
    (if cause = 1 then s1.raise pgBu ev_BU_FIELD_DEFECT d.bytes else s1).bump pgBu BU_DEFECTS_NEW
  else (s.raise pgBu ev_BU_DEFECT_LIST_FULL d.bytes).bump pgBu BU_DEFECTS_NEW

/-! ### Operating hours and erases -/

/-- OPERATING_HOUR (R600): after each hour of service the count is written to the Ledger; the margins of 24 hours ago no longer
count (R595). -/
def execOperatingHour (verified : Bool) (s : State) : Host.Outcome State Fault Refusal :=
  finish (evented ++ [.ledger, .health]) s <|
    if s.boot.next = 12 ∧ 3600000 * msTicks ≤ s.real - s.health.hourAt then
      let n := s.ledger.hours + 1
      let s1 := (s.modLedger fun l => { l with hours := n }).modHealth fun h =>
        { h with hourAt := h.hourAt + 3600000 * msTicks, least := h.least.filter fun e => decide (e.1 / 96 ≠ n % 24) }
      if verified then s1 else s1.writeFail 0x1008000 0
    else s

/-- The erasable shutdown sector: the one with the oldest record, if every record of it is
acknowledged (R607). A sector holds 64 slots. -/
def Ledger.eraseSector (l : Ledger) : Option Nat :=
  let valid := l.shut.filter fun e => shutValid e.2
  match valid with
  | [] => (l.shut.head?).map fun e => e.1 / 64
  | e :: r =>
    let old := r.foldl (fun m x => if fieldAt x.2 0x08 8 < fieldAt m.2 0x08 8 then x else m) e
    let sec := old.1 / 64
    if l.pending.any fun x => decide (x.1 / 64 = sec) then none else some sec

/-- LEDGER_ERASE (R607): after stage 11, never within 1 s of the previous erase, and with fewer than
64 erased slots, the oldest fully acknowledged sector is erased; where none can be, SHUT_LOW is set
and LG_SHUT_LOW raised, once. The shutdown path abandons it (R586). -/
def execLedgerErase (verified : Bool) (s : State) : Host.Outcome State Fault Refusal :=
  finish (evented ++ [.ledger, .health]) s <|
    if s.boot.next = 12 ∧ s.ledger.erased < 64 ∧ s.health.shutdown = none then
      match s.ledger.eraseSector with
      | none =>
        if s.on pgEv LG_STATUS_SHUT_LOW then s else (s.wr pgEv LG_STATUS_SHUT_LOW 1).raise pgEv ev_LG_SHUT_LOW (le 2 s.ledger.erased)
      | some sec =>
        if (match s.health.eraseAt with | none => false | some t => decide (s.real - t < 1000 * msTicks)) then s
        else
          let s1 := s.modHealth fun h => { h with eraseAt := some s.real }
          if verified then
            let s2 := s1.modLedger fun l =>
              { l with shut := l.shut.filter fun e => decide (e.1 / 64 ≠ sec)
                       wear := aupd 0 l.wear (0x100E + sec) (· + 1) }
            s2.wr pgEv LG_STATUS_SHUT_LOW (if s2.ledger.erased < 64 then 1 else 0)
          else s1.writeFail (0x100E000 + 4096 * sec) 1
    else s

end Sys2Proof.Machine
end

