-- ==== Sys2Proof/Machine/Health.lean ====
section
/-!
DEFINITION. Machine/Health.lean: the housekeeping round, temperature, supply and power limits,
shutdown, voltage steps and re-planning (16_health.md).
-/

namespace Sys2Proof.Machine

open Sys2Proof

/-! ### Channels (R577, Table 16-1) -/

/-- The class of a temperature channel: 0 compute die, 1 DRAM, 2 base die. -/
def tempClass (c : Nat) : Nat := if c < 80 then 0 else if c < 144 then 1 else 2

/-- The Riser a temperature channel lies on. -/
def chanRiser (c : Nat) : Nat :=
  if c < 80 then c / 10 else if c < 144 then (c - 80) / 8 else (c - 144) / 2

/-- The temperature channels of a Riser. -/
def riserChans (r : Nat) : List Nat :=
  ((List.range 10).map fun k => 10 * r + k) ++ ((List.range 8).map fun g => 80 + 8 * r + g) ++
    [144 + 2 * r, 145 + 2 * r]

/-- The temperature channels of partition `p` whose sensors have not failed. -/
def State.partChans (s : State) (p : Nat) : List Nat :=
  (((s.risersOf p).map riserChans).flatten).filter fun c => !s.health.failed.contains c

/-- The limits of Table 16-2, °C: notice, absolute hold, absolute shutdown. -/
def State.tempLimits (s : State) (c : Nat) : Nat × Nat × Nat :=
  match tempClass c with
  | 0 => (s.rd pgHk HK_NOTICE_COMP, 105, 110)
  | 1 => (s.rd pgHk HK_NOTICE_DRAM, 98, 100)
  | _ => (s.rd pgHk HK_NOTICE_BASE, 105, 110)

/-- The reading of four rounds earlier subtracted from the latest (R579), in 1/64 °C. -/
def State.rise (s : State) (c : Nat) : Option Int :=
  match aget [] s.health.hist c with
  | [v0, _, _, _, v4] => some (v0 - v4)
  | _ => none

/-- A rise over 8.192 ms as a rate above `lim` °C/s: rise / 64 / 0.008192 > lim. -/
def riseAbove (d : Int) (lim : Int) : Bool := decide (lim * 8192 < d * 15625)

/-- A rise as HK_RATE holds it, 1/16 °C/s, rounded down and held within 16 bits. -/
def rateOf (d : Int) : Int := max (-32768) (min 32767 (d * 15625 / 512))

/-- The latest reading of a channel. -/
def State.reading (s : State) (c : Nat) : Int := toInt 16 (s.rd pgHk HK_READ_VALUE c)

/-! ### Protective holds (R582, R592) -/

/-- The HK_THOLD field of a kind of hold: 0 rate, 1 absolute, 2 power. -/
def holdField : Nat → Fld
  | 0 => HK_THOLD_RATE | 1 => HK_THOLD_ABS | _ => HK_THOLD_POWER

/-- A protective hold of a kind on partition `p`: shown, counted, reported, and acting as HOLD; one
already in force is not raised again. -/
def State.protHold (s : State) (p kind chan val : Nat) : State :=
  if bit (s.rd pgHk (holdField kind)) p then s
  else
    let s1 := s.wr pgHk (holdField kind) (setBit (s.rd pgHk (holdField kind)) p true)
    let s2 := (s1.raise pgHk ev_HK_PROT_HOLD (le 1 p ++ le 1 kind ++ le 2 chan ++ le 4 val)).bump
      pgHk HK_EVENTS_HOLD
    s2.holdPart p

/-- The end of a protective hold. -/
def State.protEnd (s : State) (p kind : Nat) : State :=
  (s.wr pgHk (holdField kind) (setBit (s.rd pgHk (holdField kind)) p false)).raise pgHk
    ev_HK_PROT_END (le 1 p ++ le 1 kind)

/-! ### Shutdown (R585 to R587) -/

/-- Partitions RUNNING or HOLDING, one bit each. -/
def State.runMask (s : State) : Nat :=
  s.partList.foldl (fun m p =>
    if (s.part p).run = .running ∨ (s.part p).run = .holding then m + 2 ^ p else m) 0

/-- The shutdown path starts at t0 (Table 16-3): THERM_TRIP_N for a thermal cause, HK_STATUS, the
Lampblack event with its actions. A second cause changes nothing. -/
def State.startShutdown (s : State) (cause chan : Nat) (rd rt : Int) : State :=
  match s.health.shutdown with
  | some _ => s
  | none =>
    let d : Shutdown := { t0 := s.real, cause, channel := chan, reading := rd, rate := rt,
                          stamp := s.time.ticks, running := s.runMask }
    let s1 := s.modHealth fun h => { h with shutdown := some d }
    let s2 := s1.wrs pgHk [(HK_STATUS_SHUTDOWN, 1), (HK_STATUS_CAUSE, cause)]
    let s3 := if cause ≤ 2 then s2.wr pgBu BU_PINS_THERM_TRIP 1 else s2
    s3.raise pgHk ev_HK_SHUTDOWN
      (le 1 cause ++ le 1 0 ++ le 2 chan ++ le 2 (ofInt 16 rd) ++ le 2 (ofInt 16 rt))

/-- The shutdown record (Table 16-4). -/
def State.shutRecord (s : State) (d : Shutdown) : Bytes :=
  let b := le 4 0x44485356 ++ le 1 1 ++ le 1 d.cause ++ le 2 d.channel ++ le 8 (s.ledger.topSeq + 1) ++
    le 8 d.stamp ++ le 4 ((d.t0 - s.health.onAt) / msTicks) ++ le 1 s.time.state.code ++ le 1 d.running ++
    le 2 (ofInt 16 d.reading) ++ le 2 (if d.cause ≤ 2 then ofInt 16 d.rate else 0) ++
    le 2 (s.rd pgHk HK_HOTTEST_CHANNEL) ++ le 2 (s.rd pgHk HK_HOTTEST_TEMP) ++
    le 2 (s.rd pgHk PD_VIN_MV) ++ le 2 (s.rd pgHk PD_VIN_DA) ++ le 2 (s.rd pgHk PD_POWER_MEAN_W) ++
    le 4 s.ledger.hours ++ le 8 0
  b ++ le 4 (crc32c b) ++ [0xFF, 0xFF, 0xFF, 0xFF]

/-- SHUTDOWN_RECORD_WRITE (R586, R587, R608): the record is written to an erased slot; a write that
fails its verification spoils the slot and leaves the record to the next free one. -/
def execShutdownRecordWrite (verified : Bool) (s : State) : Host.Outcome State Fault Refusal :=
  finish (evented ++ [.ledger, .health]) s <|
    match s.health.shutdown, s.ledger.freeSlot with
    | some d, some i =>
      if d.recorded || d.off then s
      else if verified then
        (s.modLedger fun l => { l with shut := ains i (s.shutRecord d) l.shut }).modHealth
          fun h => { h with shutdown := some { d with recorded := true } }
      else
        (s.modLedger fun l => { l with shut := ains i (List.replicate 64 0) l.shut }).writeFail
          (0x100E000 + 64 * i) 0
    | _, _ => s

/-- PWR_OFF_REQ (R586): 250 µs after t0 PWR_OFF_REQ_N is asserted, whether or not the record was
written. -/
def execPwrOffReq (s : State) : Host.Outcome State Fault Refusal :=
  finish [.regs, .health] s <|
    match s.health.shutdown with
    | some d =>
      if 250 * usTicks ≤ s.real - d.t0 ∧ d.off = false then
        (s.wr pgBu BU_PINS_PWR_OFF_REQ 1).modHealth fun h => { h with shutdown := some { d with off := true } }
      else s
    | none => s

/-! ### The refresh band (R300) -/

/-- The band a layer reading selects, in 1/64 °C: above 85 °C 2×, above 95 °C 4×, above 100 °C the shutdown path. -/
def bandFor (v : Int) : Nat := if 6400 < v then 3 else if 6080 < v then 2 else if 5440 < v then 1 else 0

/-- The DRAM layer sensors of a Riser that have not failed. -/
def State.layers (s : State) (r : Nat) : List Nat :=
  ((List.range 8).map fun g => 80 + 8 * r + g).filter fun c => !s.health.failed.contains c

/-- The hottest of them and its reading. -/
def State.hotLayer (s : State) (r : Nat) : Nat × Int :=
  match s.layers r with
  | [] => (80 + 8 * r, 0)
  | c :: l => l.foldl (fun b x => if b.2 < s.reading x then (x, s.reading x) else b) (c, s.reading c)

/-- The Riser's band becomes `b`, with its MC_BAND event. -/
def State.setBand (s : State) (r b : Nat) : State :=
  let h := s.hotLayer r
  (s.modHealth fun u => { u with band := aset 0 u.band r b, cool := aset 0 u.cool r 0 }).raise (pgChannel (32 * r))
    ev_MC_BAND (le 1 b ++ le 1 (h.1 % 8) ++ le 2 (ofInt 16 h.2))

/-- A reading, or a failed sensor (R583: 4×), that selects a higher band. -/
def State.bandRise (s : State) (r : Nat) : State :=
  let up := max (bandFor (s.hotLayer r).2) (if (s.layers r).length < 8 then 2 else 0)
  if aget 0 s.health.band r < up then s.setBand r up else s

/-- A round's end: a band falls one step after two consecutive rounds cool enough; never with a failed sensor. -/
def State.bandFall (s : State) (r : Nat) : State :=
  let b := aget 0 s.health.band r
  let cool := decide ((s.hotLayer r).2 ≤ if b = 1 then 5312 else 5952) && decide ((s.layers r).length = 8) &&
    decide (b = 1 ∨ b = 2)
  let n := if cool then aget 0 s.health.cool r + 1 else 0
  if 2 ≤ n then s.setBand r (b - 1) else s.modHealth fun u => { u with cool := aset 0 u.cool r n }

/-! ### The sample of one channel (R578 to R583) -/

/-- The notice counter after a round: raise on the first, and after every further 1,024 (R581). -/
def noticeNext (n : Nat) (cond : Bool) : Nat × Bool :=
  if !cond then (0, false) else if n = 0 then (1, true) else if n = 1024 then (1, true) else (n + 1, false)

/-- The notice of an absolute limit. -/
def State.tempNotice (s : State) (c : Nat) (v : Int) : State :=
  let lim := (s.tempLimits c).1
  let r := noticeNext (aget 0 s.health.tempSince c) (decide ((lim : Int) * 64 < v))
  let s1 := s.modHealth fun h => { h with tempSince := aset 0 h.tempSince c r.1 }
  if r.2 then (s1.raise pgHk ev_HK_TEMP_NOTICE (le 2 c ++ le 2 (ofInt 16 v) ++ le 2 lim)).bump
    pgHk HK_EVENTS_NOTICE else s1

/-- The notice of a rate limit: two consecutive rounds above 20 °C/s. -/
def State.riseNotice (s : State) (c : Nat) (v d : Int) : State :=
  let n := if riseAbove d 20 then min 2 (aget 0 s.health.rateNotice c + 1) else 0
  let r := noticeNext (aget 0 s.health.riseSince c) (decide (2 ≤ n))
  let s1 := s.modHealth fun h =>
    { h with rateNotice := aset 0 h.rateNotice c n, riseSince := aset 0 h.riseSince c r.1 }
  if r.2 then (s1.raise pgHk ev_HK_RISE_NOTICE
      (le 2 c ++ le 2 (ofInt 16 v) ++ le 2 (ofInt 16 (rateOf d)))).bump pgHk HK_EVENTS_NOTICE
  else s1

/-- The rate hold and rate shutdown of a channel: two consecutive rounds above 50 and 100 °C/s. -/
def State.rateActs (s : State) (c : Nat) (v d : Int) : State :=
  let n := if riseAbove d 50 then min 2 (aget 0 s.health.rateHold c + 1) else 0
  let m := if riseAbove d 100 then min 2 (aget 0 s.health.rateShut c + 1) else 0
  let s1 := s.modHealth fun h =>
    { h with rateHold := aset 0 h.rateHold c n, rateShut := aset 0 h.rateShut c m }
  let s2 := if 2 ≤ n then s1.protHold (s.partOfRiser (chanRiser c)) 0 c (ofInt 32 (rateOf d)) else s1
  if 2 ≤ m then s2.startShutdown 2 c v (rateOf d) else s2

/-- The absolute hold and shutdown of a channel: one reading above the limit. -/
def State.absActs (s : State) (c : Nat) (v d : Int) : State :=
  let (_, hold, shut) := s.tempLimits c
  let s1 := if (hold : Int) * 64 < v then
      s.protHold (s.partOfRiser (chanRiser c)) 1 c (ofInt 32 v) else s
  if (shut : Int) * 64 < v then s1.startShutdown 1 c v (rateOf d) else s1

/-- A temperature sensor fails (R583): the cluster is fenced, the Riser's refresh stays at 4×, or the
other base-die sensor serves alone; when both have failed the owning partition is lost. -/
def State.sensorFail (s : State) (c : Nat) (v : Int) : State :=
  let s0 := s.modHealth fun h => { h with failed := c :: h.failed }
  let s1 := s0.wrs pgHk [(HK_SENSOR_FAIL_COUNT, min 255 s0.health.failed.length), (HK_SENSOR_FAIL_CHANNEL, c)]
  let info := le 2 c ++ le 2 (ofInt 16 v)
  if c < 80 then (s1.raise pgHk ev_HK_SENSOR_FAIL info).fenceUnit (pgCluster c)
  else if c < 144 then (s1.raise pgHk ev_HK_SENSOR_FAIL info).bandRise (chanRiser c)
  else
    let other := if c % 2 = 0 then c + 1 else c - 1
    if s.health.failed.contains other then
      (s1.raiseAt pgHk ev_HK_SENSOR_FAIL.code 2 true info).losePart (s.partOfRiser (chanRiser c))
    else s1.raise pgHk ev_HK_SENSOR_FAIL info

/-- A temperature channel's sample. Limits act from the end of stage 2 (R580). -/
def State.sampleTemp (s : State) (c : Nat) (v : Int) (bad : Bool) : State :=
  if s.health.failed.contains c then s
  else if bad || decide (v < -40 * 64) || decide (150 * 64 < v) then s.sensorFail c v
  else
    let s1 := s.modHealth fun h => { h with hist := aset [] h.hist c ((v :: aget [] h.hist c).take 5) }
    let d := (s1.rise c).getD 0
    let s3 := s1.wr pgHk HK_RATE_RATE (ofInt 16 (rateOf d)) c
    let s2 := if 80 ≤ c ∧ c < 144 then s3.bandRise (chanRiser c) else s3
    if s.boot.next ≤ 2 then s2
    else (((s2.tempNotice c v).riseNotice c v d).absActs c v d).rateActs c v d

/-! ### Supplies, monitors and the end of a round (R585, R592 to R595) -/

/-- VIN voltage and current: a shutdown after two consecutive rounds out of limits (R585). -/
def State.sampleVin (s : State) (c : Nat) (v : Int) : State :=
  if c = 472 then
    let n := if v < 5550 ∨ 6450 < v then min 2 (s.health.vinV + 1) else 0
    let s1 := (s.wr pgHk PD_VIN_MV (ofInt 16 v)).modHealth fun h => { h with vinV := n }
    if 2 ≤ n ∧ 2 < s.boot.next then s1.startShutdown 3 c v 0 else s1
  else
    let n := if 7800 < v then min 2 (s.health.vinI + 1) else 0
    let s1 := (s.wr pgHk PD_VIN_DA (ofInt 16 v)).modHealth fun h => { h with vinI := n }
    if 2 ≤ n ∧ 2 < s.boot.next then s1.startShutdown 4 c v 0 else s1

/-- The registers that follow the other supply and laser channels (Table 16-1). -/
def State.sampleSupply (s : State) (c : Nat) (v : Int) : State :=
  match c with
  | 474 => s.wr pgHk PD_VAUX_MV (ofInt 16 v)
  | 475 => s.wr pgHk PD_VAUX_MA (ofInt 16 v)
  | 476 => s.wr pgHk PD_VLAS_MV (ofInt 16 v)
  | 477 => s.wr pgHk PD_VLAS_MA (ofInt 16 v)
  | 478 => s.wr pgSprue SP_OPT_LASER_T (ofInt 8 (v / 64))
  | _ => s

/-- The hour of the last 24 that a margin of domain `d` is kept under. -/
def State.delayKey (s : State) (d : Nat) : Nat := 96 * (s.ledger.hours % 24) + d

/-- A path-delay margin of domain `d` is measured. -/
def State.noteDelay (s : State) (d n : Nat) : State :=
  s.modHealth fun h => { h with least := ains (s.delayKey d) (min n (aget n h.least (s.delayKey d))) h.least }

/-- The least path-delay margin of domain `d` over the last 24 hours (R595). -/
def State.leastOf (s : State) (d : Nat) : Option Nat := ((s.health.least.filter fun e => decide (e.1 % 96 = d)).map fun e => e.2).min?

/-- A path-delay monitor or slack-detector channel of a voltage domain (R593, R594). -/
def State.sampleDomain (s : State) (c : Nat) (v : Int) : State :=
  let d := (c - 160) % 96
  let n := v.toNat
  if c < 256 then s.noteDelay d n
  else
    let s1 := s.modHealth fun h => { h with slack := aset 0 h.slack d (min 65535 (aget 0 h.slack d + n)) }
    if 64 < n then s1.modHealth fun h =>
      { h with stepDue := aset 0 h.stepDue d (s.time.epochs + 1), stepSlack := aset 0 h.stepSlack d n }
    else s1

/-- VIN power now, W: mV × 0.1 A. -/
def State.vinPower (s : State) : Nat := s.rd pgHk PD_VIN_MV * s.rd pgHk PD_VIN_DA / 10000

/-- The mean of the readings held (R592). -/
def meanOf (l : List Nat) : Nat := if l.isEmpty then 0 else l.foldl (· + ·) 0 / l.length

/-- The variant's package power limit, W (Table 0-1). -/
def State.powerLimit (s : State) : Nat :=
  match s.fuse.variant with
  | 0 => 4200 | 1 => 3500 | _ => 2800

/-- The power limits at the end of a round (R592). -/
def State.powerRound (s : State) : State :=
  let l := (s.vinPower :: s.health.power).take 4
  let m := meanOf l
  let s1 := ((s.modHealth fun h => { h with power := l }).hwPut pgHk PD_POWER_PEAK_W (max m (s.rd pgHk PD_POWER_PEAK_W))).wrs pgHk
    [(PD_POWER_MEAN_W, m)]
  if s.boot.next ≤ 2 then s1
  else
    let lim := s.powerLimit
    let r := noticeNext s.health.overSince (decide (lim < m))
    let s2 := s1.modHealth fun h => { h with overSince := r.1 }
    let s3 := if lim < m then s2.bump pgHk PD_OVER_ROUNDS else s2
    let s4 := if r.2 then s3.raise pgHk ev_PD_OVER_LIMIT (le 2 m ++ le 2 lim) else s3
    let n := if lim * 105 < m * 100 then min 2 (s.health.over105 + 1) else 0
    let s5 := s4.modHealth fun h => { h with over105 := n }
    let s6 := if 2 ≤ n then
        (s.partList.filter fun p => decide ((s.part p).run = .running)).foldl
          (fun s p => s.protHold p 2 0 m) s5 else s5
    let k := if m ≤ lim then s.health.okPower + 1 else 0
    if 8 ≤ k then
      (s.partList.filter fun p => bit (s6.rd pgHk HK_THOLD_POWER) p).foldl (fun s p => s.protEnd p 2)
        (s6.modHealth fun h => { h with okPower := 0 })
    else s6.modHealth fun h => { h with okPower := k }

/-- One partition's rate and absolute holds at the end of a round (R582). -/
def State.holdRound (s : State) (p : Nat) : State :=
  let cs := s.partChans p
  let okR := cs.all fun c => !riseAbove ((s.rise c).getD 0) 20
  let okA := cs.all fun c => decide (s.reading c ≤ ((s.tempLimits c).2.1 - 5 : Int) * 64)
  let nR := if okR then aget 0 s.health.okRate p + 1 else 0
  let nA := if okA then aget 0 s.health.okAbs p + 1 else 0
  let endR := bit (s.rd pgHk HK_THOLD_RATE) p && decide (8 ≤ nR)
  let endA := bit (s.rd pgHk HK_THOLD_ABS) p && decide (8 ≤ nA)
  let heldR := bit (s.rd pgHk HK_THOLD_RATE) p && !endR
  let heldA := bit (s.rd pgHk HK_THOLD_ABS) p && !endA
  let s1 := s.modHealth fun h =>
    { h with okRate := aset 0 h.okRate p (if heldR then nR else 0)
             okAbs := aset 0 h.okAbs p (if heldA then nA else 0) }
  let s2 := if endR then s1.protEnd p 0 else s1
  if endA then s2.protEnd p 1 else s2

/-- The hottest temperature channel of the round. -/
def State.hottest (s : State) : Nat × Int :=
  (List.range 160).foldl (fun b c => if b.2 < s.reading c then (c, s.reading c) else b) (0, s.reading 0)

/-- The end of a round: HK_ROUNDS, HK_HOTTEST, power, the ends of holds, refresh bands that fall; the next round
begins. -/
def State.roundEnd (s : State) : State :=
  let h := s.hottest
  let s1 := s.wrs pgHk [(HK_ROUNDS_COUNT, s.rd pgHk HK_ROUNDS_COUNT + 1), (HK_HOTTEST_CHANNEL, h.1),
    (HK_HOTTEST_TEMP, ofInt 16 h.2)]
  let s2 := (List.range 8).foldl State.bandFall (s1.partList.foldl State.holdRound s1.powerRound)
  s2.modHealth fun h => { h with chan := 0, roundAt := h.roundAt + 512 * 5000 }

/-- Management firmware reads the event logs of the expanders it finds, and raises CX_DEVICE_EVENT for a new entry (R477). -/
def State.readLog (s : State) (e : CxlLog) : State :=
  let pg := pgCxl e.port
  if s.rd pg CX_STATUS_STATE = 3 ∧ s.on pg CX_TARGET_PRESENT e.target = true then
    s.raise pg ev_CX_DEVICE_EVENT (le 1 e.target ++ le 1 e.log ++ le 6 0 ++ le 8 e.handle)
  else s

/-- One channel's sample: published in HK_READ, then acted on. -/
def State.sample (s : State) (c : Nat) (v : Int) (obs : HkObs) : State :=
  let s0 := (s.wr pgHk HK_READ_VALUE (if 480 ≤ c then 0 else ofInt 16 v) c).modHealth
    fun h => { h with chan := c + 1 }
  let s1 :=
    if c < 160 then s0.sampleTemp c v obs.fault
    else if c < 352 then s0.sampleDomain c v
    else if c = 472 ∨ c = 473 then s0.sampleVin c v
    else s0.sampleSupply c v
  if c = 511 then obs.logs.foldl State.readLog s1.roundEnd else s1

/-- HK_SAMPLE (R578): the next channel of the round is sampled, 4 µs after the one before; `value` is
what the channel reads, `obs` whether its sensor fails its self-check and what is new in the expanders' logs. -/
def execHkSample (value : Int) (obs : HkObs) (s : State) : Host.Outcome State Fault Refusal :=
  finish (evented ++ [.health]) s <|
    if s.health.roundOn && s.pins.refclk && decide (s.health.roundAt + 5000 * s.health.chan ≤ s.real) then
      s.sample s.health.chan value obs
    else s

/-- AGEING_MONITOR_SAMPLE (Table 2-3): in slots 4088 to 4091 a compute die's in-situ monitors are
sampled; the readings join those the round keeps for the domain. -/
def execAgeingMonitorSample (cluster : Fin 80) (delay slack : Nat) (s : State) :
    Host.Outcome State Fault Refusal :=
  finish [.health] s <|
    if 4088 ≤ s.slot ∧ s.slot ≤ 4091 then
      (s.noteDelay cluster delay).modHealth fun h => { h with slack := aset 0 h.slack cluster (min 65535 (aget 0 h.slack cluster + slack)) }
    else s

/-! ### Voltages (R594 to R598) -/

/-- SET, START and CEILING of a domain: 0 to 79 clusters, 80 to 95 base-die regions. -/
def vSet (d : Nat) : Fld × Nat := if d < 80 then (PD_VCL_SET, d) else (PD_VBR_SET, d - 80)
def vStart (d : Nat) : Fld × Nat := if d < 80 then (PD_VCL_START, d) else (PD_VBR_START, d - 80)
def vCeil (d : Nat) : Fld × Nat := if d < 80 then (PD_VCL_CEILING, d) else (PD_VBR_CEILING, d - 80)

/-- The ceiling code of Table 16-6. -/
def State.ceiling (s : State) : Nat :=
  match s.fuse.variant with
  | 0 => 340 | 1 => 324 | _ => 308

/-- The voltage code in force in a domain. -/
def State.vCode (s : State) (d : Nat) : Nat := s.rd pgHk (vSet d).1 (vSet d).2

/-- The domain's code moves to `v`; CEILING follows. -/
def State.setVolt (s : State) (d v : Nat) : State :=
  (s.wr pgHk (vSet d).1 v (vSet d).2).wr pgHk (vCeil d).1 (if s.ceiling ≤ v then 1 else 0) (vCeil d).2

/-- A domain requires a code above the ceiling (R597, R598): it stays at the ceiling; a cluster is
retired, to be fenced at the next boundary and listed as a field defect; a base-die region is
reported. -/
def State.overCeiling (s : State) (d need : Nat) : State :=
  let s1 := s.setVolt d s.ceiling
  if d < 80 then
    if s.on pgHk PD_VCL_RETIRED d then s1
    else
      let s2 := (s1.wr pgHk PD_VCL_RETIRED 1 d).modHealth fun h => { h with retire := d :: h.retire }
      (s2.raise pgHk ev_HK_CLUSTER_RETIRED (le 1 d ++ le 1 0 ++ le 2 need)).newDefect
        (d / 10) 4 (16 * (d % 10)) 2
  else s1.raise pgHk ev_HK_BASE_CEILING (le 1 (d - 80) ++ le 1 0 ++ le 2 need)

/-- A domain is raised one step of 2.5 mV with HK_VSTEP (R594); a cluster at its ceiling is retired, and a region there stays,
to be reported by the next re-plan (R598). `n`: its slack events. -/
def State.raiseVolt (s : State) (d n : Nat) : State :=
  if s.ceiling ≤ s.vCode d then (if d < 80 then s.overCeiling d (s.vCode d + 1) else s.setVolt d s.ceiling)
  else
    let s1 := s.setVolt d (s.vCode d + 1)
    s1.raise pgHk ev_HK_VSTEP (le 1 (if d < 80 then 0 else 1) ++ le 1 (if d < 80 then d else d - 80) ++ le 2 (s1.vCode d) ++ le 2 n)

/-- VOLTAGE_STEP (R594): at slot 4088 of the epoch after that of a round in which its slack detectors counted
more than 64 events, a domain is raised one step, at most once per 1,024 rounds. -/
def execVoltageStep (domain : Fin 96) (s : State) : Host.Outcome State Fault Refusal :=
  let d : Nat := domain
  let due := aget 0 s.health.stepDue d
  let last := aget 0 s.health.stepAt d
  let rounds := s.rd pgHk HK_ROUNDS_COUNT
  finish (evented ++ [.ledger, .health]) s <|
    if s.slot = 4088 ∧ due ≠ 0 ∧ due = s.time.epochs ∧ (last = 0 ∨ 1024 ≤ rounds - (last - 1)) then
      (s.modHealth fun h =>
        { h with stepDue := aset 0 h.stepDue d 0, stepAt := aset 0 h.stepAt d (rounds + 1) }).raiseVolt d (aget 0 s.health.stepSlack d)
    else s

/-- The steps a re-plan gives a domain of least margin `l` (1/1,024 of the cycle): one up for each
0.5 % short of 6 %, rounded up; one down above 9 % (R595). -/
def planSteps (l : Nat) : Int :=
  if 100 * l < 6144 then ((6144 - 100 * l + 511) / 512 : Nat) else if 9216 < 100 * l then -1 else 0

/-- The re-plan's first decision for every domain with a margin held. -/
def State.planMoves (s : State) : List (Nat × Int) :=
  (List.range 96).filterMap fun d => (s.leastOf d).bind fun m => if planSteps m = 0 then none else some (d, planSteps m)

/-- One domain's move in one epoch of a re-plan: at most one step, never below the fused start. -/
def State.planOne (s : State) (e : Nat × Int) : State :=
  let d := e.1
  if 0 < e.2 then
    let s1 := if s.ceiling ≤ s.vCode d then s.overCeiling d (s.vCode d + e.2.toNat) else s.setVolt d (s.vCode d + 1)
    let top := decide (s.ceiling ≤ s.vCode d)
    s1.modHealth fun h =>
      { h with moves := aset 0 h.moves d (if top then 0 else e.2 - 1), raised := if top || h.raised.contains d then h.raised else d :: h.raised }
  else
    let lo := s.rd pgHk (vStart d).1 (vStart d).2
    let s1 := if lo < s.vCode d then s.setVolt d (s.vCode d - 1) else s
    s1.modHealth fun h =>
      { h with moves := aset 0 h.moves d 0, lowered := if lo < s.vCode d then d :: h.lowered else h.lowered }

/-- The ageing record of a voltage domain (Table 16-9). -/
def State.domainAge (s : State) (d : Nat) : Age :=
  { seq := 0, unit := if d < 80 then pgCluster d else pgHk, hours := 0,
    kind := if d < 80 then 5 else 6, index := if d < 80 then 0xFF else d - 80,
    vset := s.vCode d, delay := (s.leastOf d).getD 0, slack := aget 0 s.health.slack d,
    temp := if d < 80 then s.rd pgHk HK_READ_VALUE d else s.rd pgHk HK_READ_VALUE (144 + (d - 80)) }

/-- The ageing records of channels, column groups, the Parting Link and Runner lanes from their margin
registers. -/
def State.marginAges (s : State) : List Age :=
  ((List.range 256).map fun c =>
    { seq := 0, unit := pgChannel c, hours := 0, kind := 1, index := 0xFF,
      phase := s.rd (pgChannel c) MC_MARGIN_PHASE, volt := s.rd (pgChannel c) MC_MARGIN_VOLT : Age }) ++
  ((List.range 256).map fun g =>
    { seq := 0, unit := pgGroup g, hours := 0, kind := 2, index := g % 32,
      phase := (aget {} s.wires g).margin : Age }) ++
  ((List.range 2).map fun d =>
    { seq := 0, unit := pgParting, hours := 0, kind := 3, index := d,
      phase := s.rd pgParting (if d = 0 then MC_PL_MARGIN_CD else MC_PL_MARGIN_DC) : Age }) ++
  ((List.range 192).map fun l =>
    { seq := 0, unit := pgLane l, hours := 0, kind := 4, index := l % 8,
      phase := s.rd (pgLane l) RN_EYE_MARGIN_PHASE, volt := s.rd (pgLane l) RN_EYE_MARGIN_VOLT : Age })

/-- A re-plan completes (R595, R599): every unit's ageing record is appended, HK_REPLAN_DONE is
raised. -/
def State.planDone (s : State) : State :=
  let ages := s.marginAges ++ (List.range 96).map s.domainAge
  let s1 := (s.modLedger fun l => ages.foldl Ledger.append l).wrs pgHk
    [(HK_REPLAN_CTRL_RUNNING, 0), (HK_REPLAN_HOURS, s.ledger.hours)]
  ((s1.hwClear pgHk HK_REPLAN_CTRL_REQUEST).raise pgHk ev_HK_REPLAN_DONE
    (le 4 s.ledger.hours ++ le 2 s.health.raised.length ++ le 2 s.health.lowered.length)).modHealth fun h =>
      { h with slack := [], raised := [], lowered := [] }

/-- REPLAN (R595): begun in a maintenance window every 24 operating hours or on request, it moves
each domain at most one step at slot 4088 of an epoch, and completes when no move is left. -/
def execReplan (s : State) : Host.Outcome State Fault Refusal :=
  finish (evented ++ [.ledger, .health]) s <|
    if !s.on pgHk HK_REPLAN_CTRL_RUNNING then
      if 4088 ≤ s.slot ∧ (s.on pgHk HK_REPLAN_CTRL_REQUEST ∨ s.health.replanAt + 24 ≤ s.ledger.hours) ∧
          s.boot.next = 12 then
        (s.wr pgHk HK_REPLAN_CTRL_RUNNING 1).modHealth fun h =>
          { h with moves := s.planMoves, movedAt := 0, raised := [], lowered := []
                   replanAt := if h.replanAt + 24 ≤ s.ledger.hours then s.ledger.hours else h.replanAt }
      else s
    else if s.slot = 4088 ∧ s.health.movedAt ≠ s.time.epochs + 1 then
      let s1 := s.health.moves.foldl State.planOne s
      let s2 := s1.modHealth fun h => { h with movedAt := s.time.epochs + 1 }
      if s2.health.moves.isEmpty then s2.planDone else s2
    else s

end Sys2Proof.Machine
end

