-- ==== Sys2Proof/Machine/PinsOps.lean ====
section
/-!
DEFINITION. Machine/PinsOps.lean: the board's side (18_package_electrical.md): the filtered inputs,
their stability, REFCLK, the supplies and the scan port, and the power-on scope they reset.
-/

namespace Sys2Proof.Machine

open Sys2Proof

/-- The pin registers BU_PINS and BU_PIN_TOGGLE (R650), less REFCLK_LOST, which a FULL reset
clears. -/
def pinRegs : List Fld :=
  [BU_PINS_RESET_N, BU_PINS_PWR_GOOD, BU_PINS_HOLD_N, BU_PINS_PWR_OFF_REQ, BU_PINS_THERM_TRIP,
   BU_PINS_UNSTABLE, BU_PIN_TOGGLE_RESET_N, BU_PIN_TOGGLE_PWR_GOOD, BU_PIN_TOGGLE_HOLD_N]

/-- Everything but the Ledger, the fuses, the pin logic and the auxiliary domain's running round is
as after power-on (Table 14-5 FULL and power-on, R590, R626, R650, R578, Table 18-10). DRAM and
far-tier contents become undefined; cluster memories and slices read zero (R659). -/
def State.fullReset (s : State) : State :=
  let t : State :=
    { pending := s.pending
      free := s.free + 2
      real := s.real
      undef := undefAtPowerOn s.free
      fuse := s.fuse
      ledger := s.ledger
      update := { areaA := s.update.areaA, areaB := s.update.areaB, selA := s.update.selA, selB := s.update.selB }
      pki := s.pki
      certs := s.certs
      sprue := { vlas := s.sprue.vlas }
      mordant := { opKey := s.mordant.opKey }
      pins := { s.pins with gated := false, cxlOut := false }
      health := { roundOn := s.health.roundOn, roundAt := s.health.roundAt, chan := s.health.chan,
                  shutdown := s.health.shutdown, onAt := s.health.onAt, eraseAt := s.health.eraseAt } }
  pinRegs.foldl (fun t F => t.wr pgBu F (s.rd pgBu F)) t

/-- The pin is latched unstable: its safe state acts, whatever its level (R649). -/
def State.unstable (s : State) (p : Pin) : Bool := bit (s.rd pgBu BU_PINS_UNSTABLE) (pinIdx p)

/-- PWR_GOOD_CHANGE (R648): deassertion resets the power-on scope at once, with no drain, and the
device waits dark; assertion with VIN and VAUX within limits begins stage 0. -/
def execPwrGoodChange (level : Bool) (s : State) : Host.Outcome State Fault Refusal :=
  finish powered s <|
    let s1 := s.wr pgBu BU_PINS_PWR_GOOD level.toNat
    if s.unstable .pwrGood then s1
    else if !s1.pinHigh .pwrGood then { s1.fullReset with pins := { s1.fullReset.pins with byReset := false } }
    else if s1.pins.vin && s1.pins.vaux && !s1.boot.begun then { s1 with boot := { s1.boot with begun := true } }
    else s1

/-- RESET_N_CHANGE (R648): assertion resets the power-on scope at once; stage 0 runs and the device
waits at its end. Deassertion lets stage 1 begin. Loading of EXTEST ends with the deassertion
(Table 18-10). -/
def execResetNChange (level : Bool) (s : State) : Host.Outcome State Fault Refusal :=
  finish powered s <|
    let s1 := s.wr pgBu BU_PINS_RESET_N level.toNat
    if s.unstable .resetN then s1
    else if !s1.pinHigh .resetN then
      let good := s1.pinHigh .pwrGood
      let t := s1.fullReset
      { t with boot := { t.boot with begun := good && s1.pins.vin && s1.pins.vaux },
               pins := { t.pins with byReset := good } }
    else { s1 with pins := { s1.pins with scan := if s1.pins.scan = 0 then 15 else s1.pins.scan } }

/-- HOLD_N_CHANGE (R648, R76): while asserted the device acts as if HOLD named every partition. -/
def execHoldNChange (level : Bool) (s : State) : Host.Outcome State Fault Refusal :=
  finish evented s <|
    let s1 := s.wr pgBu BU_PINS_HOLD_N level.toNat
    if s1.holdPin then (s1.partList.foldl State.holdPart s1).notePinHold else s1

/-- The toggle count field of a pin. -/
def toggleField : Pin → Fld
  | .resetN => BU_PIN_TOGGLE_RESET_N
  | .pwrGood => BU_PIN_TOGGLE_PWR_GOOD
  | .holdN => BU_PIN_TOGGLE_HOLD_N

/-- The transitions of a pin within the last 1,000 ms. -/
def State.edgesKept (s : State) (p : Pin) : List Nat :=
  (aget [] s.pins.edges (pinIdx p)).filter fun t => decide (s.real - t < 1000 * msTicks)

/-- The same with the one that comes now first. -/
def State.edgesNow (s : State) (p : Pin) : List Nat := s.real :: s.edgesKept p

/-- What a pin in its safe state does, as its asserted level (R649). -/
def State.safePin (s : State) (p : Pin) : State :=
  match p with
  | .pwrGood => { s.fullReset with pins := { s.fullReset.pins with byReset := false } }
  | .resetN =>
    let good := s.pinHigh .pwrGood
    let t := s.fullReset
    { t with boot := { t.boot with begun := good && s.pins.vin && s.pins.vaux },
             pins := { t.pins with byReset := good } }
  | .holdN => (s.partList.foldl State.holdPart s).notePinHold

/-- PIN_TRANSITION (R649): the raw transition counts over the last 1,000 ms; a count above 100
latches the pin unstable in its safe state. -/
def execPinTransition (pin : Pin) (s : State) : Host.Outcome State Fault Refusal :=
  let l := s.edgesNow pin
  let n := min l.length 1023
  finish powered s <|
    let s1 := { s with pins := { s.pins with edges := aset [] s.pins.edges (pinIdx pin) (l.take 1023) } }
    let s2 := s1.wr pgBu (toggleField pin) n
    if 100 < l.length ∧ !bit (s.rd pgBu BU_PINS_UNSTABLE) (pinIdx pin) then
      let s3 := s2.wr pgBu BU_PINS_UNSTABLE (setBit (s.rd pgBu BU_PINS_UNSTABLE) (pinIdx pin) true)
      (s3.safePin pin).raise pgBu ev_BU_UNSTABLE_INPUT (le 1 (pinIdx pin) ++ le 1 0 ++ le 2 l.length)
    else s2

/-- INPUT_QUIET_EXPIRY (R649): 100 ms without a raw transition, an unstable pin's bit clears and its
filtered level applies again, a deasserted RESET_N ending EXTEST. -/
def execInputQuietExpiry (pin : Pin) (s : State) : Host.Outcome State Fault Refusal :=
  let last := (aget [] s.pins.edges (pinIdx pin)).head?.getD 0
  finish (evented ++ [.boot]) s <|
    if bit (s.rd pgBu BU_PINS_UNSTABLE) (pinIdx pin) && decide (100 * msTicks ≤ s.real - last) then
      let s1 := s.wr pgBu BU_PINS_UNSTABLE (setBit (s.rd pgBu BU_PINS_UNSTABLE) (pinIdx pin) false)
      let s2 := if s1.pinHigh .pwrGood && s1.pins.vin && s1.pins.vaux && !s1.boot.begun then
          { s1 with boot := { s1.boot with begun := true } } else s1
      let s3 := if s2.pinHigh .resetN ∧ s2.pins.scan = 0 then { s2 with pins := { s2.pins with scan := 15 } } else s2
      s3.raise pgBu ev_BU_INPUT_STABLE (le 1 (pinIdx pin))
    else s

/-- REFCLK_LOSS (R645): REFCLK_LOST at Lampblack with its actions, the ports down, the time unit LOST
with its counter stopped; the housekeeping round and the Sprue port stop. -/
def execRefclkLoss (s : State) : Host.Outcome State Fault Refusal :=
  finish (evented ++ [.time, .sprue]) s <|
    let s1 := (s.raise pgBu ev_REFCLK_LOST (le 8 s.time.ticks)).wr pgBu BU_PINS_REFCLK_LOST 1
    let s2 := s1.portsDown.toLost 0
    { s2 with pins := { s2.pins with refclk := false, gated := true },
              time := { s2.time with running := false },
              sprue := { s2.sprue with goodAm := 0, badAm := 0, line := {}, txLine := {}, rxLine := {} } }.wr pgSprue SP_STATUS_LINK 0

/-- REFCLK_RESTORED (R645): after 1 ms within limits the synthesiser relocks: the round and the Sprue
port resume, the port where it is lit, and the counter runs on from its value. Compute service needs a FULL reset. -/
def execRefclkRestored (s : State) : Host.Outcome State Fault Refusal :=
  finish [.regs, .pins, .time, .health] s <|
    if s.pins.refclk then s
    else
      let s1 := { s with pins := { s.pins with refclk := true }, time := { s.time with running := s.boot.begun },
                         health := { s.health with roundAt := s.real - 5000 * s.health.chan } }
      s1.wr pgSprue SP_STATUS_LINK s1.sprueLit.toNat

/-- VAUX_LOSS (R642): the device stops as at power-on and keeps only Ledger and fuses. Where VIN did
not fall below 0.5 V within 10 ms the spec promises no undamaged device. -/
def execVauxLoss (vinFell : Bool) (s : State) : Host.Outcome State Fault Refusal :=
  if vinFell then
    let t := s.fullReset
    finish powered s { t with regs := [], health := {}, pins := { vaux := false, vin := false, refclk := s.pins.refclk } }
  else .fault .damaged

/-- VAUX_RISE (R650, R651): the pin logic and its registers take their reset values and both outputs
are released. -/
def execVauxRise (s : State) : Host.Outcome State Fault Refusal :=
  finish [.regs, .pins, .health] s <|
    let s1 := (pinRegs ++ [BU_PINS_REFCLK_LOST]).foldl (fun t F => t.wr pgBu F 0) s
    { s1 with pins := { vaux := true, vin := true, refclk := s.pins.refclk },
              health := { s1.health with shutdown := none, onAt := s.real } }

/-- SCAN_INSTRUCTION (R652, R490, R492): the instruction the code selects; a code unknown, forbidden in
the lifecycle state, or EXTEST while RESET_N is deasserted, selects BYPASS. -/
def execScanInstruction (code : Fin 16) (s : State) : Host.Outcome State Fault Refusal :=
  let open_ := s.fuse.life = .manufacture ∨ s.fuse.life = .provisioned
  let sel : Nat :=
    if code = 0 ∧ open_ ∧ !s.pinHigh .resetN then 0
    else if code = 2 ∧ open_ then 2
    else 15
  finish [.pins] s { s with pins := { s.pins with scan := sel } }

end Sys2Proof.Machine
end

