-- ==== Sys2Proof/Machine/TrustOps.lean ====
section
/-!
DEFINITION. Machine/TrustOps.lean: Mordant's own operations (13_trust.md): key derivation, fresh
secrets, measurement, session checks, memory keys and the beginning and end of seals.
-/

namespace Sys2Proof.Machine

open Sys2Proof

/-- What Mordant holds for partition `p`. -/
def State.trusted (s : State) (p : Nat) : Trusted := aget {} s.mordant.parts p

def State.modTrusted (s : State) (p : Nat) (f : Trusted → Trusted) : State :=
  s.modMordant fun m => { m with parts := aupd {} m.parts p f }

/-! ### Derivation (R484, R485, R496) -/

/-- The bytes of an ASCII label. -/
def label (t : String) : Bytes := t.toList.map fun c => BitVec.ofNat 8 c.toNat

/-- HKDF-Extract. -/
def extract (salt ikm : Bytes) : Bytes := hmac salt ikm

/-- HKDF-Expand to `len` bytes. -/
def expand (prk info : Bytes) (len : Nat) : Bytes := (hkdfBlocks ((len + 31) / 32) 1 prk info []).take len

/-- The P-256 private key of a secret and a label (R484). -/
def privKey (secret : Bytes) (l : String) : Nat :=
  beNat (expand (extract (List.replicate 32 0) secret) (label l) 48) % (p256n - 1) + 1

/-- A public key as an uncompressed point of 65 bytes (R494). -/
def point (d : Nat) : Bytes := 0x04 :: pubOf d

/-- The 64 coordinate bytes of a 65-byte uncompressed point; none in another form. -/
def coords (b : Bytes) : Option Bytes :=
  match slice b 0 65 with
  | f :: xy => if f = 0x04 then some xy else none
  | [] => none

/-- ECDSA verification under a 65-byte point. -/
def verify (key digest sig : Bytes) : Bool :=
  match coords key with
  | some xy => ecdsaOk xy digest sig
  | none => false

/-- The shared secret of a private scalar and a 65-byte point. -/
def shared (d : Nat) (key : Bytes) : Option Bytes := (coords key).bind (ecdh d)

/-- A fresh private scalar and 32 fresh bytes from the DRBG: free values (R489). -/
def State.fresh (s : State) : Nat × Bytes × State :=
  (Config.freeNat s.free % (p256n - 1) + 1, Config.freeBytes (s.free + 1) 32, { s with free := s.free + 2 })

/-- Mordant's signature over a digest by ALIAS2, its nonce a free value. -/
def State.sign (s : State) (digest : Bytes) : Bytes :=
  ecdsaSign s.mordant.alias2 (Config.freeNat s.free % (p256n - 1) + 1) digest

/-! ### Measurement (R497 to R499) -/

/-- MS8 + p is extended: the slot, and the log, which a full log leaves as it is (R498, R499). -/
def State.extend (s : State) (p ty : Nat) (digest : Bytes) : State :=
  let s1 := s.setMs (8 + p) (sha256 (s.ms (8 + p) ++ le 1 ty ++ digest))
  if (s.trusted p).log.length < 1024 then
    s1.modTrusted p fun t => { t with log := t.log ++ [(s.time.ticks, ty, digest)] }
  else s1.wr pgMordant MD_PART_LOG_FULL 1 p

/-- The partition's slot and log emptied (R498). -/
def State.clearMs (s : State) (p : Nat) : State :=
  ((s.setMs (8 + p) (List.replicate 32 0)).modTrusted p fun t => { t with log := [] }).wr pgMordant
    MD_PART_LOG_FULL 0 p

/-- The port mask of a partition's Runner ports, and of its CXL ports. -/
def State.rnMask (s : State) (p : Nat) : Nat :=
  ((List.range 24).filter fun q => s.rnOwner q == some p).foldl (fun m q => m + 2 ^ q) 0
def State.cxMask (s : State) (p : Nat) : Nat :=
  ((List.range 2).filter fun q => s.cxOwner q == some p).foldl (fun m q => m + 2 ^ q) 0

/-- A register word from its stored fields, for pages whose fields are not live. -/
def State.word (s : State) (pg : Nat) (fs : List Fld) (i : Nat) : Nat :=
  fs.foldl (fun m F => m + s.rd pg F i <<< F.lo) 0

/-- SB_REGIONS of a slice. -/
def sbRegionsFields : List Fld :=
  [SB_REGIONS_SCRATCH_MB, SB_REGIONS_ATOM_MB, SB_REGIONS_RED_MB, SB_REGIONS_RED_FMT, SB_REGIONS_CLEAR_ON_READ]

/-- The partition record of R498: Risers, port masks, seed, SB_REGIONS of each slice. The spec gives
no layout; the model puts the fields in this order (log entry 20). -/
def State.partRecord (s : State) (p : Nat) : Bytes :=
  let r := s.allocRisers p
  ((r.map fun n => le 1 n).flatten) ++ le 4 (s.rnMask p) ++ le 1 (s.cxMask p) ++ le 2 (s.part p).seed ++
    ((r.map fun n => le 4 (s.word (pgSlice n) sbRegionsFields 0)).flatten)

/-! ### Identity (R485 to R488) -/

/-- A certificate Mordant issues: its DER bytes are a free value (R487 fixes no encoding choices). -/
def State.issue (s : State) : Bytes × State :=
  (Config.freeBytes s.free (Config.freeNat (s.free + 1) % 1024), { s with free := s.free + 2 })

/-- ALIAS2 renewed from CDI1 and MS2 (R485, R488). -/
def State.newAlias2 (s : State) : State :=
  let cdi2 := hmac s.mordant.cdi1 (s.ms 2)
  let c := s.issue
  (c.2.modMordant fun m => { m with alias2 := privKey cdi2 "VZX8 ALIAS2", alias2Cert := c.1 }).wr
    pgMordant MD_ALIAS_GEN_COUNT (s.rd pgMordant MD_ALIAS_GEN_COUNT + 1)

/-- Stage 1's derivation: DEVID, CDI1 from UDS, MS0, MS1, lifecycle and fused SVN, ALIAS1 and ALIAS2
with their certificates (R485, R486). In Decommissioned no key is derived. -/
def State.deriveIdentity (s : State) : State :=
  if s.fuse.life = .decommissioned then s
  else
    let cdi1 := hmac s.fuse.uds (s.ms 0 ++ s.ms 1 ++ le 1 s.fuse.life.code ++ le 1 s.fuse.svn)
    let c := s.issue
    (c.2.modMordant fun m =>
      { m with devid := privKey s.fuse.uds "VZX8 DEVID", cdi1 := cdi1,
               alias1 := privKey cdi1 "VZX8 ALIAS1", alias1Cert := c.1,
               baseLife := s.fuse.life.code, baseSvn := s.fuse.svn, keyed := true }).newAlias2

/-- The fused lifecycle or SVN differs from what CDI1 was derived from (TCB_PENDING, R486). -/
def State.tcbPending (s : State) : Bool :=
  decide (s.fuse.life.code ≠ s.mordant.baseLife) || decide (s.fuse.svn ≠ s.mordant.baseSvn)

/-- The hash of the DEVID public key. -/
def State.devidHash (s : State) : Bytes := sha256 (point s.mordant.devid)

/-! ### Memory keys (R503) -/

/-- The CXL window of a port: 4 TiB from 0x0800_0000_0000. -/
def cxlBase (x : Nat) : Nat := 0x080000000000 + x * 0x040000000000

/-- The DRAM window of a Riser (R22). -/
def dramBase (r : Nat) : Nat := r * 0x1400000000

/-- New memory keys for partition `p`: what its DRAM and far tier held is undefined (R503). -/
def State.newMemKeys (s : State) (p : Nat) : State :=
  let s1 := (s.risersOf p).foldl (fun s r => s.undefine (dramBase r) 0x1400000000) s
  let s2 := ((List.range 2).filter fun x => s.cxOwner x == some p).foldl
    (fun s x => s.undefine (cxlBase x) 0x040000000000) s1
  s2.wr pgMordant MD_PART_KEYGEN (s.rd pgMordant MD_PART_KEYGEN p + 1) p

/-! ### Sessions (R507) -/

/-- The session nonce: a direction byte, three zero bytes, SCTR. -/
def sctrNonce (dir sctr : Nat) : Nat := beNat (le 1 dir ++ le 3 0 ++ le 8 sctr)

/-- The additional data of a session command. -/
def sessAad (op : Nat) (c : Cmd) : Bytes :=
  le 2 op ++ le 1 c.part ++ le 8 c.start ++ slice c.args 0 16 ++ slice c.args 0x1B8 8

/-- A session command with `text` as its ciphertext verifies in session `t`: STAG under K_SESS, and an
SCTR above the last accepted (R507). -/
def sessionOk (t : Session) (op : Nat) (c : Cmd) (text : Bytes) : Bool :=
  decide (gcmTag t.kSess (sctrNonce 0 (fieldAt c.args 0x1B8 8)) (sessAad op c) text = slice c.args 0x1C0 16) &&
    (match t.sctr with
     | none => true
     | some n => decide (n < fieldAt c.args 0x1B8 8))

/-- The status of the session check of a session command: 0 where it passes. -/
def State.sessionCheck (s : State) (op : Nat) (c : Cmd) (text : Bytes) : Nat :=
  match (s.trusted c.part).session with
  | none => stNOSESSION
  | some t => if sessionOk t op c text then 0 else stAUTHFAIL

/-- The accepted SCTR is kept. -/
def State.acceptSctr (s : State) (c : Cmd) : State :=
  s.modTrusted c.part fun t =>
    { t with session := t.session.map fun e => { e with sctr := some (fieldAt c.args 0x1B8 8) } }

/-- RSP DATA of a session command: its data field, then SCTR and STAG at 0x1B8 and 0x1C0 (R507). -/
def sessionData (t : Session) (op : Nat) (c : Cmd) (head : Bytes) (text : Bytes) : Bytes :=
  let sctr := fieldAt c.args 0x1B8 8
  let body := slice (head ++ text) 0 0x1B8
  body ++ le 8 sctr ++ gcmTag t.kSess (sctrNonce 1 sctr) (sessAad op c) text

/-- The refusal of a session command whose check fails: AUTH-FAIL also counts and is reported. -/
def State.refuseSession (s : State) (op : Nat) (c : Cmd) (st : Nat) : State :=
  if st = stAUTHFAIL then
    ((s.bump pgMordant MD_FAIL_SESSION).raise pgMordant ev_MD_SESSION_AUTH
      (le 1 c.part ++ le 7 0 ++ slice c.args 0x1B8 8)).complete op c st
  else s.complete op c st

/-- The RSP DATA of a session command without data. -/
def State.sessionTail (s : State) (op : Nat) (c : Cmd) : Bytes :=
  match (s.trusted c.part).session with
  | some t => sessionData t op c [] []
  | none => []

/-! ### Seals (R512, R513, R519) -/

/-- The passed slots at which a scrub begun now completes: 49,152 cycles. -/
def State.scrubDue (s : State) : Nat := s.time.slots + (49152 + s.cps - 1) / s.cps

/-- The partition is at rest: HELD, IDLE or DONE. -/
def State.atRest (s : State) (p : Nat) : Bool :=
  match (s.part p).run with
  | .held | .idle | .done => true
  | _ => false

/-- Loads under way in partition `p` end refused: WRONG-STATE (Table 14-7). -/
def State.dropLoads (s : State) (p : Nat) : State :=
  [0, 1].foldl (fun s k => if s.loadDue p k then s.failLoad p k stWRONGSTATE else s) s

/-- The partition is IDLE with both Pattern slots EMPTY. -/
def State.emptyPart (s : State) (p : Nat) : State :=
  (s.dropLoads p).modPart p fun q => { q with run := .idle, slot0 := {}, slot1 := {}, holdE := none, rel := none, toIdle := false }

/-- A seal of partition `p` in force or on its way. -/
def State.sealing (s : State) (p : Nat) : Bool :=
  s.sealed p || s.on pgMordant MD_PART_SCRUBBING p || (s.trusted p).sealReady

/-- The end of a seal begins (R519): session closed, Pattern key cleared, new memory keys, the scrub;
the partition stays IDLE until it completes. -/
def State.endSeal (s : State) (p cause : Nat) (cmd : Option Cmd) (data : Bytes := []) : State :=
  let s1 := (s.emptyPart p).newMemKeys p
  (s1.modTrusted p fun t =>
    { t with session := none, patKey := none, sealReady := false, strictEnd := false,
             scrubAt := some s.scrubDue, ending := some ⟨cause, cmd, data, s.risersOf p⟩ }).wr pgMordant MD_PART_SCRUBBING 1 p

end Sys2Proof.Machine
end

