-- ==== Sys2Proof/Machine/Trust.lean ====
section
/-!
DEFINITION. Machine/Trust.lean: Mordant's commands (Table 13-6), less SESSION_WRITE and SESSION_READ,
which reach memory and pages (Machine/Sessions.lean).
-/

namespace Sys2Proof.Machine

open Sys2Proof

/-- The services of Table 13-2 are open: Provisioned or Deployed. -/
def State.lifeOpen (s : State) : Bool :=
  decide (s.fuse.life = .provisioned) || decide (s.fuse.life = .deployed)

def stReject (bad : Bool) : Nat := if bad then stWRONGSTATE else 0

/-! ### The Sprue key (R494) -/

/-- The digest the operator signs for SPRUE_KEYX. -/
def State.keyxDigest (s : State) (c : Cmd) : Bytes :=
  sha256 (slice c.args 0x00 65 ++ slice c.args 0x48 32 ++ s.devidHash)

/-- The checks of SPRUE_KEYX: lifecycle, stage, entropy, the operator's signature in Deployed, and a
point that gives a shared secret. -/
def State.keyxCheck (s : State) (c : Cmd) : Nat :=
  firstStatus [
    (!s.lifeOpen || !s.mordant.keyed, stWRONGSTATE),
    (s.mordant.drbgFail, stNOENTROPY),
    (decide (s.fuse.life = .deployed) &&
      !verify s.mordant.opKey (s.keyxDigest c) (slice c.args 0x68 64), stAUTHFAIL),
    ((shared s.fresh.1 (slice c.args 0x00 65)).isNone, stBADFORMAT)]

/-- The new Sprue key and salt (R494, steps 3 and 4), with SEQ at 0 in each direction. -/
def SprueUnit.rekey (u : SprueUnit) (prk : Bytes) : SprueUnit :=
  { u with key := some (expand prk (label "VZX8 SPRUE KEY") 32),
           salt := unle (expand prk (label "VZX8 SPRUE SALT") 4),
           rxSeq := none, txSeq := 0, relaySeq := none, lateRx := false, lateTx := false, lateRelay := false }

/-- SPRUE_KEYX (R494): the RSP leaves under the former key, every later frame under the new one. The
model puts the RSP in the queue before the key changes and marks it so. -/
def execSprueKeyx (c : Cmd) (s : State) : Host.Outcome State Fault Refusal :=
  let (d, nd, s') := s.fresh
  let qd := point d
  let tr := slice c.args 0x00 65 ++ slice c.args 0x48 32 ++ qd ++ nd
  let data := slice qd 0 0x48 ++ nd ++ s'.sign (sha256 tr)
  finish answered s <|
    if !s.turn c then s
    else if !s.partOk 0x0100 c then s.complete 0x0100 c stBADFORMAT
    else if s.keyxCheck c ≠ 0 then s.complete 0x0100 c (s.keyxCheck c)
    else
      let z := (shared d (slice c.args 0x00 65)).getD []
      let r := TxFrame.rsp c.id 0x0100 0 s.time.ticks c.part data
      let s1 := { s' with free := s'.free + 1 }.closeCmd c.id (some r)
      let s2 := { s1 with sprue := { s1.sprue.rekey (extract (slice c.args 0x48 32 ++ nd) z) with
                    former := some (s.sprue.key, s.sprue.salt, s.sprue.txSeq) } }
      (s2.sendTx r).wr pgSprue SP_STATUS_KEYED 1

/-! ### Lifecycle (R490 to R493) -/

/-- DEPLOY (R491, R493): the operator key is enrolled; Deployed from the next epoch boundary. -/
def execDeploy (c : Cmd) (s : State) : Host.Outcome State Fault Refusal :=
  finish (answered ++ [.fuse, .ledger]) s <| s.act1 0x0101 c
    (firstStatus [(decide (s.fuse.life ≠ .provisioned) || s.fuse.deploying, stWRONGSTATE),
      (decide ((coords (slice c.args 0 65)).bind pubKey = none), stBADFORMAT)])
    fun s =>
      let k := slice c.args 0 65
      let s1 := (s.modLedger fun l => { l with opHash := sha256 k }).modMordant fun m => { m with opKey := k }
      { s1.wr pgMordant MD_STATUS_OPERATOR 1 with fuse := { s.fuse with deploying := true } }

/-- OPERATOR_REKEY (R493): the operator key is replaced under a signature by the current one. -/
def execOperatorRekey (c : Cmd) (s : State) : Host.Outcome State Fault Refusal :=
  let k := slice c.args 0 65
  finish (answered ++ [.ledger]) s <| s.act1 0x0102 c
    (firstStatus [(decide (s.fuse.life ≠ .deployed), stWRONGSTATE),
      (decide ((coords k).bind pubKey = none), stBADFORMAT),
      (!verify s.mordant.opKey (sha256 (k ++ le 4 c.id)) (slice c.args 0x48 64), stAUTHFAIL)])
    fun s => (s.modLedger fun l => { l with opHash := sha256 k }).modMordant fun m => { m with opKey := k }

/-- DECOMMISSION (R491): Decommissioned from the next FULL reset or power-on. -/
def execDecommission (c : Cmd) (s : State) : Host.Outcome State Fault Refusal :=
  finish (answered ++ [.fuse]) s <| s.act1 0x0103 c
    (firstStatus [(!s.lifeOpen, stWRONGSTATE), (decide (fieldAt c.args 0 4 ≠ c.id), stBADFORMAT)])
    fun s => { s with fuse := { s.fuse with decommissioning := true } }

/-! ### Certificates, attestation, logs (R487, R499, R500) -/

/-- Certificate INDEX of the chain: manufacturing CA, DEVID, ALIAS1, ALIAS2. -/
def State.cert (s : State) (i : Nat) : Bytes :=
  match i with
  | 0 => s.certs.getD 0 []
  | 1 => s.certs.getD 1 []
  | 2 => s.mordant.alias1Cert
  | _ => s.mordant.alias2Cert

/-- GET_CERTS (R487, R521): the certificate's length and up to 448 bytes from OFFSET. -/
def execGetCerts (c : Cmd) (s : State) : Host.Outcome State Fault Refusal :=
  let i := fieldAt c.args 0x00 1
  let b := s.cert i
  finish answered s <| s.act1 0x0108 c
    (firstStatus [(decide (s.fuse.life = .decommissioned), stWRONGSTATE), (decide (4 ≤ i), stBADFORMAT)])
    id (le 4 b.length ++ List.replicate 12 0 ++ (b.drop (fieldAt c.args 0x04 4)).take 448)

/-- The slots an MS_MASK names, ascending. -/
def maskSlots (m : Nat) : List Nat := (List.range 16).filter fun i => bit m i

/-- The hash of a description (R555): partitions 0 to 7, the device at 8. -/
def State.descHash (s : State) (p : Nat) : Bytes := sha256 (aget {} s.descs p).bytes

/-- FLAGS of an attestation report (Table 13-4). -/
def State.attestFlags (s : State) (p : Nat) : Nat :=
  (s.sealed p).toNat + 2 * (s.on pgMordant MD_PART_STRICT p).toNat +
    4 * (s.on pgBu BU_REDUCED_DIES).toNat + 8 * (decide (s.time.state = .locked)).toNat +
    16 * (s.on pgMordant MD_PART_LOG_FULL p).toNat + 32 * s.tcbPending.toNat

/-- The report of Table 13-4 up to its signature. -/
def State.report (s : State) (c : Cmd) : Bytes :=
  let p := c.part
  let dev := decide (p = 0xFF)
  let t := s.trusted p
  let sess := match t.session with
    | some e => if dev then List.replicate 32 0 else sha256 (e.qt ++ e.qd ++ e.nt ++ e.nd)
    | none => List.replicate 32 0
  le 4 0x52544156 ++ le 2 1 ++ le 1 s.fuse.variant ++ le 1 s.fuse.life.code ++ le 1 1 ++ le 1 p ++
    le 1 (s.attestFlags p) ++ le 1 s.fuse.svn ++ le 2 (fieldAt c.args 0x20 2) ++ le 2 0 ++
    le 8 s.time.ticks ++ slice c.args 0x00 32 ++ s.descHash (if dev then 8 else p) ++ sess ++
    (if s.sealed p && !dev then slice t.domain 0 32 else List.replicate 32 0) ++
    ((maskSlots (fieldAt c.args 0x20 2)).map s.ms).flatten

/-- ATTEST (R500): a report signed by ALIAS2; a mask of more than 7 slots is BAD-FORMAT. -/
def execAttest (c : Cmd) (s : State) : Host.Outcome State Fault Refusal :=
  let r := s.report c
  finish answered s <| s.act1 0x0109 c
    (firstStatus [(decide (s.fuse.life = .decommissioned) || !s.mordant.keyed, stWRONGSTATE),
      (decide (7 < (maskSlots (fieldAt c.args 0x20 2)).length), stBADFORMAT)])
    (fun s => { s with free := s.free + 1 }) (r ++ s.sign (sha256 r))

/-- A measurement log entry as its 48 bytes (R499). -/
def logEntry (e : Nat × Nat × Bytes) : Bytes := le 8 e.1 ++ le 1 e.2.1 ++ le 7 0 ++ slice e.2.2 0 32

/-- GET_LOG (R499, R521): up to 9 entries from the one named. -/
def execGetLog (c : Cmd) (s : State) : Host.Outcome State Fault Refusal :=
  finish answered s <| s.act1 0x010A c 0 id
    ((((s.trusted c.part).log.drop (fieldAt c.args 0x00 2)).take 9).map logEntry).flatten

/-! ### Pattern key and far-tier key (R509, R504) -/

/-- A Pattern slot of the partition is LOADING. -/
def Part.loading (q : Part) : Bool := q.loadsInto 0 || q.loadsInto 1

/-- A command that is a session command while its partition is sealed: its session check. -/
def State.sealedCheck (s : State) (op : Nat) (c : Cmd) (text : Bytes) : Nat :=
  if s.sealed c.part then s.sessionCheck op c text else 0

/-- SET_PATTERN_KEY (R509): the key is set and MS8 + p extended with TYPE 2. -/
def execSetPatternKey (c : Cmd) (s : State) : Host.Outcome State Fault Refusal :=
  let p := c.part
  let k := slice c.args 0x00 65
  let se := s.sealedCheck 0x0110 c []
  let data := if s.sealed p then s.sessionTail 0x0110 c else []
  finish answered s <|
    if !s.turn c then s
    else if !s.partOk 0x0110 c then s.complete 0x0110 c stBADFORMAT
    else if se ≠ 0 then s.refuseSession 0x0110 c se
    else if (s.part p).loading || (s.part p).run.live then s.complete 0x0110 c stWRONGSTATE
    else if (coords k).bind pubKey = none then s.complete 0x0110 c stBADFORMAT
    else
      let s1 := (s.modTrusted p fun t => { t with patKey := some k }).acceptSctr c
      (s1.extend p 2 (sha256 k)).complete 0x0110 c 0 data

/-- ROTATE_FAR_KEY (R504): accepted at rest; the ports of the partition re-encrypt, INITIALISING
standing on their committed decoders, and the command completes at FAR_KEY_ROTATED. -/
def execRotateFarKey (c : Cmd) (s : State) : Host.Outcome State Fault Refusal :=
  let p := c.part
  let se := s.sealedCheck 0x0111 c []
  finish answered s <|
    if !s.turn c then s
    else if !s.partOk 0x0111 c then s.complete 0x0111 c stBADFORMAT
    else if se ≠ 0 then s.refuseSession 0x0111 c se
    else if !s.atRest p || (s.trusted p).rotate.isSome then s.complete 0x0111 c stWRONGSTATE
    else if s.mordant.drbgFail then s.complete 0x0111 c stNOENTROPY
    else
      let s1 := (s.modTrusted p fun t => { t with rotate := some c }).acceptSctr c
      let s2 := ((List.range 2).filter fun x => s.cxOwner x == some p).foldl
        (fun s x => (List.range 8).foldl (fun s d =>
          if s.on (pgCxl x) CX_DEC_CTRL_COMMITTED d then s.wr (pgCxl x) CX_DEC_STAT_INITIALISING 1 d else s) s) s1
      s2.closeCmd c.id none

/-- FAR_KEY_ROTATED (R504): the last line is rewritten; every line's CTR is 0 and the command
completes. Contents stay. -/
def execFarKeyRotated (part : Fin 8) (s : State) : Host.Outcome State Fault Refusal :=
  finish (answered ++ [.ctrs]) s <|
    match (s.trusted part).rotate with
    | none => s
    | some c =>
      let s1 := s.modTrusted part fun t => { t with rotate := none }
      let s2 := ((List.range 2).filter fun x => s.cxOwner x == some (part : Nat)).foldl
        (fun s x => { (List.range 8).foldl (fun s d => s.wr (pgCxl x) CX_DEC_STAT_INITIALISING 0 d) s with
          ctrs := s.ctrs.filter fun e => decide (e.1 < cxlBase x / 256 ∨ cxlBase (x + 1) / 256 ≤ e.1) }) s1
      s2.completeLate 0x0111 c (if s.sealed part then s.sessionTail 0x0111 c else [])

/-! ### Sessions (R505, R506) -/

/-- The session keys (R506). -/
def newSession (p : Nat) (qt qd nt nd z : Bytes) : Session :=
  let prk := extract (nt ++ nd) z
  { kSess := expand prk (label "VZX8 SESS" ++ le 1 p ++ qt ++ qd) 32,
    kWrap := expand prk (label "VZX8 WRAP" ++ le 1 p ++ qt ++ qd) 32, qt, qd, nt, nd }

/-- SESSION_OPEN (R505): session keys are agreed; a former session is replaced. -/
def execSessionOpen (c : Cmd) (s : State) : Host.Outcome State Fault Refusal :=
  let (d, nd, s') := s.fresh
  let qt := slice c.args 0x00 65
  let nt := slice c.args 0x48 32
  let qd := point d
  finish answered s <| s.act1 0x0120 c
    (firstStatus [
      (s.sealing c.part || decide (s.fuse.life = .decommissioned) || !s.mordant.keyed, stWRONGSTATE),
      (s.mordant.drbgFail, stNOENTROPY), ((shared d qt).isNone, stBADFORMAT)])
    (fun _ => s'.modTrusted c.part fun t =>
      { t with session := some (newSession c.part qt qd nt nd ((shared d qt).getD [])) })
    (slice qd 0 0x48 ++ nd)

/-! ### Seals (R512, R519) -/

/-- The data field of SEAL's arguments beyond the first 16 bytes that the tag covers is DOMAIN's rest,
PEV_ADDR, PEV_LOG2 and FLAGS; R507 leaves it empty as SEAL carries no ciphertext. -/
def State.sealCheck (s : State) (c : Cmd) : Nat :=
  firstStatus [
    (s.sealing c.part || !s.atRest c.part || (s.part c.part).lost, stWRONGSTATE),
    (s.mordant.drbgFail, stNOENTROPY),
    ((slice c.args 0x00 32).all (· == 0), stBADFORMAT)]

/-- SEAL (R512): the partition is IDLE with both slots EMPTY, its memory keys are replaced and the
scrub starts; the seal comes into force at the first boundary after it. -/
def execSeal (c : Cmd) (s : State) : Host.Outcome State Fault Refusal :=
  let p := c.part
  let se := s.sessionCheck 0x0121 c []
  finish (answered ++ [.mem, .undef]) s <|
    if !s.turn c then s
    else if !s.partOk 0x0121 c then s.complete 0x0121 c stBADFORMAT
    else if se ≠ 0 then s.refuseSession 0x0121 c se
    else if s.sealCheck c ≠ 0 then s.complete 0x0121 c (s.sealCheck c)
    else
      let s1 := ((s.acceptSctr c).emptyPart p).newMemKeys p
      let s2 := s1.modTrusted p fun t =>
        { t with domain := slice c.args 0x00 32, pevAddr := fieldAt c.args 0x20 8,
                 pevLog2 := fieldAt c.args 0x28 1, flags := fieldAt c.args 0x29 1, pevFault := false,
                 scrubAt := some s.scrubDue, ending := none, sealReady := false }
      (s2.wr pgMordant MD_PART_SCRUBBING 1 p).complete 0x0121 c 0 (s.sessionTail 0x0121 c)

/-- UNSEAL (R519): the seal's end begins; the RSP is sent when the scrub completes. -/
def execUnseal (c : Cmd) (s : State) : Host.Outcome State Fault Refusal :=
  let p := c.part
  let se := s.sessionCheck 0x0122 c []
  finish (answered ++ [.mem, .undef]) s <|
    if !s.turn c then s
    else if !s.partOk 0x0122 c then s.complete 0x0122 c stBADFORMAT
    else if !s.sealed p then s.complete 0x0122 c stWRONGSTATE
    else if se ≠ 0 then s.refuseSession 0x0122 c se
    else if s.mordant.drbgFail then s.complete 0x0122 c stNOENTROPY
    else (s.endSeal p 0 (some c) (s.sessionTail 0x0122 c)).closeCmd c.id none

/-! ### SVN and entropy (R489, R502) -/

/-- SVN_ADVANCE (R502): the target is accepted, to be blown in the next maintenance window. -/
def execSvnAdvance (c : Cmd) (s : State) : Host.Outcome State Fault Refusal :=
  let t := fieldAt c.args 0x00 1
  finish answered s <| s.act1 0x0130 c
    (firstStatus [(!s.lifeOpen, stWRONGSTATE),
      (decide (t ≤ s.fuse.svn) || decide (64 < t) || decide (s.rd pgMordant MD_SVN_MANIFEST < t), stROLLBACK)])
    fun s => s.wr pgMordant MD_SVN_PENDING t

/-- SVN_FUSE_BLOW (R502): in a maintenance window the pending target is blown. -/
def execSvnFuseBlow (s : State) : Host.Outcome State Fault Refusal :=
  let t := s.rd pgMordant MD_SVN_PENDING
  finish [.regs, .fuse, .mordant] s <|
    if 4088 ≤ s.slot ∧ t ≠ 0 then
      ({ s.wr pgMordant MD_SVN_PENDING 0 with fuse := { s.fuse with svn := max s.fuse.svn t } } : State).noteRecord
    else s

/-- DRBG_HEALTH_FAIL (R489): MD_DRBG_FAIL; no fresh key until the next FULL reset. -/
def execDrbgHealthFail (test : Fin 2) (s : State) : Host.Outcome State Fault Refusal :=
  finish evented s <|
    ((s.modMordant fun m => { m with drbgFail := true }).wr pgMordant MD_STATUS_DRBG_OK 0).raise pgMordant
      ev_MD_DRBG_FAIL (le 1 test)

end Sys2Proof.Machine
end

