-- ==== Sys2Proof/Machine/Describe.lean ====
section
/-!
DEFINITION. Machine/Describe.lean: the device descriptions (R554, R555) as functions of the state, and
what a change of one does.
-/

namespace Sys2Proof.Machine

open Sys2Proof

/-- Description of partition `p` below 8, or of the device at 8: its Risers, Runner ports, CXL ports. -/
def State.descRisers (s : State) (p : Nat) : List Nat := if p = 8 then List.range 8 else s.allocRisers p
def State.descPorts (s : State) (p : Nat) : List Nat :=
  (List.range 24).filter fun q => decide (p = 8) || decide (s.rnOwner q = some p)
def State.descCxl (s : State) (p : Nat) : List Nat :=
  (List.range 2).filter fun x => decide (p = 8) || decide (s.cxOwner x = some p)

/-- A router of a cluster or hub is declared bad (R271) on any network. -/
def State.anyRouterBad (s : State) (r : Nat) : Bool :=
  decide (s.rd (pgBulk r) NW_BSTAT_MODE = 3) || decide (s.rd (pgControl r) NW_CSTAT_STATE = 3) || decide (s.rd (pgSync r) NW_SSTAT_STATE = 3)

/-- A vertical link is in service: none of its groups failed (R314). -/
def State.linkUp (s : State) (n v : Nat) : Bool := (linkGroups v).all fun g => decide (s.groupState n g ≠ 3)

/-- A unit is fenced or absent; one in reset is as its FENCE says. -/
def State.gone (s : State) (pg : Nat) : Bool :=
  match s.service pg with
  | 0 => false
  | 3 => s.on pg PAGE_CTRL_FENCE
  | _ => true

/-- Table 14-11. -/
def State.clusterEntry (s : State) (k : Nat) : Nat :=
  let out (pg : Nat) := s.gone pg
  s.rd (pgCluster k) CL_MX_MAP_PHYS + 2 ^ 12 * (out (pgCluster k)).toNat +
    2 ^ 13 * maskOf 4 (fun i => out (pgMatrix (4 * k + i))) + 2 ^ 17 * (out (pgClMover k)).toNat +
    2 ^ 18 * (s.anyRouterBad k).toNat + 2 ^ 24 * maskOf 8 (fun i => out (pgGcore (8 * k + i))) +
    2 ^ 32 * s.rd (pgCluster k) CL_GC_MAP_PHYS

/-- A word of the cacheable or retention ranges. -/
def State.rangeWord (s : State) (n i : Nat) (B C V : Fld) : Nat := s.word (pgSlice n) [B, C, V] i

/-- Table 14-10. Its columns of bytes add up to 4 more than its offsets before RET_WAYS; every field is kept
whole and the record at its 192 bytes (log entry 50, DESIGN CHOICE). -/
def State.riserRecord (s : State) (n : Nat) : Bytes :=
  let present := s.on pgBu BU_DIE_REV_PRESENT n && !bit (s.rd pgBu BU_REDUCED_ABSENT) n &&
    !s.on pgBu BU_DIE_REV_FENCED n
  let flags := present.toNat + 2 * (bit (s.rd pgBu BU_REDUCED_DIES) n).toNat +
    4 * (bit (s.rd pgBu BU_REDUCED_RISER_ABSENT) n).toNat +
    8 * (s.on pgHk PD_VBR_CEILING (2 * n) || s.on pgHk PD_VBR_CEILING (2 * n + 1)).toNat
  let m := maskOf
  le 1 n ++ le 1 flags ++ le 1 (s.rd pgBu BU_DIE_REV_STEPPING n) ++ le 1 (m 8 (s.linkUp n)) ++
    le 4 (m 32 fun g => decide (s.groupState n g = 2)) ++
    le 4 (m 32 fun g => (aget {} s.wires (32 * n + g)).upper) ++ le 4 0 ++
    ((List.range 10).map fun k => le 8 (s.clusterEntry (10 * n + k))).flatten ++
    ((List.range 32).map fun c => le 1 (s.word (pgChannel (32 * n + c)) [MC_STATUS_STATE, MC_STATUS_HALF_UPPER] 0)).flatten ++
    le 4 (s.word (pgSlice n) sbRegionsFields 0) ++
    ((List.range 4).map fun i => le 4 (s.rangeWord n i SB_CRANGE_BASE SB_CRANGE_COUNT SB_CRANGE_VALID)).flatten ++
    ((List.range 2).map fun i => le 4 (s.rangeWord n i SB_RRANGE_BASE SB_RRANGE_COUNT SB_RRANGE_VALID)).flatten ++
    le 1 (s.rd (pgSlice n) SB_CACHE_CTRL_RET_WAYS) ++ le 1 (m 4 fun j => s.gone (pgSlMover (4 * n + j))) ++ le 34 0

/-- Table 14-12: the last ACTIVE figures. -/
def State.portRecord (s : State) (q : Nat) : Bytes :=
  let sh := (s.port q).shown
  let fl := (s.rnOwner q).isSome.toNat + 2 * (s.rd (pgRunner q) RN_PSTAT_SCHED_OK) +
    4 * (bit (s.rd pgMordant MD_FOREIGN_PORTS) q).toNat
  le 1 q ++ le 1 fl ++ le 1 ((s.rnOwner q).getD 0) ++ le 1 (sh.getD 0 0) ++ le 1 (sh.getD 1 0) ++
    le 1 (sh.getD 2 0) ++ le 1 (sh.getD 3 0) ++ le 1 (sh.getD 4 0) ++ le 2 (sh.getD 5 0) ++ le 6 0

/-- Table 14-13. -/
def State.cxlRecord (s : State) (x : Nat) : Bytes :=
  let m := maskOf
  let fl := (s.cxOwner x).isSome.toNat + 2 * s.rd (pgCxl x) CX_STATUS_X8 + 4 * s.rd (pgCxl x) CX_STATUS_RATE32
  le 1 x ++ le 1 fl ++ le 1 ((s.cxOwner x).getD 0) ++ le 1 (m 4 fun t => s.on (pgCxl x) CX_TARGET_PRESENT t) ++
    le 1 (m 8 fun d => s.on (pgCxl x) CX_DEC_CTRL_COMMITTED d) ++ le 11 0

/-- The description of partition `p`, or of the device at 8 (R554). -/
def State.descOf (s : State) (p : Nat) : Bytes :=
  let rs := s.descRisers p
  let ps := s.descPorts p
  let xs := s.descCxl p
  let len := 64 + 192 * rs.length + 16 * (ps.length + xs.length)
  let pl := s.word pgParting [MC_PL_STATE_CD, MC_PL_STATE_DC, MC_PL_STATE_CD_UPPER, MC_PL_STATE_DC_UPPER] 0
  le 4 0x43534456 ++ le 2 1 ++ le 1 s.fuse.variant ++ le 1 (s.rd pgBu BU_LEVEL_LEVEL) ++
    le 4 (s.rd pgBu BU_LEVEL_FEATURES) ++ le 1 (if p = 8 then 0xFF else p) ++ le 1 s.partCount ++
    le 1 (if p = 8 then 0 else p * s.partSize) ++ le 1 rs.length ++ le 2 (if p = 8 then 0 else (s.part p).seed) ++
    le 1 ps.length ++ le 1 xs.length ++
    ([1, 3, 4, 6].map fun n => le 1 (s.rd (pgBulk (80 + n)) NW_PL_RESV_CYCLES)).flatten ++
    le 1 pl ++ le 1 s.fuse.baseStepping ++ le 2 s.powerLimit ++ le 4 len ++ le 2 s.ceiling ++ le 30 0 ++
    (rs.map s.riserRecord).flatten ++ (ps.map s.portRecord).flatten ++ (xs.map s.cxlRecord).flatten

/-- A description formed earlier is compared with what it now is; a change raises BU_DESC_CHANGED and
advances its generation (R555). -/
def State.descNotice (s : State) (p : Nat) : State :=
  match s.descs.find? fun e => decide (e.1 = p) with
  | none => s
  | some e =>
    let b := s.descOf p
    if b = e.2.bytes then s
    else
      let g := (e.2.gen + 1) % 2 ^ 32
      ({ s with descs := ains p { bytes := b, gen := g } s.descs }).raise pgBu ev_BU_DESC_CHANGED
        (le 1 (if p = 8 then 0xFF else p) ++ le 3 0 ++ le 4 g ++ (sha256 b).take 8)

/-- Every description formed is brought up to date. -/
def State.redescribe (s : State) : State := (s.descs.map fun e => e.1).foldl State.descNotice s

/-- A description is formed at allocation, its generation 0. -/
def State.formDesc (s : State) (p : Nat) : State :=
  { s with descs := ains p { bytes := s.descOf p, gen := 0 } s.descs }

/-- What a command answers whose effect may change a description. -/
def finishD (l : List Comp) (s t : State) : Host.Outcome State Fault Refusal := finish l s t.redescribe

end Sys2Proof.Machine
end

