-- ==== Sys2Proof/Machine/Cache.lean ====
section
/-!
DEFINITION. Machine/Cache.lean: the slices' caches (R328 to R334, R338), far-tier lines with their
counters (R475, R476), and memory as an unscheduled access sees it.
-/

namespace Sys2Proof.Machine

open Sys2Proof

/-! ### Lines and sets

A line's number is R330's L; a line of another package's memory carries 2^56 besides, so that it never
meets a local line. -/

/-- The lowest Riser of a partition. -/
def State.firstRiser (s : State) (p : Nat) : Nat := p * s.partSize

/-- The home slice of a CXL or remote address for partition `p` (Table 9-2). -/
def State.farSlice (s : State) (p a : Nat) : Nat := s.firstRiser p + a / 2 ^ 8 % s.partSize

/-- Some valid range of `k` SB_CRANGE or SB_RRANGE registers holds a Riser offset. -/
def State.inRange (s : State) (n o k : Nat) (B C V : Fld) : Bool :=
  (List.range k).any fun i => s.on (pgSlice n) V i &&
    decide (s.rd (pgSlice n) B i ≤ o / 2 ^ 26 ∧ o / 2 ^ 26 < s.rd (pgSlice n) B i + s.rd (pgSlice n) C i)

/-- The DRAM local offset lies in a cacheable range of its home slice. -/
def State.cacheable (s : State) (o : Nat) : Bool :=
  s.inRange (o / 0x1400000000) (o % 0x1400000000) 4 SB_CRANGE_BASE SB_CRANGE_COUNT SB_CRANGE_VALID

/-- A DRAM line number lies in a retention range (R330). -/
def State.retainedLine (s : State) (n line : Nat) : Bool :=
  decide (line * 256 < 0xA000000000) && decide (line * 256 / 0x1400000000 = n) &&
    s.inRange n (line * 256 % 0x1400000000) 2 SB_RRANGE_BASE SB_RRANGE_COUNT SB_RRANGE_VALID

/-- A line of a slice's cache. -/
def SliceUnit.find (u : SliceUnit) (line : Nat) : Option CLine := u.lines.find? fun l => decide (l.line = line)

/-- A line put in place of the one with its number. -/
def SliceUnit.put (u : SliceUnit) (l : CLine) : SliceUnit :=
  { u with lines := l :: u.lines.filter fun x => decide (x.line ≠ l.line) }

def SliceUnit.drop (u : SliceUnit) (line : Nat) : SliceUnit :=
  { u with lines := u.lines.filter fun x => decide (x.line ≠ line) }

/-- The lines that `n` bytes from `a` touch, each with the mask of touched sectors and of sectors
wholly inside. -/
def linesOf (a n : Nat) : List (Nat × Nat × Nat) :=
  if n = 0 then []
  else (List.range ((a + n - 1) / 256 - a / 256 + 1)).map fun k =>
    let l := a / 256 + k
    (l, maskOf 4 (fun i => decide (a < l * 256 + 64 * i + 64 ∧ l * 256 + 64 * i < a + n)),
      maskOf 4 (fun i => decide (a ≤ l * 256 + 64 * i ∧ l * 256 + 64 * i + 64 ≤ a + n)))

/-- Every bit of `m` is set in `v`. -/
def hasAll (v m : Nat) : Bool := decide (v &&& m = m)

/-- The number of bits set. -/
def popCount (m : Nat) : Nat := ((List.range (bitLen m)).filter fun i => bit m i).length

/-! ### Far-tier counters (R475, R476) -/

/-- The line of a CXL port whose range has TAGS. -/
def State.taggedLine (s : State) (line : Nat) : Bool :=
  match homeOf (line * 256) with
  | .cxl x f => s.cxTags x f
  | _ => false

/-- CTR of a far-tier line (log entry 4: none stored counts 0). -/
def State.ctr (s : State) (line : Nat) : Nat := aget 0 s.ctrs line

/-- A write to a far-tier line raises its CTR; past 0xFF_FFFF it is refused: CX_CTR_EXHAUST. The
second part says whether the write may be made. -/
def State.stepCtr (s : State) (x line : Nat) : State × Bool :=
  if !s.taggedLine line then (s, true)
  else if s.ctr line < 0xFFFFFF then ({ s with ctrs := aset 0 s.ctrs line (s.ctr line + 1) }, true)
  else (((s.bump (pgCxl x) CX_TAGFAIL_CTR_EXHAUST).raise (pgCxl x) ev_CX_CTR_EXHAUST
    (le 8 (0xFFFF * 2 ^ 48 + line * 256))), false)

/-- The counters of several lines, raised where all of them can be. -/
def State.stepCtrs (s : State) (x : Nat) (l : List Nat) : State × Bool :=
  match l.find? fun line => (s.stepCtr x line).2 == false with
  | some line => ((s.stepCtr x line).1, false)
  | none => (l.foldl (fun s line => (s.stepCtr x line).1) s, true)

/-! ### Write-back (R331, R334, R477) -/

/-- A write-back discarded: SB_WB_LOST. -/
def State.wbLost (s : State) (n line mask : Nat) : State :=
  (s.bump (pgSlice n) SB_WB_LOST_COUNT).raise (pgSlice n) ev_SB_WB_LOST
    (le 8 (0xFFFF * 2 ^ 48 + line * 256) ++ le 1 mask)

/-- The sectors of `mask` of a line written to their home memory with their poison. -/
def State.homeWrite (s : State) (l : CLine) (mask : Nat) : State :=
  (List.range 4).foldl (fun s i =>
    if bit mask i then s.writeMem (l.line * 256 + 64 * i) (slice l.data (64 * i) 64) (if bit l.poison i then 1 else 0)
    else s) s

/-- The dirty sectors of a line of slice `n` are written back; the line stays, clean. -/
def State.writeBack (s : State) (n : Nat) (l : CLine) : State :=
  if l.dirty = 0 then s
  else
    let s1 := s.modSl n fun u => u.put { l with dirty := 0 }
    let done (s : State) := (s.homeWrite l l.dirty).bump (pgSlice n) SB_WB_COUNT (popCount l.dirty)
    match homeOf (l.line * 256) with
    | .cxl x _ =>
      if !s.cxUp x then s1.wbLost n l.line l.dirty
      else
        let r := s1.stepCtr x l.line
        if r.2 then done r.1 else r.1
    | .dram _ => if s.deadAt (l.line * 256) then s1.wbLost n l.line l.dirty else done s1
    | _ => done s1

/-- Every dirty line of slice `n` is written back. -/
def State.writeBackAll (s : State) (n : Nat) : State :=
  (s.sl n).lines.foldl (fun s l => s.writeBack n l) s

/-- Dirty sectors of a slice (SB_DIRTY). -/
def State.dirtyCount (s : State) (n : Nat) : Nat := ((s.sl n).lines.map fun l => popCount l.dirty).sum

/-! ### Allocation (R330) -/

/-- Ways of a set open to a line: retained lines have RET_WAYS, the others the rest. -/
def State.waysFor (s : State) (n : Nat) (ret : Bool) : Nat :=
  let w := s.rd (pgSlice n) SB_CACHE_CTRL_RET_WAYS
  if ret then w else 16 - w

/-- The lines of a group of one set of slice `n`. -/
def State.setLines (s : State) (n line : Nat) (ret : Bool) : List CLine :=
  let sets := max 1 (256 * s.cacheMb n)
  (s.sl n).lines.filter fun l => decide (l.line % 2 ^ 56 % sets = line % 2 ^ 56 % sets) && (l.retained == ret)

/-- The least recently used of a list of lines. -/
def oldest : List CLine → Option CLine
  | [] => none
  | l :: ls => match oldest ls with
    | none => some l
    | some m => if l.used ≤ m.used then some l else some m

/-- A line is allocated in slice `n`, evicting the least recently used of a full group. -/
def State.allocate (s : State) (n line : Nat) : State :=
  let ret := s.retainedLine n line && decide (0 < s.rd (pgSlice n) SB_CACHE_CTRL_RET_WAYS)
  let grp := s.setLines n line ret
  let s1 :=
    if grp.length < s.waysFor n ret then s
    else match oldest grp with
      | none => s
      | some v => (s.writeBack n v).modSl n fun u => u.drop v.line
  s1.modSl n fun u => { (u.put { line := line, retained := ret, data := List.replicate 256 0, used := u.clock }) with clock := u.clock + 1 }

/-- A line was used. -/
def State.touch (s : State) (n : Nat) (l : CLine) : State :=
  s.modSl n fun u => { (u.put { l with used := u.clock }) with clock := u.clock + 1 }

/-- Sectors of a line joined to those being filled, since the cycle in which the first were asked for. -/
def State.addFill (s : State) (n line mask : Nat) : State :=
  s.modSl n fun u =>
    { u with fillAt := if aget 0 u.fills line % 16 = 0 then ains line s.cycles u.fillAt else u.fillAt
             fills := aupd 0 u.fills line fun m => m ||| mask }

/-- Where the lines of an access are cached: the slice of each line, none where its slice has no cache. -/
abbrev Via := Nat → Option Nat

/-- The cached copy of a line, with its slice. -/
def State.lineAt (s : State) (f : Via) (line : Nat) : Option (Nat × CLine) :=
  match f line with
  | some n => ((s.sl n).find line).map fun l => (n, l)
  | none => none

/-- The byte at `a` as an access through the caches sees it. -/
def State.cByte (s : State) (f : Via) (a : Nat) : Byte :=
  match f (a / 256) with
  | none => s.getB a
  | some _ => match s.lineAt f (a / 256) with
    | some (_, l) => l.data.getD (a % 256) 0
    | none => 0

/-- The sectors of a line that an access must find valid: all it touches, but for a write those it covers
whole (R331). -/
def needOf (write : Bool) (e : Nat × Nat × Nat) : Nat :=
  if write then e.2.1 - (e.2.1 &&& e.2.2) else e.2.1

/-- Every line of a range that has a cache is cached, with the sectors the access needs valid. -/
def State.cHolds (s : State) (f : Via) (a n : Nat) (write : Bool) : Bool :=
  (linesOf a n).all fun e =>
    match f e.1 with
    | none => true
    | some _ => match s.lineAt f e.1 with
      | some (_, l) => hasAll l.valid (needOf write e)
      | none => false

/-- The sector at `x` is poisoned, as an access through the caches sees it. -/
def State.cBad (s : State) (f : Via) (x : Nat) : Bool :=
  match f (x / 256) with
  | none => s.poisoned x || s.deadAt x
  | some _ => match s.lineAt f (x / 256) with
    | some (_, l) => bit l.poison (x / 64 % 4)
    | none => false

/-- A read through the caches, with the poison of each payload sector. -/
def State.cRead (s : State) (f : Via) (a n : Nat) : Bytes × Nat :=
  ((List.range n).map fun i => s.cByte f (a + i),
    maskOf ((n + 63) / 64) fun i => (sectors (a + 64 * i) (min 64 (n - 64 * i))).any (s.cBad f))

/-- A write into one cached line: sectors become valid and dirty, poison by R240. -/
def CLine.write (l : CLine) (e : Nat × Nat × Nat) (a : Nat) (d : Bytes) (poison : Nat) (dirty : Bool) : CLine :=
  let b := e.1 * 256
  let lo := max a b
  let hi := min (a + d.length) (b + 256)
  let pz := maskOf 4 fun i =>
    if bit e.2.1 i then dataBad a d.length poison (b + 64 * i) || (!bit e.2.2 i && bit l.poison i)
    else bit l.poison i
  { l with
    data := slice l.data 0 (lo - b) ++ slice d (lo - a) (hi - lo) ++ slice l.data (hi - b) (b + 256 - hi)
    poison := pz
    valid := l.valid ||| e.2.1
    dirty := if dirty then l.dirty ||| e.2.1 else l.dirty }

/-- A write through the caches; what no cache takes goes to its home memory. -/
def State.cWrite (s : State) (f : Via) (a : Nat) (d : Bytes) (poison : Nat) (dirty : Bool) : State :=
  (linesOf a d.length).foldl (fun s e =>
    match f e.1 with
    | none =>
      let lo := max a (e.1 * 256)
      let hi := min (a + d.length) (e.1 * 256 + 256)
      let pz := maskOf 5 fun i => dataBad a d.length poison (lo / 64 * 64 + 64 * i)
      s.writeMem lo (slice d (lo - a) (hi - lo)) pz
    | some _ => match s.lineAt f e.1 with
      | some (n, l) => s.modSl n fun u => u.put (l.write e a d poison dirty)
      | none => s) s

/-! ### Which accesses a cache serves -/

/-- The slice whose cache an unscheduled local access goes through: DRAM inside a cacheable range, and
every far-tier access, while that cache is not empty (R328, R329, R338). -/
def State.cacheSlice (s : State) (o : Nat) (part : Option Nat) : Option Nat :=
  match homeOf o with
  | .dram r => if s.cacheable o && decide (0 < s.cacheMb r) then some r else none
  | .cxl x _ =>
    match (match s.cxOwner x with | some p => some p | none => part) with
    | some p => if 0 < s.cacheMb (s.farSlice p o) then some (s.farSlice p o) else none
    | none => none
  | _ => none

/-- The slice that may hold a copy of another package's memory for a general core of partition `p`
(R413). -/
def State.remoteSlice (s : State) (p a : Nat) : Option Nat :=
  if 0 < s.cacheMb (s.farSlice p a) then some (s.farSlice p a) else none

/-- The caches an access to `n` bytes of local offset `o` goes through; none where no line of it has one. -/
def State.viaLocal (s : State) (o n : Nat) (part : Option Nat) : Option Via :=
  let f : Via := fun line => s.cacheSlice (line * 256) part
  if (linesOf o n).any fun e => (f e.1).isSome then some f else none

/-- The cached copy of the sector of local offset `a`, where it is valid. -/
def State.copyOf (s : State) (f : Via) (a : Nat) : Option (Nat × CLine) :=
  match s.lineAt f (a / 256) with
  | some (n, l) => if bit l.valid (a / 64 % 4) then some (n, l) else none
  | none => none

/-- Sectors of a line that arrived are installed with their poison. -/
def CLine.fill (l : CLine) (mask : Nat) (d : Bytes) (poison : Nat) : CLine :=
  (List.range 4).foldl (fun l i =>
    if bit mask i && !bit l.valid i then
      { l with valid := l.valid + 2 ^ i, poison := setBit l.poison i (bit poison i)
               data := slice l.data 0 (64 * i) ++ slice d (64 * i) 64 ++ slice l.data (64 * i + 64) (192 - 64 * i) }
    else l) l

/-- An unscheduled access to `n` bytes from local offset `o` by an engine of partition `part` comes to the caches of its lines: a line that has
what the access needs is hit; else it is allocated, and the sectors it lacks are brought from its home (R328 to R331, R475). -/
def State.cacheIn (s : State) (o n : Nat) (part : Option Nat) (write : Bool) : State :=
  (linesOf o n).foldl (fun s e =>
    match s.cacheSlice (e.1 * 256) part with
    | none => s
    | some k =>
      let old := (s.sl k).find e.1
      let have_ := (old.map CLine.valid).getD 0
      let need := needOf write e
      let lack := if need - (need &&& have_) ≠ 0 ∧ s.taggedLine e.1 then 15 - have_ else need - (need &&& have_)
      match old with
      | some l =>
        if lack = 0 then (s.touch k l).bump (pgSlice k) SB_HIT_COUNT
        else
          let d := s.readMem (e.1 * 256) 256
          let s1 := (s.bump (pgSlice k) SB_MISS_COUNT).modSl k fun u => u.put (l.fill lack d.1 d.2)
          { s1 with free := s.free + 1 }
      | none =>
        let d := s.readMem (e.1 * 256) 256
        let s1 := ((s.allocate k e.1).bump (pgSlice k) SB_MISS_COUNT).modSl k fun u => match u.find e.1 with
          | some l => u.put (l.fill lack d.1 d.2)
          | none => u
        { s1 with free := s1.free + 1 }) s

/-- Memory as an unscheduled reader sees it: cached sectors first, then the home memory (R328, R331). -/
def State.peek (s : State) (o n : Nat) (part : Option Nat) : Bytes × Nat :=
  let f : Via := fun line => s.cacheSlice (line * 256) part
  let m := s.readMem o n
  ((List.range n).map fun i => match s.copyOf f (o + i) with
      | some (_, l) => l.data.getD ((o + i) % 256) 0
      | none => m.1.getD i 0,
    maskOf ((n + 63) / 64) fun i => (sectors (o + 64 * i) (min 64 (n - 64 * i))).any fun x => match s.copyOf f x with
      | some (_, l) => bit l.poison (x / 64 % 4)
      | none => s.poisoned x || s.deadAt x)

/-- An unscheduled write as it lands, sector by sector: in a line that holds the sector or that it writes whole, else in the home memory. -/
def State.poke (s : State) (o : Nat) (d : Bytes) (poison : Nat) (part : Option Nat) : State :=
  (sectors o d.length).foldl (fun s x =>
    let lo := max o x
    let hi := min (o + d.length) (x + 64)
    let c := slice d (lo - o) (hi - lo)
    let pz := if dataBad o d.length poison x then 1 else 0
    match s.lineAt (fun line => s.cacheSlice (line * 256) part) (x / 256) with
    | some (n, l) =>
      if bit l.valid (x / 64 % 4) || decide (lo = x ∧ hi = x + 64) then
        s.modSl n fun u => u.put (((linesOf lo (hi - lo)).head?.map fun e => l.write e lo c pz true).getD l)
      else s.writeMem lo c pz
    | none => s.writeMem lo c pz) s

/-! ### Scheduled runs within a cacheable range (R332) -/

/-- The cacheable ranges, by slice, that hold some of the DRAM local offsets `os`: slice, local address and length of each. -/
def State.rangesWith (s : State) (os : List Nat) : List (Nat × Nat × Nat) :=
  ((os.map fun o => o / 0x1400000000).eraseDups.map fun n => (List.range 4).filterMap fun i =>
    let b := s.rd (pgSlice n) SB_CRANGE_BASE i
    let k := s.rd (pgSlice n) SB_CRANGE_COUNT i
    if s.on (pgSlice n) SB_CRANGE_VALID i &&
        os.any (fun o => decide (o / 0x1400000000 = n ∧ b ≤ o % 0x1400000000 / 2 ^ 26 ∧ o % 0x1400000000 / 2 ^ 26 < b + k)) then
      some (n, n * 0x1400000000 + b * 2 ^ 26, k * 2 ^ 26)
    else none).flatten

/-- Home and copies of a range become undefined: free values. -/
def State.spoil (s : State) (e : Nat × Nat × Nat) : State :=
  let s1 := s.undefine e.2.1 e.2.2
  { (s1.modSl e.1 fun u =>
      { u with lines := u.lines.map fun l =>
          if e.2.1 ≤ l.line * 256 ∧ l.line * 256 < e.2.1 + e.2.2 then { l with data := Config.freeBytes s1.free 256 } else l }) with
    free := s1.free + 1 }

/-- A scheduled run on the sectors at these local addresses spoils every cacheable range in which one lies. -/
def State.spoilRun (s : State) (as : List Nat) : State := (s.rangesWith as).foldl State.spoil s

end Sys2Proof.Machine
end

