-- ==== Sys2Proof/Machine/Banks.lean ====
section
/-!
DEFINITION. Machine/Banks.lean: the banks of cluster memories and slices (R199 to R205, R319, R323, R324, R327): who is granted a
bank's port in a core cycle, who waits, merged reads, and what a read sees of a write of its own cycle.

An access is granted in the first cycle in which every port it needs is free and no access before it in the order waits for one of
them (log entry 126). Its row acts on being granted; one that waits acts as the cycle of its grant begins.
-/

namespace Sys2Proof.Machine

open Sys2Proof

/-! ### Banks -/

/-- The bank of a local address in a cluster memory (R199) or a slice (R319). -/
def bankOfLocal (a : Nat) : Option Nat :=
  match homeOf a with
  | .cluster k o => some (32 * k + o / 128 % 32)
  | .slice n o => some (2560 + 16 * n + o / 128 % 16)
  | _ => none

/-- The bank of address `a` of an access through the caches `f`. Where in a slice a cached sector lies is not stated: it is taken to
lie in the bank its address names (log entry 126). -/
def bankVia (f : Option Via) (a : Nat) : Option Nat :=
  match f.bind fun g => g (a / 256) with
  | some n => some (2560 + 16 * n + a / 128 % 16)
  | none => bankOfLocal a

/-- The slice that a bank lies in, or the cluster. -/
def bankUnit (b : Nat) : Nat := if b < 2560 then pgCluster (b / 32) else pgSlice ((b - 2560) / 16)

/-- The sectors of `n` bytes from `a`, each with its bank. -/
def bankSectors (f : Option Via) (a n : Nat) : List (Nat × Nat) := (sectors a n).filterMap fun x => (bankVia f x).map fun b => (b, x)

/-- The number of accesses each port makes for these sectors: a read takes up to 128 bytes; a write up to 64 of a cluster memory and
128 of a slice (R199, R319). -/
def portUses (write : Bool) (l : List (Nat × Nat)) : List (Nat × Nat) :=
  let unit (e : Nat × Nat) : Nat := if write && decide (e.1 < 2560) then e.2 / 64 else e.2 / 128
  let us := (l.map fun e => (e.1, unit e)).dedup
  ((us.map fun e => e.1).dedup).map fun b => (2 * b + (if write then 1 else 0), (us.filter fun e => decide (e.1 = b)).length)

/-! ### What the movers move -/

/-- The sectors that a booking moves in cycle `c`. -/
def BankBook.at_ (k : BankBook) (cps c : Nat) : List Nat :=
  let i : Option Nat :=
    if c < k.start then none
    else if k.sched then
      (if scheduled cps c && decide (epochOf cps c = epochOf cps k.start) then some (schedIdx cps c - schedIdx cps k.start) else none)
    else some (c - k.start)
  match i with
  | some i => (k.sectors.drop (8 * k.rate * i)).take (8 * k.rate)
  | none => []

/-- The words it reads, and the words it writes, in that cycle. -/
def BankBook.words (k : BankBook) (cps c : Nat) : Nat × Nat :=
  let n := ((k.at_ cps c).length + 7) / 8
  (if k.how = 1 then 0 else n, if k.how = 0 then 0 else n)

/-- The cycles in which a booking moves something. -/
def BankBook.cycles (k : BankBook) (cps : Nat) : List Nat :=
  (List.range ((k.sectors.length + 8 * k.rate - 1) / (8 * k.rate))).map fun i =>
    if k.sched then schedCycle cps (epochOf cps k.start) (schedIdx cps k.start + i) else k.start + i

/-- A new booking exceeds, with those of its slice, four words read or four written in a cycle (R324). -/
def State.bookClash (s : State) (k : BankBook) : Bool :=
  let same := s.banks.books.filter fun e => decide (80 ≤ e.mover ∧ e.mover / 4 = k.mover / 4) && (decide (e.mover = k.mover) || (s.mover e.mover).xfer.isSome)
  (k.cycles s.cps).any fun c =>
    let ws : List (Nat × Nat) := (k :: same).map fun e => e.words s.cps c
    decide (80 ≤ k.mover) && decide (4 < (ws.map fun e => e.1).sum ∨ 4 < (ws.map fun e => e.2).sum)

def State.modBanks (s : State) (f : Banks → Banks) : State := { s with banks := f s.banks }

/-! ### Grants (R200, R202, R323) -/

/-- A scheduled port: a matrix core's, a cluster mover's, a router's, a slice mover's. -/
def schedPort (page : Nat) : Bool := [0x0011, 0x0013, 0x0014, 0x0034].contains (pgType page)

/-- The place of a requester in the order of a bank of unit `home` (R200, R323): scheduled ports, then a cluster's general cores in their
windows by number, then regulated requests by descending level, patrol's among them (R224). -/
def State.bankRank (s : State) (home page level : Nat) (sched : Bool) : Nat :=
  let u := aget {} s.gcores (pgInst page)
  if sched then 0
  else if pgType page = 0x0012 ∧ home = pgCluster (pgInst page / 8) ∧ u.inWindow = true ∧ u.patrol = false then 1 + pgInst page % 8
  else 100 + 7 - min 7 level

/-- Someone is not granted a port of unit `home` in a cycle: a scheduled port has a schedule slip; a general core loses a cycle of its
cluster (CL_BANK_WAIT counts those of general cores); a request waits at a slice (SB_BANK_WAIT). -/
def State.bankLost (s : State) (home page : Nat) (sched : Bool) : State :=
  if sched then
    let p := (s.ownerOf home).getD 0
    s.slip page p (s.relEpoch p) s.slot s.cycle 0
  else if pgType home = 0x0030 then s.bump home SB_BANK_WAIT_COUNT
  else if pgType page = 0x0012 then s.bump home CL_BANK_WAIT_COUNT
  else s

/-- The ports are free in this cycle for one of place `rank`: free since before, or granted in this cycle to one that comes after it in
the order. -/
def State.portsFree (s : State) (rank : Nat) (need : List (Nat × Nat)) : Bool :=
  need.all fun e =>
    let u := aget {} s.banks.ports e.1
    decide (u.free ≤ s.cycles) || decide (u.at_ = s.cycles ∧ rank < u.rank)

/-- An access waiting for one of the ports stands before a newcomer of place `rank`. -/
def waitsBefore (l : List BankWait) (rank : Nat) (need : List (Nat × Nat)) : Bool :=
  l.any fun w => decide (w.rank ≤ rank) && w.need.any fun e => need.any fun k => decide (k.1 = e.1)

/-- The ports are granted. One that had been granted in this cycle to an access later in the order goes to this one, and the other
loses the cycle: it is done one cycle later. -/
def State.takePorts (s : State) (rank page : Nat) (need : List (Nat × Nat)) : State :=
  need.foldl (fun s e =>
    let u := aget {} s.banks.ports e.1
    let taken := decide (s.cycles < u.free)
    let s1 := if taken then s.bankLost (bankUnit (e.1 / 2)) u.page (u.rank = 0) else s
    let v : BankPort := { free := (if taken then u.free else s.cycles) + e.2, at_ := s.cycles, rank := rank, page := page }
    s1.modBanks fun b => { b with ports := aset {} b.ports e.1 v }) s

/-! ### Merged reads (R204, R205, R327) -/

/-- A merge window is open on the sector in the current cycle. -/
def State.merges (s : State) (e : Nat × Nat) : Bool :=
  s.banks.windows.any fun w => decide (w.1 = e.1 ∧ w.2.1 = e.2 ∧ s.cycles ≤ w.2.2)

/-- A read of a sector is granted: a window opens for this cycle and the 7 after it; a fifth of its bank closes the oldest. -/
def State.openWindow (s : State) (e : Nat × Nat) : State :=
  s.modBanks fun b =>
    let live := b.windows.filter fun w => decide (s.cycles ≤ w.2.2)
    let mine := (live.filter fun w => decide (w.1 = e.1)).take 3
    { b with windows := (e.1, e.2, s.cycles + 7) :: live.filter fun w => decide (w.1 ≠ e.1) || mine.contains w }

/-- A write to a sector is granted: reads that arrive in a later cycle read the bank. -/
def State.closeWindow (s : State) (e : Nat × Nat) : State :=
  s.modBanks fun b => { b with windows := b.windows.map fun w => if w.1 = e.1 ∧ w.2.1 = e.2 then (w.1, w.2.1, min w.2.2 s.cycles) else w }

/-- A read is served: its merged sectors count, the others open windows. -/
def State.readSectors (s : State) (l : List (Nat × Nat)) : State :=
  l.foldl (fun s e =>
    if s.merges e then
      (if e.1 < 2560 then s.bump (bankUnit e.1) CL_MERGE_COUNT else s.bump (bankUnit e.1) SB_MERGE_COUNT)
    else s.openWindow e) s

/-! ### A read and a write of one cycle (R201) -/

/-- Sectors of a cluster memory are written: what they held before this cycle is kept. -/
def State.keepOld (s : State) (l : List (Nat × Nat)) : State :=
  let b0 := if s.banks.at_ = s.cycles then s.banks.old else []
  let new := (l.filter fun e => decide (e.1 < 2560) && b0.all fun o => decide (o.1 ≠ e.2)).map fun e => (e.2, s.getBs e.2 64, s.poisoned e.2)
  s.modBanks fun b => { b with at_ := s.cycles, old := b0 ++ new }

/-- Memory as a read of cycle `c` sees it: sectors of cluster memories written in that cycle as they stood before it. -/
def State.before (s : State) (c : Nat) : State :=
  if s.banks.at_ = c then s.banks.old.foldl (fun s e => (s.setBs e.1 e.2.1).setPoison e.1 e.2.2) s else s
def State.beforeCycle (s : State) : State := s.before s.cycles

/-- What a read of this cycle finds in the sector is poisoned: what the cycle's write put there is not what failed. -/
def State.hurtSector (s : State) (x : Nat) : State :=
  if s.banks.at_ = s.cycles ∧ s.banks.old.any (fun o => decide (o.1 = x)) then
    s.modBanks fun b => { b with old := b.old.map fun o => if o.1 = x then (o.1, o.2.1, true) else o }
  else s.setPoison x true

/-! ### An access at its banks -/

/-- What an access needs: the sectors it reads, and those it writes. -/
structure BankNeed where
  reads : List (Nat × Nat) := []
  writes : List (Nat × Nat) := []
  deriving DecidableEq, Repr

/-- The ports it takes in this cycle: reads that merge take none. -/
def State.needPorts (s : State) (n : BankNeed) : List (Nat × Nat) :=
  portUses false (n.reads.filter fun e => !s.merges e) ++ portUses true n.writes

/-- The first unit an access touches, if it lies in banks. -/
def BankNeed.home (n : BankNeed) : Option Nat := ((n.reads ++ n.writes).head?).map fun e => bankUnit e.1

/-- Its grant: ports, windows, what the cycle held before. -/
def State.granted (s : State) (rank page : Nat) (n : BankNeed) : State :=
  let s1 := (s.takePorts rank page (s.needPorts n)).readSectors n.reads
  n.writes.foldl State.closeWindow (s1.keepOld n.writes)

/-- Scheduled port `page` moves these sectors in the current cycle: it never waits; one that merges takes no port; where another
scheduled port has the bank's in this cycle, that is a slip (R200, R202, R204, R205). -/
def State.schedTake (s : State) (page : Nat) (reads writes : List Nat) : State :=
  let pairs (l : List Nat) : List (Nat × Nat) := l.filterMap fun x => (bankOfLocal x).map fun b => (b, x)
  let n : BankNeed := { reads := pairs reads, writes := pairs writes }
  let need := s.needPorts n
  let met (e : Nat × Nat) : Bool :=
    let u := aget {} s.banks.ports e.1
    decide (u.at_ = s.cycles ∧ u.rank = 0 ∧ s.cycles < u.free)
  let s1 := match need.find? met with
    | some e => s.bankLost (bankUnit (e.1 / 2)) page true
    | none => s
  n.writes.foldl State.closeWindow ((s1.takePorts 0 page (need.filter fun e => !met e)).readSectors n.reads)

/-- An access comes to its banks: with `turn` (R323, R412: no earlier request to its sectors stands before it) and its ports free, `go` is
what it does; else it waits as `work`. What lies in no bank waits for its turn alone. -/
def State.atBanks (s : State) (page level : Nat) (sched turn : Bool) (n : BankNeed) (work : BankWork) (go : State → State) : State :=
  match n.home with
  | none => if turn then go s else s
  | some home =>
    let rank := s.bankRank home page level sched
    let need := s.needPorts n
    if s.banks.wait.any fun w => decide (w.work = work) then s
    else if turn && s.portsFree rank need && !waitsBefore s.banks.wait rank need then go (s.granted rank page n)
    else (if turn then s.bankLost home page sched else s).modBanks fun b =>
      { b with wait := b.wait ++ [{ rank := rank, page := page, need := need, work := work }] }

/-- The waiting accesses in the order of R200 and R323: by place, then as they came. -/
def bankOrder (l : List BankWait) : List BankWait :=
  l.foldl (fun acc w => (acc.takeWhile fun x => decide (x.rank ≤ w.rank)) ++ w :: acc.dropWhile fun x => decide (x.rank ≤ w.rank)) []

end Sys2Proof.Machine
end

