-- ==== Sys2Proof/Machine/Requests.lean ====
section
/-!
DEFINITION. Machine/Requests.lean: requests and their statuses (R403 to R416), what a memory does with
them (READ, WRITE, WRITE_SHORT, ATOMIC, REDUCE), their answers (RESPONSE, REQUEST_TIMEOUT) and latency
regulation (R274).
-/

namespace Sys2Proof.Machine

open Sys2Proof

/-! ### Requesters -/

/-- The regulated class of a requester's requests at their origin (R416, Table 7-9), and whether it
travels on Indigo. -/
def classOf (src : Nat) : Nat :=
  match pgType src with
  | 0x0012 => 2
  | 0x0034 => 1
  | 0x0050 => 0
  | _ => 3
def indigo (cls : Nat) : Bool := cls == 0 || cls == 3 || cls == 5

/-- The control router at which a requester's requests are injected. The device-wide blocks' router is
the hub of Riser 0 on the Cope half, of Riser 4 on the Drag half (log entry 32). -/
def routerOf (src : Nat) : Nat :=
  let n := pgInst src
  match pgType src with
  | 0x0010 => n
  | 0x0011 => n / 4
  | 0x0012 => n / 8
  | 0x0013 => n
  | 0x0034 => 80 + n / 4
  | 0x0070 => if n < 8 then 80 else 84
  | _ => 80

/-- Destinations of the control network (R245): routers 0 to 87 for what a cluster or a hub holds, and from 88 on the device blocks: the
Sprue port, the two CXL ports, Mordant, housekeeping, bring-up, time, events, the management cores, the Runner ports, the device pages. -/
def blockDest (pg : Nat) : Nat :=
  let n := pgInst pg
  match pgType pg with
  | 0x0050 => 88
  | 0x0051 => 89 + n
  | 0x0060 => 91
  | 0x0061 => 92
  | 0x0062 => 93
  | 0x0063 => 94
  | 0x0064 => 95
  | 0x0070 => 96 + n
  | 0x0040 => 112 + n
  | _ => 136

/-- The router that a destination's packets leave the network at: hub 80 or 84 for device-wide blocks (log entry 32). -/
def routerAt (d : Nat) : Nat :=
  if d < 88 then d
  else if d = 90 ∨ (104 ≤ d ∧ d < 112) then 84
  else if 112 ≤ d ∧ d < 136 then 80 + (d - 112) / 3
  else 80

/-- The destination of a requester's responses. -/
def unitDest (pg : Nat) : Nat := if [0x0010, 0x0011, 0x0012, 0x0013, 0x0034].contains (pgType pg) then routerOf pg else blockDest pg

/-- The destination of a home: a page in control space goes to its cluster's or slice's router, or to a device block. -/
def homeDest : Home → Nat
  | .dram r => 80 + r
  | .slice n _ => 80 + n
  | .cluster k _ => k
  | .cxl x _ => 89 + x
  | .control o =>
    if 0x10000000 ≤ o ∧ o < 0x18000000 ∧ o % 0x01000000 < 0x00A00000 then 10 * (o / 0x01000000 - 0x10) + o % 0x01000000 / 0x00100000
    else if 0x28000000 ≤ o ∧ o < 0x28080000 then 80 + (o - 0x28000000) / 0x10000
    else 136
  | .none => 136

/-- The control router of a home. -/
def homeRouter (h : Home) : Nat := routerAt (homeDest h)

/-- Operation kinds of Table 11-3. -/
def isStore (op : Nat) : Bool := op == 0x02 || op == 0x03
def isAtomic (op : Nat) : Bool := decide (0x10 ≤ op ∧ op ≤ 0x17)
def isReduce (op : Nat) : Bool := decide (0x20 ≤ op ∧ op ≤ 0x22)
def isReg (op : Nat) : Bool := op == 0x30 || op == 0x31

/-! ### BAD-OP and MISALIGNED (R339, R404, R409, R410) -/

/-- Table 11-5: type `ty` may accompany operation `a`. -/
def typeOk (a ty : Nat) : Bool :=
  match a with
  | 0 => [0, 1, 4, 5].contains ty
  | 1 => decide (ty ≤ 4)
  | 2 => decide (ty ≤ 4)
  | _ => [6, 7].contains ty

def badOp (r : Req) : Bool :=
  if isAtomic r.op then
    !typeOk (r.op - 0x10) r.ty || (r.posted && (r.op == 0x13 || r.op == 0x14))
  else if isReduce r.op then !typeOk (r.op - 0x20) r.ty || r.posted
  else r.posted || !([0x01, 0x02, 0x03, 0x30, 0x31].contains r.op)

/-- `n` bytes from `a` lie within one aligned range of `w` bytes. -/
def within1 (a n w : Nat) : Bool := decide (a / w = (a + n - 1) / w)

/-- The address lies in control space. -/
def inControl (a : Nat) : Bool := match homeOf (localOf a) with | .control _ => true | _ => false

/-- The request is MISALIGNED; one to control space that is no REGRD or REGWR is of another width than R404's (DEDUCED, log entry 173). -/
def misaligned (r : Req) : Bool :=
  if isReg r.op then decide (r.addr % 4 ≠ 0)
  else if inControl r.addr then true
  else if isAtomic r.op then decide (r.addr % tyBytes r.ty ≠ 0)
  else if isReduce r.op then
    let e := if r.ty = 5 then 2 else tyBytes r.ty
    decide (r.len = 0 ∨ 2048 < r.len ∨ r.len % e ≠ 0) ||
      !within1 r.addr (if r.ty = 5 then 2 * r.len else r.len) 4096
  else if r.op = 0x03 then decide (r.len = 0 ∨ 32 < r.len) || !within1 r.addr r.len 64
  else decide (r.len = 0 ∨ 2048 < r.len) || !within1 r.addr r.len 4096

/-! ### The statuses of a target in this package (R406) -/

/-- The firmware region of a cluster memory (R64), which only the cluster's machine-mode cores and the
management cores enter (R206). -/
def fwRegion (off : Nat) : Bool := decide (0xBC0000 ≤ off)
def fwAllowed (k : Nat) (r : Req) : Bool :=
  decide (pgType r.src = 0x0070) || (r.machine && decide (pgType r.src = 0x0012 ∧ pgInst r.src / 8 = k))

/-- Control space admits management cores, Mordant, the Sprue port, and machine-mode cluster firmware
for the pages of its own cluster (R404). -/
def ctrlAllowed (off : Nat) (r : Req) : Bool :=
  r.via.isNone &&
    ([0x0050, 0x0060, 0x0070].contains (pgType r.src) ||
      (r.machine && decide (pgType r.src = 0x0012) &&
        decide (0x10000000 ≤ off ∧ off / 0x01000000 - 0x10 = pgInst r.src / 80 ∧
          off % 0x01000000 / 0x00100000 = pgInst r.src / 8 % 10)))

def State.unmapped (s : State) : Home → Bool
  | .none => true
  | .cxl x f => (s.cxDec x f false).isNone && (s.cxDec x f true).isNone
  | _ => false

def State.partDenied (s : State) (r : Req) (h : Home) : Bool :=
  match h with
  | .control _ => false
  | _ => match r.part with
    | none => false
    | some p => !s.unmapped h && decide (s.homePart h ≠ some p)

def State.regionDenied (s : State) (r : Req) (h : Home) : Bool :=
  match h with
  | .slice n o =>
    if isAtomic r.op || isReduce r.op then !s.inAtomic n o else isReg r.op || s.inCache n o
  | .cluster k o => isAtomic r.op || isReduce r.op || isReg r.op || (fwRegion o && !fwAllowed k r)
  | .control o => !isReg r.op || !ctrlAllowed o r
  | .cxl x f => isReg r.op || (s.cxDec x f true).isSome
  | .dram _ => isReg r.op
  | .none => false

/-- Requesters to whom the memory of a sealed partition is closed (R516). -/
def State.sealedTo (s : State) (r : Req) (h : Home) : Bool :=
  (match s.homePart h with | some p => s.sealed p | none => false) &&
    [0x0050, 0x0060, 0x0070].contains (pgType r.src)

/-- The first failed check of a request to this package, in R406's order; 0 where none fails. During a COMPUTE reset
inbound requests are served again once stage 7 of the re-run has completed (R549). -/
def State.localStatus (s : State) (r : Req) : Nat :=
  let h := homeOf (localOf r.addr)
  let inb := r.via.isSome
  let um := (s.unmapped h, xUNMAPPED)
  let pd := (s.partDenied r h, xPARTDENIED)
  let rest := [(s.regionDenied r h, xREGIONDENIED), (s.sealedTo r h, xSEALED),
    (s.closed h && !(inb && decide (s.boot.rerun = 11)), xRESETABORT),
    (s.fencedHome h inb, xFENCED)]
  let l := if inb then (match h with | .control _ => [(true, xREGIONDENIED)] | _ => pd :: um :: rest) else um :: pd :: rest
  match l.find? fun e => e.1 with
  | some e => e.2
  | none => 0

/-- What a refused request leaves behind besides its status: counters and events. -/
def State.countStatus (s : State) (r : Req) (st : Nat) : State :=
  let h := homeOf (localOf r.addr)
  let a8 := le 8 r.addr
  if st = xUNMAPPED then
    let s1 := (s.bump pgHall NW_HUNMAP_COUNT).wr pgHall NW_HUNMAP_SRC (pgInst r.src)
    if s.hall.unmapAt = s.time.epochs + 1 then s1
    else (s1.raise pgHall ev_NW_UNMAPPED (a8 ++ le 4 r.src)).modHall fun x => { x with unmapAt := s.time.epochs + 1 }
  else if st = xPARTDENIED ∧ r.via.isNone then
    s.raise r.src ev_PARTITION_DENIED (a8 ++ le 4 r.src ++ le 1 r.op)
  else if st = xREGIONDENIED then
    match h with
    | .slice n _ =>
      ((s.bump (pgSlice n) SB_REGION_DENY_COUNT).wr (pgSlice n) SB_REGION_DENY_SRC (pgInst r.src)).raise
        (pgSlice n) ev_SB_REGION_DENY (a8 ++ le 4 r.src ++ le 1 r.op)
    | .cluster k o =>
      if fwRegion o && !fwAllowed k r then
        ((s.bump (pgCluster k) CL_FW_DENY_COUNT).wr (pgCluster k) CL_FW_DENY_SRC (pgInst r.src)).raise
          (pgCluster k) ev_CL_FW_DENY (a8 ++ le 4 r.src)
      else s
    | _ => s
  else if st = xFENCED then s.bump (pgControl (homeRouter h)) NW_CABSORB_FENCED
  else if st = xNOMEMBER then s.countNoMemb (pkgOf r.addr)
  else if st = xROUTELOST then s.countRoute (pkgOf r.addr)
  else s

/-! ### Completion (R411) -/

def State.req (s : State) (id : Nat) : Option Req := (s.hall.reqs.find? fun e => decide (e.1 = id)).map fun e => e.2

def State.setReq (s : State) (id : Nat) (r : Req) : State :=
  s.modHall fun h => { h with reqs := ains id r h.reqs }

def State.dropReq (s : State) (id : Nat) : State :=
  s.modHall fun h => { h with reqs := adel id h.reqs }

/-- The flag of a mover's or core's own sequencer: router and partition of a page's unit. -/
def State.unitPart (s : State) (pg : Nat) : Nat := (s.ownerOf pg).getD 0

/-- A response of a mover's REMOTE or CXL transfer (R268): the data it brings is kept, and the first failing
status; MXFER_COMPLETE ends the transfer. -/
def State.moverDone (s : State) (r : Req) (a : Ans) : State :=
  let m := if pgType r.src = 0x0034 then 80 + pgInst r.src else pgInst r.src
  let n := r.xfer - 1
  match (s.mover m).remote.find? fun e => decide (e.1 = n) with
  | none => s
  | some e =>
    let x := e.2
    let y : Remote :=
      { x with
        left := x.left - 1
        status := if x.status = 0 then a.status else x.status
        got := if r.op = 0x01 ∧ a.status ≤ 1 then x.got ++ [(r.addr, a.data, a.poison)] else x.got }
    s.modMover m fun u => { u with remote := ains n y u.remote }

/-- A general core's state. -/
def State.gc (s : State) (g : Nat) : Gcore := aget {} s.gcores g
def State.modGc (s : State) (g : Nat) (f : Gcore → Gcore) : State :=
  { s with gcores := aupd {} s.gcores g f }

/-- The program executes: inside a window that is not patrol's, not in WFI, not stopped, in nothing that waits. -/
def State.gcRuns (s : State) (g : Nat) : Bool :=
  let u := s.gc g
  u.inWindow && !u.patrol && !u.wfi && !u.stopped && u.htwait.isNone && u.syncwait.isNone && u.fault.isNone && u.awaits.isNone &&
    !s.out (pgGcore g)

/-- ngvctl and ngvstat (Table 6-5). -/
def csrNgvctl : Nat := 0x8C0
def csrNgvstat : Nat := 0x8C1

/-- The outcome of an access of general core `g` (R212): a status other than OK raises a load fault
(5) or a store/AMO fault (7) and writes ngvstat.STATUS; a poisoned load does so unless POISON_OK is 1,
and then sets PSTICKY. An access of firmware in machine mode leaves the program's fault and registers alone: what firmware makes of it
is its own (log entry 127). -/
def State.gcOutcome (s : State) (g : Nat) (machine load : Bool) (addr status : Nat) : State :=
  if status = 0 ∨ machine = true then s
  else
    let u := s.gc g
    if status = xPOISONED ∧ load = true ∧ (aget 0 u.csr csrNgvctl).testBit 0 then
      s.modGc g fun u => { u with csr := aset 0 u.csr csrNgvstat (setBit (aget 0 u.csr csrNgvstat) 8 true) }
    else
      s.modGc g fun u =>
        { u with csr := aset 0 u.csr csrNgvstat (aget 0 u.csr csrNgvstat / 256 * 256 + status)
                 fault := some (if load then 5 else 7, addr) }

/-- A response that belongs to no one any more: its unit is in reset or was reset since (R546). One from outside the
scope is discarded and counts. -/
def State.discarded (s : State) (id src : Nat) : Option State :=
  if s.hall.orphans.contains id then
    some (({ s with resets := s.resets.map fun (r : Reset) => if r.pages.contains src then { r with discarded := r.discarded + 1 } else r }
      ).bump pgBu BU_RESET_ABORT_DISCARDED |>.modHall fun h => { h with orphans := h.orphans.filter fun x => decide (x ≠ id) })
  else if s.service src = 3 then some s
  else none

/-- The request's one completion at its requester (R411), unless no one waits for it any more (R546). -/
def State.completeReq (s : State) (id : Nat) (r : Req) (a : Ans) : State :=
  match s.discarded id r.src with
  | some t => t.dropReq id
  | none =>
    let s1 := (s.dropReq id).modHall fun h => { h with done := ains id a h.done }
    match pgType r.src with
    | 0x0012 => s1.gcOutcome (pgInst r.src) r.machine (r.op = 0x01) r.addr a.status
    | 0x0034 => s1.moverDone r a
    | _ => s1

/-! ### Answers -/

/-- Payload flits of a packet (Table 11-3), and its header flit as 64 bytes (Table 7-5, R408). -/
def Packet.flits (p : Packet) : Nat := (p.payload.length + 63) / 64
def Packet.header (p : Packet) : Bytes :=
  le 8 p.dest ++ le 4 p.src ++ le 1 p.op ++ le 1 p.ctrl ++ le 1 p.flits ++ le 1 p.status ++ le 2 p.tag ++ le 2 0 ++
    le 4 p.poison ++ le 1 p.ty ++ le 1 p.hops ++ le 2 p.len ++ le 2 p.srcPkg ++ le 2 0 ++ slice p.body 0 32

/-- CTRL of a packet that stays in its package: level, channel and class (Table 7-5). -/
def ctrlOf (r : Req) : Nat := r.level % 8 + (if indigo r.cls then 8 else 0) + r.cls % 8 * 16

/-- OPERAND and header of a response packet. -/
def responseOf (r : Req) (pkg : Nat) (a : Ans) : Packet :=
  { dest := r.srcPkg * 2 ^ 48, src := r.src, op := r.op, ctrl := 0x80 + 1 * 16 + r.level % 8, status := a.status, tag := r.tag,
    poison := a.poison, ty := r.ty + (if r.posted then 16 else 0), srcPkg := pkg, body := le 8 a.value ++ List.replicate 24 0,
    payload := a.data ++ List.replicate ((64 - a.data.length % 64) % 64) 0 }

/-- A packet joins the Woad or Indigo transmit queue of port `q`. -/
def State.enqueue (s : State) (q : Nat) (ind : Bool) (p : TxPkt) : State :=
  s.modPort q fun u => if ind then { u with txIndigo := u.txIndigo ++ [p] } else { u with txWoad := u.txWoad ++ [p] }

/-- The response of an inbound request leaves by the routes of its arrival port's partition (R423). -/
def State.respond (s : State) (q : Nat) (r : Req) (a : Ans) : State :=
  match (s.rnOwner q).bind fun p => s.routeFor p r.srcPkg with
  | some o => s.enqueue o false { pkt := responseOf r s.pkg a }
  | none => s.countRoute r.srcPkg

/-- The flits of a packet (R241): its header (Table 7-5), then its payload 64 bytes to a flit. -/
def packetFlits (p : Packet) (f : CFlit) : List CFlit :=
  let n := (p.payload.length + 63) / 64
  (List.range (n + 1)).map fun i =>
    { f with head := decide (i = 0), last := decide (i = n), unit := if i = 0 then none else some (i - 1), data := if i = 0 then p.header else slice p.payload (64 * (i - 1)) 64 }

/-- The response of a request of this package enters the network where it was performed, at the level of its request (R275). -/
def State.injectResponse (s : State) (id : Nat) (r : Req) (a : Ans) : State :=
  s.injectFlits (homeRouter (homeOf (localOf r.addr))) (packetFlits { responseOf r 0 a with dest := r.src, ctrl := 0x80 + ctrlOf r }
    { id := id, resp := true, vc := if indigo r.cls then 1 else 0, level := r.level, dest := unitDest r.src, inp := 63, head := true, last := true })

/-- The request is answered: an inbound one by a response over its port, one of this package by a response that RESPONSE will take. -/
def State.answer (s : State) (id : Nat) (r : Req) (a : Ans) : State :=
  match r.via with
  | some q => (s.dropReq id).respond q r a
  | none =>
    let s1 := s.setReq id { r with ans := some a }
    if s.ownPkg r.addr then s1.injectResponse id r a else s1

/-! ### What a memory does -/

/-- A status fit for data: POISONED where some sector is. -/
def poisonStatus (m : Nat) : Nat := if m = 0 then 0 else xPOISONED

/-- The caches an access goes through, if any, and its address there: local ones (R328), or for a general
core's load of another package those of the copy (R413). -/
def State.viaCache (s : State) (r : Req) : Option (Via × Nat) :=
  let n := if isReduce r.op ∧ r.ty = 5 then 2 * r.len else if isAtomic r.op then tyBytes r.ty else r.len
  if s.ownPkg r.addr then (s.viaLocal (localOf r.addr) n r.part).map fun f => (f, localOf r.addr)
  else match r.part with
    | none => none
    | some p =>
      let f : Via := fun line => s.remoteSlice p (line * 256)
      if (linesOf (r.addr + 2 ^ 64) n).all fun e => (f e.1).isSome then some (f, r.addr + 2 ^ 64) else none

/-- The DRAM channels of the target have served it (R298); true of any other target. -/
def State.servedAll (s : State) (r : Req) (n : Nat) : Bool :=
  match homeOf (localOf r.addr) with
  | .dram _ => (s.chansOf (localOf r.addr) n).all fun c => r.served.contains c
  | _ => true

/-- The bytes a request touches at its target. -/
def Req.span (r : Req) : Nat :=
  if isAtomic r.op then tyBytes r.ty
  else if isReduce r.op then (if r.ty = 5 then 2 * r.len else r.len) else r.len

/-- A parity error of a slice word (R326): of a clean cached sector, else of the sector at offset `off`, which is poisoned. -/
def State.sliceParity (s : State) (n off : Nat) (clean : Bool) : State :=
  let s1 := (s.bump (pgSlice n) SB_PARITY_COUNT).wr (pgSlice n) SB_PARITY_LAST_CLEAN (if clean then 1 else 0)
  let s2 := if clean then s1 else s1.wr (pgSlice n) SB_PARITY_ADDR_SECTOR (off / 64)
  s2.raise (pgSlice n) ev_SB_PARITY (le 4 (off / 64 * 64) ++ le 1 (if clean then 1 else 0))

/-- A read at offset `off` of cluster memory `k` finds a parity error (R207): an event, and the sector is poisoned. Firmware that finds
one in its region has the cluster fenced (R208). -/
def State.clusterParity (s : State) (k off : Nat) (fw : Bool) : State :=
  let s1 := (((s.bump (pgCluster k) CL_MEM_PAR_COUNT).wrs (pgCluster k)
    [(CL_MEM_PAR_ADDR_IN_FW, if fwRegion off then 1 else 0), (CL_MEM_PAR_ADDR_SECTOR, off / 64)]).raise (pgCluster k) ev_CL_PARITY
    (le 4 (64 * (off / 64)))).hurtSector ((clusterBase k + off) / 64 * 64)
  if fw && fwRegion off then (s1.raise (pgCluster k) ev_CL_FW_PARITY (le 4 (64 * (off / 64)))).fenceUnit (pgCluster k) else s1

/-- The sectors at `xs` of cluster memories and slices fail parity as they are read. The word stays bad: the sector stays poisoned until
it is written whole (log entry 128). -/
def State.parityAt (s : State) (fw : Bool) (xs : List Nat) : State :=
  xs.foldl (fun s x => match homeOf x with
    | .cluster k o => s.clusterParity k o fw
    | .slice n o => (s.sliceParity n o false).setPoison x true
    | _ => s) s

/-- An inbound request is discarded without response where its source is ABSENT (R418). -/
def State.sourceAbsent (s : State) (r : Req) : Bool :=
  r.via.isSome && decide (s.membState r.srcPkg = 0)

/-- A parity error in a cached sector (R326): a clean one is invalidated, to be fetched again; a dirty one is
poisoned. Where in the slice it lies is not stated: a free place in the cache region. -/
def State.cacheParity (s : State) (f : Via) (a : Nat) : State :=
  match s.lineAt f (a / 256) with
  | none => s
  | some (n, l) =>
    let i := a / 64 % 4
    let dirty := bit l.dirty i
    let off := s.scratchMb n * mib + Config.freeNat s.free % max 1 (s.cacheMb n * mib)
    let s1 := (s.sliceParity n off (!dirty)).modSl n fun u =>
      u.put (if dirty then { l with poison := l.poison ||| 2 ^ i } else { l with valid := setBit l.valid i false })
    { s1 with free := s1.free + 1 }

/-- The sectors of an access from `a` in which a word it reads fails parity, counted from the first: in the caches `c` it goes through,
else where it lies. -/
def State.parityOf (s : State) (fw : Bool) (c : Option (Via × Nat)) (o : Nat) (parity : List Nat) : State :=
  match c with
  | some (f, a) => parity.foldl (fun s i => s.cacheParity f (a / 64 * 64 + 64 * i)) s
  | none => s.parityAt fw (parity.map fun i => o / 64 * 64 + 64 * i)

/-- Firmware in machine mode of the cluster reads its own memory (R208). -/
def Req.firmware (r : Req) : Bool :=
  r.machine && match homeOf (localOf r.addr) with
    | .cluster k _ => decide (pgType r.src = 0x0012 ∧ pgInst r.src / 8 = k)
    | _ => false

/-- The far-tier lines with TAGS of an uncached access that fail their tags (R338, R475, R476): those in which the row's `parity` names a
sector. Each is told. -/
def State.badLines (s : State) (r : Req) (parity : List Nat) : List Nat :=
  let o := localOf r.addr
  (((parity.map fun i => (o / 64 + i) / 4).filter s.taggedLine).filter fun l => (linesOf o r.span).any fun e => decide (e.1 = l)).eraseDups
def State.tagFail (s : State) (l : List Nat) : State :=
  l.foldl (fun s line => match homeOf (line * 256) with
    | .cxl x _ => (s.bump (pgCxl x) CX_TAGFAIL_COUNT).raise (pgCxl x) ev_CX_TAG_FAIL (le 8 (0xFFFF * 2 ^ 48 + line * 256))
    | _ => s) s

/-- The poison of an answer with those lines' sectors marked. -/
def hurtMask (o n poison : Nat) (l : List Nat) : Nat :=
  poison ||| maskOf ((n + 63) / 64) fun k => l.any fun line =>
    decide (line * 256 < o + min (64 * k + 64) n ∧ o + 64 * k < line * 256 + 256)

/-- READ at its home memory or from the cache (R407, R413, R415). A failed tag of an uncached line comes with the operand (log entry 171). -/
def State.doRead (s : State) (id : Nat) (parity : List Nat) (r : Req) : State :=
  match s.viaCache r with
  | some (f, a) =>
    if !s.cHolds f a r.len false then s
    else
      let d := s.cRead f a r.len
      s.answer id r { status := poisonStatus d.2, data := d.1, poison := d.2 }
  | none =>
    if !s.ownPkg r.addr || !s.servedAll r r.len then s
    else
      let o := localOf r.addr
      match homeOf o with
      | .dram _ =>
        let d := s.readMem o r.len
        { (s.answer id r { status := poisonStatus d.2, data := d.1, poison := d.2 }) with free := s.free + 1 }
      | .cluster _ _ =>
        let d := s.beforeCycle.readMem o r.len
        s.answer id r { status := poisonStatus d.2, data := d.1, poison := d.2 }
      | .cxl x _ =>
        if !s.cxUp x then (s.bump (pgCxl x) CX_ERR_TIMEOUT).answer id r { status := xCXLERROR }
        else
          let l := s.badLines r parity
          let d := s.readMem o r.len
          let m := hurtMask o r.len d.2 l
          (s.tagFail l).answer id r { status := poisonStatus m, data := d.1, poison := m }
      | _ =>
        let d := s.readMem o r.len
        s.answer id r { status := poisonStatus d.2, data := d.1, poison := d.2 }

/-- WRITE and WRITE_SHORT at the home memory or in the cache (R407, R331, R338). -/
def State.doWrite (s : State) (id : Nat) (parity : List Nat) (r : Req) : State :=
  match s.viaCache r with
  | some (f, a) =>
    if !s.ownPkg r.addr || !s.cHolds f a r.len true then s
    else (s.cWrite f a (slice r.data 0 r.len) r.poison true).answer id r {}
  | none =>
    if !s.ownPkg r.addr || !s.servedAll r r.len then s
    else
      let o := localOf r.addr
      match homeOf o with
      | .cxl x _ =>
        if !s.cxUp x then (s.bump (pgCxl x) CX_ERR_TIMEOUT).answer id r { status := xCXLERROR }
        else
          let c := s.stepCtrs x ((linesOf o r.len).map fun e => e.1)
          if c.2 then
            let l := s.badLines r parity
            ((l.foldl (fun s line => (sectors (line * 256) 256).foldl (fun s x => s.setPoison x true) s)
              (c.1.storeLocal o (slice r.data 0 r.len) r.poison)).tagFail l).answer id r { status := if l.isEmpty then 0 else xPOISONED }
          else c.1.answer id r { status := xCXLERROR }
      | _ => (s.storeLocal o (slice r.data 0 r.len) r.poison).answer id r {}

/-- The target sectors of an atomic read: bytes and whether any is poisoned, in the cache or in
memory. -/
def State.targetRead (s : State) (c : Option (Via × Nat)) (o n : Nat) : Bytes × Bool :=
  match c with
  | some (f, a) => let d := s.cRead f a n; (d.1, decide (d.2 ≠ 0))
  | none => let d := s.readMem o n; (d.1, decide (d.2 ≠ 0))

/-- The result of an atomic stored, its sectors poisoned where `bad` (R342). -/
def State.targetWrite (s : State) (c : Option (Via × Nat)) (o : Nat) (d : Bytes) (bad : Bool) : State :=
  let m := if bad then 2 ^ 64 - 1 else 0
  match c with
  | some (f, a) => s.cWrite f a d m true
  | none => s.writeMem o d m

/-- An atomic on memory that no cache keeps: home slice `k` fills the sectors, holds them for the operation, writes them back and gives
them up (R337, R338); what a failed channel does not take is lost (R334). -/
def State.passThrough (s : State) (k o n : Nat) : State :=
  (linesOf o n).foldl (fun s e =>
    let s1 := (if 0 < s.cacheMb k then (s.allocate k e.1).modSl k fun u => u.drop e.1 else s).bump (pgSlice k) SB_MISS_COUNT
    let mask := maskOf 4 fun i => (sectors o n).contains (e.1 * 256 + 64 * i)
    if s.deadAt (e.1 * 256) then s1.wbLost k e.1 mask else s1.bump (pgSlice k) SB_WB_COUNT (popCount mask)) s

/-- ATOMIC and REDUCE at the home slice (R336 to R342). -/
def State.doAtomic (s : State) (id : Nat) (r : Req) : State :=
  let c := s.viaCache r
  let o := localOf r.addr
  let n := r.span
  let ready := match c with
    | some (f, a) => s.cHolds f a n false
    | none => s.servedAll r n
  if !s.ownPkg r.addr || !ready then s
  else
    let h := homeOf o
    let down := match h with | .cxl x _ => c.isNone && !s.cxUp x | _ => false
    if down then s.answer id r { status := xCXLERROR }
    else
      let step := match h with | .cxl x _ => if c.isNone then s.stepCtr x (o / 256) else (s, true) | _ => (s, true)
      if !step.2 then step.1.answer id r { status := xCXLERROR }
      else
        let s0 := step.1
        let t := s0.targetRead c o n
        let bad := t.2 || decide (r.poison ≠ 0)
        let new := if isReduce r.op then reduceOp (r.op - 0x20) r.ty t.1 r.data
          else le n (atomicOp (r.op - 0x10) r.ty (unle t.1) r.value r.compare)
        let k := match h with | .slice k _ => k | .dram k => k | .cxl x _ => s0.farSlice ((s0.cxOwner x).getD 0) o | _ => 0
        let passes := c.isNone && (match h with | .dram _ | .cxl _ _ => true | _ => false)
        let s1 := ((if passes then s0.passThrough k o n else s0).targetWrite c o new bad).bump (pgSlice k) SB_ATOMS_COUNT
        let fetch := !isReduce r.op && !r.posted
        s1.answer id r { status := if fetch && t.2 then xPOISONED else 0, value := if fetch then unle t.1 else 0,
                         poison := if fetch && t.2 then 1 else 0 }

/-! ### Requests at their banks (R200, R323) -/

/-- Where a request reads and writes: its caches, or its home. -/
def State.bankNeed (s : State) (r : Req) : BankNeed :=
  let c := s.viaCache r
  let o := match c with | some x => x.2 | none => localOf r.addr
  let l := bankSectors (c.map fun x => x.1) o r.span
  let red := match homeOf (localOf r.addr) with | .slice n off => c.isNone && s.inRed n off | _ => false
  let both := isAtomic r.op || isReduce r.op || (isStore r.op && red)
  { reads := if both || decide (r.op = 0x01) then l else [], writes := if both || isStore r.op then l else [] }

/-- Nothing that the request waits for is still to come: its sectors are in the cache, its channels have served it. -/
def State.readyFor (s : State) (r : Req) : Bool :=
  match s.viaCache r with
  | some (f, a) => s.cHolds f a r.span (isStore r.op)
  | none => s.servedAll r r.span

/-- Two requests of this package's memory come from one unit (R412). -/
def State.sameUnit (s : State) (a b : Req) : Bool :=
  decide (a.src = b.src ∧ a.via = b.via ∧ a.srcPkg = b.srcPkg) && s.ownPkg a.addr && s.ownPkg b.addr

/-- No earlier request to one of its sectors is still to be performed: of its own unit (R412), or in a slice of any that has arrived
(R323; requests are numbered as they are made). -/
def State.hasTurn (s : State) (id : Nat) (r : Req) : Bool :=
  let mine (n : BankNeed) : List Nat := ((n.reads ++ n.writes).filter fun e => decide (2560 ≤ e.1)).map fun e => e.2
  let own := mine (s.bankNeed r)
  let all := sectors (localOf r.addr) r.span
  !s.hall.reqs.any fun e =>
    decide (e.1 < id) && e.2.ans.isNone && e.2.remote.isNone &&
      ((s.sameUnit e.2 r && (sectors (localOf e.2.addr) e.2.span).any fun x => all.contains x) ||
        (!s.travels e.1 false && (mine (s.bankNeed e.2)).any fun x => own.contains x))

/-- The request has come to its banks: parity errors of what it reads, then what its operation does. -/
def State.carryOut (s : State) (id : Nat) (parity : List Nat) (r : Req) : State :=
  let s1 := s.parityOf r.firmware (s.viaCache r) (localOf r.addr) parity
  if r.op = 0x01 then s1.doRead id parity r
  else if isStore r.op then s1.doWrite id parity r
  else s1.doAtomic id r

/-- A request of one of the row's operations, here, come to its target and unanswered, is performed: an inbound one whose source is ABSENT is discarded; the
first failed check answers it, as FENCED does one of this package whose target was fenced on its way (R270); one that is ready comes to its banks. -/
def State.perform (s : State) (id : Nat) (ops : Nat → Bool) (parity : List Nat) : State :=
  match s.req id with
  | none => s
  | some r =>
    if !ops r.op || r.remote.isSome || r.ans.isSome || s.travels id false then s
    else if s.sourceAbsent r then (s.dropReq id).countNoMemb r.srcPkg
    else
      let st := if r.via.isSome then s.localStatus r
        else if s.ownPkg r.addr && s.fencedHome (homeOf (localOf r.addr)) false then xFENCED else 0
      if st ≠ 0 then (s.countStatus r st).answer id r { status := st }
      else if !s.readyFor r then s
      else s.atBanks r.src r.level false (s.hasTurn id r) (s.bankNeed r) (.request id parity) fun s => s.carryOut id parity r

/-- A request that waited for its banks is granted them. -/
def State.performNow (s : State) (id : Nat) (parity : List Nat) : State :=
  match s.req id with
  | none => s
  | some r => if r.remote.isSome || r.ans.isSome then s else s.carryOut id parity r

/-! ### Regulation (R274) -/

/-- A response of class `c` came back at router `k` with latency `l` core cycles. -/
def State.regulate (s : State) (k c l : Nat) : State :=
  let pg := pgControl k
  let t := max 1 (s.rd pg NW_REG_TGT_TARGET c)
  let f := aget 0 s.net.filt (k * 8 + c)
  let f1 : Nat := ((f : Int) + Int.tdiv ((l * 256 : Nat) - (f : Int)) 16).toNat
  let s1 := s.modNet fun n => { n with filt := aset 0 n.filt (k * 8 + c) f1 }
  let s2 := (s1.wr pg NW_REG_STAT_FILT (f1 / 256) c).wr pg NW_REG_STAT_LEVEL (min 7 (8 * f1 / (256 * t))) c
  if l ≤ t then s2
  else
    let s3 := s2.bump pg NW_REG_MISS_COUNT 1 c
    let m := s3.rd pg NW_REG_MISS_COUNT c
    if m % 1024 = 1 then s3.raise pg ev_NW_REG_MISS (le 1 c ++ le 3 0 ++ le 4 m ++ le 4 l) else s3

/-- A general core's access to its own cluster's memory, which is not regulated (R211). -/
def Req.ownMemory (r : Req) : Bool :=
  match homeOf (localOf r.addr) with
  | .cluster k _ => decide (pgType r.src = 0x0012 ∧ pgInst r.src / 8 = k) && !r.machine
  | _ => false

/-! ### Commands -/

/-- READ (R407): performed at its home memory or from a cache copy. Here and below, `parity` names the sectors in which a word it
reads in a slice or a cluster memory fails parity, counted from the first (R207, R326). -/
def execRead (id : Nat) (parity : List Nat) (s : State) : Host.Outcome State Fault Refusal :=
  finish served s <| s.perform id (· == 0x01) parity

/-- WRITE (R407). -/
def execWrite (turn : Turn) (s : State) : Host.Outcome State Fault Refusal :=
  finish served s <| s.perform turn.id (· == 0x02) turn.parity

/-- WRITE_SHORT (R407): up to 32 bytes in one sector. -/
def execWriteShort (turn : Turn) (s : State) : Host.Outcome State Fault Refusal :=
  finish served s <| s.perform turn.id (· == 0x03) turn.parity

/-- ATOMIC (R336): indivisible at its home slice. -/
def execAtomic (turn : Turn) (s : State) : Host.Outcome State Fault Refusal :=
  finish served s <| s.perform turn.id isAtomic turn.parity

/-- REDUCE (R341): element-wise at its home slice. -/
def execReduce (turn : Turn) (s : State) : Host.Outcome State Fault Refusal :=
  finish served s <| s.perform turn.id isReduce turn.parity

/-- RESPONSE (R411): the answer, its flits come through the network, reaches its requester after `cycles` core cycles; regulation counts it;
one for a unit in a closed reset scope is discarded and counts (R546). -/
def execResponse (id cycles : Nat) (s : State) : Host.Outcome State Fault Refusal :=
  finish (evented ++ [.resets, .hall, .net, .gcores]) s <|
    match s.req id with
    | none => s
    | some r =>
      match r.ans with
      | none => s
      | some a =>
        if s.travels id true then s else
        let s1 := if r.ownMemory then s else s.regulate (routerOf r.src) r.cls cycles
        s1.completeReq id r a

/-- The timeout of R414 in 0.8-ns ticks. -/
def State.hTimeout (s : State) : Nat := max 1 (s.rd pgHall NW_HTIMEOUT_US) * usTicks

/-- The request leaves its package: over a port, or as the fill of a copy (R401, R413, R414). -/
def Req.away (r : Req) (s : State) : Bool := r.remote.isSome || (r.via.isNone && !s.ownPkg r.addr)

/-- REQUEST_TIMEOUT (R414): a request to another package unanswered within NW_HTIMEOUT. -/
def execRequestTimeout (id : Nat) (s : State) : Host.Outcome State Fault Refusal :=
  finish [.regs, .resets, .hall, .movers, .gcores] s <|
    match s.req id with
    | none => s
    | some r =>
      if r.away s && r.ans.isNone && decide (s.hTimeout ≤ s.real - r.issuedAt) then
        (s.bump pgHall NW_HTOUT_COUNT).completeReq id r { status := xTIMEOUT }
      else s

end Sys2Proof.Machine
end

