-- ==== Sys2Proof/Machine/Slices.lean ====
section
/-!
DEFINITION. Machine/Slices.lean: the slices' caches at work (R326 to R334, R357, R475, R476): look-up, fill
and flush; and the rebuild of suspect blocks (R354 to R356).
-/

namespace Sys2Proof.Machine

open Sys2Proof

/-! ### Look-up (R328, R330, R331) -/

/-- A request writes whole bytes of its range. -/
def isWriteReq (r : Req) : Bool := isStore r.op

/-- The sectors a line must be given before the access can be served: those it needs and the line lacks; the
whole line in a range with TAGS (R475). -/
def State.missOf (s : State) (f : Via) (r : Req) (e : Nat × Nat × Nat) : Nat :=
  let need := needOf (isWriteReq r) e
  let have_ := match s.lineAt f e.1 with | some (_, l) => l.valid | none => 0
  let lack := need - (need &&& have_)
  if lack ≠ 0 ∧ s.taggedLine e.1 then 15 - (15 &&& have_) else lack

/-- One line of an access is looked up in slice `n`: a hit is used; a miss allocates the line and asks for the
sectors it lacks. A miss already waiting for its fill counts once. -/
def State.lookUp (s : State) (f : Via) (n : Nat) (r : Req) (e : Nat × Nat × Nat) : State :=
  let lack := s.missOf f r e
  let old := s.lineAt f e.1
  let asked := aget 0 (s.sl n).fills e.1
  if lack = 0 then
    match old with
    | some (_, l) => (s.touch n l).bump (pgSlice n) SB_HIT_COUNT
    | none => (s.allocate n e.1).bump (pgSlice n) SB_MISS_COUNT
  else if hasAll asked lack then s
  else
    let s1 := if old.isNone then s.allocate n e.1 else s
    (s1.addFill n e.1 lack).bump (pgSlice n) SB_MISS_COUNT

/-- The requests a cache serves: unanswered, of this package or copies of another's memory. -/
def State.cached (s : State) (id : Nat) : Option (Req × Via × Nat) :=
  match s.req id with
  | none => none
  | some r =>
    if r.ans.isSome || r.remote.isSome then none
    else (s.viaCache r).map fun c => (r, c.1, c.2)

/-- CACHE_ACCESS (R328 to R331, R338): the request's lines whose home is this slice are looked up; `parity`: the sectors in which a
word it looks at fails parity, counted from its first (R326). -/
def execCacheAccess (slice : Fin 8) (id : Nat) (parity : List Nat) (s : State) :
    Host.Outcome State Fault Refusal :=
  finish (tiled ++ [.ctrs, .slices]) s <|
    match s.cached id with
    | none => s
    | some (r, f, a) =>
      let l := (linesOf a r.span).filter fun e => decide (f e.1 = some slice.val)
      let bad := (parity.map fun i => a / 64 * 64 + 64 * i).filter fun x => decide (f (x / 256) = some slice.val)
      let s1 := bad.foldl (fun s x => s.cacheParity f x) s
      l.foldl (fun s e => s.lookUp f slice r e) s1

/-! ### Fills (R331, R357, R475, R476) -/

/-- The requests that wait for a line of slice `n`. -/
def State.waiters (s : State) (n line : Nat) : List (Nat × Req) :=
  s.hall.reqs.filter fun e => match s.cached e.1 with
    | some (r, f, a) => decide (f line = some n) && (linesOf a r.span).any fun x => decide (x.1 = line)
    | none => false

/-- What a fill of a line brings: for DRAM and the far tier the home memory's bytes and poison, with the poison
an expander adds; for another package's memory what came. -/
def State.fillData (s : State) (line : Nat) (data : Bytes) (poison : Nat) : Bytes × Nat :=
  if 2 ^ 56 ≤ line then (data, poison)
  else
    let d := s.readMem (line * 256) 256
    match homeOf (line * 256) with
    | .cxl _ _ => (d.1, d.2 ||| poison % 16)
    | _ => d

/-- Events and counters of a far-tier fill: poison from an expander, a failed tag (R476, R477). -/
def State.fillNotice (s : State) (line poison : Nat) (tagOk : Bool) : State :=
  match homeOf (line * 256) with
  | .cxl x _ =>
    let s1 := if poison % 16 ≠ 0 then s.bump (pgCxl x) CX_ERR_POISON else s
    if s.taggedLine line && !tagOk then
      (s1.bump (pgCxl x) CX_TAGFAIL_COUNT).raise (pgCxl x) ev_CX_TAG_FAIL (le 8 (0xFFFF * 2 ^ 48 + line * 256))
    else s1
  | _ => s

/-- The status a fill ends with: of a far-tier line, CXL-ERROR where its port is down. -/
def State.fillStatus (s : State) (line status : Nat) : Nat :=
  if 2 ^ 56 ≤ line then status
  else match homeOf (line * 256) with
    | .cxl x _ => if s.cxUp x then status else xCXLERROR
    | _ => 0

/-- A fill that failed: the requests waiting for the line complete with its status, and a line without a
valid sector is given up. -/
def State.fillFail (s : State) (n line st : Nat) : State :=
  let s1 := (s.waiters n line).foldl (fun s e => s.answer e.1 e.2 { status := st }) s
  match (s1.sl n).find line with
  | some l => if l.valid = 0 then s1.modSl n fun u => u.drop line else s1
  | none => s1

/-- Requests served at once from a line that is not kept (R357). -/
def State.serveNow (s : State) (n line : Nat) : State :=
  (s.waiters n line).foldl (fun s e =>
    match s.cached e.1 with
    | some (r, f, a) => if r.op = 0x01 ∧ s.cHolds f a r.len false then s.doRead e.1 [] r else s
    | none => s) s

/-- A fill from the CXL tier is regulated traffic of class 4, counted at its slice's router (R273, R274). -/
def State.regulateFill (s : State) (n line : Nat) : State :=
  match (if line < 2 ^ 56 then homeOf (line * 256) else .dram 0) with
  | .cxl _ _ => s.regulate (80 + n) 4 (s.cycles - aget s.cycles (s.sl n).fillAt line)
  | _ => s

/-- CACHE_FILL_RETURN (R331, R357, R475, R476): the sectors asked for arrive and are cached with their poison; a
tag that fails poisons the line; a remote fill that comes after slot 4095 of its epoch is delivered and not
kept. `status`, `data` and `poison` are what another package or an expander returned. -/
def execCacheFillReturn (slice : Fin 8) (line status : Nat) (data : Bytes) (poison : Nat) (tagOk : Bool)
    (s : State) : Host.Outcome State Fault Refusal :=
  finish (evented ++ [.hall, .runner, .net, .slices]) s <|
    let n := slice.val
    let asked := aget 0 (s.sl n).fills line
    let mask := asked % 16
    if mask = 0 then s
    else
      let s0 := (s.regulateFill n line).modSl n fun u => { u with fills := adel line u.fills, fillAt := adel line u.fillAt }
      let st := s.fillStatus line status
      if 1 < st then s0.fillFail n line st
      else
        let bad := s.taggedLine line && !tagOk
        let d := s.fillData line data poison
        let s1 := (s0.fillNotice line poison tagOk).modSl n fun u =>
          match (u.find line).orElse fun _ => if bit asked 4 then some { line := line, data := List.replicate 256 0 } else none with
          | some l => u.put (l.fill mask d.1 (if bad then 15 else d.2))
          | none => u
        if bit asked 4 then (s1.serveNow n line).modSl n fun u => u.drop line else s1

/-! ### Flush (R333) -/

/-- What a write of 1 to FLUSH starts: the sectors dirty now are to be written back. -/
def State.startFlush (s : State) (n : Nat) : State :=
  let d := (s.sl n).lines.filterMap fun l => if l.dirty = 0 then none else some (l.line, l.dirty)
  (s.modSl n fun u => { u with flush := d }).wr (pgSlice n) SB_CACHE_CTRL_FLUSH 1

/-- The sectors of a line that were dirty at the FLUSH write and still are go back; others stay dirty. -/
def State.flushLine (s : State) (n : Nat) (e : Nat × Nat) : State :=
  match (s.sl n).find e.1 with
  | none => s
  | some l =>
    let m := l.dirty &&& e.2
    let s1 := s.writeBack n { l with dirty := m }
    s1.modSl n fun u => match u.find e.1 with
      | some k => u.put { k with dirty := l.dirty - m }
      | none => u

/-- FLUSH_COMPLETE (R333, R357): the last of the sectors dirty at the FLUSH write is written back, and the bit
clears. A sector in which a word fails parity goes back poisoned (R326, R357). -/
def execFlushComplete (turn : SliceTurn) (s : State) : Host.Outcome State Fault Refusal :=
  finish (tiled ++ [.ctrs, .slices]) s <|
    let slice := turn.slice.val
    if s.on (pgSlice slice) SB_CACHE_CTRL_FLUSH then
      let bad := turn.errs.filter fun x => (s.sl slice).flush.any fun e => decide (e.1 = x / 256) && bit e.2 (x / 64 % 4)
      let s0 := bad.foldl (fun s x => s.cacheParity (fun _ => some slice) (x / 64 * 64)) s
      let s1 := (s.sl slice).flush.foldl (fun s e => s.flushLine slice e) s0
      (s1.modSl slice fun u => { u with flush := [] }).hwClear (pgSlice slice) SB_CACHE_CTRL_FLUSH
    else s

/-! ### Suspects and their rebuild (R354 to R356) -/

/-- The INFO of the check events. -/
def suspectInfo (e : Suspect) : Bytes := le 8 e.block ++ le 8 e.table

/-- A suspect enters the check queue of partition `p`, unless it is queued already; a full queue drops it
(R354, Table 9-5). -/
def State.suspect (s : State) (p block table : Nat) : State :=
  let n := s.firstRiser p
  let e : Suspect := ⟨block, table⟩
  let q := (s.sl n).suspects
  if q.any fun x => decide (x.block = block) then s
  else if q.length < 256 then
    (((s.modSl n fun u => { u with suspects := u.suspects ++ [e] }).bump (pgSlice n) SB_CHK_SUSPECT_COUNT).raise
      (pgSlice n) ev_CHK_SUSPECT (suspectInfo e))
  else s.raise (pgSlice n) ev_CHK_QUEUE_FULL (suspectInfo e)

/-- The rebuild core reads these ranges through the caches (R328): local offset, length. `errs`: the sectors in which a word fails parity
(R326). -/
def State.rebuildReads (s : State) (p : Nat) (errs : List Nat) (l : List (Nat × Nat)) : State :=
  let s1 := l.foldl (fun s e => s.cacheIn e.1 e.2 (some p) false) s
  (errs.filter fun x => l.any fun e => decide (e.1 < x / 64 * 64 + 64 ∧ x / 64 * 64 < e.1 + e.2)).foldl (fun s x =>
    match s.viaLocal (x / 64 * 64) 64 (some p) with
    | some f => s.cacheParity f (x / 64 * 64)
    | none => s.parityAt false [x / 64 * 64]) s1

/-- The header of a check table (Table 9-4) as the rebuild core reads it. -/
structure CheckHdr where
  blocks : Nat
  addr : Nat
  parity : Nat
  ok : Bool
  deriving DecidableEq, Repr

def State.checkHdr (s : State) (p table : Nat) : CheckHdr :=
  let h := (s.peek (localOf table) 32 (some p)).1
  { blocks := fieldAt h 4 4, addr := fieldAt h 8 8, parity := fieldAt h 0x10 8,
    ok := decide (fieldAt h 0x1C 4 = crc32c (h.take 0x1C)) }

/-- The entry of block `j`, and a block's bytes with its poison. -/
def State.checkEntry (s : State) (p table j : Nat) : Nat := unle (s.peek (localOf table + 0x40 + 4 * j) 4 (some p)).1
def State.checkBlock (s : State) (p a : Nat) : Bytes × Nat := s.peek (localOf a) 2048 (some p)

/-- Block `i` reads clean and matches its entry. -/
def State.checkGood (s : State) (p table a i : Nat) : Bool :=
  let b := s.checkBlock p a
  decide (b.2 = 0) && decide (crc32c b.1 = s.checkEntry p table i)

/-- XOR of byte strings. -/
def xorBytes (a b : Bytes) : Bytes := List.zipWith (· ^^^ ·) a b

/-- The other blocks of the group of block `j` (R351). -/
def groupOthers (blocks j : Nat) : List Nat :=
  (List.range 15).map (fun k => j / 15 * 15 + k) |>.filter fun i => decide (i ≠ j ∧ i < blocks)

/-- Step 6: every sector of the block is marked, in its memory and in a copy of it, and CHK_LOST raised. -/
def State.blockLost (s : State) (p n : Nat) (e : Suspect) : State :=
  let a := localOf e.block
  let s1 := (sectors a 2048).foldl (fun s x =>
    match s.copyOf (fun line => s.cacheSlice (line * 256) (some p)) x with
    | some (k, l) => (s.modSl k fun u => u.put { l with poison := l.poison ||| 2 ^ (x / 64 % 4) }).mark x true
    | none => s.mark x true) s
  (s1.bump (pgSlice n) SB_CHK_LOST_BLOCKS).raise (pgSlice n) ev_CHK_LOST (suspectInfo e)

/-- The status that the rebuild core's access to `n` bytes at hall address `x` ends with (R32, R406). -/
def State.rebuildReq (p slice x n : Nat) : Req :=
  { src := pgGcore (80 * slice), cls := 2, op := 0x01, addr := x, len := n, part := some p, machine := true }
def State.rebuildStatus (s : State) (p slice x n : Nat) : Nat :=
  if s.ownPkg x then s.localStatus (State.rebuildReq p slice x n) else xPARTDENIED

/-- The first of a list of addresses that the rebuild core may not use, with its status. -/
def State.rebuildBad (s : State) (p slice : Nat) (l : List (Nat × Nat)) : Option (Req × Nat) :=
  (l.map fun e => (State.rebuildReq p slice e.1 e.2, s.rebuildStatus p slice e.1 e.2)).find? fun e => decide (e.2 ≠ 0)

/-- Steps 4 to 6: the block from its parity and the others of its group. -/
def State.rebuild (s : State) (p n : Nat) (errs : List Nat) (e : Suspect) (h : CheckHdr) (j : Nat) (old : Bytes) : State :=
  let os := groupOthers h.blocks j
  let used := (h.parity + 2048 * (j / 15), 2048) :: os.flatMap fun i => [(h.addr + 2048 * i, 2048), (e.table + 0x40 + 4 * i, 4)]
  if h.parity = 0 then s.blockLost p n e
  else match s.rebuildBad p n used with
  | some x => (s.countStatus x.1 x.2).blockLost p n e
  | none =>
  let s := s.rebuildReads p errs (used.map fun x => (localOf x.1, x.2))
  let par := s.checkBlock p (h.parity + 2048 * (j / 15))
  if par.2 ≠ 0 ∨ os.any (fun i => !s.checkGood p e.table (h.addr + 2048 * i) i) then s.blockLost p n e
  else
    let b := os.foldl (fun x i => xorBytes x (s.checkBlock p (h.addr + 2048 * i)).1) par.1
    if b = old then
      ((s.poke (localOf e.table + 0x40 + 4 * j) (le 4 (crc32c b)) 0 (some p)).bump (pgSlice n) SB_CHK_REBUILT_ENTRY_FIXED).raise
        (pgSlice n) ev_CHK_ENTRY_FIXED (suspectInfo e)
    else if crc32c b = s.checkEntry p e.table j then
      ((s.poke (localOf e.block) b 0 (some p)).bump (pgSlice n) SB_CHK_REBUILT_BLOCKS).raise (pgSlice n) ev_CHK_REBUILT
        (suspectInfo e)
    else s.blockLost p n e

/-- The procedure of R355 for one suspect. A table or a block that R406 denies the core (another partition's, R32) leaves the denial's
event, and the table is bad. -/
def State.settle (s : State) (p n : Nat) (errs : List Nat) (e : Suspect) : State :=
  match s.rebuildBad p n [(e.table, 64), (e.block, 2048)] with
  | some x => (s.countStatus x.1 x.2).raise (pgSlice n) ev_CHK_BAD_TABLE (suspectInfo e)
  | none =>
  let s := s.rebuildReads p errs [(localOf e.table, 32)]
  let h := s.checkHdr p e.table
  let j := (e.block - h.addr) / 2048
  if !h.ok ∨ e.block < h.addr ∨ (e.block - h.addr) % 2048 ≠ 0 ∨ h.blocks ≤ j then
    s.raise (pgSlice n) ev_CHK_BAD_TABLE (suspectInfo e)
  else match s.rebuildBad p n [(e.table + 0x40 + 4 * j, 4)] with
  | some x => (s.countStatus x.1 x.2).raise (pgSlice n) ev_CHK_BAD_TABLE (suspectInfo e)
  | none =>
    let s := s.rebuildReads p errs [(localOf e.block, 2048), (localOf e.table + 0x40 + 4 * j, 4)]
    let b := (s.checkBlock p e.block).1
    if crc32c b = s.checkEntry p e.table j then s.bump (pgSlice n) SB_CHK_LOST_TRANSIENT
    else s.rebuild p n errs e h j b

/-- REBUILD_STEP (R354 to R356): with the partition at rest, the rebuild core settles the suspect at the head of
its queue. The slice is the one of the partition's lowest Riser; a rebuild core out of service does nothing. -/
def execRebuildStep (turn : SliceTurn) (s : State) : Host.Outcome State Fault Refusal :=
  finish (tiled ++ [.ctrs, .hall, .slices, .banks]) s <|
    let n := turn.slice.val
    let p := s.partOfRiser n
    if s.firstRiser p ≠ n ∨ !s.atRest p ∨ s.out (pgGcore (80 * n)) then s
    else match (s.sl n).suspects with
      | [] => s
      | e :: es => (s.settle p n turn.errs e).modSl n fun u => { u with suspects := es }

end Sys2Proof.Machine
end

