-- ==== Sys2Proof/Machine/Cxl.lean ====
section
/-!
DEFINITION. Machine/Cxl.lean: the CXL ports (R469 to R477): enumeration, host decoders, loss of a port.
-/

namespace Sys2Proof.Machine

open Sys2Proof

/-! ### Enumeration (R469, R470) -/

/-- The target registers of port `x` as enumeration leaves them: up to four expanders in ascending order. -/
def State.setTargets (s : State) (x : Nat) (l : List (Nat × Bool)) : State :=
  (List.range 4).foldl (fun s t =>
    match l[t]? with
    | some e => s.wrs (pgCxl x) [(CX_TARGET_PRESENT, 1), (CX_TARGET_SWITCHED, e.2.toNat), (CX_TARGET_CAP_GIB, e.1)] t
    | none => s.wrs (pgCxl x) [(CX_TARGET_PRESENT, 0), (CX_TARGET_SWITCHED, 0), (CX_TARGET_CAP_GIB, 0)] t) s

/-- A port trains and is enumerated: any outcome but the ones of Table 12-10 leaves it down; devices of Type 1 and
2 are reported and left alone. -/
def State.enumerate (s : State) (x : Nat) (o : CxlObs) : State :=
  let s1 := if o.up then s.wrs (pgCxl x) [(CX_STATUS_STATE, 3), (CX_STATUS_X8, o.x8.toNat), (CX_STATUS_RATE32, o.rate32.toNat)]
    else s.wrs (pgCxl x) [(CX_STATUS_STATE, 0), (CX_STATUS_X8, 0), (CX_STATUS_RATE32, 0)]
  let s2 := s1.setTargets x (if o.up then o.targets else [])
  if o.up then o.ignored.foldl (fun s e => s.raise (pgCxl x) ev_CX_DEVICE_IGNORED (le 2 e.1 ++ le 1 e.2)) s2 else s2

/-! ### Loss of a port (R477) -/

/-- Unanswered requests whose target lies behind port `x`. -/
def State.cxReqs (s : State) (x : Nat) : List (Nat × Req) :=
  s.hall.reqs.filter fun e => e.2.ans.isNone && e.2.remote.isNone && s.ownPkg e.2.addr &&
    (match homeOf (localOf e.2.addr) with | .cxl y _ => decide (y = x) | _ => false)

/-- A request behind a CXL port completes CXL-ERROR. -/
def State.cxFail (s : State) (x : Nat) (e : Nat × Req) : State :=
  (s.bump (pgCxl x) CX_ERR_TIMEOUT).answer e.1 e.2 { status := xCXLERROR }

/-- The link of port `x` leaves its active state: its requests complete CXL-ERROR, fills of its lines are given
up, CX_PORT_DOWN is raised. -/
def State.cxDown (s : State) (x : Nat) : State :=
  let l := s.cxReqs x
  let s1 := l.foldl (fun s e => s.cxFail x e) (s.wr (pgCxl x) CX_STATUS_STATE 0)
  let mine (line : Nat) : Bool := match homeOf (line * 256) with | .cxl y _ => decide (y = x) | _ => false
  let s2 := (List.range 8).foldl (fun s n => s.modSl n fun u =>
    { u with fills := u.fills.filter fun e => !mine e.1
             lines := u.lines.filter fun l => !(mine l.line && decide (l.valid = 0)) }) s1
  s2.raise (pgCxl x) ev_CX_PORT_DOWN (le 4 l.length)

/-- CXL_PORT_DOWN (R477). -/
def execCxlPortDown (port : Fin 2) (s : State) : Host.Outcome State Fault Refusal :=
  finishD (evented ++ [.descs, .hall, .runner, .net, .slices]) s <| if s.cxUp port then s.cxDown port else s

/-- CXL_REQUEST_TIMEOUT (R477): a request without a completion within CX_TIMEOUT completes CXL-ERROR. -/
def execCxlRequestTimeout (port : Fin 2) (id : Nat) (s : State) : Host.Outcome State Fault Refusal :=
  finish [.regs, .hall, .runner, .net] s <|
    match (s.cxReqs port).find? fun e => decide (e.1 = id) with
    | some e =>
      if s.rd (pgCxl port) CX_TIMEOUT_US * usTicks ≤ s.real - e.2.issuedAt then s.cxFail port e else s
    | none => s

/-- The port is free to retrain: unassigned, or its owner at rest. -/
def State.cxFree (s : State) (x : Nat) : Bool :=
  match s.cxOwner x with
  | some p => s.atRest p
  | none => true

/-- CXL_PORT_RETRAIN (R469, R477): from start-up stage 9 on, with the owner at rest, a port that is down, or one that
sees an expander inserted, trains and is enumerated. -/
def execCxlPortRetrain (port : Fin 2) (obs : CxlObs) (s : State) : Host.Outcome State Fault Refusal :=
  finishD (evented ++ [.ledger, .descs, .hall, .runner, .net, .slices]) s <|
    if decide (10 ≤ s.boot.next) && s.pins.refclk && !s.pins.gated && s.cxFree port then
      let s1 := if s.cxUp port && !obs.up then s.cxDown port else s
      (s1.enumerate port obs).trainedFull (pgCxl port) obs.up
    else s

/-! ### Host decoders (R471, R472) -/

/-- Decoder `d` of port `x` as its registers give it. -/
def State.decRegs (s : State) (x d : Nat) : Dec :=
  let g (F : Fld) := s.rd (pgCxl x) F d
  { base := g CX_DEC_BASE_BASE, size := g CX_DEC_BASE_SIZE, ways := g CX_DEC_CTRL_WAYS, ig := g CX_DEC_CTRL_IG,
    targets := g CX_DEC_CTRL_TARGETS, tags := g CX_DEC_CTRL_TAGS != 0, tagDec := g CX_DEC_CTRL_TAGDEC,
    tagRegion := g CX_DEC_CTRL_TAGREGION != 0 }

/-- Two ranges share a unit. -/
def Dec.overlaps (a b : Dec) : Bool :=
  decide (0 < a.size ∧ 0 < b.size ∧ a.base < b.base + b.size ∧ b.base < a.base + a.size)

/-- TAGDEC matches a decoder with TAGS. -/
def Dec.tagsOk (a t : Dec) : Bool :=
  t.tagRegion && decide (t.ways = a.ways ∧ t.ig = a.ig ∧ a.size % 32 = 0 ∧ t.size * 32 = a.size)

/-- The committed decoders, those accepted counting as committed. -/
def CxlUnit.committed (u : CxlUnit) : List (Nat × Dec) :=
  u.asked.map (fun e => (e.1, e.2.2)) ++ u.dec.filter fun e => !(u.asked.any fun a => decide (a.1 = e.1))

/-- The grounds on which a COMMIT of decoder `d` is refused. -/
def State.commitBad (s : State) (x d : Nat) : Bool :=
  let a := s.decRegs x d
  let l := (s.cx x).committed
  let t := match l.find? fun e => decide (e.1 = a.tagDec) with
    | some e => e.2
    | none => s.decRegs x a.tagDec
  (l.any fun e => decide (e.1 ≠ d) && a.overlaps e.2) || (a.tags && !a.tagsOk t) || !s.cxFree x

/-- A write of COMMIT (R471): refused, with REFUSED set, or accepted, to take effect at a later boundary. The
bit reads 0 again either way. -/
def State.askCommit (s : State) (x d : Nat) : State :=
  if s.commitBad x d then s.wr (pgCxl x) CX_DEC_STAT_REFUSED 1 d
  else
    let a := s.decRegs x d
    let s1 := (s.wr (pgCxl x) CX_DEC_STAT_REFUSED 0 d).wr (pgCxl x) CX_DEC_STAT_INITIALISING (if a.tags then 1 else 0) d
    (s1.stageFor (40 + 8 * x + d) 0).modCx x fun u => { u with asked := (d, s.time.epochs, a) :: u.asked.filter fun e => decide (e.1 ≠ d) }

/-- A line lies in a decoder's range. -/
def Dec.hasLine (a : Dec) (x line : Nat) : Bool :=
  match homeOf (line * 256) with
  | .cxl y f => decide (y = x) && a.covers f
  | _ => false

/-- The cached lines of a range are written back and given up. -/
def State.flushRange (s : State) (x : Nat) (a : Dec) : State :=
  (List.range 8).foldl (fun s n =>
    let l := (s.sl n).lines.filter fun k => a.hasLine x k.line
    l.foldl (fun s k => (s.writeBack n k).modSl n fun u => u.drop k.line) s) s

/-- What a range holds once a decoder takes effect: zeros with TAGS, each line at CTR 0; the same as before where
the mapping did not change; else contents the spec leaves undefined. -/
def State.openRange (s : State) (x : Nat) (old : Option Dec) (a : Dec) : State :=
  let b := cxlBase x + a.base * 2 ^ 28
  let n := a.size * 2 ^ 28
  if a.tags then
    { s.zeroStore b n with ctrs := s.ctrs.filter fun e => decide (e.1 < b / 256 ∨ (b + n) / 256 ≤ e.1) }
  else if (old.map fun o => { o with tags := false, tagDec := 0 }) = some { a with tags := false, tagDec := 0 } then s
  else s.undefine b n

/-- DECODER_COMMIT_EFFECT (R471): at an epoch boundary after the COMMIT, with the dirty lines of the range written
back, and with TAGS its lines written with zeros and their tags at CTR 0, the decoder takes effect. -/
def execDecoderCommitEffect (port : Fin 2) (dec : Fin 8) (s : State) : Host.Outcome State Fault Refusal :=
  finishD (tiled ++ [.undef, .descs, .ctrs, .slices, .cxl]) s <|
    match (s.cx port).asked.find? fun e => decide (e.1 = dec.val) with
    | none => s
    | some (_, at_, a) =>
      if s.time.epochs ≤ at_ ∨ s.slot ≠ 0 ∨ s.dueBy (40 + 8 * port.val + dec.val) s.epoch = false ∨ (a.tags ∧ !s.cxUp port) then s
      else
        let old := ((s.cx port).dec.find? fun e => decide (e.1 = dec.val)).map fun e => e.2
        let s1 := (match old with | some o => s.flushRange port o | none => s).flushRange port a
        let s2 := s1.openRange port old a
        let s3 := s2.modCx port fun u =>
          { u with dec := ains dec.val a u.dec, asked := u.asked.filter fun e => decide (e.1 ≠ dec.val) }
        (s3.wr (pgCxl port) CX_DEC_CTRL_COMMITTED 1 dec).wr (pgCxl port) CX_DEC_STAT_INITIALISING 0 dec

end Sys2Proof.Machine
end

