-- ==== Sys2Proof/Machine/Line.lean ====
section
/-!
DEFINITION. Machine/Line.lean: the line coding of a Runner lane: training sets in 8b/10b (R362, R363), and at the other rates bytes on
lanes, the scrambler, RS(544,514) and stuffing (R370 to R374).
-/

namespace Sys2Proof.Machine

open Sys2Proof

/-! ### 8b/10b (R362, R363; log entry 132) -/

/-- The 6-bit codes of the low five bits of a byte at negative running disparity, the bit sent first the most significant. -/
def code6 : List Nat :=
  [0b100111, 0b011101, 0b101101, 0b110001, 0b110101, 0b101001, 0b011001, 0b111000, 0b111001, 0b100101, 0b010101, 0b110100, 0b001101, 0b101100,
   0b011100, 0b010111] ++
  [0b011011, 0b100011, 0b010011, 0b110010, 0b001011, 0b101010, 0b011010, 0b111010, 0b110011, 0b100110, 0b010110, 0b110110, 0b001110, 0b101110,
   0b011110, 0b101011]

/-- The 4-bit codes of its high three bits. -/
def code4 : List Nat := [0b1011, 0b1001, 0b0101, 0b1100, 0b1101, 0b1010, 0b0110, 0b1110]

/-- Set bits of the low `n`. -/
def ones (n v : Nat) : Nat := ((List.range n).filter fun i => bit v i).length

/-- Byte `b` as a data character at running disparity `pos` (true: positive), and the disparity after it. -/
def dataChar (pos : Bool) (b : Nat) : Nat × Bool :=
  let x := b % 32
  let y := b / 32 % 8
  let c := code6.getD x 0
  let six := if pos && (decide (ones 6 c ≠ 3) || decide (x = 7)) then 63 - c else c
  let p := if ones 6 six = 3 then pos else !pos
  let d := if y = 7 ∧ ((p = false ∧ [17, 18, 20].contains x) ∨ (p = true ∧ [11, 13, 14].contains x)) then 0b0111 else code4.getD y 0
  let four := if p && (decide (ones 4 d ≠ 2) || decide (y = 3)) then 15 - d else d
  (six * 16 + four, if ones 4 four = 2 then p else !p)

/-- K28.5 at negative running disparity. -/
def comma : Nat := 0b0011111010

/-- Data characters in order, and the disparity at their end. -/
def dataChars : Bool → List Nat → List Nat × Bool
  | pos, [] => ([], pos)
  | pos, b :: l =>
    let c := dataChar pos b
    let r := dataChars c.2 l
    (c.1 :: r.1, r.2)

/-- The lowest byte whose character ends at negative disparity. -/
def padByte (pos : Bool) : Nat := ((List.range 256).find? fun b => !(dataChar pos b).2).getD 0

/-- The 16 characters of a training set with the fields 1 to 13 (Table 10-3): COMMA, which makes the disparity positive, the fields, CHECK, and
PAD, after which it is negative again. -/
def rtsChars (fields : List Nat) : List Nat :=
  let l := fields ++ [fields.foldl (· ^^^ ·) 0]
  let r := dataChars true l
  comma :: r.1 ++ [(dataChar r.2 (padByte r.2)).1]

/-- The byte that a data character stands for, at either disparity. -/
def charByte (c : Nat) : Option Nat := (List.range 256).find? fun b => decide ((dataChar false b).1 = c) || decide ((dataChar true b).1 = c)

/-- The set came inverted: its COMMA is the complement (R364). -/
def rtsInverted (x : RtsRun) : Bool := decide (x.chars.headD 0 = 1023 - comma)

/-- The fields 1 to 13 of a received set, polarity corrected; none where its CHECK fails (R362, R364). -/
def rtsFields (x : RtsRun) : Option (List Nat) :=
  let l := if rtsInverted x then x.chars.map fun c => 1023 - c else x.chars
  if l.length = 16 ∧ l.headD 0 = comma then
    match ((l.drop 1).take 14).mapM charByte with
    | some f => if (f.take 13).foldl (· ^^^ ·) 0 = f.getD 13 0 then some (f.take 13) else none
    | none => none
  else none

/-! ### Bytes on lanes (R370) -/

/-- Byte `i` of a flit stream goes to this logical lane at a width code. -/
def laneOf (w i : Nat) : Nat := let k := i / 4; if w = 3 then k % 8 else k % 4 + (if w = 2 then 4 else 0)

/-- The bytes that lane `l` carries of a piece of the flit stream that begins at a flit boundary. -/
def laneBytes (w l : Nat) (b : Bytes) : Bytes := (b.zipIdx.filter fun e => decide (laneOf w e.2 = l)).map fun e => e.1

/-! ### Scrambler (R372) -/

/-- `n` bits of the sequence from a generator whose bit i is s(−1 − i), the first of them least significant. -/
def scramble : Nat → Nat → Nat
  | 0, _ => 0
  | n + 1, g =>
    let b := (g / 2 ^ 38 + g / 2 ^ 57) % 2
    b + 2 * scramble n ((2 * g + b) % 2 ^ 58)

/-- The sequence of a codeword's message on lane `l`. -/
def laneSequence (l : Nat) : Nat := scramble 5140 (0x3FFFFFFFFFFFFF8 + l)

/-! ### RS(544,514) over GF(2¹⁰) (R371; log entry 133) -/

/-- Twice a field element: the field's polynomial is x¹⁰ + x³ + 1. -/
def symTwice (a : Nat) : Nat := if a < 512 then 2 * a else (2 * a) ^^^ 0x409

def symMul : Nat → Nat → Nat → Nat
  | 0, _, _ => 0
  | n + 1, a, b => (if b % 2 = 1 then a else 0) ^^^ symMul n (symTwice a) (b / 2)

/-- α to the power `n`. -/
def symPow : Nat → Nat
  | 0 => 1
  | n + 1 => symTwice (symPow n)

/-- A polynomial, highest coefficient first, times x + r. -/
def timesRoot (p : List Nat) (r : Nat) : List Nat :=
  ((p ++ [0]).zip (0 :: p)).map fun (e : Nat × Nat) => e.1 ^^^ symMul 10 r e.2

/-- The generator: the product of x + αʲ for j from 0 to 29; its coefficients below the first. -/
def rsGenerator : List Nat := ((List.range 30).foldl (fun p j => timesRoot p (symPow j)) [1]).drop 1

/-- The 30 parity symbols of a message, its first symbol the highest coefficient. -/
def rsParity (msg : List Nat) : List Nat :=
  msg.foldl (fun p m =>
    let k := m ^^^ p.headD 0
    ((p.drop 1 ++ [0]).zip rsGenerator).map fun (e : Nat × Nat) => e.1 ^^^ symMul 10 k e.2) (List.replicate 30 0)

/-- The codeword of 5,140 message bits on lane `l`: its message scrambled, its parity not. -/
def codeword (l bits : Nat) : List Nat :=
  let m := bits ^^^ laneSequence l
  let msg := (List.range 514).map fun i => m / 2 ^ (10 * i) % 1024
  msg ++ rsParity msg

/-- A codeword with this many wrong symbols cannot be corrected: the code's 30 parity symbols correct 15. -/
def beyond (wrong : Nat) : Bool := decide (15 < wrong)

/-! ### A lane's stream (R371) -/

/-- Full codewords are taken from a lane's bits. -/
def LaneTx.cut (l : Nat) : Nat → LaneTx → LaneTx
  | 0, x => x
  | n + 1, x =>
    if x.count < 5140 then x
    else LaneTx.cut l n
      { count := x.count - 5140, bits := x.bits / 2 ^ 5140, words := x.words ++ [codeword l (x.bits % 2 ^ 5140)] }

/-- A lane's bytes join its stream: the codewords they complete are what it sends now. -/
def LaneTx.feed (x : LaneTx) (l : Nat) (b : Bytes) : LaneTx :=
  LaneTx.cut l (b.length / 642 + 1) { count := x.count + 8 * b.length, bits := x.bits + unle b * 2 ^ x.count, words := [] }

/-! ### Stuffing (R373, R374; log entries 63 and 152) -/

/-- The level of the stuff symbol that ends a run at level `l`. -/
def stuffLevel (pam : Bool) (l : Nat) : Nat := if pam then (if l < 2 then 3 else 0) else 1 - l

/-- The run after a symbol of level `l`. -/
def LineRun.next (r : LineRun) (l : Nat) : LineRun :=
  if r.count ≠ 0 ∧ r.level = l then { r with count := r.count + 1 } else { r with level := l, count := 1 }

/-- Symbols with a stuff symbol after 31 consecutive ones of one level, and the run at their end. -/
def stuff (pam : Bool) : LineRun → List Nat → List Nat × LineRun
  | r, [] => ([], r)
  | r, l :: ls =>
    let r1 := r.next l
    if r1.count = 31 then
      let t := stuff pam { r1 with level := stuffLevel pam l, count := 1 } ls
      (l :: stuffLevel pam l :: t.1, t.2)
    else
      let t := stuff pam r1 ls
      (l :: t.1, t.2)

/-- What a receiver makes of a line's symbols: those kept, how many it removed, those of them of the wrong level, and the run at the end. -/
structure Unstuffed where
  kept : List Nat := []
  removed : Nat := 0
  wrong : Nat := 0
  run : LineRun
  deriving DecidableEq, Repr

/-- The symbol that follows any 31 equal ones is removed, of the level expected or not. -/
def unstuff (pam : Bool) : LineRun → List Nat → Unstuffed
  | r, [] => { run := r }
  | r, l :: ls =>
    if r.count = 31 then
      let t := unstuff pam { r with level := l, count := 1 } ls
      { t with removed := t.removed + 1, wrong := t.wrong + (decide (l ≠ stuffLevel pam r.level)).toNat }
    else
      let t := unstuff pam (r.next l) ls
      { t with kept := l :: t.kept }

/-- A list without its first `n` SLACK symbols. -/
def dropSlack : Nat → List LineSym → List LineSym
  | 0, l => l
  | _ + 1, [] => []
  | n + 1, x :: xs => if x.slack then dropSlack n xs else x :: dropSlack (n + 1) xs

/-- The levels that go on the line where the last `n` SLACK symbols are left out. -/
def lineLevels (n : Nat) (l : List LineSym) : List Nat := (dropSlack n l.reverse).reverse.map LineSym.level

/-- A lane's line takes a piece that pays up to `slack` of the `owed` stuff symbols: the line after it, and how many it inserted. -/
def LineRun.send (r : LineRun) (pam : Bool) (slack owed : Nat) (l : List LineSym) : LineRun × Nat :=
  let x := lineLevels (min owed slack) l
  let t := stuff pam r x
  ({ t.2 with last := t.1 }, t.1.length - x.length)

/-- A lane's line brings a piece in which up to `slack` symbols were left out: they are put back, what it removes is owed. -/
def LineRun.take (r : LineRun) (pam : Bool) (slack : Nat) (l : List Nat) : LineRun × Nat × Nat :=
  let t := unstuff pam r l
  ({ t.run with last := t.kept, back := min r.owed slack, owed := r.owed - min r.owed slack + t.removed }, t.removed, t.wrong)

/-- A piece of the flit stream goes out over the lanes in use. -/
def RPort.line_ (u : RPort) (w : Nat) (lanes : List Nat) (b : Bytes) : RPort :=
  { u with line := lanes.foldl (fun t l => ains l ((aget {} t l).feed l (laneBytes w l b)) t) u.line }

end Sys2Proof.Machine

namespace Sys2Proof

/-- A codeword that carries the frame is uncorrectable (R447). -/
def Frame.uncorr (f : Frame) : Bool := f.errors.any Machine.beyond

end Sys2Proof
end

