-- ==== Sys2Proof/Machine/Runner.lean ====
section
/-!
DEFINITION. Machine/Runner.lean: a Runner port's training, keys, width, margins and time marks
(10_runner_lanes.md, R495, R496).
-/

namespace Sys2Proof.Machine

open Sys2Proof

/-! ### Figures (R361, R389) -/

/-- SCHED_WORDS and RX_INT (ps) of Table 10-2 at a rate of 2 to 4 and a width code. -/
def schedWords (rate w : Nat) : Nat := 72 / 2 ^ (4 - rate) / (if w = 3 then 1 else 2)
def rxInt (rate w : Nat) : Nat := 163200 * 2 ^ (4 - rate) * (if w = 3 then 1 else 2)

/-- DL of R389. -/
def dlOf (delay rate w : Nat) : Nat := 2 + (delay + rxInt rate w + 80000 + 204799) / 204800

/-- The lanes of a width code. -/
def lanesOf (w : Nat) : List Nat :=
  match w with
  | 0 => [] | 1 => [0, 1, 2, 3] | 2 => [4, 5, 6, 7] | _ => [0, 1, 2, 3, 4, 5, 6, 7]

def State.pst (s : State) (q : Nat) : Nat := s.rd (pgRunner q) RN_PSTAT_STATE
def State.pwidth (s : State) (q : Nat) : Nat := s.rd (pgRunner q) RN_PSTAT_WIDTH
def State.prate (s : State) (q : Nat) : Nat := s.rd (pgRunner q) RN_PSTAT_RATE

/-- The page of lane `l` of port `q`. -/
def lanePage (q l : Nat) : Nat := pgLane (8 * q + l)

/-- DL of the port by its present figures. -/
def State.portDl (s : State) (q : Nat) : Nat := dlOf (s.rd (pgRunner q) RN_DELAY_PS) (s.prate q) (s.pwidth q)

/-- RN_DL and SCHED_OK follow the rate, width and delay (R389, R391); the figures of the ACTIVE state
are kept for the description (Table 14-12). RN_DL.SLOTS has four bits: a larger DL reads 15. -/
def State.setFigures (s : State) (q : Nat) : State :=
  let pg := pgRunner q
  let d := s.portDl q
  let w := schedWords (s.prate q) (s.pwidth q)
  (s.wrs pg [(RN_DL_SLOTS, min 15 d), (RN_DL_SCHED_WORDS, w), (RN_PSTAT_SCHED_OK, (decide (d ≤ 7)).toNat)]).modPort q
    fun u => { u with shown := [s.pwidth q, s.prate q, min 15 d, w, s.rd pg RN_PARTNER_PORT, s.rd pg RN_PARTNER_PACKAGE] }

/-! ### Training (R366 to R369) -/

/-- Retraining is permitted: the port is unassigned or its partition is HELD, IDLE or DONE (R369). -/
def State.portFree (s : State) (q : Nat) : Bool :=
  match s.rnOwner q with
  | none => true
  | some p => s.atRest p

/-- The port enters a training state. -/
def State.enter (s : State) (q st : Nat) : State :=
  (s.wr (pgRunner q) RN_PSTAT_STATE st).modPort q fun u => { u with since := s.real }

/-- What a port keeps through a retraining: packets and words that wait, released words, its STOP and
the figures last shown, and the last grids of its eyes. Partly sent packets start again. -/
def RPort.restart (u : RPort) : RPort :=
  { txSched := u.txSched, txSync := u.txSync,
    txIndigo := u.txIndigo.map fun p => { p with sent := 0 },
    txWoad := u.txWoad.map fun p => { p with sent := 0 },
    rxSched := u.rxSched, released := u.released,
    stop := u.stop, shown := u.shown, markAt := u.markAt, grids := u.grids }

/-- The highest rate index set in a mask of Table 10-1's rates. -/
def topRate (m : Nat) : Nat := ((List.range 5).filter fun i => bit m i).foldl max 0

/-- The rates supported and enabled, as a mask. -/
def State.ownRates (s : State) (q : Nat) : Nat := 2 ^ (min 4 (s.rd (pgRunner q) RN_PCTRL_MAX_RATE) + 1) - 1

/-- The lanes of a port send a training set (R362): RTS1 on all of them, or RTS2 on those chosen. The preset asked for is free. -/
def State.sendSets (s : State) (q : Nat) (lanes : List Nat) (ty target width flags : Nat) : State :=
  let pkg := s.rd pgHall NW_HPKG_PKG
  let preset := Config.freeNat s.free % 16
  { (s.modPort q fun u => { u with rts := lanes.map fun l =>
      (l, rtsChars [ty, l, q, s.ownRates q, target, width, pkg % 256, pkg / 256, preset, flags, 0, 0, 0]) }) with free := s.free + 1 }

/-- Training starts from DETECT: RETRAIN and RETRAIN_DUE clear, keys and sequences are gone. -/
def State.beginTraining (s : State) (q : Nat) : State :=
  let pg := pgRunner q
  let s1 := (s.hwClear pg RN_PCTRL_RETRAIN).wrs pg [(RN_PSTAT_WIDTH, 0), (RN_PSTAT_RATE, 0), (RN_PSTAT_REVERSED, 0), (RN_PSTAT_RETRAIN_DUE, 0),
    (RN_PSTAT_SCHED_OK, 0), (RN_KEY_INDEX, 0), (RN_REPLAY_OUTSTANDING, 0),
    (RN_CREDIT_INDIGO, 0), (RN_CREDIT_WOAD, 0), (RN_CREDIT_SYNC, 0)]
  let s2 := (List.range 8).foldl (fun s l =>
    s.wrs (lanePage q l) [(RN_LSTAT_STATE, 1), (RN_LSTAT_POLINV, 0), (RN_LSTAT_FEC_LOCK, 0), (RN_LSLACK_OWED, 0)]) s1
  (((s2.wr pgMordant MD_LINKS_KEYED (setBit (s2.rd pgMordant MD_LINKS_KEYED) q false)).modPort q RPort.restart).enter q 1).sendSets q (List.range 8) 0x4A 0 0 0

/-- RN_TRAIN_FAIL with its state and the highest rate verified. -/
def State.trainFail (s : State) (q : Nat) : State :=
  s.raise (pgRunner q) ev_RN_TRAIN_FAIL (le 1 (s.pst q) ++ le 1 (s.port q).best)

/-- The width code of the lanes that both sides receive well (R367). -/
def trainWidth (both : Nat) : Nat := if hasAll both 0xFF then 3 else if hasAll both 0x0F then 1 else 2

/-- The lanes that receive: 8 consecutive RTS1 whose CHECK holds came, with their fields (R366). -/
def trainSeen (o : TrainObs) : List (RtsRun × List Nat) :=
  o.sets.filterMap fun x => match rtsFields x with
    | some f => if 8 ≤ x.runs ∧ f.headD 0 = 0x4A then some (x, f) else none
    | none => none

/-- The port is reversed: every lane that reads its own number or the opposite one reads the opposite (R365, log entry 165). -/
def trainReversed (o : TrainObs) : Bool :=
  let l := (trainSeen o).filter fun e => decide (e.2.getD 1 0 = e.1.lane ∨ e.2.getD 1 0 = 7 - e.1.lane)
  !l.isEmpty && l.all fun e => decide (e.2.getD 1 0 = 7 - e.1.lane)

/-- The lanes that read the number they are to read. -/
def trainPlaced (o : TrainObs) : List (RtsRun × List Nat) :=
  (trainSeen o).filter fun e => decide (e.2.getD 1 0 = if (trainReversed o) then 7 - e.1.lane else e.1.lane)

/-- Of these, by physical number, a mask. -/
def trainGood (o : TrainObs) : Nat := maskOf 8 fun l => (trainPlaced o).any fun e => decide (e.1.lane = l)

/-- A field of the partner's sets. -/
def trainField (o : TrainObs) (i : Nat) : Nat := (((trainPlaced o).head?.map fun e => e.2).getD []).getD i 0

/-- The physical lane behind a logical one. -/
def trainPhys (o : TrainObs) (l : Nat) : Nat := if (trainReversed o) then 7 - l else l

/-- The logical lanes received well, a mask. -/
def trainMask (o : TrainObs) : Nat := maskOf 8 fun l => bit (trainGood o) (trainPhys o l)

/-- DETECT (R364, R365): one half of the lanes has come up: polarity, reversal and the partner's fields are taken, and RTS2 goes out on the lanes
chosen. Until then RTS1 says which lanes are received well (R362). A WIDTH that shows no half of them yet says nothing (log entry 165). -/
def State.detect (s : State) (q : Nat) (o : TrainObs) : State :=
  if !hasAll (trainGood o) 0x0F && !hasAll (trainGood o) 0xF0 then s.sendSets q (List.range 8) 0x4A 0 (trainMask o) 0
  else
    let inv := maskOf 8 fun l => (trainPlaced o).any fun e => decide (e.1.lane = l) && rtsInverted e.1
    let s1 := (List.range 8).foldl (fun s l =>
      s.wrs (lanePage q l) [(RN_LSTAT_STATE, if bit (trainMask o) l then 1 else 3), (RN_LSTAT_PHYS, (trainPhys o l)),
        (RN_LSTAT_POLINV, (bit inv (trainPhys o l)).toNat)]) s
    let s2 := s1.wrs (pgRunner q) [(RN_PSTAT_REVERSED, (trainReversed o).toNat), (RN_PARTNER_PACKAGE, (trainField o 6) + 256 * (trainField o 7)),
      (RN_PARTNER_PORT, (trainField o 2)), (RN_PARTNER_RATES, (trainField o 3))]
    let both := (trainMask o) &&& (trainField o 5)
    let w := trainWidth (if hasAll both 0x0F || hasAll both 0xF0 then both else (trainMask o))
    let target := topRate (s.ownRates q &&& (trainField o 3))
    ((s2.enter q 2).modPort q fun u => { u with width := w, target := target }).sendSets q (lanesOf w) 0xB5 target
      (match w with | 1 => 0x0F | 2 => 0xF0 | _ => 0xFF) ((trainReversed o).toNat + (if inv = 0 then 0 else 2) + 4)

/-- 16 identical RTS2 came on every lane chosen (R366). -/
def State.agreed (s : State) (q : Nat) (o : TrainObs) : Bool :=
  (lanesOf (s.port q).width).all fun l => o.sets.any fun x =>
    decide (x.lane = s.rd (lanePage q l) RN_LSTAT_PHYS ∧ 16 ≤ x.runs) && (match rtsFields x with | some f => decide (f.headD 0 = 0xB5) | none => false)

/-- CONFIG (R367): width and target rate are set once the partner's RTS2 agree; a target below 2 ends in DOWN, with idle transmitters; x4 where
ALLOW_X4 is 0 waits for the timeout. -/
def State.config (s : State) (q : Nat) (o : TrainObs) : State :=
  let pg := pgRunner q
  let w := (s.port q).width
  if (s.port q).target < 2 then ((s.trainFail q).enter q 0).modPort q fun u => { u with rts := [] }
  else if !s.agreed q o || (decide (w ≠ 3) && !s.on pg RN_PCTRL_ALLOW_X4) then s
  else
    let s1 := (List.range 8).foldl (fun s l =>
      if !(lanesOf w).contains l && decide (s.rd (lanePage q l) RN_LSTAT_STATE ≠ 3) then s.wr (lanePage q l) RN_LSTAT_STATE 0 else s) s
    ((s1.wrs pg [(RN_PSTAT_WIDTH, w), (RN_PSTAT_RATE, 1)]).enter q 3).modPort q fun u => { u with rate := 1, fails := 0, best := 0, rts := [] }

/-- The lanes in use hold codeword lock, or have lost it. -/
def State.setLock (s : State) (q : Nat) (lock : Bool) : State :=
  (lanesOf (s.port q).width).foldl (fun s l => s.wr (lanePage q l) RN_LSTAT_FEC_LOCK lock.toNat) s

/-- The lanes restart at a new rate: what their coders held is gone. -/
def RPort.newRate (u : RPort) : RPort := { u with line := [], txLine := [], rxLine := [] }

/-- A rate is verified: over 2²⁷ symbols on every lane the locks held, no codeword was uncorrectable and at most 1 in 100,000 symbols was
corrected (R368). -/
def stepVerified (w : Nat) (l : List LaneStep) : Bool :=
  decide (l.length = (lanesOf w).length) && l.all fun x =>
    x.fec && x.block && decide (x.uncorr = 0 ∧ 2 ^ 27 ≤ x.symbols ∧ 100000 * x.corrected ≤ x.symbols)

/-- STEP has ended at its highest verified rate: DELAY at 2 or more, else DETECT (R368). A rate below the one tried last restarts. -/
def State.stepEnd (s : State) (q : Nat) : State :=
  let u := s.port q
  if u.best < 2 then s.beginTraining q
  else
    let s1 := (((s.wr (pgRunner q) RN_PSTAT_RATE u.best).setLock q true).enter q 4)
    let s2 := if u.best < u.rate then s1.modPort q RPort.newRate else s1
    if u.best < u.target then s2.raise (pgRunner q) ev_RN_LOW_RATE (le 1 u.best ++ le 1 u.target) else s2

/-- STEP (R368): the rate tried was verified, or has failed: the lanes restart at the next, or once more. -/
def State.stepRate (s : State) (q : Nat) (o : TrainObs) : State :=
  let u := s.port q
  if stepVerified u.width o.steps then
    if u.rate = u.target then (s.modPort q fun u => { u with best := u.rate }).stepEnd q
    else
      ((s.wr (pgRunner q) RN_PSTAT_RATE (u.rate + 1)).setLock q false).modPort q fun u =>
        { u.newRate with best := u.rate, rate := u.rate + 1, fails := 0, since := s.real }
  else if u.fails = 0 then (s.setLock q false).modPort q fun u => { u.newRate with fails := 1 }
  else s.stepEnd q

/-- The DOMAIN a port sends in KX1: its owner's seal's, or zero (R517). -/
def State.portDomain (s : State) (q : Nat) : Bytes :=
  match s.rnOwner q with
  | some p => if s.sealed p then slice (s.trusted p).domain 0 32 else List.replicate 32 0
  | none => List.replicate 32 0

/-- KEYX begins: this side's KX1 with fresh values; without entropy or keys it can only time out
(R489). -/
def State.beginKeyx (s : State) (q : Nat) : State :=
  let (d, n, s') := s.fresh
  if s.mordant.drbgFail || !s.mordant.keyed then s.enter q 5
  else (s'.enter q 5).modPort q fun u =>
    { u with eph := d, peer := none, prk := none, kxFailed := false
             own := some { devid := s.cert 1, alias1 := s.cert 2, alias2 := s.cert 3, epk := point d, nonce := n,
                           life := s.fuse.life.code, svn := s.fuse.svn, domain := s.portDomain q } }

/-- The mean one-way delay of the probes, ps: each by R45 with an asymmetry of zero. -/
def probeMean (l : List Probe) : Nat :=
  ((unitsPs ((l.map fun p => ((p.t4 : Int) - p.t1) - ((p.t3 : Int) - p.t2)).sum)) / (2 * l.length)).toNat

/-- DELAY (R388): after 64 probes RN_DELAY is the mean of both sides' means, rounded down. -/
def State.delayDone (s : State) (q : Nat) (o : TrainObs) : State :=
  if o.probes.length = 64 then (s.wr (pgRunner q) RN_DELAY_PS ((probeMean o.probes + o.partnerMean) / 2)).beginKeyx q else s

/-- The event level of the port's page returns to none, unless it is Lampblack (R603). -/
def State.levelNone (s : State) (pg : Nat) : State := if s.rd pg PAGE_STAT_LEVEL = 3 then s else s.wr pg PAGE_STAT_LEVEL 0

/-- The ageing record of lane `l` of port `q` after its training (R599). -/
def State.ageLane (s : State) (q l : Nat) : State :=
  let pg := lanePage q l
  s.ageTrained { seq := 0, unit := pg, hours := 0, kind := 4, index := l, phase := s.rd pg RN_EYE_MARGIN_PHASE, volt := s.rd pg RN_EYE_MARGIN_VOLT }

/-- The port becomes ACTIVE: figures, full credits (R379), FOREIGN status (R517); LCFs count from here (R381). -/
def State.goActive (s : State) (q : Nat) : State :=
  let u := s.port q
  let foreign := match s.rnOwner q, u.own, u.peer with
    | some p, some a, some b => s.sealed p && decide (a.domain ≠ b.domain)
    | _, _, _ => false
  let s1 := (s.enter q 6).setFigures q
  let s2 := (s1.wrs (pgRunner q) [(RN_CREDIT_SYNC, 64), (RN_CREDIT_INDIGO, 256), (RN_CREDIT_WOAD, 4096), (RN_KEY_INDEX, 0)]).levelNone (pgRunner q)
  let s3 := (lanesOf u.width).foldl (fun s l => s.wr (lanePage q l) RN_LSTAT_STATE 2) (s2.modPort q fun u => { u with lcfTx := 0, lcfRx := 0, heard := none })
  let s4 := (s3.wr pgMordant MD_FOREIGN_PORTS (setBit (s3.rd pgMordant MD_FOREIGN_PORTS) q foreign)).trainedFull (pgRunner q) true
  (lanesOf u.width).foldl (fun s l => s.ageLane q l) s4

/-- The port may train: start-up has reached stage 8 and the link macros are clocked. -/
def State.canTrain (s : State) : Bool := decide (8 ≤ s.boot.next) && s.pins.refclk && !s.pins.gated

/-- TRAINING_STATE_ADVANCE (R366): the port goes on where what it receives meets its state's condition. -/
def execTrainingStateAdvance (port : Fin 24) (obs : TrainObs) (s : State) :
    Host.Outcome State Fault Refusal :=
  finishD (evented ++ [.ledger, .descs, .runner]) s <|
    let q := port.val
    match s.pst q with
    | 0 => if s.canTrain && s.on (pgRunner q) RN_PCTRL_ENABLE && s.portFree q then s.beginTraining q else s
    | 1 => s.detect q obs
    | 2 => s.config q obs
    | 3 => s.stepRate q obs
    | 4 => s.delayDone q obs
    | 5 => if (s.port q).prk.isSome && obs.keyed then s.goActive q else s
    | _ => s

/-- MD_KEYX_FAIL for port `q`; the port stays in KEYX until its timeout (R495). -/
def State.keyxFail (s : State) (q cause : Nat) : State :=
  ((s.bump pgMordant MD_FAIL_KEYX).raise pgMordant ev_MD_KEYX_FAIL (le 1 q ++ le 1 cause)).modPort q
    fun u => { u with kxFailed := true }

/-- The timeout of a training state (Table 10-4), 0.8-ns ticks; 0 none. -/
def trainLimit (st : Nat) : Nat :=
  match st with
  | 2 => 2 * msTicks | 3 => 25 * msTicks | 4 => msTicks | 5 => 20 * msTicks | _ => 0

/-- TRAINING_TIMEOUT (R366): the port returns to DETECT, RN_TRAIN_FAIL, RN_TRAIN; in KEYX the key
agreement has failed too (R495). -/
def execTrainingTimeout (port : Fin 24) (s : State) : Host.Outcome State Fault Refusal :=
  finish (evented ++ [.runner]) s <|
    let q := port.val
    let st := s.pst q
    if trainLimit st ≠ 0 ∧ trainLimit st ≤ s.real - (s.port q).since then
      let s1 := if st = 5 ∧ (s.port q).kxFailed = false ∧ (s.port q).prk = none then s.keyxFail q 3 else s
      ((s1.trainFail q).bump (pgRunner q) RN_TRAIN_FAILS |>.wr (pgRunner q) RN_TRAIN_FAIL_STATE st).beginTraining q
    else s

/-! ### Key agreement (R495, R496) -/

/-- A KX1 as hashed: its fields in the order R495 names them (log entry 33). -/
def Kx1.bytes (k : Kx1) : Bytes :=
  k.devid ++ k.alias1 ++ k.alias2 ++ k.epk ++ k.nonce ++ le 1 k.life ++ le 1 k.svn ++ k.domain

/-- The public key of a certificate that chains to the Ngaver root. -/
def State.certKey (s : State) (c : Bytes) : Option Bytes := (s.pki.find? fun e => decide (e.1 = c)).map fun e => e.2

/-- The digest both KX2 sign. -/
def kxDigest (first : Bool) (a b : Kx1) : Bytes :=
  if first then sha256 (Kx1.bytes a ++ Kx1.bytes b) else sha256 (Kx1.bytes b ++ Kx1.bytes a)

/-- KX1 received: chain and lifecycle are checked, the sides ordered, KX2 signed. -/
def State.takeKx1 (s : State) (q : Nat) (a k : Kx1) : State :=
  match s.certKey k.devid, s.certKey k.alias1, s.certKey k.alias2 with
  | some dk, some _, some _ =>
    if s.fuse.life = .deployed ∧ k.life ≠ 2 then s.keyxFail q 1
    else
      let first := decide (beNat (sha256 (point s.mordant.devid)) < beNat (sha256 dk))
      let sig := s.sign (kxDigest first a k)
      { s.modPort q fun u => { u with peer := some k, first := first, kx2 := sig } with free := s.free + 1 }
  | _, _, _ => s.keyxFail q 0

/-- KX2 received: the partner's signature is checked and PRK computed. -/
def State.takeKx2 (s : State) (q : Nat) (a k : Kx1) (sig : Bytes) : State :=
  let u := s.port q
  match s.certKey k.alias2, shared u.eph k.epk with
  | some key, some z =>
    if verify key (kxDigest u.first a k) sig then
      let salt := if u.first then a.nonce ++ k.nonce else k.nonce ++ a.nonce
      (s.modPort q fun u => { u with prk := some (extract salt z), loaded := 1 }).wr pgMordant MD_LINKS_KEYED
        (setBit (s.rd pgMordant MD_LINKS_KEYED) q true)
    else s.keyxFail q 2
  | _, _ => s.keyxFail q 2

/-- KEYX_MESSAGE (R495). -/
def execKeyxMessage (port : Fin 24) (msg : KxMsg) (s : State) : Host.Outcome State Fault Refusal :=
  finish (evented ++ [.runner]) s <|
    let q := port.val
    let u := s.port q
    if s.pst q ≠ 5 ∨ u.kxFailed then s
    else match u.own, u.peer, msg with
      | some a, none, .kx1 k => s.takeKx1 q a k
      | some a, some k, .kx2 sig => if u.prk.isSome then s else s.takeKx2 q a k sig
      | _, _, _ => s

/-- Traffic key `i` of the side in first or second position, and its SALT (R496). -/
def trafficKey (prk : Bytes) (first : Bool) (i : Nat) : Bytes :=
  expand prk (label "VZX8 RUNNER KEY" ++ label (if first then "F" else "S") ++ le 8 i) 32
def trafficSalt (prk : Bytes) (first : Bool) : Bytes :=
  expand prk (label "VZX8 RUNNER SALT" ++ label (if first then "F" else "S")) 4

/-! ### Link loss (R384) -/

/-- A response to a request packet that carries a status alone. -/
def statusPacket (p : Packet) (pkg st : Nat) : Packet :=
  { dest := p.srcPkg * 2 ^ 48, src := p.src, op := p.op, ctrl := 0x80 + 1 * 16 + p.ctrl % 8, status := st, tag := p.tag, ty := p.ty,
    srcPkg := pkg, body := List.replicate 32 0 }

/-- A request packet that came in on port `q`, or passed it in transit, is answered with a status, by the
routes of the port's partition. -/
def State.sendBack (s : State) (q : Nat) (p : Packet) (st : Nat) : State :=
  match (s.rnOwner q).bind fun o => s.routeFor o p.srcPkg with
  | some o => s.enqueue o false { pkt := statusPacket p s.pkg st }
  | none => s.countRoute p.srcPkg

/-- A packet waiting in the transmit queue of port `q` when the link is lost: an own request completes
with ROUTE-LOST, a request in transit is answered so to its source, a response or a STOP_RELAY is
discarded. -/
def State.losePacket (s : State) (q : Nat) (p : TxPkt) : State :=
  let s1 := s.countRoute (p.pkt.dest / 2 ^ 48 % 2 ^ 16)
  match p.id.bind fun id => (s.req id).map fun r => (id, r) with
  | some (id, r) => s1.completeReq id r { status := xROUTELOST }
  | none => if bit p.pkt.ctrl 7 || p.pkt.op == 0x3F then s1 else s1.sendBack q p.pkt xROUTELOST

/-- The packets that wait on a port. -/
def State.waiting (s : State) (q : Nat) : List TxPkt := (s.port q).txIndigo ++ (s.port q).txWoad

/-- A link falls: the waiting packets end ROUTE-LOST, and training starts (R369). -/
def State.dropLink (s : State) (q : Nat) : State :=
  let s1 := (s.modPort q fun u => { u with txIndigo := [], txWoad := [] }).wr (pgRunner q) RN_PSTAT_STATE 1
  ((s.waiting q).foldl (fun s p => s.losePacket q p) s1).beginTraining q

/-- The link is lost: RN_PORT_DOWN. -/
def State.linkLost (s : State) (q cause : Nat) : State :=
  (s.raise (pgRunner q) ev_RN_PORT_DOWN (le 1 cause ++ le 3 0 ++ le 4 (s.waiting q).length)).dropLink q

/-- A port of a partition whose seal begins or ends retrains as on link loss, with MD_PORT_REKEY (R514). -/
def State.rekeyPort (s : State) (q : Nat) : State :=
  if s.rd (pgRunner q) RN_PSTAT_STATE = 0 then s else (s.raise (pgRunner q) ev_MD_PORT_REKEY (le 1 q)).dropLink q

/-- Every Runner port of partition `p` does. -/
def State.rekeyPorts (s : State) (p : Nat) : State :=
  ((List.range 24).filter fun q => decide (s.rnOwner q = some p)).foldl State.rekeyPort s

/-- LINK_LOSS (R384): one of the causes stands: a block resent 4 times, ACK_SEQ stalled for 1,024 block
times, 64 LCFs in a row unauthenticated, a key absent at its switch. -/
def execLinkLoss (port : Fin 24) (cause : Fin 4) (s : State) : Host.Outcome State Fault Refusal :=
  finish (evented ++ [.resets, .hall, .runner, .gcores]) s <|
    let q := port.val
    let u := s.port q
    let holds : Bool := match cause.val with
      | 0 => u.unacked.any fun b => decide (4 ≤ b.resent)
      | 1 => decide (1024 ≤ u.stall)
      | 2 => decide (64 ≤ u.badLtag)
      | _ => decide (u.txSeq = (s.rd (pgRunner q) RN_KEY_INDEX + 1) * 2 ^ 32 ∧ u.loaded ≤ s.rd (pgRunner q) RN_KEY_INDEX + 1)
    if s.pst q = 6 ∧ holds then s.linkLost q cause else s

/-- TRAFFIC_KEY_SWITCH (R382): at block (i + 1) × 2^32 the port goes on under key i + 1, or the link is
lost where Mordant has not loaded it. -/
def execTrafficKeySwitch (port : Fin 24) (s : State) : Host.Outcome State Fault Refusal :=
  finish (evented ++ [.resets, .hall, .runner, .gcores]) s <|
    let q := port.val
    let i := s.rd (pgRunner q) RN_KEY_INDEX
    if s.pst q = 6 ∧ (s.port q).txSeq = (i + 1) * 2 ^ 32 then
      if i + 1 < (s.port q).loaded then s.wr (pgRunner q) RN_KEY_INDEX (i + 1) else s.linkLost q 3
    else s

/-! ### Retraining (R369) -/

/-- The port asks for retraining: the request goes into the next LCF while its own side permits it. -/
def State.askRetrain (s : State) (q : Nat) : State :=
  if s.pst q = 6 then
    s.modPort q fun u => { u with asking := true, linkReq := if s.portFree q then 2 else u.linkReq }
  else if s.pst q = 0 ∧ s.canTrain ∧ s.on (pgRunner q) RN_PCTRL_ENABLE ∧ s.portFree q then s.beginTraining q
  else s

/-- The last LCF came with a good LTAG and this LINK_REQ (R381). -/
def State.hears (s : State) (q req : Nat) : Bool := match (s.port q).heard with | some l => decide (l.req = req) | none => false

/-- RETRAIN (R369): the partner's request, in an LCF that verified, is accepted where this side permits it, and the port trains
once the RETRAIN_ACK has left; otherwise nothing is sent. -/
def execRetrain (port : Fin 24) (s : State) : Host.Outcome State Fault Refusal :=
  finish [.runner] s <|
    if s.pst port = 6 ∧ s.portFree port ∧ s.hears port 2 then
      s.modPort port fun u => { u with linkReq := 5, accepted := true, heard := none }
    else s

/-! ### Narrowing (R395 to R397) -/

/-- Every lane of a half is not failed. -/
def State.halfGood (s : State) (q h : Nat) : Bool :=
  (lanesOf (h + 1)).all fun l => decide (s.rd (lanePage q l) RN_LSTAT_STATE ≠ 3)

/-- The port runs x4 on half `h`; its figures and what the description shows follow at once. -/
def State.narrowTo (s : State) (q h : Nat) : State :=
  let s1 := (lanesOf (2 - h)).foldl (fun s l =>
    (if s.rd (lanePage q l) RN_LSTAT_STATE = 3 then s else s.wr (lanePage q l) RN_LSTAT_STATE 0).wr (lanePage q l) RN_LSTAT_FEC_LOCK 0) s
  ((s1.wr (pgRunner q) RN_PSTAT_WIDTH (h + 1)).setFigures q).modPort q fun u => { u with narrow := none, heard := none }

/-- The cause byte of a link lost to its lanes is not given: a free value. -/
def State.lanesLost (s : State) (q : Nat) : State :=
  { s with free := s.free + 1 }.linkLost q (Config.freeNat s.free)

/-- The lane has failed by this cause (R395); a lost lock is what the receiver reports. -/
def State.laneFails (s : State) (q : Nat) (x : LaneFault) : Bool :=
  let pg := lanePage q x.lane
  match x.cause.val with
  | 0 => true
  | 1 => decide (s.rd pg RN_EYE_MARGIN_PASSES ≠ 0 ∧ (s.rd pg RN_EYE_MARGIN_PHASE = 0 ∨ s.rd pg RN_EYE_MARGIN_VOLT = 0))
  | 2 => let n := aget (0, 0) (s.port q).uncorr x.lane; decide (n.1 = s.epoch ∧ 16 < n.2)
  | _ => decide (256 < s.rd pg RN_LSLACK_OWED)

/-- RUNNER_LANE_FAILURE (R395, R396): on an x8 port NARROW is asked for with the half that has no failed
lane, RN_NARROW; an x4 port, or one with a failed lane in each half, is lost. -/
def execRunnerLaneFailure (port : Fin 24) (fault : LaneFault) (s : State) : Host.Outcome State Fault Refusal :=
  finishD (evented ++ [.resets, .descs, .hall, .runner, .gcores]) s <|
    let q := port.val
    let lane := fault.lane.val
    if s.pst q ≠ 6 ∨ !(lanesOf (s.pwidth q)).contains lane ∨ !s.laneFails q fault then s
    else
      let s1 := (s.wr (lanePage q lane) RN_LSTAT_STATE 3).wr (lanePage q lane) RN_LSTAT_FEC_LOCK 0
      if s.pwidth q ≠ 3 ∨ (!s1.halfGood q 0 && !s1.halfGood q 1) then s1.lanesLost q
      else
        let h := if s1.halfGood q 0 then 0 else 1
        (s1.modPort q fun u => { u with linkReq := 1, linkArg := h, narrow := some h }).raise (pgRunner q) ev_RN_NARROW
          (le 1 lane ++ le 1 h)

/-- NARROW (R396, R397): a NARROW of the partner, in an LCF that verified, is echoed and both directions go to x4; where this side
named a half itself, the same half is kept or the port is lost. The failed lane the echoing side's
RN_NARROW names is a free value. -/
def execNarrow (port : Fin 24) (upper : Bool) (s : State) : Host.Outcome State Fault Refusal :=
  finishD (evented ++ [.resets, .descs, .hall, .runner, .gcores]) s <|
    let q := port.val
    if s.pst q ≠ 6 ∨ s.pwidth q ≠ 3 ∨ !s.hears q 1 ∨ (s.port q).heard.map Lcf.arg ≠ some upper.toNat then s
    else match (s.port q).narrow with
      | some h => if h = upper.toNat then s.narrowTo q h else s.lanesLost q
      | none =>
        let s1 := (s.modPort q fun u => { u with linkReq := 1, linkArg := upper.toNat }).raise (pgRunner q) ev_RN_NARROW
          ([Config.freeByte s.free 0] ++ le 1 upper.toNat)
        { s1.narrowTo q upper.toNat with free := s.free + 1 }

/-! ### Eye scans (R393, R394) -/

/-- The distance to the nearest point of one arm that counted more than one error; none where no point
of the arm did. `at_ d` is the count at distance `d`. -/
def armMargin (at_ : Nat → Nat) (n : Nat) : Option Nat := (List.range (n + 1)).find? fun d => decide (1 < at_ d)

/-- The margin over two arms; where neither fails, the spec states none: `free`. -/
def twoArms (a b : Option Nat) (free : Nat) : Nat :=
  match a, b with
  | some x, some y => min x y
  | some x, none => x
  | none, some y => y
  | none, none => free

/-- PHASE and VOLT of a grid, counts by (p + 32) × 64 + (v + 32). -/
def gridMargins (g : List (Nat × Nat)) (f1 f2 : Nat) : Nat × Nat :=
  let c (p v : Nat) := aget 0 g (p * 64 + v)
  (twoArms (armMargin (fun d => c (32 - d) 32) 32) (armMargin (fun d => c (32 + d) 32) 31) f1,
    twoArms (armMargin (fun d => c 32 (32 + d)) 31) (armMargin (fun d => c 32 (32 - d)) 32) f2)

/-- The eyes a lane scans: all three, or the one RN_EYE_CTRL names. -/
def State.eyesOf (s : State) (pg : Nat) : List Nat :=
  match s.rd pg RN_EYE_CTRL_EYE with
  | 0 => [1, 2, 3]
  | e => [e]

/-- All eyes of a lane have been scanned: RN_EYE_MARGIN holds the worst, the ledger follows (R599), and
a margin below its threshold sets RETRAIN_DUE and raises RN_MARGIN_LOW. -/
def State.eyesDone (s : State) (q l : Nat) (ms : List (Nat × Nat × Nat)) : State :=
  let pg := lanePage q l
  let low := ms.foldl (fun (b : Nat × Nat × Nat) e => if min e.2.1 e.2.2 < min b.2.1 b.2.2 then e else b) (0, 255, 255)
  let worst := low.1
  let ph := low.2.1
  let vo := low.2.2
  let s1 := (s.wrs pg [(RN_EYE_MARGIN_PHASE, ph), (RN_EYE_MARGIN_VOLT, vo), (RN_EYE_MARGIN_EYE, worst)]).bump pg RN_EYE_MARGIN_PASSES
  let s2 := s1.ageMoved { seq := 0, unit := pg, hours := 0, kind := 4, index := l, phase := ph, volt := vo }
  if ms.any fun e => decide (e.2.1 < s.rd pg RN_MARGIN_MIN_PHASE ∨ e.2.2 < s.rd pg RN_MARGIN_MIN_VOLT) then
    (s2.wr (pgRunner q) RN_PSTAT_RETRAIN_DUE 1).raise (pgRunner q) ev_RN_MARGIN_LOW
      (le 1 l ++ le 1 worst ++ le 1 ph ++ le 1 vo)
  else s2

/-- A grid's counts: 64 by 64 points, each over 2^DWELL symbols (R393). -/
def eyeGrid (dwell : Nat) (g : List (Nat × Nat)) : List (Nat × Nat) :=
  (g.filter fun e => decide (e.1 < 4096)).map fun e => (e.1, min e.2 (2 ^ dwell))

/-- The eye whose turn it is: the first that has not been scanned in this pass (R393). -/
def State.eyeTurn (s : State) (q l : Nat) : Option Nat :=
  (s.eyesOf (lanePage q l)).find? fun e => !((s.port q).eyes.any fun z => decide (z.1 = l * 4 + e))

/-- EYE_SCAN_GRID_END (R393, R394): a grid of eye `eye` (0 upper, 1 middle, 2 lower), in its turn, of a lane in use ends. -/
def execEyeScanGridEnd (port : Fin 24) (lane : Fin 8) (eye : Fin 3) (grid : List (Nat × Nat)) (s : State) :
    Host.Outcome State Fault Refusal :=
  finish (evented ++ [.ledger, .runner]) s <|
    let q := port.val
    let pg := lanePage q lane
    let e := eye.val + 1
    if s.pst q = 6 && (lanesOf (s.pwidth q)).contains lane.val && s.on pg RN_EYE_CTRL_ENABLE && decide (s.eyeTurn q lane = some e) then
      let grid := eyeGrid (s.rd pg RN_EYE_CTRL_DWELL) grid
      let m := gridMargins grid (Config.freeNat s.free % 33) (Config.freeNat (s.free + 1) % 33)
      let k := lane.val * 4
      let s1 := { s with free := s.free + 2 }.modPort q fun u =>
        { u with grids := ains (k + e) grid u.grids, eyes := ains (k + e) m u.eyes }
      let got : List (Nat × Nat × Nat) := (s1.eyesOf pg).filterMap fun x => ((s1.port q).eyes.find? fun z => decide (z.1 = k + x)).map fun z => (x, z.2)
      if got.length = (s1.eyesOf pg).length then
        (s1.eyesDone q lane got).modPort q fun u =>
          { u with eyes := u.eyes.filter fun z => decide (z.1 < k ∨ k + 4 ≤ z.1) }
      else s1
    else s

/-! ### Time marks (R392) -/

/-- TIME_MARK_SEND (R392): a multiple of 1,024 ticks has come: the next LCF carries a mark. -/
def execTimeMarkSend (port : Fin 24) (s : State) : Host.Outcome State Fault Refusal :=
  finish [.runner] s <|
    let n := s.time.ticks / 1024 + 1
    if s.pst port = 6 ∧ (s.port port).markAt < n then
      s.modPort port fun u => { u with markDue := true, markAt := n }
    else s

/-- The last LCF came with a good LTAG and this mark: TM_VALID, its stamp, the sender's state, and its arrival (R392). -/
def State.marks (s : State) (q stamp state arrival : Nat) : Bool :=
  match (s.port q).heard with
  | some l => bit l.flags 4 && decide (l.stamp = stamp ∧ l.flags / 32 = state ∧ l.arrival = arrival)
  | none => false

/-- TIME_MARK (R392): the mark's offset is T − RN_DELAY − TM_STAMP, for R54 and R57; a mark in an LCF whose LTAG failed is ignored. -/
def execTimeMark (port : Fin 24) (stamp : Nat) (state : Fin 5) (arrival : Nat) (s : State) :
    Host.Outcome State Fault Refusal :=
  finish (evented ++ [.time]) s <|
    let q := port.val
    if s.pst q = 6 ∧ s.marks q stamp state.val arrival then
      let o := unitsPs ((arrival : Int) - stamp) - s.rd (pgRunner q) RN_DELAY_PS
      let s1 := (s.hwPut (pgRunner q) RN_TM_STATE_FRESH 1).wrs (pgRunner q) [(RN_TM_OFFSET_PS, ofInt 32 o), (RN_TM_STATE_PARTNER, state)]
      (s1.modTime fun u => { u with marks := ains q ⟨s.real, o, decide (state.val = 2)⟩ u.marks }).crossCheck
    else s

end Sys2Proof.Machine
end

