-- ==== Sys2Proof/Machine/RunnerData.lean ====
section
/-!
DEFINITION. Machine/RunnerData.lean: blocks, link control flits and scheduled words of a Runner port
(R370 to R391).
-/

namespace Sys2Proof.Machine

open Sys2Proof

/-! ### Packets as bytes (Tables 7-5, 11-4) -/

/-- A packet from its header flit, its payload still to come. -/
def packetOf (b : Bytes) : Packet :=
  { dest := fieldAt b 0 8, src := fieldAt b 8 4, op := fieldAt b 0x0C 1, ctrl := fieldAt b 0x0D 1, status := fieldAt b 0x0F 1,
    tag := fieldAt b 0x10 2, poison := fieldAt b 0x14 4, ty := fieldAt b 0x18 1, hops := fieldAt b 0x19 1,
    len := fieldAt b 0x1A 2, srcPkg := fieldAt b 0x1C 2, body := slice b 0x20 32 }

/-- Unit `k` of a packet: its header, then its payload flits, with the poison bit of each. -/
def Packet.unit (p : Packet) (k : Nat) : Bytes × Bool :=
  if k = 0 then (p.header, false) else (slice p.payload (64 * (k - 1)) 64, bit p.poison (k - 1))

/-! ### Filling a block (R377, R378) -/

/-- A block being filled: the port, the credits left, the flits so far (last first), FTYPE, UTYPE and
POISON. -/
structure Filling where
  port : RPort
  sync : Nat
  indigo : Nat
  woad : Nat
  flits : List Bytes := []
  ftype : Nat := 0
  utype : Nat := 0
  poison : Nat := 0
  deriving DecidableEq, Repr

/-- A packet queue after its next unit has left. -/
def afterUnit (p : TxPkt) (ps : List TxPkt) : List TxPkt :=
  if p.sent < p.pkt.flits then { p with sent := p.sent + 1 } :: ps else ps

/-- The next Woad unit against a credit. -/
def Filling.woads (f : Filling) : Option ((Nat × Bytes × Bool) × Filling) :=
  match f.port.txWoad with
  | p :: ps =>
    if 0 < f.woad then
      some ((2, p.pkt.unit p.sent), { f with woad := f.woad - 1, port := { f.port with txWoad := afterUnit p ps } })
    else none
  | [] => none

/-- The next Indigo unit, else the next Woad unit. -/
def Filling.packets (f : Filling) : Option ((Nat × Bytes × Bool) × Filling) :=
  match f.port.txIndigo with
  | p :: ps =>
    if 0 < f.indigo then
      some ((1, p.pkt.unit p.sent), { f with indigo := f.indigo - 1, port := { f.port with txIndigo := afterUnit p ps } })
    else f.woads
  | [] => f.woads

/-- The next unit in the order sync, Indigo, Woad, each only against a credit (R378, R379). -/
def Filling.next (f : Filling) : Option ((Nat × Bytes × Bool) × Filling) :=
  match f.port.txSync with
  | t :: ts =>
    if 0 < f.sync then
      let b := (t.map tokenBytes).flatten ++ (List.replicate (4 - t.length) emptyToken).flatten
      some ((3, b, false), { f with sync := f.sync - 1, port := { f.port with txSync := ts } })
    else f.packets
  | [] => f.packets

/-- Up to `n` units for one PACKET flit. -/
def Filling.units : Nat → Filling → List (Nat × Bytes × Bool) × Filling
  | 0, f => ([], f)
  | n + 1, f =>
    match f.next with
    | none => ([], f)
    | some (x, g) => let r := Filling.units n g; (x :: r.1, r.2)

/-- Flit `j` (from 0) of the payload, of type `ft`, with its units. -/
def Filling.put (f : Filling) (j ft : Nat) (us : List (Nat × Bytes × Bool)) : Filling :=
  let code (x : Nat × Bytes × Bool) := x.1
  { f with
    flits := slice ((us.map fun x => slice x.2.1 0 64).flatten) 0 256 :: f.flits
    ftype := f.ftype + ft * 4 ^ j
    utype := f.utype + ((us.zipIdx).foldl (fun m e => m + code e.1 * 4 ^ (4 * j + e.2)) 0)
    poison := f.poison + ((us.zipIdx).foldl (fun m e => m + e.1.2.2.toNat * 2 ^ (4 * j + e.2)) 0) }

/-- The four 64-byte units of half `h` of a bulk word. -/
def halfUnits (w : BWord) (h : Nat) : List (Nat × Bytes × Bool) :=
  (List.range 4).map fun i => (0, slice w.data (256 * h + 64 * i) 64, bit w.poison (4 * h + i))

/-- Flit position `j`: the next half of a scheduled word, else a PACKET flit, else a NULL flit. -/
def Filling.step (f : Filling) (j : Nat) : Filling :=
  match f.port.half, f.port.txSched with
  | some w, _ => { f with port := { f.port with half := none } }.put j 1 (halfUnits w 1)
  | none, w :: ws => { f with port := { f.port with txSched := ws, half := some w } }.put j 1 (halfUnits w 0)
  | none, [] =>
    let r := f.units 4
    if r.1.isEmpty then r.2.put j 0 [] else r.2.put j 2 r.1

/-! ### Link control flits (R374, R376, R381) -/

/-- LANE units: at x4, units L and L + 4 both serve lane L of the half in use. -/
def laneUnits (w seq : Nat) : Bytes :=
  ((List.range 8).map fun k =>
    let l := if w = 3 then k else k % 4 + (if w = 2 then 4 else 0)
    le 1 0xB5 ++ le 1 (l + (if w = 3 then 0 else 8)) ++ le 2 seq).flatten

/-- LCF bytes 0x28 to 0x4F. -/
def State.lcfMid (s : State) (q : Nat) (replay fill : Bool) : Bytes :=
  let u := s.port q
  let lock := (lanesOf (s.pwidth q)).all fun l => s.on (lanePage q l) RN_LSTAT_FEC_LOCK
  let flags := lock.toNat + 2 * u.nakTx.toNat + 4 * replay.toNat + 8 * fill.toNat + 16 * u.markDue.toNat + 32 * s.time.state.code
  le 8 ((u.rxSeq + 2 ^ 64 - 1) % 2 ^ 64) ++ le 2 u.freeSync ++ le 2 u.freeIndigo ++ le 2 u.freeWoad ++ le 1 u.linkReq ++
    le 1 u.linkArg ++ le 1 flags ++ le 7 0 ++ (if u.markDue then le 10 (stampOf s.time.ticks 0) else le 10 0) ++ le 6 0

/-- LTAG (R381): the nonce is SALT with its top bit flipped, then the count of LCFs sent. -/
def lcfTag (prk : Bytes) (first : Bool) (i count : Nat) (mid : Bytes) : Bytes :=
  gmac (trafficKey prk first i) (beNat (le 4 (unle (trafficSalt prk first) ^^^ 0x80000000) ++ le 8 count)) mid

/-- The GCM nonce and the additional data of a block (R380). -/
def blockNonce (prk : Bytes) (first : Bool) (seq : Nat) : Nat := beNat (trafficSalt prk first ++ le 8 seq)
def blockAad (seq ftype utype poison : Nat) : Bytes := le 8 seq ++ le 16 ftype ++ le 64 utype ++ le 32 poison

/-- A whole LCF: its TAG is that of the block before its own (R380), and zero in a fill block's (R385). -/
def State.lcf (s : State) (q : Nat) (b : TxBlock) (replay fill : Bool) : Bytes :=
  let u := s.port q
  let mid := s.lcfMid q replay fill
  let tag := match u.prk with
    | some k => lcfTag k u.first (s.rd (pgRunner q) RN_KEY_INDEX) u.lcfTx mid
    | none => List.replicate 16 0
  laneUnits (s.pwidth q) b.seq ++ le 8 b.seq ++ mid ++ le 16 b.ftype ++ le 64 b.utype ++ le 32 b.poison ++
    slice b.before 0 16 ++ slice tag 0 16 ++ List.replicate 32 0

/-- A port's lanes are in PAM4 at rates 2 to 4, in NRZ at rate 1 (Table 10-1). -/
def State.portPam (s : State) (q : Nat) : Bool := decide (s.prate q ≠ 1)

/-- SLACK symbols of an LCF on one lane (R374). -/
def slackSymbols (pam : Bool) (w : Nat) : Nat := (if w = 3 then 16 else 32) * (if pam then 1 else 2)

/-- The lanes' stuffing over one block: the LCF leaves out what is owed, the block's own stuff symbols are owed after. -/
def State.stuffing (s : State) (q : Nat) (symbols : List (List LineSym)) : State :=
  let pam := s.portPam q
  let slack := slackSymbols pam (s.pwidth q)
  (lanesOf (s.pwidth q)).foldl (fun s l =>
    let pg := lanePage q l
    let o := s.rd pg RN_LSLACK_OWED
    let r := (aget {} (s.port q).txLine l).send pam slack o (symbols.getD l [])
    ((s.wr pg RN_LSLACK_OWED (min 511 (o - min o slack + r.2))).bump pg RN_LSTUFF_TX r.2).modPort q fun u =>
      { u with txLine := ains l r.1 u.txLine }) s

/-- What the leaving of an LCF and its payload changes: its bytes go out on the lanes, scrambled and coded (R370 to R372); its counts and requests are spent. A RETRAIN_ACK
that leaves starts the training, where the port's owner still permits it (R369). -/
def State.lcfLeft (s : State) (q : Nat) (lcf ct : Bytes) (symbols : List (List LineSym)) : State :=
  let s1 := (s.stuffing q symbols).modPort q fun u =>
    { u with lcfTx := u.lcfTx + 1, freeSync := 0, freeIndigo := 0, freeWoad := 0, linkReq := 0,
             linkArg := 0, markDue := false, wire := some (lcf, ct), line := (u.line_ (s.pwidth q) (lanesOf (s.pwidth q)) (lcf ++ ct)).line,
             stall := if u.unacked.isEmpty then 0 else u.stall + 1 }
  if (s.port q).linkReq = 5 ∧ (s.port q).accepted then (if s.portFree q then s1.beginTraining q else s1.modPort q fun u => { u with accepted := false })
  else s1

/-- A block goes onto the line: ciphertext under the key of its own number (R380, R397). -/
def State.sendBlock (s : State) (q : Nat) (prk : Bytes) (b : TxBlock) (replay : Bool) (symbols : List (List LineSym)) : State :=
  let u := s.port q
  let key := trafficKey prk u.first (b.seq / 2 ^ 32)
  let n := blockNonce prk u.first b.seq
  let ct := gcmText key n b.plain
  let s1 := if replay then s else s.modPort q fun u => { u with lastTag := gcmTag key n (blockAad b.seq b.ftype b.utype b.poison) ct }
  s1.lcfLeft q (s.lcf q b replay false) ct symbols

/-- Mordant loads the next traffic key with the first use of the one before (R382, R496; log entry 34);
RN_KEY_LATE where it has not by the deadline. -/
def State.keyCare (s : State) (q : Nat) : State :=
  let u := s.port q
  let i := s.rd (pgRunner q) RN_KEY_INDEX
  let s1 := if s.mordant.keyed && decide (u.loaded ≤ i + 1) then s.modPort q fun u => { u with loaded := i + 2 } else s
  let v := s1.port q
  if v.loaded ≤ i + 1 ∧ (i + 1) * 2 ^ 32 ≤ v.txSeq + 2 ^ 20 ∧ v.lateFor ≠ i + 1 then
    (s1.raise (pgRunner q) ev_RN_KEY_LATE (le 4 (i + 1))).modPort q fun u => { u with lateFor := i + 1 }
  else s1

/-- A new block is formed from what waits and sent. -/
def State.newBlock (s : State) (q : Nat) (prk : Bytes) (symbols : List (List LineSym)) : State :=
  let pg := pgRunner q
  let u := s.port q
  let f := (List.range 63).foldl Filling.step
    { port := u, sync := s.rd pg RN_CREDIT_SYNC, indigo := s.rd pg RN_CREDIT_INDIGO, woad := s.rd pg RN_CREDIT_WOAD : Filling }
  let b : TxBlock := { seq := u.txSeq, ftype := f.ftype, utype := f.utype, poison := f.poison, plain := f.flits.reverse.flatten, before := u.lastTag }
  let s1 := (s.wrs pg [(RN_CREDIT_SYNC, f.sync), (RN_CREDIT_INDIGO, f.indigo), (RN_CREDIT_WOAD, f.woad)]).modPort q
    fun _ => { f.port with txSeq := u.txSeq + 1, unacked := u.unacked ++ [b] }
  (s1.wr pg RN_REPLAY_OUTSTANDING (u.unacked.length + 1)).sendBlock q prk b false symbols

/-- BLOCK_SEND (R375 to R383): the next block to be resent, else a new one while fewer than 32 are
unacknowledged and its traffic key is in use. `symbols`: by lane, what its coder gives the line for the LCF and the payload. -/
def execBlockSend (port : Fin 24) (symbols : List (List LineSym)) (s : State) : Host.Outcome State Fault Refusal :=
  finish (evented ++ [.runner]) s <|
    let q := port.val
    let u := s.port q
    match u.prk with
    | none => s
    | some prk =>
      if s.pst q ≠ 6 then s
      else match u.resend with
        | r :: rs =>
          match u.unacked.find? fun b => decide (b.seq = r) with
          | none => s.modPort q fun u => { u with resend := rs }
          | some b =>
            let s1 := (s.bump (pgRunner q) RN_REPLAY_COUNT).modPort q fun u =>
              { u with resend := rs, unacked := u.unacked.map fun x => if x.seq = r then { x with resent := x.resent + 1 } else x }
            s1.sendBlock q prk b true symbols
        | [] =>
          if 32 ≤ u.unacked.length ∨ u.txSeq / 2 ^ 32 ≠ s.rd (pgRunner q) RN_KEY_INDEX then s
          else (s.keyCare q).newBlock q prk symbols

/-- In DELAY the next of the 64 probes leaves with the LCF, unless an answer does: LINK_REQ DLY, with its stamp (R388). -/
def State.probe (s : State) (q : Nat) : State :=
  if s.pst q = 4 ∧ (s.port q).probes < 64 ∧ (s.port q).linkReq = 0 then
    s.modPort q fun u => { u with linkReq := 3, markDue := true, probes := u.probes + 1 }
  else s

/-- FILL_BLOCK (R385, R368, R388): with 32 blocks unacknowledged, or in training from STEP on, a block with FILL set and no
number; its TAG is zero. -/
def execFillBlock (turn : FillTurn) (s : State) : Host.Outcome State Fault Refusal :=
  finish [.free, .regs, .runner] s <|
    let q := turn.port.val
    let u := s.port q
    if (3 ≤ s.pst q ∧ s.pst q ≤ 5) ∨ (s.pst q = 6 ∧ 32 ≤ u.unacked.length ∧ u.resend = []) then
      let s1 := s.probe q
      s1.lcfLeft q (s1.lcf q { seq := 0 } false true) (List.replicate 16128 0) turn.symbols
    else s

/-- REPLAY (R383): NAK was seen: every unacknowledged block is to be resent, in order. -/
def execReplay (port : Fin 24) (s : State) : Host.Outcome State Fault Refusal :=
  finish [.runner] s <|
    if s.pst port = 6 ∧ (s.port port).nakRx then
      s.modPort port fun u => { u with nakRx := false, resend := u.unacked.map TxBlock.seq }
    else s

/-! ### Receiving -/

/-- What the lanes' decoders saw (Table 10-9): a codeword with at most 15 wrong symbols is corrected, one with more cannot be (R371); stuff
symbols are removed, and an LCF has the SLACK symbols put back that they stand for (R373, R374). -/
def State.countLanes (s : State) (q : Nat) (lcf : Bool) (ls : List LaneRx) : State :=
  let pam := s.portPam q
  let slack := if lcf then slackSymbols pam (s.pwidth q) else 0
  ls.zipIdx.foldl (fun s e =>
    let pg := lanePage q e.2
    let r := (aget {} (s.port q).rxLine e.2).take pam slack e.1.symbols
    ((((s.bump pg RN_LCORR_COUNT ((e.1.errors.filter fun n => !beyond n).sum)).bump pg RN_LUNCORR_COUNT (e.1.errors.filter beyond).length).bump
      pg RN_LSTUFF_RX r.2.1).bump pg RN_LSLACK_STUFF_ERR r.2.2).modPort q fun u =>
        let was := aget (0, 0) u.uncorr e.2
        let n := (e.1.errors.filter beyond).length
        { u with rxLine := ains e.2 r.1 u.rxLine
                 uncorr := if n = 0 then u.uncorr else ains e.2 (s.epoch, (if was.1 = s.epoch then was.2 else 0) + n) u.uncorr }) s

/-- LTAG of a received LCF, over its fields at 0x28 to 0x4F. -/
def Lcf.mid (l : Lcf) : Bytes :=
  le 8 l.ack ++ le 2 l.credSync ++ le 2 l.credIndigo ++ le 2 l.credWoad ++ le 1 l.req ++ le 1 l.arg ++ le 1 l.flags ++ le 7 0 ++
    le 10 l.stamp ++ le 6 0

/-- Credits come back, never beyond the receiver's buffers (R379). -/
def State.takeCredits (s : State) (q : Nat) (l : Lcf) : State :=
  let pg := pgRunner q
  s.wrs pg [(RN_CREDIT_SYNC, min 64 (s.rd pg RN_CREDIT_SYNC + l.credSync)),
    (RN_CREDIT_INDIGO, min 256 (s.rd pg RN_CREDIT_INDIGO + l.credIndigo)),
    (RN_CREDIT_WOAD, min 4096 (s.rd pg RN_CREDIT_WOAD + l.credWoad))]

/-- Blocks up to ACK_SEQ are acknowledged. -/
def State.takeAck (s : State) (q ack : Nat) : State :=
  let u := s.port q
  let left := u.unacked.filter fun b => decide (ack = 2 ^ 64 - 1 ∨ ack < b.seq)
  (s.modPort q fun u =>
    { u with unacked := left, resend := u.resend.filter fun r => decide (ack = 2 ^ 64 - 1 ∨ ack < r)
             stall := if left.length < u.unacked.length then 0 else u.stall }).wr (pgRunner q) RN_REPLAY_OUTSTANDING left.length

/-- LCF_RECEIVE (R381): the LTAG is checked; acknowledgement, credits and NAK are taken, and a
RETRAIN_ACK this side waits for starts its training, where its owner still permits it (R369). In training it is counted, and a probe is to be answered (R388). A NARROW, a RETRAIN request and a time mark in it
are the commands NARROW, RETRAIN and TIME_MARK. -/
def execLcfReceive (port : Fin 24) (lcf : Lcf) (s : State) : Host.Outcome State Fault Refusal :=
  finish (evented ++ [.runner]) s <|
    let q := port.val
    let u := s.port q
    let training := decide (3 ≤ s.pst q ∧ s.pst q ≤ 5)
    if training then
      let s1 := s.countLanes q true lcf.lanes
      if s.pst q = 4 ∧ lcf.req = 3 then s1.modPort q fun u => { u with linkReq := 4 } else s1
    else match u.prk with
    | none => s
    | some prk =>
      if s.pst q ≠ 6 then s
      else
        let n := u.lcfRx
        let s0 := (s.countLanes q true lcf.lanes).modPort q fun u => { u with lcfRx := n + 1 }
        if lcf.ltag = lcfTag prk (!u.first) (u.rxSeq / 2 ^ 32) n (Lcf.mid lcf) then
          let s1 := ((s0.takeCredits q lcf).takeAck q lcf.ack).modPort q fun u =>
            { u with badLtag := 0, nakRx := bit lcf.flags 1, heard := some lcf }
          if lcf.req = 5 ∧ u.asking ∧ s.portFree q then s1.beginTraining q else s1
        else
          ((s0.bump (pgRunner q) RN_FEC_AUTH_FAIL).raise (pgRunner q) ev_RN_AUTH (le 8 n)).modPort q fun u =>
            { u with badLtag := u.badLtag + 1, heard := none }

/-- The port is FOREIGN (R517). -/
def State.foreign (s : State) (q : Nat) : Bool := bit (s.rd pgMordant MD_FOREIGN_PORTS) q

/-- A scheduled word that the sender drove in slot `d` (epoch × 4,096 + slot) has arrived (R389, R390):
it waits for slot d + DL, or is late; a full release buffer, of 512 words (R391), takes none (log entry 174). -/
def State.wordArrived (s : State) (q : Nat) (d : Nat) (w : BWord) : State :=
  let r := d + s.portDl q
  if s.foreign q then s
  else if s.time.ticks ≤ r * 256 ∧ 512 ≤ (s.port q).rxSched.length + (s.port q).released.length then s
  else if s.time.ticks ≤ r * 256 then s.modPort q fun u => { u with rxSched := u.rxSched ++ [(r, w)] }
  else
    let s1 := s.bump (pgRunner q) RN_SCHED_LATE_LATE
    match s.rnOwner q with
    | none => s1
    | some p => s1.slip (pgRunner q) p (s.relEpoch p) (r % 4096) 0 (s.cycles - r * s.cps)

/-- What a block delivers: words whose second half it brings, and units. -/
structure Delivery where
  half : Option BWord
  words : List BWord := []
  sync : List (Bytes × Bool) := []
  indigo : List (Bytes × Bool) := []
  woad : List (Bytes × Bool) := []
  deriving DecidableEq, Repr

/-- Flit `j` of a block's plaintext. -/
def Delivery.flit (b : Block) (pt : Bytes) (d : Delivery) (j : Nat) : Delivery :=
  let f := slice pt (256 * j) 256
  let pz := b.poison / 2 ^ (4 * j) % 16
  match b.ftype / 4 ^ j % 4 with
  | 1 =>
    match d.half with
    | none => { d with half := some ⟨f, pz⟩ }
    | some h => { d with half := none, words := d.words ++ [⟨h.data ++ f, h.poison + 16 * pz⟩] }
  | 2 =>
    (List.range 4).foldl (fun d i =>
      let u := (slice f (64 * i) 64, bit pz i)
      match b.utype / 4 ^ (4 * j + i) % 4 with
      | 1 => { d with indigo := d.indigo ++ [u] }
      | 2 => { d with woad := d.woad ++ [u] }
      | 3 => { d with sync := d.sync ++ [u] }
      | _ => d) d
  | _ => d

/-- An accepted block is delivered. -/
def State.deliverBlock (s : State) (q : Nat) (b : Block) (pt : Bytes) : State :=
  let d := (List.range 63).foldl (Delivery.flit b pt) { half := (s.port q).rxHalf }
  let s1 := s.modPort q fun u =>
    { u with rxSeq := u.rxSeq + 1, nakTx := false, rxHalf := d.half, rxSync := u.rxSync ++ d.sync,
             rxIndigo := u.rxIndigo ++ d.indigo, rxWoad := u.rxWoad ++ d.woad }
  (d.words.zip b.drives).foldl (fun s e => s.wordArrived q e.2 e.1) s1

/-- BLOCK_RECEIVE (R383): accepted in order, with every codeword correctable and its tag verified; else
discarded with NAK until the block wanted comes with REPLAY. A block received in training is counted. -/
def execBlockReceive (port : Fin 24) (blk : Block) (s : State) : Host.Outcome State Fault Refusal :=
  finish (evented ++ [.runner]) s <|
    let q := port.val
    let u := s.port q
    if 3 ≤ s.pst q ∧ s.pst q ≤ 5 then s.countLanes q false blk.lanes
    else match u.prk with
    | none => s
    | some prk =>
      if s.pst q ≠ 6 then s
      else
        let s0 := s.countLanes q false blk.lanes
        let nak (s : State) := s.modPort q fun u => { u with nakTx := true }
        let key := trafficKey prk (!u.first) (blk.seq / 2 ^ 32)
        let n := blockNonce prk (!u.first) blk.seq
        if blk.lanes.any (fun l => l.errors.any beyond) then nak (s0.bump (pgRunner q) RN_FEC_UNCORR)
        else if blk.seq ≠ u.rxSeq ∨ (u.nakTx ∧ !blk.replay) then nak s0
        else if blk.tag ≠ gcmTag key n (blockAad blk.seq blk.ftype blk.utype blk.poison) blk.payload then
          nak (s0.bump (pgRunner q) RN_FEC_AUTH_FAIL)
        else s0.deliverBlock q blk (gcmText key n blk.payload)

/-! ### Scheduled words (R387 to R391) -/

/-- How many words the hub has driven into the port in this slot. -/
def State.drovenNow (s : State) (q : Nat) : Nat := let d := (s.port q).drove; if d.1 = s.epoch * 4096 + s.slot then d.2 else 0

/-- SCHED_WORD_DRIVE (R387): in cycle `cyc` of the current slot the hub's schedule drives its output to
the port: the word joins the transmit queue ahead of packets. A port outside its owner's Risers, FOREIGN,
not ACTIVE or with DL above 7 carries none (R233, R391, R517), and no port takes more than its SCHED_WORDS in a slot (log entry 174). A word lost at a bad router is a slip (R271). -/
def execSchedWordDrive (port : Fin 24) (cyc : Nat) (s : State) : Host.Outcome State Fault Refusal :=
  finish (evented ++ [.runner]) s <|
    let q := port.val
    let hub := 80 + q / 3
    let c := s.absCycle s.slot cyc
    if cyc < s.cps ∧ s.pst q = 6 ∧ s.on (pgRunner q) RN_PSTAT_SCHED_OK ∧ s.foreign q = false ∧
        s.rnOwner q = some (s.partOfRiser (q / 3)) ∧ s.drovenNow q < s.rd (pgRunner q) RN_DL_SCHED_WORDS then
      match s.wordOut hub (43 + q % 3) c with
      | none => s
      | some (w, m) =>
        (if m then s.slipAt (pgRunner q) (q / 3) c else s).modPort q fun u =>
          { u with txSched := u.txSched ++ [w], drove := (s.epoch * 4096 + s.slot, s.drovenNow q + 1) }
    else s

/-- SCHED_WORD_RELEASE (R389): the words whose release slot has come are released, in order. -/
def execSchedWordRelease (port : Fin 24) (s : State) : Host.Outcome State Fault Refusal :=
  finish [.runner] s <|
    let now := s.time.ticks / 256
    s.modPort port fun u =>
      { u with released := u.released ++ u.rxSched.filter fun e => decide (e.1 ≤ now)
               rxSched := u.rxSched.filter fun e => decide (now < e.1) }

/-- How many released words no connection of epoch `e` takes. -/
def leftReleased (n : Net) (cps r p e : Nat) : Nat → List (Nat × BWord) → Nat
  | _, [] => 0
  | from_, (slot, _) :: ws =>
    match n.nextTake cps r p e (max from_ (schedIdx cps (slot * cps))) with
    | none => ws.length + 1
    | some t => leftReleased n cps r p e (t + 1) ws

/-- RELEASE_BUFFER_FLUSH (R390): after slot 4087, released words that no connection took are discarded
and counted; those released since are not. -/
def execReleaseBufferFlush (port : Fin 24) (s : State) : Host.Outcome State Fault Refusal :=
  finish [.regs, .runner] s <|
    let q := port.val
    if 4088 ≤ s.slot then
      let old := (s.port q).released.filter fun e => decide (e.1 ≤ s.epoch * 4096 + 4087)
      let n := leftReleased s.net s.cps (80 + q / 3) (43 + q % 3) s.epoch 0 old
      (s.bump (pgRunner q) RN_SCHED_LATE_DROP n).modPort q fun u =>
        { u with released := u.released.filter fun e => decide (s.epoch * 4096 + 4087 < e.1) }
    else s

end Sys2Proof.Machine
end

