-- ==== Sys2Proof/Machine/HallOps.lean ====
section
/-!
DEFINITION. Machine/HallOps.lean: what comes in from other packages and what stops it (R418, R423, R424,
R429 to R434), the control network (R241 to R245) and routers declared bad (R271).
-/

namespace Sys2Proof.Machine

open Sys2Proof

/-! ### STOP and RELAY (R429, R434) -/

/-- The fields of a STOP (Table 12-7). -/
def stopOf (c : Cmd) : StopFilter :=
  { id := fieldAt c.args 0x00 4, ports := fieldAt c.args 0x04 3, action := fieldAt c.args 0x07 1,
    classes := fieldAt c.args 0x08 1, src := fieldAt c.args 0x0A 2, limit := fieldAt c.args 0x0C 2 }

/-- The ports a STOP names: all where PORTS is zero. -/
def stopPorts (m : Nat) : List Nat := if m = 0 then List.range 24 else (List.range 24).filter fun q => bit m q

/-- NW_HSTOP of port `q` shows the STOP in force. -/
def State.showStop (s : State) (q : Nat) (f : Option StopFilter) : State :=
  let g := f.getD { id := 0, action := 0, classes := 0, limit := 0, src := 0 }
  (s.modPort q fun u => { u with stop := f }).wrs pgHall
    [(NW_HSTOP_ACTION, g.action), (NW_HSTOP_CLASSES, g.classes), (NW_HSTOP_LIMIT, g.limit), (NW_HSTOP_SRC, g.src)] q

/-- A STOP acts on one port: a copy of the one in force changes nothing, RESUME ends, others replace. -/
def State.stopPort (s : State) (f : StopFilter) (q : Nat) : State :=
  if (s.port q).stop.map StopFilter.id = some f.id then s
  else s.showStop q (if f.action = 0 then none else some f)

/-- STOP (R434): its filters are in force from cycle 0 of the next slot (R433). -/
def execStop (c : Cmd) (s : State) : Host.Outcome State Fault Refusal :=
  finish answered s <|
    let f := stopOf c
    let d := fieldAt c.args 0x10 4
    s.actIf (s.turnFirst c) 0x0010 c
      (firstStatus [(decide (3 ≤ f.action) || decide (8 ≤ f.classes) || decide (1024 < f.limit) || decide (2 ^ 20 ≤ d) ||
        (decide (f.action = 2) && bit f.classes 1), stBADFORMAT)])
      fun s =>
        let n := s.time.slots + 1
        let g := { f with starts := n, ends := if d = 0 then none else some (n + d) }
        let s1 := ((stopPorts f.ports).foldl (fun s q => s.stopPort g q) s).wr pgHall NW_HSTOP_ID_ID f.id
        s1.raise pgHall ev_NW_STOP (le 4 f.id ++ le 3 f.ports ++ le 1 f.action ++ le 1 f.classes ++ le 1 0 ++ le 2 f.src ++
          le 1 c.relayed.toNat)

/-- STOP_EXPIRY (R434): the DURATION of the STOP on a port has run out; it ends on every port at once. -/
def execStopExpiry (port : Fin 24) (s : State) : Host.Outcome State Fault Refusal :=
  finish (evented ++ [.runner]) s <|
    match (s.port port).stop with
    | none => s
    | some f =>
      if f.ends.any fun e => decide (e ≤ s.time.slots) then
        let same := (List.range 24).filter fun q => decide ((s.port q).stop.map (fun g => (g.id, g.ends)) = some (f.id, f.ends))
        (same.foldl (fun s q => s.showStop q none) s).raise pgHall ev_NW_STOP_END (le 4 f.id ++ le 3 f.ports)
      else s

/-- RELAY (R429): the enclosed frame leaves unchanged as a STOP_RELAY packet on Indigo through PORT. -/
def execRelay (c : Cmd) (s : State) : Host.Outcome State Fault Refusal :=
  finish answered s <|
    let q := fieldAt c.args 0x00 1
    let len := fieldAt c.args 0x12 2
    s.actIf (s.turnFirst c) 0x0011 c (firstStatus [(decide (24 ≤ q) || decide (416 < len), stBADFORMAT)])
      fun s =>
        let p : Packet := { dest := s.rd (pgRunner q) RN_PARTNER_PACKAGE * 2 ^ 48, src := pgSprue, op := 0x3F, ctrl := 8,
                            tag := c.id % 65536, srcPkg := s.pkg, body := List.replicate 32 0,
                            payload := slice c.args 0x10 (32 + len) }
        (s.enqueue q true { pkt := p }).modHall fun h => { h with relays := ains (c.id % 65536) q h.relays }

/-! ### Packets from another package (R418, R423, R424) -/

/-- A response for this package: it answers its request, or is late (R414). -/
def State.takeResponse (s : State) (p : Packet) : State :=
  match s.hall.reqs.find? fun e => e.2.remote.isSome && e.2.ans.isNone &&
      decide (e.2.src = p.src ∧ e.2.tag = p.tag ∧ e.2.op = p.op) with
  | some (id, r) =>
    s.setReq id { r with ans := some { status := p.status, value := fieldAt p.body 0 8, data := slice p.payload 0 (if r.op = 0x01 ∧ p.status ≤ 1 then r.len else 0), poison := p.poison } }
  | none => s.bump pgHall NW_HTOUT_LATE

/-- The request an inbound packet carries; its rights are those of its port's partition (R33), its class
is INBOUND (R416). -/
def inboundReq (p : Packet) (q part now : Nat) : Req :=
  { src := p.src, cls := 1, op := p.op, ty := p.ty % 16, posted := bit p.ty 4, addr := p.dest, len := p.len,
    value := fieldAt p.body 0 8, compare := fieldAt p.body 8 8, data := if p.op = 0x03 then p.body else p.payload,
    poison := p.poison, part := some part, via := some q, srcPkg := p.srcPkg, tag := p.tag, level := p.ctrl % 8, issuedAt := now }

/-- An operation of Table 11-3 that a memory performs, or REGRD or REGWR. -/
def knownOp (op : Nat) : Bool := [0x01, 0x02, 0x03, 0x30, 0x31].contains op || isAtomic op || isReduce op

/-- A request for this package: without a hall number none is served (R401); one whose source is ABSENT is discarded (R418); a port
without an owner denies it (R33, R553); a reserved OP ends BAD-OP; a register access is refused as R406 has it (R404); else it waits to
be performed. -/
def State.takeRequest (s : State) (q : Nat) (p : Packet) : State :=
  if s.pkg = 0xFFFF then s
  else if s.membState p.srcPkg = 0 then s.countNoMemb p.srcPkg
  else match s.rnOwner q with
    | none => s.sendBack q p xPARTDENIED
    | some o =>
      let r := inboundReq p q o s.real
      if !knownOp p.op then s.sendBack q p xBADOP
      else if isReg p.op then (s.countStatus r (s.localStatus r)).sendBack q p (s.localStatus r)
      else
        s.modHall fun h => { h with reqs := ains h.nextId r h.reqs, nextId := h.nextId + 1 }

/-- A whole packet has come in on port `q`. -/
def State.takePacket (s : State) (q : Nat) (p : Packet) : State :=
  let P := p.dest / 2 ^ 48 % 2 ^ 16
  if p.op = 0x3F ∧ bit p.ctrl 7 then
    (s.wrs pgHall [(NW_HRELAY_STATUS, p.status), (NW_HRELAY_PORT, aget q s.hall.relays p.tag)]).modHall
      fun h => { h with relays := adel p.tag h.relays }
  else if p.op = 0x3F ∨ (P ≠ 0xFFFF ∧ P ≠ s.pkg) then s.modHall fun h => { h with inbox := h.inbox ++ [(q, p)] }
  else if bit p.ctrl 7 then s.takeResponse p
  else s.takeRequest q p

/-! ### Ingress (R430 to R432, R517) -/

/-- The STOP in force on a port now, its count for this slot begun. -/
def State.stopNow (s : State) (q : Nat) : Option StopFilter :=
  (s.port q).stop.bind fun f =>
    if s.time.slots < f.starts ∨ f.ends.any (fun e => decide (e ≤ s.time.slots)) then none
    else some (if f.slot = s.time.slots then f else { f with slot := s.time.slots, passed := 0, held := false })

/-- A THROTTLE meets an affected unit: whether it passes, and the port after. -/
def State.throttle (s : State) (q : Nat) (f : StopFilter) : Bool × State :=
  if f.passed < f.limit then (true, s.modPort q fun u => { u with stop := some { f with passed := f.passed + 1 } })
  else if f.held then (false, s.modPort q fun u => { u with stop := some f })
  else (false, (s.bump pgHall NW_HSTOP_CNT_HELD 1 q).modPort q fun u => { u with stop := some { f with held := true } })

/-- The tokens of a sync unit that are not empty. -/
def tokensOf (b : Bytes) : List Token :=
  ((List.range 4).map fun i => tokenOf (slice b (16 * i) 16)).filter fun t => decide (t.op ≠ 0xFF)

/-- A token matches a STOP's SRC. -/
def StopFilter.hits (f : StopFilter) (t : Token) : Bool := f.src == 0xFFFF || t.srcPkg == f.src

/-- A sync unit passes to the hub; its credit goes back. -/
def State.passSync (s : State) (q : Nat) (ts : List Token) : State :=
  (ts.foldl (fun s t => s.tokenIn q t) s).modPort q fun u => { u with rxSync := u.rxSync.drop 1, freeSync := u.freeSync + 1 }

/-- The sync unit at the head of the receive buffer. -/
def State.ingressSync (s : State) (q : Nat) : State :=
  match (s.port q).rxSync with
  | [] => s
  | (b, _) :: _ =>
    let ts := tokensOf b
    if s.foreign q then s.passSync q []
    else match s.stopNow q with
      | none => s.passSync q ts
      | some f =>
        if !bit f.classes 2 || !ts.any f.hits then s.passSync q ts
        else if f.action = 2 then
          (s.bump pgHall NW_HSTOP_CNT_DROPPED (ts.filter f.hits).length q).passSync q (ts.filter fun t => !f.hits t)
        else
          let r := s.throttle q f
          if r.1 then r.2.passSync q ts else r.2

/-- The packet under way on a virtual channel after unit `b` of it: the first is its header. -/
def assemble (a : Option Assembly) (b : Bytes) (bad : Bool) : Assembly :=
  match a with
  | none => { pkt := packetOf b, left := fieldAt b 0x0E 1 }
  | some x =>
    let k := x.pkt.payload.length / 64
    { x with left := x.left - 1
             pkt := { x.pkt with payload := x.pkt.payload ++ b, poison := if bad then x.pkt.poison ||| 2 ^ k else x.pkt.poison } }

/-- A STOP affects a packet's units: Woad requests by SRC, Woad responses (Table 11-9). -/
def StopFilter.affects (f : StopFilter) (p : Packet) : Bool :=
  if bit p.ctrl 7 then bit f.classes 1 else bit f.classes 0 && (f.src == 0xFFFF || p.srcPkg == f.src)

/-- A unit of a packet passes: its credit goes back, and its last hands the packet on, unless dropped. -/
def State.passUnit (s : State) (q : Nat) (ind : Bool) (a : Assembly) : State :=
  let keep := if a.left = 0 then none else some a
  let s1 := s.modPort q fun u =>
    if ind then { u with rxIndigo := u.rxIndigo.drop 1, asmIndigo := keep, freeIndigo := u.freeIndigo + 1 }
    else { u with rxWoad := u.rxWoad.drop 1, asmWoad := keep, freeWoad := u.freeWoad + 1 }
  if a.left = 0 ∧ a.drop = false then s1.takePacket q a.pkt else s1

/-- A packet met at its header on a FOREIGN port is discarded, a request answered SEALED (R517), behind STOPPED and NO-MEMBER (R406). -/
def State.sealOff (s : State) (q : Nat) (first : Bool) (a : Assembly) : Assembly × State :=
  if first && s.foreign q && a.pkt.op != 0x3F then
    ({ a with drop := true },
      if bit a.pkt.ctrl 7 then s else if s.membState a.pkt.srcPkg = 0 then s.countNoMemb a.pkt.srcPkg else s.sendBack q a.pkt xSEALED)
  else (a, s)

/-- The Indigo unit at the head: no STOP touches it (R430). -/
def State.ingressIndigo (s : State) (q : Nat) : State :=
  match (s.port q).rxIndigo with
  | [] => s
  | (b, z) :: _ =>
    let r := s.sealOff q (s.port q).asmIndigo.isNone (assemble (s.port q).asmIndigo b z)
    r.2.passUnit q true r.1

/-- The Woad unit at the head. -/
def State.ingressWoad (s : State) (q : Nat) : State :=
  match (s.port q).rxWoad with
  | [] => s
  | (b, z) :: _ =>
    let first := (s.port q).asmWoad.isNone
    let a := assemble (s.port q).asmWoad b z
    let go (s : State) : State :=
      let r := s.sealOff q first a
      r.2.passUnit q false r.1
    if a.drop then s.passUnit q false a
    else match s.stopNow q with
      | none => go s
      | some f =>
        if !f.affects a.pkt then go s
        else if f.action = 2 then
          if first then
            ((s.bump pgHall NW_HSTOP_CNT_DROPPED 1 q).sendBack q a.pkt xSTOPPED).passUnit q false { a with drop := true }
          else go s
        else
          let t := s.throttle q f
          if t.1 then go t.2 else t.2

/-- INGRESS_UNIT (R430): the unit at the head of a receive buffer: 0 sync, 1 Indigo, 2 Woad. -/
def execIngressUnit (port : Fin 24) (vc : Fin 3) (s : State) : Host.Outcome State Fault Refusal :=
  finish (evented ++ [.hall, .runner, .net]) s <|
    match vc.val with
    | 0 => s.ingressSync port
    | 1 => s.ingressIndigo port
    | _ => s.ingressWoad port

/-! ### Transit (R418, R424) -/

/-- A packet for another package ends here: a request is answered, a response discarded. -/
def State.endTransit (s : State) (q : Nat) (p : Packet) (st : Nat) : State :=
  if bit p.ctrl 7 then s else s.sendBack q p st

/-- A packet for package `P` passes through. -/
def State.transit (s : State) (q : Nat) (p : Packet) (P : Nat) : State :=
  let resp := bit p.ctrl 7
  let m := s.membState P
  if m = 0 ∨ (m ≠ 2 ∧ !resp) then (s.countNoMemb P).endTransit q p xNOMEMBER
  else if s.rd pgHall NW_HHOPMAX_MAX < p.hops + 1 then (s.countRoute P).endTransit q p xROUTELOST
  else match (s.rnOwner q).bind fun o => s.routeFor o P with
    | some o => s.enqueue o (bit p.ctrl 3) { pkt := { p with hops := p.hops + 1 } }
    | none => (s.countRoute P).endTransit q p xROUTELOST

/-- TRANSIT_PACKET (R424): the oldest packet of port `port` that is for another package. -/
def execTransitPacket (port : Fin 24) (s : State) : Host.Outcome State Fault Refusal :=
  finish [.regs, .hall, .runner] s <|
    match s.hall.inbox.find? fun e => decide (e.1 = port.val ∧ e.2.op ≠ 0x3F) with
    | none => s
    | some e =>
      (s.modHall fun h => { h with inbox := h.inbox.erase e }).transit port e.2 (e.2.dest / 2 ^ 48 % 2 ^ 16)

/-! ### The control network (R241 to R245, R271, R275) -/

/-- The output by which a flit leaves router `r`: 63 is the router's own units. The table is the firmware's; one whose next router is declared
bad, or which names no link, goes round (R271). -/
def State.flitOut (s : State) (r : Nat) (f : CFlit) : Nat :=
  let t := routerAt f.dest
  let o := Config.ctlRoute (s.rd (pgControl r) NW_CROUTE_VERSION) r f.dest
  if t = r then 63
  else match linkTo r o with
    | some (r2, _, _) => if s.net.tables.contains r2 || s.linkFenced r o then (s.portToward r t).getD o else o
    | none => (s.portToward r t).getD o

/-- A packet as the routers know it: of a request, or of its response. -/
def CFlit.key (f : CFlit) : Nat := 2 * f.id + f.resp.toNat + 1

/-- The flit of channel `vc` that output `o` takes next: the packet partly sent goes on, by the way its header went; else the highest
level, among equals the oldest. -/
def State.pickFlit (s : State) (r o vc : Nat) : Option CFlit :=
  let c := (s.flitsAt r).filter fun f => decide (f.vc = vc ∧ f.at_ ≤ s.cycles)
  match aget 0 s.net.busy ((r * 64 + o) * 2 + vc) with
  | 0 =>
    (c.filter fun f => f.head && decide (s.flitOut r f = o)).foldl (fun b f =>
      if b.all fun (x : CFlit) => decide (x.level < f.level ∨ (x.level = f.level ∧ f.at_ < x.at_)) then some f else b) none
  | id => c.find? fun f => decide (f.key = id)

/-- A credit: fewer than four flits of the channel wait at the far input (R242). -/
def State.flitCredit (s : State) (o vc : Nat) (far : Option (Nat × Nat × Nat)) : Bool :=
  if o = 63 then true
  else match far with
    | none => false
    | some (r2, p, _) => decide (((s.flitsAt r2).filter fun f => decide (f.inp = p ∧ f.vc = vc)).length < 4)

/-- Flits that the link carried in cycle `c`. -/
def State.flitsSent (s : State) (r o c : Nat) : Nat :=
  let e := aget (0, 0) s.net.sent (flitLink r o)
  if e.1 = c then e.2 else 0

/-- The output takes one more flit in cycle `c`: one a cycle on the control links (R241); on a vertical link or a lateral path the units of a
packet cycle that sync tokens leave, four tokens to a unit (R232); on the Parting Link one in two cycles, the sideband being 32 bytes, and none
beside a token of either cycle. -/
def State.flitRoom (s : State) (r o c : Nat) : Bool :=
  let toks := crossing s.net.tokens (r * 64 + o) c
  match linkKind r o with
  | 0 => decide (s.flitsSent r o c = 0)
  | 1 => s.packetCycle r o c && decide (s.flitsSent r o c + (toks + 3) / 4 < 8)
  | _ => decide (sideband s.net.tokens r c = 0 ∧ sideband s.net.tokens r (c + 1) = 0 ∧ s.flitsSent r o c = 0 ∧ ((aget (0, 0) s.net.sent (flitLink r o)).1 + 1 ≠ c ∨ (aget (0, 0) s.net.sent (flitLink r o)).2 = 0))

/-- A packet ends at router `r` with ROUTE-LOST: its flits are gone. -/
def State.loseFlits (s : State) (r id : Nat) : State :=
  let cut (l : List (Nat × List CFlit)) := (l.map fun e => (e.1, e.2.filter fun f => decide (f.id ≠ id))).filter fun e => !e.2.isEmpty
  let s1 := s.modNet fun n =>
    { n with flits := cut n.flits, outbox := cut n.outbox, busy := n.busy.filter fun e => decide ((e.2 - 1) / 2 ≠ id) }
  match s1.req id with
  | some q => (s1.bump (pgControl r) NW_CABSORB_LOST).completeReq id q { status := xROUTELOST }
  | none => s1

/-- The payload that a flit carries is poisoned: of its request, or of its response (R239). A header carries none but a WRITE_SHORT's (log entry 37). -/
def State.hurtFlit (s : State) (f : CFlit) : State :=
  match s.req f.id, f.unit with
  | some r, some k =>
    if f.resp then
      s.setReq f.id { r with
        ans := r.ans.map fun a => { a with poison := setBit a.poison k true, status := if a.status = 0 then xPOISONED else a.status } }
    else s.setReq f.id { r with poison := setBit r.poison k true }
  | some r, none => if r.op = 0x03 ∧ f.resp = false then s.setReq f.id { r with poison := 1 } else s
  | none, _ => s

/-- CROSSING_PARITY_ERROR (R239): the sectors of the word at that port and cycle that the wire group
carries are poisoned; it counts and raises NW_XPARITY. A group of 32 wires carries bits of every sector
of the word's cycle, so all eight are marked (log entry 31). In a packet cycle the word's units are those of packets. -/
def execCrossingParityError (router : Fin 88) (port : Fin 64) (group cyc : Nat) (s : State) :
    Host.Outcome State Fault Refusal :=
  finish (evented ++ [.net, .hall]) s <|
    let pg := pgBulk router
    let c := s.absCycle s.slot cyc
    let crossing := if router.val < 80 then decide (port.val = 4) else decide (port.val < 8 ∨ 32 ≤ port.val ∧ port.val ≤ 41)
    if crossing && (feeder router port).isSome then
      let s1 := s.modNet fun n => { n with hurt := (router.val * 64 + port.val, c, 255) :: n.hurt }
      let s2 := ((s.flitsAt router).filter fun f => decide (f.inp = port.val ∧ f.at_ = c)).foldl State.hurtFlit s1
      ((s2.bump pg NW_XPARITY_COUNT).wr pg NW_XPARITY_PORT port).raise pg ev_NW_XPARITY
        (le 1 port ++ le 1 group)
    else s

/-- The flit moves over output `o`: over a link with latency λ it is at the far router λ cycles on. A buffer of the router's own input that it
leaves takes the next of its units' flits. -/
def State.moveFlit (s : State) (r o : Nat) (far : Option (Nat × Nat × Nat)) (f : CFlit) : State :=
  let c := s.cycles
  let s1 := s.modNet fun n =>
    { n with flits := aupd [] n.flits r fun l => l.erase f
             busy := aset 0 n.busy ((r * 64 + o) * 2 + f.vc) (if f.last then 0 else f.key)
             sent := ains (flitLink r o) (c, s.flitsSent r o c + 1) n.sent }
  let s2 := if f.inp = 63 then State.letIn 4 r s1 else s1
  match far with
  | some (r2, p, lam) =>
    if o = 63 then s2
    else if s.rd (pgControl r2) NW_CSTAT_STATE = 3 then s2.loseFlits r f.id
    else
      let s3 := s2.modNet fun n => { n with flits := aupd [] n.flits r2 fun l => l ++ [{ f with inp := p, at_ := c + lam }] }
      if s.net.hurt.any (fun e => decide (e.1 = r2 * 64 + p ∧ e.2.1 = c + lam)) then s3.hurtFlit f else s3
  | none => s2

/-- ROUTER_FORWARD (R232, R242 to R244, R271): what lies in a bad router is lost; else in this cycle one flit leaves by output `out` (63: to the router's own units), where the router has
tables and the link has room: Indigo ahead of Woad, a pre-emption where a Woad packet is partly sent, against a credit of its
channel. Nothing goes between the flits of an Indigo packet. -/
def execRouterForward (router : Fin 88) (out : Fin 64) (s : State) : Host.Outcome State Fault Refusal :=
  finish [.regs, .resets, .hall, .net, .movers, .gcores] s <|
    let r := router.val
    let o := out.val
    let far := linkTo r o
    let go (vc : Nat) := if s.flitCredit o vc far then s.pickFlit r o vc else none
    let part (vc : Nat) := decide (aget 0 s.net.busy ((r * 64 + o) * 2 + vc) ≠ 0)
    if s.rd (pgControl r) NW_CSTAT_STATE = 3 then (((s.flitsAt r ++ aget [] s.net.outbox r).map CFlit.id).dedup).foldl (fun s id => s.loseFlits r id) s
    else if s.rd (pgControl r) NW_CSTAT_STATE ≠ 1 || !s.flitRoom r o s.cycles || s.linkFenced r o then s
    else match go 1 with
      | some f => (if f.head && part 0 then s.bump (pgControl r) NW_CPREEMPT_COUNT else s).moveFlit r o far f
      | none =>
        if part 1 then s
        else match go 0 with
          | some f => s.moveFlit r o far f
          | none => s

/-- ROUTER_BAD (R271): a router is declared bad on network `net`: NW_ROUTER_BAD; its cluster is fenced, or
a hub's partition lost; the defect is recorded; packets at it end ROUTE-LOST; tables avoid it from the
next boundary. -/
def execRouterBad (router : Fin 88) (net : Fin 3) (cause : Fin 2) (s : State) : Host.Outcome State Fault Refusal :=
  finishD (evented ++ [.ledger, .resets, .descs, .hall, .net, .gcores]) s <|
    let r := router.val
    let pg := pgRouter net r
    let F := match net.val with | 0 => NW_BSTAT_MODE | 1 => NW_CSTAT_STATE | _ => NW_SSTAT_STATE
    if s.rd pg F = 3 then s
    else
      let s1 := (s.wr pg F 3).modNet fun n => { n with avoid := if n.avoid.contains r then n.avoid else r :: n.avoid }
      let info := le 1 net ++ le 1 cause
      let s2 :=
        if r < 80 then
          ((s1.raiseAt pg ev_NW_ROUTER_BAD.code 1 true info).fenceUnit (pgCluster r)).newDefect (r / 10) 5 (16 * (r % 10)) 3
        else ((s1.raiseAt pg ev_NW_ROUTER_BAD.code 2 true info).losePart (s1.partOfRiser (r - 80))).newDefect 8 7 (r - 80) 3
      if net.val = 1 then (((s2.flitsAt r).map CFlit.id).dedup).foldl (fun s id => s.loseFlits r id) s2 else s2

end Sys2Proof.Machine
end

