-- ==== Sys2Proof/Machine/Issue.lean ====
section
/-!
DEFINITION. Machine/Issue.lean: a request leaves its requester (R406 to R418): the checks at its origin, its flits
in the control network, or its packet for another package.
-/

namespace Sys2Proof.Machine

open Sys2Proof

/-- Payload flits of a request (Table 11-3). -/
def Req.flits (r : Req) : Nat := if r.op = 0x02 ∨ isReduce r.op then (r.len + 63) / 64 else 0

/-- The first check that fails at the origin of a request, in the order of R406; 0 where none does. A register
access is never sent to another package (Table 11-3). -/
def State.originStatus (s : State) (r : Req) : Nat :=
  if badOp r then xBADOP
  else if misaligned r then xMISALIGNED
  else if s.ownPkg r.addr then s.localStatus r
  else if isReg r.op then xREGIONDENIED
  else if s.pkg = 0xFFFF ∨ s.membState (pkgOf r.addr) ≠ 2 then xNOMEMBER
  else match r.part.bind fun p => s.routeFor p (pkgOf r.addr) with
    | some _ => 0
    | none => xROUTELOST

/-- The level that a request injected at its router carries (R275). -/
def State.levelOf (s : State) (r : Req) : Nat := s.rd (pgControl (routerOf r.src)) NW_REG_STAT_LEVEL r.cls

/-- The packet of a request: in its class, and for another package in class INBOUND on the links (R416). -/
def State.packetOf (s : State) (id : Nat) (r : Req) : Packet :=
  let body := if r.op = 0x03 then slice r.data 0 32 else le 8 r.value ++ le 8 r.compare ++ List.replicate 16 0
  { dest := r.addr, src := r.src, op := r.op, ctrl := if s.ownPkg r.addr then ctrlOf r else r.level % 8 + 16, tag := id % 65536, poison := r.poison
    ty := r.ty + (if r.posted then 16 else 0), len := if isAtomic r.op then 0 else r.len, srcPkg := if s.ownPkg r.addr then 0 else s.pkg, body := body
    payload := if r.flits = 0 then [] else slice r.data 0 (64 * r.flits) }

/-- The flits of request `id` enter the network at its requester's router (R241, R242). -/
def State.inject (s : State) (id : Nat) (r : Req) : State :=
  s.injectFlits (routerOf r.src) (packetFlits (s.packetOf id r)
    { id := id, vc := if indigo r.cls then 1 else 0, level := r.level, dest := homeDest (homeOf (localOf r.addr)), inp := 63, head := true, last := true })

/-- A load that a cache of this package may serve (R413). -/
def State.mayCopy (s : State) (r : Req) : Bool :=
  decide (pgType r.src = 0x0012) && decide (r.op = 0x01) && (s.viaCache r).isSome

/-- A write to another package updates the valid sectors of copies it hits (Table 9-2). -/
def State.updateCopies (s : State) (p a : Nat) (d : Bytes) (poison : Nat) : State :=
  (sectors a d.length).foldl (fun s x =>
    let lo := max a x
    let hi := min (a + d.length) (x + 64)
    match s.copyOf (fun line => s.remoteSlice p (line * 256)) x with
    | some (n, l) => s.modSl n fun u => u.put
        (((linesOf lo (hi - lo)).head?.map fun e => l.write e lo (slice d (lo - a) (hi - lo)) (if dataBad a d.length poison x then 1 else 0) false).getD l)
    | none => s) s

/-- A request is issued: its number, and the state after. One that fails a check completes at its origin. -/
def State.issueReq (s : State) (r0 : Req) : Nat × State :=
  let id := s.hall.nextId
  let r := { r0 with issuedAt := s.real, level := s.levelOf r0 }
  let s1 := s.modHall fun h => { h with reqs := ains id r h.reqs, nextId := id + 1 }
  let st := s.originStatus r
  if st ≠ 0 then (id, (s1.countStatus r st).completeReq id r { status := st })
  else if s.ownPkg r.addr then (id, s1.inject id r)
  else if s.mayCopy r then (id, s1)
  else match r.part.bind fun p => s.routeFor p (pkgOf r.addr) with
    | some q =>
      let s2 := if isStore r.op ∧ pgType r.src = 0x0012 then s1.updateCopies (r.part.getD 0) (r.addr + 2 ^ 64) r.data r.poison else s1
      (id, (s2.setReq id { r with remote := some (pkgOf r.addr), tag := id % 65536 }).enqueue q false { pkt := s.packetOf id r, id := some id })
    | none => (id, s1)

/-- The request an engine's command describes (R406). -/
def State.reqOf (s : State) (q : Request) : Req :=
  let src := reqIdent q.who
  { src := src, cls := classOf src, op := q.op, ty := q.ty, posted := q.posted, addr := q.addr, len := q.len, value := q.value
    compare := q.compare, data := slice q.data 0 q.len, poison := q.poison, part := (riserOf src).map s.partOfRiser
    machine := q.machine }

end Sys2Proof.Machine
end

