-- ==== Sys2Proof/Machine/Tensor.lean ====
section
/-!
DEFINITION. Machine/Tensor.lean: the tensor descriptor (R189 to R197, R346, R347), where its elements lie, and
reads and writes of elements at bit granularity with the poison of R240.
-/

namespace Sys2Proof.Machine

open Sys2Proof

/-- A tensor descriptor (Table 5-11). -/
structure Tensor where
  addr : Nat
  d0 : Nat
  d1 : Nat
  d2 : Nat
  d3 : Nat
  st0 : Int
  st1 : Int
  st2 : Int
  st3 : Int
  scale : Nat
  table : Nat
  ctl : Nat
  deriving DecidableEq, Repr

/-- The descriptor of 64 bytes. -/
def Tensor.of (b : Bytes) : Tensor :=
  { addr := fieldAt b 0x00 8, d0 := fieldAt b 0x08 3, d1 := fieldAt b 0x0B 3, d2 := fieldAt b 0x0E 3, d3 := fieldAt b 0x11 3,
    st0 := toInt 40 (fieldAt b 0x14 5), st1 := toInt 40 (fieldAt b 0x19 5), st2 := toInt 40 (fieldAt b 0x1E 5),
    st3 := toInt 40 (fieldAt b 0x23 5), scale := fieldAt b 0x28 8, table := fieldAt b 0x30 8, ctl := fieldAt b 0x38 8 }

/-- The fields of CONTROL (Table 5-12). -/
def Tensor.fmt (t : Tensor) : Nat := t.ctl % 32
def Tensor.tiled (t : Tensor) : Bool := bit t.ctl 5
def Tensor.transp (t : Tensor) : Bool := bit t.ctl 6
def Tensor.checked (t : Tensor) : Bool := bit t.ctl 7
def Tensor.parity (t : Tensor) : Bool := bit t.ctl 8
def Tensor.rel (t : Tensor) : Bool := bit t.ctl 9
def Tensor.tag (t : Tensor) : Nat := t.ctl / 2 ^ 16 % 8
def Tensor.dver (t : Tensor) : Nat := t.ctl / 2 ^ 24 % 256

/-- The width of an element format in bits (Table 5-13). -/
def fmtBits (f : Nat) : Nat :=
  match f with
  | 0x00 | 0x03 | 0x04 | 0x0F => 8
  | 0x01 | 0x07 => 4
  | 0x02 => 1
  | 0x05 | 0x06 => 6
  | 0x08 | 0x09 => 16
  | 0x0A | 0x0B => 32
  | _ => 64

/-- An MX format. -/
def isMx (f : Nat) : Bool := decide (3 ≤ f ∧ f ≤ 7)

def Tensor.bits (t : Tensor) : Nat := fmtBits t.fmt

/-- Bytes of one row of dimension 0, packed. -/
def Tensor.rowBytes (t : Tensor) : Nat := (t.d0 * t.bits + 7) / 8

/-- The tensor is dense (R346). -/
def Tensor.dense (t : Tensor) : Bool :=
  (decide (t.st0 = 0) || decide (t.st0 * 8 = t.bits)) && decide (t.st1 = t.rowBytes) && decide (t.st2 = t.st1 * t.d1) &&
    decide (t.st3 = t.st2 * t.d2)

/-- A reserved field set, or a combination refused by R190 to R194 and R346. -/
def Tensor.malformed (t : Tensor) : Bool :=
  decide (t.ctl / 2 ^ 10 % 64 ≠ 0) || decide (t.ctl / 2 ^ 19 % 32 ≠ 0) || decide (2 ^ 32 ≤ t.ctl) ||
    decide (t.dver ≠ 1) || decide (0x10 ≤ t.fmt) || ((decide (t.bits < 8) || isMx t.fmt) && decide (t.st0 ≠ 0)) ||
    ((t.tiled || t.transp) && !(t.bits == 8 || t.bits == 16)) ||
    (t.checked && (t.tiled || !t.dense || decide (t.addr % 2048 ≠ 0) || decide (t.table % 64 ≠ 0)))

/-- Elements along a side of a stored tile, and of a transposition block (R194, R264). -/
def Tensor.side (t : Tensor) : Nat := if t.bits = 8 then 64 else 32

/-- The bit, counted from bit 0 of local offset 0, at which element (i0, i1, i2, i3) begins (R192, R194). -/
def Tensor.at (t : Tensor) (i0 i1 i2 i3 : Nat) : Nat :=
  let base : Int := (localOf t.addr : Int) + i2 * t.st2 + i3 * t.st3
  let e := t.side
  if t.tiled then
    (base + (i0 / e : Nat) * t.st0 + (i1 / e : Nat) * t.st1).toNat * 8 + (i1 % e * e + i0 % e) * t.bits
  else if t.st0 = 0 then (base + i1 * t.st1).toNat * 8 + i0 * t.bits
  else (base + i0 * t.st0 + i1 * t.st1).toNat * 8

/-- The local offset of the scale of the block that holds element (i0, i1) (R193). -/
def Tensor.scaleAt (t : Tensor) (b i1 i2 i3 : Nat) : Nat :=
  localOf t.scale + b + (t.d0 + 31) / 32 * (i1 + t.d1 * (i2 + t.d2 * i3))

/-- Indexes of every element, i0 fastest. -/
def Tensor.indexes (t : Tensor) : List (Nat × Nat × Nat × Nat) :=
  (List.range (t.d0 * t.d1 * t.d2 * t.d3)).map fun n =>
    (n % t.d0, n / t.d0 % t.d1, n / (t.d0 * t.d1) % t.d2, n / (t.d0 * t.d1 * t.d2))

/-- The bytes the elements span, as local offsets: from the lowest to past the highest. -/
def Tensor.span (t : Tensor) : Int × Int :=
  let ax (st : Int) (n : Nat) : Int × Int := (min 0 (st * ((n : Int) - 1)), max 0 (st * ((n : Int) - 1)))
  let e := t.side
  let k0 := if t.tiled then (t.d0 + e - 1) / e else if t.st0 = 0 then 1 else t.d0
  let k1 := if t.tiled then (t.d1 + e - 1) / e else t.d1
  let unit : Int := if t.tiled then (e * e * t.bits / 8 : Nat) else if t.st0 = 0 then (t.rowBytes : Nat) else (t.bits / 8 : Nat)
  let l := [ax t.st0 k0, ax t.st1 k1, ax t.st2 t.d2, ax t.st3 t.d3]
  let b : Int := localOf t.addr
  (b + (l.map fun x => x.1).sum, b + (l.map fun x => x.2).sum + unit)

/-- The tensor has no element. -/
def Tensor.void (t : Tensor) : Bool := decide (t.d0 * t.d1 * t.d2 * t.d3 = 0)

/-- Data and scales lie in this package, between local offsets `lo` and `hi`. -/
def State.tensorIn (s : State) (t : Tensor) (lo hi : Nat) : Bool :=
  t.void || (s.ownPkg t.addr && decide ((lo : Int) ≤ t.span.1 ∧ t.span.2 ≤ hi) &&
    (!isMx t.fmt || decide (t.scale = 0) || (s.ownPkg t.scale && decide (lo ≤ localOf t.scale) &&
      decide (t.scaleAt 0 t.d1 (t.d2 - 1) (t.d3 - 1) ≤ hi))))

/-- Check blocks of a checked tensor (R347). -/
def Tensor.length (t : Tensor) : Nat := (t.st3 * t.d3).toNat
def Tensor.blocks (t : Tensor) : Nat := (t.length + 2047) / 2048

/-! ### Elements -/

/-- The `w` bits from bit address `b`. -/
def State.getBits (s : State) (b w : Nat) : Nat :=
  unle (s.getBs (b / 8) ((b % 8 + w + 7) / 8)) / 2 ^ (b % 8) % 2 ^ w

/-- Bytes `b` with the `w` bits from bit `o` on holding `v`. -/
def putBits (d : Bytes) (o w v : Nat) : Bytes :=
  let n := d.length
  let x := unle d
  let hi := x / 2 ^ (o + w) * 2 ^ (o + w)
  le n (hi + v % 2 ^ w * 2 ^ o + x % 2 ^ o)

/-- An element to be written: its bit address, width, code and poison. -/
structure EWrite where
  at_ : Nat
  w : Nat
  v : Nat
  bad : Bool := false
  deriving DecidableEq, Repr

/-- The part of sector `x` that an element covers, in bits from its start, and its width. -/
def EWrite.part (e : EWrite) (x : Nat) : Nat × Nat × Nat :=
  let lo := max e.at_ (8 * x)
  let hi := min (e.at_ + e.w) (8 * x + 512)
  (lo - 8 * x, hi - lo, e.v / 2 ^ (lo - e.at_))

/-- The sectors a list of elements touches. -/
def touched (l : List EWrite) : List Nat :=
  (l.map fun e => sectors (e.at_ / 8) ((e.at_ % 8 + e.w + 7) / 8)).flatten.dedup

/-- One sector given its elements: bits nothing covers keep their value; a sector covered whole takes the
elements' poison, any other one keeps its own besides (R240). -/
def State.writeSector64 (s : State) (l : List EWrite) (x : Nat) : State :=
  let es := l.filter fun e => decide (8 * x < e.at_ + e.w ∧ e.at_ < 8 * x + 512)
  let d := es.foldl (fun d e => let p := e.part x; putBits d p.1 p.2.1 p.2.2) (s.getBs x 64)
  let cover : Nat := es.foldl (fun m e => let p := e.part x; m ||| (2 ^ p.2.1 - 1) * 2 ^ p.1) 0
  (s.setBs x d).mark x (es.any EWrite.bad || (decide (cover ≠ 2 ^ 512 - 1) && s.poisoned x))

/-- Elements written as one store. -/
def State.writeElems (s : State) (l : List EWrite) : State := (touched l).foldl (fun s x => s.writeSector64 l x) s

/-- Some sector under the `w` bits from `b` is poisoned. -/
def State.bitsBad (s : State) (b w : Nat) : Bool := s.poisonIn (b / 8) ((b % 8 + w + 7) / 8)

end Sys2Proof.Machine
end

