-- ==== Sys2Proof/Machine/Fold.lean ====
section
/-!
DEFINITION. Machine/Fold.lean: a tile program's words and tables (R150 to R167), operand classes (R83), folds
(R95, R105 to R107) and the cycle count of a TMM with the cycle of each streamed row (R94, R100 to R103, R108).
-/

namespace Sys2Proof.Machine

open Sys2Proof

/-! ### Instruction words (Tables 5-2, 5-4, 5-7, 5-8) -/

def wClass (w : Nat) : Nat := w % 16
def wAfter (w : Nat) : Bool := bit w 4
def wPsel (w : Nat) : Nat := w / 2 ^ 5 % 8
def wPneg (w : Nat) : Bool := bit w 8
def wCyc (w : Nat) : Nat := w / 2 ^ 9 % 256
def wSlot (w : Nat) : Nat := w / 2 ^ 17 % 4096
def wEpoch (w : Nat) : Nat := w / 2 ^ 29 % 2 ^ 20

/-- Bits [hi:lo] of an instruction word. -/
def wf (w hi lo : Nat) : Nat := w / 2 ^ lo % 2 ^ (hi - lo + 1)

def mmOp (w : Nat) : Nat := wf w 51 49
def mmWfmt (w : Nat) : Nat := wf w 55 52
def mmAfmt (w : Nat) : Nat := wf w 59 56
def mmM (w : Nat) : Nat := wf w 75 60 + 1
def mmN (w : Nat) : Nat := wf w 83 76 + 1
def mmK (w : Nat) : Nat := wf w 100 84
def mmFold (w : Nat) : Nat := wf w 103 101
def mmInit (w : Nat) : Nat := wf w 105 104
def mmPre (w : Nat) : Bool := bit w 106
def mmTrack (w : Nat) : Bool := bit w 107
def mmTrec (w : Nat) : Nat := wf w 119 108
def mmRnd (w : Nat) : Bool := bit w 120
def mmSat (w : Nat) : Bool := bit w 121
def mmCsum (w : Nat) : Bool := bit w 122

def toRnd (w : Nat) : Bool := bit w 49
def toSat (w : Nat) : Bool := bit w 50
def toCsum (w : Nat) : Bool := bit w 51
def toTrkf (w : Nat) : Bool := bit w 52
def toTrec (w : Nat) : Nat := wf w 64 53
def toM (w : Nat) : Nat := wf w 80 65 + 1
def toN (w : Nat) : Nat := wf w 88 81 + 1
def toSeed (w : Nat) : Nat := wf w 120 89

def tsMode (w : Nat) : Nat := wf w 50 49
def tsFlag (w : Nat) : Nat := wf w 66 51
def tsValue (w : Nat) : Nat := wf w 98 67

def tpCond (w : Nat) : Nat := wf w 51 49
def tpDst (w : Nat) : Nat := wf w 54 52
def tpFlag (w : Nat) : Nat := wf w 70 55
def tpValue (w : Nat) : Nat := wf w 102 71

/-- COUNT of TNOP and MNOP. -/
def nopCount (w : Nat) : Nat := max 1 (wf w 64 49)

/-! ### Tile records (Table 5-5) -/

def trWdesc (r : Nat) : Nat := wf r 9 0
def trAdesc (r : Nat) : Nat := wf r 19 10
def trOdesc (r : Nat) : Nat := wf r 29 20
def trBdesc (r : Nat) : Nat := wf r 39 30
def trRmask (r : Nat) : Nat := wf r 52 40
def trCmask (r : Nat) : Nat := wf r 65 53
def trStage (r : Nat) : Nat := wf r 78 66
def trK (r : Nat) : Nat := wf r 81 79 + 1
def trSmall (r : Nat) : Bool := bit r 82
def trWbase (r : Nat) : Nat := wf r 95 83
def trRow (r : Nat) : Nat := wf r 127 96

/-! ### A section's tables (Table 5-1) -/

def tsInstrs (b : Bytes) : Nat := fieldAt b 0x00 2
def tsTrecs (b : Bytes) : Nat := fieldAt b 0x02 2
def tsDescs (b : Bytes) : Nat := fieldAt b 0x04 2
def tsMasks (b : Bytes) : Nat := fieldAt b 0x06 2

def tileInstr (b : Bytes) (i : Nat) : Nat := fieldAt b (fieldAt b 0x08 4 + 16 * i) 16
def tileRec (b : Bytes) (i : Nat) : Nat := fieldAt b (fieldAt b 0x0C 4 + 16 * i) 16
def tileDesc (b : Bytes) (i : Nat) : Tensor := Tensor.of (slice b (fieldAt b 0x10 4 + 64 * i) 64)

/-- Bit `i` of the mask that starts at word `o` of the pool; no mask for 0x1FFF (R167). -/
def maskBit (b : Bytes) (o i : Nat) : Bool :=
  decide (o ≠ 0x1FFF) && bit (fieldAt b (fieldAt b 0x14 4 + 8 * o + i / 8) 1) (i % 8)

/-- The unmasked rows below `m`, and the unmasked tokens below `n`. -/
def openRows (b : Bytes) (rec_ m : Nat) : List Nat := (List.range m).filter fun i => !maskBit b (trRmask rec_) i
def openCols (b : Bytes) (rec_ n : Nat) : List Nat := (List.range n).filter fun i => !maskBit b (trCmask rec_) i

/-- The rows of array `a`, in order: positions `j` with `j mod 4 = a` (R94). -/
def arrayRows (rows : List Nat) (a : Nat) : List Nat :=
  (List.range ((rows.length + 3 - a) / 4)).map fun i => rows.getD (4 * i + a) 0

/-! ### Operand classes (Table 3-1) -/

inductive OpClass | byte | six | nibble | half | binary
  deriving DecidableEq, Repr

/-- The class of an operand format, codes 0x0 to 0x9. -/
def classOfFmt (f : Nat) : OpClass :=
  match f with
  | 1 | 7 => .nibble
  | 2 => .binary
  | 5 | 6 => .six
  | 8 | 9 => .half
  | _ => .byte

/-- Twice κ. -/
def OpClass.kappa2 : OpClass → Nat
  | .byte | .six => 2
  | .nibble => 4
  | .half => 1
  | .binary => 16

/-- Fill cycles of a stationary set. -/
def OpClass.ls : OpClass → Nat
  | .six => 12
  | _ => 16

/-- Four times β. -/
def OpClass.beta4 : OpClass → Nat
  | .six => 3
  | _ => 4

def ceilDiv (a b : Nat) : Nat := (a + b - 1) / b

/-! ### Folds -/

/-- A fold: chain depth and token count. -/
structure FoldOf where
  d : Nat
  t : Nat
  deriving DecidableEq, Repr

/-- The segment count. -/
def FoldOf.s (f : FoldOf) : Nat := 4096 / f.d / f.t

/-- The mode code of Table 3-2. -/
def FoldOf.mode (f : FoldOf) : Nat := match f.d with | 256 => 0 | 128 => 1 | 64 => 2 | 32 => 3 | _ => 4

/-- Stationary loads along K. -/
def FoldOf.lk (f : FoldOf) (k : Nat) (c : OpClass) : Nat := ceilDiv (ceilDiv (ceilDiv (2 * k) c.kappa2) f.d) f.s

/-- The order key of R105: less is better. -/
def FoldOf.key (f : FoldOf) (n k : Nat) (ca cw : OpClass) : List Nat :=
  let ln := ceilDiv n f.t
  [ln * f.lk k ca * ceilDiv (f.d * f.s * cw.beta4) 4096, ln, if n ≤ 8 then f.d else 256 - f.d, 16 - f.t]

/-- Lexicographic order. -/
def lexLt : List Nat → List Nat → Bool
  | a :: as, b :: bs => decide (a < b) || (decide (a = b) && lexLt as bs)
  | _, _ => false

/-- The candidates of R105 under a forced mode (R107) and the one-load constraint (R106). -/
def foldCands (n k : Nat) (ca cw : OpClass) (one : Bool) (force : Nat) : List (FoldOf × List Nat) :=
  ([256, 128, 64, 32, 16].flatMap fun d => [2, 4, 8, 16].map fun t => (⟨d, t⟩ : FoldOf)).filter
    (fun f => (decide (4 < force) || decide (f.mode = force)) && (!one || decide (f.lk k ca ≤ 1)))
  |>.map fun f => (f, f.key n k ca cw)

/-- The fold chosen (R105). -/
def chooseFold (n k : Nat) (ca cw : OpClass) (one : Bool) (force : Nat) : Option FoldOf :=
  ((foldCands n k ca cw one force).foldl (fun m c => match m with
    | none => some c
    | some x => if lexLt c.2 x.2 then some c else m) none).map fun c => c.1

/-! ### The plan of a TMM (R100 to R103) -/

structure Plan where
  fold : FoldOf
  /-- elements of one chain -/
  e : Nat
  n : Nat
  k : Nat
  ls : Nat
  /-- unmasked rows, the most on one array, arrays with rows -/
  u : Nat
  mq : Nat
  arrays : Nat
  w : Nat
  rho : Nat
  lk : Nat
  ln : Nat
  resident : Bool
  mb : Nat
  blocks : Nat
  last : Nat
  pre : Nat
  total : Nat
  deriving DecidableEq, Repr

/-- The least `x` with `2^x ≥ n`, for powers of two. -/
def log2c (n : Nat) : Nat := Nat.log2 n

/-- The plan of a TMM with `u` unmasked rows. -/
def planOf (f : FoldOf) (ca cw : OpClass) (u n k : Nat) (pre track : Bool) : Plan :=
  let mq := (u + 3) / 4
  let a := min u 4
  let w := f.d * f.s * cw.beta4 / 4
  let rho := ceilDiv (a * w) 4096
  let lk := f.lk k ca
  let ln := ceilDiv n f.t
  let res := track || decide (mq * n ≤ 8192)
  let mb := if res then mq else min mq (4096 / f.t)
  let b := ceilDiv mq mb
  let last := mq - (b - 1) * mb
  let wd := if res then 0 else ceilDiv (last * f.t) 16
  let p := if pre then 1 else 0
  let group := (b - 1) * (1 + max (mb * rho) ca.ls) + (1 + max (last * rho) ca.ls)
  let total :=
    if k = 0 then 1 + ceilDiv (mq * n) 16
    else if a = 0 then 1
    else (1 - p) * ca.ls + ln * lk * group + (10 + log2c f.s) + wd
  { fold := f, e := f.d * ca.kappa2 / 2, n := n, k := k, ls := ca.ls, u := u, mq := mq, arrays := a, w := w, rho := rho, lk := lk,
    ln := ln, resident := res, mb := mb, blocks := b, last := last, pre := p, total := total }

/-- Row steps that the TMM streams: none for K = 0 or without rows. -/
def Plan.steps (p : Plan) : Nat := if p.k = 0 ∨ p.arrays = 0 then 0 else p.ln * p.lk * p.mq

/-- Rows of block `b`. -/
def Plan.rowsIn (p : Plan) (b : Nat) : Nat := if b + 1 = p.blocks then p.last else p.mb

/-- N-group, block, load and row in the block of step `i` (R103: groups outermost, then blocks, then loads). -/
def Plan.step (p : Plan) (i : Nat) : Nat × Nat × Nat × Nat :=
  let g := i / (p.mq * p.lk)
  let q := i % (p.mq * p.lk)
  let b := min (q / (p.mb * p.lk)) (p.blocks - 1)
  let r := q - b * (p.mb * p.lk)
  (g, b, r / p.rowsIn b, r % p.rowsIn b)

/-- Stationary loads: none for K = 0 or without rows. -/
def Plan.loads (p : Plan) : Nat := if p.k = 0 ∨ p.arrays = 0 then 0 else p.ln * p.blocks * p.lk

/-- N-group, block and load along K of stationary load `l` (R103). -/
def Plan.load (p : Plan) (l : Nat) : Nat × Nat × Nat := (l / (p.blocks * p.lk), l / p.lk % p.blocks, l % p.lk)

/-- The row step that load `l` starts with. -/
def Plan.firstStep (p : Plan) (l : Nat) : Nat :=
  let x := p.load l
  x.1 * (p.mq * p.lk) + x.2.1 * (p.mb * p.lk) + x.2.2 * p.rowsIn x.2.1

/-- The cycle, counted from the issue, in which load `l` along K of block `b` of N-group `g` is swapped in; for `l` past the last,
the cycle after the block's last load. -/
def Plan.swapOf (p : Plan) (g b l : Nat) : Nat :=
  let whole := 1 + max (p.mb * p.rho) p.ls
  let own := 1 + max (p.rowsIn b * p.rho) p.ls
  let group := (p.blocks - 1) * whole + (1 + max (p.last * p.rho) p.ls)
  (1 - p.pre) * p.ls + g * p.lk * group + b * p.lk * whole + l * own

/-- The cycle, counted from the issue, in which step `i` streams. -/
def Plan.offset (p : Plan) (i : Nat) : Nat :=
  let x := p.step i
  p.swapOf x.1 x.2.1 x.2.2.1 + 1 + x.2.2.2 * p.rho

/-- The cycle, counted from the issue, after the read-out of block `b` of N-group `g`: the pipeline, then 16 entries a cycle on
each array (R99, R101). -/
def Plan.readOutEnd (p : Plan) (g b : Nat) : Nat :=
  p.swapOf g b p.lk + (10 + log2c p.fold.s) + ceilDiv (p.rowsIn b * p.fold.t) 16

/-- The arrays that have a row in step `i`, in slot order (R94, R169). -/
def Plan.arraysIn (p : Plan) (i : Nat) : List Nat :=
  let x := p.step i
  (List.range p.arrays).filter fun a => decide (4 * (x.2.1 * p.mb + x.2.2.2) + a < p.u)

/-- The buffer sectors of array `a`'s slot in step `i` that its row reads, `bits` to an element and the ring beginning at sector
`base`: slot bytes past K are padding, which nothing reads (R97, R169). -/
def Plan.slotSectors (p : Plan) (bits base i a : Nat) : List Nat :=
  let ne := p.e * p.fold.s
  let n := min ne (p.k - (p.step i).2.2.1 * ne)
  (List.range ((n * bits + 511) / 512)).map fun j => (base + (i * p.arrays + a) * p.w / 64 + j) % 8192

/-- The fold of a TMM word. -/
def foldOf (w : Nat) : FoldOf :=
  (chooseFold (mmN w) (mmK w) (classOfFmt (mmAfmt w)) (classOfFmt (mmWfmt w)) (mmTrack w) (mmFold w)).getD ⟨256, 16⟩

/-- The plan of a TMM word of section `b`. -/
def planFor (b : Bytes) (w : Nat) : Plan :=
  planOf (foldOf w) (classOfFmt (mmAfmt w)) (classOfFmt (mmWfmt w)) (openRows b (tileRec b (mmTrec w)) (mmM w)).length
    (mmN w) (mmK w) (mmPre w) (mmTrack w)

/-- The largest number of entries a plain TOUT reads on one array. -/
def outEntries (b : Bytes) (w : Nat) : Nat :=
  let r := tileRec b (toTrec w)
  ((openRows b r (toM w)).length + 3) / 4 * (openCols b r (toN w)).length

/-- The cycles an instruction takes (Table 5-9). -/
def tileCycles (b : Bytes) (i : Nat) : Nat :=
  let w := tileInstr b i
  match wClass w with
  | 0 => nopCount w
  | 1 =>
    match ((List.range (tsInstrs b)).filter fun j => decide (i < j ∧ wClass (tileInstr b j) = 3 ∧ mmK (tileInstr b j) ≠ 0)).head? with
    | some j => (classOfFmt (mmAfmt (tileInstr b j))).ls
    | none => 16
  | 3 => (planFor b w).total
  | 4 =>
    if toTrkf w then 8 + toN w * trK (tileRec b (toTrec w))
    else 6 + ceilDiv (outEntries b w) 16 + (if isMx (tileDesc b (trOdesc (tileRec b (toTrec w)))).fmt then 8 else 0)
  | _ => 1

end Sys2Proof.Machine
end

