-- ==== Sys2Proof/Machine/Array.lean ====
section
/-!
DEFINITION. Machine/Array.lean: the arithmetic of the matrix arrays (04_arithmetic.md): terms, chains, segment
reducer, staging, output conversion with its flags and stochastic rounding, and the best-k trackers.
-/

namespace Sys2Proof.Machine

open Sys2Proof

/-! ### Elements, terms and reductions -/

/-- The value of an element code (Tables 4-1, 5-13). -/
def elemOf (f c : Nat) : Num :=
  match f with
  | 0x00 => Num.ofInt (toInt 8 c)
  | 0x01 => Num.ofInt (toInt 4 c)
  | 0x02 => Num.ofInt (c % 2 : Nat)
  | 0x03 => fE4M3.decode c
  | 0x04 => fE5M2.decode c
  | 0x05 => fE3M2.decode c
  | 0x06 => fE2M3.decode c
  | 0x07 => fE2M1.decode c
  | 0x08 => fBF16.decode c
  | 0x09 => fFP16.decode c
  | 0x0A => fFP32.decode c
  | _ => Num.ofInt (toInt 32 c)

/-- Flags of Table 4-8 as bits of MX_AFLAGS. -/
def fINVALID : Nat := 1
def fNANIN : Nat := 2
def fOVERFLOW : Nat := 4
def fSATURATED : Nat := 8
def fUNDERFLOW : Nat := 16
def fSCALECLAMP : Nat := 32
def fTRACKNAN : Nat := 64
def fTRACKPOISON : Nat := 128

/-- A value on its way through an array, with the flags that arose. -/
structure AVal where
  v : Num
  f : Nat := 0
  deriving DecidableEq, Repr

/-- The identity of an operation's reduction (Table 4-9). -/
def opIdentity (op : Nat) : Num := match op with | 3 => .inf true | 4 => .inf false | _ => .zero

/-- A reduction step: exact in a fixed-point chain, with one EXT64 rounding elsewhere (R125, R126, R141). -/
def AVal.red (op : Nat) (ext : Bool) (a b : AVal) : AVal :=
  let v := match op with
    | 3 => a.v.maxN b.v
    | 4 => a.v.minN b.v
    | _ => if ext then a.v.extAdd b.v else a.v.add b.v
  ⟨v, a.f ||| b.f ||| (if v.isNan && !a.v.isNan && !b.v.isNan then fINVALID else 0)⟩

/-- The term of a weight and an activation code (Tables 4-6, 4-9); `scNan`: the scale of either is 0xFF. -/
def termOf (op wf af wc xc : Nat) (scNan : Bool) : AVal :=
  if op = 5 ∨ op = 6 then ⟨Num.ofInt (if decide (wc = xc) == decide (op = 6) then 1 else 0), 0⟩
  else
    let w := elemOf wf wc
    let x := elemOf af xc
    let d := w.add x.negate
    let r := match op with
      | 0 => w.mul x
      | 1 => d.abs
      | 2 => d.mul d
      | _ => w.add x
    let r' := if classOfFmt wf = .half ∧ op ≠ 0 then r.ext else r
    let inNan := w.isNan || x.isNan || scNan
    ⟨if scNan then .nan else r', (if inNan then fNANIN else 0) ||| (if r'.isNan && !inNan then fINVALID else 0)⟩

/-- A pairwise tree of reductions, pairing neighbours at each stage (R127, R129). -/
def redTree (op : Nat) : Nat → List AVal → AVal
  | _, [] => ⟨opIdentity op, 0⟩
  | _, [a] => a
  | 0, a :: _ => a
  | fuel + 1, l =>
    redTree op fuel ((List.range ((l.length + 1) / 2)).map fun i =>
      match l[2 * i]?, l[2 * i + 1]? with
      | some a, some b => a.red op true b
      | some a, none => a
      | _, _ => ⟨opIdentity op, 0⟩)

/-- The operands of one output on one stationary load: formats, element k of index 0 in the lists, K, weight
codes and row scales, activation codes and token scales. -/
structure Operands where
  op : Nat
  wf : Nat
  af : Nat
  base : Nat
  k : Nat
  w : List Nat
  ws : List Nat
  x : List Nat
  xs : List Nat
  deriving DecidableEq, Repr

/-- The operands are treated as MX: multiply-add of MX formats (R122). -/
def Operands.mx (o : Operands) : Bool := decide (o.op = 0) && isMx o.wf && isMx o.af

/-- Scale codes of the block that holds element k. -/
def Operands.sw (o : Operands) (k : Nat) : Nat := o.ws.getD (k / 32) 127
def Operands.sx (o : Operands) (k : Nat) : Nat := o.xs.getD (k / 32) 127

/-- The term at list index `j`; a gated cell gives the identity (R97, R142). -/
def Operands.term (o : Operands) (j : Nat) : AVal :=
  let k := o.base + j
  if k < o.k then
    termOf o.op o.wf o.af (o.w.getD j 0) (o.x.getD j 0) (o.mx && (decide (o.sw k = 255) || decide (o.sx k = 255)))
  else ⟨opIdentity o.op, 0⟩

/-- A zero result of a fixed-point chain is +0 (R137). -/
def Num.plusZero : Num → Num
  | .fin _ 0 _ => .zero
  | v => v

/-- The exact reduction of `n` terms from index `j` in the fixed-point chain, entered into EXT64 by one rounding (R126, R127, R137).
The marks beside the sum decide a special result (R135), so INVALID arises from infinities of both signs only where no term is NaN,
whatever the order of the terms: the model's reading of Table 4-8 for a chain that holds a NaN besides (DEDUCED, log entry 117). -/
def Operands.run (o : Operands) (j n : Nat) : AVal :=
  let ts := (List.range n).map fun i => o.term (j + i)
  let r := ts.foldl (fun (a : AVal) t => { a.red o.op false t with f := a.f ||| t.f }) ⟨opIdentity o.op, 0⟩
  let arises := r.v.isNan && ts.all fun t => !t.v.isNan
  ⟨r.v.ext.plusZero, r.f ||| (if arises then fINVALID else 0)⟩

/-- The result of the chain whose `n` elements begin at index `j` (R126 to R128, R143). -/
def Operands.chain (o : Operands) (j n : Nat) : AVal :=
  if classOfFmt o.wf = .half then
    (List.range (n - 1)).foldl (fun (a : AVal) i => a.red o.op true (o.term (j + i + 1))) (o.term j)
  else if o.mx then
    let m := min n 32
    redTree o.op 16 ((List.range (n / m)).map fun i =>
      let r := o.run (j + m * i) m
      let k := o.base + j + m * i
      if k < o.k then { r with v := r.v.scale ((o.sw k : Int) + o.sx k - 254) } else r)
  else o.run j n

/-- One token's partial: the chains of its `s` segments through the reducer (R98, R129). -/
def Operands.partial_ (o : Operands) (s e : Nat) : AVal := redTree o.op 16 ((List.range s).map fun i => o.chain (i * e) e)

/-! ### Output conversion (R132 to R137) -/

/-- One step of the Galois LFSR, and the 32 steps of one element (R134). -/
def lfsrStep (x : Nat) : Nat :=
  let y := x * 2 % 2 ^ 32
  if x.testBit 31 then y ^^^ 0x00400007 else y

def lfsr32 (x : Nat) : Nat := (List.range 32).foldl (fun y _ => lfsrStep y) x

/-- An array's LFSR as loaded. -/
def lfsrInit (seed a : Nat) : Nat :=
  let x := (seed ^^^ a * 0x01010101) % 2 ^ 32
  if x = 0 then 1 else x

/-- An output to be converted: its row, token, array, value, poison. -/
structure OutVal where
  m : Nat
  n : Nat
  arr : Nat
  v : Num
  bad : Bool := false
  deriving DecidableEq, Repr

def Num.isFin : Num → Bool
  | .fin _ _ _ => true
  | _ => false

/-- The LFSRs of the four arrays as loaded at the start of a read-out. -/
def lfsrLoad (seed : Nat) : List Nat := (List.range 4).map (lfsrInit seed)

/-- The rounding rule of each output, the list being in write-out order, and the arrays' LFSRs after it: an array's LFSR advances
for each finite element it writes (R134). -/
def rules (stoch : Bool) (lfsr : List Nat) (l : List OutVal) : List Rnd × List Nat :=
  if !stoch then (l.map fun _ => .near, lfsr)
  else
    let r := l.foldl (fun (st : List Nat × List Rnd) o =>
      if o.v.isFin then
        let y := lfsr32 (st.1.getD o.arr 1)
        (st.1.set o.arr y, .stoch (y / 256) :: st.2)
      else (st.1, .near :: st.2)) (lfsr, [])
    (r.2.reverse, r.1)

/-- The output format of a code of Table 5-13, and emax of its element (R133). -/
def outFmt (f : Nat) : Fmt :=
  match f with
  | 0x03 => fE4M3
  | 0x04 => fE5M2
  | 0x05 => fE3M2
  | 0x06 => fE2M3
  | 0x07 => fE2M1
  | 0x08 => fBF16
  | 0x09 => fFP16
  | _ => fFP32

def outEmax (f : Nat) : Int := match f with | 3 => 8 | 4 => 15 | 5 => 4 | _ => 2

/-- UNDERFLOW of a rounded magnitude: a non-zero value rounds to zero or to a subnormal, inexactly. -/
def underflow (F : Fmt) (m : Nat) (r : Nat × Bool) : Nat :=
  if m ≠ 0 ∧ r.2 = true ∧ r.1 < 2 ^ F.mb then fUNDERFLOW else 0

/-- An FP32, BF16 or FP16 output (Table 4-7): its code and flags. -/
def toIeee (F : Fmt) (rule : Rnd) (sat : Bool) (v : Num) : Nat × Nat :=
  let inf := F.infc.getD F.maxc
  match v with
  | .nan => (inf ||| 2 ^ (F.mb - 1), 0)
  | .inf n => if sat then (F.code n F.maxc, fOVERFLOW) else (F.code n inf, 0)
  | .fin n m e =>
    let r := F.round rule m e
    if F.maxc < r.1 then (F.code n (if sat then F.maxc else inf), fOVERFLOW) else (F.code n r.1, underflow F m r)

/-- An element of an MX block, already divided by the scale (Table 4-7). -/
def toMx (F : Fmt) (rule : Rnd) (v : Num) : Nat × Nat :=
  match v with
  | .nan => (if F.nan then 0x7F else 0, 0)
  | .inf n =>
    match F.infc with
    | some c => (F.code n c, 0)
    | none => if F.nan then (F.code n 0x7F, fOVERFLOW) else (0, 0)
  | .fin n m e =>
    let r := F.round rule m e
    if F.maxc < r.1 then (F.code n F.maxc, fSATURATED) else (F.code n r.1, underflow F m r)

/-- ⌊log₂⌋ of a finite non-zero magnitude. -/
def Num.expo : Num → Option Int
  | .fin _ m e => if m = 0 then none else some ((bitLen m : Int) - 1 + e)
  | _ => none

/-- The scale code of a block of outputs of format `f`, whether it was clamped (R133), and whether the block is
marked NaN by scale 0xFF, with OVERFLOW where an infinity does it (Table 4-7, R136), and then never clamped (DESIGN CHOICE, log entry
169). -/
def blockScale (f : Nat) (vs : List Num) : Nat × Nat :=
  let special := !(outFmt f).nan && vs.any fun v => !v.isFin
  if special then (0xFF, if vs.any fun v => !v.isFin && !v.isNan then fOVERFLOW else 0)
  else match (vs.filterMap Num.expo).foldl (fun m x => some (match m with | none => x | some y => max x y)) (none : Option Int) with
    | none => (0, 0)
    | some x =>
      let q := x - outEmax f
      let c := max (-127) (min 127 q)
      ((c + 127).toNat, if c = q then 0 else fSCALECLAMP)

/-- A converted output with its flags; for an MX format also the block's scale. -/
structure OutCode where
  o : OutVal
  code : Nat
  flags : Nat
  scale : Nat := 0
  /-- the block holds a poisoned element -/
  blockBad : Bool := false
  deriving DecidableEq, Repr

/-- The outputs of a list in write-out order converted to format `f` by the rounding rules `rs` (R132, R133, R136). The flags of a block as
a whole fall on every array that holds an element of it (R138). -/
def convertOuts (f : Nat) (sat : Bool) (rs : List Rnd) (l : List OutVal) : List OutCode :=
  (l.zip rs).map fun e =>
    let o := e.1
    if isMx f then
      let blk := l.filter fun x => decide (x.n = o.n ∧ x.m / 32 = o.m / 32)
      let sc := blockScale f (blk.map OutVal.v)
      let bad := blk.any OutVal.bad
      if sc.1 = 0xFF then ⟨o, 0, sc.2, sc.1, bad⟩
      else
        let r := toMx (outFmt f) e.2 (o.v.scale (127 - (sc.1 : Int)))
        ⟨o, r.1, r.2 ||| sc.2, sc.1, bad⟩
    else
      let r := toIeee (outFmt f) e.2 sat o.v
      ⟨o, r.1, r.2, 0, false⟩

/-- The element writes of converted outputs into tensor `t`; of an MX tensor the scales too (R176, R114). -/
def outWrites (t : Tensor) (l : List OutCode) : List EWrite :=
  let es := l.map fun c => { at_ := t.at c.o.m c.o.n 0 0, w := t.bits, v := c.code, bad := c.o.bad : EWrite }
  if isMx t.fmt then
    es ++ (l.map fun c => { at_ := 8 * t.scaleAt (c.o.m / 32) c.o.n 0 0, w := 8, v := c.scale, bad := c.blockBad : EWrite }).dedup
  else es

/-- The flags that a list of outputs raised, and the arrays that raised one. -/
def outFlags (l : List OutCode) : Nat × Nat :=
  (l.foldl (fun m c => m ||| c.flags) 0, l.foldl (fun m c => if c.flags = 0 then m else m ||| 2 ^ c.o.arr) 0)

/-! ### Best-k trackers (R144 to R148) -/

/-- Score `a` is strictly better than `b`. -/
def better (small : Bool) (a b : Nat) : Bool :=
  if small then (ofExt a).below (ofExt b) else (ofExt b).below (ofExt a)

/-- A score put in its place: before the first entry it beats (R146). -/
def trkInsert (small : Bool) (e : Nat × Nat × Nat) : List (Nat × Nat × Nat) → List (Nat × Nat × Nat)
  | [] => [e]
  | x :: xs => if better small e.1 x.1 then e :: x :: xs else x :: trkInsert small e xs

/-- A score offered (R146, R147): a NaN is withheld. -/
def Trk.offer (t : Trk) (k : Nat) (v : Num) (index arr : Nat) (bad : Bool) : Trk × Nat :=
  if v.isNan then (t, fTRACKNAN)
  else
    ({ t with bad := t.bad || bad, l := (trkInsert t.small (v.toExt, index % 2 ^ 32, arr) t.l).take k }, if bad then fTRACKPOISON else 0)

/-- An entry put in its place by score, then by lower index (R148). -/
def mergeInsert (small : Bool) (e : Nat × Nat × Nat) : List (Nat × Nat × Nat) → List (Nat × Nat × Nat)
  | [] => [e]
  | x :: xs =>
    if better small e.1 x.1 || (!better small x.1 e.1 && decide (e.2.1 < x.2.1)) then e :: x :: xs
    else x :: mergeInsert small e xs

/-- The arrays' trackers of a token merged into at most `k` entries, by the direction they hold (Table 4-11, R148). -/
def trkMerge (k : Nat) (l : List Trk) : List (Nat × Nat × Nat) :=
  ((l.flatMap Trk.l).foldl (fun m e => mergeInsert (l.any Trk.small) e m) []).take k

end Sys2Proof.Machine
end

