-- ==== Sys2Proof/Machine/Seq.lean ====
section
/-!
DEFINITION. Machine/Seq.lean: the sequencer that tile and mover programs share (R77, R153 to R163, R183 to R186,
R255): when an instruction issues, what it waits for, and what the wait records.
-/

namespace Sys2Proof.Machine

open Sys2Proof

/-- The first cycle of epoch `e`, of the epoch after cycle `t`, and the cycle after slot 4087 of that of `t`. -/
def State.epochCycle (s : State) (e : Nat) : Nat := e * 4096 * s.cps
def State.nextEpochAt (s : State) (t : Nat) : Nat := s.epochCycle (epochOf s.cps t + 1)
def State.scheduleEnd (s : State) (t : Nat) : Nat := (epochOf s.cps t * 4096 + 4088) * s.cps

/-- The absolute cycle of a stamp in period `j` of partition `p` (R60, R153). -/
def State.stampAt (s : State) (p j w : Nat) : Nat :=
  let e := ((s.part p).base + ((j * max 1 (s.pattern p).period + wEpoch w : Nat) : Int)).toNat
  (e * 4096 + wSlot w) * s.cps + wCyc w

/-- The cycle the next instruction is due in: its stamp, or after its predecessor (R155). -/
def State.dueAt (s : State) (p : Nat) (q : Seq) (w : Nat) : Nat :=
  if wAfter w then max q.free q.floor else s.stampAt p q.period w

/-- When an instruction issues: the cycle due, the first cycle it could be tried in, the cycle it issues in, and
whether a hazard, a deferral or a slip stands between. -/
structure Issue where
  due : Nat
  first : Nat
  at_ : Nat
  haz : Bool
  deferred : Bool
  slip : Bool
  deriving DecidableEq, Repr

/-- R159 applied at cycle `t`: out of the maintenance slots, and, for an instruction other than a WAIT that does
not issue on its stamp, past a place where it would run over the end of slot 4087 (R61; for a TIMED one DEDUCED, log entry 170). -/
def State.deferFrom (s : State) (t : Nat) (late wait : Bool) (fin : Nat → Nat) : Nat × Bool × Bool :=
  if s.scheduleEnd t ≤ t then (s.nextEpochAt t, true, false)
  else if late && !wait && decide (s.scheduleEnd t < fin t) then (s.nextEpochAt t, true, true)
  else (t, false, false)

/-- The issue of word `w` by sequencer `q`, where its resources are free from cycle `res` and an issue in cycle
`t` ends in cycle `fin t` (R155 to R159). -/
def State.issueOf (s : State) (p : Nat) (q : Seq) (w res : Nat) (wait : Bool) (fin : Nat → Nat) : Issue :=
  let due := s.dueAt p q w
  let first := max due (max q.last q.floor)
  let late (t : Nat) := wAfter w || decide (due < t)
  let a := s.deferFrom first (late first) wait fin
  let t := max a.1 res
  let b := s.deferFrom t (late t) wait fin
  { due := due, first := first, at_ := b.1, haz := decide (a.1 < res), deferred := a.2.1 || b.2.1
    slip := decide (a.1 < res) || a.2.2 || b.2.2 || (!wAfter w && decide (due < b.1)) }

/-- What a sequencer belongs to: its unit's page, its partition, and the counters of waits and deferrals. -/
structure SeqUnit where
  pg : Nat
  p : Nat
  haz : Fld
  defer_ : Option Fld
  deriving DecidableEq, Repr

/-- The slip of an instruction due in cycle `due` that could not issue then (R77). -/
def State.seqSlip (s : State) (k : SeqUnit) (due late : Nat) : State :=
  let e := epochOf s.cps due
  s.slip k.pg k.p ((e : Int) - (s.part k.p).base).toNat (slotOf s.cps due) (cycOf s.cps due) late

/-- The wait of an instruction is recorded, once (R156, R159). -/
def State.seqNote (s : State) (k : SeqUnit) (i : Issue) (known : Bool) : State :=
  let s1 := if i.haz then s.bump k.pg k.haz else s
  let s2 := if i.deferred then (match k.defer_ with | some f => s1.bump k.pg f | none => s1) else s1
  if i.slip then s2.seqSlip k i.due (if known then i.at_ - i.due else 0) else s2

/-- A deferral that comes after the instruction's wait was recorded counts too (R159). -/
def State.seqLater (s : State) (k : SeqUnit) (q : Seq) (i : Issue) : State :=
  if i.deferred && !q.counted then (match k.defer_ with | some f => s.bump k.pg f | none => s) else s

/-- The sequencer after the wait of its next instruction was recorded: a resource it waits for is free from `to_`, if that is known. -/
def Seq.note (q : Seq) (i : Issue) (to_ : Option Nat) : Seq :=
  { q with noted := true, counted := q.counted || i.deferred, hazard := if i.haz then some to_ else none }

/-- The sequencer after an instruction issued in cycle `t` that ends in cycle `e`, or when it is not known. -/
def Seq.passed (q : Seq) (t : Nat) (e : Option Nat) : Seq :=
  { q with pc := q.pc + 1, last := t + 1, free := e.getD 0, loose := e.isNone, noted := false, counted := false, hazard := none }

/-- The sequencer starts for POUR in epoch `e`, or goes on from the start of the RELEASE epoch (R161, R163). -/
def Seq.poured (at_ : Nat) : Seq := { floor := at_, free := at_ }
def Seq.released (q : Seq) (at_ : Nat) : Seq := { q with floor := at_ }

/-- An instruction that is next in its program is tried. `known`: every resource it needs is free from a known
cycle. Before its cycle nothing happens; a wait is recorded when it begins; in its cycle `go` runs it. `put`
stores the sequencer. -/
def State.seqTry (s : State) (k : SeqUnit) (q : Seq) (w res : Nat) (known wait : Bool) (fin : Nat → Nat)
    (put : State → Seq → State) (go : State → Nat → State) : State :=
  if wAfter w && q.loose then s
  else
    let i := s.issueOf k.p q w res wait fin
    if s.cycles < i.first then s
    else if !known then
      if q.noted then s
      else
        let i := { i with haz := true, slip := true }
        put (s.seqNote k i false) (q.note i none)
    else if s.cycles < i.at_ then
      if !i.haz ∧ !i.deferred ∧ !i.slip then s
      else put (if q.noted then s.seqLater k q i else s.seqNote k i true) (q.note i (some res))
    else go (if q.noted then s.seqLater k q i else s.seqNote k i true) i.at_

/-- An instruction of a unit out of service is absorbed in its cycle, with a slip (R77, R117, R270). -/
def State.seqAbsorb (s : State) (k : SeqUnit) (q : Seq) (w : Nat) (fin : Nat → Nat) (put : State → Seq → State) : State :=
  let i := s.issueOf k.p q w 0 true fin
  if s.cycles < i.first then s
  else put (s.seqSlip k i.due (i.first - i.due)) (q.passed i.first (some (fin i.first)))

/-- The condition of a WAIT of word `w` on flag store `store` (R182, R247). -/
def State.waitMet (s : State) (store w : Nat) : Bool :=
  let v := s.flag store (tsFlag w % 256)
  if tsMode w = 0 then decide (v = tsValue w) else decide (tsValue w ≤ v)

/-- A SET or ADD of word `w` by the unit of page `pg` at router `r` in cycle `t` (R182, R183). -/
def State.syncSend (s : State) (t r p pg w : Nat) : State :=
  let v := tsValue w
  if tsMode w = 2 then s.sendToken t r p pg (tsFlag w) 0 v
  else s.sendToken t r p pg (tsFlag w) 1 (if v.testBit 31 then v + (2 ^ 64 - 2 ^ 32) else v)

end Sys2Proof.Machine
end

