-- ==== Sys2Proof/Machine/MatrixOps.lean ====
section
/-!
DEFINITION. Machine/MatrixOps.lean: what a matrix core does between commands (03, 05): the fills, swaps and rows of a TMM in
flight, each in its cycle (R87 to R93, R103, R169), its outputs (R98 to R111), and a TOUT's writes.
-/

namespace Sys2Proof.Machine

open Sys2Proof

/-- A matrix core, and the state with core `m` changed by `f`. -/
def State.mx (s : State) (m : Nat) : MxCore := aget {} s.mxs m
def State.modMx (s : State) (m : Nat) (f : MxCore → MxCore) : State :=
  { s with mxs := aupd {} s.mxs m f }

/-- The partition, the program and the sequencer's unit of a matrix core. -/
def State.mxPart (s : State) (m : Nat) : Nat := s.partOfRiser (m / 40)
def State.mxProg (s : State) (m : Nat) : Bytes := (s.sect 1 (m / 40) (m % 40)).getD []
def State.mxUnit (s : State) (m : Nat) : SeqUnit := ⟨pgMatrix m, s.mxPart m, MX_SEQ_HAZ_COUNT, some MX_SEQ_DEFER_COUNT⟩

/-- A 64-bit count in two fields raised by `n`. -/
def State.add64 (s : State) (pg : Nat) (lo hi : Fld) (n : Nat) : State :=
  let v := s.rd pg lo + 2 ^ 32 * s.rd pg hi + n
  s.wrs pg [(lo, v), (hi, v / 2 ^ 32)]

/-! ### Operands -/

/-- The elements of one stationary load for one token: `n` codes from element `k0`, zero from `k` on. -/
def State.codesOf (s : State) (t : Tensor) (tok k0 n k : Nat) : List Nat :=
  (List.range n).map fun i => if k0 + i < k then s.getBits (t.at (k0 + i) tok 0 0) t.bits else 0

/-- A poisoned sector lies under those elements. -/
def State.codesBad (s : State) (t : Tensor) (tok k0 n k : Nat) : Bool :=
  (List.range n).any fun i => decide (k0 + i < k) && s.bitsBad (t.at (k0 + i) tok 0 0) t.bits

/-- The scale codes of row or token `r` (R193), and whether a sector is poisoned under one that belongs to the `n` elements from
`k0` on. -/
def State.scalesOf (s : State) (t : Tensor) (r k : Nat) : List Nat :=
  (List.range ((k + 31) / 32)).map fun b => (s.getB (t.scaleAt b r 0 0)).toNat
def State.scalesBad (s : State) (t : Tensor) (r k0 n k : Nat) : Bool :=
  (List.range ((k + 31) / 32)).any fun b => decide (k0 < 32 * b + 32 ∧ 32 * b < k0 + n) && s.poisoned (t.scaleAt b r 0 0)

/-- Scales are read: multiply-add of MX formats (R122). -/
def mmScaled (w : Nat) : Bool := decide (mmOp w = 0) && isMx (mmWfmt w) && isMx (mmAfmt w)

/-- Stationary load `l` of N-group `g` of TMM `w` (R87, R97), as memory holds it now. -/
def State.setFor (s : State) (b : Bytes) (w g l : Nat) : StSet :=
  let t := tileDesc b (trAdesc (tileRec b (mmTrec w)))
  let f := foldOf w
  let n : Nat := f.d * f.s * (classOfFmt (mmAfmt w)).kappa2 / 2
  let toks := (List.range f.t).map fun i => g * f.t + i
  let live (tok : Nat) : Bool := decide (tok < mmN w)
  { x := toks.map fun tok => if live tok then s.codesOf t tok (l * n) n (mmK w) else List.replicate n 0
    sc := toks.map fun tok => if live tok && mmScaled w then s.scalesOf t tok (mmK w) else []
    bad := toks.any fun tok =>
      live tok && (s.codesBad t tok (l * n) n (mmK w) || (mmScaled w && s.scalesBad t tok (l * n) n (mmK w))) }

/-! ### The weight stream buffer -/

/-- The last arrival in a sector by cycle `t`, where the TMM in flight has not streamed it, and the arrivals to keep after it was read.
A row of a later lap of the ring is another row: what an earlier lap left there is not it (R92, R169; log entry 162). -/
def lastBy (t : Nat) (l : List RSector) : Option RSector := (l.filter fun a => decide (a.cycle ≤ t) && !a.seen).getLast?
def keepFrom (t : Nat) (l : List RSector) : List RSector :=
  (match (l.filter fun a => decide (a.cycle ≤ t)).getLast? with | some a => [{ a with seen := true }] | none => []) ++
    l.filter fun a => decide (t < a.cycle)

/-- Those sectors as they stand at the end of cycle `t`: their bytes and poison. -/
def MxCore.rowBy (c : MxCore) (l : List Nat) (t : Nat) : Option (Bytes × Bool) :=
  l.foldl (fun acc x =>
    match acc, lastBy t (aget [] c.ring x) with
    | some (d, bad), some a => some (d ++ a.data, bad || a.bad)
    | _, _ => none) (some ([], false))

/-- The cycle in which the last of those sectors first arrived anew, where all have. -/
def MxCore.rowAt (c : MxCore) (l : List Nat) : Option Nat :=
  l.foldl (fun acc x =>
    match acc, (aget [] c.ring x).find? fun a => !a.seen with
    | some t, some a => some (max t a.cycle)
    | _, _ => none) (some 0)

/-- Those sectors were read in cycle `t + 1`. -/
def MxCore.readRow (c : MxCore) (l : List Nat) (t : Nat) : MxCore :=
  { c with ring := l.foldl (fun g x => aset [] g x (keepFrom t (aget [] g x))) c.ring }

/-- What lies in those sectors at the end of cycle `t` is poisoned from now on (R115). -/
def MxCore.hurtRow (c : MxCore) (t : Nat) (l : List Nat) : MxCore :=
  { c with ring := l.foldl (fun g x => aset [] g x ((aget [] g x).map fun a => { a with bad := a.bad || decide (a.cycle ≤ t) })) c.ring }

/-- No row of the ring has been streamed by a TMM that now begins. -/
def MxCore.unseen (c : MxCore) : MxCore :=
  { c with ring := c.ring.map fun e => (e.1, e.2.map fun a => { a with seen := false }) }

/-- The sectors among `l` that run `r` meets a parity error in. -/
def TRun.hurtIn (r : TRun) (l : List Nat) : List Nat :=
  l.filter fun x => r.errs.any fun e => decide (e.2.1 = 2 ∧ e.2.2 = x)

/-- Its errors once what they met in store `st` at the places `l` has been poisoned: the place may hold other data from then on (R115). -/
def TRun.metIn (r : TRun) (st : Nat) (l : List (Nat × Nat)) : List (Nat × Nat × Nat) :=
  r.errs.filter fun e => !(decide (e.2.1 = st) && l.contains (if st = 2 then 0 else e.1, e.2.2))

/-! ### Staging -/

/-- A staging entry: what is written there, else zero, or a free value where the buffer is undefined. -/
def MxCore.entry (c : MxCore) (arr e : Nat) : Nat :=
  match c.stage.find? fun x => decide (x.1 = arr * 8192 + e) with
  | some x => x.2
  | none => match c.stageBack with | none => 0 | some n => unle ((List.range 9).map fun i => Config.freeByte n ((arr * 8192 + e) * 9 + i)) % 2 ^ 65

/-- The value of an entry and its poison. -/
def entryNum (v : Nat) : Num := ofExt (v / 2 % 2 ^ 64)
def entryBad (v : Nat) : Bool := bit v 0
def entryOf (v : Num) (bad : Bool) : Nat := v.toExt * 2 + (if bad then 1 else 0)

/-- The staging buffers become undefined (R101, R117). -/
def State.loseStage (s : State) (m : Nat) : State :=
  let s1 := s.modMx m fun c => { c with stage := [], stageBack := some s.free }
  { s1 with free := s.free + 1 }

/-! ### Outputs -/

/-- Element codes of a streamed slot. -/
def slotCodes (d : Bytes) (n w : Nat) : List Nat :=
  let x := unle d
  (List.range n).map fun i => x / 2 ^ (i * w) % 2 ^ w

/-- An output of a TMM: its row, token, array, array-local row, value with flags, poison. -/
structure TOutput where
  m : Nat
  n : Nat
  arr : Nat
  i : Nat
  v : AVal
  bad : Bool
  deriving DecidableEq, Repr

/-- The key of an output in a run's partial outputs. -/
def outKey (nn arr i n : Nat) : Nat := arr * 2 ^ 24 + i * nn + n

/-- The starting value of an output and its poison (R102, R142); the side lane reads its row's bias as the row first streams. -/
def State.startOf (s : State) (m : Nat) (b : Bytes) (w row arr i n : Nat) : Num × Bool :=
  let rec_ := tileRec b (mmTrec w)
  match mmInit w with
  | 1 =>
    let t := tileDesc b (trBdesc rec_)
    (elemOf t.fmt (s.getBits (t.at row 0 0 0) t.bits), s.bitsBad (t.at row 0 0 0) t.bits)
  | 2 =>
    let v := (s.mx m).entry arr (trStage rec_ + i * mmN w + n)
    (entryNum v, entryBad v)
  | _ => (opIdentity (mmOp w), false)

/-- The outputs that row step `r.step` adds to on array `a`, whose slot holds `d` (R94 to R98, R114, R126 to R130, R141 to R145):
each partial reduced into what its output held. -/
def State.rowOutputs (s : State) (m : Nat) (b : Bytes) (p : Plan) (r : TRun) (a : Nat) (d : Bytes × Bool) : List TOutput :=
  let w := r.word
  let rec_ := tileRec b (mmTrec w)
  let x := p.step r.step
  let i := x.2.1 * p.mb + x.2.2.2
  let l := x.2.2.1
  let row := (openRows b rec_ (mmM w)).getD (4 * i + a) 0
  let ne := p.e * p.fold.s
  let wd := tileDesc b (trWdesc rec_)
  let set := (s.mx m).active
  let ws := if mmScaled w then s.scalesOf wd row (mmK w) else []
  let bad := d.2 || set.bad || set.hurt.contains a || (mmScaled w && s.scalesBad wd row (l * ne) ne (mmK w))
  let codes := slotCodes d.1 ne (fmtBits (mmWfmt w))
  ((openCols b rec_ (mmN w)).filter fun n => decide (n / p.fold.t = x.1)).map fun n =>
    let o : Operands :=
      { op := mmOp w, wf := mmWfmt w, af := mmAfmt w, base := l * ne, k := p.k, w := codes, ws := ws
        x := set.x.getD (n % p.fold.t) [], xs := set.sc.getD (n % p.fold.t) [] }
    let v := o.partial_ p.fold.s p.e
    if mmTrack w then ⟨row, n, a, i, v, bad⟩
    else
      let e := if l = 0 then s.startOf m b w row a i n
        else let y := aget 0 r.acc (outKey (mmN w) a i n); (entryNum y, entryBad y)
      ⟨row, n, a, i, (⟨e.1, 0⟩ : AVal).red (mmOp w) true v, e.2 || bad⟩

/-- The parity errors of run `r` poison what staging entry `e` of array `a` holds (R115). -/
def TRun.hurtEntry (r : TRun) (a e : Nat) : Bool := r.errs.any fun x => decide (x.1 = a ∧ x.2.1 = 1 ∧ x.2.2 = e)

/-- The staging entry of an output while its TMM accumulates: by R100, or in the half of its block (R101). -/
def Plan.entryAt (p : Plan) (w rec_ i n : Nat) : Nat :=
  if p.resident then trStage rec_ + i * mmN w + n else i / p.mb % 2 * 4096 + i % p.mb * p.fold.t + n % p.fold.t

/-- Flags of MX_AFLAGS set (R138). -/
def State.setAflags (s : State) (pg f : Nat) : State :=
  ([MX_AFLAGS_INVALID, MX_AFLAGS_NAN_IN, MX_AFLAGS_OVERFLOW, MX_AFLAGS_SATURATED, MX_AFLAGS_UNDERFLOW, MX_AFLAGS_SCALE_CLAMP,
    MX_AFLAGS_TRACK_NAN, MX_AFLAGS_TRACK_POISON].zipIdx).foldl (fun s e => if bit f e.2 then s.hwSet pg e.1 else s) s

/-- The flags and arrays `f` of the TMM in flight are set as they arise (R138). -/
def State.runFlags (s : State) (m : Nat) (f : Nat × Nat) : State :=
  (s.setAflags (pgMatrix m) f.1).modMx m fun c =>
    { c with run := c.run.map fun r => { r with flags := r.flags ||| f.1, arrays := r.arrays ||| f.2 } }

/-- The CRC-32C check entries of the blocks a read-out wrote from `t.addr` on (R177). -/
def State.writeChecks (s : State) (t : Tensor) (bytes : Nat) : State :=
  (List.range (bytes / 2048)).foldl (fun s j =>
    s.writeMem (localOf t.table + 0x40 + 4 * j) (le 4 (crc32c (s.getBs (localOf t.addr + 2048 * j) 2048))) 0) s

/-- The bytes of a tile of `mm` rows and `nn` tokens from its tensor's address on (R177). -/
def Tensor.tileBytes (t : Tensor) (mm nn : Nat) : Nat := if nn = 1 then (mm * t.bits + 7) / 8 else nn * t.rowBytes

/-- The flags and arrays of the partial outputs of a step. -/
def stepFlags (l : List TOutput) : Nat × Nat := outFlags (l.map fun o => ⟨⟨o.m, o.n, o.arr, o.v.v, o.bad⟩, 0, o.v.f, 0, false⟩)

/-- Scores offered to the trackers of bank `k` (R144 to R147), and the flags that arose. -/
def offerAll (rec_ k : Nat) (trks : List (Nat × Trk)) (l : List TOutput) : List (Nat × Trk) × List OutCode :=
  l.foldl (fun (a : List (Nat × Trk) × List OutCode) o =>
    let key := k * 64 + o.arr * 16 + o.n
    let t := (aget {} a.1 key).offer (trK rec_) o.v.v (trRow rec_ + o.m) o.arr o.bad
    (aset {} a.1 key t.1, ⟨⟨o.m, o.n, o.arr, o.v.v, o.bad⟩, 0, t.2, 0, false⟩ :: a.2)) (trks, [])

/-- The tracker bank a tracker TMM in progress fills: the one before the next. -/
def State.fillBank (s : State) (m : Nat) : Nat := 1 - s.rd (pgMatrix m) MX_SEQ_STATE_TRK_BANK

/-- The empty trackers of bank `k` for a TMM of `n` tokens, each with its direction (R144, R145). -/
def emptyTrks (k n : Nat) (small : Bool) (l : List (Nat × Trk)) : List (Nat × Trk) :=
  (List.range 4).foldl (fun l a => (List.range n).foldl (fun l t => aset {} l (k * 64 + a * 16 + t) { small := small }) l)
    (l.filter fun x => decide (x.1 / 64 ≠ k))

/-! ### The course of a TMM (R87 to R93, R101, R103) -/

/-- What a TMM does next. -/
inductive TEvent
  /-- the broadcast begins to fill the shadow sets with the next stationary load -/
  | fill
  /-- that load is swapped in -/
  | swap
  /-- a row step streams -/
  | row
  deriving DecidableEq, Repr

/-- The next thing run `r` does, and in which cycle if no row is late: the fill of a load comes in the cycle after the swap before
it, its swap after the rows of the load before it. -/
def TRun.next (r : TRun) (p : Plan) : Option (TEvent × Nat) :=
  let x := p.load r.swaps
  if r.fills < p.loads ∧ r.fills ≤ r.swaps then some (.fill, if r.fills = 0 then r.start else r.swapAt + 1)
  else if r.swaps < p.loads ∧ r.step = p.firstStep r.swaps then some (.swap, r.start + p.swapOf x.1 x.2.1 x.2.2 + r.stall)
  else if r.step < p.steps then some (.row, r.start + p.offset r.step + r.stall)
  else none

/-- The broadcast of cycle `t` fills the shadow sets of the run in flight: it reads memory as it stands then (R158, R201; log entry 40). -/
def State.runFill (s : State) (m : Nat) (b : Bytes) (p : Plan) (r : TRun) (t : Nat) : State :=
  let x := p.load r.fills
  let set := (s.before t).setFor b r.word x.1 x.2.2
  s.modMx m fun c =>
    { c with
      shadow := { set with hurt := (r.errs.filter fun e => decide (e.2.1 = 0 ∧ e.2.2 = r.fills)).map fun e => e.1 }
      shadowAt := some (t + p.ls), run := some { r with fills := r.fills + 1 } }

/-- The sets of core `m` change places (R88). -/
def State.swapSets (s : State) (m : Nat) : State :=
  let pg := pgMatrix m
  (s.modMx m fun c => { c with active := c.shadow, shadow := c.active, shadowAt := none }).wrs pg
    [(MX_STATUS_SHADOW_FULL, 0), (MX_STATUS_ACTIVE_SET, s.rd pg MX_STATUS_ACTIVE_SET + 1)]

/-- The run in flight swaps its load in in cycle `t`. -/
def State.runSwap (s : State) (m : Nat) (r : TRun) (t : Nat) : State :=
  (s.swapSets m).modMx m fun c => { c with run := some { r with swaps := r.swaps + 1, swapAt := t } }

/-- The core waits `d` cycles more: what it holds is held so much longer (R93, R156). -/
def State.runStall (s : State) (m : Nat) (p : Plan) (r : TRun) (d : Nat) : State :=
  let k := s.fillBank m
  s.modMx m fun c =>
    { c with
      run := some { r with stall := r.stall + d }, fillTo := c.fillTo + d, arrTo := c.arrTo + d
      outTo := if p.resident then c.outTo else c.outTo + d
      stageTo := if p.resident && !mmTrack r.word then c.stageTo + d else c.stageTo
      bank0To := if mmTrack r.word ∧ k = 0 then c.bank0To + d else c.bank0To
      bank1To := if mmTrack r.word ∧ k = 1 then c.bank1To + d else c.bank1To }

/-- `n` rows of step `r.step` did not lie in the buffer at the end of the cycle before `t`: each is counted, and told by an event
and a slip of its own (R93, R113). -/
def State.runLate (s : State) (m : Nat) (r : TRun) (t n late : Nat) : State :=
  let s1 := s.modMx m fun c => { c with run := some { r with waits := true, late := r.late + n } }
  (List.range n).foldl (fun s i =>
    ((s.bump (pgMatrix m) MX_WLATE_COUNT).raise (pgMatrix m) ev_MX_WEIGHT_LATE (le 2 r.pc ++ le 2 0 ++ le 4 (r.late + i + 1))).seqSlip
      (s.mxUnit m) t late) s1

/-- The rows of step `r.step` stream in cycle `t`, each array's from its slot `l`: trackers, partial outputs and flags follow as
they do (R98, R138, R145); with the last row of a block its read-out is due (R101). -/
def State.runRow (s : State) (m : Nat) (b : Bytes) (p : Plan) (r : TRun) (t : Nat) (l : List (Nat × List Nat)) : State :=
  let pg := pgMatrix m
  let x := p.step r.step
  let xs := l.flatMap fun e => e.2
  let c := (s.mx m).hurtRow (t - 1) (r.hurtIn xs)
  let outs := if r.acts then
      l.flatMap fun e => s.rowOutputs m b p r e.1 ((c.rowBy e.2 (t - 1)).getD ([], false))
    else []
  let rec_ := tileRec b (mmTrec r.word)
  let trk := if mmTrack r.word then offerAll rec_ (s.fillBank m) c.trks outs else (c.trks, [])
  let ended := decide (x.2.2.1 + 1 = p.lk ∧ x.2.2.2 + 1 = p.rowsIn x.2.1)
  let r1 := { r with
    step := r.step + 1, waits := false, errs := r.metIn 2 (xs.map fun x => (0, x))
    second := if p.rho = 2 then some (t + 1) else none
    acc := if mmTrack r.word then r.acc
      else outs.foldl (fun l o => ains (outKey (mmN r.word) o.arr o.i o.n) (entryOf o.v.v o.bad) l) r.acc
    outs := if ended && !p.resident then r.outs ++ [(r.start + p.readOutEnd x.1 x.2.1 + r.stall, x.1, x.2.1)] else r.outs }
  let f := stepFlags outs
  let g := outFlags trk.2
  ((s.modMx m fun _ =>
      { c.readRow xs (t - 1) with trks := trk.1, run := some r1 }).runFlags m (f.1 ||| g.1, f.2 ||| g.2)).add64
    pg MX_BUSY_LO_CYCLES MX_BUSY_HI_CYCLES 1

/-- The second cycle of a row step is over, in which its arrays streamed too. -/
def State.runSecond (s : State) (m : Nat) (r : TRun) : State :=
  (s.modMx m fun c => { c with run := some { r with second := none } }).add64 (pgMatrix m) MX_BUSY_LO_CYCLES MX_BUSY_HI_CYCLES 1

/-- The unmasked rows, by their position, that are written out by the end of block `k`: all of its rows; for an MX output, rows of an
output block of R133 whose last row comes with the next block wait for that one (DESIGN CHOICE, log entry 118). -/
def Plan.rowsBy (p : Plan) (rows : List Nat) (mx : Bool) (k : Nat) : Nat :=
  let j := 4 * (k + 1) * p.mb
  if k + 1 = p.blocks ∨ rows.length ≤ j then rows.length
  else if mx then (rows.filter fun x => decide (x < rows.getD j 0 / 32 * 32)).length
  else j

/-- Outputs of the run in flight are converted and written through its output descriptor (R101, R132 to R138): `l` in write-out order. -/
def State.runWrite (s : State) (m : Nat) (b : Bytes) (r : TRun) (l : List OutVal) : State :=
  let t := tileDesc b (trOdesc (tileRec b (mmTrec r.word)))
  let rs := rules (mmRnd r.word) r.lfsr l
  let cs := convertOuts t.fmt (mmSat r.word) rs.1 l
  (((s.writeElems (outWrites t cs)).modMx m fun c => { c with run := some { r with lfsr := rs.2 } })).runFlags m (outFlags cs)

/-- The read-out of block `k` of N-group `g` is complete. -/
def State.runBlock (s : State) (m : Nat) (b : Bytes) (p : Plan) (r : TRun) (g k : Nat) : State :=
  let w := r.word
  let rec_ := tileRec b (mmTrec w)
  let rows := openRows b rec_ (mmM w)
  let mx := isMx (tileDesc b (trOdesc rec_)).fmt
  let lo := if k = 0 then 0 else p.rowsBy rows mx (k - 1)
  let toks := (openCols b rec_ (mmN w)).filter fun n => decide (n / p.fold.t = g)
  let l := (List.range (p.rowsBy rows mx k - lo)).flatMap fun q => toks.map fun n =>
    let j := lo + q
    let y := aget 0 r.acc (outKey (mmN w) (j % 4) (j / 4) n)
    (⟨rows.getD j 0, n, j % 4, entryNum y, entryBad y || r.hurtEntry (j % 4) (p.entryAt w rec_ (j / 4) n)⟩ : OutVal)
  let r1 := { r with
    outs := r.outs.drop 1
    errs := r.metIn 1 ((List.range (p.rowsBy rows mx k - lo)).flatMap fun q => toks.map fun n =>
      ((lo + q) % 4, p.entryAt w rec_ ((lo + q) / 4) n)) }
  if r.acts then s.runWrite m b r1 l else s.modMx m fun c => { c with run := some r1 }

/-- The outputs of a TMM with K = 0: the INIT value of each unmasked one, in the order a streamed one writes them. R111 gives no fold,
so the N-groups are those of the fold that R105 would choose (DESIGN CHOICE, log entry 119). -/
def State.initOutputs (s : State) (m : Nat) (b : Bytes) (p : Plan) (r : TRun) : List TOutput :=
  let w := r.word
  let rec_ := tileRec b (mmTrec w)
  let rows := openRows b rec_ (mmM w)
  (List.range p.ln).flatMap fun g =>
    let toks := (openCols b rec_ (mmN w)).filter fun n => decide (n / p.fold.t = g)
    (List.range rows.length).flatMap fun j => toks.map fun n =>
      let e := s.startOf m b w (rows.getD j 0) (j % 4) (j / 4) n
      ⟨rows.getD j 0, n, j % 4, j / 4, ⟨e.1, 0⟩, e.2⟩

/-- What a resident TMM leaves in the staging buffers: its partial outputs, now complete, or with K = 0 its INIT values (R100, R111). -/
def State.stagedOutputs (s : State) (m : Nat) (b : Bytes) (p : Plan) (r : TRun) : List (Nat × Nat) :=
  let w := r.word
  let rec_ := tileRec b (mmTrec w)
  let done := if p.k = 0 then
      (s.initOutputs m b p r).map fun o => (outKey (mmN w) o.arr o.i o.n, entryOf o.v.v o.bad)
    else r.acc
  done.foldl (fun l e =>
    let x := trStage rec_ + e.1 % 2 ^ 24
    ains (e.1 / 2 ^ 24 * 8192 + x) (if r.hurtEntry (e.1 / 2 ^ 24) x then e.2 ||| 1 else e.2) l) (s.mx m).stage

/-- A TMM ends (R103, R110, R111, R138, R145). A streamed one leaves the staging buffers undefined, also where its predicate, being
false, dropped every staging write: R101 makes no exception for it (DESIGN CHOICE, log entry 120). -/
def State.endRun (s : State) (m : Nat) (b : Bytes) (p : Plan) (r : TRun) : State :=
  let pg := pgMatrix m
  let w := r.word
  let t := tileDesc b (trOdesc (tileRec b (mmTrec w)))
  let s1 :=
    if p.resident then
      if !r.acts ∨ mmTrack w ∨ (mmInit w = 2 ∧ p.k = 0) then s else s.modMx m fun c => { c with stage := s.stagedOutputs m b p r }
    else
      let s0 := if r.acts ∧ p.k = 0 then
          s.runWrite m b r ((s.initOutputs m b p r).map fun o => ⟨o.m, o.n, o.arr, o.v.v, o.bad⟩)
        else s
      let s0 := if r.acts ∧ mmCsum w then s0.writeChecks t (t.tileBytes (mmM w) (mmN w)) else s0
      if p.k = 0 then s0 else s0.loseStage m
  let r1 := (s1.mx m).run.getD r
  let fin := r.start + p.total + r.stall
  (s1.modMx m fun c =>
    { c.hurtRow (fin - 1) ((r.errs.filter fun e => decide (e.2.1 = 2)).map fun e => e.2.2) with
      run := none, done := c.done + 1
      filled := if mmTrack w then some (s.fillBank m) else c.filled
      seq := if c.seq.loose ∧ c.seq.pc = r.pc + 1 then { c.seq with loose := false, free := fin } else c.seq }).wrs pg
    [(MX_AFLAGS_LAST_FLAGS, r1.flags), (MX_AFLAGS_LAST_ARRAYS, r1.arrays), (MX_CYC_ACT_CYCLES, p.total + r.stall)]

/-- The slots that step `r.step` reads: each array with a row, and its sectors. -/
def TRun.slots (r : TRun) (b : Bytes) (p : Plan) : List (Nat × List Nat) :=
  (p.arraysIn r.step).map fun a =>
    (a, p.slotSectors (fmtBits (mmWfmt r.word)) (trWbase (tileRec b (mmTrec r.word))) r.step a)

/-- The next thing run `r` does by the end of cycle `h`, none where it waits: a read-out of a block that is complete by then, a fill, a
swap, or a row step that streams; for a late one the wait is told, and ends in the cycle after its last sector arrives (R92, R93). -/
def State.runOnce (s : State) (m : Nat) (b : Bytes) (p : Plan) (r : TRun) (h : Nat) : Option State :=
  let stream (t : Nat) : Option State :=
    let l := r.slots b p
    let miss := l.filter fun e => ((s.mx m).rowBy e.2 (t - 1)).isNone
    if miss.isEmpty then some (s.runRow m b p r t l)
    else
      let at_ := miss.foldl (fun x e => match x, (s.mx m).rowAt e.2 with | some x, some y => some (max x y) | _, _ => none) (some 0)
      let late := match at_ with | some a => if a + 1 ≤ h then a + 1 - t else 0 | none => 0
      if late = 0 then (if r.waits then none else some (s.runLate m r t miss.length 0))
      else
        let s1 := if r.waits then s else s.runLate m r t miss.length late
        some (s1.runStall m p ((s1.mx m).run.getD r) late)
  let event := match r.next p with
    | some (e, t) =>
      if h < t then none
      else match e with
        | .fill => some (s.runFill m b p r t)
        | .swap => some (s.runSwap m r t)
        | .row => stream t
    | none => none
  if r.second.any (fun t => decide (t ≤ h)) then some (s.runSecond m r)
  else match r.outs, r.next p with
  | o :: _, some (_, t) => if o.1 ≤ min (h + 1) t then some (s.runBlock m b p r o.2.1 o.2.2) else event
  | o :: _, none => if o.1 ≤ h + 1 then some (s.runBlock m b p r o.2.1 o.2.2) else none
  | [], _ => event

/-- All that the TMM in flight does by the end of cycle `h`, in at most `fuel` events. -/
def State.runTo (m : Nat) (b : Bytes) (p : Plan) (h : Nat) : Nat → State → State
  | 0, s => s
  | fuel + 1, s =>
    match (s.mx m).run with
    | none => s
    | some r =>
      match s.runOnce m b p r h with
      | some s1 => State.runTo m b p h fuel s1
      | none => s

/-- The TMM in flight by the end of cycle `h`: its course so far, and its end. -/
def State.settleRun (s : State) (m h : Nat) : State :=
  match (s.mx m).run with
  | none => s
  | some r0 =>
    let b := s.mxProg m
    let p := planFor b r0.word
    let s1 := s.runTo m b p h (2 * p.loads + 4 * p.steps + p.ln * p.blocks + 4)
    match (s1.mx m).run with
    | some r => if r.step = p.steps ∧ r.outs = [] ∧ r.second = none ∧ r.start + p.total + r.stall ≤ h + 1 then s1.endRun m b p r else s1
    | none => s1

/-! ### TOUT -/

/-- The outputs that a plain TOUT reads, as its arrays write them (R176). -/
def plainOuts (c : MxCore) (b : Bytes) (w : Nat) : List OutVal :=
  let r := tileRec b (toTrec w)
  let rows := openRows b r (toM w)
  let cols := openCols b r (toN w)
  (List.range rows.length).flatMap fun j => cols.map fun n =>
    let v := c.entry (j % 4) (trStage r + j / 4 * toN w + n)
    ⟨rows.getD j 0, n, j % 4, entryNum v, entryBad v⟩

/-- The entries that a tracker TOUT writes, each with its token, place, score converted, index and poison, and the
conversion's flags (R148, R178, R179). A token of index 16 or more has no tracker (R144): its list is short, as a token's without an
entry (DESIGN CHOICE, log entry 121). With RND = 1 a merged score is rounded by the LFSR of the array whose tracker held it, tokens
ascending and then by rank (DESIGN CHOICE, log entry 122). Tokens that a column mask leaves out get none (DESIGN CHOICE, log entry 168). -/
def trackerOuts (c : MxCore) (b : Bytes) (w : Nat) (bank : Option Nat) : List (OutCode × Nat × Nat) :=
  let r := tileRec b (toTrec w)
  let k := trK r
  let ls : List (OutVal × Nat × Nat) := (openCols b r (toN w)).flatMap fun n =>
    let ts := match bank with
      | some q => if n < 16 then (List.range 4).map fun a => aget {} c.trks (q * 64 + a * 16 + n) else []
      | none => []
    let bad := ts.any Trk.bad
    let es := trkMerge k ts
    (List.range k).map fun i =>
      match es[i]? with
      | some e => (⟨i, n, e.2.2, ofExt e.1, bad⟩, e.2.1, i)
      | none => (⟨i, n, 0, .nan, bad⟩, 0xFFFFFFFF, i)
  let os := ls.map fun e => e.1
  (convertOuts 0x0A (toSat w) (rules (toRnd w) (lfsrLoad (toSeed w)) os).1 os).zip (ls.map fun e => e.2)

/-- The rows of the tile that a TOUT writes: in tracker form its entries (R148, R177). -/
def toRows (b : Bytes) (w : Nat) : Nat := if toTrkf w then trK (tileRec b (toTrec w)) else toM w

/-- A TOUT's last cycle: its writes become visible (R176 to R180). A tracker TOUT empties its bank, also where its predicate does not
hold: it runs in full (R154) and drops its writes and flags alone (DESIGN CHOICE, log entry 123). Entry i of token n goes to element
(i, n) (DESIGN CHOICE, log entry 168). -/
def State.endOut (s : State) (m : Nat) (o : TOut) : State :=
  let b := s.mxProg m
  let c := s.mx m
  let pg := pgMatrix m
  let w := o.word
  let t := tileDesc b (trOdesc (tileRec b (toTrec w)))
  let s0 := s.modMx m fun c =>
    { c with
      out := none
      trks := match o.bank with | some q => c.trks.filter fun e => decide (e.1 / 64 ≠ q) | none => c.trks }
  if !o.acts then s0
  else
    let x : State × Nat × Nat :=
      if toTrkf w then
        let l := trackerOuts c b w o.bank
        (s0.writeElems (l.map fun e => { at_ := t.at e.2.2 e.1.o.n 0 0, w := 64, v := e.1.code + 2 ^ 32 * e.2.1, bad := e.1.o.bad }),
          outFlags (l.map fun e => e.1))
      else
        let os := plainOuts c b w
        let cs := convertOuts t.fmt (toSat w) (rules (toRnd w) (lfsrLoad (toSeed w)) os).1 os
        (s0.writeElems (outWrites t cs), outFlags cs)
    let s1 := (if toCsum w then x.1.writeChecks t (t.tileBytes (toRows b w) (toN w)) else x.1).setAflags pg x.2.1
    if o.after = c.done then
      s1.wrs pg [(MX_AFLAGS_LAST_FLAGS, s1.rd pg MX_AFLAGS_LAST_FLAGS ||| x.2.1),
        (MX_AFLAGS_LAST_ARRAYS, s1.rd pg MX_AFLAGS_LAST_ARRAYS ||| x.2.2)]
    else s1

/-- Everything core `m` has done by the end of cycle `h`: a TOUT in flight that ends by then does so between what its TMM does before
and after it (R158). -/
def State.settleMx (s : State) (m h : Nat) : State :=
  match (s.mx m).out with
  | some o => if o.fin ≤ h + 1 then ((s.settleRun m (o.fin - 1)).endOut m o).settleRun m h else s.settleRun m h
  | none => s.settleRun m h

end Sys2Proof.Machine
end

