-- ==== Sys2Proof/Machine/MoverOps.lean ====
section
/-!
DEFINITION. Machine/MoverOps.lean: what a mover's transfer does (R257 to R269, R344, R345): the words of its ends in
their cycles, check blocks and stripe parity, the writes at its end, and the requests of REMOTE and CXL ends.
-/

namespace Sys2Proof.Machine

open Sys2Proof

/-! ### Units and words -/

/-- The Riser of a mover, its bulk router and the first of its four ports there (Table 7-1), and its sync router. -/
def mvRiser (m : Nat) : Nat := if m < 80 then m / 10 else (m - 80) / 4
def mvRouter (m : Nat) : Nat := if m < 80 then m else 80 + (m - 80) / 4
def mvPort0 (m : Nat) : Nat := if m < 80 then 8 else 8 + 4 * ((m - 80) % 4)

/-- The partition, the program and the sequencer's unit of a mover. -/
def State.mvPart (s : State) (m : Nat) : Nat := s.partOfRiser (mvRiser m)
def State.mvProg (s : State) (m : Nat) : Bytes :=
  (s.sect 2 (mvRiser m) (if m < 80 then m % 10 else 16 + (m - 80) % 4)).getD []
def State.mvUnit (s : State) (m : Nat) : SeqUnit := ⟨pgMover m, s.mvPart m, MV_HAZ_COUNT, none⟩

/-- A mover section's tables (R256). -/
def msInstrs (b : Bytes) : Nat := fieldAt b 0x00 2
def msDescs (b : Bytes) : Nat := fieldAt b 0x02 2
def moverInstr (b : Bytes) (i : Nat) : Nat := fieldAt b (fieldAt b 0x04 4 + 16 * i) 16
def moverDesc (b : Bytes) (i : Nat) : Bytes := slice b (fieldAt b 0x08 4 + 64 * i) 64

/-- The fields of an MXFER (Table 7-7). -/
def mvSrc (w : Nat) : Nat := wf w 51 49
def mvDst (w : Nat) : Nat := wf w 54 52
def mvSdesc (w : Nat) : Nat := wf w 64 55
def mvDdesc (w : Nat) : Nat := wf w 74 65
def mvPorts (w : Nat) : Nat := wf w 78 75
def mvWcore (w : Nat) : Nat := wf w 80 79
def mvWbase (w : Nat) : Nat := wf w 93 81
def mvCheck (w : Nat) : Bool := bit w 94
def mvCrcW (w : Nat) : Bool := bit w 95
def mvParW (w : Nat) : Bool := bit w 96
def mvFlag (w : Nat) : Nat := wf w 112 97
def mvWords (w : Nat) : Nat := wf w 127 113

/-- The ends: SRC 0 LOCAL, 1 BULK, 2 REMOTE, 3 CXL; DST 0 LOCAL, 1 BULK, 2 WRING, 3 REMOTE, 4 CXL. -/
def srcFar (w : Nat) : Bool := decide (2 ≤ mvSrc w)
def dstFar (w : Nat) : Bool := decide (3 ≤ mvDst w)
def isFar (w : Nat) : Bool := srcFar w || dstFar w
def hasBulk (w : Nat) : Bool := decide (mvSrc w = 1) || decide (mvDst w = 1)

/-- The ports set in PORTS, in ascending order. -/
def portList (w : Nat) : List Nat := (List.range 4).filter fun q => bit (mvPorts w) q

/-- The source and destination tensors. -/
def srcTensor (b : Bytes) (w : Nat) : Tensor := Tensor.of (moverDesc b (mvSdesc w))
def dstTensor (b : Bytes) (w : Nat) : Tensor := Tensor.of (moverDesc b (mvDdesc w))

/-- The transfer transposes (R258): both ends have descriptors and the destination's says so. -/
def mvTransp (b : Bytes) (w : Nat) : Bool :=
  decide (mvSrc w ≠ 1) && (decide (mvDst w = 0) || dstFar w) && (dstTensor b w).transp

/-! ### Elements and sectors -/

/-- Where element `i` of a tensor begins, in bits. -/
def Tensor.bitAt (t : Tensor) (i : Nat × Nat × Nat × Nat) : Nat := t.at i.1 i.2.1 i.2.2.1 i.2.2.2

/-- The sectors that a tensor's elements touch, in their order. -/
def Tensor.touches (t : Tensor) : List Nat :=
  (t.indexes.flatMap fun i => sectors (t.bitAt i / 8) ((t.bitAt i % 8 + t.bits + 7) / 8)).eraseDups

/-- The part of source `sd` that a transfer moves: the shape of its destination `dd`, where the destination is a tensor. -/
def partOf (w : Nat) (sd dd : Tensor) (transp : Bool) : Tensor :=
  if mvDst w = 1 ∨ mvDst w = 2 then sd
  else { sd with d0 := if transp then dd.d1 else dd.d0, d1 := if transp then dd.d0 else dd.d1, d2 := dd.d2, d3 := dd.d3 }
def srcPart (b : Bytes) (w : Nat) : Tensor := partOf w (srcTensor b w) (dstTensor b w) (mvTransp b w)

/-- The tensor and its part have the same shape. -/
def Tensor.sameShape (t p : Tensor) : Bool := decide (t.d0 = p.d0 ∧ t.d1 = p.d1 ∧ t.d2 = p.d2 ∧ t.d3 = p.d3)

/-- Bits of a store of sectors: address, data, poison. -/
def sectorOfList (l : List (Nat × Bytes × Bool)) (x : Nat) : Option (Bytes × Bool) :=
  (l.find? fun e => decide (e.1 = x)).map fun e => e.2

/-- The `w` bits from bit `a` of such a store, and their poison; none where a byte is not there. -/
def bitsOf (l : List (Nat × Bytes × Bool)) (a w : Nat) : Option (Nat × Bool) :=
  let n := (a % 8 + w + 7) / 8
  let bs := (List.range n).map fun i => (sectorOfList l ((a / 8 + i) / 64 * 64)).map fun e => (e.1.getD ((a / 8 + i) % 64) 0, e.2)
  if bs.all Option.isSome then
    let v := unle (bs.map fun e => (e.getD (0, false)).1)
    some (v / 2 ^ (a % 8) % 2 ^ w, bs.any fun e => (e.getD (0, false)).2)
  else none

/-- The elements that go to tensor `t` from a store that holds its sectors. -/
def Tensor.fromStream (t : Tensor) (l : List (Nat × Bytes × Bool)) : List EWrite :=
  t.indexes.filterMap fun i => (bitsOf l (t.bitAt i) t.bits).map fun v => { at_ := t.bitAt i, w := t.bits, v := v.1, bad := v.2 }

/-- Each destination element with the source element it takes (R258), `get` reading the source. -/
def moveElems (sd dd : Tensor) (transp : Bool) (get : Nat → Option (Nat × Bool)) : List EWrite :=
  dd.indexes.filterMap fun i =>
    let j := if transp then (i.2.1, i.1, i.2.2.1, i.2.2.2) else i
    (get (sd.bitAt j)).map fun v => { at_ := dd.bitAt i, w := dd.bits, v := v.1, bad := v.2 }

/-- The words of a list of sectors, eight to a word; a word that ends short is filled up with free bytes. -/
def State.wordsOf (s : State) (l : List Nat) : List BWord :=
  (List.range ((l.length + 7) / 8)).map fun i =>
    let xs := (l.drop (8 * i)).take 8
    { data := slice (xs.flatMap fun x => s.getBs x 64) 0 (64 * xs.length) ++ Config.freeBytes s.free (512 - 64 * xs.length)
      poison := maskOf 8 fun j => match xs[j]? with | some x => s.poisoned x | none => false }

/-- The eight sectors of a word as data and poison. -/
def BWord.parts (w : BWord) : List (Bytes × Bool) := (List.range 8).map fun j => (slice w.data (64 * j) 64, bit w.poison j)

/-! ### Check blocks (R265 to R267, R347) -/

/-- The check blocks of a checked tensor that a transfer of all its sectors carries whole, and the others. -/
def Tensor.whole (t : Tensor) : Nat := if t.checked then (t.length + 63) / 64 * 64 / 2048 else 0
def Tensor.partBlocks (t : Tensor) : Nat := if t.checked then t.blocks - t.whole else 0

/-- Of the check blocks of tensor `t`, those that its part `p` holds whole, and how many it touches (R265). -/
def Tensor.carried (t p : Tensor) : List Nat :=
  if t.sameShape p then List.range t.whole
  else (List.range t.whole).filter fun j =>
    let base := 8 * (localOf t.addr + 2048 * j)
    t.indexes.all fun i =>
      decide (t.bitAt i + t.bits ≤ base ∨ base + 16384 ≤ t.bitAt i) || decide (i.1 < p.d0 ∧ i.2.1 < p.d1 ∧ i.2.2.1 < p.d2 ∧ i.2.2.2 < p.d3)
def Tensor.blocksIn (t p : Tensor) : Nat :=
  if !t.checked then 0
  else if t.sameShape p then t.blocks
  else (p.touches.map fun x => (x - localOf t.addr) / 2048).eraseDups.length

/-- The tensor whose check blocks a transfer carries: its source's, else its destination's. -/
def checkTensor (b : Bytes) (w : Nat) : Option Tensor :=
  if mvSrc w ≠ 1 then some (srcTensor b w) else if mvDst w = 0 ∨ dstFar w then some (dstTensor b w) else none
def checkBlocks (b : Bytes) (w : Nat) : Nat := ((checkTensor b w).map Tensor.whole).getD 0

/-- Trailing check words (R260). -/
def checkWords (b : Bytes) (w : Nat) : Nat := if mvCheck w || mvCrcW w then (checkBlocks b w + 127) / 128 else 0

/-- Block `j` of a list of data words, and its words. -/
def blockWords (l : List BWord) (j : Nat) : List BWord := (l.drop (4 * j)).take 4
def blockBytes (l : List BWord) (j : Nat) : Bytes := (blockWords l j).flatMap BWord.data

/-- Entries as check words: 128 to a word, the last one filled with zero entries. -/
def entryWords (l : List Nat) : List BWord :=
  (List.range ((l.length + 127) / 128)).map fun i => { data := slice (((l.drop (128 * i)).take 128).flatMap (le 4)) 0 512 }

/-- The four parity words of data blocks `j0` to below `j1`. -/
def parityWords (l : List BWord) (j0 j1 : Nat) : List BWord :=
  (List.range 4).map fun q =>
    (List.range (j1 - j0)).foldl (fun (a : BWord) i =>
      let w := l.getD (4 * (j0 + i) + q) {}
      { data := xorBytes a.data (slice w.data 0 512), poison := a.poison ||| w.poison }) { data := List.replicate 512 0 }

/-- Data words in stream order: after each group of 15 of the `n` whole blocks its parity words (R267), then the
rest, then the check words. -/
def layWords (l : List BWord) (n : Nat) (par : Bool) (chk : List BWord) : List BWord :=
  (if par then
    (List.range ((n + 14) / 15)).flatMap (fun g =>
      let j1 := min n (15 * g + 15)
      ((l.drop (60 * g)).take (4 * (j1 - 15 * g))) ++ parityWords l (15 * g) j1) ++ l.drop (4 * n)
  else l) ++ chk

/-- A check-block mismatch (R265, R354). -/
def State.crcFail (s : State) (m : Nat) (t : Tensor) (j : Nat) : State :=
  let pg := pgMover m
  let a := t.addr + 2048 * j
  let s1 := (s.bump pg MV_CRC_FAIL_COUNT).wrs pg [(MV_FAIL_LO_ADDR, a), (MV_FAIL_HI_ADDR, a / 2 ^ 32)]
  (s1.raise pg ev_MV_CRC_FAIL (le 8 a ++ le 8 t.table)).suspect (s.mvPart m) a t.table

/-- Data words checked block by block against entries: the words with every failing block poisoned, and the state
that notes the failures and the blocks of which only part was moved. -/
def State.checkAll (s : State) (m : Nat) (t part : Tensor) (l : List BWord) (entry : Nat → Nat) : List BWord × State :=
  let bad := (t.carried part).filter fun j => decide (crc32c (blockBytes l j) ≠ entry j)
  (l.zipIdx.map fun e => if bad.contains (e.2 / 4) then { e.1 with poison := 255 } else e.1,
    (bad.foldl (fun s j => s.crcFail m t j) s).bump (pgMover m) MV_UNVERIFIED_COUNT (t.blocksIn part - (t.carried part).length))

/-- The entries of a LOCAL check table. -/
def State.localEntry (s : State) (t : Tensor) (j : Nat) : Nat := unle (s.getBs (localOf t.table + 0x40 + 4 * j) 4)

/-! ### Rates and counts (R259, R261, R268, R344) -/

/-- A LOCAL destination lies in a reduction part. -/
def State.redDest (s : State) (m : Nat) (t : Tensor) : Bool :=
  decide (80 ≤ m) && match homeOf (t.span.1.toNat) with | .slice n o => s.inRed n o | _ => false

/-- The rate of each end. -/
def srcRate (m w : Nat) : Nat := if mvSrc w = 1 then max 1 (portList w).length else if m < 80 then 7 else 2
def State.dstRate (s : State) (m : Nat) (b : Bytes) (w : Nat) : Nat :=
  match mvDst w with
  | 1 => max 1 (portList w).length
  | 2 => 8
  | _ => if m < 80 then 4 else if s.redDest m (dstTensor b w) then 1 else 2
def State.mvRate (s : State) (m : Nat) (b : Bytes) (w : Nat) : Nat :=
  if isFar w then max 1 (portList w).length else min (srcRate m w) (s.dstRate m b w)

/-- Words at each end. -/
def srcCount (b : Bytes) (w : Nat) : Nat := if mvSrc w = 0 then ((srcPart b w).touches.length + 7) / 8 else mvWords w
def dstCount (b : Bytes) (w : Nat) : Nat := if mvDst w = 0 then ((dstTensor b w).touches.length + 7) / 8 else mvWords w

/-- The size of a far transfer in bytes: its destination's, else its source's. -/
def farBytes (b : Bytes) (w : Nat) : Nat :=
  let t := if mvDst w = 0 ∨ dstFar w then dstTensor b w else srcTensor b w
  (t.d0 * t.d1 * t.d2 * t.d3 * t.bits + 7) / 8

/-- The count of an MXFER. -/
def State.mxferCount (s : State) (m : Nat) (b : Bytes) (w : Nat) : Nat :=
  if isFar w then 4 + (farBytes b w + 255) / 256
  else
    4 + max (ceilDiv (srcCount b w) (srcRate m w)) (ceilDiv (dstCount b w) (s.dstRate m b w)) + (if mvTransp b w then 8 else 0)
      + (if mvCheck w || mvCrcW w then 2 else 0)

/-- The cycle after the last of an MXFER issued in cycle `t`: its count runs over scheduled cycles where an end is
BULK. -/
def State.mxferEnd (s : State) (cps m : Nat) (b : Bytes) (w t : Nat) : Nat :=
  let n := s.mxferCount m b w
  if hasBulk w then schedCycle cps (epochOf cps t) (schedIdx cps t + n - 1) + 1 else t + n

/-- The cycle in which word `i` of a transfer issued in cycle `t` must be at an input port, is driven at an output
port or lies in a ring (R262). -/
def State.wordCycle (s : State) (w t lag rate i : Nat) : Nat :=
  if hasBulk w then schedCycle s.cps (epochOf s.cps t) (schedIdx s.cps t + lag + i / rate) else t + lag + i / rate

/-! ### Words that leave -/

/-- Word `i` goes to its port, at whose router it is a cycle later (Table 7-3), or into the ring; words bound for a core out of service are
discarded (R270). -/
def State.putWord (s : State) (m : Nat) (b : Bytes) (x : Xfer) (i : Nat) (w : BWord) : State :=
  let iw := x.word
  let c := s.wordCycle iw x.issue (4 + if mvTransp b iw then 8 else 0) (s.mvRate m b iw) i
  match mvDst iw with
  | 1 => s.drive (mvRouter m) (mvPort0 m + (portList iw).getD (i % (portList iw).length) 0) (c + 1) w
  | 2 =>
    let core := 4 * m + mvWcore iw
    if s.out (pgMatrix core) then s.bump (pgBulk (mvRouter m)) NW_BFENCE_COUNT
    else
      s.modMx core fun u =>
        { u with ring := (w.parts.zipIdx).foldl (fun r e =>
            aupd [] r ((mvWbase iw + 8 * i + e.2) % 8192) fun l => l ++ [{ cycle := c, data := e.1.1, bad := e.1.2 }]) u.ring }
  | _ => s

/-- Words `i0` on of a list leave in order. -/
def State.putWords (s : State) (m : Nat) (b : Bytes) (x : Xfer) (l : List BWord) : State :=
  l.zipIdx.foldl (fun s e => s.putWord m b x e.2 e.1) s

/-! ### Words that come in (R262, R263) -/

/-- The word a BULK input takes from port `q` by cycle `d`: the first there from cycle `c` on, each driven a cycle before (Table 7-3); with
it whether a bad router lost it. -/
def State.takeWord (s : State) (r p c d : Nat) : Option (Nat × BWord × Bool) :=
  ((List.range (d + 1 - c)).map (· + c)).findSome? fun y => (s.wordOut r p (y - 1)).map fun w => (y, w.1, w.2)

/-- The BULK words of a transfer that are due by cycle `h`, at most `fuel` of them. -/
def State.serveWords (m : Nat) (b : Bytes) (h : Nat) : Nat → State → State
  | 0, s => s
  | fuel + 1, s =>
    match (s.mover m).xfer with
    | none => s
    | some x =>
      let i := x.got.length
      let w := x.word
      let d := s.wordCycle w x.issue 2 (s.mvRate m b w) i
      if mvSrc w ≠ 1 ∨ mvWords w ≤ i ∨ h < d then s
      else
        let q := (portList w).getD (i % (portList w).length) 0
        let set (s : State) (v : BWord) (c : Nat) : State :=
          (s.modMover m fun u => { u with xfer := some { x with got := v :: x.got, ports := aset 0 x.ports q c } }).putWord m b x i v
        let s1 := match s.takeWord (mvRouter m) (mvPort0 m + q) (max x.issue (aget 0 x.ports q)) d with
          | some (c, v, lost) => set (if lost then s.seqSlip (s.mvUnit m) d 0 else s) v (c + 1)
          | none => set ((s.bump (pgMover m) MV_POISON_COUNT).seqSlip (s.mvUnit m) d 0) missWord (aget 0 x.ports q)
        State.serveWords m b h fuel s1

/-! ### Ends of a transfer that are refused (R196, R206, R258, R321) -/

/-- The local offset lies in memory of another partition than `p` (R32). -/
def State.otherPart (s : State) (p a : Nat) : Bool :=
  match homeOf (localOf a) with
  | .dram _ | .slice _ _ | .cluster _ _ => decide (s.homePart (homeOf (localOf a)) ≠ some p)
  | _ => false

/-- A tensor of this package begins or ends there. -/
def State.otherEnd (s : State) (p : Nat) (t : Tensor) : Bool :=
  s.ownPkg t.addr && (s.otherPart p t.addr || s.otherPart p t.span.1.toNat || s.otherPart p (t.span.2 - 1).toNat)

/-- The status of a LOCAL end, a far end: whether an engine of partition `p` may use it; with `chk`, whether its check table lies in the same
memory (R265, R266). -/
def State.localEnd (s : State) (m : Nat) (t : Tensor) (write chk : Bool) : Nat :=
  let k := localOf t.table
  let inside (lo hi : Nat) : Bool := !(chk && t.checked) || (s.ownPkg t.table && decide (lo ≤ k ∧ k + 0x40 + 4 * t.blocks ≤ hi))
  let r : Req := { src := pgMover m, cls := 1, op := if write then 0x02 else 0x01, addr := t.addr, len := 1, part := some (s.mvPart m) }
  if t.tag ≠ s.mvPart m then xPARTDENIED
  else if t.malformed then xBADDESC
  else if t.void then 0
  else if s.otherEnd (s.mvPart m) t then xPARTDENIED
  else if m < 80 then
    if !s.tensorIn t (clusterBase m) (clusterBase m + 12 * mib) || !inside (clusterBase m) (clusterBase m + 12 * mib) then xBADDESC
    else if ((clusterBase m + 0xBC0000 : Nat) : Int) < t.span.2 then xREGIONDENIED
    else s.localStatus r
  else
    let n := (m - 80) / 4
    if !s.tensorIn t (sliceBase n) (sliceBase n + 96 * mib) || !inside (sliceBase n) (sliceBase n + 96 * mib) then xBADDESC
    else if t.touches.any fun x => s.inCache n (x - sliceBase n) then xREGIONDENIED
    else s.localStatus r

def State.farEnd (s : State) (m : Nat) (t : Tensor) (cxl chk : Bool) : Nat :=
  let tier (a : Nat) : Bool := s.ownPkg a && (match homeOf (localOf a) with | .cxl _ _ => true | _ => false)
  let tabled : Bool := !(chk && t.checked) || (if cxl then tier t.table else decide (pkgOf t.table = pkgOf t.addr))
  if t.tag ≠ s.mvPart m then xPARTDENIED
  else if t.malformed ∨ m < 80 then xBADDESC
  else if s.otherEnd (s.mvPart m) t then xPARTDENIED
  else if tabled = false then xBADDESC
  else if cxl then (if tier t.addr then 0 else xBADDESC)
  else if s.ownPkg t.addr then xBADDESC else 0

/-- The first end of MXFER `w` that is refused: its descriptor's index and the status. -/
def State.mxferBad (s : State) (m : Nat) (b : Bytes) (w : Nat) : Option (Nat × Nat) :=
  let a := match mvSrc w with
    | 0 => s.localEnd m (srcTensor b w) false (mvCheck w)
    | 1 => 0
    | k => s.farEnd m (srcTensor b w) (decide (k = 3)) (mvCheck w)
  let d := match mvDst w with
    | 0 => s.localEnd m (dstTensor b w) true (mvCrcW w)
    | 1 => 0
    | 2 => if m < 80 then 0 else xBADDESC
    | k => s.farEnd m (dstTensor b w) (decide (k = 4)) (mvCrcW w)
  if a ≠ 0 then some (mvSdesc w, a) else if d ≠ 0 then some (mvDdesc w, d) else none

/-- What a refused end leaves behind. -/
def State.mxferNote (s : State) (m : Nat) (b : Bytes) (w : Nat) (e : Nat × Nat) : State :=
  let src := decide (e.1 = mvSdesc w ∧ mvSrc w ≠ 1)
  let t := if src then srcTensor b w else dstTensor b w
  if e.2 = xBADDESC then s.raise (pgMover m) ev_BAD_DESCRIPTOR (le 8 e.1 ++ le 4 (pgMover m))
  else s.countStatus { src := pgMover m, cls := 1, op := if src then 0x01 else 0x02, addr := t.addr, part := some (s.mvPart m) } e.2

end Sys2Proof.Machine
end

