-- ==== Sys2Proof/Machine/Tiles.lean ====
section
/-!
DEFINITION. Machine/Tiles.lean: the tile instructions (05_tile_programs.md). A command runs the instruction that is
next in its core's program, once the cycle in which it issues has come; what it does then follows from that cycle,
however long after it the command comes (log entry 41).
-/

namespace Sys2Proof.Machine

open Sys2Proof

/-! ### Issue -/

/-- The predicate of word `w` lets it act (R154). With PSEL = 0 the instruction is unpredicated and PNEG says nothing, whichever it is
(DESIGN CHOICE, log entry 124). -/
def State.predHolds (s : State) (m w : Nat) : Bool :=
  decide (wPsel w = 0) || (bit (s.rd (pgMatrix m) MX_SEQ_PRED_P) (wPsel w - 1) != wPneg w)

/-- The staging range of a resident TMM, of a plain TOUT: first entry and the one past the last (R157). -/
def tmmRange (b : Bytes) (w : Nat) : Nat × Nat :=
  let p := planFor b w
  let o := trStage (tileRec b (mmTrec w))
  (o, o + p.mq * p.n)
def outRange (b : Bytes) (w : Nat) : Nat × Nat :=
  let r := tileRec b (toTrec w)
  (trStage r, trStage r + ((openRows b r (toM w)).length + 3) / 4 * toN w)

/-- Two ranges have an entry in common. -/
def meets (x y : Nat × Nat) : Bool := decide (x.1 < x.2 ∧ y.1 < y.2 ∧ x.1 < y.2 ∧ y.1 < x.2)

/-- The bank the next tracker TMM fills, and the cycle from which a bank is free. -/
def State.nextBank (s : State) (m : Nat) : Nat := s.rd (pgMatrix m) MX_SEQ_STATE_TRK_BANK
def MxCore.bankTo (c : MxCore) (k : Nat) : Nat := if k = 0 then c.bank0To else c.bank1To

/-- A resident TMM keeps its staging range until its end. -/
def MxCore.heldBy (c : MxCore) (x : Nat × Nat) : Nat := if meets c.stageRange x then c.stageTo else 0

/-- The cycle from which every resource of word `w` is free (Table 5-3, R157). -/
def State.tileFree (s : State) (m : Nat) (b : Bytes) (w : Nat) : Nat :=
  let c := s.mx m
  match wClass w with
  | 1 => c.fillTo
  | 2 => max c.fillTo c.arrTo
  | 3 =>
    let p := planFor b w
    max (max c.fillTo c.arrTo)
      (if mmTrack w then c.bankTo (s.nextBank m)
        else if !p.resident then c.outTo
        else if meets (tmmRange b w) c.outRange then c.outTo else 0)
  | 4 => max c.outTo (if toTrkf w then (match c.filled with | some k => c.bankTo k | none => 0) else c.heldBy (outRange b w))
  | 5 | 6 => c.seq.syncTo
  | _ => 0

/-- That cycle is known: a TMM in flight that holds one of them does not wait for a late row, and no WAIT holds the sync port. A TOUT
needs of a TMM's resources the read-out port, which a streamed one holds, and its own staging range (Table 5-3, R157). -/
def State.tileKnown (s : State) (m w : Nat) : Bool :=
  let c := s.mx m
  let b := s.mxProg m
  match wClass w with
  | 1 | 2 | 3 => match c.run with | some r => !r.waits | none => true
  | 4 =>
    match c.run with
    | some r =>
      !r.waits || ((planFor b r.word).resident && (mmTrack r.word || toTrkf w || !meets (tmmRange b r.word) (outRange b w)))
    | none => true
  | 5 | 6 => c.seq.wait.isNone
  | _ => true

/-- The core's sequencer becomes `q`. -/
def State.putTile (s : State) (m : Nat) (q : Seq) : State := s.modMx m fun c => { c with seq := q }

/-- The registers of an issue in cycle `t` (Table 5-17). -/
def State.issued (s : State) (m t : Nat) : State :=
  s.wrs (pgMatrix m) [(MX_SEQ_LAST_CYC, cycOf s.cps t), (MX_SEQ_LAST_SLOT, slotOf s.cps t),
    (MX_SEQ_LEPOCH_REL, ((epochOf s.cps t : Int) - (s.part (s.mxPart m)).base).toNat)]

/-- The instruction issued in cycle `t` ends in cycle `e`, or when that is not known. -/
def State.tilePassed (s : State) (m t : Nat) (e : Option Nat) : State :=
  s.modMx m fun c => { c with seq := c.seq.passed t e }

/-- A tile command of class `cls`: what the core has done so far is settled, and its next instruction, where it is
of that class, issues if its cycle has come. -/
def State.tile (s : State) (m cls : Nat) (go : State → Bytes → Nat → Nat → State) : State :=
  let s0 := s.settleMx m (s.cycles - 1)
  let b := s0.mxProg m
  let q := (s0.mx m).seq
  let w := tileInstr b q.pc
  let wait := decide (cls = 5) && decide (tsMode w ≤ 1)
  let fin (t : Nat) : Nat := t + tileCycles b q.pc
  if !s0.playing (s0.mxPart m) ∨ q.ended ∨ tsInstrs b ≤ q.pc ∨ wClass w ≠ cls then s0
  else if s0.out (pgMatrix m) then
    s0.seqAbsorb (s0.mxUnit m) q w fin (fun s q => s.putTile m { q with ended := decide (cls = 7) })
  else
    (s0.seqTry (s0.mxUnit m) q w (s0.tileFree m b w) (s0.tileKnown m w) wait fin (fun s q => s.putTile m q)
      (fun s t => go (s.issued m t) b w t)).settleMx m (s.cycles - 1)

/-! ### What a core takes of its cluster's banks (R87, R170, R180, R199; log entry 126) -/

/-- The TMM a TLOADS serves: the next with K above 0 (R171, R174). -/
def nextTmm (b : Bytes) (i : Nat) : Option Nat :=
  ((List.range (tsInstrs b)).filter fun j => decide (i < j ∧ wClass (tileInstr b j) = 3 ∧ mmK (tileInstr b j) ≠ 0)).head?

/-- Sectors under the bits from `lo` to `hi`. -/
def bitSectors (lo hi : Nat) : List Nat := sectors (lo / 8) ((hi + 7) / 8 - lo / 8)

/-- The sectors that the broadcast reads for stationary load `l` of N-group `g` of TMM `w`, token by token. -/
def fillSectors (b : Bytes) (w g l : Nat) : List Nat :=
  let t := tileDesc b (trAdesc (tileRec b (mmTrec w)))
  let f := foldOf w
  let n := f.d * f.s * (classOfFmt (mmAfmt w)).kappa2 / 2
  let hi := min (l * n + n) (mmK w)
  let dense := decide (t.st0 = 0 ∨ t.st0 * 8 = t.bits)
  (((List.range f.t).filter fun i => decide (g * f.t + i < mmN w)).flatMap fun i =>
    let tok := g * f.t + i
    if hi ≤ l * n then []
    else (if dense then bitSectors (t.at (l * n) tok 0 0) (t.at (hi - 1) tok 0 0 + t.bits)
        else (List.range (hi - l * n)).map fun k => t.at (l * n + k) tok 0 0 / 512 * 64) ++
      (if mmScaled w then sectors (t.scaleAt (l * n / 32) tok 0 0) ((hi + 31) / 32 - l * n / 32) else [])).destutter (· ≠ ·)

/-- The sectors of fill cycle `i` of `ls`. -/
def fillCycle (l : List Nat) (ls i : Nat) : List Nat :=
  let per := max 4 (ceilDiv l.length ls)
  (l.drop (per * i)).take per

/-- The sectors that core `m`'s broadcast reads in the current cycle: of a fill under way, or of one that begins now. -/
def State.fillUse (s : State) (m : Nat) : List Nat :=
  let c := s.mx m
  let b := s.mxProg m
  let now := s.cycles
  match c.run with
  | some r =>
    let p := planFor b r.word
    let x := p.load r.fills
    let y := p.load (r.fills - 1)
    if r.next p = some (.fill, now) then fillCycle (fillSectors b r.word x.1 x.2.2) p.ls 0
    else match c.shadowAt with
      | some z => if 0 < r.fills ∧ now < z ∧ z ≤ now + p.ls then fillCycle (fillSectors b r.word y.1 y.2.2) p.ls (now + p.ls - z) else []
      | none => []
  | none =>
    match c.shadowAt, nextTmm b (c.seq.pc - 1) with
    | some z, some j =>
      let w := tileInstr b j
      let ls := (classOfFmt (mmAfmt w)).ls
      if z = c.fillTo ∧ now < z ∧ z ≤ now + ls then fillCycle (fillSectors b w 0 0) ls (now + ls - z) else []
    | _, _ => []

/-- The sectors that its side lane reads in the current cycle: weight scales, and with its first load biases, of the rows that stream. -/
def State.rowUse (s : State) (m : Nat) : List Nat :=
  match (s.mx m).run with
  | some r =>
    let b := s.mxProg m
    let w := r.word
    let rec_ := tileRec b (mmTrec w)
    let p := planFor b w
    let x := p.step r.step
    let ne := p.e * p.fold.s
    let lo := x.2.2.1 * ne / 32
    if r.next p = some (.row, s.cycles) ∧ r.waits = false then
      ((p.arraysIn r.step).flatMap fun a =>
        let row := (openRows b rec_ (mmM w)).getD (4 * (x.2.1 * p.mb + x.2.2.2) + a) 0
        (if mmScaled w then sectors ((tileDesc b (trWdesc rec_)).scaleAt lo row 0 0) ((min (x.2.2.1 * ne + ne) p.k + 31) / 32 - lo) else []) ++
          (if mmInit w = 1 ∧ x.2.2.1 = 0 then
            let t := tileDesc b (trBdesc rec_)
            bitSectors (t.at row 0 0 0) (t.at row 0 0 0 + t.bits)
          else [])).destutter (· ≠ ·)
    else []
  | none => []

/-- The sectors of an output tile, token by token: elements, and of an MX tile scales. -/
def outSectors (t : Tensor) (rows toks : List Nat) (w : Nat) (mx : Bool) : List Nat :=
  (toks.flatMap fun n => (rows.flatMap fun i => bitSectors (t.at i n 0 0) (t.at i n 0 0 + w)) ++
    (if mx then rows.map fun i => t.scaleAt (i / 32) n 0 0 / 64 * 64 else [])).destutter (· ≠ ·)

/-- Those of them that are written in cycle `now`, at 256 bytes in a cycle, the last in the cycle before `fin`. -/
def lastWrites (l : List Nat) (now fin : Nat) : List Nat :=
  let n := ceilDiv l.length 4
  if fin ≤ now + n ∧ now < fin then (l.drop (4 * (now + n - fin))).take 4 else []

/-- The sectors that core `m` writes in the current cycle: a TOUT's, or those of a block whose read-out ends. -/
def State.outUse (s : State) (m : Nat) : List Nat :=
  let c := s.mx m
  let b := s.mxProg m
  let now := s.cycles
  (match c.out with
    | some o =>
      let r := tileRec b (toTrec o.word)
      let t := tileDesc b (trOdesc r)
      let toks := openCols b r (toN o.word)
      if !o.acts then []
      else if toTrkf o.word then lastWrites (outSectors t (List.range (trK r)) toks 64 false) now o.fin
      else lastWrites (outSectors t (openRows b r (toM o.word)) toks t.bits (isMx t.fmt)) now o.fin
    | none => []) ++
  (match c.run with
    | some r =>
      let rec_ := tileRec b (mmTrec r.word)
      let t := tileDesc b (trOdesc rec_)
      let p := planFor b r.word
      if !r.acts then []
      else r.outs.flatMap fun o =>
        let rows := (openRows b rec_ (mmM r.word)).drop (4 * o.2.2 * p.mb) |>.take (4 * p.rowsIn o.2.2)
        lastWrites (outSectors t rows ((openCols b rec_ (mmN r.word)).filter fun n => decide (n / p.fold.t = o.2.1)) t.bits (isMx t.fmt)) now o.1
    | none => [])

/-- The core reads these sectors in the current cycle. -/
def State.takeReads (s : State) (m : Nat) (l : List Nat) : State := if l.isEmpty then s else s.schedTake (pgMatrix m) l []

/-! ### Descriptors (R181, R196, R197) -/

/-- The tensor is one a matrix core of cluster `k` and partition `p` accepts: strided, not transposed, of its own partition, its
elements, at least `d0` × `d1` of them, in its own cluster memory below the firmware region, and so its scales where it uses them
(R181, R197). -/
def State.coreTensor (s : State) (k p : Nat) (t : Tensor) (d0 d1 : Nat) (scales : Bool) : Bool :=
  let t := { t with d0 := max t.d0 d0, d1 := max t.d1 d1 }
  !t.tiled && !t.transp && decide (t.tag = p) && s.tensorIn t (clusterBase k) (clusterBase k + 0xBC0000) &&
    (!scales || decide (t.scale ≠ 0))

/-- The check table lies in that memory too. -/
def State.coreTable (s : State) (k : Nat) (t : Tensor) : Bool :=
  s.ownPkg t.table && decide (clusterBase k ≤ localOf t.table ∧
    localOf t.table + 0x40 + 4 * t.blocks ≤ clusterBase k + 0xBC0000)

/-- The first of these descriptors that the core does not accept: an index, the shape used, and whether its scales are. -/
def State.firstBad (s : State) (m : Nat) (b : Bytes) (l : List (Nat × Nat × Nat × Bool)) : Option Nat :=
  (l.find? fun e => !s.coreTensor (m / 4) (s.mxPart m) (tileDesc b e.1) e.2.1 e.2.2.1 e.2.2.2).map fun e => e.1

/-- The weight scales lie in the core's cluster memory (R170, R197). -/
def State.sideLaneOk (s : State) (m : Nat) (t : Tensor) : Bool :=
  let k := m / 4
  decide (t.tag = s.mxPart m) && s.ownPkg t.scale &&
    decide (clusterBase k ≤ localOf t.scale ∧ t.scaleAt 0 t.d1 0 0 ≤ clusterBase k + 0xBC0000)

/-- The activations of TMM `w` as its core reads them. -/
def actsRead (b : Bytes) (w : Nat) : Nat × Nat × Nat × Bool := (trAdesc (tileRec b (mmTrec w)), mmK w, mmN w, mmScaled w)

/-- An output through descriptor `o`: its scales are written where it is MX. -/
def outWritten (b : Bytes) (o m n : Nat) : Nat × Nat × Nat × Bool := (o, m, n, isMx (tileDesc b o).fmt)

/-- A descriptor of a TMM, of a TLOADS for TMM `w`, or of a TOUT, that refuses it. -/
def State.loadsBad (s : State) (m : Nat) (b : Bytes) (w : Nat) : Option Nat := s.firstBad m b [actsRead b w]
def State.tmmBad (s : State) (m : Nat) (b : Bytes) (w : Nat) : Option Nat :=
  let r := tileRec b (mmTrec w)
  let p := planFor b w
  let wd := trWdesc r
  let l := (if p.k = 0 then [] else [actsRead b w]) ++ (if mmInit w = 1 then [(trBdesc r, mmM w, 1, false)] else []) ++
    (if p.resident then [] else [outWritten b (trOdesc r) (mmM w) (mmN w)])
  if mmScaled w ∧ p.k ≠ 0 ∧ s.sideLaneOk m (tileDesc b wd) = false then some wd
  else if mmCsum w ∧ s.coreTable (m / 4) (tileDesc b (trOdesc r)) = false then some (trOdesc r)
  else s.firstBad m b l
def State.toutBad (s : State) (m : Nat) (b : Bytes) (w : Nat) : Option Nat :=
  let o := trOdesc (tileRec b (toTrec w))
  if toCsum w ∧ s.coreTable (m / 4) (tileDesc b o) = false then some o
  else s.firstBad m b [outWritten b o (toRows b w) (toN w)]

/-- The BAD_DESCRIPTOR event of descriptor `i`, if one refused the operation. -/
def State.noteBad (s : State) (pg : Nat) (i : Option Nat) : State :=
  match i with
  | some x => s.raise pg ev_BAD_DESCRIPTOR (le 8 x ++ le 4 pg)
  | none => s

/-- A parity error in array `a`'s copy of a stationary set: what the set holds is poisoned there until the next fill (R115). -/
def StSet.hit (x : StSet) (a : Nat) : StSet := { x with hurt := (a :: x.hurt).dedup }

/-- Parity errors met in the core's stores (R115): each poisons what it hurt, sets its bit and raises MX_PARITY; store 3 is the cluster's
memory, by sector, which it reads (R207). `held`: the stationary
sets that lie in the core now, by the number an error names them with: the active and the shadow sets. `ring`: the buffer's errors are
met now, and not as a TMM streams its rows. -/
def State.mxParity (s : State) (m : Nat) (held : Option Nat × Option Nat) (ring : Bool) (errs : List (Nat × Nat × Nat)) : State :=
  errs.foldl (fun s e =>
    let pg := pgMatrix m
    let s1 := match e.2.1 with
      | 0 => (s.hwSet pg MX_PARITY_STATIONARY (2 ^ (e.1 % 4))).modMx m fun c =>
          { c with
            active := if held.1 = some e.2.2 then c.active.hit e.1 else c.active
            shadow := if held.2 = some e.2.2 then c.shadow.hit e.1 else c.shadow }
      | 1 => (s.hwSet pg MX_PARITY_STAGING (2 ^ (e.1 % 4))).modMx m fun c =>
          { c with stage := ains (e.1 * 8192 + e.2.2) (c.entry e.1 e.2.2 ||| 1) c.stage }
      | _ => (s.hwSet pg MX_PARITY_WBUF).modMx m fun c => if ring then c.hurtRow (s.cycles - 1) [e.2.2] else c
    if e.2.1 = 3 then s.parityAt false [clusterBase (m / 4) + 64 * e.2.2] else s1.raise pg ev_MX_PARITY (le 1 e.1 ++ le 1 e.2.1 ++ le 2 0 ++ le 4 e.2.2)) s

/-! ### The instructions -/

/-- TNOP (R186): nothing, for its count. -/
def execTnop (core : Fin 320) (s : State) : Host.Outcome State Fault Refusal :=
  finish tiled s <| s.tile core 0 fun s _ w t => s.tilePassed core t (some (t + nopCount w))

/-- TLOADS (R171): the shadow sets take stationary load 0 of N-group 0 of the next TMM, as memory holds it when the fill begins (R158);
where the core does not accept that TMM's activations (R197), they keep what they hold. -/
def execTloads (core : Fin 320) (s : State) : Host.Outcome State Fault Refusal :=
  finish (tiled ++ [.banks]) s <| s.tile core 1 fun s b _ t =>
    let pc := (s.mx core).seq.pc
    let n := tileCycles b pc
    let bad := (nextTmm b pc).bind fun j => s.loadsBad core b (tileInstr b j)
    let x := match nextTmm b pc with
      | some j => (s.before t).setFor b (tileInstr b j) 0 0
      | none => {}
    let s1 := ((((s.noteBad (pgMatrix core) bad).modMx core fun c =>
        { c with shadow := if bad.isNone then x else c.shadow, shadowAt := some (t + n), fillTo := t + n }).wr (pgMatrix core)
      MX_STATUS_SHADOW_FULL 1)).tilePassed core t (some (t + n))
    s1.takeReads core (if t = s.cycles then s1.fillUse core else [])

/-- TSWAP (R88, R172): the active and shadow sets change places. -/
def execTswap (core : Fin 320) (s : State) : Host.Outcome State Fault Refusal :=
  finish tiled s <| s.tile core 2 fun s _ _ t =>
    ((s.swapSets core).modMx core fun c => { c with fillTo := t + 1, arrTo := t + 1 }).tilePassed core t (some (t + 1))

/-- The registers of a TMM at its issue (Table 3-5): the fold fields of one that starts a fold (R111). -/
def State.tmmRegs (s : State) (m w : Nat) (p : Plan) : State :=
  let pg := pgMatrix m
  let s1 := if p.k = 0 then s
    else s.wrs pg [(MX_FOLD_MODE, p.fold.mode), (MX_FOLD_LOG2_T, log2c p.fold.t - 1), (MX_FOLD_LOG2_S, log2c p.fold.s),
      (MX_FOLD_FORCED, if mmFold w < 5 then 1 else 0), (MX_FOLD_RHO2, if p.rho = 2 then 1 else 0)]
  s1.wrs pg [(MX_FOLD_STREAMED, if p.resident then 0 else 1), (MX_LOADS_COUNT, if p.k = 0 then 0 else p.ln * p.blocks * p.lk),
    (MX_CYC_EXP_CYCLES, p.total)]

/-- A TMM of word `w` that issues in cycle `t` as instruction `pc`: a preloaded set takes the place of its first fill (R174). -/
def tmmRun (b : Bytes) (pc w t : Nat) (acts : Bool) (errs : List (Nat × Nat × Nat)) : TRun :=
  { pc := pc, word := w, start := t, acts := acts, fills := if mmPre w then 1 else 0
    lfsr := lfsrLoad (trRow (tileRec b (mmTrec w))), errs := errs }

/-- TMM (R103): it issues, and from then on fills, swaps and streams, each in its cycle, to its end (Machine/MatrixOps.lean,
`settleRun`). `errs` are the parity errors it meets (R115): array, store, and the number of its stationary load, the staging entry
or the buffer sector. -/
def execTmm (core : Fin 320) (errs : List (Nat × Nat × Nat)) (s : State) : Host.Outcome State Fault Refusal :=
  finish (tiled ++ [.banks]) s <| s.tile core 3 fun s b w t =>
    let m := core.val
    let p := planFor b w
    let bad := s.tmmBad m b w
    let acts := s.predHolds m w && bad.isNone
    let e := t + p.total
    let k := s.nextBank m
    let run := tmmRun b (s.mx m).seq.pc w t acts errs
    let s1 := ((s.noteBad (pgMatrix m) bad).mxParity m (none, if mmPre w then some 0 else none) false errs).tmmRegs m w p
    let s2 := if mmTrack w then s1.wr (pgMatrix m) MX_SEQ_STATE_TRK_BANK (1 - k) else s1
    let s3 := (s2.modMx m fun c =>
      { c.unseen with
        run := some run, fillTo := e, arrTo := e
        stageRange := if p.resident && !mmTrack w then tmmRange b w else (0, 0), stageTo := e
        outTo := if p.resident then c.outTo else e
        bank0To := if mmTrack w ∧ k = 0 then e else c.bank0To
        bank1To := if mmTrack w ∧ k = 1 then e else c.bank1To
        trks := if mmTrack w then emptyTrks k (mmN w) (trSmall (tileRec b (mmTrec w))) c.trks else c.trks }).tilePassed m t none
    s3.takeReads m (if t = s.cycles then s3.fillUse m else [])

/-- TOUT (R176 to R180): it issues; its writes come with its last cycle. `errs` are the parity errors it meets: array, store, and the
set (0 the active one, 1 the shadow one), the staging entry or the buffer sector. -/
def execTout (core : Fin 320) (errs : List (Nat × Nat × Nat)) (s : State) : Host.Outcome State Fault Refusal :=
  finish (tiled ++ [.banks]) s <| s.tile core 4 fun s b w t =>
    let m := core.val
    let bad := s.toutBad m b w
    let c := s.mx m
    let e := t + tileCycles b c.seq.pc
    let bank := if toTrkf w then c.filled else none
    let o : TOut :=
      { pc := c.seq.pc, word := w, start := t, fin := e, acts := s.predHolds m w && bad.isNone, after := c.done, bank := bank }
    (((s.noteBad (pgMatrix m) bad).mxParity m (some 0, some 1) true errs).modMx m fun c =>
      { c with
        out := some o, outTo := e
        outRange := if toTrkf w then (0, 0) else outRange b w
        bank0To := if bank = some 0 then e else c.bank0To
        bank1To := if bank = some 1 then e else c.bank1To }).tilePassed m t (some e)

/-- TSYNC (R183, R184): SET and ADD send a token unless the predicate bars it; a WAIT whose condition does not hold
stays pending, with a slip. -/
def execTsync (core : Fin 320) (s : State) : Host.Outcome State Fault Refusal :=
  finish (tiled ++ [.runner, .net]) s <| s.tile core 5 fun s _ w t =>
    let m := core.val
    let hold (s : State) (x : Nat) : State := s.modMx m fun c => { c with seq := { c.seq with syncTo := x } }
    if 2 ≤ tsMode w then
      let s1 := if s.predHolds m w then s.syncSend t (m / 4) (s.mxPart m) (pgMatrix m) w else s
      (hold s1 (t + 1)).tilePassed m t (some (t + 1))
    else if s.waitMet (m / 4) w then (hold s (t + 1)).tilePassed m t (some (t + 1))
    else
      let n := (s.mx m).seq.pc
      let s1 := (s.seqSlip (s.mxUnit m) t 0).bump (pgMatrix m) MX_SEQ_SYNCW_COUNT
      (s1.tilePassed m t none).modMx m fun c => { c with seq := { c.seq with wait := some (n, w) } }

/-- A pending WAIT whose condition is seen in cycle `t` completes in the next. -/
def Seq.met (q : Seq) (n t : Nat) : Seq :=
  { q with
    wait := none, syncTo := t + 2
    loose := if q.pc = n + 1 then false else q.loose
    free := if q.pc = n + 1 then t + 2 else q.free }

/-- TSYNC_WAIT_MET (R184, R163): the pending WAIT's condition holds. -/
def execTsyncWaitMet (core : Fin 320) (s : State) : Host.Outcome State Fault Refusal :=
  finish [.mxs] s <|
    let m := core.val
    match (s.mx m).seq.wait with
    | none => s
    | some (n, w) =>
      if s.playing (s.mxPart m) && decide ((s.mx m).seq.floor ≤ s.cycles) && s.waitMet (m / 4) w then
        s.modMx m fun c => { c with seq := c.seq.met n s.cycles }
      else s

/-- The condition of a TPRED on flag value `v` (Table 5-8). -/
def predCond (w v : Nat) : Bool :=
  match tpCond w with
  | 0 => decide (v = tpValue w)
  | 1 => decide (v ≠ tpValue w)
  | 2 => decide (tpValue w ≤ v)
  | 3 => decide (v < tpValue w)
  | 4 => bit v (tpValue w % 64)
  | _ => !bit v (tpValue w % 64)

/-- TPRED (R185): the flag's condition goes to a predicate register. -/
def execTpred (core : Fin 320) (s : State) : Host.Outcome State Fault Refusal :=
  finish tiled s <| s.tile core 6 fun s _ w t =>
    let m := core.val
    let pg := pgMatrix m
    let v := predCond w (s.flag (m / 4) (tpFlag w % 256))
    ((s.wr pg MX_SEQ_PRED_P (if tpDst w = 0 then s.rd pg MX_SEQ_PRED_P else setBit (s.rd pg MX_SEQ_PRED_P) (tpDst w - 1) v)).modMx m
      fun c => { c with seq := { c.seq with syncTo := t + 1 } }).tilePassed m t (some (t + 1))

/-- TEND (R162): the period's program ends and the sequencer idles. -/
def execTend (core : Fin 320) (s : State) : Host.Outcome State Fault Refusal :=
  finish tiled s <| s.tile core 7 fun s _ _ t =>
    (s.tilePassed core t (some (t + 1))).modMx core fun c => { c with seq := { c.seq with ended := true } }

/-- The cycle in which period `j + 1` begins (R162). -/
def State.restartAt (s : State) (p j : Nat) : Nat :=
  s.epochCycle ((s.part p).base + (((j + 1) * max 1 (s.pattern p).period : Nat) : Int)).toNat

/-- The sequencer at instruction 0 of the next period, which begins in cycle `t`. -/
def Seq.again (q : Seq) (t : Nat) : Seq :=
  { q with pc := 0, period := q.period + 1, ended := false, floor := t, free := t, loose := false, noted := false, counted := false, hazard := none }

/-- PERIOD_RESTART (R162): at relative epoch (j + 1) × PERIOD the sequencer goes on at instruction 0; predicates
and tracker banks are kept. -/
def execPeriodRestart (core : Fin 320) (s : State) : Host.Outcome State Fault Refusal :=
  finish tiled s <|
    let m := core.val
    let s0 := s.settleMx m (s.cycles - 1)
    let q := (s0.mx m).seq
    let t := s0.restartAt (s0.mxPart m) q.period
    if q.ended && s0.playing (s0.mxPart m) && decide (t ≤ s0.cycles) then
      (s0.wr (pgMatrix m) MX_SEQ_STATE_PERIOD_PAR (q.period + 1)).putTile m (q.again t)
    else s0

end Sys2Proof.Machine
end

