-- ==== Sys2Proof/Machine/Movers.lean ====
section
/-!
DEFINITION. Machine/Movers.lean: the mover instructions (07_networks.md, R255 to R269), issued as tile instructions
are, and the completion of transfers.
-/

namespace Sys2Proof.Machine

open Sys2Proof

/-! ### Writes at a LOCAL destination -/

/-- One sector's elements added in a reduction part: the bytes between the first and the last of them (R343). -/
def State.addSector (s : State) (n : Nat) (l : List EWrite) (x : Nat) : State :=
  let es := l.filter fun e => decide (8 * x < e.at_ + e.w ∧ e.at_ < 8 * x + 512)
  let ps := es.map fun e => e.part x
  let lo := (ps.map fun p => p.1).foldl min 511 / 8
  let hi := ((ps.map fun p => p.1 + p.2.1).foldl max 0 + 7) / 8
  let d := ps.foldl (fun d p => putBits d p.1 p.2.1 p.2.2) (List.replicate 64 0)
  s.addMem n (x + lo) (slice d lo (hi - lo)) (if es.any EWrite.bad then 1 else 0)

/-- The elements of a transfer written at its LOCAL destination: in a reduction part they add, and the words added
are counted (R343). -/
def State.storeElems (s : State) (m : Nat) (l : List EWrite) : State :=
  let n := (m - 80) / 4
  let red (x : Nat) : Bool := decide (80 ≤ m) && s.inRed n (x - sliceBase n)
  let xs := touched l
  let s1 := xs.foldl (fun s x => if red x then s.addSector n l x else s.writeSector64 l x) s
  if xs.any red then (s.recount s1 (pgSlice n) SB_REDWORDS_COUNT).bump (pgSlice n) SB_REDWORDS_COUNT (((xs.filter red).length + 7) / 8)
  else s1

/-- The check entries of a LOCAL destination's whole blocks (R266). -/
def State.writeEntries (s : State) (t : Tensor) : State :=
  (List.range t.whole).foldl (fun s j =>
    s.writeMem (localOf t.table + 0x40 + 4 * j) (le 4 (crc32c (s.getBs (localOf t.addr + 2048 * j) 2048))) 0) s

/-! ### Transfers with LOCAL, BULK and WRING ends -/

/-- A read of a reduction part that clears what it reads (R345). -/
def State.clearRead (s : State) (m : Nat) (l : List Nat) : State :=
  let n := (m - 80) / 4
  if m < 80 ∨ s.clearOnRead n = false then s
  else l.foldl (fun s x => if s.inRed n (x - sliceBase n) then (s.setBs x (List.replicate 64 0)).mark x false else s) s

/-- The element at a bit of memory, with its poison. -/
def State.memBits (s : State) (t : Tensor) (a : Nat) : Option (Nat × Bool) := some (s.getBits a t.bits, s.bitsBad a t.bits)

/-- An element of a failing source block is poisoned. -/
def inBlocks (t : Tensor) (bad : List Nat) (a : Nat) : Bool := bad.contains ((a / 8 - localOf t.addr) / 2048)

/-- A LOCAL source is read as the transfer issues (log entry 43): its words leave, or its elements are kept for the
end. -/
def State.readLocal (s : State) (m : Nat) (b : Bytes) (x : Xfer) : State :=
  let w := x.word
  let sd := srcTensor b w
  let l := sd.touches
  let o := s.before x.issue
  let ws := o.wordsOf l
  let part := srcPart b w
  let ck : List BWord × State := if mvCheck w then s.checkAll m sd part ws (o.localEntry sd) else (ws, s)
  let s1 := ck.2.clearRead m part.touches
  if mvDst w = 0 then
    let bad := if mvCheck w then (sd.carried part).filter fun j => decide (crc32c (blockBytes ws j) ≠ o.localEntry sd j) else []
    let es := moveElems sd (dstTensor b w) (mvTransp b w) fun a => (o.memBits sd a).map fun v => (v.1, v.2 || inBlocks sd bad a)
    s1.modMover m fun u => { u with xfer := some { x with puts := es.map fun e => (e.at_, e.w, e.v, e.bad) } }
  else
    let ents := if mvCrcW w then (List.range sd.whole).map fun j => crc32c (blockBytes ws j)
      else if mvCheck w then (List.range sd.whole).map (o.localEntry sd) else []
    let out := layWords ck.1 sd.whole (mvParW w) (entryWords ents)
    let fill : List BWord := (List.range (mvWords w - out.length)).map fun i =>
      { data := (List.range 512).map fun j => Config.freeByte s.free (512 * (i + 1) + j) }
    let s2 := s1.putWords m b x ((out ++ if mvDst w = 2 then fill else []).take (mvWords w))
    { s2 with free := s2.free + 1 }

/-- The sectors of the first words of a stream laid on a tensor's sectors. -/
def layOn (t : Tensor) (ws : List BWord) : List (Nat × Bytes × Bool) := t.touches.zip (ws.flatMap BWord.parts)

/-- The end of a transfer whose words came over BULK into LOCAL: its check words, then its writes (R265). -/
def State.landBulk (s : State) (m : Nat) (b : Bytes) (x : Xfer) : State :=
  let w := x.word
  let dd := dstTensor b w
  let all := x.got.reverse
  let n := all.length - checkWords b w
  let ents := (all.drop n).flatMap BWord.data
  let ck : List BWord × State :=
    if mvCheck w then s.checkAll m dd dd (all.take n) (fun j => fieldAt ents (4 * j) 4) else (all.take n, s)
  ck.2.storeElems m (dd.fromStream (layOn dd ck.1))

/-- ADD to DONE_FLAG in cycle `t`: 1, or 2³² + 1 where a status other than OK came (R268, R269). -/
def State.doneFlag (s : State) (t m w status : Nat) : State :=
  if mvFlag w = 0xFFFF then s
  else s.sendToken t (mvRouter m) (s.mvPart m) (pgMover m) (mvFlag w) 1 (if status = 0 then 1 else 2 ^ 32 + 1)

/-- The requests that cover a list of elements at hall address base `hi`: bytes in order, one request for up to 256
bytes of a run within a 256-byte range (R268). -/
def runsOf (l : List (Nat × Nat)) : List (Nat × Nat) :=
  (l.foldl (fun (acc : List (Nat × Nat)) e =>
    let lo := e.1 / 8
    let hi := (e.1 + e.2 + 7) / 8
    match acc with
    | r :: rs => if r.1 ≤ lo ∧ lo ≤ r.1 + r.2 then (r.1, max r.2 (hi - r.1)) :: rs else (lo, hi - lo) :: acc
    | [] => [(lo, hi - lo)]) []).reverse

def split256 (r : Nat × Nat) : List (Nat × Nat) :=
  (List.range ((r.1 + r.2 + 255) / 256 - r.1 / 256)).map fun i =>
    let lo := max r.1 ((r.1 / 256 + i) * 256)
    let hi := min (r.1 + r.2) ((r.1 / 256 + i + 1) * 256)
    (lo, hi - lo)

def chunksOf (l : List (Nat × Nat)) : List (Nat × Nat) := (runsOf l).flatMap split256

/-- Reads of a far source, and writes of elements at a far destination; bits that no element covers are free. -/
def readChunks (t : Tensor) : List Chunk :=
  (chunksOf (t.indexes.map fun i => (t.bitAt i, t.bits))).map fun r => { write := false, addr := t.addr / 2 ^ 48 * 2 ^ 48 + r.1, len := r.2 }
def writeChunks (t : Tensor) (l : List EWrite) (free : Nat) : List Chunk :=
  (chunksOf (l.map fun e => (e.at_, e.w))).map fun r =>
    let es := l.filter fun e => decide (8 * r.1 < e.at_ + e.w ∧ e.at_ < 8 * (r.1 + r.2))
    let cut (e : EWrite) : Nat × Nat × Nat :=
      let lo := max e.at_ (8 * r.1)
      (lo - 8 * r.1, min (e.at_ + e.w) (8 * (r.1 + r.2)) - lo, e.v / 2 ^ (lo - e.at_))
    { write := true, addr := t.addr / 2 ^ 48 * 2 ^ 48 + r.1, len := r.2
      data := es.foldl (fun d e => let c := cut e; putBits d c.1 c.2.1 c.2.2) ((List.range r.2).map fun i => Config.freeByte free (r.1 + i))
      poison := maskOf ((r.2 + 63) / 64) fun i => es.any fun e => e.bad &&
        decide (8 * (r.1 + 64 * i) < e.at_ + e.w ∧ e.at_ < 8 * (r.1 + min (64 * i + 64) r.2)) }

/-- Reads of a far source's check entries (R265). -/
def tableChunks (t : Tensor) : List Chunk :=
  if t.whole = 0 then [] else (split256 (t.table + 0x40, 4 * t.whole)).map fun r => { write := false, addr := r.1, len := r.2 }

/-- Writes of the check entries of a far destination, over the data that the writes `l` bring to its blocks (R266). -/
def entryChunks (t : Tensor) (l : List Chunk) : List Chunk :=
  let byte (a : Nat) : Byte :=
    ((l.find? fun c => decide (localOf c.addr ≤ a ∧ a < localOf c.addr + c.len)).map fun c => c.data.getD (a - localOf c.addr) 0).getD 0
  let d := (List.range t.whole).flatMap fun j => le 4 (crc32c ((List.range 2048).map fun i => byte (localOf t.addr + 2048 * j + i)))
  if t.whole = 0 then []
  else (split256 (t.table + 0x40, d.length)).map fun r =>
    { write := true, addr := r.1, len := r.2, data := slice d (r.1 - (t.table + 0x40)) r.2 }

/-- All that a far destination is sent: its elements, and with CRC_WRITE its check entries. -/
def farWrites (w : Nat) (t : Tensor) (l : List EWrite) (free : Nat) : List Chunk :=
  let cs := writeChunks t l free
  cs ++ if mvCrcW w then entryChunks t cs else []

/-! ### REMOTE and CXL ends (R268) -/

/-- Requests of a mover that are outstanding. -/
def State.mvOut (s : State) (m : Nat) : Nat :=
  (s.hall.reqs.filter fun e => decide (e.2.src = pgMover m ∧ e.2.xfer ≠ 0)).length

/-- Requests that it has still to issue. -/
def State.mvTodo (s : State) (m : Nat) : Nat := ((s.mover m).remote.map fun e => e.2.todo.length).sum

/-- One request of transfer `n`. -/
def State.issueChunk (s : State) (m n : Nat) (c : Chunk) : State :=
  (s.issueReq { src := pgMover m, cls := classOf (pgMover m), op := if c.write then 0x02 else 0x01, addr := c.addr, len := c.len,
                data := c.data, poison := c.poison, part := some (s.mvPart m), xfer := n + 1 }).2

/-- A mover's next request issues, one in a cycle, while fewer than 256 are outstanding (R268). -/
def State.pump (s : State) (m : Nat) : State :=
  match (s.mover m).remote.find? fun e => !e.2.todo.isEmpty with
  | none => s
  | some e =>
    match e.2.todo with
    | [] => s
    | c :: cs =>
      if 256 ≤ s.mvOut m ∨ s.cycles < (s.mover m).askAt then s
      else (s.modMover m fun u => { u with remote := ains e.1 { e.2 with todo := cs } u.remote, askAt := s.cycles + 1 }).issueChunk m e.1 c

/-- A far transfer begins with these requests. -/
def State.startRemote (s : State) (m w : Nat) (sd dd : Bytes) (l : List Chunk) (writing : Bool) : State :=
  let n := (s.mover m).nextXfer
  (s.modMover m fun u =>
    { u with
      nextXfer := n + 1
      remote := ains n { left := l.length, word := w, sdesc := sd, ddesc := dd, todo := l, writing := writing } u.remote }).pump m

/-- What a far transfer has read: the byte at a local address, and whether it came. -/
def Remote.byte (x : Remote) (a : Nat) : Option Byte :=
  (x.got.find? fun e => decide (localOf e.1 ≤ a ∧ a < localOf e.1 + e.2.1.length)).map fun e => e.2.1.getD (a - localOf e.1) 0

def Remote.bytes (x : Remote) (a n : Nat) : Option Bytes :=
  let l := (List.range n).map fun i => x.byte (a + i)
  if l.all Option.isSome then some (l.map fun b => b.getD 0) else none

/-- The whole check blocks of a far source of which data and entry came, and those of them that fail (R265). -/
def Remote.checkedBlocks (x : Remote) (t : Tensor) : List Nat × List Nat :=
  let l := (List.range t.whole).filterMap fun j =>
    match x.bytes (localOf t.addr + 2048 * j) 2048, x.bytes (localOf t.table + 0x40 + 4 * j) 4 with
    | some d, some e => some (j, decide (crc32c d ≠ unle e))
    | _, _ => none
  (l.map fun e => e.1, (l.filter fun e => e.2).map fun e => e.1)

/-- A far transfer all of whose responses are back ends: what it read is checked (R265), written at its destination with its check entries
(R266), or sent on; DONE_FLAG and MV_XERR (R268). -/
def State.endRemote (s0 : State) (m n : Nat) (x : Remote) : State :=
  let sd := Tensor.of x.sdesc
  let dd := Tensor.of x.ddesc
  let w := x.word
  let tr := (decide (mvDst w = 0) || dstFar w) && dd.transp
  let store := x.got.flatMap fun e => (sectors (localOf e.1) e.2.1.length).map fun a =>
    (a, (List.range 64).map (fun i => if localOf e.1 ≤ a + i then e.2.1.getD (a + i - localOf e.1) 0 else 0),
      (List.range 8).any fun k => bit e.2.2 k && decide (localOf e.1 + 64 * k < a + 64 ∧ a < localOf e.1 + min (64 * k + 64) e.2.1.length))
  let held (a : Nat) : Bool := (x.byte a).isSome
  let ck : List Nat × List Nat := if mvCheck w && srcFar w && !x.writing then x.checkedBlocks sd else ([], [])
  let s := if mvCheck w && srcFar w && !x.writing then
      (ck.2.foldl (fun s j => s.crcFail m sd j) s0).bump (pgMover m) MV_UNVERIFIED_COUNT (sd.blocksIn (partOf w sd dd tr) - ck.1.length)
    else s0
  let get (a : Nat) : Option (Nat × Bool) :=
    if (List.range ((a % 8 + sd.bits + 7) / 8)).all fun i => held (a / 8 + i) then
      (bitsOf (store.filter fun e => (List.range 64).any fun i => held (e.1 + i)) a sd.bits).map fun v => (v.1, v.2 || inBlocks sd ck.2 a)
    else none
  let stop (s : State) : State :=
    ((s.modMover m fun u => { u with remote := adel n u.remote }).wr (pgMover m) MV_XERR_STATUS x.status).doneFlag s.cycles m w x.status
  if srcFar w ∧ ¬x.writing then
    if mvDst w = 0 then
      let y := s.storeElems m (moveElems sd dd tr get)
      stop (if mvCrcW w then y.writeEntries dd else y)
    else if dstFar w then
      let l := farWrites w dd (moveElems sd dd tr get) s.free
      let s1 := { s with free := s.free + 1 }
      if l.isEmpty then stop s1
      else (s1.modMover m fun u =>
        { u with remote := ains n { x with left := l.length, got := [], todo := l, writing := true } u.remote }).pump m
    else stop s
  else stop s

/-! ### Completion -/

/-- The transfer under way ends (R261, R265, R266, R269). -/
def State.endXfer (s : State) (m : Nat) (b : Bytes) (x : Xfer) : State :=
  let w := x.word
  let dd := dstTensor b w
  let s0 := s.modMover m fun u => { u with xfer := none }
  let s1 := s0.wr (pgMover m) MV_CYC_ACT_CYCLES x.count
  if x.status ≠ 0 then s1.doneFlag x.done m w x.status
  else if isFar w then
    if mvSrc w = 1 then
      let all := x.got.reverse
      let n := all.length - checkWords b w
      let ents := (all.drop n).flatMap BWord.data
      let ck : List BWord × State := if mvCheck w then s1.checkAll m dd dd (all.take n) (fun j => fieldAt ents (4 * j) 4) else (all.take n, s1)
      let s1 := ck.2
      let l := farWrites w dd (dd.fromStream (layOn dd ck.1)) s.free
      { (s1.startRemote m w [] (moverDesc b (mvDdesc w)) l true) with free := s1.free + 1 }
    else s1
  else
    let s2 :=
      if mvDst w ≠ 0 then s1
      else
        let y := if mvSrc w = 0 then s1.storeElems m (x.puts.map fun e => { at_ := e.1, w := e.2.1, v := e.2.2.1, bad := e.2.2.2 })
          else s1.landBulk m b x
        if mvCrcW w then y.writeEntries dd else y
    s2.doneFlag x.done m w 0

/-- Everything mover `m` has done by the end of cycle `h`: words due by then, requests that waited for room. -/
def State.settleMover (s : State) (m h : Nat) : State :=
  (State.serveWords m (s.mvProg m) h (mvWords (((s.mover m).xfer.map fun x => x.word).getD 0)) s).pump m

/-- The transfers that are due end: the one under way, and the far ones whose responses are back. -/
def State.completeMover (s : State) (m : Nat) : State :=
  let s1 := match (s.mover m).xfer with
    | some x => if x.done ≤ s.cycles then s.endXfer m (s.mvProg m) x else s
    | none => s
  ((s1.mover m).remote.filter fun e => decide (e.2.left = 0 ∧ e.2.todo = [])).foldl (fun s e => s.endRemote m e.1 e.2) s1

/-! ### Issue -/

def State.putMover (s : State) (m : Nat) (q : Seq) : State := s.modMover m fun u => { u with seq := q }
def State.mvPassed (s : State) (m t : Nat) (e : Option Nat) : State := s.modMover m fun u => { u with seq := u.seq.passed t e }

/-- The sequencer of a mover goes on at instruction 0 of the next period (R162, R255). -/
def State.restartMover (s : State) (m : Nat) : State :=
  let q := (s.mover m).seq
  let t := s.restartAt (s.mvPart m) q.period
  if q.ended && s.playing (s.mvPart m) && decide (t ≤ s.cycles) then s.putMover m (q.again t) else s

/-- A mover command of class `cls`: its next instruction, where it is of that class, issues if its cycle has come. -/
def State.moverCmd (s : State) (m cls : Nat) (go : State → Bytes → Nat → Nat → State) : State :=
  let s0 := (s.settleMover m (s.cycles - 1)).restartMover m
  let b := s0.mvProg m
  let u := s0.mover m
  let q := u.seq
  let w := moverInstr b q.pc
  let wait := decide (cls = 5) && decide (tsMode w ≤ 1)
  let fin (t : Nat) : Nat := match wClass w with
    | 0 => t + nopCount w
    | 1 => s0.mxferEnd s0.cps m b w t
    | _ => t + 1
  let n := (farBytes b w + 255) / 256
  let known := match wClass w with
    | 1 => !(isFar w && decide (256 < s0.mvOut m + s0.mvTodo m + min n 256))
    | 5 => q.wait.isNone
    | _ => true
  let res := match wClass w with
    | 1 => match u.xfer with | some x => x.done | none => 0
    | 5 => q.syncTo
    | _ => 0
  if !s0.playing (s0.mvPart m) ∨ q.ended ∨ msInstrs b ≤ q.pc ∨ wClass w ≠ cls then s0
  else if s0.out (pgMover m) then
    s0.seqAbsorb (s0.mvUnit m) q w fin (fun s q => s.putMover m { q with ended := decide (cls = 7) })
  else
    (s0.seqTry (s0.mvUnit m) q w res known wait fin (fun s q => s.putMover m q) (fun s t => go s b w t)).settleMover m (s.cycles - 1)

/-! ### The instructions -/

/-- MNOP (R257): nothing, for its count. -/
def execMnop (mv : Fin 112) (s : State) : Host.Outcome State Fault Refusal :=
  finish asked s <| s.moverCmd mv 0 fun s _ w t => s.mvPassed mv t (some (t + nopCount w))

/-- MSYNC (R257): as TSYNC. -/
def execMsync (mv : Fin 112) (s : State) : Host.Outcome State Fault Refusal :=
  finish asked s <| s.moverCmd mv 5 fun s _ w t =>
    let m := mv.val
    let hold (s : State) (x : Nat) : State := s.modMover m fun u => { u with seq := { u.seq with syncTo := x } }
    if 2 ≤ tsMode w then (hold (s.syncSend t (mvRouter m) (s.mvPart m) (pgMover m) w) (t + 1)).mvPassed m t (some (t + 1))
    else if s.waitMet (mvRouter m) w then (hold s (t + 1)).mvPassed m t (some (t + 1))
    else
      let n := (s.mover m).seq.pc
      ((s.seqSlip (s.mvUnit m) t 0).mvPassed m t none).modMover m fun u => { u with seq := { u.seq with wait := some (n, w) } }

/-- MSYNC_WAIT_MET (R184, R255): a pending MSYNC WAIT's condition holds. -/
def execMsyncWaitMet (mv : Fin 112) (s : State) : Host.Outcome State Fault Refusal :=
  finish [.movers] s <|
    let m := mv.val
    match (s.mover m).seq.wait with
    | none => s
    | some (n, w) =>
      if s.playing (s.mvPart m) && decide ((s.mover m).seq.floor ≤ s.cycles) && s.waitMet (mvRouter m) w then
        s.modMover m fun u => { u with seq := u.seq.met n s.cycles }
      else s

/-- MEND (R257): the period's program ends. -/
def execMend (mv : Fin 112) (s : State) : Host.Outcome State Fault Refusal :=
  finish asked s <| s.moverCmd mv 7 fun s _ _ t =>
    (s.mvPassed mv t (some (t + 1))).modMover mv fun u => { u with seq := { u.seq with ended := true } }

/-- Words of a far source for a BULK destination are never there in their cycles: poisoned words leave, each with
its count and slip (R263; log entry 43). -/
def State.farToBulk (s : State) (m : Nat) (b : Bytes) (x : Xfer) : State :=
  (List.range (mvWords x.word)).foldl (fun s i =>
    ((s.bump (pgMover m) MV_POISON_COUNT).seqSlip (s.mvUnit m) (s.wordCycle x.word x.issue 2 (s.mvRate m b x.word) i) 0).putWord
      m b x i missWord) s

/-- What a transfer moves at its LOCAL ends is booked at the banks: word `i` is read in the cycle of its place in the transfer and written
four cycles later (R262; log entry 126). A reduction part is read and written for every word, and so is one that a read clears (R324). -/
def State.bookings (s : State) (m : Nat) (b : Bytes) (x : Xfer) : List BankBook :=
  let w := x.word
  let n := (m - 80) / 4
  let red (t : Tensor) : Bool := s.redDest m t
  let one (t : Tensor) (lag how : Nat) : BankBook :=
    { mover := m, start := s.wordCycle w x.issue lag 1 0, sched := hasBulk w, rate := s.mvRate m b w, how := how, sectors := t.touches }
  (if mvSrc w = 0 then [one (srcPart b w) 0 (if red (srcTensor b w) && s.clearOnRead n then 2 else 0)] else []) ++
    (if mvDst w = 0 then [one (dstTensor b w) 4 (if red (dstTensor b w) then 2 else 1)] else [])

/-- What the movers' transfers under way and the matrix cores move in the current cycle, taken at the banks in the order of R200: each
core's broadcast and side lane, the movers, the cores' outputs. -/
def State.bookNow (s : State) (k : BankBook) : State :=
  let xs := k.at_ s.cps s.cycles
  if xs.isEmpty ∨ (s.mover k.mover).xfer.isNone then s
  else s.schedTake (pgMover k.mover) (if k.how = 1 then [] else xs) (if k.how = 0 then [] else xs)
def State.schedBanks (s : State) : State :=
  let ms := s.mxs.map fun e => e.1
  let s1 := ms.foldl (fun s m => (s.takeReads m (s.fillUse m)).takeReads m (s.rowUse m)) s
  let s2 := s1.banks.books.foldl State.bookNow s1
  ms.foldl (fun s m =>
    let l := s.outUse m
    if l.isEmpty then s else s.schedTake (pgMatrix m) [] l) s2

/-- The transfer's bookings take the place of the mover's last, from the current cycle on; where those of its slice exceed what it moves
in a cycle, a schedule slip (R202, R324). -/
def State.book (s : State) (m : Nat) (b : Bytes) (x : Xfer) : State :=
  let l := s.bookings m b x
  let s0 := s.modBanks fun u => { u with books := u.books.filter fun k => decide (k.mover ≠ m) }
  let s1 := l.foldl (fun s k => if s.bookClash k then s.seqSlip (s.mvUnit m) x.issue 0 else s) s0
  l.foldl State.bookNow (s1.modBanks fun u => { u with books := u.books ++ l })

/-- MXFER (R261 to R268): a transfer begins. `errs`: the sectors of its LOCAL source in which a word fails parity, counted in the order
it reads them (R207, R326). -/
def execMxfer (turn : MoverTurn) (s : State) : Host.Outcome State Fault Refusal :=
  finishD (asked ++ [.mem, .poison, .descs, .banks]) s <| s.moverCmd turn.mv 1 fun s b w t =>
    let m := turn.mv.val
    let src := srcPart b w
    let s0 := (s.completeMover m).parityAt false (if mvSrc w = 0 ∧ ¬turn.errs.isEmpty then src.touches.zipIdx.filterMap fun e => if turn.errs.contains e.2 then some e.1 else none else [])
    let bad := s0.mxferBad m b w
    let n := s0.mxferCount m b w
    let e := s0.mxferEnd s0.cps m b w t
    let x : Xfer := { word := w, issue := t, count := n, done := e, status := (bad.map fun y => y.2).getD 0 }
    let s1 := ((s0.modMover m fun u => { u with xfer := some x }).wr (pgMover m) MV_CYC_EXP_CYCLES n).mvPassed m t (some e)
    match bad with
    | some y => s1.mxferNote m b w y
    | none =>
      let s1 := s1.book m b x
      if srcFar w then
        let s2 := s1.startRemote m w (moverDesc b (mvSdesc w)) (moverDesc b (mvDdesc w))
          (readChunks (srcPart b w) ++ if mvCheck w then tableChunks (srcTensor b w) else []) false
        if mvDst w = 1 then s2.farToBulk m b x else s2
      else if mvSrc w = 1 then s1
      else if dstFar w then
        let sd := srcTensor b w
        let dd := dstTensor b w
        let o := s1.before t
        let ws := o.wordsOf sd.touches
        let part := srcPart b w
        let bad := if mvCheck w then (sd.carried part).filter fun j => decide (crc32c (blockBytes ws j) ≠ o.localEntry sd j) else []
        let s1 := if mvCheck w then (s1.checkAll m sd part ws (o.localEntry sd)).2 else s1
        let l := farWrites w dd (moveElems sd dd (mvTransp b w) fun a => (o.memBits sd a).map fun v => (v.1, v.2 || inBlocks sd bad a)) s1.free
        ({ s1 with free := s1.free + 1 }.clearRead m part.touches).startRemote m w [] (moverDesc b (mvDdesc w)) l true
      else s1.readLocal m b x

/-- MXFER_COMPLETE (R268, R269): the transfer's last write is visible, or its last response is back, and DONE_FLAG
receives its ADD. -/
def execMxferComplete (mv : Fin 112) (s : State) : Host.Outcome State Fault Refusal :=
  finishD (asked ++ [.mem, .poison, .descs]) s <| (s.settleMover mv (s.cycles - 1)).completeMover mv

end Sys2Proof.Machine
end

