-- ==== Sys2Proof/Machine/RvInt.lean ====
section
/-!
DEFINITION. Machine/RvInt.lean: a general core's registers, control and status registers, and its integer instructions (R209: RV64I with M, C,
Zicsr and FENCE): their fields, the 16-bit forms as 32-bit ones, and what each does. R209 takes their meaning from the RISC-V
specifications; the choices left there are log entry 135.
-/

namespace Sys2Proof.Machine

open Sys2Proof

/-! ### Registers -/

/-- A value of 32 bits as a 64-bit register takes it, and a doubleword. -/
def sext (wide : Bool) (v : Nat) : Nat := if wide then v % 2 ^ 64 else ofInt 64 (toInt 32 v)

/-- Register `x n`: x0 reads zero and discards what is written. -/
def Gcore.getX (u : Gcore) (n : Nat) : Nat := if n = 0 then 0 else aget 0 u.x n
def Gcore.setX (u : Gcore) (n v : Nat) : Gcore := if n = 0 then u else { u with x := aset 0 u.x n (v % 2 ^ 64) }

/-- Register `f n`. -/
def Gcore.getF (u : Gcore) (n : Nat) : Nat := aget 0 u.f n
def Gcore.setF (u : Gcore) (n v : Nat) : Gcore := { u with f := aset 0 u.f n (v % 2 ^ 64) }

/-- Register `v n`, 64 bytes. -/
def zeroV : Bytes := List.replicate 64 0
def Gcore.getV (u : Gcore) (n : Nat) : Bytes := aget zeroV u.v n
def Gcore.setV (u : Gcore) (n : Nat) (d : Bytes) : Gcore := { u with v := aset zeroV u.v n (slice d 0 64) }

/-- mstatus, fcsr, vstart, vcsr, vl, vtype. The firmware runs programs with the FP and vector units on (log entry 44). -/
def csrMstatus : Nat := 0x300
def csrFcsr : Nat := 0x003
def csrVstart : Nat := 0x008
def csrVcsr : Nat := 0x00F
def csrVl : Nat := 0xC20
def csrVtype : Nat := 0xC21
def csrReset (n : Nat) : Nat := if n = csrMstatus then 0x6600 else 0
def Gcore.csrGet (u : Gcore) (n : Nat) : Nat := aget (csrReset n) u.csr n
def Gcore.csrSet (u : Gcore) (n v : Nat) : Gcore := { u with csr := aset (csrReset n) u.csr n v }

/-- Exception flags raised (RISC-V fflags): NX 1, UF 2, OF 4, DZ 8, NV 16. -/
def Gcore.flag (u : Gcore) (f : Nat) : Gcore := u.csrSet csrFcsr (u.csrGet csrFcsr ||| f)

/-- ngvstat.STATUS. -/
def Gcore.status (u : Gcore) : Nat := u.csrGet csrNgvstat % 256
def Gcore.setStatus (u : Gcore) (v : Nat) : Gcore := u.csrSet csrNgvstat (u.csrGet csrNgvstat / 256 * 256 + v % 256)

/-- The FP unit and the vector unit are on. -/
def Gcore.fpOn (u : Gcore) : Bool := decide (u.csrGet csrMstatus / 2 ^ 13 % 4 ≠ 0)
def Gcore.vecOn (u : Gcore) : Bool := decide (u.csrGet csrMstatus / 2 ^ 9 % 4 ≠ 0)

/-- An instruction of the program retires: the program goes on behind it, unless a window with RESTART has begun since it issued its
access (R221). -/
def Gcore.retire (u : Gcore) : Gcore :=
  { u with pc := if u.awaits.any Await.moved then u.pc else u.pc + 4, retired := u.retired + 1, awaits := none }

/-! ### Fields of a 32-bit instruction -/

def opc (w : Nat) : Nat := w % 128
def rd_ (w : Nat) : Nat := wf w 11 7
def fn3 (w : Nat) : Nat := wf w 14 12
def rs1_ (w : Nat) : Nat := wf w 19 15
def rs2_ (w : Nat) : Nat := wf w 24 20
def fn7 (w : Nat) : Nat := wf w 31 25

/-- Immediates of the I, S, B, U and J formats. -/
def immI (w : Nat) : Int := toInt 12 (wf w 31 20)
def immS (w : Nat) : Int := toInt 12 (fn7 w * 32 + rd_ w)
def immB (w : Nat) : Int := toInt 13 (wf w 31 31 * 4096 + wf w 7 7 * 2048 + wf w 30 25 * 32 + wf w 11 8 * 2)
def immU (w : Nat) : Int := toInt 32 (wf w 31 12 * 4096)
def immJ (w : Nat) : Int := toInt 21 (wf w 31 31 * 2 ^ 20 + wf w 19 12 * 4096 + wf w 20 20 * 2048 + wf w 30 21 * 2)

/-- A 64-bit sum with a signed number. -/
def plus (a : Nat) (d : Int) : Nat := ofInt 64 (a + d)

/-! ### 16-bit forms (the C extension) -/

def encR (f7 s2 s1 f3 d op : Nat) : Nat := f7 * 2 ^ 25 + s2 * 2 ^ 20 + s1 * 2 ^ 15 + f3 * 2 ^ 12 + d * 128 + op
def encI (imm : Int) (s1 f3 d op : Nat) : Nat := ofInt 12 imm * 2 ^ 20 + s1 * 2 ^ 15 + f3 * 2 ^ 12 + d * 128 + op
def encS (imm s2 s1 f3 op : Nat) : Nat := encR (imm / 32) s2 s1 f3 (imm % 32) op
def encB (imm : Int) (s2 s1 f3 : Nat) : Nat :=
  let v := ofInt 13 imm
  wf v 12 12 * 2 ^ 31 + wf v 10 5 * 2 ^ 25 + s2 * 2 ^ 20 + s1 * 2 ^ 15 + f3 * 2 ^ 12 + wf v 4 1 * 256 + wf v 11 11 * 128 + 0x63
def encJ (imm : Int) (d : Nat) : Nat :=
  let v := ofInt 21 imm
  wf v 20 20 * 2 ^ 31 + wf v 10 1 * 2 ^ 21 + wf v 11 11 * 2 ^ 20 + wf v 19 12 * 2 ^ 12 + d * 128 + 0x6F

/-- Quadrant 0: stack addresses, loads and stores of the registers 8 to 15. -/
def expand0 (h : Nat) : Option Nat :=
  let d := wf h 4 2 + 8
  let b := wf h 9 7 + 8
  let uw := wf h 12 10 * 8 + wf h 6 6 * 4 + wf h 5 5 * 64
  let ud := wf h 12 10 * 8 + wf h 6 5 * 64
  match wf h 15 13 with
  | 0 =>
    let u := wf h 12 11 * 16 + wf h 10 7 * 64 + wf h 6 6 * 4 + wf h 5 5 * 8
    if u = 0 then none else some (encI u 2 0 d 0x13)
  | 1 => some (encI ud b 3 d 0x07)
  | 2 => some (encI uw b 2 d 0x03)
  | 3 => some (encI ud b 3 d 0x03)
  | 5 => some (encS ud d b 3 0x27)
  | 6 => some (encS uw d b 2 0x23)
  | 7 => some (encS ud d b 3 0x23)
  | _ => none

/-- Quadrant 1: immediates, arithmetic on the registers 8 to 15, jumps and branches. -/
def expand1 (h : Nat) : Option Nat :=
  let r := wf h 11 7
  let d := wf h 9 7 + 8
  let i6 : Nat := wf h 12 12 * 32 + wf h 6 2
  let imm := toInt 6 i6
  let bo := toInt 9 (wf h 12 12 * 256 + wf h 11 10 * 8 + wf h 6 5 * 64 + wf h 4 3 * 2 + wf h 2 2 * 32)
  match wf h 15 13 with
  | 0 => some (encI imm r 0 r 0x13)
  | 1 => if r = 0 then none else some (encI imm r 0 r 0x1B)
  | 2 => some (encI imm 0 0 r 0x13)
  | 3 =>
    if r = 2 then
      let v := toInt 10 (wf h 12 12 * 512 + wf h 6 6 * 16 + wf h 5 5 * 64 + wf h 4 3 * 128 + wf h 2 2 * 32)
      if v = 0 then none else some (encI v 2 0 2 0x13)
    else if i6 = 0 then none
    else some (ofInt 20 imm * 4096 + r * 128 + 0x37)
  | 4 =>
    match wf h 11 10 with
    | 0 => some (encI i6 d 5 d 0x13)
    | 1 => some (encI (i6 + 1024 : Nat) d 5 d 0x13)
    | 2 => some (encI imm d 7 d 0x13)
    | _ =>
      let s := wf h 4 2 + 8
      match wf h 12 12 * 4 + wf h 6 5 with
      | 0 => some (encR 32 s d 0 d 0x33)
      | 1 => some (encR 0 s d 4 d 0x33)
      | 2 => some (encR 0 s d 6 d 0x33)
      | 3 => some (encR 0 s d 7 d 0x33)
      | 4 => some (encR 32 s d 0 d 0x3B)
      | 5 => some (encR 0 s d 0 d 0x3B)
      | _ => none
  | 5 =>
    some (encJ (toInt 12 (wf h 12 12 * 2048 + wf h 11 11 * 16 + wf h 10 9 * 256 + wf h 8 8 * 1024 + wf h 7 7 * 64 + wf h 6 6 * 128 +
      wf h 5 3 * 2 + wf h 2 2 * 32)) 0)
  | 6 => some (encB bo 0 d 0)
  | _ => some (encB bo 0 d 1)

/-- Quadrant 2: shifts, loads and stores by the stack pointer, jumps through registers, moves. -/
def expand2 (h : Nat) : Option Nat :=
  let r := wf h 11 7
  let s := wf h 6 2
  let ud := wf h 12 12 * 32 + wf h 6 5 * 8 + wf h 4 2 * 64
  let uw := wf h 12 12 * 32 + wf h 6 4 * 4 + wf h 3 2 * 64
  let sd := wf h 12 10 * 8 + wf h 9 7 * 64
  let sw := wf h 12 9 * 4 + wf h 8 7 * 64
  match wf h 15 13 with
  | 0 => some (encI (wf h 12 12 * 32 + s : Nat) r 1 r 0x13)
  | 1 => some (encI ud 2 3 r 0x07)
  | 2 => if r = 0 then none else some (encI uw 2 2 r 0x03)
  | 3 => if r = 0 then none else some (encI ud 2 3 r 0x03)
  | 4 =>
    if wf h 12 12 = 0 then
      if s = 0 then (if r = 0 then none else some (encI 0 r 0 0 0x67))
      else some (encR 0 s 0 0 r 0x33)
    else if s = 0 then some (if r = 0 then 0x00100073 else encI 0 r 0 1 0x67)
    else some (encR 0 s r 0 r 0x33)
  | 5 => some (encS sd s 2 3 0x27)
  | 6 => some (encS sw s 2 2 0x23)
  | _ => some (encS sd s 2 3 0x23)

/-- The 32-bit instruction of a 16-bit one; none where it is reserved. -/
def expandC (h : Nat) : Option Nat :=
  match h % 4 with
  | 0 => expand0 h
  | 1 => expand1 h
  | _ => expand2 h

/-! ### What an instruction does -/

/-- What an instruction does at the core: its registers after it, with the program counter where it goes on and its cycles (Table 6-2); a trap,
with its mtval where the spec gives one; an access to memory: an address, a length, and the bytes where it stores; or nothing yet. -/
inductive CoreAct
  | done (u : Gcore) (cost : Nat)
  | trap (cause : Nat) (tval : Option Nat)
  | load (addr len : Nat)
  | store (addr : Nat) (data : Bytes)
  | stay
  deriving DecidableEq, Repr

/-- An illegal instruction; its mtval is not stated. -/
def CoreAct.illegal : CoreAct := .trap 2 none

/-- The instruction at the program counter, of `len` bytes, ends and the next follows it. -/
def Gcore.next (u : Gcore) (len : Nat) (cost : Nat := 1) : CoreAct := .done { u with pc := plus u.pc len, retired := u.retired + 1 } cost

/-- It ends with a jump to `target`: 3 cycles (Table 6-2). -/
def Gcore.jump (u : Gcore) (target : Nat) : CoreAct := .done { u with pc := target, retired := u.retired + 1 } 3

/-- Signed value of a register. -/
def sx (v : Nat) : Int := toInt 64 v

/-- ALU operations by funct3, `alt` for SUB and SRA, over 64 or 32 bits. -/
def alu (n : Nat) (f3 : Nat) (alt : Bool) (a b : Nat) : Nat :=
  let sh := b % n
  match f3 with
  | 0 => if alt then ofInt n ((a : Int) - b) else (a + b) % 2 ^ n
  | 1 => a * 2 ^ sh % 2 ^ n
  | 2 => if toInt n a < toInt n b then 1 else 0
  | 3 => if a < b then 1 else 0
  | 4 => a ^^^ b
  | 5 => if alt then ofInt n (toInt n a / 2 ^ sh) else a % 2 ^ n / 2 ^ sh
  | 6 => a ||| b
  | _ => a &&& b

/-- The M extension by funct3, over `n` bits: a division by zero gives all ones and a remainder the dividend, and the quotient that
overflows is the dividend, as RISC-V defines. -/
def mulDiv (n f3 a b : Nat) : Nat :=
  let x := toInt n a
  let y := toInt n b
  let p : Int := 2 ^ n
  match f3 with
  | 0 => a * b % 2 ^ n
  | 1 => ofInt n (x * y / p)
  | 2 => ofInt n (x * (b : Int) / p)
  | 3 => a * b / 2 ^ n
  | 4 => if b = 0 then 2 ^ n - 1 else ofInt n (x.tdiv y)
  | 5 => if b = 0 then 2 ^ n - 1 else a / b
  | 6 => if b = 0 then a else ofInt n (x.tmod y)
  | _ => if b = 0 then a else a % b

/-- A branch by funct3 is taken. -/
def taken (f3 a b : Nat) : Option Bool :=
  match f3 with
  | 0 => some (a == b)
  | 1 => some (a != b)
  | 4 => some (decide (sx a < sx b))
  | 5 => some (decide (sx b ≤ sx a))
  | 6 => some (decide (a < b))
  | 7 => some (decide (b ≤ a))
  | _ => none

/-- What the core's surroundings show it in this cycle: core cycles, Hall Time, cycles left of the window, its identity (Table 6-5), and
whether an access of its is outstanding. -/
structure CoreEnv where
  cycle : Nat
  time : Nat
  left : Nat
  ident : Nat
  busy : Bool
  deriving DecidableEq, Repr

/-- A CSR that a user program can read: the FP and vector ones, the counters (Table 6-1), Table 6-5. -/
def Gcore.csrRead (u : Gcore) (env : CoreEnv) (n : Nat) : Option Nat :=
  let fp (v : Nat) : Option Nat := if u.fpOn then some v else none
  let vec (v : Nat) : Option Nat := if u.vecOn then some v else none
  match n with
  | 0x001 => fp (u.csrGet csrFcsr % 32)
  | 0x002 => fp (u.csrGet csrFcsr / 32 % 8)
  | 0x003 => fp (u.csrGet csrFcsr)
  | 0x008 => vec (u.csrGet csrVstart)
  | 0x009 => vec (u.csrGet csrVcsr % 2)
  | 0x00A => vec (u.csrGet csrVcsr / 2 % 4)
  | 0x00F => vec (u.csrGet csrVcsr)
  | 0xC20 => vec (u.csrGet csrVl)
  | 0xC21 => vec (u.csrGet csrVtype)
  | 0xC22 => vec 64
  | 0xC00 => some env.cycle
  | 0xC01 => some env.time
  | 0xC02 => some u.retired
  | 0x8C0 => some (u.csrGet csrNgvctl)
  | 0x8C1 => some (u.csrGet csrNgvstat)
  | 0xCC0 => some env.left
  | 0xCC1 => some env.ident
  | _ => none

/-- A write to a CSR that may be written. -/
def Gcore.csrWrite (u : Gcore) (n v : Nat) : Gcore :=
  let fc := u.csrGet csrFcsr
  let vc := u.csrGet csrVcsr
  match n with
  | 0x001 => u.csrSet csrFcsr (fc / 32 * 32 + v % 32)
  | 0x002 => u.csrSet csrFcsr (fc % 32 + v % 8 * 32)
  | 0x003 => u.csrSet csrFcsr (v % 256)
  | 0x008 => u.csrSet csrVstart (v % 512)
  | 0x009 => u.csrSet csrVcsr (vc / 2 * 2 + v % 2)
  | 0x00A => u.csrSet csrVcsr (vc % 2 + v % 4 * 2)
  | 0x00F => u.csrSet csrVcsr (v % 8)
  | 0x8C0 => u.csrSet csrNgvctl (v % 2)
  | 0x8C1 => u.csrSet csrNgvstat (v % 512)
  | _ => u

/-- A CSR instruction: read, then write, set or clear; none where it is illegal. -/
def Gcore.csrOp (u : Gcore) (env : CoreEnv) (w : Nat) : Option Gcore :=
  let n := wf w 31 20
  let src := if fn3 w / 4 = 1 then rs1_ w else u.getX (rs1_ w)
  let writes := decide (fn3 w % 4 = 1 ∨ rs1_ w ≠ 0)
  if writes ∧ n / 1024 = 3 then none
  else (u.csrRead env n).map fun old =>
    let new := match fn3 w % 4 with
      | 1 => src
      | 2 => old ||| src
      | _ => old &&& (2 ^ 64 - 1 - src)
    (if writes then u.csrWrite n new else u).setX (rd_ w) old

/-- Table 6-3: the word is an Xngv instruction. -/
def isXngv (w : Nat) : Bool :=
  let f := fn7 w
  if opc w = 0x0B then
    match fn3 w with
    | 0 => f == 0 && rs1_ w == 0 && rs2_ w == 0
    | 1 | 2 | 5 => f == 0 && rs2_ w == 0
    | 3 => decide (f < 2) && rd_ w == 0
    | 4 => decide (f < 2)
    | _ => false
  else decide (opc w = 0x2B ∧ fn3 w < 2) && f == 0

/-- The word is an atomic or a reserved access of the A extension. -/
def isAtomicInsn (w : Nat) : Bool :=
  decide (opc w = 0x2F ∧ (fn3 w = 2 ∨ fn3 w = 3)) &&
    ([0, 1, 3, 4, 8, 12, 16, 20, 24, 28].contains (fn7 w / 4) || decide (fn7 w / 4 = 2 ∧ rs2_ w = 0))

/-- WFI. -/
def wfiWord : Nat := 0x10500073

/-- An instruction that has a command of its own (AMO, LR, SC, WFI and Xngv): the core stays at it until that command comes (log
entry 134). -/
def hasRow (w : Nat) : Bool := isXngv w || isAtomicInsn w || decide (w = wfiWord)

/-- Bytes of a scalar load or store by funct3. -/
def memBytes (f3 : Nat) : Nat := 2 ^ (f3 % 4)

/-- A load or a store of the integer registers, and its address. -/
def memAt (u : Gcore) (w : Nat) : Nat := plus (u.getX (rs1_ w)) (if opc w = 0x03 ∨ opc w = 0x07 then immI w else immS w)

/-- What a load of the integer registers makes of its bytes. -/
def loaded (f3 : Nat) (d : Bytes) : Nat := if f3 < 4 then ofInt 64 (toInt (8 * memBytes f3) (unle d)) else unle d

/-- The integer instructions: what the word `w`, of `len` bytes, does; none where it is none of them. -/
def intAct (env : CoreEnv) (u : Gcore) (w len : Nat) : Option CoreAct :=
  let d := rd_ w
  let a := u.getX (rs1_ w)
  let b := u.getX (rs2_ w)
  let f3 := fn3 w
  let f7 := fn7 w
  let put (v : Nat) (cost : Nat := 1) : Option CoreAct := some ((u.setX d v).next len cost)
  let mulCost := if f3 < 4 then 3 else 34
  match opc w with
  | 0x37 => put (ofInt 64 (immU w))
  | 0x17 => put (plus u.pc (immU w))
  | 0x6F => some ((u.setX d (plus u.pc len)).jump (plus u.pc (immJ w)))
  | 0x67 => if f3 = 0 then some ((u.setX d (plus u.pc len)).jump (plus a (immI w) / 2 * 2)) else none
  | 0x63 => (taken f3 a b).map fun t => if t then u.jump (plus u.pc (immB w)) else u.next len
  | 0x03 => if f3 < 7 then some (.load (memAt u w) (memBytes f3)) else none
  | 0x23 => if f3 < 4 then some (.store (memAt u w) (le (memBytes f3) b)) else none
  | 0x13 =>
    if f3 = 1 then (if wf w 31 26 = 0 then put (alu 64 1 false a (wf w 25 20)) else none)
    else if f3 = 5 then (if wf w 31 26 = 0 ∨ wf w 31 26 = 16 then put (alu 64 5 (wf w 31 26 = 16) a (wf w 25 20)) else none)
    else put (alu 64 f3 false a (ofInt 64 (immI w)))
  | 0x1B =>
    if f3 = 0 then put (sext false (plus a (immI w)))
    else if f3 = 1 ∧ f7 = 0 then put (sext false (alu 32 1 false a (rs2_ w)))
    else if f3 = 5 ∧ (f7 = 0 ∨ f7 = 32) then put (sext false (alu 32 5 (f7 = 32) a (rs2_ w)))
    else none
  | 0x33 =>
    if f7 = 1 then put (mulDiv 64 f3 a b) mulCost
    else if f7 = 0 ∨ (f7 = 32 ∧ (f3 = 0 ∨ f3 = 5)) then put (alu 64 f3 (f7 = 32) a b)
    else none
  | 0x3B =>
    if f7 = 1 ∧ (f3 = 0 ∨ 4 ≤ f3) then put (sext false (mulDiv 32 f3 (a % 2 ^ 32) (b % 2 ^ 32))) mulCost
    else if (f7 = 0 ∧ (f3 = 0 ∨ f3 = 1 ∨ f3 = 5)) ∨ (f7 = 32 ∧ (f3 = 0 ∨ f3 = 5)) then put (sext false (alu 32 f3 (f7 = 32) a b))
    else none
  | 0x0F => if f3 = 0 then some (if env.busy then .stay else u.next len) else if f3 = 1 then some (u.next len) else none
  | 0x73 =>
    if f3 = 0 then (if w = 0x73 then some (.trap 8 (some 0)) else if w = 0x100073 then some (.trap 3 none) else none)
    else if f3 = 4 then none
    else (u.csrOp env w).map fun v => v.next len
  | _ => none

end Sys2Proof.Machine
end

