-- ==== Sys2Proof/Machine/Cores.lean ====
section
/-!
DEFINITION. Machine/Cores.lean: the general cores (06_clusters.md): windows and traps (R218 to R223), Xngv (R213 to R217), atomics
(R210); and the cluster memory's accesses and patrol (R199 to R208, R224 to R226). The instructions that have no row are run by the
clock (RvCore.lean).
-/

namespace Sys2Proof.Machine

open Sys2Proof

/-! ### Programs and windows (R218 to R223) -/

/-- The partition and the program section of a general core. -/
def State.gcPart (s : State) (g : Nat) : Nat := s.partOfRiser (g / 80)
def State.gcProg (s : State) (g : Nat) : Bytes := (s.sect 5 (g / 80) (g % 80)).getD []

def gsWins (b : Bytes) : Nat := fieldAt b 0x00 2
def gsEntry (b : Bytes) : Nat := fieldAt b 0x10 4
def gsWindow (b : Bytes) (i : Nat) : Nat := fieldAt b (fieldAt b 0x04 4 + 16 * i) 16

/-- The fields of a window entry (Table 6-7). -/
def gwRepoch (w : Nat) : Nat := wf w 19 0
def gwSlot (w : Nat) : Nat := wf w 31 20
def gwCyc (w : Nat) : Nat := wf w 39 32
def gwEndSlot (w : Nat) : Nat := wf w 51 40
def gwEndCyc (w : Nat) : Nat := wf w 59 52
def gwRestart (w : Nat) : Bool := bit w 60
def gwSuspend (w : Nat) : Bool := bit w 61
def gwPatrol (w : Nat) : Bool := bit w 62
def gwEntry (w : Nat) : Nat := wf w 77 64

/-- The first cycle of a window of period `j`, and its last. -/
def State.winFirst (s : State) (p j w : Nat) : Nat :=
  s.epochCycle ((s.part p).base + (((j * max 1 (s.pattern p).period + gwRepoch w : Nat)) : Int)).toNat + gwSlot w * s.cps + gwCyc w
def State.winLast (s : State) (p j w : Nat) : Nat :=
  s.epochCycle ((s.part p).base + (((j * max 1 (s.pattern p).period + gwRepoch w : Nat)) : Int)).toNat + gwEndSlot w * s.cps + gwEndCyc w

/-- The slip of the window a core is in (R77). -/
def State.gcSlip (s : State) (g : Nat) : State :=
  let u := s.gc g
  let w := gsWindow (s.gcProg g) u.win
  s.slip (pgGcore g) (s.gcPart g) (u.period * max 1 (s.pattern (s.gcPart g)).period + gwRepoch w) (gwSlot w) (gwCyc w) 0

/-- The window behind the core: the next is next, or the first of the next period. -/
def Gcore.nextWin (u : Gcore) (n : Nat) : Gcore :=
  if u.win + 1 < n then { u with win := u.win + 1 } else { u with win := 0, period := u.period + 1 }

/-- WINDOW_START (R220 to R222, R224): the next window begins; the program runs from ENTRY_W where RESTART says so,
else where it stopped; a program stopped by a trap stays idle; a core out of service absorbs the window with a slip. -/
def execWindowStart (core : Fin 640) (s : State) : Host.Outcome State Fault Refusal :=
  finish (evented ++ [.gcores]) s <|
    let g := core.val
    let p := s.gcPart g
    let u := s.gc g
    let b := s.gcProg g
    let w := gsWindow b u.win
    if !s.playing p ∨ u.inWindow ∨ gsWins b ≤ u.win ∨ s.cycles < s.winFirst p u.period w then s
    else if s.out (pgGcore g) then (s.gcSlip g).modGc g fun u => u.nextWin (gsWins b)
    else s.modGc g fun u =>
      { u with
        inWindow := true, patrol := gwPatrol w, suspended := u.suspended && gwPatrol w
        wfi := if gwPatrol w then u.wfi else false
        pc := if gwRestart w && !gwPatrol w && !u.mid then 4 * gwEntry w else u.pc
        entry := if gwRestart w && !gwPatrol w && u.mid then some (4 * gwEntry w) else u.entry
        awaits := if gwRestart w && !gwPatrol w && !u.mid then u.awaits.map fun x => { x with moved := true } else u.awaits }

/-- The window ends for a program that runs: it is suspended, and a pending HTWAIT or SYNCWAIT cancelled. An access under way is
completed: its instruction takes its answer when that comes (R221). -/
def Gcore.suspend (u : Gcore) : Gcore := { u with suspended := true, htwait := none, syncwait := none }

/-- WINDOW_END (R221): after a window's last cycle it ends cleanly, suspends the program, or is an overrun. -/
def execWindowEnd (core : Fin 640) (s : State) : Host.Outcome State Fault Refusal :=
  finish (evented ++ [.gcores]) s <|
    let g := core.val
    let p := s.gcPart g
    let u := s.gc g
    let b := s.gcProg g
    let w := gsWindow b u.win
    if !u.inWindow ∨ s.cycles ≤ s.winLast p u.period w then s
    else
      let leave (s : State) : State := s.modGc g fun u => { u.nextWin (gsWins b) with inWindow := false, patrol := false }
      if u.patrol then (leave s).modGc (g / 8 * 8) fun u => { u with patrolIds := [] }
      else if u.wfi ∨ u.stopped then leave s
      else if gwSuspend w then leave (s.modGc g Gcore.suspend)
      else
        let pg := pgGcore g
        leave ((((s.bump pg GC_OVERRUN_COUNT).raise pg ev_GC_OVERRUN (le 2 u.win ++ le 2 0 ++ le 4 u.pc)).gcSlip g).modGc g Gcore.suspend)

/-- WFI (R221): the program closes its window; it goes on behind the WFI in the next one. -/
def execWfi (core : Fin 640) (s : State) : Host.Outcome State Fault Refusal :=
  finish [.gcores] s <| if s.gcRuns core then s.modGc core fun u => { u.retire with wfi := true } else s

/-- A trap in user mode (R222): GC_TRAP, its event, a slip, and none of the program until the next POUR. -/
def State.userTrap (s : State) (g cause tval : Nat) : State :=
  let pg := pgGcore g
  let u := s.gc g
  let s1 := (s.wrs pg [(GC_TRAP_CAUSE, cause), (GC_TRAP_STATUS, u.status), (GC_TRAP_PC_OFFSET, u.pc), (GC_TRAP_TVAL_LO_TVAL, tval),
    (GC_TRAP_TVAL_HI_TVAL, tval / 2 ^ 32)]).bump pg GC_TRAP_COUNT
  ((s1.raise pg ev_GC_TRAP (le 1 cause ++ le 1 u.status ++ le 2 0 ++ le 4 u.pc ++ le 8 tval)).gcSlip g).modGc g fun u =>
    { u with stopped := true, fault := none, htwait := none, syncwait := none, awaits := none }

/-- USER_TRAP (R222): the program traps in its window: with the access fault of R212 that is pending, else with the
cause and value the exception brings. -/
def execUserTrap (core : Fin 640) (cause tval : Nat) (s : State) : Host.Outcome State Fault Refusal :=
  finish (evented ++ [.gcores]) s <|
    let g := core.val
    let u := s.gc g
    if (!u.inWindow ∧ u.fault.isNone) ∨ u.patrol ∨ u.wfi ∨ u.stopped ∨ s.out (pgGcore g) then s
    else match u.fault with
      | some f => s.userTrap g f.1 f.2
      | none => s.userTrap g (cause % 256) (tval % 2 ^ 64)

/-- A trap whose mtval is not stated: a free value; an illegal-instruction exception is one. -/
def State.openTrap (s : State) (g cause : Nat) : State :=
  let s1 := s.userTrap g cause (Config.freeNat s.free % 2 ^ 64)
  { s1 with free := s1.free + 1 }
def State.illegal (s : State) (g : Nat) : State := s.openTrap g 2

/-- An instruction of the program: where the program runs, `f` says what it does. -/
def State.gcDo (s : State) (g : Nat) (f : State → Gcore → State) : State := if s.gcRuns g then f s (s.gc g) else s

/-! ### Time and flags (R214) -/

/-- The starting tick of the current core cycle, in whole ticks (R43): a cycle begins at or after tick `n` where this is `n` or more. -/
def State.cycleTick (s : State) : Nat := s.time.ticks / 256 * 256 + s.cycle * 256 / s.cps

/-- HTREAD (R214). -/
def execHtread (core : Fin 640) (rd : Fin 32) (s : State) : Host.Outcome State Fault Refusal :=
  finish [.gcores] s <| s.gcDo core fun s _ => s.modGc core fun u => (u.setX rd s.time.ticks).retire

/-- HTWAIT (R214): complete at once where its tick is past or now, else pending. -/
def execHtwait (core : Fin 640) (rd rs1 : Fin 32) (s : State) : Host.Outcome State Fault Refusal :=
  finish [.gcores] s <| s.gcDo core fun s u =>
    let t := u.getX rs1
    if t < s.time.ticks then s.modGc core fun u => (u.setX rd (s.time.ticks - t)).retire
    else if t ≤ s.cycleTick then s.modGc core fun u => (u.setX rd (s.cycleTick - t)).retire
    else s.modGc core fun u => { u with htwait := some (rd, t) }

/-- HTWAIT_COMPLETE (R214): the first cycle whose starting tick is at or after the one waited for. -/
def execHtwaitComplete (core : Fin 640) (s : State) : Host.Outcome State Fault Refusal :=
  finish [.gcores] s <|
    match (s.gc core).htwait with
    | none => s
    | some (rd, t) => if t ≤ s.cycleTick then s.modGc core fun u => { (u.setX rd (s.cycleTick - t)).retire with htwait := none } else s

/-- SYNCSET (R214): SET or ADD of rs2 to the flag rs1[15:0] names. -/
def execSyncset (core : Fin 640) (rs1 rs2 : Fin 32) (add : Bool) (s : State) : Host.Outcome State Fault Refusal :=
  finish (evented ++ [.runner, .net, .gcores]) s <| s.gcDo core fun s u =>
    let g := core.val
    (s.sendToken s.cycles (g / 8) (s.gcPart g) (pgGcore g) (u.getX rs1 % 2 ^ 16) (if add then 1 else 0) (u.getX rs2)).modGc g Gcore.retire

/-- The flag address names the requester's own store (R247). -/
def State.ownStore (s : State) (p k flag : Nat) : Bool :=
  let h := flag / 256 % 256
  decide (h = 0) || decide (s.storeOf p h = some k)

/-- SYNCWAIT's condition on a flag value. -/
def syncHolds (ge : Bool) (want v : Nat) : Bool := if ge then decide (want ≤ v) else decide (v = want)

/-- SYNCWAIT (R214, R247): complete where its condition holds, else pending; another store's flag is illegal. -/
def execSyncwait (core : Fin 640) (rd rs1 rs2 : Fin 32) (ge : Bool) (s : State) : Host.Outcome State Fault Refusal :=
  finish (evented ++ [.gcores]) s <| s.gcDo core fun s u =>
    let g := core.val
    let f := u.getX rs1 % 2 ^ 16
    let v := s.flag (g / 8) (f % 256)
    if !s.ownStore (s.gcPart g) (g / 8) f then s.illegal g
    else if syncHolds ge (u.getX rs2) v then s.modGc g fun u => (u.setX rd v).retire
    else s.modGc g fun u => { u with syncwait := some (rd, f % 256, u.getX rs2, ge) }

/-- SYNCWAIT_COMPLETE (R214): the condition is seen, and rd receives the flag's value. -/
def execSyncwaitComplete (core : Fin 640) (s : State) : Host.Outcome State Fault Refusal :=
  finish [.gcores] s <|
    let g := core.val
    match (s.gc g).syncwait with
    | none => s
    | some (rd, i, want, ge) =>
      let v := s.flag (g / 8) i
      if syncHolds ge want v then s.modGc g fun u => { (u.setX rd v).retire with syncwait := none } else s

/-! ### Accesses of Xngv and the A extension (R210, R212, R214) -/

/-- The program waits in the access of an instruction of kind `kind`. -/
def State.gcWaits (s : State) (g kind : Nat) : Bool :=
  let u := s.gc g
  u.awaits.any (fun x => decide (x.kind = kind)) && !u.stopped && u.fault.isNone && !s.out (pgGcore g)

/-- An instruction that makes an access, tried: where the program runs, `f` starts it; once its answer is back (READ or ATOMIC performs
it, RESPONSE brings it), tried again it takes the answer (log entry 44), as `land` says. -/
def State.gcTry (s : State) (g kind : Nat) (f : State → Gcore → State) (land : State → Req → Ans → State) : State :=
  if s.gcRuns g then f s (s.gc g)
  else if s.gcWaits g kind then
    match (s.gc g).awaits with
    | some w =>
      match s.hall.done.find? fun e => decide (e.1 = w.id) with
      | some e => land (s.modHall fun h => { h with done := adel w.id h.done }) w.req e.2
      | none => s
    | none => s
  else s

/-- The access begins: its request is issued, and checked in R406's order; `barred`: the instruction may not name the address although
every check passes (R210: outside the atomic regions). -/
def State.gcAccess (s : State) (g kind rd : Nat) (wide barred : Bool) (r : Req) : State :=
  if barred ∧ s.originStatus r = 0 then (s.countStatus r xREGIONDENIED).gcOutcome g false (r.op = 0x01) r.addr xREGIONDENIED
  else
    let x := s.issueReq r
    let s1 := x.2
    if (s1.req x.1).isSome then s1.modGc g fun u => { u with awaits := some { id := x.1, kind := kind, rd := rd, wide := wide, req := r } }
    else s1.modHall fun h => { h with done := adel x.1 h.done }

/-- The request of an access of general core `g`. -/
def State.gcReq (s : State) (g op ty addr len value cmp : Nat) : Req :=
  { src := pgGcore g, cls := 2, op := op, ty := ty, addr := addr, len := len, value := value, compare := cmp
    part := some (s.gcPart g) }

/-- An address an atomic or a reserved access may name (Table 6-1): a shared-buffer atomic region, or in another
package a place where one may lie. -/
def State.atomicAt (s : State) (a : Nat) : Bool :=
  match homeOf (localOf a) with
  | .slice n o => !s.ownPkg a || s.inAtomic n o
  | _ => false

/-- Code and type of RISC-V AMOs in the order swap, add, xor, and, or, min, max, minu, maxu. -/
def amoCode (op : Nat) (wide : Bool) : Nat × Nat :=
  let b := if wide then 7 else 6
  let i := if wide then 1 else 0
  match op with
  | 0 => (3, b) | 1 => (0, i) | 2 => (7, b) | 3 => (5, b) | 4 => (6, b)
  | 5 => (1, i) | 6 => (2, i) | 7 => (1, i + 2) | _ => (2, i + 2)

/-- A misaligned access that is not wholly inside one sector: an address-misaligned exception. -/
def crossesSector (a n : Nat) : Bool := decide (a / 64 ≠ (a + n - 1) / 64)

/-- AMO (R210): the slice performs the atomic of the same kind, and rd receives the old value. -/
def execAmo (core : Fin 640) (op : Fin 9) (wide : Bool) (rd rs1 rs2 : Fin 32) (s : State) : Host.Outcome State Fault Refusal :=
  finish (asked ++ [.descs]) s <| s.gcTry core 0
    (fun s u =>
      let g := core.val
      let a := u.getX rs1
      let c := amoCode op wide
      if crossesSector a (if wide then 8 else 4) then s.userTrap g 6 a
      else s.gcAccess g 0 rd wide (!s.atomicAt a) (s.gcReq g (0x10 + c.1) c.2 a 0 (if wide then u.getX rs2 else u.getX rs2 % 2 ^ 32) 0))
    fun s _ ans => s.modGc core fun u => (u.setX rd (sext wide ans.value)).retire

/-- LR (R210): rd receives the value, which the core remembers. -/
def execLr (core : Fin 640) (wide : Bool) (rd rs1 : Fin 32) (s : State) : Host.Outcome State Fault Refusal :=
  finish (asked ++ [.descs]) s <| s.gcTry core 1
    (fun s u =>
      let g := core.val
      let a := u.getX rs1
      let n := if wide then 8 else 4
      if a % n ≠ 0 then s.userTrap g 4 a
      else s.gcAccess g 1 rd wide (!s.atomicAt a) (s.gcReq g 0x01 0 a n 0 0))
    fun s r ans => s.modGc core fun u =>
      { (u.setX rd (sext wide (unle ans.data))).retire with reserved := some (r.addr, r.len, unle ans.data) }

/-- SC (R210): it succeeds exactly when a compare-and-swap against the value LR returned does; rd receives 0, else
1. With no value of LR for the address it fails. -/
def execSc (core : Fin 640) (wide : Bool) (rd rs1 rs2 : Fin 32) (s : State) : Host.Outcome State Fault Refusal :=
  finish (asked ++ [.descs]) s <| s.gcTry core 2
    (fun s u =>
      let g := core.val
      let a := u.getX rs1
      let n := if wide then 8 else 4
      let fail := s.modGc g fun u => { (u.setX rd 1).retire with reserved := none }
      if a % n ≠ 0 then s.userTrap g 6 a
      else match u.reserved with
        | some (b, k, v) =>
          if b = a ∧ k = n then
            s.gcAccess g 2 rd wide (!s.atomicAt a) (s.gcReq g 0x14 (if wide then 7 else 6) a 0 (u.getX rs2 % 2 ^ (8 * n)) v)
          else if !s.atomicAt a then s.gcAccess g 2 rd wide true (s.gcReq g 0x14 (if wide then 7 else 6) a 0 0 0)
          else fail
        | none => if !s.atomicAt a then s.gcAccess g 2 rd wide true (s.gcReq g 0x14 (if wide then 7 else 6) a 0 0 0) else fail)
    fun s r ans => s.modGc core fun u =>
      { (u.setX rd (if ans.value = r.compare then 0 else 1)).retire with reserved := none }

/-- CRCBLK (R214): the CRC-32C of a 2-KiB block. One that is not aligned traps with cause 4 (DEDUCED, log entry 78). -/
def execCrcblk (core : Fin 640) (rd rs1 : Fin 32) (s : State) : Host.Outcome State Fault Refusal :=
  finish (asked ++ [.descs]) s <| s.gcTry core 3
    (fun s u =>
      let g := core.val
      let a := u.getX rs1
      if a % 2048 ≠ 0 then s.userTrap g 4 a
      else s.gcAccess g 3 rd true false (s.gcReq g 0x01 0 a 2048 0 0))
    fun s _ ans => s.modGc core fun u => (u.setX rd (crc32c ans.data)).retire

/-- What an engine of partition `p` makes of a descriptor built at run time (R196): OK, BAD-DESCRIPTOR or PARTITION-DENIED. -/
def runDesc (p : Nat) (t : Tensor) : Nat := if t.tag ≠ p then xPARTDENIED else if t.malformed then xBADDESC else 0

/-- What a general core makes of one: tiles and transposition are for the movers and the shared buffer alone (R194). -/
def coreDesc (p : Nat) (t : Tensor) : Nat := if runDesc p t = 0 ∧ (t.tiled ∨ t.transp) then xBADDESC else runDesc p t

/-- The event of a descriptor at `a` that is refused with status `st`. -/
def State.descNote (s : State) (g a st : Nat) : State :=
  if st = xBADDESC then s.raise (pgGcore g) ev_BAD_DESCRIPTOR (le 8 a ++ le 4 (pgGcore g))
  else if st = xPARTDENIED then s.raise (pgGcore g) ev_PARTITION_DENIED (le 8 a ++ le 4 (pgGcore g) ++ le 1 0x01)
  else s

/-- DESCLD (R214): a descriptor is read and checked; one that passes goes to vd. -/
def execDescld (core : Fin 640) (vd rs1 : Fin 32) (s : State) : Host.Outcome State Fault Refusal :=
  finish (asked ++ [.descs]) s <| s.gcTry core 4
    (fun s u =>
      let g := core.val
      let a := u.getX rs1
      if a % 64 ≠ 0 then s.userTrap g 4 a
      else s.gcAccess g 4 vd true false (s.gcReq g 0x01 0 a 64 0 0))
    fun s r ans =>
      let g := core.val
      let st := coreDesc (s.gcPart g) (Tensor.of ans.data)
      (s.modGc g fun u => ((if st = 0 then u.setV vd ans.data else u).setStatus st).retire).descNote g r.addr st

/-! ### MX packing (R215 to R217) -/

/-- What makes MXPACK or MXUNPACK illegal: vstart, an odd register pair, the format code, the vector unit off. -/
def Gcore.mxIllegal (u : Gcore) (pair fmt : Nat) : Bool :=
  decide (u.csrGet csrVstart ≠ 0) || decide (pair % 2 = 1) || !isMx fmt || decide (u.csrGet csrMstatus / 2 ^ 9 % 4 = 0)

/-- Two numbers are equal. -/
def Num.same (a b : Num) : Bool := !a.isNan && !b.isNan && !a.below b && !b.below a

/-- fflags of a packed block: OF for OVERFLOW and SATURATED, UF for UNDERFLOW, NX for an inexact element, NV for a
NaN input. -/
def packFlags (fl : Nat) (nan inexact : Bool) : Nat :=
  (if fl &&& (fOVERFLOW ||| fSATURATED) = 0 then 0 else 4) + (if fl &&& fUNDERFLOW = 0 then 0 else 2) + (if inexact then 1 else 0) +
    (if nan then 16 else 0)

/-- A block of 32 values packed: the 64 bytes of vd, and the flags. -/
def mxPack (f : Nat) (vs : List Num) : Bytes × Nat :=
  let sc := blockScale f vs
  let one (v : Num) : Nat × Nat := if sc.1 = 0xFF then (0, sc.2) else toMx (outFmt f) .near (v.scale (127 - (sc.1 : Int)))
  let cs := vs.map one
  let w := fmtBits f
  let v : Nat := (cs.zipIdx).foldl (fun x e => x + e.1.1 * 2 ^ (w * e.2)) 0
  let fl := cs.foldl (fun x e => x ||| e.2) 0
  let inexact := decide (sc.1 ≠ 0xFF) && (vs.zip cs).any fun e =>
    e.1.isFin && !Num.same (((outFmt f).decode e.2.1).scale ((sc.1 : Int) - 127)) e.1
  (slice (le (4 * w) v) 0 63 ++ le 1 sc.1, packFlags fl (vs.any Num.isNan) inexact)

/-- MXPACK (R215, R217). -/
def execMxpack (core : Fin 640) (vd vs rs1 : Fin 32) (s : State) : Host.Outcome State Fault Refusal :=
  finish (evented ++ [.gcores]) s <| s.gcDo core fun s u =>
    let g := core.val
    let f := u.getX rs1 % 32
    if u.mxIllegal vs f then s.illegal g
    else
      let d := u.getV vs ++ u.getV (vs.val + 1)
      let x := mxPack f ((List.range 32).map fun i => fFP32.decode (fieldAt d (4 * i) 4))
      s.modGc g fun u => ((u.setV vd x.1).flag x.2).retire

/-- One element of a packed block unpacked: its FP32 code and flags. -/
def mxElem (f sc c : Nat) : Nat × Nat :=
  if sc = 0xFF then (0x7FC00000, 16)
  else
    let v := ((outFmt f).decode c).scale ((sc : Int) - 127)
    let r := v.toF32
    (r, if v.isNan then 16 else if v.isFin && !(fFP32.decode r).isFin then 5 else 0)

/-- MXUNPACK (R216, R217). -/
def execMxunpack (core : Fin 640) (vd vs rs1 : Fin 32) (s : State) : Host.Outcome State Fault Refusal :=
  finish (evented ++ [.gcores]) s <| s.gcDo core fun s u =>
    let g := core.val
    let f := u.getX rs1 % 32
    if u.mxIllegal vd f then s.illegal g
    else
      let d := u.getV vs
      let es := (slotCodes d 32 (fmtBits f)).map (mxElem f (fieldAt d 63 1))
      let out := es.flatMap fun e => le 4 e.1
      s.modGc g fun u => (((u.setV vd (slice out 0 64)).setV (vd.val + 1) (slice out 64 64)).flag (es.foldl (fun x e => x ||| e.2) 0)).retire

/-! ### Cluster memory (R199 to R208) -/

/-- The bytes an access touches. -/
def accessSpan (acc : MemAccess) : Nat := if acc.write then acc.data.length else acc.len

/-- The access is of the cluster's firmware in machine mode; of the program that a general core runs. -/
def accessFirmware (acc : MemAccess) (k : Nat) : Bool :=
  acc.machine && decide (pgType acc.who = 0x0012 ∧ pgInst acc.who / 8 = k)
def accessProgram (acc : MemAccess) : Bool := !acc.machine && decide (pgType acc.who = 0x0012)

/-- What an access to a cluster memory does once its banks grant it: a write is applied, a read answered; a word that fails parity
poisons its sector (R207), and a poisoned sector that a program loads is its fault (R212). -/
def State.doAccess (s : State) (k : Nat) (acc : MemAccess) : State :=
  let o := clusterBase k + acc.off
  if acc.write then s.writeMem o acc.data acc.poison
  else
    let s1 := s.parityAt (accessFirmware acc k) (acc.parity.map fun i => o / 64 * 64 + 64 * i)
    if accessProgram acc && decide ((s1.beforeCycle.readMem o acc.len).2 ≠ 0) then
      s1.gcOutcome (pgInst acc.who) false true (0xFFFF * 2 ^ 48 + o) xPOISONED
    else s1

/-- The banks an access needs. -/
def accessNeed (k : Nat) (acc : MemAccess) : BankNeed :=
  let l := bankSectors none (clusterBase k + acc.off) (accessSpan acc)
  if acc.write then { writes := l } else { reads := l }

/-- CLUSTER_MEMORY_ACCESS (R199 to R208): an access comes to its banks, a program's while it runs. One to the firmware region by
another than its cluster's firmware or a management core is denied, and a program that made it faults (R206, R212). -/
def execClusterMemoryAccess (cluster : Fin 80) (acc : MemAccess) (s : State) : Host.Outcome State Fault Refusal :=
  finishD (tiled ++ [.descs, .banks, .gcores]) s <|
    let k := cluster.val
    let pg := pgCluster k
    let a := 0xFFFF * 2 ^ 48 + clusterBase k + acc.off
    let r : Req := { src := acc.who, cls := classOf acc.who, op := if acc.write then 0x02 else 0x01, addr := a, part := (riserOf acc.who).map s.partOfRiser }
    if accessSpan acc = 0 ∨ 12 * mib < acc.off + accessSpan acc ∨ (accessProgram acc && !s.gcRuns (pgInst acc.who)) then s
    else if s.partDenied r (.cluster k acc.off) then
      let s1 := s.countStatus r xPARTDENIED
      if accessProgram acc then s1.gcOutcome (pgInst acc.who) false (!acc.write) a xPARTDENIED else s1
    else if fwRegion (acc.off + accessSpan acc - 1) && !(accessFirmware acc k || decide (pgType acc.who = 0x0070)) then
      let s1 := ((s.bump pg CL_FW_DENY_COUNT).wr pg CL_FW_DENY_SRC (pgInst acc.who)).raise pg ev_CL_FW_DENY (le 8 a ++ le 4 acc.who)
      if accessProgram acc then s1.gcOutcome (pgInst acc.who) false (!acc.write) a xREGIONDENIED else s1
    else
      let level := s.rd (pgControl (routerOf acc.who)) NW_REG_STAT_LEVEL (classOf acc.who)
      s.atBanks acc.who level (schedPort acc.who) true (accessNeed k acc) (.access k acc) fun s => s.doAccess k acc

/-- What waiting work needs of the banks; none where it is gone. -/
def State.workNeed (s : State) : BankWork → Option (BankNeed × Bool)
  | .access k acc => some (accessNeed k acc, true)
  | .request id _ => (s.req id).bind fun r => if r.ans.isSome then none else some (s.bankNeed r, s.hasTurn id r)

/-- Granted work acts. -/
def State.runWork (s : State) : BankWork → State
  | .access k acc => s.doAccess k acc
  | .request id parity => s.performNow id parity

/-- A waiting access is tried in a new cycle, after those in `kept`, which still wait. -/
def State.grantOne (x : State × List BankWait) (w : BankWait) : State × List BankWait :=
  let s := x.1
  match s.workNeed w.work with
  | none => x
  | some (n, turn) =>
    match n.home with
    | none => (s.runWork w.work, x.2)
    | some home =>
      let need := s.needPorts n
      if turn && s.portsFree w.rank need && !waitsBefore x.2 w.rank need then ((s.granted w.rank w.page n).runWork w.work, x.2)
      else (if turn then s.bankLost home w.page (w.rank = 0 ∧ schedPort w.page) else s, x.2 ++ [{ w with need := need }])

/-- A core cycle begins: the accesses that wait for banks are granted in their order (R200, R323). -/
def State.grantBanks (s : State) : State :=
  if s.banks.wait.isEmpty then s
  else
    let r := (bankOrder s.banks.wait).foldl State.grantOne (s.modBanks fun b => { b with wait := [] }, [])
    r.1.modBanks fun b => { b with wait := r.2 }

/-! ### Patrol (R224 to R226) -/

/-- The core that runs patrol, if one does: it is in a PATROL window, or its partition rests. -/
def State.patrolCore (s : State) (k : Nat) : Option Nat :=
  let run := (s.part (s.partOfRiser (k / 10))).run
  ((List.range 8).map fun i => 8 * k + i).find? fun g =>
    !s.out (pgGcore g) && ((s.gc g).patrol || decide (run = .idle ∨ run = .held ∨ run = .done))
def State.patrols (s : State) (k : Nat) : Bool := (s.patrolCore k).isSome

/-- The patrol cursor moves on: past a block, or past a descriptor. -/
def State.patrolNext (s : State) (k cnt desc : Nat) : State :=
  let pg := pgCluster k
  if desc + 1 < cnt then s.wrs pg [(CL_PATROL_DESC_DESC, desc + 1), (CL_PATROL_BLK_BLOCK, 0)]
  else s.wrs pg [(CL_PATROL_DESC_DESC, 0), (CL_PATROL_BLK_BLOCK, 0), (CL_PATROL_PASS_COUNT, s.rd pg CL_PATROL_PASS_COUNT + 1)]

/-- Patrol's reads with the cursor at `pos`: regulated requests of the core's firmware, whose answers the step takes later (R224). -/
def State.patrolRead (s : State) (k g : Nat) (pos : Nat × Nat) (l : List (Nat × Nat)) : State :=
  l.foldl (fun s e =>
    let x := s.issueReq { s.gcReq g 0x01 0 e.1 e.2 0 0 with machine := true }
    x.2.modGc (8 * k) fun u => { u with patrolIds := u.patrolIds ++ [x.1], patrolAt := pos }) s

/-- The answers of patrol's reads, once all are back. -/
def State.patrolAnswers (s : State) (ids : List Nat) : Option (List Ans) :=
  ids.mapM fun i => (s.hall.done.find? fun e => decide (e.1 = i)).map fun e => e.2

/-- The reads under way are done with. -/
def State.patrolDone (s : State) (k : Nat) : State :=
  let ids := (s.gc (8 * k)).patrolIds
  (s.modHall fun h => { h with done := h.done.filter fun e => !ids.contains e.1 }).modGc (8 * k) fun u => { u with patrolIds := [] }

/-- A descriptor of the list is read: one that R196 refuses leaves its event; one without check blocks left is passed over; else the
block at the cursor and its entry are read. -/
def State.patrolDesc (s : State) (k g p cnt desc blk a : Nat) (ans : Ans) : State :=
  let t := Tensor.of ans.data
  let st := coreDesc p t
  if ans.status ≠ 0 then s.patrolNext k cnt desc
  else if st ≠ 0 then (s.descNote g a st).patrolNext k cnt desc
  else if !t.checked ∨ t.blocks ≤ blk then s.patrolNext k cnt desc
  else s.patrolRead k g (a, blk) [(t.addr + 2048 * blk, 2048), (t.table + 0x40 + 4 * blk, 4), (a, 64)]

/-- A block and its entry are read: a mismatch counts and is a suspect; the cursor moves on. The descriptor, read again, must still be
one that the core accepts. Where a read completes with a status and brings no data, the cursor passes to the next descriptor (DESIGN
CHOICE, log entry 129). -/
def State.patrolBlock (s : State) (k g p cnt desc blk a : Nat) (b e d : Ans) : State :=
  let pg := pgCluster k
  let t := Tensor.of d.data
  let st := coreDesc p t
  if 1 < b.status ∨ 1 < e.status ∨ d.status ≠ 0 then s.patrolNext k cnt desc
  else if st ≠ 0 then (s.descNote g a st).patrolNext k cnt desc
  else if !t.checked ∨ t.blocks ≤ blk then s.patrolNext k cnt desc
  else
    let good := decide (b.poison = 0) && decide (crc32c b.data = unle e.data)
    let s1 := if good then s else (s.bump pg CL_PATROL_FAIL_COUNT).suspect p (t.addr + 2048 * blk) t.table
    if blk + 1 < t.blocks then s1.wr pg CL_PATROL_BLK_BLOCK (blk + 1) else s1.patrolNext k cnt desc

/-- PATROL_STEP (R224, R225, R354): the descriptor at the cursor is read, then its block at the cursor and that block's entry, by
regulated requests; once they are back the block is checked and the cursor moves on (log entry 129). -/
def execPatrolStep (cluster : Fin 80) (s : State) : Host.Outcome State Fault Refusal :=
  finishD (asked ++ [.descs]) s <|
    let k := cluster.val
    let pg := pgCluster k
    let p := s.partOfRiser (k / 10)
    let cnt := s.rd pg CL_PATROL_CNT_COUNT
    let desc := s.rd pg CL_PATROL_DESC_DESC
    let blk := s.rd pg CL_PATROL_BLK_BLOCK
    let a := s.rd pg CL_PATROL_LO_ADDR + 2 ^ 32 * s.rd pg CL_PATROL_HI_ADDR + 64 * desc
    match s.patrolCore k with
    | none => s
    | some g =>
      if cnt = 0 ∨ s.out pg then s
      else
        let ids := (s.gc (8 * k)).patrolIds
        if ids.isEmpty ∨ (s.gc (8 * k)).patrolAt ≠ (a, blk) then (s.patrolDone k).patrolRead k g (a, blk) [(a, 64)]
        else match s.patrolAnswers ids with
          | some [d] => (s.patrolDone k).patrolDesc k g p cnt desc blk a d
          | some [b, e, d] => (s.patrolDone k).patrolBlock k g p cnt desc blk a b e d
          | _ => s

end Sys2Proof.Machine
end

