-- ==== Sys2Proof/Machine/UpdateOps.lean ====
section
/-!
DEFINITION. Machine/UpdateOps.lean: firmware bundles, staging, distribution, commit and recovery
(15_firmware_update.md), less RECOVERY_RESTART's reset.
-/

namespace Sys2Proof.Machine

open Sys2Proof

def State.modUpdate (s : State) (f : Update → Update) : State := { s with update := f s.update }

/-! ### Manifests (R560, R561) -/

/-- The largest image of each type, bytes (Table 15-1). -/
def imageLimit : Nat → Nat
  | 1 => 512 * 1024 | 2 => 256 * 1024 | 3 => 4096 * 1024 | 4 => 96 * 1024 | 5 => 32 * 1024
  | 6 => 128 * 1024 | 7 => 128 * 1024 | 8 => 64 * 1024 | 9 => 256 * 1024 | _ => 0

def manSvn (m : Bytes) : Nat := fieldAt m 0x006 1
def manCompat (m : Bytes) : Nat := fieldAt m 0x007 1
def manRelease (m : Bytes) : Nat := fieldAt m 0x008 8
def manCertLen (m : Bytes) : Nat := fieldAt m 0x010 4

/-- Offset of the certificate, of the signature, and the manifest's length. -/
def manCertAt (m : Bytes) : Nat := 0x280 + 16 * manCompat m
def manSigAt (m : Bytes) : Nat := manCertAt m + manCertLen m
def manLength (m : Bytes) : Nat := manSigAt m + 64

/-- Offset of image entry `t` (types 1 to 9). -/
def imageAt (t : Nat) : Nat := 0x040 + 64 * (t - 1)

/-- The bytes of image `t` in a bundle. -/
def imageBytes (b : Bytes) (t : Nat) : Bytes :=
  (b.drop (fieldAt b (imageAt t + 0x08) 8)).take (fieldAt b (imageAt t + 0x04) 4)

/-- All bytes of a field are zero. -/
def zeroAt (b : Bytes) (o n : Nat) : Bool := (slice b o n).all (· == 0)

/-- Image entry `t` obeys Tables 15-1 to 15-3 within a bundle. -/
def imageOk (b : Bytes) (t : Nat) : Bool :=
  let o := imageAt t
  let len := fieldAt b (o + 0x04) 4
  let off := fieldAt b (o + 0x08) 8
  decide (fieldAt b o 1 = t) && zeroAt b (o + 0x03) 1 && zeroAt b (o + 0x38) 8 &&
    decide (len ≤ imageLimit t) && decide (off % 4096 = 0) && decide (manLength b ≤ off) &&
    decide (off + len ≤ b.length)

/-- The layout of Table 15-2. -/
def layoutOk (b : Bytes) : Bool :=
  decide (fieldAt b 0x000 4 = 0x4E414D56) && decide (fieldAt b 0x004 2 = 1) && decide (manSvn b ≤ 64) &&
    decide (1 ≤ manCompat b) && decide (manCompat b ≤ 32) && decide (manCertLen b ≤ 1024) &&
    zeroAt b 0x014 44 && decide (manLength b ≤ b.length) &&
    ((List.range 9).all fun i => imageOk b (i + 1)) &&
    ((List.range (manCompat b)).all fun i => zeroAt b (0x280 + 16 * i + 3) 1 && zeroAt b (0x280 + 16 * i + 8) 8)

/-- The public key of a certificate that chains to the Ngaver root. -/
def State.rootKey (s : State) (cert : Bytes) : Option Bytes :=
  (s.pki.find? fun e => decide (e.1 = cert)).map fun e => e.2

/-- A bundle's manifest is valid (R561). -/
def State.manifestOk (s : State) (b : Bytes) : Bool :=
  layoutOk b &&
    (match s.rootKey (slice b (manCertAt b) (manCertLen b)) with
     | none => false
     | some k => verify k (sha256 (b.take (manSigAt b))) (slice b (manSigAt b) 64)) &&
    ((List.range 9).all fun i =>
      decide (sha256 (imageBytes b (i + 1)) = slice b (imageAt (i + 1) + 0x18) 32))

/-- What the manifest's compatibility table grants a stepping of the base die (0) or a compute die (1):
level and features (Table 15-4). -/
def compatOf (m : Bytes) (die step : Nat) : Option (Nat × Nat) :=
  ((List.range (manCompat m)).find? fun i =>
    decide (fieldAt m (0x280 + 16 * i) 1 = die) && decide (fieldAt m (0x280 + 16 * i + 1) 1 = step)).map
    fun i => (fieldAt m (0x280 + 16 * i + 2) 1, fieldAt m (0x280 + 16 * i + 4) 4)

/-- Compute dies in service: present and not fenced by R540. -/
def State.diesIn (s : State) : List Nat :=
  (List.range 8).filter fun d => s.on pgBu BU_DIE_REV_PRESENT d && !s.on pgBu BU_DIE_REV_FENCED d

/-- Check 4 of Table 15-5. -/
def State.compatOk (s : State) (m : Bytes) : Bool :=
  (compatOf m 0 s.fuse.baseStepping).isSome &&
    (s.diesIn.all fun d => (compatOf m 1 (s.rd pgBu BU_DIE_REV_STEPPING d)).isSome)

/-- STATE_VER of the image of type `t` in force; free where the set in force is not spelled out (log entry 5). -/
def State.stateVer (s : State) (t : Nat) : Nat :=
  if s.update.inForce.isEmpty then Config.stateVer t else fieldAt s.update.inForce (imageAt t + 1) 1

/-- Check 5: STATE_MIN of types 3 to 9 at most STATE_VER of the image in force. -/
def State.stateOk (s : State) (m : Bytes) : Bool :=
  (List.range 7).all fun i =>
    decide (fieldAt m (imageAt (i + 3) + 2) 1 ≤ s.stateVer (i + 3))

/-- The checks of Table 15-5 on a complete stream of the length announced; recovery omits check 5. -/
def State.bundleCheck (s : State) (b : Bytes) (len : Nat) (recovery : Bool) : Nat :=
  firstStatus [
    (decide (b.length ≠ len) || decide (8 * 1024 * 1024 < b.length), stBADFORMAT),
    (!s.manifestOk b, stAUTHFAIL),
    (decide (manSvn b < s.fuse.svn), stROLLBACK),
    (!s.compatOk b, stINCOMPATIBLE),
    (!recovery && !s.stateOk b, stINCOMPATIBLE)]

/-! ### The Ledger's sets (R559) -/

/-- The valid select record with the higher SEQUENCE. -/
def Update.select (u : Update) : Option Select :=
  match u.selA.filter (·.valid), u.selB.filter (·.valid) with
  | some a, some b => if a.seq < b.seq then some b else some a
  | some a, none => some a
  | none, b => b

/-- The set in force: 0 A, 1 B. -/
def Update.setInForce (u : Update) : Nat := match u.select with | some r => r.set | none => 0

/-- The bundle of a set area. -/
def Update.area (u : Update) (i : Nat) : Bytes := if i = 0 then u.areaA else u.areaB

/-- The area not in force written with a bundle. -/
def Update.writeArea (u : Update) (b : Bytes) : Update :=
  if u.setInForce = 0 then { u with areaB := b } else { u with areaA := b }

/-- The select record not in force rewritten to name the set not in force, SEQUENCE one higher; a
torn write leaves that record invalid. -/
def Update.writeSelect (u : Update) (b : Bytes) (good : Bool) : Update :=
  let r : Select :=
    { seq := (match u.select with | some x => x.seq + 1 | none => 1), set := 1 - u.setInForce,
      hash := sha256 (b.take (manLength b)), valid := good }
  if (match u.select, u.selA with | some x, some a => decide (x = a) | _, _ => false) then
    { u with selB := some r }
  else { u with selA := some r }

/-! ### Staging (R562, R563, R573) -/

/-- BU_UPD_STATE.STATE. -/
def State.updState (s : State) (v : Nat) : State := s.wr pgBu BU_UPD_STATE_STATE v

/-- A distribution runs or a commit is armed. -/
def State.updBusy (s : State) : Bool := s.update.distribute.isSome || s.update.commit.isSome

/-- The stream an update command binds. -/
def bindStream (c : Cmd) (binder now : Nat) : Stream :=
  { num := fieldAt c.args 0x00 2, binder := binder, part := 0xFF, slot := 0, at_ := now }

/-- A stream can be bound: fewer than 8 are, and not this one. -/
def State.streamFree (s : State) (n : Nat) : Bool :=
  decide (s.sprue.streams.length < 8) && !(s.sprue.streams.any fun t => decide (t.num = n))

/-- No set is staged. -/
def State.unstage (s : State) : State :=
  (s.modUpdate fun u => { u with bundle := [], staged := false, distributed := false, lacking := [] }).wrs pgBu
    [(BU_UPD_REL_LO_RELEASE, 0), (BU_UPD_REL_HI_RELEASE, 0)]

/-- A receiving command takes its stream: UPD_BEGIN or RECOVERY_BEGIN. A set staged earlier stays until another takes its
place (R563). -/
def State.beginBundle (s : State) (op binder : Nat) (c : Cmd) : State :=
  let s1 := (s.closeCmd c.id none).modUpdate fun u =>
    { u with begun := some (op, c), incoming := [], distributed := false, lacking := [] }
  { s1 with sprue := { s1.sprue with streams := s1.sprue.streams ++ [bindStream c binder s.real] } }

/-- UPD_BEGIN (R562, R563): binds the stream of a bundle; refused BUSY while a distribution runs or a
commit is armed. Its RSP waits for the read-back. -/
def execUpdBegin (c : Cmd) (s : State) : Host.Outcome State Fault Refusal :=
  finish (answered ++ [.update]) s <|
    if !s.turn c then s
    else if !s.partOk 0x0200 c then s.complete 0x0200 c stBADFORMAT
    else if s.updBusy || s.update.begun.isSome || !s.streamFree (fieldAt c.args 0 2) then
      s.complete 0x0200 c stBUSY
    else (s.beginBundle 0x0200 1 c).updState 1

/-- RECOVERY_BEGIN (R573): the same in the recovery intake. -/
def execRecoveryBegin (c : Cmd) (s : State) : Host.Outcome State Fault Refusal :=
  finish (answered ++ [.update]) s <|
    if !s.turn c then s
    else if !s.partOk 0x0280 c then s.complete 0x0280 c stBADFORMAT
    else if !s.boot.recovery then s.complete 0x0280 c stWRONGSTATE
    else if s.update.begun.isSome || !s.streamFree (fieldAt c.args 0 2) then s.complete 0x0280 c stBUSY
    else (s.beginBundle 0x0280 2 c).updState 7

/-- The receiving command ends with status `st`: BU_UPD_STATE is as before it. -/
def State.refuseBundle (s : State) (op : Nat) (c : Cmd) (st : Nat) : State :=
  ((s.modUpdate fun u => { u with begun := none, incoming := [] }).updState
    (if op = 0x0280 then 7 else if s.update.staged then 3 else 0)).complete op c st

/-- A complete stream of a bundle is checked by Table 15-5: refused, or on its way to the Ledger, over the set staged before. -/
def State.checkBundle (s : State) (data : Bytes) : State :=
  match s.update.begun with
  | none => s
  | some (op, c) =>
    let st := s.bundleCheck data (fieldAt c.args 0x08 8) (decide (op = 0x0280))
    if st ≠ 0 then s.refuseBundle op c st
    else (s.unstage.modUpdate fun u => { u with incoming := data }).updState (if op = 0x0280 then 7 else 2)

/-- LEDGER_STAGE_DONE (R563, R573): the bundle has been written to the set area not in force and read
back: UPD_BEGIN answers OK and raises UPD_STAGED, RECOVERY_BEGIN also writes the select record; a
mismatch refuses with BAD-FORMAT, leaves no set staged and raises LG_WRITE_FAIL (R608). The shutdown path abandons the write (R586). -/
def execLedgerStageDone (readBack : Bool) (s : State) : Host.Outcome State Fault Refusal :=
  finish (answered ++ [.update]) s <|
    match s.update.begun with
    | none => s
    | some (op, c) =>
      if s.update.incoming.isEmpty || s.health.shutdown.isSome then s
      else if !readBack then (s.unstage.refuseBundle op c stBADFORMAT).writeFail (0x800000 * (1 - s.update.setInForce)) 0
      else
        let b := s.update.incoming
        if op = 0x0280 then
          (s.modUpdate fun u => { (u.writeArea b).writeSelect b true with begun := none, incoming := [] }).completeLate op c
            (le 8 (manRelease b))
        else
          let s1 := ((s.modUpdate fun u => { u.writeArea b with begun := none, incoming := [], bundle := b, staged := true }).updState 3).wrs
            pgBu [(BU_UPD_REL_LO_RELEASE, manRelease b % 2 ^ 32), (BU_UPD_REL_HI_RELEASE, manRelease b / 2 ^ 32)]
          (s1.raise pgBu ev_UPD_STAGED (le 8 (manRelease b) ++ le 1 (manSvn b))).completeLate op c
            (le 8 (manRelease b) ++ le 1 (manSvn b))

/-- UPD_DISCARD (R574): the staged set is forgotten; a bundle being received goes on. -/
def execUpdDiscard (c : Cmd) (s : State) : Host.Outcome State Fault Refusal :=
  finish (answered ++ [.update]) s <| s.act1 0x0203 c (if s.updBusy then stBUSY else 0) fun s =>
    if s.update.begun.isSome then s.unstage else s.unstage.updState 0

/-! ### Distribution (R564 to R566) -/

/-- The cores that take distributed images, in the order of Table 1-3. -/
def fwCores : List Nat :=
  ((List.range 640).map pgGcore) ++ ((List.range 320).map pgMatrix) ++ ((List.range 80).map pgClMover) ++
    ((List.range 16).map fun i => pageId 0x0070 i) ++ ((List.range 24).map pgRunner) ++
    ((List.range 2).map pgCxl) ++ [pgSprue] ++ ((List.range 32).map fun i => pageId 0x0071 i)

/-- Those neither fenced nor absent. -/
def State.liveCores (s : State) : List Nat :=
  fwCores.filter fun p => decide (s.service p ≠ 1) && decide (s.service p ≠ 2)

/-- UPD_DISTRIBUTE (R564): the broadcast of the staged images begins. While a bundle is received or written it is refused
BUSY, and without a staged set NOT-STAGED (log entry 155). -/
def execUpdDistribute (c : Cmd) (s : State) : Host.Outcome State Fault Refusal :=
  finish (answered ++ [.update]) s <|
    if !s.turn c then s
    else if !s.partOk 0x0201 c then s.complete 0x0201 c stBADFORMAT
    else if s.updBusy || s.update.begun.isSome then s.complete 0x0201 c stBUSY
    else if !s.update.staged then s.complete 0x0201 c stNOTSTAGED
    else ((s.modUpdate fun u => { u with distribute := some c }).closeCmd c.id none).updState 4

/-- The count of cores not ready and the first one, as RSP DATA and registers carry them. -/
def State.notReady (s : State) (l : List Nat) : State :=
  s.wrs pgBu [(BU_UPD_NOTREADY_COUNT, l.length), (BU_UPD_FIRST_PAGE_ID, l.headD 0)]

/-- DISTRIBUTION_END (R566): the pass and up to three repair rounds have ended; `notReady` are the
cores whose bitmap stayed incomplete. -/
def execDistributionEnd (rounds : Fin 4) (notReady : List Nat) (s : State) :
    Host.Outcome State Fault Refusal :=
  finish (answered ++ [.update]) s <|
    match s.update.distribute with
    | none => s
    | some c =>
      let l := s.liveCores.filter fun p => notReady.contains p
      let s1 := (s.modUpdate fun u => { u with distribute := none, distributed := true, lacking := l }).updState 5
      let s2 := (s1.notReady l).wr pgBu BU_UPD_STATE_ROUND rounds
      (s2.raise pgBu ev_UPD_DISTRIBUTED (le 2 l.length ++ le 1 rounds ++ le 1 0 ++ le 4 (l.headD 0))).completeLate
        0x0201 c (le 2 l.length ++ le 1 rounds ++ le 1 0 ++ le 4 (l.headD 0))

/-! ### Commit (R567 to R570) -/

/-- UPD_COMMIT (R567): the hand-over at slot 4094 of epoch E is armed. -/
def execUpdCommit (c : Cmd) (s : State) : Host.Outcome State Fault Refusal :=
  let e := fieldAt c.args 0x08 8
  let st := firstStatus [
    (s.updBusy, stBUSY), (!s.update.distributed, stNOTSTAGED), (decide (e ≤ s.epoch), stLATE),
    (decide (manSvn s.update.bundle < s.fuse.svn), stROLLBACK)]
  finish (answered ++ [.update]) s <|
    if !s.turn c then s
    else if !s.partOk 0x0202 c then s.complete 0x0202 c stBADFORMAT
    else if st ≠ 0 then s.complete 0x0202 c st
    else (((s.modUpdate fun u => { u with commit := some c, commitE := e, prepared := none, ready := [] }).closeCmd
      c.id none).updState 6).wr pgBu BU_UPD_EPOCH_EPOCH e

/-- A core of `ready` answers READY: it was counted, its inactive bank is complete, and its new image
takes its state record (R568). -/
def State.readyCores (s : State) (ready : List Nat) : List Nat :=
  ready.filter fun p => s.liveCores.contains p && !s.update.lacking.contains p && s.stateOk s.update.bundle

/-- COMMIT_PREPARE (R567): at slot 4088 of E PREPARE is sent to every staged core, and the cores that
write their state record answer READY. -/
def execCommitPrepare (ready : List Nat) (s : State) : Host.Outcome State Fault Refusal :=
  finish [.update] s <|
    if s.update.commit.isSome ∧ s.epoch = s.update.commitE ∧ 4088 ≤ s.slot ∧ s.slot < 4094 ∧
        s.update.prepared = none then
      s.modUpdate fun u => { u with prepared := some s.liveCores, ready := s.readyCores ready }
    else s

/-- The commit is aborted for all cores; the staged banks are kept (R569). -/
def State.abortCommit (s : State) (l : List Nat) : State :=
  match s.update.commit with
  | none => s
  | some c =>
    let s1 := (s.modUpdate fun u => { u with commit := none, prepared := none, ready := [] }).updState 5
    let s2 := (s1.notReady l).bump pgBu BU_UPD_COUNT_ABORTS
    (s2.raise pgBu ev_UPD_ABORTED (le 2 l.length ++ le 2 0 ++ le 4 (l.headD 0))).complete 0x0202 c
      stCOMMITABORTED (le 2 l.length ++ le 2 0 ++ le 4 (l.headD 0))

/-- A seal that a commit ends: the STRICT ones, when MS2 changes (R519). -/
def State.markStrict (s : State) (p : Nat) : State :=
  if s.sealed p && s.on pgMordant MD_PART_STRICT p then s.modTrusted p fun t => { t with strictEnd := true } else s

/-- The seals a commit leaves in force are told of the new MS2 in their rings (R519). -/
def State.tellTcb (s : State) (p : Nat) : State :=
  if s.sealed p && !s.on pgMordant MD_PART_STRICT p then
    let r : EvRec := { stamp := s.time.ticks, source := pgMordant, code := ev_MD_TCB_CHANGE.code, sev := 0, info := slice (s.ms 2) 0 16 }
    s.modTrusted p fun t => { t with ring := t.ring ++ [r] }
  else s

/-- GO (R570): every core switches banks; MS2, the manifest in force and ALIAS2 are new, the RSP is OK
and UPD_COMMITTED is raised. -/
def State.goCommit (s : State) (c : Cmd) : State :=
  let b := s.update.bundle
  let m := b.take (manLength b)
  let s1 := s.modUpdate fun u =>
    { u with commit := none, prepared := none, ready := [], inForce := m, goDone := true }
  let changed := decide (s.ms 2 ≠ sha256 m)
  let s2 := ((s1.setMs 2 (sha256 m)).wr pgMordant MD_SVN_MANIFEST (manSvn m)).newAlias2
  let s3 := if changed then s2.partList.foldl (fun s p => (s.markStrict p).tellTcb p) s2 else s2
  let s4 := (s3.updState 0).wr pgBu BU_UPD_COUNT_COMMITS (s.rd pgBu BU_UPD_COUNT_COMMITS + 1)
  (s4.raise pgBu ev_UPD_COMMITTED (le 8 (manRelease m) ++ le 8 s.update.commitE)).completeLate 0x0202 c
    (le 2 0 ++ le 2 0 ++ le 4 0)

/-- HAND_OVER (R568, R569): at slot 4094 of E, GO when every core counted at PREPARE is READY, else
the commit is aborted; a set below the fused SVN fails with ROLLBACK (Table 15-9). A shutdown drops the commit (R609). -/
def execHandOver (s : State) : Host.Outcome State Fault Refusal :=
  finish (answered ++ [.update]) s <|
    match s.update.commit with
    | none => s
    | some c =>
      if s.epoch = s.update.commitE ∧ s.slot = 4094 ∧ s.health.shutdown.isNone then
        let counted := s.update.prepared.getD []
        let l := counted.filter fun p => !s.update.ready.contains p
        if manSvn s.update.bundle < s.fuse.svn then
          ((s.modUpdate fun u => { u with commit := none, prepared := none, ready := [] }).updState 5).complete 0x0202 c stROLLBACK
        else if s.update.prepared.isSome ∧ l = [] then s.goCommit c else s.abortCommit l
      else s

/-- SELECT_RECORD_WRITE (R570): after GO the select record not in force names the new set; a torn
write leaves the former set to the next start. -/
def execSelectRecordWrite (verified : Bool) (s : State) : Host.Outcome State Fault Refusal :=
  finish (evented ++ [.update]) s <|
    if s.update.goDone && s.health.shutdown.isNone then
      let s1 := (s.modUpdate fun u => { u.writeSelect u.bundle verified with goDone := false }).unstage
      if verified then s1 else s1.writeFail 0x1000000 0
    else s

end Sys2Proof.Machine
end

