-- ==== Sys2Proof/Machine/RegMap.lean ====
section
/-!
DEFINITION. Machine/RegMap.lean: where a control-space offset leads (Table 17-1), the fields at it, and what
they read as: the values that registers show of the rest of the state, and the pages of units out of service
(Table 17-6).
-/

namespace Sys2Proof.Machine

open Sys2Proof

/-! ### The page map (R614 to R616) -/

/-- Where a control-space offset leads: a page and the offset in it, an entry of a table window, or nowhere. -/
inductive Place
  | page (pg o : Nat)
  | memb (i : Nat)
  | shadow (p i : Nat)
  | active (p i : Nat)
  | unmapped
  deriving DecidableEq, Repr

/-- A cluster's window, by the page number in it. -/
def clusterPage (c k : Nat) : Option Nat :=
  if k = 0 then some (pgCluster c)
  else if k ≤ 4 then some (pgMatrix (4 * c + k - 1))
  else if 8 ≤ k ∧ k ≤ 15 then some (pgGcore (8 * c + k - 8))
  else if k = 16 then some (pgClMover c)
  else if 17 ≤ k ∧ k ≤ 19 then some (pgRouter (k - 17) c)
  else none

/-- A Riser's window of memory channels and column groups. -/
def riserPage (n k : Nat) : Option Nat :=
  if k < 32 then some (pgChannel (32 * n + k)) else if k = 32 then some (pgColumns n) else none

/-- A slice's window. -/
def slicePage (n k : Nat) : Option Nat :=
  if k = 0 then some (pgSlice n)
  else if k ≤ 3 then some (pgRouter (k - 1) (80 + n))
  else if k ≤ 7 then some (pgSlMover (4 * n + k - 4))
  else none

/-- A Runner port's window. -/
def runnerPage (q k : Nat) : Option Nat :=
  if k = 0 then some (pgRunner q) else if k ≤ 8 then some (pgLane (8 * q + k - 1)) else none

/-- The page at a control-space offset, by its offset in 4-KiB units (Table 17-1). -/
def pageAt (k : Nat) : Option Nat :=
  if k = 0 then some pgDevice
  else if k = 8 then some pgHall
  else if 0x10000 ≤ k ∧ k < 0x18000 then
    let c := k % 0x1000 / 0x100
    if c < 10 then clusterPage (10 * (k / 0x1000 - 0x10) + c) (k % 0x100) else none
  else if 0x20000 ≤ k ∧ k < 0x20200 then riserPage (k % 0x1000 / 0x40) (k % 0x40)
  else if k = 0x20200 then some pgParting
  else if 0x28000 ≤ k ∧ k < 0x28080 then slicePage (k % 0x1000 / 0x10) (k % 0x10)
  else if 0x30000 ≤ k ∧ k < 0x30180 then runnerPage (k % 0x1000 / 0x10) (k % 0x10)
  else if k = 0x38000 then some pgSprue
  else if k = 0x39000 then some (pgCxl 0)
  else if k = 0x39010 then some (pgCxl 1)
  else if k = 0x3A000 then some pgMordant
  else if k = 0x3B000 then some pgHk
  else if k = 0x3C000 then some pgBu
  else if k = 0x3D000 then some pgHt
  else if k = 0x3E000 then some pgEv
  else none

/-- Where a control-space offset leads. -/
def placeOf (x : Nat) : Place :=
  if 0x100000 ≤ x ∧ x < 0x140000 then .memb ((x - 0x100000) / 4)
  else if 0x200000 ≤ x ∧ x < 0x600000 then
    let p := (x - 0x200000) / 0x80000
    let o := (x - 0x200000) % 0x80000
    if o < 0x40000 then .shadow p (o / 4) else .active p ((o - 0x40000) / 4)
  else match pageAt (x / 4096) with
    | some pg => .page pg (x % 4096)
    | none => .unmapped

/-- The control-space offset of a page's word `o`: its inverse on pages. -/
def offOf (pg o : Nat) : Nat :=
  let n := pgInst pg
  let cl (c k : Nat) := 0x10000000 + c / 10 * 0x01000000 + c % 10 * 0x00100000 + k * 0x1000
  let base := match pgType pg with
    | 0x0001 => 0
    | 0x0002 => 0x8000
    | 0x0010 => cl n 0
    | 0x0011 => cl (n / 4) (1 + n % 4)
    | 0x0012 => cl (n / 8) (8 + n % 8)
    | 0x0013 => cl n 16
    | 0x0014 => cl n 17
    | 0x0015 => cl n 18
    | 0x0016 => cl n 19
    | 0x0020 => 0x20000000 + n / 32 * 0x40000 + n % 32 * 0x1000
    | 0x0021 => 0x20020000 + n * 0x40000
    | 0x0022 => 0x20200000
    | 0x0030 => 0x28000000 + n * 0x10000
    | 0x0031 => 0x28001000 + n * 0x10000
    | 0x0032 => 0x28002000 + n * 0x10000
    | 0x0033 => 0x28003000 + n * 0x10000
    | 0x0034 => 0x28004000 + n / 4 * 0x10000 + n % 4 * 0x1000
    | 0x0040 => 0x30000000 + n * 0x10000
    | 0x0041 => 0x30001000 + n / 8 * 0x10000 + n % 8 * 0x1000
    | 0x0050 => 0x38000000
    | 0x0051 => 0x39000000 + n * 0x10000
    | 0x0060 => 0x3A000000
    | 0x0061 => 0x3B000000
    | 0x0062 => 0x3C000000
    | 0x0063 => 0x3D000000
    | _ => 0x3E000000
  base + o

/-! ### The fields of a page -/

/-- The block registers of a page type (Table 17-2). NW_PL_RESV is a register of the hubs of Risers 1, 3, 4
and 6. -/
def blockFields (pg : Nat) : List Fld :=
  match pgType pg with
  | 0x0002 => Fld.hallFabricPage
  | 0x0010 => Fld.clusterPage
  | 0x0011 => Fld.matrixPage
  | 0x0012 => Fld.gcorePage
  | 0x0013 | 0x0034 => Fld.moverPage
  | 0x0014 => Fld.bulkRouterPage.filter fun F => decide (F ≠ NW_PL_RESV_CYCLES)
  | 0x0031 =>
    Fld.bulkRouterPage.filter fun F => decide (F ≠ NW_PL_RESV_CYCLES) || [1, 3, 4, 6].contains (pgInst pg)
  | 0x0015 | 0x0032 => Fld.ctrlRouterPage
  | 0x0016 | 0x0033 => Fld.syncRouterPage
  | 0x0020 => Fld.channelPage
  | 0x0021 => Fld.colGroupPage
  | 0x0022 => Fld.partingLinkPage
  | 0x0030 => Fld.slicePage
  | 0x0040 => Fld.runnerPage
  | 0x0041 => Fld.lanePage
  | 0x0050 => Fld.spruePage
  | 0x0051 => Fld.cxlPage
  | 0x0060 => Fld.mordantPage
  | 0x0061 => Fld.housekeepingPage
  | 0x0062 => Fld.bringupPage
  | 0x0063 => Fld.hallTimePage
  | 0x0064 => Fld.eventsPage
  | _ => []

/-- The fields of a page: the header, whose FENCE and RESET_REQ are reserved where they do not act (R619,
R621), and the block registers. -/
def pageFields (pg : Nat) : List Fld :=
  (Fld.headerPage.filter fun F =>
    (decide (F ≠ PAGE_CTRL_FENCE) || fenceable pg) && (decide (F ≠ PAGE_CTRL_RESET_REQ) || resettable pg)) ++
    blockFields pg

/-- The instance of field `F` whose register lies at page offset `o`. -/
def Fld.instAt (F : Fld) (o : Nat) : Option Nat :=
  let i := (o - F.off) / F.stride
  if F.off ≤ o ∧ i < F.count ∧ F.at i = o then some i else none

/-- The fields at page offset `o`, each with its instance. -/
def cellsAt (pg o : Nat) : List (Fld × Nat) :=
  (pageFields pg).filterMap fun F => (F.instAt o).map fun i => (F, i)

/-- PAGE_CAP.EXTENT: the offset of the highest block register, in words. -/
def extentOf (pg : Nat) : Nat := (blockFields pg).foldl (fun m F => max m (F.at (F.count - 1) / 4)) 0

/-- The access code of a field on a page: ENABLE is read-only where the page is not FENCEABLE (R619). -/
def accOf (pg : Nat) (F : Fld) : Acc := if F = PAGE_CTRL_ENABLE ∧ !fenceable pg then .ro else F.acc

/-! ### What registers show of the rest of the state -/

/-- The router of a router page. -/
def routerPage (pg : Nat) : Nat := if pgType pg < 0x0020 then pgInst pg else 80 + pgInst pg

/-- The pages of a sealed partition (R515). -/
def State.sealedPage (s : State) (pg : Nat) : Bool :=
  match riserOf pg with
  | some r => s.sealed (s.partOfRiser r)
  | none => false

/-- LOCK.OWNER (R622): 1 Mordant, in Decommissioned on every page, and on a CXL port assigned to a sealed
partition; 2 the owner of a sealed partition. -/
def State.lockOwner (s : State) (pg : Nat) : Nat :=
  if s.fuse.life = .decommissioned then 1
  else if pgType pg = 0x0051 then (if (s.cxOwner (pgInst pg)).any s.sealed then 1 else 0)
  else if s.sealedPage pg then 2
  else 0

/-- PARTITION and PART_VALID of PAGE_STAT (R630), a port's assignment in force. -/
def State.pagePart (s : State) (pg : Nat) : Nat × Nat :=
  let n := pgInst pg
  let port (w : Nat) := (w % 8, w / 8)
  match pgType pg with
  | 0x0040 => port (s.portWord n pgBu PT_RN_ASSIGN_PART PT_RN_ASSIGN_VALID n)
  | 0x0041 => port (s.portWord (n / 8) pgBu PT_RN_ASSIGN_PART PT_RN_ASSIGN_VALID (n / 8))
  | 0x0051 => port (s.portWord (24 + n) pgBu PT_CX_ASSIGN_PART PT_CX_ASSIGN_VALID n)
  | _ => match riserOf pg with
    | some r => (s.partOfRiser r, 1)
    | none => (0, 0)

/-- The fuses have been sensed (stage 0), the Ledger read (stage 1): until then what they give reads zero
(R626). -/
def State.fused (s : State) (v : Nat) : Nat := if 1 ≤ s.boot.next then v else 0
def State.fromLedger (s : State) (v : Nat) : Nat := if 2 ≤ s.boot.next then v else 0

/-- Table 17-4. -/
def State.typeCap (s : State) : Nat :=
  s.fused s.fuse.variant + 4 * s.fused s.fuse.life.code + 16 * s.rd pgBu PT_CONFIG_ACTIVE +
    64 * (decide (s.time.state = .locked)).toNat + 128 * (s.on pgBu BU_REDUCED_DIES).toNat +
    256 * (decide (12 ≤ s.boot.next)).toNat

/-- The stepping code of the die that holds a page's block. -/
def State.stepping (s : State) (pg : Nat) : Nat :=
  match clusterOf pg with
  | some c => s.rd pgBu BU_DIE_REV_STEPPING (c / 10)
  | none => s.rd pgBu BU_BASE_REV_STEPPING

/-- Header fields that show other state. -/
def State.liveHeader (s : State) (pg : Nat) : List (Fld × Nat) :=
  let own := s.lockOwner pg
  let part := s.pagePart pg
  [(PAGE_ID_INSTANCE, pgInst pg), (PAGE_ID_TYPE, pgType pg), (PAGE_REV_STEPPING, s.stepping pg),
   (PAGE_REV_LEVEL, s.rd pgBu BU_LEVEL_LEVEL), (PAGE_CAP_EXTENT, extentOf pg),
   (PAGE_CAP_FENCEABLE, (fenceable pg).toNat), (PAGE_CAP_RESETTABLE, (resettable pg).toNat),
   (PAGE_CAP_TYPE_CAP, if pg = pgDevice then s.typeCap else 0), (PAGE_STAT_PARTITION, part.1),
   (PAGE_STAT_PART_VALID, part.2), (PAGE_STAT_SEALED, (s.sealedPage pg).toNat),
   (PAGE_STAT_LOCKED, (decide (own ≠ 0)).toNat), (PAGE_STAT_QUEUE, (s.queue pg).length), (LOCK_OWNER, own)]

/-- The state code of a sequencer (MX_SEQ_STATE, MV_STATUS); `busy`: an instruction is under way. One that is armed by RELEASE, or DONE,
which behaves as HELD (R68), is held, where its program has not come to its end (DEDUCED, log entry 163). -/
def State.seqCode (s : State) (p : Nat) (prog out busy : Bool) (q : Seq) : Nat :=
  if out then 7
  else if !prog then 0
  else if (s.part p).run = .held ∨ ((s.part p).run = .armed ∧ (s.part p).armOp = 0x0004) then 6
  else if (s.part p).run = .done then (if q.ended then 5 else 6)
  else if !s.playing p then 0
  else if q.ended then 5
  else if q.wait.isSome then 4
  else if q.hazard.any (fun to_ => to_.all fun t => decide (s.cycles < t)) then 3
  else if busy then 2
  else 1

/-- The row step of a TMM that streams in cycle `c`: the last one, which has not ended, or the next one, which starts now. -/
def TRun.streaming (r : TRun) (p : Plan) (c : Nat) : Option Nat :=
  if 0 < r.step ∧ c < r.start + p.offset (r.step - 1) + r.stall + p.rho then some (r.step - 1)
  else if r.step < p.steps ∧ !r.waits ∧ r.start + p.offset r.step + r.stall = c then some r.step
  else none

/-- A matrix core (Tables 3-5, 5-17). MX_WBUF.BYTES counts 64 for every sector of the weight stream buffer written since POUR, those
already read included, since a row may stream again (DESIGN CHOICE, log entry 125). After TEND MX_SEQ_PC shows the number of
instructions (DEDUCED, log entry 163). -/
def State.liveMatrix (s : State) (m : Nat) : List (Fld × Nat) :=
  let pg := pgMatrix m
  let c := s.mx m
  let b := s.mxProg m
  let now := s.cycles
  let runs := match c.run with
    | some r => let p := planFor b r.word; (r.streaming p now).map p.arraysIn
    | none => none
  [(MX_STATUS_STATE, if s.out pg then 3 else if runs.isSome then 1
      else if c.run.isSome ∨ c.out.isSome ∨ now < c.fillTo then 2 else 0),
   (MX_STATUS_ARRAYS, ((runs.getD []).map fun a => 2 ^ a).sum),
   (MX_STATUS_SHADOW_FULL, match c.shadowAt with | some x => (decide (x ≤ now)).toNat | none => 0),
   (MX_WBUF_BYTES, 64 * (c.ring.filter fun e => e.2.any fun a => decide (a.cycle < now)).length),
   (MX_SEQ_STATE_STATE, s.seqCode (s.mxPart m) (!b.isEmpty) (s.out pg)
      (c.run.isSome || c.out.isSome || decide (now < c.seq.free)) c.seq),
   (MX_SEQ_PC_PC, c.seq.pc), (MX_SEQ_SIZE_INSTR, tsInstrs b), (MX_SEQ_SIZE_TREC, tsTrecs b),
   (MX_SEQ_SIZE2_DESC, tsDescs b), (MX_SEQ_SIZE2_MASK, tsMasks b)]

/-- A general core (Table 6-9). -/
def State.liveGcore (s : State) (g : Nat) : List (Fld × Nat) :=
  let u := s.gc g
  let p := s.gcPart g
  let prog := !(s.gcProg g).isEmpty && (s.playing p || decide ((s.part p).run = .held))
  let st :=
    if s.out (pgGcore g) then 7
    else if !prog then 0
    else if u.stopped ∨ (s.part p).run = .held then 6
    else if u.suspended then 5
    else if u.htwait.isSome ∨ u.syncwait.isSome then 4
    else if u.inWindow && !u.patrol then (if u.wfi then 3 else 2)
    else 1
  let rest := decide ((s.part p).run = .idle ∨ (s.part p).run = .held ∨ (s.part p).run = .done)
  let patrol := (u.patrol || rest) && !s.out (pgGcore g) && s.on (pgCluster (g / 8)) CL_PATROL_CNT_COUNT
  [(GC_STATUS_STATE, st), (GC_STATUS_PRIV, if u.inWindow && !u.patrol && !u.stopped then 0 else 1),
   (GC_STATUS_PSLOT, (s.part p).active), (GC_STATUS_PATROL, patrol.toNat),
   (GC_PC_LO_PC, u.pc % 2 ^ 32), (GC_PC_HI_PC, u.pc / 2 ^ 32), (GC_WIN_INDEX, u.win),
   (GC_RET_LO_COUNT, u.retired % 2 ^ 32), (GC_RET_HI_COUNT, u.retired / 2 ^ 32)]

/-- A mover (Table 7-13). -/
def State.liveMover (s : State) (m : Nat) : List (Fld × Nat) :=
  let u := s.mover m
  let b := s.mvProg m
  [(MV_STATUS_STATE, s.seqCode (s.mvPart m) (!b.isEmpty) (s.out (pgMover m)) u.xfer.isSome u.seq),
   (MV_STATUS_OUTSTANDING, s.mvOut m), (MV_PC_PC, u.seq.pc)]

/-- A cluster (Table 6-8). -/
def State.liveCluster (s : State) (c : Nat) : List (Fld × Nat) :=
  let v := s.service (pgCluster c)
  [(CL_STATUS_STATE, if v = 0 then 0 else if v = 3 then 2 else 1),
   (CL_STATUS_REDUCED, ((clusterPages c).any fun pg => decide (s.service pg = 2)).toNat)]

/-- A router (Tables 7-10 and 7-12). -/
def State.liveRouter (s : State) (pg i : Nat) : List (Fld × Nat) :=
  let r := routerPage pg
  match pgType pg with
  | 0x0014 | 0x0031 =>
    [(NW_BSTAT_LOCAL_FENCED, ((decide (r < 80) && s.out (pgCluster r)) || (List.range 24).any fun p => (portMover r p).any fun m => s.out (pgMover m)).toNat),
     (NW_BPROG_ENTRIES, ((s.routerSect r).map fun b => fieldAt b 0 4).getD 0)]
  | 0x0016 | 0x0033 =>
    [(NW_SFLAG_LO_VALUE, s.flag r i % 2 ^ 32), (NW_SFLAG_HI_VALUE, s.flag r i / 2 ^ 32)]
  | _ => []

/-- A memory channel (Table 8-7). -/
def State.liveChannel (s : State) (c : Nat) : List (Fld × Nat) :=
  [(MC_TNR_QUEUE, (s.chan c).tnr.length), (MC_POISON_ENTRIES, (s.poisonEntries c).length),
   (MC_PROG_ENTRIES, ((s.sect 4 (c / 32) (c % 32)).map fun b => fieldAt b 0 4).getD 0)]

/-- Crossing pages (Table 8-8). -/
def State.liveColumns (s : State) (n : Nat) : List (Fld × Nat) :=
  let g := s.rd (pgColumns n) MC_XG_SEL_GROUP
  let w : Wires := aget {} s.wires (32 * n + g)
  [(MC_XG_INFO_SPARES, w.spares), (MC_XG_INFO_HALF_UPPER, w.upper.toNat), (MC_XG_INFO_MARGIN, w.margin),
   (MC_XG_INFO_PARITY, w.parity)]
def State.liveParting (s : State) : List (Fld × Nat) :=
  [(MC_PL_SPARES_CD, (aget {} s.wires 256).spares), (MC_PL_SPARES_DC, (aget {} s.wires 257).spares)]

/-- A slice (Table 9-6). -/
def State.liveSlice (s : State) (n : Nat) : List (Fld × Nat) :=
  let u := s.sl n
  [(SB_STATUS_STATE, if s.out (pgSlice n) then 3 else if u.newRegions.isSome then 2
      else if s.on (pgSlice n) SB_CACHE_CTRL_FLUSH then 1 else 0),
   (SB_STATUS_PARTITION, s.partOfRiser n),
   (SB_STATUS_REBUILD_HOME, (decide (s.firstRiser (s.partOfRiser n) = n)).toNat),
   (SB_DIRTY_SECTORS, s.dirtyCount n)] ++
  (if s.firstRiser (s.partOfRiser n) = n then [(SB_CHK_SUSPECT_QUEUE, u.suspects.length)]
    else [(SB_CHK_SUSPECT_COUNT, 0), (SB_CHK_SUSPECT_QUEUE, 0), (SB_CHK_REBUILT_BLOCKS, 0), (SB_CHK_REBUILT_ENTRY_FIXED, 0), (SB_CHK_LOST_BLOCKS, 0),
      (SB_CHK_LOST_TRANSIENT, 0)])

/-- A Runner lane (Table 10-9): the count at the selected point of the last complete grid, points numbered as in
`gridMargins`. -/
def State.liveLane (s : State) (l : Nat) : List (Fld × Nat) :=
  let pg := pgLane l
  let point := (s.rd pg RN_EYE_SEL_PHASE + 32) % 64 * 64 + (s.rd pg RN_EYE_SEL_VOLT + 32) % 64
  let grid := aget [] (s.port (l / 8)).grids (4 * (l % 8) + s.rd pg RN_EYE_SEL_EYE)
  [(RN_EYE_COUNT_ERRORS, aget 0 grid point)]

/-- The hall fabric (Table 11-14). -/
def State.liveHall (s : State) : List (Fld × Nat) :=
  let h := s.hall
  let mask (l : List Nat) := maskOf 8 fun p => l.contains p
  [(NW_HPKG_PKG, h.newPkg.getD (s.rd pgHall NW_HPKG_PKG)), (NW_HMEMB_STAT_QUEUED, h.staged.length),
   (NW_HRT_SWAP_PARTS, mask (h.swaps.map fun e => e.1)), (NW_HRT_COPY_PARTS, mask (h.copies.map fun e => e.1)),
   (NW_HOUT_REQS, (h.reqs.filter fun e => e.2.remote.isSome).length)]

/-- The Sprue port (Table 12-12). -/
def State.liveSprue (s : State) : List (Fld × Nat) :=
  let u := s.sprue
  [(SP_STATUS_VLAS_OK, u.vlas.toNat), (SP_INTAKE_QUEUED, u.intake.length),
   (SP_TXQ_FRAMES, min 511 (u.tx.length + u.dmaOut.length)), (SP_SEQ_RX_SEQ, u.rxSeq.getD 0),
   (SP_SEQ_TX_SEQ, u.sentSeq), (SP_RELAY_SEQ_SEQ, u.relaySeq.getD 0),
   (SP_BULK_STREAMS, u.streams.length), (SP_DMA_READS, u.reads.length)]

/-- Events and the Ledger (Tables 12-13, 16-15). -/
def State.liveEvents (s : State) : List (Fld × Nat) :=
  let l := s.ledger
  [(LG_STATUS_BUSY, (decide (s.rd pgBu BU_UPD_STATE_STATE = 2)).toNat), (LG_SHUT_FREE, l.erased),
   (LG_SHUT_PENDING, l.pending.length), (LG_SHUT_SEQ_LO_SEQ, l.oldest % 2 ^ 32),
   (LG_SHUT_SEQ_HI_SEQ, l.oldest / 2 ^ 32), (LG_AGE_SEQ_SEQ, ((l.ageing.getLast?).map Age.seq).getD 0),
   (LG_AGE_FILL_RECORDS, l.ageing.length), (LG_WEAR_MAX_ERASE, l.wear.foldl (fun m e => max m e.2) 0)]

/-- Mordant (Table 13-9); word 0 of a hash holds its first four bytes. -/
def State.liveMordant (s : State) (i : Nat) : List (Fld × Nat) :=
  let t := s.trusted i
  [(MD_STATUS_LIFECYCLE, s.fused s.fuse.life.code),
   (MD_STATUS_ALIAS_OK, (s.mordant.keyed && !s.tcbPending).toNat), (MD_SVN_FUSED, s.fused s.fuse.svn),
   (MD_PART_SESSION, t.session.isSome.toNat), (MD_PART_PATKEY, t.patKey.isSome.toNat), (MD_PART_LOG, t.log.length),
   (MD_OPHASH_HASH, s.fromLedger (fieldAt s.ledger.opHash (4 * i) 4)), (MD_SLOT_VALUE, fieldAt (s.ms (i / 8)) (4 * (i % 8)) 4)]

/-- The reset that BU_RESET shows: the broadest that drains or runs. -/
def State.resetNow (s : State) : Option Reset :=
  (s.resets.filter fun r => decide (r.phase ≠ .requested)).foldl
    (fun m r => match m with | none => some r | some x => if x.scope < r.scope then some r else m) none

/-- Bring-up and update (Tables 14-8, 15-10, 18-11). -/
def State.liveBringup (s : State) : List (Fld × Nat) :=
  let r := s.resetNow
  let edges (p : Pin) := min 1023 (s.edgesKept p).length
  [(BU_START_COUNT, s.fromLedger s.ledger.starts), (BU_DEFECTS_LISTED, s.ledger.defects.length),
   (BU_RESET_SCOPE, (r.map Reset.scope).getD 7),
   (BU_RESET_DRAINING, (r.any fun x => decide (x.phase = .draining)).toNat),
   (BU_BASE_REV_STEPPING, s.fused s.fuse.baseStepping),
   (BU_UPD_STATE_SET, s.fromLedger s.update.setInForce), (BU_PIN_TOGGLE_RESET_N, edges .resetN),
   (BU_PIN_TOGGLE_PWR_GOOD, edges .pwrGood), (BU_PIN_TOGGLE_HOLD_N, edges .holdN)]

/-- Housekeeping (Table 16-14). -/
def State.liveHk (s : State) : List (Fld × Nat) :=
  [(HK_STATUS_ROUND, s.health.roundOn.toNat), (HK_HOURS_HOURS, s.fromLedger s.ledger.hours),
   (PD_LIMIT_W, s.fused s.powerLimit), (PD_CEIL_CODE, s.fused s.ceiling)]

/-- Hall Time (Table 2-12). -/
def State.liveTime (s : State) (i : Nat) : List (Fld × Nat) :=
  let q := s.part i
  [(HT_NOW_LO_TICKS, s.time.ticks % 2 ^ 32), (HT_NOW_HI_TICKS, s.time.ticks / 2 ^ 32), (HT_POS_TICK, s.tick),
   (HT_POS_SLOT, s.slot), (HT_POS_CYCLE, s.cycle), (HT_STATE_STATE, s.time.state.code), (HT_STATE_HOLD_MS, s.holdMs),
   (HT_XCHK_LOCKED_NB, min 31 s.neighbours.length), (HT_XCHK_DIVERGED, min 31 s.diverged.length),
   (HT_PSTATE_RUN, q.run.code), (HT_PSTATE_ACTIVE_SLOT, q.active), (HT_PSTATE_SLOT0, q.slot0.st.code),
   (HT_PSTATE_SLOT1, q.slot1.st.code), (HT_PEPOCH_REL, q.rel.getD 0)]

/-- Block fields that show other state, for instance `i` of a repeated register. -/
def State.liveBlock (s : State) (pg i : Nat) : List (Fld × Nat) :=
  let n := pgInst pg
  match pgType pg with
  | 0x0002 => s.liveHall
  | 0x0010 => s.liveCluster n
  | 0x0011 => s.liveMatrix n
  | 0x0012 => s.liveGcore n
  | 0x0013 => s.liveMover n
  | 0x0034 => s.liveMover (80 + n)
  | 0x0014 | 0x0031 | 0x0016 | 0x0033 => s.liveRouter pg i
  | 0x0020 => s.liveChannel n
  | 0x0021 => s.liveColumns n
  | 0x0022 => s.liveParting
  | 0x0030 => s.liveSlice n
  | 0x0041 => s.liveLane n
  | 0x0050 => s.liveSprue
  | 0x0060 => s.liveMordant i
  | 0x0061 => s.liveHk
  | 0x0062 => s.liveBringup
  | 0x0063 => s.liveTime i
  | 0x0064 => s.liveEvents
  | _ => []

/-- The value a field holds, wherever the state keeps it. -/
def State.current (s : State) (pg : Nat) (F : Fld) (i : Nat) : Nat :=
  match (if F.off < 0x040 then s.liveHeader pg else s.liveBlock pg i).lookup F with
  | some v => v % 2 ^ F.width
  | none => s.rd pg F i

/-- The code by which a state field shows a unit out of service as fenced (Table 17-6). -/
def fencedCode : List (Fld × Nat) :=
  [(MX_STATUS_STATE, 3), (MX_SEQ_STATE_STATE, 7), (GC_STATUS_STATE, 7), (MV_STATUS_STATE, 7), (CL_STATUS_STATE, 1),
   (SB_STATUS_STATE, 3)]

/-- The instance under which a cycle's happenings to a field are noted: MC_XG_INFO shows the group that MC_XG_SEL names. -/
def State.hotInst (s : State) (pg : Nat) (F : Fld) (i : Nat) : Nat :=
  if F = MC_XG_INFO_PARITY then s.rd pg MC_XG_SEL_GROUP else i

/-- What a field reads as (Table 17-6): an RC field that an event updated in this cycle reads as before it (R15); block registers of an absent unit read their reset values, the state
field showing fenced, those of a unit in reset their reset values, CL_STATUS showing in reset. -/
def State.shown (s : State) (pg : Nat) (F : Fld) (i : Nat) : Nat :=
  if F.acc = .wo then 0
  else if F.off < 0x040 ∨ s.service pg < 2 then
    if F.acc = .rc then (aget (s.current pg F i, 0) s.hot (fkey pg F (s.hotInst pg F i))).1 else s.current pg F i
  else if s.service pg = 2 then (fencedCode.lookup F).getD (F.resetAt i)
  else if F = CL_STATUS_STATE then 2 else F.resetAt i

/-- The 32-bit word at page offset `o`. -/
def State.regWord (s : State) (pg o : Nat) : Nat :=
  (cellsAt pg o).foldl (fun w e => w + s.shown pg e.1 e.2 * 2 ^ e.1.lo) 0

end Sys2Proof.Machine
end

