-- ==== Sys2Proof/Machine/RegAccess.lean ====
section
/-!
DEFINITION. Machine/RegAccess.lean: a 32-bit read and a 32-bit write of control space (R404, R515, R615 to
R617, R621 to R632), whichever path brings them: rights, refusals, access codes, and what the registers with
behaviour of their own do.
-/

namespace Sys2Proof.Machine

open Sys2Proof

/-! ### Who may reach what (R404, R515) -/

/-- The access as a request of `src`, for R403 and R404. -/
def regReq (src : Nat) (write : Bool) (x : Nat) : Req :=
  { src := src, cls := classOf src, op := if write then 0x31 else 0x30, addr := 0xFFFF * 2 ^ 48 + 0x014000000000 + x, len := 4
    machine := true }

/-- The status that stops an access before it reaches a place: alignment and rights. -/
def reachStatus (src x : Nat) : Nat :=
  if x % 4 ≠ 0 then xMISALIGNED else if ctrlAllowed x (regReq src false x) then 0 else xREGIONDENIED

/-- Sprue and the management cores find the page sealed (R515). -/
def State.closedTo (s : State) (src pg : Nat) : Bool :=
  s.sealedPage pg && [0x0050, 0x0070].contains (pgType src)

/-! ### Latches (R628, R629) -/

def latchKey (src pg o : Nat) : Nat := (src * 2 ^ 32 + pg) * 4096 + o
def State.latch (s : State) (src pg o : Nat) : Option Nat :=
  match aget 0 s.latches (latchKey src pg o) with | 0 => none | v + 1 => some v
def State.setLatch (s : State) (src pg o : Nat) (v : Option Nat) : State :=
  { s with latches := aset 0 s.latches (latchKey src pg o) (match v with | some x => x + 1 | none => 0) }

/-- The companions that a read of the word at `o` latches. -/
def companions (pg o : Nat) : List Nat :=
  match pgType pg with
  | 0x0063 => if o = 0x040 then [0x044, 0x048] else []
  | 0x0011 => if o = 0x060 then [0x064] else []
  | 0x0012 => if o = 0x044 ∨ o = 0x05C ∨ o = 0x064 then [o + 4] else []
  | 0x0013 | 0x0034 => if o = 0x05C then [0x060] else []
  | 0x0016 | 0x0033 => if 0x800 ≤ o ∧ o % 8 = 0 then [o + 4] else []
  | 0x0062 => if o = 0x214 then [0x218] else []
  | 0x0064 => if o = 0x108 then [0x10C] else []
  | _ => []

/-- The words that are companions. -/
def isCompanion (pg o : Nat) : Bool := (companions pg (o - 4)).contains o || (companions pg (o - 8)).contains o

/-! ### Reading -/

/-- A field's RC clear after a read (R14): what the field gained in this cycle is kept (R15); a unit out of service for good shows
no counter to clear. -/
def State.readClear (s : State) (pg : Nat) (e : Fld × Nat) : State :=
  let k := fkey pg e.1 (s.hotInst pg e.1 e.2)
  let keep := (aget (0, 0) s.hot k).2
  let t := { s with hot := s.hot.map fun (h : Nat × Nat × Nat) => if h.1 = k then (k, 0, keep) else h }
  if e.1.acc ≠ .rc ∨ (0x040 ≤ e.1.off ∧ 2 ≤ s.service pg) then s
  else if e.1 = MC_XG_INFO_PARITY then
    { t with wires := aupd {} s.wires (32 * pgInst pg + s.rd pg MC_XG_SEL_GROUP) fun w => { w with parity := keep } }
  else t.wr pg e.1 keep e.2

/-- A read of page `pg` at `o` by `src`: its value, and the state after. -/
def State.readPage (s : State) (src pg o : Nat) : Nat × State :=
  let v := match (if isCompanion pg o then s.latch src pg o else none) with
    | some x => x
    | none => s.regWord pg o
  let s1 := (companions pg o).foldl (fun t c => t.setLatch src pg c (some (s.regWord pg c))) s
  (v, (cellsAt pg o).foldl (fun t e => t.readClear pg e) s1)

/-- A read of control-space offset `x` by `src`: status, value, and the state after. -/
def State.readWord (s : State) (src x : Nat) : Nat × Nat × State :=
  let st := reachStatus src x
  if st ≠ 0 then (st, 0, s)
  else match placeOf x with
    | .unmapped => (xUNMAPPED, 0, s.countStatus (regReq src false x) xUNMAPPED)
    | .memb i => (0, s.membWord i, s)
    | .shadow p i => (0, aget 0 s.hall.shadow (p * 65536 + i), s)
    | .active p i => (0, aget 0 s.hall.routes (p * 65536 + i), s)
    | .page pg o =>
      if s.closedTo src pg ∧ ¬[0x000, 0x004, 0x008, 0x010].contains o then (xSEALED, 0, s)
      else
        let r := s.readPage src pg o
        (0, r.1, r.2)

/-! ### Refusing a write (R615, R623, R624) -/

/-- A refused write is counted and recorded on page `pg`. -/
def State.noteRefused (s : State) (src pg o cause : Nat) : State :=
  (s.bump pg ERR_CNT_REFUSED).wrs pg [(ERR_INFO_OFFSET, o), (ERR_INFO_CAUSE, cause), (ERR_INFO_SRC, pgType src)]

/-- The status of a refused write of a page (R624). -/
def State.refusedStatus (s : State) (pg : Nat) : Nat :=
  if s.sealedPage pg then xSEALED
  else if s.service pg = 3 then xRESETABORT
  else if s.service pg ≠ 0 then xFENCED
  else xREGIONDENIED

/-! ### Conditions of the fields (R28 to R30, R322, R401, R420, R425, R552) -/

/-- Every partition is HELD, IDLE or DONE; partitions are IDLE during start-up. -/
def State.allRest (s : State) : Bool := s.partList.all s.atRest

/-- Partition `p` of `count` holds a Riser on half `h` (R29). -/
def onHalf (count p h : Nat) : Bool :=
  let z := 8 / count
  decide (p < count) && ((List.range 8).any fun r => decide (r / z = p ∧ r / 4 = h))

/-- The count that PT_CONFIG asks for. -/
def State.askedCount (s : State) : Nat := 2 ^ s.rd pgBu PT_CONFIG_COUNT

/-- An assignment write is within R29 and R30: `old` the owner in force, `h` the port's half. -/
def State.assignOk (s : State) (old : Option Nat) (h w : Nat) : Bool :=
  (match old with | some p => s.atRest p | none => true) &&
    (if bit w 3 then onHalf s.askedCount (w % 8) h && s.atRest (w % 8) else true)

/-- No request to another package is outstanding (R401). -/
def State.noRemote (s : State) : Bool := s.hall.reqs.all fun e => !e.2.away s

/-- The epoch that TAG names, counted from the current one (R420). -/
def State.tagAhead (s : State) (tag : Nat) : Nat := (tag + 2 ^ 30 - s.epoch % 2 ^ 30) % 2 ^ 30

/-- Table 11-7. -/
def membMove (a b : Nat) : Bool :=
  match a, b with
  | 0, 1 | 0, 2 | 1, 0 | 1, 2 | 2, 0 | 2, 3 | 3, 0 => true
  | _, _ => false

/-- The latest staged state of a package, or its active one. -/
def State.lastMemb (s : State) (P : Nat) : Nat :=
  match (s.hall.staged.filter fun e => decide (e.1 = P)).getLast? with
  | some e => e.2.1 % 4
  | none => s.membState P

/-- A staging is accepted (R420). -/
def State.stageOk (s : State) (tag : Nat) : Bool :=
  let P := s.rd pgHall NW_HMEMB_STAGE_LO_PKG
  let d := s.tagAhead tag
  let e := s.epoch + d
  decide ((if 4092 ≤ s.slot then 2 else 1) ≤ d ∧ d ≤ 2 ^ 20) &&
    membMove (s.lastMemb P) (s.rd pgHall NW_HMEMB_STAGE_LO_STATE) &&
    (s.hall.staged.all fun x => decide (x.1 ≠ P ∨ x.2.2 < e)) && decide (s.hall.staged.length < 1024)

/-- The epoch that NW_HRT_EPOCH names: the first after the current one with those low bits. -/
def State.swapEpoch (s : State) : Nat :=
  let d := (s.rd pgHall NW_HRT_EPOCH_EPOCH + 2 ^ 32 - s.epoch % 2 ^ 32) % 2 ^ 32
  s.epoch + (if d = 0 then 2 ^ 32 else d)

/-- The exchange may be requested for the partitions of `mask` (R425). -/
def State.swapOk (s : State) (mask : Nat) : Bool :=
  decide (s.swapEpoch ≠ s.epoch + 1 ∨ s.slot ≤ 4091) &&
    ((List.range 8).all fun p => !bit mask p || !(s.hall.copies.any fun e => decide (e.1 = p)))

/-- The sizes of an SB_REGIONS word are within R322, and its partition is at rest or start-up has not ended. -/
def State.regionsOk (s : State) (n w : Nat) : Bool :=
  let S := w % 128
  let A := w / 2 ^ 8 % 128
  let R := w / 2 ^ 16 % 128
  (decide (s.boot.next < 12) || s.atRest (s.partOfRiser n)) && decide (S + A ≤ 96 ∧ R ≤ A)

/-! ### Resets asked for by PAGE_CTRL (R621) -/

/-- The reset that RESET_REQ of a page asks for. -/
def resetOfPage (pg : Nat) : Reset :=
  let n := pgInst pg
  match pgType pg with
  | 0x0011 => { scope := 0, riser := n / 40, cluster := n / 4 % 10, kind := 0, unit := n % 4 }
  | 0x0012 => { scope := 0, riser := n / 80, cluster := n / 8 % 10, kind := 1, unit := n % 8 }
  | 0x0013 => { scope := 0, riser := n / 10, cluster := n % 10, kind := 2 }
  | _ => { scope := 1, riser := n / 10, cluster := n % 10 }

/-- The page of a CORE or CLUSTER reset's target. -/
def Reset.page (r : Reset) : Nat :=
  let c := 10 * r.riser + r.cluster
  if r.scope = 1 then pgCluster c
  else match r.kind with
    | 0 => pgMatrix (4 * c + r.unit)
    | 1 => pgGcore (8 * c + r.unit)
    | _ => pgClMover c

/-- The Risers a reset reaches. -/
def State.resetRisers (s : State) (r : Reset) : List Nat :=
  if r.scope ≤ 1 then [r.riser] else if r.scope = 2 then s.risersOf r.part else List.range 8

/-- The scopes of two resets overlap. -/
def State.resetsMeet (s : State) (a b : Reset) : Bool :=
  if a.scope ≤ 1 ∧ b.scope ≤ 1 then
    decide (a.riser = b.riser ∧ a.cluster = b.cluster) &&
      (decide (a.scope = 1 ∨ b.scope = 1) || decide (a.kind = b.kind ∧ a.unit = b.unit))
  else (s.resetRisers a).any fun x => (s.resetRisers b).contains x

/-- A reset acts from the next slot (R544). -/
def State.addReset (s : State) (r : Reset) : State :=
  { s with resets := s.resets ++ [{ r with at_ := s.time.slots + 1 }] }

/-! ### Judging a write (R622, R623) -/

/-- The bits of word `w` that field `F` takes. -/
def Fld.of (F : Fld) (w : Nat) : Nat := w / 2 ^ F.lo % 2 ^ F.width

/-- The field is locked for this writer; `own`: the partition whose session writes (R508, R622). -/
def State.lockedFor (s : State) (own : Option Nat) (pg : Nat) (F : Fld) : Bool :=
  match s.lockOwner pg with
  | 0 => false
  | 1 =>
    if s.fuse.life = .decommissioned then decide (accOf pg F = .rwl)
    else decide (0x080 ≤ F.off) && [0, 4].contains (F.off % 16)
  | _ => decide (accOf pg F = .rwl) && decide (own = none ∨ own ≠ s.ownerOf pg)

/-- The word would change the field. -/
def State.changes (s : State) (pg w : Nat) (e : Fld × Nat) : Bool :=
  let v := e.1.of w
  let old := s.current pg e.1 e.2
  match accOf pg e.1 with
  | .rw | .rwl => decide (v ≠ old)
  | .w1c => decide (v &&& old ≠ 0)
  | .w1s => decide (v &&& old ≠ v)
  | .wo => decide (e.1 = NW_HMEMB_STAGE_HI_TAG ∨ v ≠ 0)
  | _ => false

/-- The values of a field that are within its range (CAUSE 3). -/
def inRangeOf (F : Fld) (v : Nat) : Bool :=
  if F = CL_PATROL_LO_ADDR then decide (v % 64 = 0)
  else if F = CL_PATROL_CNT_COUNT then decide (v ≤ 1024)
  else if F = NW_SREMOTE_HOME then decide (1 ≤ v ∧ v ≤ 0x87)
  else if F = MC_ACT_TH_TH then decide (256 ≤ v ∧ v ≤ 8192)
  else if F = SB_REGIONS_RED_FMT then decide (v ≠ 3)
  else if F = SB_CACHE_CTRL_RET_WAYS then decide (v ≤ 4)
  else if F = RN_PCTRL_MAX_RATE then decide (v ≤ 4)
  else if F = RN_EYE_CTRL_DWELL then decide (16 ≤ v ∧ v ≤ 27)
  else if F = EV_RING_SIZE_LOG2 then decide (7 ≤ v ∧ v ≤ 19)
  else if F.off = CX_DEC_CTRL_WAYS.off ∧ F = CX_DEC_CTRL_WAYS then decide (v ≠ 3)
  else if F = CX_DEC_CTRL_IG then decide (v ≤ 6)
  else true

/-- The change is within the conditions that a rule sets for the field (CAUSE 2). -/
def State.allows (s : State) (pg w : Nat) (e : Fld × Nat) : Bool :=
  let F := e.1
  let i := e.2
  if F = PAGE_CTRL_RESET_REQ then
    !(s.resets.any fun r => decide (r.phase ≠ .requested) && s.resetsMeet r (resetOfPage pg))
  else if F = PT_CONFIG_COUNT ∨ F = PT_SEED_SEED then s.allRest
  else if F = PT_RN_ASSIGN_PART ∨ F = PT_RN_ASSIGN_VALID then s.assignOk (s.rnOwner i) (i / 12) w
  else if F = PT_CX_ASSIGN_PART ∨ F = PT_CX_ASSIGN_VALID then s.assignOk (s.cxOwner i) i w
  else if F.off = SB_REGIONS_SCRATCH_MB.off ∧ sbRegionsFields.contains F then s.regionsOk (pgInst pg) w
  else if F = NW_HPKG_PKG then s.allRest && s.noRemote
  else if F = NW_HMEMB_STAGE_HI_TAG then s.stageOk (F.of w)
  else if F = NW_HRT_SWAP_PARTS then s.swapOk (F.of w)
  else true

/-- Why a write is refused, by ERR_INFO.CAUSE; 0 where it is not (R623); FENCE written while the unit is in reset is refused
(Table 17-5). -/
def State.writeCause (s : State) (own : Option Nat) (pg w : Nat) (cells : List (Fld × Nat)) : Nat :=
  let ch := cells.filter fun e => s.changes pg w e
  firstStatus
    [(ch.any fun e => s.lockedFor own pg e.1, 1), (ch.any fun e => !s.allows pg w e, 2),
     (ch.any fun e => !inRangeOf e.1 (e.1.of w), 3),
     ((ch.any fun e => decide (0x040 ≤ e.1.off) && s.out pg) || ((cells.any fun e => decide (e.1 = PAGE_CTRL_FENCE ∧ e.1.of w = 1)) && decide (s.service pg = 3)), 4)]

/-! ### What an accepted write does -/

/-- Fields whose write is not a store in the field itself. -/
def storeless : List Fld :=
  [NW_SFLAG_LO_VALUE, NW_SFLAG_HI_VALUE, NW_HPKG_PKG, NW_HRT_SWAP_PARTS, NW_HRT_COPY_PARTS, CX_DEC_CTRL_COMMIT]

/-- A field acts by its access code (R12). A W1C bit that hardware set in this cycle stays set (R13). -/
def State.takeField (s : State) (pg w : Nat) (e : Fld × Nat) : State :=
  let v := e.1.of w
  let old := s.rd pg e.1 e.2
  if storeless.contains e.1 then s
  else match accOf pg e.1 with
    | .rw | .rwl => s.wr pg e.1 v e.2
    | .w1c => s.wr pg e.1 ((old - (old &&& v)) ||| (old &&& (s.happened pg e.1 e.2).2)) e.2
    | .w1s => s.wr pg e.1 (old ||| v) e.2
    | _ => s

/-- EVT_STAT[3:0] has become zero: ERR_FIRST holds no event (R619). -/
def State.rearm (s : State) (pg : Nat) : State := if s.evQuiet pg then s.wr pg ERR_FIRST_VALID 0 else s

/-- PAGE_CTRL: a fence from the next slot with its event, a reset from the next slot (R621). -/
def State.pageCtrl (s0 s : State) (src pg w : Nat) : State :=
  let s1 := if fenceable pg && bit w 1 && !s0.on pg PAGE_CTRL_FENCE then
      { s.raise pg ev_PAGE_FENCED (le 4 src) with fences := s.fences ++ [pg] } else s
  if resettable pg && bit w 2 && !s0.on pg PAGE_CTRL_RESET_REQ then s1.addReset (resetOfPage pg) else s1

/-- A port's assignment in force stays what it was until the boundary (R30). -/
def State.keepOwner (s0 s : State) (k i : Nat) (P V : Fld) : State :=
  let s := s.stageFor k 1
  if s.hall.owners.any fun e => decide (e.1 = k) then s
  else s.modHall fun h => { h with owners := ains k (s0.rd pgBu P i + 8 * s0.rd pgBu V i) h.owners }

/-- The bring-up page: PT_CONFIG and the assignments wait for their boundary (R28, R30, R552). -/
def State.wroteBringup (s0 s : State) (o w : Nat) : State :=
  if o = 0x100 then
    let c := 2 ^ (w % 4)
    let s := s.stageFor 26 0
    let s1 := if w % 4 = s0.rd pgBu PT_CONFIG_ACTIVE then s.wr pgBu PT_CONFIG_PENDING 0 else s.wr pgBu PT_CONFIG_PENDING 1
    if c = 1 then s1 else ((List.range 8).filter fun p => decide (c ≤ p)).foldl (fun s p => s.wr pgBu PT_SEED_SEED 0 p) s1
  else if 0x140 ≤ o ∧ o < 0x1A0 then
    s0.keepOwner s ((o - 0x140) / 4) ((o - 0x140) / 4) PT_RN_ASSIGN_PART PT_RN_ASSIGN_VALID
  else if 0x1A0 ≤ o ∧ o < 0x1A8 then
    s0.keepOwner s (24 + (o - 0x1A0) / 4) ((o - 0x1A0) / 4) PT_CX_ASSIGN_PART PT_CX_ASSIGN_VALID
  else s

/-- The hall fabric page (R401, R420, R425). -/
def State.wroteHall (s : State) (o w : Nat) : State :=
  if o = 0x040 then (s.stageFor 27 0).modHall fun h => { h with newPkg := some (w % 65536) }
  else if o = 0x04C then s.wrs pgHall [(NW_HMEMB_STAGE_LO_PKG, w % 65536), (NW_HMEMB_STAGE_LO_STATE, w / 65536 % 4)]
  else if o = 0x050 then
    let tag := w % 2 ^ 30
    let word := s.rd pgHall NW_HMEMB_STAGE_LO_STATE + 4 * tag
    (s.modHall fun h => { h with staged := h.staged ++ [(s.rd pgHall NW_HMEMB_STAGE_LO_PKG, word, s.epoch + s.tagAhead tag)] }).wr
      pgHall NW_HMEMB_STAT_LAST_REFUSED 0
  else if o = 0x05C then
    ((List.range 8).filter fun p => bit w p && !(s.hall.swaps.any fun e => decide (e.1 = p))).foldl
      (fun s p => s.modHall fun h => { h with swaps := ains p s.swapEpoch h.swaps }) (s.wr pgHall NW_HRT_SWAP_LAST_REFUSED 0)
  else if o = 0x060 then
    ((List.range 8).filter fun p => bit w p && !(s.hall.copies.any fun e => decide (e.1 = p))).foldl
      (fun s p => s.modHall fun h => { h with copies := ains p (s.time.slots + 1) h.copies }) s
  else s

/-- A sync flag: the low half waits in the writer's latch for the high half (R629). -/
def State.wroteFlag (s : State) (src pg o w : Nat) : State :=
  if o < 0x800 then s
  else if o % 8 = 0 then s.setLatch src pg o (some w)
  else
    let r := routerPage pg
    let i := (o - 0x800) / 8
    let lo := (s.latch src pg (o - 4)).getD (s.flag r i % 2 ^ 32)
    (s.setFlag r i (lo + w * 2 ^ 32)).setLatch src pg (o - 4) none

/-- The slice page: FLUSH, and SB_REGIONS, whose slice first writes back its cache (R322, R333). -/
def State.wroteSlice (s0 s : State) (n o w : Nat) : State :=
  if o = 0x048 ∧ bit w 8 ∧ !s0.on (pgSlice n) SB_CACHE_CTRL_FLUSH then s.startFlush n
  else if o = 0x044 then
    let v := s.word (pgSlice n) sbRegionsFields 0
    if v = (s.sl n).active then s.modSl n fun u => { u with newRegions := none }
    else ((s.writeBackAll n).stageFor (28 + n) 0).modSl n fun u => { u with newRegions := some v }
  else s

/-- The events page: a ring turned off delivers what its pages hold; EV_RING_HI restarts the ring (R466, R604). -/
def State.wroteEvents (s : State) (o : Nat) : State :=
  if o = 0x040 then (s.events.queues.map fun e => e.1).foldl State.deliver s
  else if o = 0x048 then
    { s.wrs pgEv [(EV_STAT_RING_FAULT, 0), (EV_STAT_FAULT_STATUS, 0)] with
      events := { s.events with lostBefore := true } }
  else s

/-- What an accepted write of word `w` at `o` of page `pg` does besides storing; `s0` is the state before it. -/
def State.wrote (s0 s : State) (src pg o w : Nat) : State :=
  let n := pgInst pg
  if o = 0x00C then s0.pageCtrl s src pg w
  else if o = 0x014 then s.rearm pg
  else if o = 0x01C then (if bit w 0 then s.raise pg ev_PAGE_TEST (le 4 (s.rd pg SCRATCH_VALUE)) else s)
  else match pgType pg with
    | 0x0002 => s.wroteHall o w
    | 0x0010 =>
      if 0x064 ≤ o ∧ o ≤ 0x06C then s.wrs pg [(CL_PATROL_DESC_DESC, 0), (CL_PATROL_BLK_BLOCK, 0)] else s
    | 0x0016 | 0x0033 => s.wroteFlag src pg o w
    | 0x0020 => if o = 0x084 ∧ bit w 1 then s.wr pg MC_STATUS_RETRAIN_DUE 1 else s
    | 0x0030 => s0.wroteSlice s n o w
    | 0x0040 => if o = 0x044 ∧ bit w 5 then s.askRetrain n else s
    | 0x0051 => if 0x080 ≤ o ∧ o % 16 = 4 ∧ bit w 30 then s.askCommit n ((o - 0x080) / 16) else s
    | 0x0062 => s0.wroteBringup s o w
    | 0x0064 => s.wroteEvents o
    | _ => s

/-- The W1S bits that this write set and that stand after it are kept against a hardware clear of the same cycle (R13). -/
def State.noteSets (s : State) (pg w : Nat) (cells : List (Fld × Nat)) : State :=
  cells.foldl (fun t e => if accOf pg e.1 = .w1s ∧ e.1.of w ≠ 0 then
    t.note pg e.1 ((t.happened pg e.1 e.2).2 ||| (if storeless.contains e.1 then e.1.of w else e.1.of w &&& t.rd pg e.1 e.2)) e.2 else t) s

/-- A write of page `pg` at `o`: its status and the state after. -/
def State.writePage (s : State) (src : Nat) (own : Option Nat) (pg o w : Nat) : Nat × State :=
  let cells := cellsAt pg o
  if s.closedTo src pg ∧ o ≠ 0x00C then (xSEALED, s.noteRefused src pg o 1)
  else
    let cause := s.writeCause own pg w cells
    if cause = 0 then (0, (s.wrote (cells.foldl (fun t e => t.takeField pg w e) s) src pg o w).noteSets pg w cells)
    else
      let s1 := s.noteRefused src pg o cause
      let s2 := if pg = pgHall ∧ o = 0x050 then s1.wr pgHall NW_HMEMB_STAT_LAST_REFUSED 1
        else if pg = pgHall ∧ o = 0x05C then s1.wr pgHall NW_HRT_SWAP_LAST_REFUSED 1 else s1
      (s.refusedStatus pg, s2)

/-- A write of control-space offset `x` by `src`, for partition `own`'s session where it is one: its status and
the state after. -/
def State.writeWord (s : State) (src : Nat) (own : Option Nat) (x w : Nat) : Nat × State :=
  let st := reachStatus src x
  if st ≠ 0 then (st, s)
  else match placeOf x with
    | .unmapped => (xUNMAPPED, s.countStatus (regReq src true x) xUNMAPPED)
    | .memb _ | .active _ _ => (xREGIONDENIED, s.noteRefused src pgHall (x % 4096) 5)
    | .shadow p i =>
      if s.hall.copies.any fun e => decide (e.1 = p) then (xREGIONDENIED, s.noteRefused src pgHall (x % 4096) 2)
      else (0, s.modHall fun h => { h with shadow := aset 0 h.shadow (p * 65536 + i) (w % 2 ^ 20) })
    | .page pg o => s.writePage src own pg o (w % 2 ^ 32)

end Sys2Proof.Machine
end

