-- ==== Sys2Proof/Machine/RegRows.lean ====
section
/-!
DEFINITION. Machine/RegRows.lean: the commands that are accesses to control space, each its own, and
REQUEST_ISSUE, whose register requests are such accesses.
-/

namespace Sys2Proof.Machine

open Sys2Proof

/-- The state after requester `r` writes word `w` at control-space offset `x`. -/
def State.put (s : State) (r : Requester) (x w : Nat) : State := (s.writeWord (reqIdent r) none x w).2

/-- The state after `r` writes word `w` at `o` of page `pg`, where there is such a page. -/
def State.putPage (s : State) (r : Requester) (pg o w : Nat) : State :=
  if placeOf (offOf pg o) = .page pg o then s.put r (offOf pg o) w else s

/-- The word at `o` of page `pg` with field `F` holding `v`. -/
def State.wordWith (s : State) (pg o : Nat) (F : Fld) (v : Nat) : Nat :=
  let w := s.regWord pg o
  w - F.of w * 2 ^ F.lo + v % 2 ^ F.width * 2 ^ F.lo

/-- The state after `r` writes `v` into field `F`, instance `i`, of page `pg`, the word's other bits as they read. -/
def State.putField (s : State) (r : Requester) (pg : Nat) (F : Fld) (v : Nat) (i : Nat := 0) : State :=
  s.putPage r pg (F.at i) (s.wordWith pg (F.at i) F v)

/-! ### Any register -/

/-- REG_WRITE (R623). -/
def execRegWrite (r : Requester) (off w : Nat) (s : State) : Host.Outcome State Fault Refusal :=
  finishD (accessed ++ [.descs]) s (s.put r off w)

/-- REG_READ_CLEAR (R14). -/
def execRegReadClear (r : Requester) (off : Nat) (s : State) : Host.Outcome State Fault Refusal :=
  finish (evented ++ [.latches, .hall, .wires]) s (s.readWord (reqIdent r) off).2.2

/-- LATCHING_READ (R628). -/
def execLatchingRead (r : Requester) (off : Nat) (s : State) : Host.Outcome State Fault Refusal :=
  finish (evented ++ [.latches, .hall, .wires]) s (s.readWord (reqIdent r) off).2.2

/-! ### The header -/

/-- EVT_FORCE (R619): TEST 1. -/
def execEvtForce (r : Requester) (page : Nat) (s : State) : Host.Outcome State Fault Refusal :=
  finishD (accessed ++ [.descs]) s (s.putPage r page 0x01C 1)

/-- FENCE (R621): FENCE 1. -/
def execFence (r : Requester) (page : Nat) (s : State) : Host.Outcome State Fault Refusal :=
  finishD (accessed ++ [.descs]) s (s.putField r page PAGE_CTRL_FENCE 1)

/-- RESET_REQ (R621): RESET_REQ 1. -/
def execResetReq (r : Requester) (page : Nat) (s : State) : Host.Outcome State Fault Refusal :=
  finishD (accessed ++ [.descs]) s (s.putField r page PAGE_CTRL_RESET_REQ 1)

/-- ENABLE (R621): ENABLE 0. -/
def execEnable (r : Requester) (page : Nat) (s : State) : Host.Outcome State Fault Refusal :=
  finishD (accessed ++ [.descs]) s (s.putField r page PAGE_CTRL_ENABLE 0)

/-! ### Partitions (R28 to R30, R552) -/

/-- PT_CONFIG (R28). -/
def execPtConfig (r : Requester) (count : Fin 4) (s : State) : Host.Outcome State Fault Refusal :=
  finishD (accessed ++ [.descs]) s (s.putPage r pgBu 0x100 count)

/-- PT_SEED (R552). -/
def execPtSeed (r : Requester) (part : Fin 8) (seed : Nat) (s : State) : Host.Outcome State Fault Refusal :=
  finishD (accessed ++ [.descs]) s (s.putPage r pgBu (PT_SEED_SEED.at part) (seed % 65536))

/-- PT_RN_ASSIGN (R30). -/
def execPtRnAssign (r : Requester) (port : Fin 24) (part : Fin 8) (valid : Bool) (s : State) :
    Host.Outcome State Fault Refusal :=
  finishD (accessed ++ [.descs]) s (s.putPage r pgBu (PT_RN_ASSIGN_PART.at port) (part + 8 * valid.toNat))

/-- PT_CX_ASSIGN (R30). -/
def execPtCxAssign (r : Requester) (port : Fin 2) (part : Fin 8) (valid : Bool) (s : State) :
    Host.Outcome State Fault Refusal :=
  finishD (accessed ++ [.descs]) s (s.putPage r pgBu (PT_CX_ASSIGN_PART.at port) (part + 8 * valid.toNat))

/-! ### Units -/

/-- PATROL_LIST_WRITE (R226): CL_PATROL_LO, HI or CNT. -/
def execPatrolListWrite (r : Requester) (cluster : Fin 80) (reg : Fin 3) (w : Nat) (s : State) :
    Host.Outcome State Fault Refusal :=
  finish accessed s (s.putPage r (pgCluster cluster) (0x064 + 4 * reg) w)

/-- NW_REG_TGT (R276). -/
def execNwRegTgt (r : Requester) (router : Fin 88) (cls : Fin 6) (target : Nat) (s : State) :
    Host.Outcome State Fault Refusal :=
  finish accessed s (s.putPage r (pgControl router) (NW_REG_TGT_TARGET.at cls) (target % 65536))

/-- NW_SFLAG_HI (R629). -/
def execNwSflagHi (r : Requester) (store : Fin 88) (index : Fin 256) (w : Nat) (s : State) :
    Host.Outcome State Fault Refusal :=
  finish accessed s (s.putPage r (pgSync store) (NW_SFLAG_HI_VALUE.at index) w)

/-- MC_TRAIN_REQUEST (R311): REQUEST 1. -/
def execMcTrainRequest (r : Requester) (chan : Fin 256) (s : State) : Host.Outcome State Fault Refusal :=
  finish accessed s (s.putField r (pgChannel chan) MC_TRAIN_CTRL_REQUEST 1)

/-- MC_XG_RETRAIN (R318): the groups of `mask`. -/
def execMcXgRetrain (r : Requester) (riser : Fin 8) (mask : Nat) (s : State) : Host.Outcome State Fault Refusal :=
  finish accessed s (s.putPage r (pgColumns riser) 0x050 mask)

/-- RN_PCTRL_RETRAIN (R369): RETRAIN 1. -/
def execRnPctrlRetrain (r : Requester) (port : Fin 24) (s : State) : Host.Outcome State Fault Refusal :=
  finishD (accessed ++ [.descs]) s (s.putField r (pgRunner port) RN_PCTRL_RETRAIN 1)

/-- FLUSH (R333): SB_CACHE_CTRL.FLUSH 1. -/
def execFlush (r : Requester) (slice : Fin 8) (s : State) : Host.Outcome State Fault Refusal :=
  finish accessed s (s.putField r (pgSlice slice) SB_CACHE_CTRL_FLUSH 1)

/-- SB_REGIONS (R322). -/
def execSbRegions (r : Requester) (slice : Fin 8) (w : Nat) (s : State) : Host.Outcome State Fault Refusal :=
  finishD (accessed ++ [.descs]) s (s.putPage r (pgSlice slice) 0x044 w)

/-- COMMIT (R471): CX_DEC_CTRL.COMMIT 1. -/
def execCommit (r : Requester) (port : Fin 2) (dec : Fin 8) (s : State) : Host.Outcome State Fault Refusal :=
  finishD (accessed ++ [.descs]) s (s.putField r (pgCxl port) CX_DEC_CTRL_COMMIT 1 dec)

/-- HK_REPLAN_REQUEST (R595): REQUEST 1. -/
def execHkReplanRequest (r : Requester) (s : State) : Host.Outcome State Fault Refusal :=
  finish accessed s (s.putField r pgHk HK_REPLAN_CTRL_REQUEST 1)

/-- EV_RING_HI (R466). -/
def execEvRingHi (r : Requester) (w : Nat) (s : State) : Host.Outcome State Fault Refusal :=
  finish accessed s (s.putPage r pgEv 0x048 w)

/-! ### The hall fabric (R401, R420, R425) -/

/-- NW_HMEMB_STAGE_HI (R420). -/
def execNwHmembStageHi (r : Requester) (tag : Nat) (s : State) : Host.Outcome State Fault Refusal :=
  finish accessed s (s.putPage r pgHall 0x050 (tag % 2 ^ 30))

/-- NW_HRT_SWAP (R425): the bits of `parts`. -/
def execNwHrtSwap (r : Requester) (parts : Nat) (s : State) : Host.Outcome State Fault Refusal :=
  finish accessed s (s.putPage r pgHall 0x05C (parts % 256))

/-- NW_HRT_COPY (R425): the bits of `parts`. -/
def execNwHrtCopy (r : Requester) (parts : Nat) (s : State) : Host.Outcome State Fault Refusal :=
  finish accessed s (s.putPage r pgHall 0x060 (parts % 256))

/-- The entries of partition `p` in a table of all, and the table with them replaced. -/
def tableOf (p : Nat) (t : List (Nat × Nat)) : List (Nat × Nat) := t.filter fun e => decide (e.1 / 65536 = p)
def setTable (p : Nat) (t new : List (Nat × Nat)) : List (Nat × Nat) :=
  (t.filter fun e => decide (e.1 / 65536 < p)) ++ new ++ t.filter fun e => decide (p < e.1 / 65536)

/-- ROUTE_COPY_DONE (R425): the copy of the active table into the shadow is complete; its bit clears. -/
def execRouteCopyDone (part : Fin 8) (s : State) : Host.Outcome State Fault Refusal :=
  finish [.hall] s <|
    if s.hall.copies.any fun e => decide (e.1 = part.val) then
      s.modHall fun h =>
        { h with
          shadow := setTable part h.shadow (tableOf part h.routes)
          copies := if bit (s.happened pgHall NW_HRT_COPY_PARTS).2 part then ains part.val (s.time.slots + 1) h.copies
            else h.copies.filter fun e => decide (e.1 ≠ part.val) }
    else s

/-- NW_HPKG (R401). -/
def execNwHpkg (r : Requester) (w : Nat) (s : State) : Host.Outcome State Fault Refusal :=
  finish accessed s (s.putPage r pgHall 0x040 (w % 65536))

/-! ### Requests (R406) -/

/-- A register request of an engine is performed at once and answered (R457, R631). -/
def State.regAccess (s : State) (id : Nat) (r : Req) : State :=
  let x := localOf r.addr - 0x014000000000
  if r.op = 0x30 then
    let a := s.readWord r.src x
    a.2.2.answer id r { status := a.1, value := a.2.1, data := le 4 a.2.1 }
  else
    let a := s.writeWord r.src none x r.value
    a.2.answer id r { status := a.1 }

/-- The request is one of a program that does not run (R220, R222). -/
def programIdle (rq : Request) (s : State) : Bool :=
  match rq.who with
  | .gcore g => !rq.machine && !s.gcRuns g
  | _ => false

/-- REQUEST_ISSUE (R406): an engine's request is checked at its origin and sent towards its target; a register
access is performed. -/
def execRequestIssue (rq : Request) (s : State) : Host.Outcome State Fault Refusal :=
  let i := s.issueReq (s.reqOf rq)
  finishD (accessed ++ [.descs, .net, .wires, .gcores]) s <|
    if programIdle rq s then s
    else match i.2.req i.1 with
      | some r => if isReg r.op then i.2.regAccess i.1 r else i.2
      | none => i.2

end Sys2Proof.Machine
end

