-- ==== Sys2Proof/Machine/Sprue.lean ====
section
/-!
DEFINITION. Machine/Sprue.lean: frames towards the device (R441 to R447, R661): which are accepted, and what the
command intake (R452 to R456), register access (R457) and BULK streams (R462, R463) do with them; commands that
came by relay (R429, R433).
-/

namespace Sys2Proof.Machine

open Sys2Proof

def State.modSprue (s : State) (f : SprueUnit → SprueUnit) : State := { s with sprue := f s.sprue }

/-! ### Frames (R441 to R443) -/

/-- Bytes 0x000 to 0x1EF of a frame. -/
def frameText (ty flags len seq pkg part : Nat) (body : Bytes) : Bytes :=
  le 1 ty ++ le 1 flags ++ le 2 len ++ le 4 seq ++ le 2 pkg ++ le 1 part ++ le 5 0 ++ slice body 0 480

/-- The nonce of a frame's tag: SP_SALT, the direction bit (0 towards the device), 31 zero bits, SEQ (log entry 46). -/
def frameNonce (salt dir seq : Nat) : Nat := beNat (le 4 salt ++ le 1 (128 * dir) ++ le 3 0 ++ le 4 seq)

/-- The tag of a frame. -/
def frameTag (key : Bytes) (salt dir seq : Nat) (text : Bytes) : Bytes := gmac key (frameNonce salt dir seq) text

/-- The used body of a frame. -/
def bodyOf (f : Frame) : Bytes := f.body.take f.len

/-- TAG verifies under a key. -/
def tagOk (f : Frame) (key : Bytes) (salt : Nat) : Bool :=
  decide (frameTag key salt 0 f.seq (frameText f.ty f.flags f.len f.seq f.pkg f.part (bodyOf f)) = slice f.tag 0 16)

/-- FLAGS. -/
def lastFlag (f : Frame) : Bool := bit f.flags 1
def poisonFlag (f : Frame) : Bool := bit f.flags 2
def relayFlag (f : Frame) : Bool := bit f.flags 3

/-- TYPE is one of Table 12-3 towards the device. -/
def frameTyOk (ty : Nat) : Bool := [0x00, 0x01, 0x02, 0x05, 0x06, 0x07, 0x08, 0x0F].contains ty

/-- The body holds the layout of its type (R447). -/
def fitsType (f : Frame) : Bool :=
  decide (f.len ≤ 480) &&
    match f.ty with
    | 0x01 => decide (0x18 ≤ f.len)
    | 0x02 => decide (0x10 ≤ f.len)
    | 0x05 | 0x06 => decide (f.len ≠ 0 ∧ f.len % 8 = 0)
    | 0x07 =>
      match fieldAt (bodyOf f) 0 1 with
      | 0 => decide (16 ≤ f.len)
      | 1 => decide (20 ≤ f.len)
      | _ => false
    | 0x08 => decide (16 ≤ f.len)
    | _ => true

/-- A frame is discarded and counted (R442, R447). -/
def State.discardFrame (s : State) : State := s.bump pgSprue SP_DISCARD_COUNT

/-- PKG is this package's number or 0xFFFF (R441). -/
def State.framePkgOk (s : State) (f : Frame) : Bool := decide (f.pkg = s.pkg) || decide (f.pkg = 0xFFFF)

/-! ### Acceptance (R443 to R447) -/

/-- A tag fails: counted, and reported the first time in an epoch. -/
def State.authFail (s : State) (f : Frame) : State :=
  let s1 := s.bump pgSprue SP_RXERR_AUTH
  if s.sprue.authEpoch = s.time.epochs + 1 then s1
  else (s1.raise pgSprue ev_SP_AUTH (le 4 f.seq ++ le 1 f.ty)).modSprue fun u => { u with authEpoch := s.time.epochs + 1 }

/-- The number at which SP_KEY_LATE is due, and the last of a key (R445). -/
def seqLate : Nat := 2 ^ 32 - 2 ^ 20
def seqLast : Nat := 2 ^ 32 - 1

/-- SEQ `n` was used in direction `d` (0 towards, 1 from, 2 relayed): SP_KEY_LATE once, and at the end of the key
SP_KEY_EXHAUSTED (R445). -/
def State.usedSeq (s : State) (d n : Nat) : State :=
  let told := match d with | 0 => s.sprue.lateRx | 1 => s.sprue.lateTx | _ => s.sprue.lateRelay
  let s1 :=
    if seqLate ≤ n ∧ !told then
      (s.raise pgSprue ev_SP_KEY_LATE (le 4 n ++ le 1 d)).modSprue fun u =>
        match d with
        | 0 => { u with lateRx := true }
        | 1 => { u with lateTx := true }
        | _ => { u with lateRelay := true }
    else s
  if n = seqLast then
    ((s1.modSprue fun u => { u with key := none }).wr pgSprue SP_STATUS_KEYED 0).raise pgSprue ev_SP_KEY_EXHAUSTED (le 1 d)
  else s1

/-- A tagged frame is accepted: its SEQ is the last of its sequence. -/
def State.acceptSeq (s : State) (f : Frame) : State :=
  if relayFlag f then (s.modSprue fun u => { u with relaySeq := some f.seq }).usedSeq 2 f.seq
  else (s.modSprue fun u => { u with rxSeq := some f.seq }).usedSeq 0 f.seq

/-- SEQ does not exceed that of the last frame accepted (R444). -/
def State.stale (s : State) (f : Frame) : Bool :=
  match (if relayFlag f then s.sprue.relaySeq else s.sprue.rxSeq) with
  | some n => decide (f.seq ≤ n)
  | none => false

/-- The lane brings a frame's symbols: stuff symbols are removed, and counted where they are of the wrong level (R373). -/
def State.sprueLineIn (s : State) (f : Frame) : State :=
  let r := s.sprue.rxLine.take true 0 f.symbols
  (s.modSprue fun u => { u with rxLine := r.1 }).bump pgSprue SP_LSLACK_STUFF_ERR r.2.2

/-- A frame is checked (R447, R661); `k` takes one accepted, told whether a key is in use. -/
def State.checkFrame (s : State) (f : Frame) (k : Bool → State → State) : State :=
  let s0 := s.sprueLineIn f
  if f.uncorr then s0.bump pgSprue SP_RXERR_UNCORR
  else match s.sprue.key with
    | none => if fitsType f && s.framePkgOk f then k false s0 else s0.discardFrame
    | some key =>
      if !tagOk f key s.sprue.salt then s0.authFail f
      else if s.stale f || !fitsType f || !s.framePkgOk f then s0.discardFrame
      else k true (s0.acceptSeq f)

/-- A frame of type `ty` arrives on the line while the port is UP. -/
def State.onFrame (s : State) (ty : Nat) (f : Frame) (k : Bool → State → State) : State :=
  if s.rd pgSprue SP_STATUS_LINK = 2 ∧ f.ty = ty then s.checkFrame f k else s

/-- Stage 11 has ended (R528). -/
def State.started (s : State) : Bool := decide (12 ≤ s.boot.next)

/-- FRAME_DISCARDED (R442, R447): a frame of a reserved type or of the other direction's, or that cannot hold its
layout. -/
def execFrameDiscarded (f : Frame) (s : State) : Host.Outcome State Fault Refusal :=
  finish (evented ++ [.sprue]) s <|
    if !frameTyOk f.ty then
      if s.rd pgSprue SP_STATUS_LINK ≠ 2 then s
      else if f.uncorr then (s.sprueLineIn f).bump pgSprue SP_RXERR_UNCORR else (s.sprueLineIn f).discardFrame
    else if fitsType f then s
    else s.onFrame f.ty f fun _ s => s

/-- TIME_FRAME (R450). -/
def execTimeFrame (f : Frame) (frac : Fin 65536) (gap : Nat) (s : State) : Host.Outcome State Fault Refusal :=
  finish (evented ++ [.time, .sprue]) s <| s.onFrame 0x01 f fun _ s => s.timeFrame { f with body := (bodyOf f) } frac gap

/-! ### Command intake (R452 to R455) -/

/-- The opcodes allotted (Table 12-6). -/
def opcodes : List Nat :=
  [0x0001, 0x0002, 0x0003, 0x0004, 0x0010, 0x0011, 0x0100, 0x0101, 0x0102, 0x0103, 0x0108, 0x0109, 0x010A, 0x0110,
   0x0111, 0x0120, 0x0121, 0x0122, 0x0123, 0x0124, 0x0130, 0x0200, 0x0201, 0x0202, 0x0203, 0x0280, 0x0281, 0x0300,
   0x0310, 0x0400, 0x0401, 0x0402]

/-- The port's key state and the start-up stage accept an opcode (R521, R528, R573, R588, R661). -/
def State.opOpen (s : State) (keyed : Bool) (op : Nat) : Bool :=
  if op = 0x0280 ∨ op = 0x0281 then s.boot.recovery
  else if op = 0x0100 ∨ op = 0x0101 ∨ op = 0x0108 then true
  else keyed && (s.started || (s.boot.halted && (decide (op = 0x0400) || decide (op = 0x0401))))

/-- The fields of a RESET are in range, and a COMPUTE or FULL one carries its CONFIRM (R550, Table 14-6). -/
def resetArgsOk (c : Cmd) : Bool :=
  let f (o : Nat) := fieldAt c.args o 1
  decide (f 0 ≤ 4) && (decide (1 < f 0) || decide (f 1 < 8 ∧ f 2 < 10)) &&
    (decide (f 0 ≠ 0) || decide (f 3 = 0 ∧ f 4 < 4) || decide (f 3 = 1 ∧ f 4 < 8) || decide (f 3 = 2 ∧ f 4 < 1)) &&
    (decide (f 0 < 3) || decide (fieldAt c.args 0x08 4 = c.id))

/-- LEN, SPACE and alignment of a session access (R508). -/
def sessionArgsOk (c : Cmd) : Bool :=
  let n := fieldAt c.args 0x08 2
  decide (1 ≤ n ∧ n ≤ 416) &&
    match fieldAt c.args 0x0A 1 with
    | 0 => true
    | 1 => decide (n % 4 = 0 ∧ fieldAt c.args 0 8 % 4 = 0)
    | _ => false

/-- ARGS are valid for the opcode, as far as they can be judged alone. -/
def argsOk (op : Nat) (c : Cmd) : Bool :=
  match op with
  | 0x0001 => decide (fieldAt c.args 0 1 < 2 ∧ fieldAt c.args 1 1 < 2)
  | 0x0002 => decide (fieldAt c.args 0 1 < 2)
  | 0x0010 =>
    decide (fieldAt c.args 7 1 < 3 ∧ fieldAt c.args 8 1 < 8 ∧ fieldAt c.args 0x0C 2 ≤ 1024 ∧ fieldAt c.args 0x10 4 < 2 ^ 20) &&
      !(decide (fieldAt c.args 7 1 = 2) && bit (fieldAt c.args 8 1) 1)
  | 0x0011 => decide (fieldAt c.args 0 1 < 24 ∧ fieldAt c.args 0x12 2 ≤ 416)
  | 0x0103 | 0x0281 => decide (fieldAt c.args 0 4 = c.id)
  | 0x0108 => decide (fieldAt c.args 0 1 < 4)
  | 0x0109 => decide ((maskSlots (fieldAt c.args 0x20 2)).length ≤ 7)
  | 0x0123 | 0x0124 => sessionArgsOk c
  | 0x0300 => resetArgsOk c
  | 0x0400 => decide (fieldAt c.args 0x08 4 = c.id)
  | _ => true

/-- The boundary that begins slot s + 2, where s is the slot of arrival (log entry 47); START 0 stands for it. -/
def State.dueOf (s : State) (c : Cmd) : Nat := if c.start = 0 then s.slotStart 2 else c.start

/-- The first check of R452 that fails; 0 where none does. -/
def State.intakeStatus (s : State) (keyed : Bool) (op : Nat) (c : Cmd) : Nat :=
  firstStatus [
    (!opcodes.contains op, stUNKNOWN), (!s.opOpen keyed op, stWRONGSTATE), (!s.partOk op c || !argsOk op c, stBADFORMAT),
    (decide (s.dueOf c < s.slotStart 2), stLATE), (decide (s.slotStart 2 + 2 ^ 30 < s.dueOf c), stTOOFAR),
    (decide (256 ≤ s.sprue.intake.length), stINTAKEFULL)]

/-- A command refused by the intake: answered at once, with CMD_REFUSED from the Sprue page (R452, R662). -/
def State.refuse (s : State) (op : Nat) (c : Cmd) (st : Nat) : State :=
  (((s.bump pgSprue SP_INTAKE_REFUSED).sendTx (.rsp c.id op st s.time.ticks c.part [])).relayAnswer c.id st).raise pgSprue
    ev_CMD_REFUSED (refusedInfo op c st)

/-- A command in its place: by START, then by arrival (R453). -/
def enqueueCmd (q : Queued) : List Queued → List Queued
  | [] => [q]
  | x :: xs => if q.due < x.due then q :: x :: xs else x :: enqueueCmd q xs

/-- The intake accepts a command. -/
def State.takeCmd (s : State) (op : Nat) (c : Cmd) : State :=
  s.modSprue fun u =>
    { u with intake := enqueueCmd ⟨op, c, s.dueOf c⟩ u.intake, memory := remember u.memory c.id none }

/-- A command whose CMD_ID is held: its RSP again where it has completed (R454). -/
def State.again (s : State) (c : Cmd) (r : Option TxFrame) : State :=
  match r with
  | some (.rsp i op st a p d) => (s.sendTx (.rsp i op st a p d)).relayAnswer c.id st
  | _ => s

/-- A command at the intake. -/
def State.intake (s : State) (keyed : Bool) (op : Nat) (c : Cmd) : State :=
  match s.sprue.memory.find? fun e => decide (e.1 = c.id) with
  | some e => s.again c e.2
  | none =>
    let st := s.intakeStatus keyed op c
    if st = 0 then s.takeCmd op c else s.refuse op c st

/-- The command a CMD frame carries, and its opcode (Table 12-4). -/
def cmdOf (f : Frame) (relayed : Bool) : Cmd :=
  { id := fieldAt (bodyOf f) 0x00 4, part := f.part, start := fieldAt (bodyOf f) 0x08 8, args := slice (bodyOf f) 0x10 464, relayed := relayed }
def opOf (f : Frame) : Nat := fieldAt (bodyOf f) 0x04 2

/-- CMD (R452). -/
def execCmd (f : Frame) (s : State) : Host.Outcome State Fault Refusal :=
  finish answered s <| s.onFrame 0x02 f fun keyed s => s.intake keyed (opOf f) (cmdOf f false)

/-- The frame that a STOP_RELAY packet encloses, rebuilt with a zero body beyond LEN (Table 12-7). -/
def frameOf (b : Bytes) : Frame :=
  let n := fieldAt b 0x02 2
  { ty := fieldAt b 0 1, flags := fieldAt b 1 1, len := n, seq := fieldAt b 0x04 4, pkg := fieldAt b 0x08 2,
    part := fieldAt b 0x0A 1, body := slice b 0x10 n, tag := slice b (0x10 + n) 16 }

/-- STOP_RELAY (R429, R433): the oldest such packet of port `port` goes to the intake, which checks it as if it had
arrived on Sprue; the answer will go back by that port. -/
def execStopRelay (port : Fin 24) (s : State) : Host.Outcome State Fault Refusal :=
  finish answered s <|
    match s.hall.inbox.find? fun e => decide (e.1 = port.val ∧ e.2.op = 0x3F) with
    | none => s
    | some e =>
      let s1 := s.modHall fun h => { h with inbox := h.inbox.erase e }
      let f := frameOf e.2.payload
      if f.ty ≠ 0x02 then s1.discardFrame
      else s1.checkFrame f fun keyed t =>
        let c := cmdOf f true
        (t.modHall fun h => { h with relayIn := h.relayIn ++ [(c.id, port.val, e.2)] }).intake keyed (opOf f) c

/-- COUNTER_STEP's part in the intake (R51): every queued command whose start now lies in the past is refused LATE. -/
def State.refuseLate (s : State) : State :=
  (s.sprue.intake.filter fun q => decide (q.due < s.time.ticks)).foldl (fun s q =>
    let r := TxFrame.rsp q.cmd.id q.opcode stLATE s.time.ticks q.cmd.part []
    (((s.closeCmd q.cmd.id (some r)).sendTx r).relayAnswer q.cmd.id stLATE).raise pgSprue ev_CMD_REFUSED
      (refusedInfo q.opcode q.cmd stLATE)) s

/-! ### Register access (R457) -/

/-- A control-space offset on the device pages (R660). -/
def onDevicePages (x : Nat) : Bool :=
  match placeOf x with
  | .page pg _ => [0x0001, 0x0002, 0x0022, 0x0050, 0x0060, 0x0061, 0x0062, 0x0063, 0x0064].contains (pgType pg)
  | .unmapped => false
  | _ => true

/-- The offset is on the bring-up page. -/
def onBringup (x : Nat) : Bool := match placeOf x with | .page pg _ => decide (pg = pgBu) | _ => false

/-- The entries of a register frame. -/
def regEntries (b : Bytes) : List (Nat × Nat) :=
  (List.range (b.length / 8)).map fun i => (fieldAt b (8 * i) 4, fieldAt b (8 * i + 4) 4)

/-- One entry of a REGRD: the entry of its response. -/
def State.regrdEntry (keyed : Bool) (a : State × List (Nat × Nat)) (e : Nat × Nat) : State × List (Nat × Nat) :=
  if (keyed && a.1.started) || onDevicePages e.1 then
    let r := a.1.readWord pgSprue e.1
    (r.2.2, a.2 ++ [(r.2.1, r.1)])
  else (a.1, a.2 ++ [(0, xREGIONDENIED)])

/-- One entry of a REGWR: during start-up, the bring-up page only, from stage 2 (R528). -/
def State.regwrEntry (keyed : Bool) (a : State × List (Nat × Nat)) (e : Nat × Nat) : State × List (Nat × Nat) :=
  if keyed && (a.1.started || (decide (2 ≤ a.1.boot.next) && onBringup e.1)) then
    let r := a.1.writeWord pgSprue none e.1 e.2
    (r.2, a.2 ++ [(0, r.1)])
  else (a.1, a.2 ++ [(0, xREGIONDENIED)])

/-- REGRD (R457, R661). -/
def execRegrd (f : Frame) (s : State) : Host.Outcome State Fault Refusal :=
  finishD (evented ++ [.latches, .sprue, .descs, .hall, .wires]) s <| s.onFrame 0x05 f fun keyed s =>
    let a := (regEntries (bodyOf f)).foldl (State.regrdEntry keyed) (s, [])
    a.1.sendTx (.reg false f.part a.2)

/-- REGWR (R457, R661). -/
def execRegwr (f : Frame) (s : State) : Host.Outcome State Fault Refusal :=
  finishD (accessed ++ [.sprue, .descs]) s <| s.onFrame 0x06 f fun keyed s =>
    let a := (regEntries (bodyOf f)).foldl (State.regwrEntry keyed) (s, [])
    a.1.sendTx (.reg true f.part a.2)

/-! ### BULK (R462, R463) -/

/-- A stream is unbound. -/
def State.unbind (s : State) (n : Nat) : State :=
  s.modSprue fun u => { u with streams := u.streams.filter fun t => decide (t.num ≠ n) }

/-- A stream ends early: its binding command is refused BAD-FORMAT. -/
def State.failStream (s : State) (t : Stream) : State :=
  let s1 := s.unbind t.num
  if t.binder = 0 then s1.failLoad t.part t.slot stBADFORMAT
  else match s.update.begun with
    | none => s1
    | some (op, c) => s1.refuseBundle op c stBADFORMAT

/-- The frame's data join the stream; LAST completes it: a bundle is checked, a Pattern image waits for its checks. -/
def State.feedStream (s : State) (t : Stream) (d : Bytes) (last : Bool) : State :=
  let b := t.data ++ d
  if last && decide (t.binder ≠ 0) then (s.unbind t.num).checkBundle b
  else s.modSprue fun u =>
    { u with streams := u.streams.map fun x => if x.num = t.num then { x with data := b, last := last, at_ := s.real } else x }

/-- A BULK frame that the port may take. -/
def State.takeBulk (s : State) (f : Frame) : State :=
  match s.sprue.streams.find? fun t => decide (t.num = fieldAt (bodyOf f) 0 2) && !t.last with
  | none => s.bump pgSprue SP_BULK_DROP
  | some t =>
    if fieldAt (bodyOf f) 0x08 8 ≠ t.data.length then s.failStream t
    else s.feedStream t ((bodyOf f).drop 0x10) (lastFlag f)

/-- BULK (R462): with a key and after start-up, or in the recovery intake. -/
def execBulk (f : Frame) (s : State) : Host.Outcome State Fault Refusal :=
  finish (answered ++ [.update]) s <| s.onFrame 0x08 f fun keyed s =>
    if (keyed && s.started) || s.boot.recovery then s.takeBulk f else s.discardFrame

/-- BULK_TIMEOUT (R463): SP_BULK_TO without a frame. -/
def execBulkTimeout (stream : Nat) (s : State) : Host.Outcome State Fault Refusal :=
  finish (answered ++ [.update]) s <|
    match s.sprue.streams.find? fun t => decide (t.num = stream) && !t.last with
    | none => s
    | some t => if s.rd pgSprue SP_BULK_TO_US * usTicks ≤ s.real - t.at_ then s.failStream t else s

end Sys2Proof.Machine
end

