-- ==== Sys2Proof/Machine/Bus.lean ====
section
/-!
DEFINITION. Machine/Bus.lean: a memory channel's bus and banks (R281 to R284, R287, R290 to R292, R298, R303): data
cycles, the places of sectors, the commands before them, row activations, and where an unscheduled access fits.
-/

namespace Sys2Proof.Machine

open Sys2Proof

/-! ### Cycles and positions (R62, R283, R290, R291) -/

/-- Slot `n` (counted in absolute slots) is a memory-maintenance slot of channel `c` (Riser × 32 + channel). -/
def maintSlot (c n : Nat) : Bool := decide ((n + 2 * (c % 32)) % 16 = 0)

/-- Cycle `t` is a data cycle of channel `c`: not in the maintenance window or slot, not in the guard, and
past the stop of a lane failure. -/
def dataCycle (cps c stop t : Nat) : Bool :=
  decide (t / cps % 4096 ≤ 4087 ∧ t % cps < cps - 4 ∧ stop ≤ t) && !maintSlot c (t / cps)

/-- The first data cycle from `t` on. -/
def nextData (f : Nat → Bool) : Nat → Nat → Nat
  | 0, t => t
  | n + 1, t => if f t then t else nextData f n (t + 1)

/-- Every cycle that `5 × hw` eighths from `pos` touch is a data cycle. -/
def fits (f : Nat → Bool) (hw pos : Nat) : Bool :=
  (List.range ((pos + 5 * hw - 1) / 8 - pos / 8 + 1)).all fun i => f (pos / 8 + i)

/-- The position at which a sector due at `pos` goes on the bus. -/
def placeSector (f : Nat → Bool) (hw limit : Nat) : Nat → Nat → Nat
  | 0, pos => pos
  | n + 1, pos => if fits f hw pos then pos else placeSector f hw limit n (8 * nextData f limit (pos / 8 + 1))

/-- The starts of `n` sectors from `pos`, and the end of the last. -/
def runStarts (f : Nat → Bool) (hw limit : Nat) : Nat → Nat → List Nat × Nat
  | 0, pos => ([], pos)
  | n + 1, pos =>
    let p := placeSector f hw limit 8 pos
    let r := runStarts f hw limit n (p + 5 * hw)
    (p :: r.1, r.2)

/-- The four cycles from position `e` are all data cycles: no guard or maintenance slot turns the bus round free of cost there. -/
def turnCosts (f : Nat → Bool) (e : Nat) : Bool := (List.range ((e + 31) / 8 - e / 8 + 1)).all fun i => f (e / 8 + i)

/-- Where a run begins: at its stamp, or after the previous run with the turnaround unless a guard or
maintenance slot gives it free. -/
def runBegin (f : Nat → Bool) (after : Bool) (op stamp prevEnd prevDir : Nat) : Nat :=
  if after then (if op ≠ prevDir ∧ turnCosts f prevEnd then prevEnd + 32 else prevEnd) else 8 * stamp

/-- Where it begins when what went before came late: never earlier than the bus is free, nor without its turnaround (R284, R291). -/
def lateBegin (f : Nat → Bool) (after : Bool) (op stamp prevEnd prevDir : Nat) : Nat :=
  max (runBegin f after op stamp prevEnd prevDir) (if prevDir = 0 then prevEnd else runBegin f true op 0 prevEnd prevDir)

/-! ### Banks and rows (R287, R292, R303) -/

/-- Bank and row of a sector. -/
def bankOf (a : Nat) : Nat := a / 32 % 32
def rowOf (a : Nat) : Nat := a / 1024

/-- The least of a tracker's counts. -/
def leastCount (l : List (Nat × Nat)) : Nat := l.foldl (fun m e => min m e.2) (l.headD (0, 0)).2

/-- A tracker of 16 rows after an activation of `row` (R303), and the row's count. -/
def trackRow (l : List (Nat × Nat)) (row : Nat) : List (Nat × Nat) × Nat :=
  match l.find? fun e => decide (e.1 = row) with
  | some e => (ains row (e.2 + 1) l, e.2 + 1)
  | none =>
    if l.length < 16 then (ains row 1 l, 1)
    else
      let m := leastCount l
      match l.find? fun e => decide (e.2 = m) with
      | some v => (ains row (m + 1) (adel v.1 l), m + 1)
      | none => (ains row (m + 1) l, m + 1)

/-- A row is queued for targeted refresh, where it is not yet and the queue has room, and its count resets. -/
def Chan.queueRow (u : Chan) (bank row : Nat) : Chan :=
  if u.tnr.contains (bank, row) ∨ 16 ≤ u.tnr.length then u
  else { u with track := aupd [] u.track bank fun l => l.map fun e => if e.1 = row then (row, 0) else e, tnr := u.tnr ++ [(bank, row)] }

/-- An activation of a row: counted, and queued for targeted refresh from the threshold on; a queue that is full takes it at a later one. -/
def Chan.activate (u : Chan) (th bank row : Nat) : Chan :=
  let r := trackRow (aget [] u.track bank) row
  let v := { u with track := aset [] u.track bank r.1 }
  if th ≤ r.2 then v.queueRow bank row else v

/-- A row has been activated so often that its next activation waits for its targeted refresh. -/
def Chan.hammered (u : Chan) (th a : Nat) : Bool :=
  u.held.contains (bankOf a, rowOf a) ||
    (aget [] u.track (bankOf a)).any fun e => decide (e.1 = rowOf a ∧ 2 * th ≤ e.2)

/-- The row waits from now until its targeted refresh has completed. -/
def Chan.hold (u : Chan) (a : Nat) : Chan :=
  let k := (bankOf a, rowOf a)
  { u.queueRow k.1 k.2 with held := if u.held.contains k then u.held else u.held ++ [k] }

/-- The first `n` queued rows have had their targeted refresh: one that waited for it waits no more and counts afresh; the others that
wait are queued as there is room. -/
def Chan.refreshed (u : Chan) (n : Nat) : Chan :=
  let done := u.tnr.take n
  let late := done.filter fun k => u.held.contains k
  let v := { u with
    tnr := u.tnr.drop n
    held := u.held.filter fun k => !done.contains k
    track := late.foldl (fun t (k : Nat × Nat) => aupd [] t k.1 fun l => l.map fun (e : Nat × Nat) => if e.1 = k.2 then (k.2, 0) else e) u.track }
  v.held.foldl (fun u (k : Nat × Nat) => u.queueRow k.1 k.2) v

/-- Every bank was closed between absolute slots `a` and `n`: by a memory-maintenance slot or the maintenance window (R292). -/
def shutBetween (c a n : Nat) : Bool :=
  let m := 2 * (c % 32)
  decide ((a + m) / 16 ≠ (n + m) / 16 ∨ a / 4096 ≠ n / 4096)

/-- The rows open as a sector of absolute slot `n` comes. -/
def Chan.rowsAt (u : Chan) (c n : Nat) : List (Nat × Nat) := if shutBetween c u.lastSlot n then [] else u.rows

/-- An access of sector `a` in absolute slot `n`: a bank without the row is activated. -/
def Chan.open (u : Chan) (c th n a : Nat) : Chan :=
  let rows := u.rowsAt c n
  if aget 0 rows (bankOf a) = rowOf a + 1 then { u with rows := rows, lastSlot := n }
  else { u.activate th (bankOf a) (rowOf a) with rows := ains (bankOf a) (rowOf a + 1) rows, lastSlot := n }

/-! ### Sectors on the bus (R291, R292) -/

/-- The cycle of a sector's column command, and of all the commands its row needs. -/
def BusSector.at_ (b : BusSector) : Nat := b.start / 8 - (if b.dir = 1 then 14 else 8)
def BusSector.end_ (b : BusSector) : Nat := b.start + b.len
/-- The cycle of the precharge that CLOSE gives after the sector: the run's end, and tWR more after a write (R284, R292). -/
def BusSector.shut (b : BusSector) : Nat := (b.end_ + 7) / 8 + (if b.dir = 2 then 10 else 0)
def BusSector.cmds (b : BusSector) : List Nat :=
  (if b.pre then [b.at_ - 24] else []) ++ (if b.act then [b.at_ - 12] else []) ++ (if b.col then [b.at_] else []) ++
    (if b.close then [b.shut] else [])

/-- Those long past are forgotten, but for the last of each bank. -/
def Chan.trim (u : Chan) (now : Nat) : Chan :=
  let old (b : BusSector) : Bool := decide (b.end_ + 1024 ≤ 8 * now)
  let olds := u.bus.filter old
  { u with bus := u.bus.filter fun b => !old b || !(olds.any fun x => decide (bankOf x.addr = bankOf b.addr ∧ b.start < x.start)) }

/-- An activation in cycle `a` would be the fourth of five consecutive cycles. -/
def crowded (a : Nat) (acts : List Nat) : Bool :=
  (List.range 5).any fun i => decide (3 ≤ (acts.filter fun x => decide (a ≤ x + i ∧ x + i < a + 5)).length)

/-- The first cycle from `a` on in which bank `k`, with a row open or not, can be activated after the program's sectors `l`: tRC after its
last activation, and tRP after a precharge that keeps tRAS and tWR (Table 8-1). -/
def actReady (l : List BusSector) (k : Nat) (open_ : Bool) (a : Nat) : Nat :=
  let own := l.filter fun b => b.own
  let mine := own.filter fun b => decide (bankOf b.addr = k)
  let most (g : BusSector → Option Nat) : Nat := (mine.filterMap g).foldl max 0
  let opened (n : Nat) : Nat := most fun b => if b.act then some (b.at_ - 12 + n) else none
  let wrote := most fun b => if b.dir = 2 then some ((b.end_ + 7) / 8 + 10) else none
  let shut := most fun b => if b.close then some (b.shut + 12) else none
  let t := max a (max (opened 32) (max shut (if open_ then max (opened 20) wrote + 12 else 0)))
  let acts := own.filterMap fun b => if b.act then some (b.at_ - 12) else none
  ((List.range 6).find? fun i => !crowded (t + i) acts).getD 5 + t

/-- A sector of the program goes on the bus. -/
def Chan.put (u : Chan) (c th cps : Nat) (b : BusSector) : Chan :=
  let n := b.start / 8 / cps
  let r := aget 0 (u.rowsAt c n) (bankOf b.addr)
  let hit := decide (r = rowOf b.addr + 1)
  let v := u.open c th n b.addr
  { v with bus := { b with pre := !hit && decide (r ≠ 0), act := !hit, col := b.col || !hit } :: u.bus
           lent := if hit then u.lent else u.lent.filter fun k => decide (k ≠ bankOf b.addr)
           rows := if b.close then adel (bankOf b.addr) v.rows else v.rows }

/-- Sectors go on the bus in order, until one whose row's activation must wait (R303): the channel, and how many did. -/
def Chan.puts (c th cps : Nat) : List BusSector → Chan → Chan × Nat
  | [], u => (u, 0)
  | b :: l, u =>
    if decide (aget 0 (u.rowsAt c (b.start / 8 / cps)) (bankOf b.addr) ≠ rowOf b.addr + 1) && u.hammered th b.addr then (u, 0)
    else
      let r := Chan.puts c th cps l (u.put c th cps b)
      (r.1, r.2 + 1)

/-! ### Programs (R289) -/

/-- The command program of a channel and its entry `i`. -/
def State.chanSect (s : State) (c : Nat) : Option Bytes := s.sect 4 (c / 32) (c % 32)
def chanEntry (b : Bytes) (i : Nat) : Option Nat :=
  if i < fieldAt b 0 4 then some (fieldAt b (fieldAt b 4 4 + 16 * i) 16) else none

/-- Fields of an entry (Table 8-2). -/
def meAfter (w : Nat) : Bool := w.testBit 40
def meOp (w : Nat) : Nat := w / 2 ^ 41 % 4
def meClose (w : Nat) : Bool := w.testBit 43
def meFlush (w : Nat) : Bool := w.testBit 44
def meSaddr (w : Nat) : Nat := w / 2 ^ 48 % 2 ^ 26
def meCount (w : Nat) : Nat := w / 2 ^ 74 % 2 ^ 24 + 1

/-- The last timed entry at or before entry `i`, and its index. -/
def timedAt (b : Bytes) : Nat → Option (Nat × Nat)
  | 0 => (chanEntry b 0).map fun w => (0, w)
  | i + 1 => match chanEntry b (i + 1) with
    | none => none
    | some w => if meAfter w then timedAt b i else some (i + 1, w)

/-- Entry `i` is the first of its relative epoch. -/
def firstOfEpoch (b : Bytes) (i : Nat) : Bool :=
  match i with
  | 0 => true
  | k + 1 => match chanEntry b (k + 1), timedAt b k with
    | some w, some (_, v) => !meAfter w && decide (stampEpoch w ≠ stampEpoch v)
    | _, _ => false

/-- The threshold of R303. -/
def State.actTh (s : State) (c : Nat) : Nat := s.rd (pgChannel c) MC_ACT_TH_TH

/-- Half-width doubles a sector's time (R283). -/
def State.chanHw (s : State) (c : Nat) : Nat := if s.rd (pgChannel c) MC_STATUS_STATE = 3 then 2 else 1

/-- The cycles from a row's first command to its first sector, from a closed bank. -/
def rowLead (op : Nat) : Nat := 12 + (if op = 1 then 14 else 8)

/-- The first position from `pos` at which sector `a` of a run of direction `op` can follow its row's commands: `pos` where the bank holds the
row. A run that is on time has room for them (R293); a late one waits (R296). -/
def Chan.rowReady (u : Chan) (c cps op a pos : Nat) : Nat :=
  let r := aget 0 (u.rowsAt c (pos / 8 / cps)) (bankOf a)
  if r = rowOf a + 1 then pos
  else max pos (8 * (actReady u.bus (bankOf a) (decide (r ≠ 0)) (pos / 8 - rowLead op) + rowLead op))

/-- The starts of `n` sectors from `pos`, the first of them sector `a`, each row's first when its commands allow, and the end of the last. -/
def rowStarts (f : Nat → Bool) (hw limit : Nat) (ready : Nat → Nat → Nat) : Nat → Nat → Bool → Nat → List Nat × Nat
  | 0, _, _, pos => ([], pos)
  | n + 1, a, new, pos =>
    let p := placeSector f hw limit 8 (if new || decide (a % 32 = 0) then ready a pos else pos)
    let r := rowStarts f hw limit ready n (a + 1) false (p + 5 * hw)
    (p :: r.1, r.2)

/-- The sectors of run `w` from its `j0`-th on, at most `n` of them: where they begin and end on the bus, of a channel in state `u`. One
that waited for a targeted refresh begins as soon as it can (R78, R303). -/
def State.runPlan (s : State) (c w j0 n : Nat) (waited : Bool) (u : Chan) : List BusSector × Nat :=
  let hw := s.chanHw c
  let f := dataCycle s.cps c u.stopped
  let b := if j0 = 0 then lateBegin f (meAfter w) (meOp w) (s.absCycle (stampSlot w) (stampCyc w)) u.prevEnd u.prevDir else u.prevEnd
  let st := rowStarts f hw (24 * s.cps) (fun a pos => u.rowReady c s.cps (meOp w) a pos) n (meSaddr w + j0) true
    (if waited then max b (8 * (s.cycles + rowLead (meOp w))) else b)
  ((List.range n).map fun i =>
    let a := meSaddr w + j0 + i
    { addr := a, dir := meOp w, start := st.1.getD i 0, len := 5 * hw, first := decide (j0 + i = 0)
      col := decide (i = 0 ∨ a % 32 = 0), close := meClose w && decide (j0 + i + 1 = meCount w) }, st.2)

/-- The runs that the program will place next, on a copy of the channel: up to those that begin after cycle `limit`. -/
def State.foresee (s : State) (c : Nat) (b : Bytes) (limit : Nat) : Nat → Nat → Chan → Chan
  | 0, _, u => u
  | fuel + 1, i, u =>
    match chanEntry b i, timedAt b i with
    | some w, some (_, v) =>
      if stampEpoch v ≠ s.relInPeriod (s.partOfRiser (c / 32)) then u
      else
        let r := s.runPlan c w 0 (min (meCount w) 256) false u
        let v := (r.1.foldl (fun u x => u.put c (s.actTh c) s.cps x) u)
        if 8 * limit < (r.1.headD { addr := 0, dir := 0, start := 8 * limit, len := 0 }).start then u
        else s.foresee c b limit fuel (i + 1) { v with prevEnd := r.2, prevDir := meOp w }
    | _, _ => u

/-- The entry that comes next in the epoch: the one after the last that ran in it, or the epoch's first; none once all have run. -/
def State.nextEntry (s : State) (c : Nat) (b : Bytes) (u : Chan) : Option Nat :=
  let e := s.relInPeriod (s.partOfRiser (c / 32))
  if u.ranAt = s.epoch + 1 then
    if (chanEntry b u.pc).isSome && (timedAt b u.pc).any fun v => decide (stampEpoch v.2 = e) then some u.pc else none
  else (List.range (fieldAt b 0 4)).find? fun i => firstOfEpoch b i && (chanEntry b i).any fun w => decide (stampEpoch w = e)

/-- The channel with all that its program claims in the next `span` cycles (R298). A partition that is not RUNNING or HOLDING claims
nothing (R299). -/
def State.claims (s : State) (c span : Nat) : List BusSector :=
  let u := (s.chan c).trim s.cycles
  match (if s.playing (s.partOfRiser (c / 32)) then s.chanSect c else none) with
  | none => u.bus
  | some b => match s.nextEntry c b u with
    | some i => (s.foresee c b (s.cycles + span) 256 i u).bus
    | none => u.bus

/-! ### Unscheduled accesses (R298) -/

/-- What is known of a bank in cycle `now`: the row open plus one, whether it is an unscheduled access's, and the cycles, plus one each, of
its last activation, last precharge and last write's end. -/
structure BankNow where
  row : Nat := 0
  lent : Bool := false
  act : Nat := 0
  pre : Nat := 0
  wrote : Nat := 0
  deriving DecidableEq, Repr

def State.bankNow (s : State) (c k : Nat) (l : List BusSector) : BankNow :=
  let now := s.cycles
  let u := s.chan c
  let mine := l.filter fun b => decide (bankOf b.addr = k)
  let past := mine.filter fun b => decide (b.at_ ≤ now)
  let last := past.foldl (fun m b => match m with | none => some b | some x => if x.start ≤ b.start then some b else some x) (none : Option BusSector)
  let most (g : BusSector → Option Nat) : Nat := (past.filterMap g).foldl max 0
  let row := match last with
    | some b => if b.close || shutBetween c (b.start / 8 / s.cps) (now / s.cps) then 0 else rowOf b.addr + 1
    | none => if mine.isEmpty then aget 0 (u.rowsAt c (now / s.cps)) k else 0
  { row := row
    lent := u.lent.contains k
    act := most fun b => if b.act then some (b.at_ - 12 + 1) else none
    pre := most fun b => if b.close then some (b.shut + 1) else none
    wrote := most fun b => if b.dir = 2 then some ((b.end_ + 7) / 8 + 1) else none }

/-- Between positions `e` and `a` the bus can turn from direction `d` to `d'`. -/
def turns (f : Nat → Bool) (e d a d' : Nat) : Bool := decide (d = d' ∨ e + 32 ≤ a) || !turnCosts f e

/-- Where an unscheduled access of sectors `as` of one row, in direction `dir`, goes on the bus when its first command is given now; none
where the program's sectors, banks or commands are in the way, or Table 8-1 is (R284, R298). -/
def State.fit (s : State) (c : Nat) (as : List Nat) (dir : Nat) : Option (List BusSector) :=
  let now := s.cycles
  let l := s.claims c 120
  let a0 := as.headD 0
  let k := s.bankNow c (bankOf a0) l
  let hw := s.chanHw c
  let f := dataCycle s.cps c (s.chan c).stopped
  let hit := decide (k.row = rowOf a0 + 1)
  let lead := if hit then 0 else if k.row = 0 then 12 else 24
  let pos := 8 * (now + lead + (if dir = 1 then 14 else 8))
  let mine : List BusSector := as.zipIdx.map fun e =>
    { addr := e.1, dir := dir, start := pos + 5 * hw * e.2, len := 5 * hw, own := false, first := decide (e.2 = 0)
      pre := decide (lead = 24 ∧ e.2 = 0), act := decide (0 < lead ∧ e.2 = 0), col := decide (e.2 = 0) }
  let end_ := pos + 5 * hw * as.length
  let cmds := mine.flatMap BusSector.cmds
  let act := now + lead - 12
  let free := mine.all (fun b => fits f hw b.start) && l.all fun b => decide (b.end_ ≤ pos ∨ end_ ≤ b.start)
  let turn := l.all fun b => if b.start < pos then turns f b.end_ b.dir pos dir else turns f end_ dir b.start b.dir
  let bank := hit || ((decide (k.row = 0) || k.lent) &&
    !(l.any fun b => b.own && decide (bankOf b.addr = bankOf a0) && b.cmds.any fun t => decide (now ≤ t ∧ t < now + 70)))
  let timing := hit || (decide (k.act = 0 ∨ k.act + 31 ≤ act) && decide (k.pre = 0 ∨ k.pre + 11 ≤ act) &&
    (decide (lead = 12) || decide ((k.act = 0 ∨ k.act + 19 ≤ now) ∧ (k.wrote = 0 ∨ k.wrote + 9 ≤ now))) &&
    !crowded act (l.filterMap fun b => if b.act then some (b.at_ - 12) else none))
  let quiet := !(l.any fun b => b.own && b.cmds.any fun t => cmds.contains t)
  if free && turn && bank && timing && quiet then some mine else none

/-- The access needs an activation that waits for its row's targeted refresh (R303). -/
def State.waitsRefresh (s : State) (c : Nat) (l : List BusSector) : Bool :=
  l.any fun b => b.act && (s.chan c).hammered (s.actTh c) b.addr

/-- It goes on the bus now: its row need not wait for a targeted refresh either. -/
def State.access (s : State) (c : Nat) (as : List Nat) (dir : Nat) : Option (List BusSector) :=
  (s.fit c as dir).filter fun l => !s.waitsRefresh c l

/-- The access goes on the bus: its row is open after it, where the program has not placed a later row there. -/
def Chan.lend (u : Chan) (c th cps now : Nat) (l : List BusSector) : Chan :=
  match l.head? with
  | none => u
  | some b =>
    let k := bankOf b.addr
    let v := u.trim now
    let w := { v with bus := l.reverse ++ v.bus }
    if !b.act then w
    else
      let x := w.activate th k (rowOf b.addr)
      if v.bus.any fun y => y.own && decide (bankOf y.addr = k ∧ b.start < y.start) then x
      else { x with rows := ains k (rowOf b.addr + 1) (w.rowsAt c (b.start / 8 / cps)), lastSlot := max u.lastSlot (b.start / 8 / cps)
                    lent := k :: x.lent.filter fun y => decide (y ≠ k) }

end Sys2Proof.Machine
end

