-- ==== Sys2Proof/Machine/Channels.lean ====
section
/-!
DEFINITION. Machine/Channels.lean: the memory channels, column groups and the Parting Link's wires
(08_stacked_memory.md).
-/

namespace Sys2Proof.Machine

open Sys2Proof

/-! ### Sectors -/

/-- The local address of sector `a` of channel `c` under the seed in force (R286, R287). -/
def State.sectorAt (s : State) (c a : Nat) : Nat :=
  (c / 32) * 0x1400000000 + riserOffset (c % 32) (a * 64) (s.rd (pgChannel (32 * (c / 32))) MC_SEED_SEED)

/-! ### Read runs (R294) -/

/-- A read sector, from address `a` of the channel, joins the word being packed; the eighth completes it. -/
def Chan.pack (u : Chan) (a : Nat) (d : Bytes) (bad : Bool) (endAt : Nat) : Chan :=
  let l := u.packing ++ [(d, bad)]
  let m := u.packOf ++ [a]
  if l.length < 8 then { u with packing := l, packOf := m }
  else
    { u with packing := [], packOf := [], readOf := ains endAt m u.readOf
             ready := u.ready ++ [(endAt, ⟨(l.map fun e => e.1).flatten, maskOf 8 fun i => (l.getD i ([], false)).2⟩)] }

/-- FLUSH after a read: the word is completed with zero sectors. -/
def Chan.flushRead (u : Chan) (endAt : Nat) : Chan :=
  if u.packing.isEmpty then u
  else (List.range (8 - u.packing.length)).foldl (fun u _ => u.pack (2 ^ 26) (List.replicate 64 0) false endAt) u

/-- The sectors of a read run, in order. -/
def State.readRun (s : State) (c : Nat) (l : List BusSector) : State :=
  let s1 := l.foldl (fun s b =>
    let d := s.readMem (s.sectorAt c b.addr) 64
    s.modChan c fun u => u.pack b.addr d.1 (bit d.2 0) b.end_) s
  { s1 with free := s1.free + 1 }

/-- A read word that is packed or ready is poisoned where sector `a` went into it. -/
def Chan.hurtRead (u : Chan) (a : Nat) : Chan :=
  { u with
    packing := u.packing.zipIdx.map fun e => if u.packOf.getD e.2 (2 ^ 26) = a then (e.1.1, true) else e.1
    ready := u.ready.map fun e =>
      (e.1, { e.2 with poison := e.2.poison ||| maskOf 8 fun i => decide ((aget [] u.readOf e.1).getD i (2 ^ 26) = a) }) }

/-- Sector `a` is in a read word that has not been driven. -/
def Chan.reading (u : Chan) (a : Nat) : Bool := u.packOf.contains a || u.ready.any fun e => (aget [] u.readOf e.1).contains a

/-! ### Write runs (R295) -/

/-- A write sector without its data in time: recorded as poisoned, MC_WLATE, a schedule slip. -/
def State.writeLate (s : State) (c : Nat) (d : DueSector) : State :=
  let p := s.partOfRiser (c / 32)
  let t := d.start / 8
  ((s.mark (s.sectorAt c d.addr) true).bump (pgChannel c) MC_WLATE_COUNT).slip (pgChannel c) p (s.relEpoch p)
    (t / s.cps % 4096) (t % s.cps) 0

/-- A write sector takes its data, and stays undefined within a cacheable range (R332). -/
def State.writeSector (s : State) (c : Nat) (d : DueSector) (w : BWord) (i : Nat) : State :=
  let a := s.sectorAt c d.addr
  if s.cacheable a then s.undefine a 64 else s.writeMem a (slice w.data (64 * i) 64) (if bit w.poison i then 1 else 0)

/-- A late sector's data is passed over: in the word that is there, else in the one that comes; with FLUSH the rest of that word too. -/
def Chan.passOver (u : Chan) (flush : Bool) : Chan :=
  match u.wbuf.find? fun e => decide (e.used < 8) with
  | some e => { u with wbuf := u.wbuf.map fun x => if x = e then { e with used := if flush then 8 else e.used + 1 } else x }
  | none => { u with skip := if flush then (u.skip / 8 + 1) * 8 else u.skip + 1 }

/-- The due sectors served from the buffer, in order; those whose time passed before cycle `t` are late, and so is their data (R295; DEDUCED, log entry 172). -/
def State.serveDue (s : State) (c t hw : Nat) : Nat → State
  | 0 => s
  | n + 1 =>
    let u := s.chan c
    match u.due with
    | [] => s
    | d :: ds =>
      let s0 := s.modChan c fun u => { u with due := ds }
      let late : State := (s0.writeLate c d).modChan c fun u => u.passOver d.flush
      match u.wbuf.find? fun e => decide (e.used < 8) with
      | some e =>
        if 8 * (e.cycle + 9) ≤ d.start / 8 * 8 then
          let f := { e with used := if d.flush then 8 else e.used + 1, until_ := d.start + 5 * hw, addrs := e.addrs ++ [d.addr] }
          let s1 := s0.writeSector c d e.word e.used
          (s1.modChan c fun u => { u with wbuf := u.wbuf.map fun x => if x = e then f else x }).serveDue c t hw n
        else late.serveDue c t hw n
      | none => if d.start / 8 < t + 9 then late.serveDue c t hw n else s

/-- Every due sector that can be served is, with time at cycle `t`. -/
def State.serveAll (s : State) (c t hw : Nat) : State := s.serveDue c t hw ((s.chan c).due.length)

/-! ### Runs -/

/-- The sectors of a run of direction `op` that went on the bus are carried out. -/
def State.doRun (s : State) (c op : Nat) (flush : Bool) (l : List BusSector) (hw : Nat) : State :=
  if op = 1 then
    let t := s.readRun c l
    if flush then t.modChan c fun u => u.flushRead ((l.getLast?.map BusSector.end_).getD 0) else t
  else
    let due := l.zipIdx.map fun e => ({ addr := e.1.addr, start := e.1.start, flush := flush && decide (e.2 + 1 = l.length) } : DueSector)
    (s.modChan c fun u => { u with due := u.due ++ due }).serveAll c 0 hw

/-- The channel moves data: trained, not retraining; a failed one still answers with poison (R315). -/
def State.chanLive (s : State) (c : Nat) : Bool := [1, 2, 3, 5].contains (s.rd (pgChannel c) MC_STATUS_STATE)

/-- The run that entry `index`, word `w`, gives begins late: a slip at its planned cycle (R296). -/
def State.runSlip (s : State) (c plan late : Nat) : State :=
  let p := s.partOfRiser (c / 32)
  (s.bump (pgChannel c) MC_SLIP_COUNT).slip (pgChannel c) p (s.relEpoch p) (plan / s.cps % 4096) (plan % s.cps) late

/-- The sectors `l` of a run within a cacheable range: copy and home are undefined (R332). -/
def State.spoiled (s : State) (c : Nat) (l : List BusSector) : State := s.spoilRun (l.map fun b => s.sectorAt c b.addr)

/-- The sectors of entry `index` that can go on the bus now do: all that are left of it, or those before a row that waits for its targeted
refresh, which is noted once (R303). -/
def State.run (s : State) (c index w : Nat) : State :=
  let u := s.chan c
  let here := decide (u.ranAt = s.epoch + 1 ∧ u.pc = index)
  let j0 := if here then u.part else 0
  let waited := here && decide (u.blocked = index + 1)
  let n := meCount w - j0
  let r := s.runPlan c w j0 n waited u
  let x := Chan.puts c (s.actTh c) s.cps r.1 (u.trim s.cycles)
  let l := r.1.take x.2
  let g := dataCycle s.cps c 0
  let full := runStarts g 1 (24 * s.cps) (meCount w)
    (runBegin g (meAfter w) (meOp w) (s.absCycle (stampSlot w) (stampCyc w)) u.prevFull u.prevDir)
  let plan := full.1.getD 0 0
  let s1 := ((s.spoiled c l).modChan c fun _ =>
      { x.1 with moved := u.moved + x.2, ranAt := s.epoch + 1, prevEnd := (l.getLast?.map BusSector.end_).getD u.prevEnd
                 prevDir := if l.isEmpty then u.prevDir else meOp w }).doRun c (meOp w) (meFlush w && decide (x.2 = n)) l (s.chanHw c)
  if x.2 = n then
    let s2 := s1.modChan c fun u => { u with prevEnd := r.2, prevDir := meOp w, prevFull := full.2, pc := index + 1, part := 0, blocked := 0 }
    let late := (r.1.map BusSector.start).headD 0 - plan
    if j0 ≠ 0 ∨ waited = true ∨ late = 0 then s2 else s2.runSlip c (plan / 8) ((late + 7) / 8)
  else
    let s2 := s1.modChan c fun v => { v.hold (meSaddr w + j0 + x.2) with pc := index, part := j0 + x.2, blocked := index + 1 }
    if waited then s2 else (s2.bump (pgChannel c) MC_HAMMER_COUNT).runSlip c (plan / 8) 0

/-- MEMORY_RUN (R289 to R296, R303): entry `index` of the channel's program, next in order in its epoch, is placed
on the bus; in a channel in reset it is absorbed (R544). A run onto a row that waits for its targeted refresh waits there too. -/
def execMemoryRun (chan : Fin 256) (index : Nat) (s : State) : Host.Outcome State Fault Refusal :=
  finish (tiled ++ [.undef, .chans, .slices]) s <|
    let c := chan.val
    let p := s.partOfRiser (c / 32)
    match s.chanSect c with
    | none => s
    | some b =>
      match chanEntry b index, timedAt b index with
      | some w, some (_, v) =>
        let u := s.chan c
        if s.playing p && decide (s.nextEntry c b u = some index) && s.chanLive c then
          if s.out (pgChannel c) then
            let t := s.absCycle (stampSlot v) (stampCyc v)
            (s.modChan c fun u => { u with pc := index + 1, ranAt := s.epoch + 1 }).slip (pgChannel c) p (s.relEpoch p) (t / s.cps % 4096) (t % s.cps) 0
          else s.run c index w
        else s
      | _, _ => s

/-- The first scheduled cycle from `t` on with phase `i` of four (R294). -/
def phaseCycle (cps i : Nat) : Nat → Nat → Nat
  | 0, t => t
  | n + 1, t => if scheduled cps t && decide (t % 4 = i % 4) then t else phaseCycle cps i n (t + 1)

/-- The hub port of a channel's layer. -/
def layerPort (c : Nat) : Nat := 24 + c % 32 / 4

/-- READ_WORD_DRIVE (R294): the oldest complete word is driven in its cycle, or discarded where no
connection takes it. -/
def execReadWordDrive (chan : Fin 256) (s : State) : Host.Outcome State Fault Refusal :=
  finish [.regs, .net, .chans] s <|
    let c := chan.val
    match (s.chan c).ready with
    | [] => s
    | (e, w) :: rest =>
      let hub := 80 + c / 32
      let t := phaseCycle s.cps c (24 * s.cps) ((e + 7) / 8 + 2)
      let s1 := s.modChan c fun u => { u with ready := rest, readOf := adel e u.readOf }
      if s.net.taken s.cps hub (layerPort c) t then s1.drive hub (layerPort c) t w
      else s1.bump (pgChannel c) MC_WDROP_READ

/-- Some sector of a word of the write buffer still waits for its rewrite: the buffer keeps the word (R306). -/
def State.rewriting (s : State) (c : Nat) (e : WEntry) : Bool :=
  e.addrs.any fun a => s.awaiting (s.sectorAt c a) && (s.chan c).rewrite.any fun x => decide (x.1 = s.sectorAt c a)

/-- WRITE_WORD_ARRIVAL (R295): the word the hub's schedule delivers at the channel's layer port in cycle
`cyc` of the current slot, in the channel's phase, enters the write buffer, or is discarded at a full one. -/
def execWriteWordArrival (chan : Fin 256) (cyc : Nat) (s : State) : Host.Outcome State Fault Refusal :=
  finish (tiled ++ [.undef, .chans]) s <|
    let c := chan.val
    let t := s.absCycle s.slot cyc
    if s.cps ≤ cyc ∨ t % 4 ≠ c % 4 then s
    else match s.wordOut (80 + c / 32) (layerPort c) t with
      | none => s
      | some (w, m) =>
        let hw := s.chanHw c
        let s1 := (if m then s.slipAt (pgChannel c) (c / 32) t else s).serveAll c t hw
        let buf := (s1.chan c).wbuf.filter fun e => decide (e.used < 8 ∨ 8 * t < e.until_) || s1.rewriting c e
        if 32 ≤ buf.length then (s1.modChan c fun u => { u with wbuf := buf }).bump (pgChannel c) MC_WDROP_WRITE
        else
          (s1.modChan c fun u =>
            { u with wbuf := buf ++ [{ word := w, cycle := t, used := min 8 u.skip }], skip := u.skip - 8 }).serveAll c t hw

/-! ### Unscheduled accesses (R298, R299) -/

/-- The sectors of a request in channel `c`, as the channel numbers them. -/
def State.sectorsIn (s : State) (c : Nat) (r : Req) : List Nat :=
  (((sectors (localOf r.addr) r.span).filter fun x => decide (s.chanAt x = c)).map fun x => chanLocal (x % 0x1400000000) / 64)

/-- A request that waits in the channel's queue: come to its memory, its part there not served. -/
def State.queued (s : State) (c : Nat) (e : Nat × Req) : Bool :=
  let r := e.2
  (match homeOf (localOf r.addr) with | .dram _ => true | _ => false) && r.remote.isNone && r.ans.isNone && s.ownPkg r.addr &&
    !s.travels e.1 false && !r.served.contains c && !(s.sectorsIn c r).isEmpty

/-- The queue of channel `c`: the 64 requests that came first (log entry 131). -/
def State.chanQueue (s : State) (c : Nat) : List (Nat × Req) := (s.hall.reqs.filter fun e => s.queued c e).take 64

/-- Direction of a request's access: a read, or a write; an atomic's is counted as its read. -/
def Req.dir (r : Req) : Nat := if isStore r.op then 2 else 1

/-- A request waits behind an older one of the queue that touches one of its sectors (R299). -/
def State.behind (s : State) (c : Nat) (q : List (Nat × Req)) (e : Nat × Req) : Bool :=
  let own := s.sectorsIn c e.2
  q.any fun x => decide (x.1 < e.1) && (s.sectorsIn c x.2).any fun a => own.contains a

/-- The request can be served now: its access fits on the bus, and no request before it in the queue is for one of its sectors. -/
def State.servable (s : State) (c : Nat) (q : List (Nat × Req)) (e : Nat × Req) : Option (List BusSector) :=
  if s.behind c q e then none else s.access c (s.sectorsIn c e.2) e.2.dir

/-- The first command of an access that fits now is an activation that waits: the row is held for its targeted refresh, once, and counts
in MC_HAMMER (R303, log entry 164). -/
def State.holdRow (s : State) (c : Nat) (l : List BusSector) : State :=
  match l.find? fun b => b.act with
  | some b =>
    if (s.chan c).held.contains (bankOf b.addr, rowOf b.addr) then s
    else (s.modChan c fun u => u.hold b.addr).bump (pgChannel c) MC_HAMMER_COUNT
  | none => s

/-- Request `e` comes before `x` in the queue's order: by level, then by age (R299). -/
def before_ (e x : Nat × Req) : Bool := decide (x.2.level < e.2.level ∨ (e.2.level = x.2.level ∧ e.1 < x.1))

/-- The cycle lies in a data slot of the channel. -/
def State.openSlot (s : State) (c : Nat) : Bool := decide (s.slot ≤ 4087) && !maintSlot c (s.time.ticks / 256)

/-- UNSCHEDULED_ACCESS (R298, R299): the channel serves its part of request `id`, where it is the first of its queue, by level and then by age,
that fits on the bus now; not in memory-maintenance slots nor in slots 4088 to 4095. The memory then performs it. -/
def execUnscheduledAccess (chan : Fin 256) (id : Nat) (s : State) : Host.Outcome State Fault Refusal :=
  finish [.regs, .hall, .chans] s <|
    let c := chan.val
    let q := s.chanQueue c
    match q.find? fun e => decide (e.1 = id) with
    | none => s
    | some e =>
      if !s.chanLive c || !s.openSlot c then s
      else match s.servable c q e with
        | none => match s.fit c (s.sectorsIn c e.2) e.2.dir with
          | some l => if !s.behind c q e && s.waitsRefresh c l then s.holdRow c l else s
          | none => s
        | some l =>
          if (q.filter fun x => before_ x e).any fun x => (s.servable c q x).isSome then s
          else
            ((s.setReq id { e.2 with served := c :: e.2.served }).bump (pgChannel c) MC_UNSCHED_COUNT).modChan c
              fun u => { u.lend c (s.actTh c) s.cps s.cycles l with moved := u.moved + l.length }

/-! ### Refresh and row activation (R300 to R303) -/

/-- The band in force for a Riser: 4× until stage 11 has ended (R529). -/
def State.bandOf (s : State) (n : Nat) : Nat := if 12 ≤ s.boot.next then aget 0 s.health.band n else 2

/-- Refreshes of a band in one slot, and the groups of three targeted refreshes that fit (Table 8-4). -/
def refreshesOf (band : Nat) : Nat := 2 ^ min 2 band
def tnrGroups (cps band : Nat) : Nat := (cps - 38 - 20 * refreshesOf band) / 68

/-- The longest start of a queue, at most three rows, in distinct banks. -/
def tnrGroup : Nat → List Nat → List (Nat × Nat) → Nat
  | 0, _, _ => 0
  | _, _, [] => 0
  | n + 1, seen, (b, _) :: l => if seen.contains b then 0 else tnrGroup n (b :: seen) l + 1

/-- How many queued rows `k` groups serve. -/
def tnrServed : Nat → List (Nat × Nat) → Nat
  | 0, _ => 0
  | k + 1, l => let n := tnrGroup 3 [] l; n + tnrServed k (l.drop n)

/-- MEMORY_MAINTENANCE_SLOT (R301): in a maintenance slot of the channel, once: the refreshes of its band,
then targeted refreshes, oldest first; every bank closes: a row that a later run will open is not open yet. -/
def execMemoryMaintenanceSlot (chan : Fin 256) (s : State) : Host.Outcome State Fault Refusal :=
  finish (tiled ++ [.undef, .chans]) s <|
    let c := chan.val
    let st := s.rd (pgChannel c) MC_STATUS_STATE
    if st = 0 ∨ !maintSlot c (s.time.ticks / 256) ∨ (s.chan c).maintAt = s.time.slots + 1 then s
    else
      let band := s.bandOf (c / 32)
      let n := tnrServed (tnrGroups s.cps band) (s.chan c).tnr
      let s1 := (s.serveAll c s.cycles (s.chanHw c)).modChan c fun u =>
        { u.refreshed n with
          refreshes := u.refreshes + refreshesOf band, refreshAt := s.real, maintAt := s.time.slots + 1
          rows := if u.lastSlot ≤ s.cycles / s.cps then [] else u.rows }
      (s1.bump (pgChannel c) MC_TNR_COUNT n).wr (pgChannel c) MC_STATUS_BAND band

/-- The refreshes a trained channel owes in real time are issued at once after a step (R302). -/
def State.refreshOwed (s : State) : State :=
  (List.range 256).foldl (fun s c =>
    if s.rd (pgChannel c) MC_STATUS_STATE = 0 then s
    else
      let n := (s.real - (s.chan c).refreshAt) * refreshesOf (s.bandOf (c / 32)) / 4096
      s.modChan c fun u => { u with refreshes := u.refreshes + n, refreshAt := if n = 0 then u.refreshAt else s.real }) s

/-! ### Rewrites (R306) -/

/-- WRITE_PARITY_REWRITE (R306): the sector waiting at `addr` is written again, at a bus position that no scheduled sector claims; passed,
its mark clears, and the buffer may give up its word. One that was written since is not written again (Table 8-6). -/
def execWriteParityRewrite (chan : Fin 256) (addr : Nat) (passed : Bool) (s : State) : Host.Outcome State Fault Refusal :=
  finish (tiled ++ [.chans]) s <|
    let c := chan.val
    let done (s : State) : State := s.modChan c fun u => { u with rewrite := u.rewrite.filter fun x => decide (x.1 ≠ addr) }
    match (s.chan c).rewrite.find? fun e => decide (e.1 = addr) with
    | none => s
    | some e =>
      if !s.awaiting addr then done s
      else match s.fit c [chanLocal (addr % 0x1400000000) / 64] 2 with
        | none => s
        | some l =>
          if s.waitsRefresh c l then s.holdRow c l
          else
            let s1 := s.modChan c fun u => u.lend c (s.actTh c) s.cps s.cycles l
            if passed then done (s1.writeMem addr e.2 0) else s1

/-! ### Margins (R307, R308) -/

/-- MC_MARGIN_LOW on a page. -/
def State.marginLow (s : State) (pg lane phase volt : Nat) : State :=
  s.raise pg ev_MC_MARGIN_LOW (le 2 lane ++ le 1 phase ++ le 1 volt)

/-- The group of a physical lane: spare 256 + k belongs to group k (R282). -/
def laneGroup (lane : Nat) : Nat := if lane < 256 then lane / 32 else lane % 8

/-- A lane failure of channel `c` is declared (R309). -/
def State.declare (s : State) (c g : Nat) : State := s.modChan c fun u => { u with declared := u.declared ||| 2 ^ g }

/-- A channel's worst margins as measured: its page, RETRAIN_DUE; no margin left is a lane failure. -/
def State.chanMargin (s : State) (c phase volt lane : Nat) : State :=
  let pg := pgChannel c
  let s0 := if phase = 0 ∨ volt = 0 then s.declare c (laneGroup lane) else s
  let s1 := s0.wrs pg [(MC_MARGIN_PHASE, phase), (MC_MARGIN_VOLT, volt), (MC_MARGIN_LANE, lane)]
  if phase < s.rd pg MC_MARGIN_MIN_PHASE ∨ volt < s.rd pg MC_MARGIN_MIN_VOLT then
    (s1.wr pg MC_STATUS_RETRAIN_DUE 1).marginLow pg lane phase volt
  else s1

def State.modWires (s : State) (g : Nat) (f : Wires → Wires) : State := { s with wires := aupd {} s.wires g f }

/-- A column group's worst margin. Its threshold is that of the channel of the same number: the spec gives
the crossings none of their own (log entry 36). -/
def State.groupMargin (s : State) (n g m : Nat) : State :=
  let s1 := s.modWires (32 * n + g) fun w => { w with margin := m, declared := if m = 0 then w.declared ||| 4 else w.declared }
  if m < s.rd (pgChannel (32 * n + g)) MC_MARGIN_MIN_PHASE then
    (s1.wr (pgColumns n) MC_XG_RETRAIN_DUE (setBit (s1.rd (pgColumns n) MC_XG_RETRAIN_DUE) g true)).marginLow (pgColumns n) g m m
  else s1

/-- The Parting Link's worst margin of each direction, and its time-path delay, by which the Drag half's copy of the counter is advanced (R58). -/
def State.plMargin (s : State) (o : PlObs) : State :=
  let s1 := (s.wrs pgParting [(MC_PL_MARGIN_CD, o.cd), (MC_PL_MARGIN_DC, o.dc)]).wr pgHt HT_SKEW_PS o.skew
  let mark (d m : Nat) (s : State) : State := s.modWires (256 + d) fun w => { w with declared := if m = 0 then w.declared ||| 4 else w.declared }
  let s2 := mark 1 o.dc (mark 0 o.cd s1)
  let m := min o.cd o.dc
  if m < s.rd (pgChannel 0) MC_MARGIN_MIN_PHASE then s2.marginLow pgParting (if o.cd ≤ o.dc then 0 else 1) m m else s2

/-- A lane failure acted on the unit in this epoch's maintenance window: its re-centring is abandoned (Table 8-6). -/
def State.recut (s : State) (cut : Nat) : Bool := decide (cut = s.epoch + 1)

/-- RECENTRE (R307, R308): channel and column group e mod 32 of a Riser, and
with Riser 0 the Parting Link, end their re-centring, which takes seven slots of the maintenance window, and are measured. -/
def execRecentre (riser : Fin 8) (phase : Nat) (volt : Nat) (lane : Nat) (xgMargin : Nat) (pl : PlObs) (s : State) :
    Host.Outcome State Fault Refusal :=
  finish (evented ++ [.ledger, .chans, .wires]) s <|
    let n := riser.val
    let k := s.epoch % 32
    let c := 32 * n + k
    if s.slot < 4094 then s
    else
      let s1 :=
        if [1, 2, 3].contains (s.rd (pgChannel c) MC_STATUS_STATE) && !s.recut (s.chan c).cut then
          ((s.wr (pgChannel c) MC_RECENTRE_EPOCH s.epoch).chanMargin c phase volt lane).ageMoved
            { seq := 0, unit := pgChannel c, hours := 0, kind := 1, index := 0xFF, phase := phase, volt := volt }
        else s
      let s2 :=
        if s1.groupState n k ≠ 3 && !s.recut (aget {} s.wires c).cut then
          (s1.groupMargin n k xgMargin).ageMoved { seq := 0, unit := pgGroup (32 * n + k), hours := 0, kind := 2, index := k, phase := xgMargin }
        else s1
      if n = 0 && !s.recut (max (aget {} s.wires 256).cut (aget {} s.wires 257).cut) then
        ((s2.plMargin pl).ageMoved { seq := 0, unit := pgParting, hours := 0, kind := 3, index := 0, phase := pl.cd }).ageMoved
          { seq := 0, unit := pgParting, hours := 0, kind := 3, index := 1, phase := pl.dc }
      else s2

/-! ### Parity errors and lane failures (R309, R310, R313 to R315) -/

/-- The cycles of `l` within the last 256 of `t`, with `t`. -/
def recentErrs (l : List Nat) (t : Nat) : List Nat := t :: l.filter fun x => decide (t < x + 256)

/-- MC_LANE_PARITY on a page. -/
def State.laneParity (s : State) (pg g n : Nat) : State := s.raise pg ev_MC_LANE_PARITY (le 1 g ++ le 1 n)

/-- A word on a crossing is poisoned at the input it comes in by. -/
def State.hurtAt (s : State) (r p t : Nat) : State := s.modNet fun n => { n with hurt := (r * 64 + p, t, 255) :: n.hurt }

/-- The input that a column group's words come in by: of its vertical link's cluster, or of the hub. -/
def groupInput (n g : Nat) : Nat × Nat := if g < 16 then (10 * n + vLanding (g / 2), 4) else (80 + n, (g - 16) / 2)

/-- A third error within 256 cycles declares a lane failure. -/
def declares (l : List Nat) : Bool := decide (3 ≤ l.length)

/-- An error in group `h` of 32 of the wires, in cycle `t`: noted; the third of the group within 256 cycles declares a lane failure, with mark
`half` (R309). And how many there are. -/
def Wires.err (w : Wires) (h t half : Nat) : Wires × Nat :=
  let e := recentErrs ((w.errs.filter fun x => decide (x.1 = h)).map fun x => x.2) t
  ({ w with errs := (h, t) :: w.errs.filter fun x => decide (t < x.2 + 256), declared := if declares e then w.declared ||| half else w.declared }, e.length)

/-- The word of the write buffer that sector `a` went from, and its place in it. -/
def Chan.wordOf (u : Chan) (a : Nat) : Option (BWord × Nat) :=
  (u.wbuf.reverse.find? fun e => e.addrs.contains a).map fun e => (e.word, e.addrs.idxOf a)

/-- The beat of sector `a` of channel `c`, at local address `x`, fails parity: of a read, the word it is in is poisoned; of a write, the sector,
which waits for its rewrite from the buffer (R306). -/
def State.beatFails (s : State) (c a x : Nat) : State :=
  let u := s.chan c
  let word := u.wordOf a
  if u.reading a && (decide (u.prevDir = 1) || word.isNone) then s.modChan c fun u => u.hurtRead a
  else
    let d := match word with | some e => slice e.1.data (64 * e.2) 64 | none => s.getBs x 64
    if u.prevDir = 2 ∨ word.isSome then
      ((s.modChan c fun u => { u with rewrite := (x, d) :: u.rewrite.filter fun e => decide (e.1 ≠ x) }).mark x true).awaitRewrite x
    else s.mark x true

/-- LANE_PARITY_ERROR (R309): kind 0 a channel (`addr` the sector's local address), 1 column group `group` of Riser `unit mod 8`, in its group
`unit / 8 mod 32` of 32 wires, 2 a direction of the Parting Link (`addr` the cycle of the word; groups 0 to 99 are the crossing of Risers 1
and 4, log entry 37). The third of a group of 32 wires in 256 cycles declares a lane failure. -/
def execLaneParityError (kind : Fin 3) (unit group addr : Nat) (s : State) : Host.Outcome State Fault Refusal :=
  finish (evented ++ [.poison, .net, .chans, .wires]) s <|
    match kind.val with
    | 0 =>
      let c := unit % 256
      let g := group % 8
      let pg := pgChannel c
      if s.chanAt addr ≠ c ∨ 0xA000000000 ≤ addr ∨ bit (s.rd pg MC_SPARES_USED) g then s
      else
        let e := recentErrs (aget [] (s.chan c).errs g) s.cycles
        let s1 := ((s.bump pg MC_PARITY_COUNT).wr pg MC_PARITY_GROUP g).modChan c fun u =>
          { u with errs := aset [] u.errs g e, declared := if declares e then u.declared ||| 2 ^ g else u.declared }
        (s1.beatFails c (chanLocal (addr % 0x1400000000) / 64) (addr / 64 * 64)).laneParity pg g e.length
    | 1 =>
      let n := unit % 8
      let g := group % 32
      let h := unit / 8 % 32
      let e := (aget {} s.wires (32 * n + g)).err h s.cycles (if h < 16 then 1 else 2)
      let i := groupInput n g
      let k := fkey (pgColumns n) MC_XG_INFO_PARITY g
      let was := aget ((aget {} s.wires (32 * n + g)).parity, 0) s.hot k
      let s0 := { s with hot := ains k (was.1, min 65535 (was.2 + 1)) s.hot }
      ((s0.modWires (32 * n + g) fun _ => { e.1 with parity := min 65535 (e.1.parity + 1) }).hurtAt i.1 i.2 addr).laneParity (pgColumns n) g e.2
    | _ =>
      let d := unit % 2
      let g := group % 200
      let e := (aget {} s.wires (256 + d)).err g s.cycles 4
      let hub := if g < 100 then (if d = 0 then 84 else 81) else (if d = 0 then 86 else 83)
      let s1 := (s.bump pgParting MC_PL_PARITY_COUNT).wrs pgParting [(MC_PL_PARITY_GROUP, g), (MC_PL_PARITY_DIR, d)]
      (((s1.modWires (256 + d) fun _ => e.1).hurtAt hub 40 addr).hurtAt hub 41 addr).laneParity pgParting g e.2

/-- The failing or exhausted groups of a channel lie in a half. -/
def halfBad (m h : Nat) : Bool := decide (m / 2 ^ (4 * h) % 16 ≠ 0)

/-- Sectors on the bus or due after cycle `t` take new places, `hw` wide, once the stop is over and behind sectors `done`: each at its own place
or later, as the bus and its row's commands allow (R284, R291, R310). Old place, new place. -/
def replace (f : Nat → Bool) (hw limit : Nat) : List BusSector → List BusSector → Nat → Nat → List (BusSector × Nat)
  | _, [], _, _ => []
  | done, b :: l, e, d =>
    let free := if d = 0 ∨ d = b.dir ∨ !turnCosts f e then e else e + 32
    let pos := max b.start free
    let row := if b.act then 8 * (actReady done (bankOf b.addr) b.pre (pos / 8 - rowLead b.dir) + rowLead b.dir) else 0
    let p := placeSector f hw limit 8 (max pos row)
    (b, p) :: replace f hw limit ({ b with start := p, len := 5 * hw } :: done) l (p + 5 * hw) b.dir

/-- The bus of channel `c` stops for the 16 cycles after this one; the program's sectors that have not begun move later at half width, with the
words and data that hang on them, and each run that so begins late slips (R296, R310). -/
def State.stopBus (s : State) (c : Nat) : State :=
  let now := s.cycles
  let s0 := s.modChan c fun u => { u with stopped := now + 17 }
  let u := s0.chan c
  let wait : List BusSector := (u.bus.filter fun b => b.own && decide (now < b.start / 8)).reverse
  let gone := u.bus.filter fun b => b.own && decide (b.start / 8 ≤ now)
  let e := (gone.map BusSector.end_).foldl max 0
  let d := ((gone.find? fun b => decide (b.end_ = e)).map BusSector.dir).getD 0
  let l := replace (dataCycle s.cps c u.stopped) 2 (24 * s.cps) gone wait e d
  let endOf (x : Nat) : Nat := ((l.find? fun k => decide (k.1.end_ = x)).map fun k => k.2 + 10).getD x
  let startOf (x : Nat) : Nat := ((l.find? fun k => decide (k.1.start = x)).map fun k => k.2).getD x
  let s1 := s0.modChan c fun u =>
    { u with
      bus := u.bus.map fun b => match l.find? fun k => decide (k.1 = b) with | some k => { b with start := k.2, len := 10 } | none => b
      due := u.due.map fun x => { x with start := startOf x.start }
      ready := u.ready.map fun x => (endOf x.1, x.2)
      readOf := u.readOf.map fun x => (endOf x.1, x.2)
      wbuf := u.wbuf.map fun x => { x with until_ := endOf x.until_ }
      prevEnd := endOf u.prevEnd }
  (l.filter fun k => k.1.first && decide (k.1.start < k.2)).foldl (fun s k => s.runSlip c (k.1.start / 8) ((k.2 - k.1.start + 7) / 8)) s1

/-- In the maintenance window a lane failure is noted: the unit's re-centring does not end (Table 8-6). -/
def State.cutNow (s : State) (old : Nat) : Nat := if 4088 ≤ s.slot then s.epoch + 1 else old

/-- A channel after the loss of group `g`: half width on the half without a failing or exhausted group,
or failed. -/
def State.failChannel (s : State) (c g : Nat) : State :=
  let pg := pgChannel c
  let m := (s.chan c).bad ||| s.rd pg MC_SPARES_EXHAUSTED ||| 2 ^ g
  let s1 := (s.stopBus c).modChan c fun u => { u with bad := u.bad ||| 2 ^ g, cut := s.cutNow u.cut }
  if halfBad m 0 && halfBad m 1 then
    (s1.wr pg MC_STATUS_STATE 5).raise pg ev_MC_CHANNEL_FAILED (le 1 (c % 32))
  else
    let up := if halfBad m 0 then 1 else 0
    (s1.wrs pg [(MC_STATUS_STATE, 3), (MC_STATUS_HALF_UPPER, up)]).raise pg ev_MC_HALF_WIDTH (le 1 0 ++ le 1 g ++ le 1 up)

/-- The state of column group `g` of Riser `n` set to `v`. -/
def State.setGroup (s : State) (n g v : Nat) : State :=
  let F := if g < 16 then MC_XG_STATE_UP_STATE else MC_XG_STATE_DN_STATE
  let w := s.rd (pgColumns n) F
  let k := 2 ^ (2 * (g % 16))
  s.wr (pgColumns n) F (w - w / k % 4 * k + v * k)

/-- A column group loses half `h` (0 lower): half width on the other, or failed, its link fenced. -/
def State.failGroup (s : State) (n g h : Nat) : State :=
  let st := s.groupState n g
  if st = 3 then s
  else if st = 2 then
    if (aget {} s.wires (32 * n + g)).upper.toNat = h then
      (s.setGroup n g 3).raise (pgColumns n) ev_MC_LINK_FENCED (le 1 (g % 16 / 2) ++ le 1 g)
    else s
  else
    ((s.setGroup n g 2).modWires (32 * n + g) fun w => { w with upper := decide (h = 0) }).raise (pgColumns n) ev_MC_HALF_WIDTH
      (le 1 1 ++ le 1 g ++ le 1 (1 - h))

/-- A Parting Link direction loses half `h`. -/
def State.failParting (s : State) (d h : Nat) : State :=
  let F := if d = 0 then MC_PL_STATE_CD else MC_PL_STATE_DC
  let U := if d = 0 then MC_PL_STATE_CD_UPPER else MC_PL_STATE_DC_UPPER
  let st := s.rd pgParting F
  if st = 3 then s
  else if st = 2 then
    if s.rd pgParting U = h then (s.wr pgParting F 3).raise pgParting ev_MC_PL_FAILED (le 1 d) else s
  else (s.wrs pgParting [(F, 2), (U, 1 - h)]).raise pgParting ev_MC_HALF_WIDTH (le 1 2 ++ le 1 d ++ le 1 (1 - h))

/-- LANE_FAILURE (R309, R310, R313 to R315): a declared one acts: kind 0 channel `unit`, its group; 1 a column group of Riser
`unit mod 8`; 2 direction `unit mod 2` of the Parting Link; for kinds 1 and 2 the failing half is
`unit / 8 mod 2`. The description follows. -/
def execLaneFailure (kind : Fin 3) (unit group : Nat) (s : State) : Host.Outcome State Fault Refusal :=
  finishD (evented ++ [.descs, .chans, .wires]) s <|
    let h := unit / 8 % 2
    let wires (k : Nat) (f : State → State) : State :=
      let m := (aget {} s.wires k).declared
      if bit m h || bit m 2 then f (s.modWires k fun w => { w with declared := setBit (setBit m h false) 2 false, cut := s.cutNow w.cut }) else s
    match kind.val with
    | 0 =>
      let c := unit % 256
      let g := group % 8
      let st := s.rd (pgChannel c) MC_STATUS_STATE
      let active := decide (s.rd (pgChannel c) MC_STATUS_HALF_UPPER = g / 4)
      if !bit (s.chan c).declared g then s
      else
        let s0 := s.modChan c fun u => { u with declared := setBit u.declared g false }
        if st = 0 ∨ st = 5 ∨ (st = 3 ∧ !active) then s0 else s0.failChannel c g
    | 1 => wires (32 * (unit % 8) + group % 32) fun s => s.failGroup (unit % 8) (group % 32) h
    | _ => wires (256 + unit % 2) fun s => s.failParting (unit % 2) h

/-! ### Retraining (R311, R312) -/

/-- Channel `c` is due: RETRAIN_DUE or half width, with AUTO or a request. -/
def State.chanDue (s : State) (c : Nat) : Bool :=
  let pg := pgChannel c
  let st := s.rd pg MC_STATUS_STATE
  [1, 2, 3].contains st && (s.on pg MC_STATUS_RETRAIN_DUE || decide (st = 3)) &&
    (s.on pg MC_TRAIN_CTRL_AUTO || s.on pg MC_TRAIN_CTRL_REQUEST)

/-- RETRAINING_START (R311): at an epoch boundary, in the first slot after it, kind 0 channel `unit`, 1 column group `unit` (Riser × 32 + group), while its
partition is HELD, IDLE or DONE; one channel of each training controller's eight at a time. -/
def execRetrainingStart (kind : Fin 2) (unit : Nat) (s : State) : Host.Outcome State Fault Refusal :=
  finish [.regs, .chans, .wires] s <|
    let u := unit % 256
    let n := u / 32
    if !s.atRest (s.partOfRiser n) ∨ s.slot ≠ 0 then s
    else if kind.val = 0 then
      let free := (List.range 8).all fun i => decide (s.rd (pgChannel (u / 8 * 8 + i)) MC_STATUS_STATE ≠ 4)
      if s.chanDue u && free then
        (s.wr (pgChannel u) MC_STATUS_STATE 4).modChan u fun c =>
          { c with training := s.time.epochs + 1, was := s.rd (pgChannel u) MC_STATUS_STATE }
      else s
    else
      let g := u % 32
      let st := s.groupState n g
      if (bit (s.rd (pgColumns n) MC_XG_RETRAIN_DUE) g || decide (st = 2)) && decide (st ≠ 3) &&
          decide ((aget {} s.wires u).training = 0) then
        s.modWires u fun w => { w with training := s.time.epochs + 1, was := st }
      else s

/-- A retraining is abandoned: the unit keeps its previous settings (R312). -/
def State.abandonChan (s : State) (c : Nat) : State :=
  if s.rd (pgChannel c) MC_STATUS_STATE = 4 then
    (s.wr (pgChannel c) MC_STATUS_STATE (s.chan c).was).modChan c fun u => { u with training := 0 }
  else s
def State.abandonGroup (s : State) (u : Nat) : State := s.modWires u fun w => { w with training := 0 }

/-- A weak lane takes its group's spare; a second one marks the group exhausted. -/
def State.useSpare (s : State) (c : Nat) (e : Nat × Nat) : State :=
  let pg := pgChannel c
  let g := e.1 % 8
  if bit (s.rd pg MC_SPARES_USED) g then s.wr pg MC_SPARES_EXHAUSTED (s.rd pg MC_SPARES_EXHAUSTED ||| 2 ^ g)
  else
    let F := if g < 4 then MC_REPAIR_LO_LANES else MC_REPAIR_HI_LANES
    let k := 2 ^ (8 * (g % 4))
    let w := s.rd pg F
    (s.wr pg MC_SPARES_USED (s.rd pg MC_SPARES_USED ||| 2 ^ g)).wr pg F (w - w / k % 256 * k + (e.2 % 32 + 128) * k)

/-- The channel's new settings (R308, R311): spares, width, margins, and what it raises. -/
def State.chanTrained (s : State) (c : Nat) (o : LaneObs) : State :=
  let pg := pgChannel c
  let s1 := (o.weak.foldl (fun s e => s.useSpare c e) s).modChan c fun u => { u with errs := [], bad := 0, declared := 0, training := 0 }
  let x := s1.rd pg MC_SPARES_EXHAUSTED
  let s2 := (s1.wrs pg [(MC_STATUS_RETRAIN_DUE, 0), (MC_STATUS_HALF_UPPER, 0)]).hwClear pg MC_TRAIN_CTRL_REQUEST
  let s3 :=
    if halfBad x 0 && halfBad x 1 then (s2.wr pg MC_STATUS_STATE 5).raise pg ev_MC_CHANNEL_FAILED (le 1 (c % 32))
    else if x ≠ 0 then
      let up := if halfBad x 0 then 1 else 0
      (s2.wrs pg [(MC_STATUS_STATE, 3), (MC_STATUS_HALF_UPPER, up)]).raise pg ev_MC_HALF_WIDTH
        (le 1 0 ++ le 1 ((List.range 8).find? (fun g => bit x g) |>.getD 0) ++ le 1 up)
    else
      let s3 := s2.wr pg MC_STATUS_STATE (if s2.rd pg MC_SPARES_USED = 0 then 1 else 2)
      if (s.chan c).was = 3 then s3.raise pg ev_MC_REPAIRED (le 1 0 ++ le 1 0 ++ le 1 (popCount (s2.rd pg MC_SPARES_USED))) else s3
  ((s3.chanMargin c o.phase o.volt o.lane).trainedFull pg (s3.rd pg MC_STATUS_STATE ≠ 5)).ageTrained
    { seq := 0, unit := pg, hours := 0, kind := 1, index := 0xFF, phase := o.phase, volt := o.volt }

/-- A column group's new settings: up to 32 spares; a group that needs more runs at half width on the half that needs none, or has failed
(Table 8-5). -/
def State.groupTrained (s : State) (u : Nat) (o : LaneObs) : State :=
  let n := u / 32
  let g := u % 32
  let used := (aget {} s.wires u).spares + o.weak.length
  let s1 := (s.modWires u fun w => { w with training := 0, errs := [], declared := 0, spares := min 32 used, upper := false }).hwClear
    (pgColumns n) MC_XG_RETRAIN_DUE (2 ^ g)
  let lost := o.weak.drop (32 - (aget {} s.wires u).spares)
  let s2 :=
    if 32 < used then
      let low := lost.any fun e => decide (e.2 < 512)
      if low && lost.any fun e => decide (512 ≤ e.2) then
        (s1.setGroup n g 3).raise (pgColumns n) ev_MC_LINK_FENCED (le 1 (g % 16 / 2) ++ le 1 g)
      else
        ((s1.setGroup n g 2).modWires u fun w => { w with upper := low }).raise (pgColumns n) ev_MC_HALF_WIDTH (le 1 1 ++ le 1 g ++ le 1 low.toNat)
    else
      let s3 := s1.setGroup n g (if used = 0 then 0 else 1)
      if (aget {} s.wires u).was = 2 then s3.raise (pgColumns n) ev_MC_REPAIRED (le 1 1 ++ le 1 g ++ le 1 used) else s3
  ((s2.groupMargin n g o.phase).trainedFull (pgGroup u) (s2.groupState n g ≠ 3)).ageTrained
    { seq := 0, unit := pgGroup u, hours := 0, kind := 2, index := g, phase := o.phase, volt := o.volt }

/-- RETRAINING_DONE (R311): 2 epochs after its start for a channel, 1 for a column group, the new settings
apply, with MC_REPAIRED where the unit comes back from half width; the description follows. -/
def execRetrainingDone (kind : Fin 2) (unit : Nat) (obs : LaneObs) (s : State) : Host.Outcome State Fault Refusal :=
  finishD (evented ++ [.ledger, .descs, .chans, .wires]) s <|
    let u := unit % 256
    if kind.val = 0 then
      let t := (s.chan u).training
      if s.rd (pgChannel u) MC_STATUS_STATE = 4 ∧ t + 1 ≤ s.time.epochs then s.chanTrained u obs else s
    else
      let t := (aget {} s.wires u).training
      if t ≠ 0 ∧ t ≤ s.time.epochs then s.groupTrained u obs else s

end Sys2Proof.Machine
end

