-- ==== Sys2Proof/Machine/Dies.lean ====
section
/-!
DEFINITION. Machine/Dies.lean: the compute dies at start-up and reset: field defects (R533), the logical mapping
(R23 to R25), unreachable clusters (R254) and Reduced dies (R535).
-/

namespace Sys2Proof.Machine

open Sys2Proof

/-! ### Defects (R533) -/

/-- Units bad by the fused map or the Ledger's list; the device does not test them. -/
def State.knownBad (s : State) : List BadUnit := s.fuse.bad ++ s.ledger.defects.map fun d => ⟨d.die, d.kind, d.index⟩

/-- Units bad by either source, or by a test of this start: those a mapping takes no unit from (R23, R534). -/
def State.badUnits (s : State) : List BadUnit := s.knownBad ++ s.boot.failed

/-- Units that failed start-up test become field defects where neither source names them. They are bad for this start; `tested`
are the units that were tested, whose former outcome no longer counts. -/
def State.findDefects (s : State) (tested : BadUnit → Bool) (l : List BadUnit) : State :=
  let s1 := l.foldl (fun s u => if s.knownBad.contains u then s else s.newDefect u.die u.kind u.index 1) s
  { s1 with boot := { s1.boot with failed := (s1.boot.failed.filter fun u => !tested u) ++ l } }

/-! ### Mapping (R23) -/

/-- The first `k` good units as fields of `w` bits; all ones where none is left. -/
def mapOf (w k : Nat) (l : List Nat) : Nat := (List.range k).foldl (fun m i => m + l.getD i (2 ^ w - 1) * 2 ^ (w * i)) 0

/-- The physical unit behind logical index `i` of a map. -/
def unmapOf (w m i : Nat) : Nat := m / 2 ^ (w * i) % 2 ^ w

/-- Physical units whose logical page has ENABLE 0 (R621): the one that now stands behind the page (DESIGN CHOICE, log entry 166). -/
def State.withheld (s : State) (pgs : Nat → Nat) (k w m : Nat) : List Nat :=
  ((List.range k).filter fun i => !s.on (pgs i) PAGE_CTRL_ENABLE).map fun i => unmapOf w m i

/-- The event level of a unit that returns to service goes back to none, unless Lampblack (R603). -/
def State.levelClear (s : State) (pg : Nat) : State := if s.rd pg PAGE_STAT_LEVEL = 3 then s else s.wr pg PAGE_STAT_LEVEL 0

/-- A page comes back to service, or is absent. -/
def State.serve (s : State) (pg : Nat) (ok : Bool) : State :=
  ((s.wr pg PAGE_STAT_SERVICE (if ok then 0 else 2)).wr pg PAGE_CTRL_FENCE 0).levelClear pg

/-- The bulk, control and sync routers of cluster or hub `r` are in mode `b`, `c`, `y`. -/
def State.routerModes (s : State) (r b c y : Nat) : State :=
  ((s.wr (pgBulk r) NW_BSTAT_MODE b).wr (pgControl r) NW_CSTAT_STATE c).wr (pgSync r) NW_SSTAT_STATE y

/-- Units listed as field defects among the first `n` of a kind of cluster `c`. -/
def State.listedMask (s : State) (c kind n : Nat) : Nat :=
  maskOf n fun u => s.ledger.defects.any fun d => decide (d.die = c / 10 ∧ d.kind = kind ∧ d.index = 16 * (c % 10) + u)

/-- The mapping of cluster `c` where the units of `bad` are bad: maps, good masks, and what is in service. A bad
cluster or router fences the cluster (R535). -/
def State.mapCluster (s : State) (c : Nat) (bad : List BadUnit) : State :=
  let d := c / 10
  let z := 16 * (c % 10)
  let pg := pgCluster c
  let offM := s.withheld (fun i => pgMatrix (4 * c + i)) 4 3 (s.rd pg CL_MX_MAP_PHYS)
  let offG := s.withheld (fun i => pgGcore (8 * c + i)) 8 4 (s.rd pg CL_GC_MAP_PHYS)
  let goodM := (List.range 5).filter fun u => !bad.contains ⟨d, 1, z + u⟩ && !offM.contains u
  let goodG := (List.range 9).filter fun u => !bad.contains ⟨d, 2, z + u⟩ && !offG.contains u
  let s1 := s.wrs pg
    [(CL_MX_MAP_PHYS, mapOf 3 4 goodM), (CL_MX_MAP_GOOD, maskOf 5 fun u => goodM.contains u), (CL_MX_MAP_FIELD_DEFECT, s.listedMask c 1 5),
     (CL_GC_MAP_PHYS, mapOf 4 8 goodG), (CL_GC_GOOD_GOOD, maskOf 9 fun u => goodG.contains u), (CL_GC_GOOD_FIELD_DEFECT, s.listedMask c 2 9)]
  let s2 := (List.range 4).foldl (fun s i => s.serve (pgMatrix (4 * c + i)) (decide (i < goodM.length))) s1
  let s3 := (List.range 8).foldl (fun s i => s.serve (pgGcore (8 * c + i)) (decide (i < goodG.length))) s2
  let s4 := (s3.serve (pgClMover c) (!bad.contains ⟨d, 3, z⟩ && s.on (pgClMover c) PAGE_CTRL_ENABLE)).serve pg true
  let s5 := [pgBulk c, pgControl c, pgSync c].foldl (fun s g => s.serve g true) s4
  let badR := bad.contains ⟨d, 5, z⟩
  let s6 := if badR then s5.routerModes c 3 3 3 else s5
  if badR || bad.contains ⟨d, 4, z⟩ || !s.on pg PAGE_CTRL_ENABLE then s6.fenceUnit pg else s6

/-- The map registers of a cluster, to see whether they changed. -/
def State.mapsOf (s : State) (c : Nat) : Nat × Nat := (s.rd (pgCluster c) CL_MX_MAP_PHYS, s.rd (pgCluster c) CL_GC_MAP_PHYS)

/-! ### Neighbour mode reach (R254) -/

/-- A chunk can pass from router `a` to router `b` of die `n`: `b` is good, and a vertical link between them is not
fenced. -/
def State.passes (s : State) (n a b : Nat) : Bool :=
  (decide (b = 80 + n) || decide (b < 80 ∧ b / 10 = n)) && s.routerUp b &&
    (if 80 ≤ a ∨ 80 ≤ b then
      match vLinkOf (min a b % 10) with
      | some v => (linkGroups v).all fun g => decide (s.groupState n g ≠ 3)
      | none => false
    else true)

/-- The routers of die `n` that chunks reach in `k` steps from those of `l`. -/
def State.reach (s : State) (n : Nat) : Nat → List Nat → List Nat
  | 0, l => l
  | k + 1, l => s.reach n k (l ++ (l.map fun a => (neighbourRouters a).filter fun b => s.passes n a b && !l.contains b).flatten).dedup

/-- The clusters of die `n` that no good neighbour reaches. -/
def State.unreached (s : State) (n : Nat) : List Nat :=
  let l := s.reach n 10 [80 + n]
  ((List.range 10).map fun k => 10 * n + k).filter fun c => !l.contains c

/-! ### Reduced dies (R535) -/

/-- Absent logical units of die `n`. -/
def State.absentUnits (s : State) (n : Nat) : Nat :=
  ((diePages n).filter fun pg => [0x0011, 0x0012, 0x0013].contains (pgType pg) && decide (s.service pg = 2)).length

/-- A unit of cluster `c` is absent, or the cluster is fenced. -/
def State.clusterShort (s : State) (c : Nat) : Bool :=
  (clusterPages c).any fun pg => [0x0011, 0x0012, 0x0013].contains (pgType pg) && decide (s.service pg = 2) ||
    decide (pgType pg = 0x0010 ∧ s.gone pg)

/-- Die `n`, present, is judged Reduced or not: BU_REDUCED and CL_STATUS.REDUCED, and BU_REDUCED once. -/
def State.judgeDie (s : State) (n : Nat) : State :=
  let cl := ((List.range 10).map fun k => 10 * n + k).filter s.clusterShort
  let links := (List.range 8).filter fun v => !s.linkUp n v
  let red := (!cl.isEmpty || !links.isEmpty) && !bit (s.rd pgBu BU_REDUCED_ABSENT) n
  let s1 := (List.range 10).foldl (fun s k =>
    s.wr (pgCluster (10 * n + k)) CL_STATUS_REDUCED
      (cl.contains (10 * n + k) || links.any fun v => decide (vLanding v = k)).toNat) s
  let s2 := s1.wr pgBu BU_REDUCED_DIES (setBit (s.rd pgBu BU_REDUCED_DIES) n red)
  if red && !bit (s.rd pgBu BU_REDUCED_DIES) n then s2.raise pgBu ev_BU_REDUCED (le 1 n ++ le 1 (s.absentUnits n)) else s2

/-! ### Stores of a scope (R513, R659) -/

/-- A cluster memory zeroed: with its firmware region or without. -/
def State.zeroCluster (s : State) (c : Nat) (fw : Bool) : State := s.zeroStore (clusterBase c) (if fw then 0xC00000 else 0xBC0000)

/-- Firmware is loaded into a cluster's firmware region: bytes the spec does not give. -/
def State.floodCluster (s : State) (c : Nat) : State := s.undefine (clusterBase c + 0xBC0000) 0x40000

/-- A slice zeroed in all regions, its cache invalidated without write-back. -/
def State.zeroSlice (s : State) (n : Nat) : State :=
  ((s.zeroStore (sliceBase n) (96 * mib)).modSl n fun u => { u with lines := [], fills := [], fillAt := [], flush := [], suspects := [] }).wr
    (pgSlice n) SB_CACHE_CTRL_FLUSH 0

/-- Every flag of the stores of routers `l` set to zero. -/
def State.zeroFlags (s : State) (l : List Nat) : State :=
  { s with flags := s.flags.filter fun e => !l.contains (e.1 / 4096)
           net := { s.net with tokens := s.net.tokens.filter fun t => !l.contains t.store } }

/-- Matrix core `m`, general core `g`, mover `m` as after power-on, with no program under way. -/
def State.wipeMx (s : State) (m : Nat) : State := { s with mxs := aset {} s.mxs m { seq := { ended := true } } }
def State.wipeGc (s : State) (g : Nat) : State := { s with gcores := aset {} s.gcores g { stopped := true } }
def State.wipeMover (s : State) (m : Nat) : State := { s with movers := aset {} s.movers m { seq := { ended := true } } }

/-- The units of a cluster. -/
def State.wipeCluster (s : State) (c : Nat) : State :=
  (((List.range 8).map fun i => 8 * c + i).foldl State.wipeGc (((List.range 4).map fun i => 4 * c + i).foldl State.wipeMx s)).wipeMover c

/-- The units of a Riser: its clusters' and its slice movers. -/
def State.wipeRiser (s : State) (n : Nat) : State :=
  ((List.range 4).map fun j => 80 + 4 * n + j).foldl State.wipeMover
    (((List.range 10).map fun k => 10 * n + k).foldl State.wipeCluster s)

/-- The routers of a Riser. -/
def riserRouters (n : Nat) : List Nat := (80 + n) :: (List.range 10).map fun k => 10 * n + k

/-- Connections and words of the bulk routers `l` end with their programs. -/
def State.wipeRouters (s : State) (l : List Nat) : State :=
  { s with net := { s.net with conns := s.net.conns.filter fun k => !l.contains k.router
                               driven := s.net.driven.filter fun k => !l.contains k.router } }

/-- A channel's program and queues end: its runs, words under way and write buffer. -/
def Chan.empty (u : Chan) : Chan := { u with pc := 0, ranAt := 0, part := 0, packing := [], ready := [], wbuf := [], due := [], skip := 0, rewrite := [], blocked := 0 }

/-- The channels of a Riser. -/
def State.emptyChans (s : State) (n : Nat) : State := ((List.range 32).map fun c => 32 * n + c).foldl (fun s c => s.modChan c Chan.empty) s

/-- The poison tables of a Riser's channels emptied. -/
def State.emptyPoison (s : State) (n : Nat) : State := s.clearPoison (dramBase n) 0x1400000000

end Sys2Proof.Machine
end

