-- ==== Sys2Proof/Machine/Resets.lean ====
section
/-!
DEFINITION. Machine/Resets.lean: resets (R542 to R550, R627, R659) and the scrub of a seal (R513, R514, R519).
-/

namespace Sys2Proof.Machine

open Sys2Proof

/-! ### The scrub -/

/-- The stores of R513 on the Risers of `l`. -/
def State.scrubStores (s : State) (l : List Nat) : State :=
  l.foldl (fun s n =>
    let s1 := ((List.range 10).map fun k => 10 * n + k).foldl (fun s c => s.zeroCluster c false) s
    let s2 := ((s1.zeroSlice n).wipeRiser n).zeroFlags (riserRouters n)
    ((s2.wipeRouters (riserRouters n)).emptyChans n).emptyPoison n) s

/-- A seal of partition `p` has ended with its scrub (R519): registers, measurement slot, MD_UNSEALED, the ports and
the RSP of an UNSEAL. A seal that never came into force leaves nothing to report. -/
def State.sealEnded (s : State) (p : Nat) (e : SealEnd) : State :=
  let was := s.sealed p
  let s1 := (s.modTrusted p fun t => { t with ending := none, ring := [], domain := [] }).wrs pgMordant
    [(MD_PART_SEALED, 0), (MD_PART_STRICT, 0)] p
  let s2 := s1.clearMs p
  let s3 := if was then (s2.raise pgMordant ev_MD_UNSEALED (le 1 p ++ le 1 e.cause)).rekeyPorts p else s2
  match e.cmd with
  | some c => s3.completeLate 0x0122 c e.data
  | none => s3

/-- SCRUB_COMPLETE (R513): 49,152 cycles after it began, the scrub of partition `part` is done: its stores are zero; a
seal asked for waits for the boundary, one that ends has ended. -/
def execScrubComplete (part : Fin 8) (s : State) : Host.Outcome State Fault Refusal :=
  finishD (asked ++ [.mem, .undef, .poison, .flags, .sprue, .descs, .chans]) s <|
    let p := part.val
    let t := s.trusted p
    match t.scrubAt with
    | none => s
    | some n =>
      if s.time.slots < n then s
      else
        let l := match t.ending with | some e => e.risers | none => s.risersOf p
        let s1 := ((s.scrubStores l).modTrusted p fun t => { t with scrubAt := none, sealReady := t.ending.isNone }).wr pgMordant
          MD_PART_SCRUBBING 0 p
        match t.ending with
        | some e => s1.sealEnded p e
        | none => s1

/-! ### Scopes (Table 14-5) -/

/-- The reset a RESET names (Table 14-6). -/
def resetOf (c : Cmd) : Reset :=
  let f (o : Nat) := fieldAt c.args o 1
  { scope := f 0, riser := f 1, cluster := f 2, kind := f 3, unit := f 4, part := c.part }

/-- The scope of `a` includes that of `b`. -/
def State.includes (s : State) (a b : Reset) : Bool :=
  decide (b.scope ≤ a.scope) &&
    match a.scope with
    | 0 => decide (a.page = b.page)
    | 1 => decide (a.riser = b.riser ∧ a.cluster = b.cluster)
    | 2 => (s.resetRisers b).all fun x => (s.resetRisers a).contains x
    | _ => true

/-- A reset that overlaps the one named drains or runs, and the named one does not include it while it drains
(R550, Table 14-7). -/
def State.resetBusy (s : State) (r : Reset) : Bool :=
  s.resets.any fun x => decide (x.phase ≠ .requested) && s.resetsMeet r x && !(decide (x.phase = .draining) && s.includes r x)

/-- The pages of a scope's units. -/
def State.scopePages (s : State) (r : Reset) : List Nat :=
  match r.scope with
  | 0 => [r.page]
  | 1 => clusterPages (10 * r.riser + r.cluster)
  | _ => ((s.resetRisers r).map fun n => diePages n ++ ((List.range 32).map fun c => pgChannel (32 * n + c)) ++ [pgSlice n] ++
      ((List.range 4).map fun j => pgSlMover (4 * n + j))).flatten

/-- The partitions whose Risers a reset reaches. -/
def State.scopeParts (s : State) (r : Reset) : List Nat := ((s.resetRisers r).map s.partOfRiser).dedup

/-! ### Requests -/

/-- RESET (R550): accepted, it acts at the next slot. -/
def execReset (c : Cmd) (s : State) : Host.Outcome State Fault Refusal :=
  finish (answered ++ [.resets]) s <| s.act1 0x0300 c (firstStatus [(!resetArgsOk c, stBADFORMAT), (s.resetBusy (resetOf c), stBUSY)])
    fun s => s.addReset (resetOf c)

/-- RECOVERY_RESTART (R573): in the recovery intake, acts as a FULL reset. -/
def execRecoveryRestart (c : Cmd) (s : State) : Host.Outcome State Fault Refusal :=
  finish (answered ++ [.resets]) s <| s.act1 0x0281 c
    (firstStatus [(!s.boot.recovery, stWRONGSTATE), (decide (fieldAt c.args 0x00 4 ≠ c.id), stBADFORMAT)])
    fun s => s.addReset { scope := 4 }

/-! ### The boundary closes (R544, R546, R548) -/

/-- A CORE or CLUSTER reset discards the partition's position (R548): a running partition holds at the next boundary
and then enters IDLE. -/
def Part.dropPosition (q : Part) (e : Nat) : Part :=
  if q.lost then q
  else match q.run with
    | .running => { q with run := .holding, holdE := some e, toIdle := true }
    | .holding => { q with toIdle := true }
    | .armed | .held => { q with run := .idle, holdE := none, rel := none, toIdle := false }
    | _ => q

/-- Requests of the pages `l` for targets outside the scope: their answers are awaited no more. -/
def State.orphansOf (s : State) (r : Reset) (l : List Nat) : List Nat :=
  (s.hall.reqs.filter fun e => e.2.via.isNone && l.contains e.2.src &&
    (!s.ownPkg e.2.addr || !s.inScope r (homeOf (localOf e.2.addr)))).map fun e => e.1

/-- What a reset of partition `p` or broader ends at once: its seal (R519). -/
def State.resetSeal (s : State) (p : Nat) : State :=
  if s.sealing p && (s.trusted p).ending.isNone then s.endSeal p 1 none else s

/-- A COMPUTE or FULL reset drops an armed commit with RESET-ABORT (Table 15-9). -/
def State.dropCommit (s : State) : State :=
  match s.update.commit with
  | none => s
  | some c => ((s.modUpdate fun u => { u with commit := none, prepared := none, ready := [] }).updState 5).complete 0x0202 c xRESETABORT

/-- A reset acts: it takes over the narrower ones that have not begun to run, or becomes part of a broader one; else its
boundary closes. -/
def State.actReset (s : State) (r : Reset) : State :=
  let others := s.resets.erase r
  let s0 := { s with resets := others }
  if others.any fun x => decide (x.phase ≠ .requested) && s.includes x r then s0
  else
    let inner := others.filter fun x => decide (x.phase ≠ .running) && s.includes r x
    let pages := s.scopePages r
    let r1 : Reset :=
      { r with phase := .draining, at_ := s.time.slots, pages := pages, absorbed := (inner.map Reset.absorbed).sum
               discarded := (inner.map Reset.discarded).sum }
    let s1 := { s0 with resets := (others.filter fun x => !inner.contains x) ++ [r1] }
    let s2 := s1.modHall fun h => { h with orphans := h.orphans ++ s.orphansOf r pages }
    let s3 := pages.foldl (fun s pg => if s.service pg = 2 then s else (s.halt pg).wr pg PAGE_STAT_SERVICE 3) s2
    let s4 := if r.scope ≤ 1 then s3.modPart (s.partOfRiser r.riser) fun q => q.dropPosition s.holdEpoch
      else (s.scopeParts r).foldl State.resetSeal s3
    if 3 ≤ r.scope then s4.dropCommit else s4

/-- RESET_ACTS (R544): at cycle 0 of the slot after their requests, resets close the boundaries of their scopes. -/
def execResetActs (s : State) : Host.Outcome State Fault Refusal :=
  finishD (answered ++ [.mem, .undef, .resets, .descs, .update]) s <| (s.resets.filter fun r => decide (r.phase = .requested ∧ r.at_ ≤ s.time.slots)).foldl State.actReset s

/-! ### The drain ends (R545, R547, R627) -/

/-- Accepted requests whose target lies in the scope and that are not answered. -/
def State.accepted (s : State) (r : Reset) : List (Nat × Req) :=
  s.hall.reqs.filter fun e => e.2.ans.isNone && e.2.remote.isNone && s.ownPkg e.2.addr && s.inScope r (homeOf (localOf e.2.addr))

/-- An absorbed request completes RESET-ABORT at the boundary; a write has been performed on the sectors `done` of those
it covers, whole. -/
def State.absorb (s : State) (r : Reset) (done : List Nat) (e : Nat × Req) : State :=
  let q := e.2
  let o := localOf q.addr
  let s1 :=
    if isStore q.op then
      (sectors o q.len).foldl (fun s x =>
        if done.contains x then
          let lo := max o x
          let hi := min (o + q.len) (x + 64)
          s.poke lo (slice q.data (lo - o) (hi - lo)) (if dataBad o q.len q.poison x then 1 else 0) q.part
        else s) s
    else s
  let s2 := s1.bump pgBu BU_RESET_ABORT_ABSORBED
  if q.via.isSome then s2.answer e.1 q { status := xRESETABORT }
  else if r.pages.contains q.src then s2.dropReq e.1
  else s2.completeReq e.1 q { status := xRESETABORT }

/-- Dirty lines of slice `n`: those of `lost` are discarded and counted, the others have been written back (R547). -/
def State.drainSlice (s : State) (lost : List Nat) (n : Nat) : State :=
  (s.sl n).lines.foldl (fun s l =>
    if l.dirty ≠ 0 ∧ lost.contains l.line then s.wbLost n l.line l.dirty else s.writeBack n l) s

/-- Fields that rules of their own keep through a reset: the logical mapping (R24) and what it shows. -/
def keptFields : List Fld :=
  [CL_MX_MAP_PHYS, CL_MX_MAP_GOOD, CL_MX_MAP_FIELD_DEFECT, CL_GC_MAP_PHYS, CL_GC_GOOD_GOOD, CL_GC_GOOD_FIELD_DEFECT, CL_STATUS_REDUCED]

/-- A stored field of a page takes its reset value when its unit is reset (R627): block fields that are RO, RC, W1C or
W1S. -/
def resetsField (pg o lo : Nat) : Bool :=
  decide (0x040 ≤ o) && (cellsAt pg (o / 4 * 4)).any fun e =>
    decide (e.1.lo = lo) && (match e.1.acc with | .rw | .rwl => false | _ => true) && !keptFields.contains e.1

/-- The registers of a page at a reset of its unit. -/
def State.resetPage (s : State) (pg : Nat) : State :=
  { s with regs := s.regs.filter fun e => !(decide (e.1 / 131072 = pg) && resetsField pg (e.1 / 32 % 4096) (e.1 % 32)) }

/-- The unit of a CORE reset. -/
def State.wipeUnit (s : State) (r : Reset) : State :=
  let c := 10 * r.riser + r.cluster
  match r.kind with
  | 0 => s.wipeMx (4 * c + r.unit)
  | 1 => s.wipeGc (8 * c + r.unit)
  | _ => s.wipeMover c

/-- The Risers of a PARTITION or COMPUTE reset; a COMPUTE reset also clears firmware and poison tables. -/
def State.wipeScope (s : State) (compute : Bool) (l : List Nat) : State :=
  l.foldl (fun s n =>
    let pages := diePages n ++ [pgSlice n] ++ ((List.range 4).map fun j => pgSlMover (4 * n + j))
    let s1 := pages.foldl State.resetPage s
    let s2 := ((List.range 10).map fun k => 10 * n + k).foldl (fun s c => s.zeroCluster c compute) s1
    let s3 := (((s2.zeroSlice n).wipeRiser n).zeroFlags ((List.range 10).map fun k => 10 * n + k)).wipeRouters (riserRouters n)
    let s4 := s3.emptyChans n
    if compute then s4.emptyPoison n else s4) s

/-- Distributed banks of the cores in `l` are no longer complete (Table 15-9). -/
def State.loseBanks (s : State) (l : List Nat) : State :=
  if s.update.distributed then s.modUpdate fun u => { u with lacking := (u.lacking ++ l).dedup } else s

/-- The general-core pages among `l`. -/
def corePages (l : List Nat) : List Nat := l.filter fun pg => decide (pgType pg = 0x0012)

/-- A reset runs: units, stores and partitions take their reset states (Table 14-5, R548). -/
def State.runReset (s : State) (r : Reset) : State :=
  match r.scope with
  | 0 => (s.resetPage r.page).wipeUnit r
  | 1 =>
    let c := 10 * r.riser + r.cluster
    ((((r.pages.foldl State.resetPage s).wipeCluster c).zeroCluster c true).zeroFlags [c]).loseBanks (corePages r.pages)
  | 2 => (s.wipeScope false (s.resetRisers r)).emptyPart r.part
  | _ =>
    let t := s.partList.foldl State.emptyPart ((s.wipeScope true (List.range 8)).loseBanks (corePages r.pages))
    { t with boot := { t.boot with rerun := 6 } }

/-- A FULL reset starts the device afresh from stage 0. -/
def State.restart (s : State) : State :=
  let t := s.fullReset
  { t.wr pgBu BU_START_CAUSE 1 with boot := { t.boot with begun := true }, pins := { t.pins with byReset := false } }

/-- DRAIN_END (R545): the last accepted request is answered, or 313 slots have passed. The rest complete RESET-ABORT,
writes done on the sectors `sectors`; the dirty lines `lost` are not written back; the reset runs. -/
def execDrainEnd (sectors lost : List Nat) (s : State) : Host.Outcome State Fault Refusal :=
  finishD powered s <|
    match s.resets.find? fun r => decide (r.phase = .draining) && (decide (r.at_ + 313 ≤ s.time.slots) || (s.accepted r).isEmpty) with
    | none => s
    | some r =>
      let l := s.accepted r
      let s1 := l.foldl (fun s e => s.absorb r sectors e) s
      let s2 := if 2 ≤ r.scope then (s.resetRisers r).foldl (fun s n => s.drainSlice lost n) s1 else s1
      let done (x : Reset) : Reset := if x = r then { x with phase := .running, absorbed := x.absorbed + l.length } else x
      let s3 := { s2 with resets := s2.resets.map done }
      if r.scope = 4 then s3.restart else s3.runReset r

/-! ### Back in service (R550) -/

/-- Both Pattern slots become EMPTY because the mapping changed; a load under way ends refused (R548). -/
def State.dropSlots (s : State) (p : Nat) : State :=
  [0, 1].foldl (fun s k =>
    (if s.loadDue p k then s.failLoad p k stDESCMISMATCH else s).modPart p fun q => q.setSlot k {}) s

/-- Routers of a compute die leave neighbour mode for the three networks, but the bad ones. -/
def State.normalRouters (s : State) (c : Nat) : State :=
  if s.rd (pgBulk c) NW_BSTAT_MODE = 3 then s else s.routerModes c 2 1 1

/-- A CLUSTER reset's re-run: self-test, mapping, re-flood (Table 14-5). A cluster of an absent die stays absent (R536). -/
def State.rerunCluster (s : State) (r : Reset) (bad : List BadUnit) : State :=
  let c := 10 * r.riser + r.cluster
  let mine (u : BadUnit) : Bool := decide (u.die = r.riser ∧ u.index / 16 = r.cluster)
  let s1 := s.findDefects mine (bad.filter mine)
  let s2 := ((s1.mapCluster c s1.badUnits).floodCluster c).normalRouters c
  let s3 := s2.judgeDie r.riser
  if bit (s.rd pgBu BU_REDUCED_ABSENT) r.riser then s
  else if s3.mapsOf c = s.mapsOf c then s3 else s3.dropSlots (s.partOfRiser r.riser)

/-- The base-die units of a Riser come back to service. -/
def State.serveBase (s : State) (n : Nat) : State :=
  (((List.range 32).map fun c => pgChannel (32 * n + c)) ++ [pgSlice n] ++ ((List.range 4).map fun j => pgSlMover (4 * n + j))).foldl
    (fun s pg => if s.service pg = 2 then s else s.serve pg true) s

/-- The measurement slot and the description of a partition at an allocation (R498, R541, R555). -/
def State.measureAlloc (s : State) (p : Nat) : State := ((s.clearMs p).extend p 1 (sha256 (s.partRecord p))).formDesc p

/-- A PARTITION reset's re-run: the mapping again, and the partition allocated again with its seed and keys. -/
def State.rerunPart (s : State) (p : Nat) : State :=
  let t := (s.risersOf p).foldl (fun s n =>
    let s1 := ((List.range 10).map fun k => 10 * n + k).foldl (fun s c =>
      if bit (s.rd pgBu BU_REDUCED_ABSENT) n then s else (s.mapCluster c s.badUnits).normalRouters c) s
    (s1.serveBase n).judgeDie n) s
  (t.modPart p fun q => { q with lost := false }).measureAlloc p

/-- A CORE reset's unit comes back: fenced where it was. -/
def State.serveUnit (s : State) (pg : Nat) : State :=
  if s.service pg = 2 then s
  else if s.on pg PAGE_CTRL_FENCE then s.wr pg PAGE_STAT_SERVICE 1 else s.serve pg true

/-- A reset's scope is back in service. -/
def State.endReset (s : State) (r : Reset) (obs : StageObs) : State :=
  let s0 := { s with resets := s.resets.erase r }
  let s1 := match r.scope with
    | 0 => s0.serveUnit r.page
    | 1 => s0.rerunCluster r obs.bad
    | 2 => s0.rerunPart r.part
    | _ => { (List.range 8).foldl State.serveBase s0 with boot := { s0.boot with rerun := 0 } }
  let s2 := (r.pages.filter resettable).foldl (fun s pg => s.hwClear pg PAGE_CTRL_RESET_REQ) s1
  s2.raise pgBu ev_BU_RESET_DONE
    (le 1 r.scope ++ le 1 r.riser ++ le 1 r.cluster ++ le 1 r.kind ++ le 1 r.unit ++ le 3 0 ++ le 2 (min r.absorbed 65535) ++
      le 2 (min r.discarded 65535))

/-- RESET_COMPLETE (R550): the scope of a running reset returns to service; a CLUSTER reset's self-test finds the units
`obs.bad`; a COMPUTE reset's re-run has ended. -/
def execResetComplete (obs : StageObs) (s : State) : Host.Outcome State Fault Refusal :=
  finishD (answered ++ [.mem, .undef, .ledger, .boot, .resets, .descs]) s <|
    match s.resets.find? fun r => decide (r.phase = .running) && (decide (r.scope < 3) || decide (s.boot.rerun = 12)) with
    | none => s
    | some r => s.endReset r obs

end Sys2Proof.Machine
end

