-- ==== Sys2Proof/Machine/StartUp.lean ====
section
/-!
DEFINITION. Machine/StartUp.lean: the stages of start-up (R524 to R541, Tables 14-1 to 14-4) and the saved training sets
(R530, R531).
-/

namespace Sys2Proof.Machine

open Sys2Proof

/-- How a stage ends: status (0 OK, 1 DEGRADED, 2 FAILED), FAIL code, FORM, the unit named first. -/
structure StageEnd where
  st : Nat := 0
  fail : Nat := 0
  form : Nat := 0
  detail : Nat := 0
  deriving DecidableEq, Repr

/-! ### Saved sets (R530, R531) -/

/-- DEVID_HASH: the first 8 bytes of the hash of the DEVID public key. -/
def State.devidTag (s : State) : Nat := fieldAt s.devidHash 0 8

/-- TRAIN_FW: the first 8 bytes of the hash of the training image in force. -/
def State.trainFw (s : State) : Nat := fieldAt (sha256 (imageBytes (s.update.area s.update.setInForce) 9)) 0 8

/-- The steppings of the base die and of each compute die. -/
def State.steppings (s : State) (die : Nat → Nat) : List Nat := s.fuse.baseStepping :: (List.range 8).map die

/-- A die's stepping as it answers; 0 for one that is silent. -/
def dieStepping (l : List DieObs) (d : Nat) : Nat := ((l.find? fun e => decide (e.die = d)).map DieObs.stepping).getD 0

/-- A saved set's own fields agree with the device. -/
def State.setValid (s : State) (l : List DieObs) (e : SavedSet) : Bool :=
  e.crcOk && decide (e.devid = s.devidTag) && decide (e.steppings = s.steppings (dieStepping l)) && decide (e.fw = s.trainFw)

def State.savedOf (s : State) (unit : Nat) : Option SavedSet := s.ledger.saved.find? fun e => decide (e.unit = unit)

/-- The ageing ledger holds a later record of the unit whose worst margin differs by more than 2 steps. -/
def State.aged (s : State) (e : SavedSet) : Bool :=
  let far (a b : Nat) := decide (a + 2 < b ∨ b + 2 < a)
  match (s.ledger.ageing.filter fun a => decide (a.unit = e.unit)).getLast? with
  | some a => decide (e.ageSeq < a.seq) && (far a.phase e.phase || far a.volt e.volt)
  | none => false

/-- A trained unit as the stage's observation gives it. -/
def widthOf (o : StageObs) (unit index : Nat) : WidthObs :=
  (o.widths.find? fun w => decide (w.unit = unit ∧ w.index = index)).getD { unit := unit, index := index, width := 0 }

/-- The unit's saved set is restored and not refused (R531). -/
def State.restores (s : State) (o : StageObs) (unit : Nat) : Bool :=
  s.boot.restored && !o.low.contains unit &&
    match s.savedOf unit with
    | some e => s.setValid o.dies e && !s.aged e && o.widths.all fun w => decide (w.unit ≠ unit ∨ w.spares = e.spares)
    | none => false

/-- FORM of a stage over its trained units: full, restored, or mixed. -/
def State.formOf (s : State) (o : StageObs) (l : List Nat) : Nat :=
  if l.all (s.restores o) then (if l.isEmpty then 0 else 1) else if l.any (s.restores o) then 2 else 0

/-- SAVED_SET_WRITE (R530): in a maintenance slot, while SAVE_EN is 1, the settings of a unit that has completed a full
training replace its saved set, once. -/
def execSavedSetWrite (unit spares phase volt : Nat) (s : State) : Host.Outcome State Fault Refusal :=
  finish [.ledger] s <|
    if s.on pgBu BU_CTRL_SAVE_EN && decide (4088 ≤ s.slot) && s.ledger.unsaved.contains unit && s.health.shutdown.isNone then
      let a := (s.ledger.ageing.filter fun a => decide (a.unit = unit)).getLast?
      let e : SavedSet :=
        { unit := unit, devid := s.devidTag, steppings := s.steppings fun d => s.rd pgBu BU_DIE_REV_STEPPING d, fw := s.trainFw
          spares := spares, phase := phase, volt := volt, ageSeq := (a.map Age.seq).getD 0 }
      s.modLedger fun l =>
        { l with saved := (l.saved.filter fun x => decide (x.unit ≠ unit)) ++ [e], unsaved := l.unsaved.filter fun x => decide (x ≠ unit) }
    else s

/-! ### The report of a stage (R527) -/

/-- Units bad by fuses, list and tests together. -/
def State.badCount (s : State) (o : StageObs) : Nat := (s.knownBad ++ o.bad).dedup.length

/-- The stage that runs next: of a COMPUTE reset's re-run, or of the start. -/
def State.stageNow (s : State) : Nat := if s.boot.rerun = 0 then s.boot.next else s.boot.rerun

/-- Start-up goes on after stage `k`, or stops. -/
def Boot.passed (b : Boot) (k : Nat) (failed : Bool) : Boot :=
  if failed then { b with stopped := true }
  else if b.rerun = 0 then { b with next := k + 1, fresh := b.fresh && decide (k < 11) }
  else { b with rerun := if k = 6 then 7 else if k = 7 then 11 else 12 }

/-- Stage `k` ends with its report: BU_STAGE, BU_STAGE_MS, BU_STAGE_DONE. `new`: defects found before it. -/
def State.endStage (s : State) (k new : Nat) (o : StageObs) (e : StageEnd) : State :=
  let fail := if s.on pgBu BU_STAGE_FAIL then s.rd pgBu BU_STAGE_FAIL else e.fail
  let s1 := (s.wrs pgBu [(BU_STAGE_STAGE, k), (BU_STAGE_STATUS, e.st), (BU_STAGE_FAIL, fail),
    (BU_STAGE_RESTORED, s.boot.restored.toNat)]).wr pgBu BU_STAGE_MS_MS (o.us / 1000) k
  let s2 := if k = 11 then s1.wr pgBu BU_STAGE_DONE 1 else s1
  let s3 := { s2 with boot := s2.boot.passed k (decide (e.st = 2)) }
  s3.raiseAt pgBu ev_BU_STAGE_DONE.code (if e.st = 2 then 3 else 0) false
    (le 1 k ++ le 1 e.st ++ le 1 e.form ++ le 1 e.fail ++ le 4 o.us ++ le 2 (s.rd pgBu BU_DEFECTS_NEW - new) ++ le 2 (s.badCount o) ++
      le 4 e.detail)

/-! ### Stages 0 to 2 -/

/-- The fused start code of domain `d` (Table 16-6). -/
def Fuse.startCode (f : Fuse) (d : Nat) : Nat := aget (match f.variant with | 0 => 280 | 1 => 264 | _ => 248) f.startCodes d

/-- Every domain starts at its fused code (R626). -/
def State.startVolts (s : State) : State :=
  (List.range 96).foldl (fun s d => (s.wr pgHk (vSet d).1 (s.fuse.startCode d) (vSet d).2).wr pgHk (vStart d).1 (s.fuse.startCode d) (vStart d).2) s

/-- Stage 0 (R526): the time unit runs FREE, the Sprue port's hardware comes up, the fuses are sensed; a
DECOMMISSION accepted earlier takes effect (R491). -/
def State.stage0 (s : State) (o : StageObs) : State × StageEnd :=
  let s1 := ((s.modTime fun u => { u with running := true, state := .free }).wr pgSprue SP_STATUS_LINK s.sprueLit.toNat).modLedger
    fun l => { l with unsaved := [] }
  let s2 := if s.pins.byReset then s1.wr pgBu BU_START_CAUSE 2 else s1
  let f := s.fuse
  let g : Fuse := if f.decommissioning then { f with life := .decommissioned, udsOff := true, decommissioning := false } else f
  if o.fuses then (({ s2 with fuse := g } : State).startVolts, {}) else (s2, { st := 2, fail := 0x01 })

/-- The Ledger's set in force verifies (R501, R561, R572). A set that the Ledger does not spell out, as at manufacture, is
good where its check says so. -/
def State.setGood (s : State) (o : StageObs) : Bool :=
  let b := s.update.area s.update.setInForce
  o.images &&
    (b.isEmpty ||
      ((s.update.select.any fun r => decide (r.hash = sha256 (b.take (manLength b)))) && s.manifestOk b && decide (s.fuse.svn ≤ manSvn b) &&
        (compatOf b 0 s.fuse.baseStepping).isSome))

/-- Stage 1 (R485, R497, R572): identity, measurement slots 0 to 2, the start count; or the recovery intake. -/
def State.stage1 (s : State) (o : StageObs) : State × StageEnd :=
  let b := s.update.area s.update.setInForce
  let m := b.take (manLength b)
  let s0 := s.modLedger fun l => { l with starts := min 65535 (l.starts + 1) }
  if !o.selfTest then (s0, { st := 2, fail := 0x11, detail := pgMordant })
  else if !s.setGood o then ({ s0.updState 7 with boot := { s.boot with recovery := true } }, { st := 2, fail := 0x12 })
  else
    let s1 := ((s0.setMs 0 (sha256 (imageBytes b 2))).setMs 1 (sha256 (imageBytes b 1))).setMs 2 (sha256 m)
    let s2 := (s1.modUpdate fun u => { u with inForce := m }).wrs pgMordant
      [(MD_SVN_MANIFEST, manSvn m), (MD_STATUS_OPERATOR, (!s.ledger.opHash.isEmpty).toNat), (MD_STATUS_DRBG_OK, 1)]
    (s2.deriveIdentity, {})

/-- A Riser is absent as a whole (R536). -/
def State.loseRiser (s : State) (n : Nat) : State :=
  let s1 := (diePages n ++ basePages n).foldl (fun s pg => s.wr pg PAGE_STAT_SERVICE 2) s
  s1.wrs pgBu [(BU_REDUCED_RISER_ABSENT, setBit (s.rd pgBu BU_REDUCED_RISER_ABSENT) n true),
    (BU_REDUCED_ABSENT, setBit (s.rd pgBu BU_REDUCED_ABSENT) n true)]

/-- Every management core of half `h` is bad. -/
def halfDown (l : List BadUnit) (h : Nat) : Bool := (List.range 8).all fun i => l.contains ⟨8, 9, 8 * h + i⟩

/-- Stage 2 (R531 to R536, R588): defects of the base die, absent Risers, the form of the start, the housekeeping round;
start-up halts while a shutdown record is pending. -/
def State.stage2 (s : State) (o : StageObs) : State × StageEnd :=
  let l := o.bad.filter fun u => decide (u.die = 8)
  let s1 := s.findDefects (fun u => decide (u.die = 8)) l
  let bad := s1.badUnits
  let s2 := (o.lost.filter (· < 8)).foldl State.loseRiser s1
  let rest := s.on pgBu BU_CTRL_FAST_EN && (match s.savedOf pgParting with | some e => s.setValid o.dies e | none => false)
  let pend := s.ledger.pending
  let s3 := { s2 with
    boot := { s2.boot with restored := rest, halted := !pend.isEmpty }
    health := { s2.health with roundOn := true, roundAt := if s.health.roundOn then s.health.roundAt else s.real } }
  let form := if rest then 1 else 0
  let new := decide (s1.rd pgBu BU_DEFECTS_NEW ≠ s.rd pgBu BU_DEFECTS_NEW)
  if halfDown bad 0 || halfDown bad 1 then (s3, { st := 2, fail := 0x22, form := form, detail := pageId 0x0070 (if halfDown bad 0 then 0 else 8) })
  else if !pend.isEmpty then
    ((s3.wr pgHk HK_STATUS_ACK_PENDING 1).raise pgHk ev_HK_SHUTDOWN_PENDING (le 8 s.ledger.oldest ++ le 2 pend.length),
      { fail := 0x24, form := form })
  else match o.lost.filter (· < 8) with
    | n :: _ => (s3, { st := 1, fail := 0x21, form := form, detail := pgSlice n })
    | [] => (s3, { fail := if new then 0x23 else 0, form := form })

/-! ### Stages 3 to 5: training -/

/-- The widths' code: 0 full, 1 repaired, 2 half width, 3 failed. -/
def widthCode (w : WidthObs) : Nat := if w.width = 3 then 3 else if w.width ≠ 0 then 2 else if w.spares = 0 then 0 else 1

/-- Stage 3 (R315): the Parting Link's two directions. -/
def State.stage3 (s : State) (o : StageObs) : State × StageEnd :=
  let a := widthOf o pgParting 0
  let b := widthOf o pgParting 1
  let full := !s.restores o pgParting
  let s1 := s.wrs pgParting
    [(MC_PL_STATE_CD, widthCode a), (MC_PL_STATE_CD_UPPER, (decide (a.width = 2)).toNat), (MC_PL_SPARES_CD, a.spares),
     (MC_PL_STATE_DC, widthCode b), (MC_PL_STATE_DC_UPPER, (decide (b.width = 2)).toNat), (MC_PL_SPARES_DC, b.spares)]
  let s2 := s1.plMargin { cd := a.phase, dc := b.phase, skew := o.skew }
  let s3 := if full then [(0, a), (1, b)].foldl (fun s (e : Nat × WidthObs) =>
      s.ageTrained { seq := 0, unit := pgParting, hours := 0, kind := 3, index := e.1, phase := e.2.phase, volt := e.2.volt }) (s2.trainedFull pgParting (widthCode a ≠ 3 ∧ widthCode b ≠ 3)) else s2
  let form := s.formOf o [pgParting]
  let fell (d : Nat) (w : WidthObs) (s : State) := if widthCode w = 3 then s.raise pgParting ev_MC_PL_FAILED (le 1 d) else s
  let s4 := fell 1 b (fell 0 a s3)
  if widthCode a = 3 ∨ widthCode b = 3 then (s4, { st := 2, fail := 0x32, form := form, detail := pgParting })
  else if widthCode a = 2 ∨ widthCode b = 2 then (s4, { st := 1, fail := 0x31, form := form, detail := pgParting })
  else (s4, { form := form })

/-- Risers that are not absent whole. -/
def State.risersIn (s : State) : List Nat := (List.range 8).filter fun n => !bit (s.rd pgBu BU_REDUCED_RISER_ABSENT) n

/-- Column group `g` of Riser `n` as trained or restored. -/
def State.bringGroup (s : State) (o : StageObs) (n g : Nat) : State :=
  let pg := pgGroup (32 * n + g)
  let w := widthOf o pg 0
  let s1 := ((s.setGroup n g (widthCode w)).modWires (32 * n + g) fun x =>
    { x with spares := w.spares, upper := decide (w.width = 2) }).groupMargin n g w.phase
  let s1 := if widthCode w = 3 then s1.raise (pgColumns n) ev_MC_LINK_FENCED (le 1 (g % 16 / 2) ++ le 1 g) else s1
  if s.restores o pg then s1
  else (s1.trainedFull pg (widthCode w ≠ 3)).ageTrained { seq := 0, unit := pg, hours := 0, kind := 2, index := g, phase := w.phase, volt := w.volt }

/-- A compute die is absent (R536). -/
def State.loseDie (s : State) (n : Nat) : State :=
  ((diePages n).foldl (fun s pg => s.wr pg PAGE_STAT_SERVICE 2) s).wr pgBu BU_REDUCED_ABSENT (setBit (s.rd pgBu BU_REDUCED_ABSENT) n true)

/-- Stage 4 (R314, R536): the column groups; a Riser without a vertical link loses its compute die. -/
def State.stage4 (s : State) (o : StageObs) : State × StageEnd :=
  let s1 := s.risersIn.foldl (fun s n => (List.range 32).foldl (fun s g => s.bringGroup o n g) s) s
  let dead := s.risersIn.filter fun n => (List.range 8).all fun v => !s1.linkUp n v
  let worse := s.risersIn.filter fun n => (List.range 32).any fun g => decide (2 ≤ s1.groupState n g)
  let s2 := dead.foldl State.loseDie s1
  let form := s.formOf o ((s.risersIn.map fun n => (List.range 32).map fun g => pgGroup (32 * n + g)).flatten)
  match dead, worse with
  | n :: _, _ => (s2, { st := 1, fail := 0x42, form := form, detail := pgColumns n })
  | [], n :: _ => (s2, { st := 1, fail := 0x41, form := form, detail := pgGroup (32 * n + ((List.range 32).find? fun g => decide (2 ≤ s1.groupState n g)).getD 0) })
  | [], [] => (s2, { form := form })

/-- Channel `c` as trained or restored; refresh runs from now (R529). At half width the half not in use holds the failing groups (Table 8-5). -/
def State.bringChan (s : State) (o : StageObs) (c : Nat) : State :=
  let pg := pgChannel c
  let w := widthOf o pg 0
  let st := match widthCode w with | 3 => 5 | 2 => 3 | 1 => 2 | _ => 1
  let s1 := (s.wrs pg [(MC_STATUS_STATE, st), (MC_STATUS_HALF_UPPER, (decide (w.width = 2)).toNat), (MC_SPARES_USED, w.spares), (MC_SPARES_EXHAUSTED, w.exhausted),
    (MC_REPAIR_LO_LANES, w.lanes % 2 ^ 32), (MC_REPAIR_HI_LANES, w.lanes / 2 ^ 32)]).modChan c fun u =>
      { u with refreshAt := s.real, bad := match w.width with | 1 => 0xF0 | 2 => 0x0F | _ => 0 }
  if st = 5 then s1.raise pg ev_MC_CHANNEL_FAILED (le 1 (c % 32))
  else
    let s2 := s1.chanMargin c w.phase w.volt w.lane
    if s.restores o pg then s2
    else (s2.trainedFull pg true).ageTrained { seq := 0, unit := pg, hours := 0, kind := 1, index := 0xFF, phase := w.phase, volt := w.volt }

/-- The channels of the Risers that are not absent. -/
def State.chansIn (s : State) : List Nat := (s.risersIn.map fun n => (List.range 32).map fun c => 32 * n + c).flatten

/-- Stage 5: the DRAM channels. -/
def State.stage5 (s : State) (o : StageObs) : State × StageEnd :=
  let s1 := s.chansIn.foldl (fun s c => s.bringChan o c) s
  let form := s.formOf o (s.chansIn.map pgChannel)
  match s.chansIn.find? fun c => decide (2 ≤ widthCode (widthOf o (pgChannel c) 0)) with
  | some c => (s1, { st := 1, fail := 0x51, form := form, detail := pgChannel c })
  | none => (s1, { form := form })

/-! ### Stages 6 to 10 -/

/-- What the compatibility table grants a compute die (R537, R538). -/
def State.grant (s : State) (e : DieObs) : Option (Nat × Nat) :=
  if s.update.inForce.isEmpty then (if e.level = 0 then none else some (e.level, e.features)) else compatOf s.update.inForce 1 e.stepping

/-- What it grants the base die; where the set is not spelled out, no limit. -/
def State.baseGrant (s : State) : Nat × Nat :=
  if s.update.inForce.isEmpty then (15, 2 ^ 28 - 1) else (compatOf s.update.inForce 0 s.fuse.baseStepping).getD (0, 0)

/-- Compute die `n` wakes (R535, R536, R540): absent where it is silent or of a stepping not listed; else its defects,
mapping, memories and firmware. -/
def State.wakeDie (s : State) (o : StageObs) (n : Nat) : State :=
  if bit (s.rd pgBu BU_REDUCED_ABSENT) n && !s.on pgBu BU_DIE_REV_PRESENT n then s
  else match o.dies.find? fun e => decide (e.die = n) with
    | none => (s.loseDie n).wr pgBu BU_DIE_REV_PRESENT 0 n
    | some e =>
      let s1 := (s.wr pgBu BU_DIE_REV_PRESENT 1 n).wr pgBu BU_DIE_REV_STEPPING e.stepping n
      match s.grant e with
      | none => ((s1.loseDie n).wr pgBu BU_DIE_REV_FENCED 1 n).wr pgBu BU_DIE_REV_LEVEL 0 n
      | some g =>
        let l := o.bad.filter fun u => decide (u.die = n)
        let s2 := ((s1.wr pgBu BU_DIE_REV_LEVEL g.1 n).wr pgBu BU_REDUCED_ABSENT (setBit (s1.rd pgBu BU_REDUCED_ABSENT) n false)).findDefects
          (fun u => decide (u.die = n)) l
        let s3 := (List.range 10).foldl (fun s k =>
          let c := 10 * n + k
          ((s.mapCluster c s2.badUnits).zeroCluster c true).floodCluster c) s2
        ((s3.unreached n).foldl (fun s c => s.fenceUnit (pgCluster c)) s3).judgeDie n

/-- The device's contract level and features: the least of the base die's and of those granted in `l` (R538). -/
def State.setLevels (s : State) (l : List (Nat × Nat)) : State :=
  let r := l.foldl (fun (m : Nat × Nat) g => (min m.1 g.1, m.2 &&& g.2)) s.baseGrant
  s.wrs pgBu [(BU_LEVEL_LEVEL, r.1), (BU_LEVEL_FEATURES, r.2)]

/-- What the dies of the observation are granted. -/
def State.levels (s : State) (o : StageObs) : State := s.setLevels ((o.dies.filter fun e => s.diesIn.contains e.die).filterMap s.grant)

/-- The compatibility table in force governs the dies in service (R570). -/
def State.relevel (s : State) : State :=
  if s.update.inForce.isEmpty || !s.started then s
  else
    let g := s.diesIn.filterMap fun d => (compatOf s.update.inForce 1 (s.rd pgBu BU_DIE_REV_STEPPING d)).map fun g => (d, g)
    (g.foldl (fun s e => s.wr pgBu BU_DIE_REV_LEVEL e.2.1 e.1) s).setLevels (g.map fun e => e.2)

/-- Stage 6: the compute dies. -/
def State.stage6 (s : State) (o : StageObs) : State × StageEnd :=
  let s1 := (s.risersIn.foldl (fun s n => s.wakeDie o n) s).levels o
  let gone := s.risersIn.filter fun n => bit (s1.rd pgBu BU_REDUCED_ABSENT) n
  let red := s.risersIn.filter fun n => bit (s1.rd pgBu BU_REDUCED_DIES) n
  let new := decide (s1.rd pgBu BU_DEFECTS_NEW ≠ s.rd pgBu BU_DEFECTS_NEW)
  let first := (o.bad.find? fun u => decide (u.die < 8) && !s.knownBad.contains u).map fun u => pgCluster (10 * u.die + u.index / 16)
  match gone, red with
  | n :: _, _ => (s1, { st := 1, fail := 0x61, detail := pgCluster (10 * n) })
  | [], n :: _ => (s1, { st := 1, fail := 0x62, detail := (((List.range 10).map fun k => 10 * n + k).find? s1.clusterShort |>.map pgCluster).getD 0 })
  | [], [] => (s1, if new then { fail := 0x63, detail := first.getD 0 } else {})

/-- Stage 7: route tables are written and the good routers leave neighbour mode; clusters no table reaches are fenced. Runner
training begins with the end of the stage. -/
def State.stage7 (s : State) (o : StageObs) : State × StageEnd :=
  let dies := s.risersIn.filter fun n => !bit (s.rd pgBu BU_REDUCED_ABSENT) n
  let routers := (dies.map fun n => (List.range 10).map fun k => 10 * n + k).flatten ++ s.risersIn.map fun n => 80 + n
  let s1 := routers.foldl (fun s r => (s.normalRouters r).wr (pgControl r) NW_CROUTE_VERSION (s.rd (pgControl r) NW_CROUTE_VERSION + 1)) s
  let cut := o.unreachable.filter fun c => dies.contains (c / 10)
  let s2 := dies.foldl State.judgeDie (cut.foldl (fun s c => s.fenceUnit (pgCluster c)) s1)
  let s3 := { s2 with net := { s2.net with chunks := [], fresh := [] } }
  match cut with
  | c :: _ => (s3, { st := 1, fail := 0x71, detail := pgCluster c })
  | [] => (s3, {})

/-- Every enabled port starts to train. -/
def State.trainPorts (s : State) : State :=
  ((List.range 24).filter fun q => s.on (pgRunner q) RN_PCTRL_ENABLE && decide (s.rd (pgRunner q) RN_PSTAT_STATE = 0)).foldl
    State.beginTraining s

/-- Stage 8: a port that is not ACTIVE keeps training. -/
def State.stage8 (s : State) : State × StageEnd :=
  match (List.range 24).find? fun q => s.on (pgRunner q) RN_PCTRL_ENABLE && decide (s.rd (pgRunner q) RN_PSTAT_STATE ≠ 6) with
  | some q => (s, { st := 1, fail := 0x81, detail := pgRunner q })
  | none => (s, {})

/-- Stage 9 (R469, R470, R637): the CXL outputs are driven and the CXL ports train. -/
def State.stage9 (s : State) (o : StageObs) : State × StageEnd :=
  let trained (x : Nat) (up : Bool) (s : State) := s.trainedFull (pgCxl x) (up && !s.restores o (pgCxl x))
  let s1 := trained 1 o.cxl1.up (trained 0 o.cxl0.up ((({ s with pins := { s.pins with cxlOut := true } } : State).enumerate 0 o.cxl0).enumerate 1 o.cxl1))
  let form := s.formOf o [pgCxl 0, pgCxl 1]
  if !o.cxl0.up then (s1, { st := 1, fail := 0x91, form := form, detail := pgCxl 0 })
  else if !o.cxl1.up then (s1, { st := 1, fail := 0x91, form := form, detail := pgCxl 1 })
  else (s1, { form := form })

/-- Stage 10: time lock. -/
def State.stage10 (s : State) : State × StageEnd :=
  (s, if s.time.state = .locked then {} else { st := 1, fail := 0xA1, detail := pgHt })

/-! ### Stage 11: partitions (R541, R553) -/

/-- A port whose assignment names no partition of the count, or one that R29 forbids it, is released (R553). -/
def State.releasePorts (s : State) (count : Nat) : State :=
  let s1 := (List.range 24).foldl (fun s q =>
    if onHalf count (s.rd pgBu PT_RN_ASSIGN_PART q) (q / 12) then s else s.wr pgBu PT_RN_ASSIGN_VALID 0 q) s
  (List.range 2).foldl (fun s x => if onHalf count (s.rd pgBu PT_CX_ASSIGN_PART x) x then s else s.wr pgBu PT_CX_ASSIGN_VALID 0 x) s1

/-- The count PT_CONFIG asks for comes into force. -/
def State.takeCount (s : State) : State :=
  let s1 := (s.wrs pgBu [(PT_CONFIG_ACTIVE, s.rd pgBu PT_CONFIG_COUNT), (PT_CONFIG_PENDING, 0)]).releasePorts s.askedCount
  { s1 with descs := s1.descs.filter fun e => decide (e.1 = 8 ∨ e.1 < s.askedCount) }

/-- Step 1: the seed of partition `p`, in force on its channels, whose poison tables empty (R288, R305). -/
def State.setSeed (s : State) (p : Nat) : State :=
  let v := s.rd pgBu PT_SEED_SEED p
  (s.risersOf p).foldl (fun s n =>
    ((List.range 32).foldl (fun s c => s.wr (pgChannel (32 * n + c)) MC_SEED_SEED v) s).emptyPoison n)
    (s.modPart p fun q => { q with seed := v })

/-- Partitions allocated under the count in force; `new`: with seeds and memory keys. -/
def State.allocAll (s : State) (new : Bool) : State :=
  let l := s.partList
  let s1 := if new then l.foldl State.newMemKeys (l.foldl State.setSeed s) else s
  let s2 := l.foldl (fun s p => (s.emptyPart p).modPart p fun q => { q with lost := false }) s1
  (l.foldl State.measureAlloc s2).formDesc 8

/-- Stage 11: partitions allocated, MS3 and the descriptions formed; Patterns are accepted from its end. -/
def State.stage11 (s : State) : State × StageEnd :=
  let changed := decide (s.rd pgBu PT_CONFIG_COUNT ≠ s.rd pgBu PT_CONFIG_ACTIVE)
  let s1 := (s.takeCount).modHall fun h => { h with owners := [] }
  let s2 := (s1.allocAll (s.boot.fresh || changed)).refreshMs3
  (if s.boot.fresh then s2.modHealth fun h => { h with hourAt := s.real, replanAt := s.ledger.hours } else s2, {})

/-! ### The row -/

/-- Stage `k` runs. -/
def State.runStage (s : State) (k : Nat) (o : StageObs) : State × StageEnd :=
  match k with
  | 0 => s.stage0 o
  | 1 => s.stage1 o
  | 2 => s.stage2 o
  | 3 => s.stage3 o
  | 4 => s.stage4 o
  | 5 => s.stage5 o
  | 6 => s.stage6 o
  | 7 => s.stage7 o
  | 8 => s.stage8
  | 9 => s.stage9 o
  | 10 => s.stage10
  | _ => s.stage11

/-- The next stage may run: begun, not stopped or halted, REFCLK present, past stage 0 RESET_N deasserted (R525, R648), and past
stage 2 no shutdown that a power cycle has not ended (R588). -/
def State.stageReady (s : State) : Bool :=
  s.boot.begun && !s.boot.stopped && !s.boot.halted && s.pins.refclk && decide (s.stageNow ≤ 11) &&
    (decide (s.stageNow = 0) || s.pinHigh .resetN) && (decide (s.stageNow ≤ 2) || s.health.shutdown.isNone)

/-- The limit of stage `k` in ms (Table 14-1). -/
def stageLimit (k : Nat) : Nat := [100, 500, 5000, 2000, 4000, 12000, 2000, 200, 500, 2000, 10000, 200].getD k 0

/-- What stages 8 and 10 wait for has come: every enabled port ACTIVE, the time unit LOCKED. -/
def State.stageMet (s : State) (k : Nat) : Bool :=
  match k with
  | 8 => (s.stage8).2.st = 0
  | 10 => (s.stage10).2.st = 0
  | _ => true

/-- Stage `k` goes on after `us`: what it waits for has not come, nor its limit (Table 14-2, 0x81 and 0xA1). -/
def State.stageWaits (s : State) (k us : Nat) : Bool := !s.stageMet k && decide (us < 1000 * stageLimit k)

/-- START_UP_STAGE (R524): the next stage runs its work and ends with its report, at its limit at the latest. Where the clocks
do not lock, the Sprue port stays dark and nothing follows (R526). -/
def execStartUpStage (obs : StageObs) (s : State) : Host.Outcome State Fault Refusal :=
  finish (answered ++ [.mem, .undef, .poison, .fuse, .ledger, .boot, .time, .health, .descs, .net, .chans, .wires, .update]) s <|
    if !s.stageReady || s.stageWaits s.stageNow obs.us then s
    else
      let k := s.stageNow
      if k = 0 ∧ !obs.clocks then { s with boot := { s.boot with stopped := true } }
      else
        let r := s.runStage k obs
        let t := r.1.endStage k (s.rd pgBu BU_DEFECTS_NEW) { obs with us := min obs.us (1000 * stageLimit k) } r.2
        (if k = 7 ∧ s.boot.rerun = 0 then t.trainPorts else t).redescribe

end Sys2Proof.Machine
end

