-- ==== Sys2Proof/Machine/Boundary.lean ====
section
/-!
DEFINITION. Machine/Boundary.lean: the preparation of an epoch boundary in slot 4095 (Table 2-3, R426) and the step of
the Hall Time counter (R51, R658).
-/

namespace Sys2Proof.Machine

open Sys2Proof

/-! ### Assignments, membership, routes, counts (R30, R401, R420, R425, R28) -/

/-- TYPE 1 of partition `p`: its record has changed (R498). -/
def State.measureChange (s : State) (p : Nat) : State := s.extend p 1 (sha256 (s.partRecord p))

/-- The partitions a changed assignment had and has. -/
def ownersOf (w v : Nat) : List Nat := (if w / 8 = 1 then [w % 8] else []) ++ (if v / 8 = 1 then [v % 8] else [])

/-- Port assignments written for this boundary are in force. -/
def State.assignPorts (s : State) : State :=
  let now (k : Nat) := if k < 24 then s.rd pgBu PT_RN_ASSIGN_PART k + 8 * s.rd pgBu PT_RN_ASSIGN_VALID k
    else s.rd pgBu PT_CX_ASSIGN_PART (k - 24) + 8 * s.rd pgBu PT_CX_ASSIGN_VALID (k - 24)
  let mine := s.hall.owners.filter fun e => s.dueBy e.1 (s.epoch + 1)
  let moved := mine.filter fun e => decide (e.2 ≠ now e.1)
  let ps := ((moved.map fun e => ownersOf e.2 (now e.1)).flatten).dedup.filter (· < s.partCount)
  let s1 := s.modHall fun h => { h with owners := h.owners.filter fun e => !s.dueBy e.1 (s.epoch + 1) }
  if ps.isEmpty then s1 else (ps.foldl State.measureChange s1).refreshMs3

/-- The package takes its new number as epoch `e` begins (R401). -/
def State.takeNumber (s : State) (e : Nat) : State :=
  match s.hall.newPkg with
  | some n => if !s.dueBy 27 e then s else (s.wr pgHall NW_HPKG_PKG n).modHall fun h => { h with newPkg := none }
  | none => s

/-- Package `P` is ABSENT from this boundary: what is outstanding to it completes NO-MEMBER (R421). -/
def State.endMember (s : State) (P : Nat) : State :=
  (s.hall.reqs.filter fun e => decide (e.2.remote = some P) && e.2.ans.isNone).foldl (fun s e =>
    match s.req e.1 with
    | some r => s.completeReq e.1 r { status := xNOMEMBER }
    | none => s) s

/-- Membership entries due by epoch `e` apply, in the order staged, with one event (R420). -/
def State.applyMembers (s : State) (e : Nat) : State :=
  let l := s.hall.staged.filter fun x => decide (x.2.2 ≤ e)
  if l.isEmpty then s
  else
    let s1 := s.modHall fun h =>
      { h with
        memb := l.foldl (fun m x => aset 0 m x.1 x.2.1) h.memb
        staged := h.staged.filter fun x => decide (e < x.2.2) }
    let s2 := l.foldl (fun s x => if x.2.1 % 4 = 0 then s.endMember x.1 else s) s1
    (s2.bump pgHall NW_HMEMB_STAT_APPLIED l.length).raise pgHall ev_NW_HMEMB (le 2 l.length ++ le 2 0 ++ le 4 e)

/-- Route tables whose exchange is due by epoch `e` exchange (R425). -/
def State.swapRoutes (s : State) (e : Nat) : State :=
  (s.hall.swaps.filter fun x => decide (x.2 ≤ e)).foldl (fun s x =>
    let h := s.hall
    (s.modHall fun g => { g with
      routes := setTable x.1 h.routes (tableOf x.1 h.shadow), shadow := setTable x.1 h.shadow (tableOf x.1 h.routes)
      swaps := if bit (s.happened pgHall NW_HRT_SWAP_PARTS).2 x.1 then ains x.1 s.swapEpoch h.swaps else adel x.1 h.swaps }).wr pgHall NW_HRT_VER_SWAPS (s.rd pgHall NW_HRT_VER_SWAPS + 1)) s

/-- The partition count written is in force as epoch `e` begins: seals end, the partitions of the old count are gone, those of
the new are allocated (R28, R519, R541, R553). -/
def State.changeCount (s : State) (e : Nat) : State :=
  if s.on pgBu PT_CONFIG_PENDING && s.dueBy 26 e then
    let s1 := s.partList.foldl (fun s p => if s.sealing p && (s.trusted p).ending.isNone then s.endSeal p 2 none else s) s
    let s2 := s.partList.foldl State.emptyPart s1
    let s3 := s2.partList.foldl (fun s p => s.modTrusted p fun t => { t with session := none, patKey := none }) s2
    ((s3.takeCount).allocAll true).refreshMs3
  else s

/-! ### Regions (R322) -/

/-- The region of MiB `i` of a slice: 0 scratch, 1 cache, 2 reduction part, 3 atomic plain part (Table 9-1). -/
def regionOf (w i : Nat) : Nat :=
  let S := w % 128
  let a := w / 2 ^ 8 % 128
  let r := w / 2 ^ 16 % 128
  if i < S then 0 else if i < 96 - a then 1 else if i < 96 - a + r then 2 else 3

/-- Slice `n` takes its new regions as epoch `e` begins: sectors dirtied since the write are written back, bytes whose region changed are
undefined, the reduction part is zero, the cache starts empty. -/
def State.takeRegions (s : State) (n e : Nat) : State :=
  match (if s.dueBy (28 + n) e then (s.sl n).newRegions else none) with
  | none => s
  | some w =>
    let old := (s.sl n).active
    let s1 := (List.range 96).foldl (fun s i => if regionOf old i = regionOf w i then s else s.undefine (sliceBase n + i * mib) mib) (s.writeBackAll n)
    let s2 := (List.range 96).foldl (fun s i => if regionOf w i = 2 then s.zeroStore (sliceBase n + i * mib) mib else s) s1
    (s2.modSl n fun u => { u with active := w, newRegions := none, lines := [], fills := [], fillAt := [], flush := [] }).measureChange (s.partOfRiser n)

/-- Remote copies and retained lines end (R328, R330): a fill under way for a remote line is not kept. -/
def State.endCopies (s : State) (n : Nat) : State :=
  let s1 := ((s.sl n).lines.filter CLine.retained).foldl (fun s l => s.writeBack n l) s
  s1.modSl n fun u =>
    { u with
      lines := u.lines.filter fun l => !l.retained && decide (l.line < 2 ^ 56)
      fills := u.fills.map fun f => if f.1 < 2 ^ 56 then f else (f.1, f.2 ||| 16) }

/-! ### Channels (R304, R312) -/

/-- Channel `c` moved `n` sectors in the epoch, the Riser's 32 channels `sum` (R304). -/
def State.judgeHot (s : State) (c n sum : Nat) : State :=
  let pg := pgChannel c
  let s1 := (s.wr pg MC_SECTORS_COUNT n).modChan c fun u => { u with moved := 0 }
  if 65536 < n ∧ 2 * sum < 32 * n then
    let k := (s.chan c).hotRun + 1
    let s2 := (s1.bump pg MC_HOT_EPOCHS).modChan c fun u => { u with hotRun := k }
    if 16 ≤ k ∧ (k - 16) % 4096 = 0 then
      s2.raise pg ev_MC_HOT_CHANNEL (le 1 (c % 32) ++ le 3 0 ++ le 4 n ++ le 4 (sum / 32))
    else s2
  else (s1.wr pg MC_HOT_EPOCHS 0).modChan c fun u => { u with hotRun := 0 }

/-- The epoch's sectors of the channels of Riser `n`. -/
def State.countSectors (s : State) (n : Nat) : State :=
  let l := (List.range 32).map fun c => 32 * n + c
  let sum := (l.map fun c => (s.chan c).moved).sum
  l.foldl (fun t c => t.judgeHot c (s.chan c).moved sum) s

/-- Retrainings in partition `p`, which is armed, are abandoned (R312). -/
def State.abandonAll (s : State) (p : Nat) : State :=
  (s.risersOf p).foldl (fun s n =>
    (List.range 32).foldl (fun s i => (s.abandonChan (32 * n + i)).abandonGroup (32 * n + i)) s) s

/-! ### Run states (R56, R71 to R74, R161, R163, R252) -/

/-- The relative epoch that ends with this boundary: once the Pattern has begun. -/
def Part.ending (q : Part) (e : Nat) : Option Nat :=
  if q.base ≤ (e : Int) then some ((e : Int) - q.base).toNat else none

/-- The end of epoch `e` for a RUNNING or HOLDING partition: DONE after its last epoch, HELD where a hold is decided,
IDLE where a reset discarded its position (R72, R74, R548). -/
def State.endEpoch (s : State) (p e : Nat) : State :=
  let q := s.part p
  match q.ending e with
  | none => s
  | some r =>
    let k := q.slot q.active
    let last := decide (k.repeats ≠ 0 ∧ r + 1 = max 1 k.period * k.repeats)
    let held := q.run = .holding ∧ q.holdE.all fun h => decide (h ≤ e)
    let s1 := s.modPart p fun q => { q with rel := some r }
    if q.toIdle ∧ (last ∨ held) then s1.modPart p fun q => { q with run := .idle, holdE := none, rel := none, toIdle := false }
    else if last then
      (s1.modPart p fun q => { q with run := .done, holdE := none }).raise pgHt ev_PATTERN_DONE
        (le 1 p ++ le 1 q.active ++ le 2 0 ++ le 4 r)
    else if held then s1.modPart p fun q => { q with run := .held, holdE := none }
    else s1

/-- Arming undone because time is LOST (R56, Table 2-9). -/
def State.undoArm (s : State) (p : Nat) : State :=
  let q := s.part p
  (s.modPart p Part.unarm).raise pgHt ev_ARM_UNDONE
    (le 4 q.armId ++ le 2 q.armOp ++ le 1 stNOTIME ++ le 1 p ++ le 8 q.startE)

/-- The movers of partition `p`: the cluster movers and slice movers of its Risers. -/
def State.moversOf (s : State) (p : Nat) : List Nat :=
  ((s.risersOf p).map fun n => ((List.range 10).map fun k => 10 * n + k) ++ (List.range 4).map fun j => 80 + 4 * n + j).flatten

/-- The units `n × k + i` of the Risers of partition `p`, `k` of them in each. -/
def State.unitsOf (s : State) (p k : Nat) : List Nat := ((s.risersOf p).map fun n => (List.range k).map fun i => k * n + i).flatten

/-- Matrix core `m` at POUR (R161): its sequencer at instruction 0, P1 to P7 set, tracker banks empty, bank 0 next; its
weight stream buffer holds no row of the new program yet (log entry 48). -/
def State.pourMx (s : State) (at_ m : Nat) : State :=
  let s1 := if (s.mx m).run.isSome ∨ (s.mx m).out.isSome then s.halt (pgMatrix m) else s
  (s1.modMx m fun c => { c with seq := Seq.poured at_, trks := [], filled := none, ring := [] }).wrs (pgMatrix m)
    [(MX_SEQ_PRED_P, 127), (MX_SEQ_STATE_TRK_BANK, 0), (MX_SEQ_STATE_PERIOD_PAR, 0)]

/-- General core `g` at POUR (R220): its registers zero, its next instruction ENTRY. -/
def State.pourGc (s : State) (g : Nat) : State :=
  match s.sect 5 (g / 80) (g % 80) with
  | some b => s.modGc g fun _ => { pc := fieldAt b 0x10 4 }
  | none => s.modGc g fun _ => { stopped := true }

/-- POUR takes partition `p` into epoch `e` (R71, R161, R252): issue counters loaded, flags zero, base B = E. -/
def State.pour (s : State) (p e : Nat) : State :=
  let at_ := s.epochCycle e
  let s1 := s.modPart p fun q => { q with run := .running, base := e, rel := none, toIdle := false, gone := false }
  let s2 := (s1.unitsOf p 40).foldl (fun s m => s.pourMx at_ m) s1
  let s3 := (s2.moversOf p).foldl (fun s m => s.modMover m fun u => { u with seq := Seq.poured at_ }) s2
  let s4 := (s3.unitsOf p 80).foldl State.pourGc s3
  let s5 := (s4.unitsOf p 32).foldl (fun s c => s.modChan c fun u => { u with pc := 0, ranAt := 0, blocked := 0, part := 0 }) s4
  let l := ((s5.risersOf p).map riserRouters).flatten
  { s5 with flags := s5.flags.filter fun f => !l.contains (f.1 / 4096) }

/-- RELEASE takes partition `p` on in epoch `e` (R73, R163): B = E − (r + 1). -/
def State.release (s : State) (p e : Nat) : State :=
  let at_ := s.epochCycle e
  let s1 := s.modPart p fun q =>
    { q with run := .running, base := (e : Int) - ((q.rel.map (· + 1)).getD 0 : Nat), toIdle := false }
  let s2 := (s1.unitsOf p 40).foldl (fun s m => s.modMx m fun c => { c with seq := c.seq.released at_ }) s1
  (s2.moversOf p).foldl (fun s m => s.modMover m fun u => { u with seq := u.seq.released at_ }) s2

/-- Partition `p` at the boundary after epoch `e`: the epoch ends, a hold is decided, an arming is undone or taken. -/
def State.boundaryPart (s : State) (e p : Nat) : State :=
  let q := s.part p
  match q.run with
  | .running | .holding => s.endEpoch p e
  | .armed =>
    if s.time.state = .lost ∨ q.holdE.any (fun h => decide (h ≤ e)) then s.undoArm p
    else if q.startE = e + 1 then
      let s1 := s.abandonAll p
      if q.armOp = 0x0002 then s1.pour p (e + 1) else s1.release p (e + 1)
    else s
  | _ => s

/-- HOLD_N low: every partition holds in each epoch (R76, R648). -/
def State.pinHold (s : State) : State :=
  if s.holdPin then (s.partList.foldl (fun s p => s.modPart p fun q => q.holdAt s.epoch) s).notePinHold else s

/-! ### Seals (R512, R514, R519) -/

/-- A seal whose scrub is done comes into force; a STRICT one that a commit ends begins its end. -/
def State.boundarySeal (s : State) (p : Nat) : State :=
  let t := s.trusted p
  if t.sealReady then
    let strict := t.flags % 2
    let s1 := (s.modTrusted p fun t => { t with sealReady := false }).wrs pgMordant [(MD_PART_SEALED, 1), (MD_PART_STRICT, strict)] p
    ((s1.extend p 4 (sha256 (t.domain ++ le 1 t.flags))).raise pgMordant ev_MD_SEALED (le 1 p ++ le 1 strict)).rekeyPorts p
  else if t.strictEnd then s.endSeal p 3 none
  else s

/-! ### Routers, clusters, ports (R245, R271, R369, R597) -/

/-- Route tables that go round the routers declared bad are in force: each table a new version. -/
def State.newTables (s : State) : State :=
  if s.net.avoid.isEmpty then s
  else
    let s1 := s.net.avoid.foldl (fun s r => s.wr (pgControl r) NW_CSTAT_AVOIDED 1) s
    let s2 := (List.range 88).foldl (fun s r => s.wr (pgControl r) NW_CROUTE_VERSION (s.rd (pgControl r) NW_CROUTE_VERSION + 1)) s1
    s2.modNet fun n => { n with avoid := [], tables := n.tables ++ n.avoid.filter fun r => !n.tables.contains r }

/-- Clusters retired are fenced, their dies judged (R597). -/
def State.fenceRetired (s : State) : State :=
  (s.health.retire.foldl (fun s d => (s.fenceUnit (pgCluster d)).judgeDie (d / 10)) s).modHealth fun h => { h with retire := [] }

/-- A port that AUTO retrains, or that asked and was not yet accepted (R369). -/
def State.retrainDue (s : State) (q : Nat) : Bool :=
  let pg := pgRunner q
  s.pst q == 6 && ((s.port q).asking || (s.on pg RN_PCTRL_AUTO &&
    (decide (s.rd pg RN_PSTAT_WIDTH ≠ 3) || decide (s.rd pg RN_PSTAT_RATE < (s.port q).target) || s.on pg RN_PSTAT_RETRAIN_DUE)))

/-! ### The row -/

/-- What Mordant's and the fuses' lifecycle takes at the boundary: DEPLOY (R491). -/
def Fuse.deploy (f : Fuse) : Fuse := if f.deploying then { f with life := .deployed, deploying := false } else f

/-- MS3 follows a lifecycle that has changed from that of `f`. -/
def State.noteLife (s : State) (f : Fuse) : State := if s.fuse.life = f.life then s else s.noteRecord

/-- The work of slot 4095: assignments, membership and routes, in that order (R426), and the pin's hold of this epoch (R76).
Assignments written during start-up are taken at stage 11 (R541). -/
def State.prepare (s : State) : State :=
  let s0 := if s.started then s.assignPorts else s
  ((s0.applyMembers (s.epoch + 1)).swapRoutes (s.epoch + 1)).pinHold

/-- What is in force from the boundary between epochs `e` and e + 1, which was prepared in slot 4095 (Table 2-10): the
package's number, the compatibility table, the count, regions, tables, retired clusters, run states, seals, retrainings. -/
def State.crossBoundary (s : State) (e : Nat) : State :=
  let s0 := (s.takeNumber (e + 1)).relevel
  let s1 := if s.started then s0.changeCount (e + 1) else s0
  let s2 := (List.range 8).foldl (fun s n => (((s.takeRegions n (e + 1)).endCopies n).countSectors n)) s1
  let s3 := s2.newTables.fenceRetired
  let s4 := s3.partList.foldl (fun s p => s.boundaryPart e p) s3
  let s5 := s4.partList.foldl State.boundarySeal s4
  (((List.range 24).filter s5.retrainDue).foldl State.askRetrain s5).redescribe

/-- BOUNDARY_PREPARATION (R426): in slot 4095, once before each boundary. -/
def execBoundaryPreparation (s : State) : Host.Outcome State Fault Refusal :=
  finish (served ++ [.undef, .flags, .fuse, .resets, .time, .sprue, .health, .descs, .net, .chans, .wires, .gcores]) s <|
    if s.time.running && decide (s.slot = 4095) && decide (s.time.prepared ≠ s.time.epochs + 1) then
      let s1 := (s.modTime fun u => { u with prepared := s.time.epochs + 1 })
      ({ s1.prepare.redescribe with fuse := s.fuse.deploy } : State).noteLife s.fuse
    else s

/-- A firmware commit whose hand-over point, slot 4094 of its epoch, lay at or after slot `a` and before slot `b` was passed over:
it is aborted, its staged banks kept (R569, R658). -/
def State.passHandOver (s : State) (a b : Nat) : State :=
  let h := s.update.commitE * 4096 + 4094
  if s.update.commit.isSome ∧ a ≤ h ∧ h < b then
    s.abortCommit ((s.update.prepared.getD []).filter fun p => !s.update.ready.contains p)
  else s

/-- COUNTER_STEP (R51, R658): at a slot boundary in ACQUIRE the counter takes the master value; it passes through no tick
between, so the counts of slots and epochs stay. Commands now in the past are refused LATE; refresh owed is made up (R302); a
commit passed over is aborted. -/
def execCounterStep (s : State) : Host.Outcome State Fault Refusal :=
  finish (answered ++ [.time, .chans, .update]) s <|
    let held := s.partList.all fun p => !(s.part p).run.live
    match s.time.step with
    | none => s
    | some d =>
      if s.time.state = .acquire ∧ s.time.stepDue = true ∧ s.tick = 0 ∧ (s.time.stepFromLost = false ∨ held = true) then
        let s1 := s.modTime fun u =>
          { u with
            ticks := (((u.ticks : Int) + d) % (2 ^ 64 : Int)).toNat
            stepDue := false, step := none, stepFromLost := false, prepared := 0, owe := 0 }
        (s1.refuseLate).refreshOwed.passHandOver (s.time.ticks / 256) (s1.time.ticks / 256)
      else s

end Sys2Proof.Machine
end

