-- ==== Sys2Proof/Machine/PatternLoad.lean ====
section
/-!
DEFINITION. Machine/PatternLoad.lean: the end of LOAD_PATTERN (R70): the image's header and section table (R65 to R67),
the checks of every kind of section (R188, R219, R238, R256 to R260, R293), signature and wrapping (R509 to R511),
relocation (R195), and the slot's state.
-/

namespace Sys2Proof.Machine

open Sys2Proof

/-! ### Header and section table (R65, R66) -/

/-- Every byte of a range is zero. -/
def zeros (b : Bytes) (o n : Nat) : Bool := (slice b o n).all (· == 0)

/-- A table of `n` entries of `k` bytes at offset `o` lies past the header of `h` bytes and within `b`. -/
def tableIn (b : Bytes) (h o n k : Nat) : Bool := decide (n = 0) || decide (h ≤ o ∧ o + n * k ≤ b.length)

/-- The header fields (Table 2-5). -/
def hdLevel (b : Bytes) : Nat := fieldAt b 0x06 1
def hdVariant (b : Bytes) : Nat := fieldAt b 0x07 1
def hdRisers (b : Bytes) : Nat := fieldAt b 0x08 1
def hdWrapped (b : Bytes) : Bool := bit (fieldAt b 0x09 1) 0
def hdCount (b : Bytes) : Nat := fieldAt b 0x0A 2
def hdPeriod (b : Bytes) : Nat := fieldAt b 0x0C 4
def hdRepeat (b : Bytes) : Nat := fieldAt b 0x10 4
def hdTable (b : Bytes) : Nat := fieldAt b 0x60 8

/-- The bytes the signature covers: all before the last 64. -/
def signedPart (b : Bytes) : Bytes := b.take (b.length - 64)

/-- MAGIC, FORMAT and lengths, and FLAGS against the partition's seal (R65, R510). -/
def headOk (b : Bytes) (sealed : Bool) : Bool :=
  decide (256 + 64 ≤ b.length) && decide (fieldAt b 0x00 4 = 0x54415056) && decide (fieldAt b 0x04 2 = 1) &&
    decide (fieldAt b 0x18 8 = b.length) && decide (fieldAt b 0x09 1 < 2) && (hdWrapped b == sealed)

/-- The other fields of the header, and where the section table lies: below `lo` nothing of it. -/
def fieldsOk (b : Bytes) (lo : Nat) : Bool :=
  [1, 2, 4, 8].contains (hdRisers b) && decide (1 ≤ hdCount b ∧ hdCount b ≤ 4096) &&
    decide (1 ≤ hdPeriod b ∧ hdPeriod b ≤ 1048576) && zeros b 0x14 4 && zeros b 0x68 152 &&
    decide (lo ≤ hdTable b ∧ hdTable b + 32 * hdCount b ≤ b.length - 64)

/-- Entry `i` of the section table. -/
def entryAt (b : Bytes) (i : Nat) : Bytes := slice b (hdTable b + 32 * i) 32

/-- A unit number of a section type (Table 2-6). -/
def unitOk (ty u : Nat) : Bool :=
  match ty with
  | 1 => decide (u < 40)
  | 2 => decide (u < 10 ∨ (16 ≤ u ∧ u < 20))
  | 3 => decide (u < 10 ∨ u = 16)
  | 4 => decide (u < 32)
  | 5 => decide (u < 80)
  | _ => false

/-- An entry is well formed and its section lies in the image. -/
def entryOk (b : Bytes) (lo : Nat) (e : Bytes) : Bool :=
  unitOk (fieldAt e 0x00 1) (fieldAt e 0x02 2) && decide (fieldAt e 0x01 1 < hdRisers b) && zeros e 0x04 4 && zeros e 0x18 8 &&
    decide (lo ≤ fieldAt e 0x08 8 ∧ fieldAt e 0x08 8 + fieldAt e 0x10 8 ≤ b.length - 64)

/-- The sections of an image. -/
def sectionsOf (b : Bytes) : List Section :=
  (List.range (hdCount b)).map fun i =>
    let e := entryAt b i
    { ty := fieldAt e 0x00 1, riser := fieldAt e 0x01 1, unit := fieldAt e 0x02 2, body := slice b (fieldAt e 0x08 8) (fieldAt e 0x10 8) }

/-- One program for one unit. -/
def distinctUnits (l : List Section) : Bool := decide (l.map fun x => (x.ty, x.riser, x.unit)).Nodup

/-! ### Stamps (R60, R153, R188) -/

/-- What stamps are checked against: the Pattern's period and the cycles per slot. -/
structure Frame0 where
  period : Nat
  cps : Nat
  deriving DecidableEq, Repr

/-- A stamp's fields are in range. -/
def Frame0.stampOk (f : Frame0) (ep sl cy : Nat) : Bool := decide (ep < f.period ∧ sl ≤ 4087 ∧ cy < f.cps)

/-- A stamp as a number: cycles from the period's start. -/
def Frame0.at_ (f : Frame0) (ep sl cy : Nat) : Nat := (ep * 4096 + sl) * f.cps + cy

/-- The stamps never go back. -/
def rising : List Nat → Bool
  | a :: b :: l => decide (a ≤ b) && rising (b :: l)
  | _ => true

/-- The common fields of an instruction word (Table 5-2). -/
def Frame0.commonOk (f : Frame0) (w : Nat) : Bool :=
  if wAfter w then decide (wCyc w = 0 ∧ wSlot w = 0 ∧ wEpoch w = 0) else f.stampOk (wEpoch w) (wSlot w) (wCyc w)

/-- The stamps of the timed instructions. -/
def Frame0.stamps (f : Frame0) (l : List Nat) : List Nat :=
  (l.filter fun w => !wAfter w).map fun w => f.at_ (wEpoch w) (wSlot w) (wCyc w)

/-- A flag address in the unit's own store: page 0, or the store's own number `own` (R247). -/
def ownFlag (own a : Nat) : Bool := decide (a / 256 = 0) || decide (a / 256 = own)

/-- A TSYNC or MSYNC word. A SET or ADD may carry any flag address: a token to a reserved store is dropped when it is sent
(R248). -/
def syncOk (own w : Nat) : Bool := decide (wf w 127 99 = 0) && (decide (2 ≤ tsMode w) || ownFlag own (tsFlag w))

/-! ### Tensor descriptors (R189 to R195, R64) -/

/-- A descriptor as the image carries it: fields, tag 0, REL only on own addresses; the engine's layouts. -/
def Tensor.imageOk (t : Tensor) (moves : Bool) : Bool :=
  !t.malformed && decide (t.tag = 0) && (moves || (!t.tiled && !t.transp)) && (isMx t.fmt || decide (t.scale = 0)) &&
    (t.checked || decide (t.table = 0)) &&
    (!t.rel || (decide (pkgOf t.addr = 0xFFFF) && (decide (t.scale = 0) || decide (pkgOf t.scale = 0xFFFF))))

/-- An address moved to the partition whose lowest Riser is `f` (R195). -/
def relocate (f a : Nat) : Nat :=
  let o := localOf a
  let d := if o < 0xA000000000 then f * 0x1400000000
    else if 0x010000000000 ≤ o ∧ o < 0x010040000000 then f * 0x08000000
    else if 0x010100000000 ≤ o ∧ o < 0x010150000000 then f * 0x0A000000 else 0
  a / 2 ^ 48 * 2 ^ 48 + (o + d) % 2 ^ 48

/-- A descriptor's 64 bytes as the loader writes them for partition `p` (R195). -/
def placeDesc (f p : Nat) (b : Bytes) : Bytes :=
  let t := Tensor.of b
  let mv (a : Nat) := if t.rel && decide (pkgOf t.addr = 0xFFFF) then relocate f a else a
  le 8 (mv t.addr) ++ slice b 0x08 32 ++ le 8 (if t.scale = 0 then 0 else mv t.scale) ++ slice b 0x30 8 ++ le 8 (t.ctl + p * 2 ^ 16)

/-- Bytes `lo` to below `hi` of this package meet the firmware region of a cluster memory. -/
def fwHit (lo hi : Int) : Bool :=
  (List.range 80).any fun k => decide (lo < (clusterBase k + 0xC00000 : Nat) ∧ ((clusterBase k + 0xBC0000 : Nat) : Int) < hi)

/-- A placed tensor addresses a firmware region: its elements, scales or check table (R64). -/
def State.inFirmware (s : State) (t : Tensor) : Bool :=
  !t.void && ((s.ownPkg t.addr && fwHit t.span.1 t.span.2) ||
    (isMx t.fmt && decide (t.scale ≠ 0) && s.ownPkg t.scale &&
      fwHit (localOf t.scale) (t.scaleAt 0 t.d1 (t.d2 - 1) (t.d3 - 1))) ||
    (t.checked && s.ownPkg t.table && fwHit (localOf t.table) (localOf t.table + 0x40 + 4 * t.blocks : Nat)))

/-- Descriptors `d` of a section: each as it must be, and none in a firmware region once placed. -/
def State.descsOk (s : State) (f p : Nat) (moves : Bool) (l : List Bytes) : Bool :=
  l.all fun d => (Tensor.of d).imageOk moves && !s.inFirmware (Tensor.of (placeDesc f p d))

/-- The conditions of R177 on a tensor whose first `m` × `n` elements are written. -/
def Tensor.csumOk (t : Tensor) (m n : Nat) : Bool :=
  let len := if n = 1 then (m * t.bits + 7) / 8 else t.rowBytes * n
  t.checked && (decide (t.st0 = 0) || decide (t.st0 * 8 = t.bits)) && decide (t.st1 = t.rowBytes) &&
    (decide (m = t.d0) || decide (n = 1)) && decide (t.addr % 2048 = 0) && decide (len % 2048 = 0)

/-! ### Tile programs (R150 to R188, Table 5-10) -/

/-- The operand pairs of Table 4-2, codes of Table 5-13. -/
def pairOk (op w a : Nat) : Bool :=
  let both (l : List Nat) := l.contains w && l.contains a
  match op with
  | 0 => both [3, 4, 5, 6] || both [0] || both [7] || both [1] || both [8, 9]
  | 1 | 2 | 3 | 4 => both [0] || both [3, 4] || both [1] || both [8, 9]
  | 5 => both [2]
  | 6 => both [0]
  | _ => false

/-- Bits and codes of a tile instruction's own fields (Tables 5-2, 5-4, 5-7, 5-8); flags of R247. -/
def tileBitsOk (own w : Nat) : Bool :=
  let pred := decide (wPsel w = 0)
  match wClass w with
  | 0 => pred && decide (wf w 127 65 = 0)
  | 1 | 2 | 7 => pred && decide (wf w 127 49 = 0)
  | 3 =>
    decide (mmOp w ≤ 6 ∧ mmWfmt w ≤ 9 ∧ mmAfmt w ≤ 9 ∧ mmFold w ≠ 5 ∧ mmFold w ≠ 6 ∧ mmInit w ≤ 2 ∧ wf w 127 123 = 0)
  | 4 => decide (wf w 127 121 = 0)
  | 5 => (pred || decide (2 ≤ tsMode w)) && syncOk own w
  | 6 => pred && decide (tpCond w ≤ 5 ∧ tpDst w ≠ 0 ∧ wf w 127 103 = 0) && ownFlag own (tpFlag w)
  | _ => false

/-- A mask starts in the pool and its span lies there (R167). -/
def maskIn (b : Bytes) (o n : Nat) : Bool := decide (o = 0x1FFF) || decide (o + (n + 63) / 64 ≤ tsMasks b)

/-- The tensor covers at least `m` × `n`, with no further dimensions (R166). -/
def Tensor.covers (t : Tensor) (m n : Nat) : Bool := decide (m ≤ t.d0 ∧ n ≤ t.d1 ∧ t.d2 = 1 ∧ t.d3 = 1)

/-- An output tensor of the plain form. -/
def Tensor.outOk (t : Tensor) (m n : Nat) : Bool := decide (3 ≤ t.fmt ∧ t.fmt ≤ 0x0A) && t.covers m n

/-- The descriptor indexes of a tile record lie in the table, BDESC's 0x3FF naming none (Table 5-10). -/
def recIndexesOk (b : Bytes) (r : Nat) : Bool :=
  decide (trWdesc r < tsDescs b ∧ trAdesc r < tsDescs b ∧ trOdesc r < tsDescs b) && (decide (trBdesc r = 0x3FF) || decide (trBdesc r < tsDescs b))

/-- A TMM (R84, R100, R102, R105 to R107, R123, R145, R164 to R167, R177). One in tracker form has no staging range to check, and
the indexes of a record that no instruction names are not checked (DESIGN CHOICE, log entry 168). -/
def tmmOk (b : Bytes) (w : Nat) : Bool :=
  let m := mmM w
  let n := mmN w
  let k := mmK w
  let r := tileRec b (mmTrec w)
  let wd := tileDesc b (trWdesc r)
  let ad := tileDesc b (trAdesc r)
  let od := tileDesc b (trOdesc r)
  let bd := tileDesc b (trBdesc r)
  let cw := classOfFmt (mmWfmt w)
  let ca := classOfFmt (mmAfmt w)
  let index := decide (mmTrec w < tsTrecs b) && recIndexesOk b r && maskIn b (trRmask r) m && maskIn b (trCmask r) n
  let ops := pairOk (mmOp w) (mmWfmt w) (mmAfmt w) && decide (cw.kappa2 = ca.kappa2) &&
    decide (mmWfmt w = wd.fmt ∧ mmAfmt w = ad.fmt) && wd.covers k m && ad.covers k n
  let fold := (chooseFold n k ca cw (mmTrack w) (mmFold w)).isSome
  let p := planFor b w
  let bias := decide (mmInit w ≠ 1) ||
    (decide (trBdesc r ≠ 0x3FF) && (decide (bd.fmt = 0x08) || decide (bd.fmt = 0x0A)) &&
      decide (m ≤ bd.d0 ∧ bd.d2 = 1 ∧ bd.d3 = 1))
  let store :=
    if mmTrack w then decide (n ≤ 16) && !mmRnd w && !mmSat w && !mmCsum w
    else if p.resident then decide (trStage r + p.mq * n ≤ 8192) && !mmRnd w && !mmSat w && !mmCsum w
    else decide (mmInit w ≠ 2) && od.outOk m n && (!mmCsum w || od.csumOk m n)
  decide (k ≤ 65536) && index && ops && fold && bias && store

/-- A TOUT (R148, R157, R166, R175 to R177); DIM0 is held to field M in tracker form too (DESIGN CHOICE, log entry 168). -/
def toutOk (b : Bytes) (w : Nat) : Bool :=
  let r := tileRec b (toTrec w)
  let od := tileDesc b (trOdesc r)
  let m := toM w
  let n := toN w
  let index := decide (toTrec w < tsTrecs b) && recIndexesOk b r && maskIn b (trRmask r) m && maskIn b (trCmask r) n
  let form :=
    if toTrkf w then decide (od.fmt = 0x0E) && od.covers m n
    else od.outOk m n && decide ((outRange b w).2 ≤ 8192)
  index && form && (!toCsum w || od.csumOk (toRows b w) n)

/-- The instructions of a tile program. -/
def tileWords (b : Bytes) : List Nat := (List.range (tsInstrs b)).map (tileInstr b)

/-- A word fills or swaps a stationary set: TLOADS, TSWAP, TMM with K > 0 (R174). -/
def touchesSet (w : Nat) : Bool := decide (wClass w = 1 ∨ wClass w = 2) || (decide (wClass w = 3) && decide (mmK w ≠ 0))

/-- A TMM that made exactly one stationary load. -/
def oneLoad (b : Bytes) (w : Nat) : Bool :=
  let p := planFor b w
  decide (p.ln * p.blocks * p.lk = 1)

/-- The preload rule of R174 over the words of a program, `p2` and `p1` being the last two before them that touch a
stationary set: a TMM with PRE stands after a TLOADS, or after a TSWAP that follows a single-load TMM of the same
operand; a TLOADS is followed by such a TMM. A TMM with K = 0 serves nothing and is passed over. -/
def preloadOk (b : Bytes) (p2 p1 : Option Nat) : List Nat → Bool
  | [] => p1.all fun y => decide (wClass y ≠ 1)
  | w :: l =>
    let pre := decide (wClass w = 3) && mmPre w
    let shares (x : Nat) : Bool := decide (wClass x = 3) && oneLoad b x &&
      decide (trAdesc (tileRec b (mmTrec x)) = trAdesc (tileRec b (mmTrec w)) ∧ mmAfmt x = mmAfmt w ∧ mmN x = mmN w ∧
        foldOf x = foldOf w)
    (!pre || p1.any fun y => decide (wClass y = 1) || (decide (wClass y = 2) && p2.any shares)) &&
      (if touchesSet w then (pre || p1.all fun y => decide (wClass y ≠ 1)) && preloadOk b p1 (some w) l
       else preloadOk b p2 p1 l)

/-- A timed instruction ends by slot 4087 (R61). -/
def Frame0.fitsEpoch (f : Frame0) (w n : Nat) : Bool := wAfter w || decide (wSlot w * f.cps + wCyc w + n ≤ 4088 * f.cps)

/-- The last word, and only it, is of class 7. -/
def endsOnce (l : List Nat) : Bool :=
  match l.reverse with
  | e :: r => decide (wClass e = 7) && r.all fun w => decide (wClass w ≠ 7)
  | [] => false

/-- A tile-program section (Table 5-10); `own`: the store number of its cluster. -/
def State.tileOk (s : State) (f : Frame0) (low p own : Nat) (b : Bytes) : Bool :=
  let n := tsInstrs b
  let l := tileWords b
  decide (64 ≤ b.length) && decide (1 ≤ n ∧ n ≤ 8192 ∧ tsTrecs b ≤ 4096 ∧ tsDescs b ≤ 1024 ∧ tsMasks b ≤ 8192) && zeros b 0x18 40 &&
    tableIn b 64 (fieldAt b 0x08 4) n 16 && tableIn b 64 (fieldAt b 0x0C 4) (tsTrecs b) 16 &&
    tableIn b 64 (fieldAt b 0x10 4) (tsDescs b) 64 && tableIn b 64 (fieldAt b 0x14 4) (tsMasks b) 8 &&
    (l.all fun w => tileBitsOk own w && f.commonOk w) && rising (f.stamps l) && endsOnce l &&
    s.descsOk low p false ((List.range (tsDescs b)).map fun i => slice b (fieldAt b 0x10 4 + 64 * i) 64) &&
    (l.all fun w => match wClass w with | 3 => tmmOk b w | 4 => toutOk b w | _ => true) &&
    preloadOk b none none l &&
    (l.zipIdx.all fun e => (decide (wClass e.1 = 5) && decide (tsMode e.1 ≤ 1)) || f.fitsEpoch e.1 (tileCycles b e.2))

/-! ### Mover programs (R255 to R262) -/

/-- The sectors of a tensor rise: each element lies with the one before or above it (R260). -/
def Tensor.ascends (t : Tensor) : Bool :=
  rising (t.indexes.flatMap fun i => sectors (t.bitAt i / 8) ((t.bitAt i % 8 + t.bits + 7) / 8))

/-- Trailing words of a transfer between a BULK and a LOCAL end (R260). -/
def trailing (b : Bytes) (w : Nat) : Nat := checkWords b w + (if mvParW w then 4 * ((checkBlocks b w + 14) / 15) else 0)

/-- An MXFER's fields and ends (Table 7-7, R258, R260, R266, R267). -/
def mxferOk (slice_ : Bool) (b : Bytes) (w : Nat) : Bool :=
  let src := mvSrc w
  let dst := mvDst w
  let ofEnd (takes : Bool) (i : Nat) : Bool := if takes then decide (i < msDescs b ∧ i ≠ 0x3FF) else decide (i = 0x3FF)
  let bulk := hasBulk w
  let ring := decide (dst = 2)
  let st := srcTensor b w
  let dt := dstTensor b w
  let t := if src = 1 then dt else st
  decide (src ≤ 3 ∧ dst ≤ 4) && (if slice_ then !ring else !isFar w) &&
    ofEnd (decide (src ≠ 1)) (mvSdesc w) && ofEnd (!(decide (dst = 1) || ring)) (mvDdesc w) &&
    (decide (mvPorts w ≠ 0) == bulk) && (decide (mvWords w ≠ 0) == (bulk || ring)) &&
    (decide (src = 1 ∨ dst = 1 ∨ dst = 2) || decide (st.fmt = dt.fmt)) &&
    (!mvParW w || decide (dst = 1)) &&
    (!(mvCrcW w && decide (dst ≠ 1 ∧ dst ≠ 2)) || dt.csumOk dt.d0 (dt.d1 * dt.d2 * dt.d3)) &&
    (!(bulk && (decide (src = 0) || decide (dst = 0))) ||
      (t.ascends && decide (trailing b w ≤ mvWords w ∧ t.touches.length = (mvWords w - trailing b w) * 8)))

/-- A mover instruction's own bits (R257). -/
def moverBitsOk (own : Nat) (slice_ : Bool) (b : Bytes) (w : Nat) : Bool :=
  decide (wPsel w = 0) && !wPneg w &&
    match wClass w with
    | 0 => decide (wf w 127 65 = 0)
    | 1 => mxferOk slice_ b w
    | 5 => syncOk own w
    | 7 => decide (wf w 127 49 = 0)
    | _ => false

/-- The instruction ends by slot 4087 where it is timed (R255): a transfer with a BULK end by its elapsed time. -/
def State.moverFits (s : State) (f : Frame0) (m : Nat) (b : Bytes) (w : Nat) : Bool :=
  if wAfter w then true
  else
    let t := wSlot w * f.cps + wCyc w
    match wClass w with
    | 0 => f.fitsEpoch w (nopCount w)
    | 1 => decide (s.mxferEnd f.cps m b w t ≤ 4088 * f.cps)
    | 5 => decide (tsMode w ≤ 1) || f.fitsEpoch w 1
    | _ => f.fitsEpoch w 1

/-- The section's body with its descriptors placed (R195): `o` where the table stands, `n` of them. -/
def placeAll (f p o n : Nat) (b : Bytes) : Bytes :=
  if n = 0 then b
  else b.take o ++ ((List.range n).flatMap fun i => placeDesc f p (slice b (o + 64 * i) 64)) ++ b.drop (o + 64 * n)

/-- A mover section; `m`: the mover. -/
def State.moverOk (s : State) (f : Frame0) (low p own m : Nat) (b : Bytes) : Bool :=
  let n := msInstrs b
  let l := (List.range n).map (moverInstr b)
  decide (64 ≤ b.length) && decide (1 ≤ n ∧ n ≤ 4096 ∧ msDescs b ≤ 1024) && zeros b 0x0C 52 &&
    tableIn b 64 (fieldAt b 0x04 4) n 16 && tableIn b 64 (fieldAt b 0x08 4) (msDescs b) 64 &&
    s.descsOk low p true ((List.range (msDescs b)).map (moverDesc b)) &&
    (l.all fun w => moverBitsOk own (decide (80 ≤ m)) b w && f.commonOk w) && rising (f.stamps l) && endsOnce l &&
    let b1 := placeAll low p (fieldAt b 0x08 4) (msDescs b) b
    l.all fun w => s.moverFits f m b1 w

/-! ### Schedule programs (R233 to R238) -/

/-- A connection that an entry sets: router output and input, from its stamp, for RUN scheduled cycles. -/
structure Link where
  ep : Nat
  idx : Nat
  run : Nat
  out : Nat
  inp : Nat
  deriving DecidableEq, Repr

/-- The connections of an entry; an input of 0x3F sets none. -/
def linksOf (cps w : Nat) : List Link :=
  (List.range 5).filterMap fun i =>
    let c := w / 2 ^ (64 + 12 * i) % 2 ^ 12
    if c / 64 = 0x3F then none
    else some { ep := stampEpoch w, idx := schedIdx cps (stampSlot w * cps + stampCyc w), run := w / 2 ^ 40 % 2 ^ 16, out := c % 64, inp := c / 64 }

/-- Output `o` of router `r` leads to a link that partition `p` may drive (R233). -/
def State.mayDrive (s : State) (p r o : Nat) : Bool :=
  if r < 80 then true
  else if 32 ≤ o ∧ o < 42 then (feeder r o).any fun e => decide (s.partOfRiser (e.1 - 80) = p)
  else if 43 ≤ o ∧ o ≤ 45 then decide (s.rnOwner (3 * (r - 80) + (o - 43)) = some p)
  else if o = 46 then decide (s.cxOwner (if r = 80 then 0 else 1) = some p)
  else true

/-- Two connections of a program drive one output in one cycle. -/
def Link.clash (a b : Link) : Bool :=
  decide (a.out = b.out ∧ a.ep = b.ep ∧ a.idx < b.idx + b.run ∧ b.idx < a.idx + a.run)

/-- No two of a list clash. -/
def noClash : List Link → Bool
  | [] => true
  | a :: l => (l.all fun b => !a.clash b) && noClash l

/-- A schedule program of router `r` (R234, R238). -/
def State.schedOk (s : State) (f : Frame0) (p r : Nat) (b : Bytes) : Bool :=
  let n := fieldAt b 0x00 4
  let l := (List.range n).map fun i => fieldAt b (fieldAt b 0x04 4 + 16 * i) 16
  let c := l.flatMap (linksOf f.cps)
  decide (64 ≤ b.length) && decide (1 ≤ n ∧ n ≤ 65536) && zeros b 0x08 56 && tableIn b 64 (fieldAt b 0x04 4) n 16 &&
    (l.all fun w => f.stampOk (stampEpoch w) (stampSlot w) (stampCyc w) &&
      decide (w / 2 ^ 40 % 2 ^ 16 ≠ 0 ∧ w / 2 ^ 56 % 2 ^ 8 = 0 ∧ w / 2 ^ 124 % 2 ^ 4 = 0)) &&
    rising (l.map fun w => f.at_ (stampEpoch w) (stampSlot w) (stampCyc w)) && noClash c &&
    c.all fun k => portOk r k.out && portOk r k.inp && decide (k.idx + k.run ≤ 3577 * f.cps) &&
      !(decide (80 ≤ r ∧ k.out = 41) && (List.range k.run).any fun i => decide (cycOf f.cps (schedCycle f.cps 0 (k.idx + i)) % 2 = 1)) &&
      s.mayDrive p r k.out

/-! ### Memory command programs (R289 to R293) -/

/-- What the loader knows of a bank in the epoch it walks: the row open (plus one), the cycles of its last activation
and of its last CLOSE precharge (plus one), and the end of its last write sector. -/
structure Bank where
  row : Nat := 0
  act : Nat := 0
  pre : Nat := 0
  wrote : Nat := 0
  deriving DecidableEq, Repr

/-- The walk of a program through one epoch: position and direction of the bus, banks, activation cycles newest
first, and whether all is well so far. -/
structure Walk where
  ep : Nat := 0
  busEnd : Nat := 0
  dir : Nat := 0
  banks : List (Nat × Bank) := []
  acts : List Nat := []
  ok : Bool := true
  deriving DecidableEq, Repr

/-- A memory-maintenance slot of channel `c` begins after cycle `a` and by cycle `b` (of an epoch). -/
def maintBetween (cps c a b : Nat) : Bool :=
  (List.range (b / cps + 1)).any fun n => maintSlot c n && decide (a < n * cps ∧ n * cps ≤ b)

/-- A row's sectors on the bus: bank, row, cycle of the first sector, eighths at which the last ends. -/
structure RowUse where
  bank : Nat
  row : Nat
  first : Nat
  fin : Nat
  deriving DecidableEq, Repr

/-- The rows of a run in order: a row goes on while bank and row stay and no maintenance slot lies between. -/
def rowUses (cps c : Nat) : List (Nat × Nat) → List RowUse
  | [] => []
  | (a, st) :: l =>
    match rowUses cps c l with
    | u :: us =>
      if u.bank = bankOf a ∧ u.row = rowOf a ∧ maintBetween cps c (st / 8) u.first = false then
        { u with first := st / 8 } :: us
      else { bank := bankOf a, row := rowOf a, first := st / 8, fin := st + 5 } :: u :: us
    | [] => [{ bank := bankOf a, row := rowOf a, first := st / 8, fin := st + 5 }]

/-- The first cycle after cycle `a` of the epoch at which every bank is closed: a maintenance slot's first, or slot 4088's (R292). -/
def closing (cps c a : Nat) : Nat :=
  (((List.range 17).map (· + a / cps + 1)).find? fun n => maintSlot c n || decide (4088 ≤ n)).getD 4088 * cps

/-- The commands of one row's use (R292) against Table 8-1: none where its bank holds the row; else an activation
tRCD before the column command, with a precharge tRP before it where another row is open. Cycles here are counted
with 64 added, so that one before the epoch's start shows as below 64. The bank's next closing keeps tRAS and tWR too. -/
def Walk.useRow (k : Walk) (cps c op : Nat) (u : RowUse) : Walk :=
  let b := aget {} k.banks u.bank
  let col := u.first + 64 - (if op = 1 then 14 else 8)
  let open_ := decide (b.row ≠ 0) && !maintBetween cps c (b.act - 64) (u.first)
  let wrote := if op = 2 then (u.fin + 7) / 8 + 64 else b.wrote
  let shut := closing cps c u.first + 64
  let torn (act : Nat) : Bool := decide (shut < act + 20) || (decide (op = 2) && decide (shut < (u.fin + 7) / 8 + 64 + 10))
  if open_ && decide (b.row = u.row + 1) then { k with banks := ains u.bank { b with wrote := wrote } k.banks, ok := k.ok && !torn b.act }
  else
    let act := col - 12
    let pre := act - 12
    let early := decide ((if open_ then pre else act) < 64)
    let bad := (open_ && (decide (pre < b.act + 20) || decide (b.wrote ≠ 0 ∧ pre < b.wrote + 10))) ||
      (decide (b.act ≠ 0 ∧ act < b.act + 32)) || (decide (b.pre ≠ 0 ∧ act < b.pre + 12))
    { k with
      banks := ains u.bank { row := u.row + 1, act := act, pre := 0, wrote := if op = 2 then wrote else 0 } k.banks
      acts := act :: k.acts
      ok := k.ok && !early && !bad && !torn act && !crowded act k.acts }

/-- CLOSE: the run's last row is precharged as soon as the run has ended and Table 8-1 allows (R292). -/
def Walk.close (k : Walk) (op bank fin : Nat) : Walk :=
  let b := aget {} k.banks bank
  let e := (fin + 7) / 8 + 64
  { k with banks := ains bank { b with row := 0, pre := max (b.act + 20) (if op = 2 then e + 10 else e) } k.banks }

/-- One entry of the program at full width. -/
def Walk.entry (k0 : Walk) (cps c w : Nat) : Walk :=
  let k := if !meAfter w && decide (stampEpoch w ≠ k0.ep) then { ep := stampEpoch w, ok := k0.ok } else k0
  let f := dataCycle cps c 0
  let stamp := stampSlot w * cps + stampCyc w
  let turn := if k.dir ≠ 0 ∧ k.dir ≠ meOp w then 32 else 0
  let st := runStarts f 1 (24 * cps) (meCount w) (runBegin f (meAfter w) (meOp w) stamp k.busEnd k.dir)
  let l := st.1.zipIdx.map fun e => (meSaddr w + e.2, e.1)
  let k1 := (rowUses cps c l).foldl (fun k u => k.useRow cps c (meOp w) u) k
  let k2 := if meClose w then k1.close (meOp w) (bankOf (meSaddr w + meCount w - 1)) st.2 else k1
  { k2 with
    busEnd := st.2, dir := meOp w
    ok := k2.ok && (meAfter w || decide (k.dir = 0 ∨ k.busEnd + turn ≤ 8 * stamp)) && decide (st.2 ≤ 8 * 4088 * cps) }

/-- A memory command program of channel `c` (R289, R293). -/
def memoryOk (f : Frame0) (c : Nat) (b : Bytes) : Bool :=
  let n := fieldAt b 0x00 4
  let l := (List.range n).map fun i => fieldAt b (fieldAt b 0x04 4 + 16 * i) 16
  decide (64 ≤ b.length) && decide (1 ≤ n ∧ n ≤ 16384) && zeros b 0x08 56 && tableIn b 64 (fieldAt b 0x04 4) n 16 &&
    (l.all fun w =>
      (if meAfter w then decide (w % 2 ^ 40 = 0) else f.stampOk (stampEpoch w) (stampSlot w) (stampCyc w)) &&
        decide ((meOp w = 1 ∨ meOp w = 2) ∧ w / 2 ^ 45 % 8 = 0 ∧ w / 2 ^ 98 = 0 ∧ meSaddr w + meCount w ≤ 41943040)) &&
    rising ((l.filter fun w => !meAfter w).map fun w => f.at_ (stampEpoch w) (stampSlot w) (stampCyc w)) &&
    (l.foldl (fun k w => k.entry f.cps c w) ({} : Walk)).ok

/-! ### General-core programs (R218, R219) -/

/-- A window entry is in range. -/
def Frame0.windowOk (f : Frame0) (text w : Nat) : Bool :=
  f.stampOk (gwRepoch w) (gwSlot w) (gwCyc w) && decide (gwEndSlot w ≤ 4087 ∧ gwEndCyc w < f.cps) && !bit w 63 && decide (w / 2 ^ 78 = 0) &&
    decide (gwSlot w * f.cps + gwCyc w ≤ gwEndSlot w * f.cps + gwEndCyc w) &&
    (!gwRestart w || gwPatrol w || decide (4 * gwEntry w < text))

/-- Windows in ascending order, none overlapping the next. -/
def Frame0.windowsApart (f : Frame0) : List Nat → Bool
  | a :: b :: l =>
    decide (f.at_ (gwRepoch a) (gwEndSlot a) (gwEndCyc a) < f.at_ (gwRepoch b) (gwSlot b) (gwCyc b)) && f.windowsApart (b :: l)
  | _ => true

/-- A general-core section. -/
def gcoreOk (f : Frame0) (b : Bytes) : Bool :=
  let n := fieldAt b 0x00 2
  let text := fieldAt b 0x0C 4
  let l := (List.range n).map (gsWindow b)
  decide (64 ≤ b.length) && decide (1 ≤ n ∧ n ≤ 4096) && zeros b 0x02 2 && zeros b 0x14 44 && tableIn b 64 (fieldAt b 0x04 4) n 16 &&
    decide (text % 4 = 0 ∧ text ≤ 65536) && tableIn b 64 (fieldAt b 0x08 4) text 1 && decide (fieldAt b 0x10 4 < text) &&
    (l.all (f.windowOk text)) && f.windowsApart l

/-! ### The whole image -/

/-- One section of partition `p`, whose lowest Riser is `low`, passes its checks. -/
def State.sectionOk (s : State) (f : Frame0) (low p : Nat) (x : Section) : Bool :=
  let own (k : Nat) := 10 * x.riser + k + 1
  match x.ty with
  | 1 => s.tileOk f low p (own (x.unit / 4)) x.body
  | 2 =>
    if x.unit < 10 then s.moverOk f low p (own x.unit) (10 * (low + x.riser) + x.unit) x.body
    else s.moverOk f low p (0x80 + x.riser) (80 + 4 * (low + x.riser) + (x.unit - 16)) x.body
  | 3 => s.schedOk f p (if x.unit < 10 then 10 * (low + x.riser) + x.unit else 80 + low + x.riser) x.body
  | 4 => memoryOk f x.unit x.body
  | _ => gcoreOk f x.body

/-- A section as the stores hold it: descriptors placed (R195). -/
def Section.placed (low p : Nat) (x : Section) : Section :=
  match x.ty with
  | 1 => { x with body := placeAll low p (fieldAt x.body 0x10 4) (tsDescs x.body) x.body }
  | 2 => { x with body := placeAll low p (fieldAt x.body 0x08 4) (msDescs x.body) x.body }
  | _ => x

/-- The plain form of a wrapped image under K_WRAP, where its tag is good (R510). -/
def unwrap (key b : Bytes) : Option Bytes :=
  let n := b.length - 64
  let ct := slice b 0x120 (n - 0x120)
  let nonce := beNat (slice b 0x100 12)
  if 0x120 ≤ n ∧ zeros b 0x10C 4 ∧ gcmTag key nonce (slice b 0 256) ct = slice b 0x110 16 then
    some (slice b 0 0x120 ++ gcmText key nonce ct ++ slice b n 64)
  else none

/-- The signature of an image verifies against the partition's Pattern key (R67, R509). -/
def State.signedOk (s : State) (p : Nat) (b : Bytes) : Bool :=
  match (s.trusted p).patKey with
  | some k => verify k (sha256 (signedPart b)) (slice b (b.length - 64) 64)
  | none => false

/-- Core cycles per slot of the variant that the header names (R4): stamps are judged by them, so that an image of
another variant meets its own status and not BAD-FORMAT. -/
def State.imageCps (s : State) (b : Bytes) : Nat :=
  match hdVariant b with
  | 0 => 256 | 1 => 224 | 2 => 192 | _ => s.cps

/-- The checks of the plain image that give BAD-FORMAT, past those of `headOk`. -/
def State.bodyOk (s : State) (p lo : Nat) (b : Bytes) : Bool :=
  let f : Frame0 := ⟨hdPeriod b, s.imageCps b⟩
  let es := (List.range (hdCount b)).map (entryAt b)
  fieldsOk b lo && es.all (entryOk b lo) && distinctUnits (sectionsOf b) &&
    (sectionsOf b).all (s.sectionOk f (p * s.partSize) p)

/-- The checks after format and signature, in the order of Table 2-8 (R4, R75). -/
def State.fitsDevice (s : State) (p : Nat) (b : Bytes) : Nat :=
  firstStatus [
    (decide (hdVariant b ≠ s.fuse.variant), 0x03),
    (decide (s.rd pgBu BU_LEVEL_LEVEL < hdLevel b), 0x04),
    (decide (hdRisers b ≠ s.partSize), 0x05),
    (decide (slice b 0x20 32 ≠ sha256 (s.descOf p)), stDESCMISMATCH)]

/-- The status of image `b` for partition `p`, and its plain form (R70, R75, R511). -/
def State.judgeImage (s : State) (p : Nat) (b : Bytes) : Nat × Bytes :=
  if !headOk b (s.sealed p) then (stBADFORMAT, b)
  else if hdWrapped b then
    if !s.signedOk p b then (0x02, b)
    else match ((s.trusted p).session.map Session.kWrap).bind fun k => unwrap k b with
      | none => (0x02, b)
      | some d => if !s.bodyOk p 0x120 d then (stBADFORMAT, b) else (s.fitsDevice p d, d)
  else if !s.bodyOk p 0x100 b then (stBADFORMAT, b)
  else if !s.signedOk p b then (0x02, b)
  else (s.fitsDevice p b, b)

/-- The image that slot `k` of partition `p` waits for, once it is whole: a BULK stream past its last frame; or the bytes at
the scratch address, where they lie in scratch of the partition, not poisoned (empty otherwise: BAD-FORMAT). -/
def State.imageFor (s : State) (p k : Nat) : Option Bytes :=
  let q := s.loadOf p k
  if q.fromScratch then
    let o := localOf q.addr
    let inScratch (a : Nat) : Bool := match homeOf a with
      | .slice n x => decide (s.partOfRiser n = p) && decide (x < s.scratchMb n * mib)
      | _ => false
    if s.ownPkg q.addr && decide (q.length ≤ 96 * mib) && decide (0 < q.length) && inScratch o && inScratch (o + q.length - 1) &&
        decide (o / 0x08000000 = (o + q.length - 1) / 0x08000000) && !s.poisonIn o q.length then
      some (s.getBs o q.length)
    else some []
  else
    (s.sprue.streams.find? fun t => decide (t.binder = 0 ∧ t.part = p ∧ t.slot = k) && t.last).map fun t =>
      if t.data.length = q.length then t.data else []

/-- The Pattern is in the slot: LOADED, measured, the LOAD_PATTERN answered OK (R70, R498). -/
def State.finishLoad (s : State) (p k : Nat) (b d : Bytes) : State :=
  let q := s.loadOf p k
  let low := p * s.partSize
  let s1 := (s.endLoad p k (some
    { st := .loaded, period := hdPeriod d, repeats := hdRepeat d, sections := (sectionsOf d).map (Section.placed low p) })).modPart
      p fun r => if (s.part p).over k = none then r else r.forget k
  (s1.extend p 3 (sha256 (signedPart b))).completeLate 0x0001 { id := q.loadId, part := p, start := q.loadStart, args := [] }

/-- PATTERN_LOAD_DONE (R70): the image has arrived; it is checked, and the slot becomes LOADED or is left EMPTY; a slot that is in
use refuses it last, with BUSY. A partition lost or in reset meanwhile refuses it. -/
def execPatternLoadDone (part : Fin 8) (slot : Fin 2) (s : State) : Host.Outcome State Fault Refusal :=
  finish answered s <|
    let p := part.val
    let k := slot.val
    if !s.loadDue p k then s
    else if s.partShut p then s.failLoad p k stWRONGSTATE
    else match s.imageFor p k with
      | none => s
      | some b =>
        let j := s.judgeImage p b
        if j.1 ≠ 0 then s.failLoad p k j.1
        else if (s.part p).inUse k then s.failLoad p k stBUSY
        else s.finishLoad p k b j.2

end Sys2Proof.Machine
end

