-- ==== Sys2Proof/Machine/Sessions.lean ====
section
/-!
DEFINITION. Machine/Sessions.lean: SESSION_WRITE and SESSION_READ (R507, R508) and GET_DESCRIPTION (R556).
-/

namespace Sys2Proof.Machine

open Sys2Proof

/-- AES-GCM under K_SESS: enciphers and deciphers alike. -/
def sessText (t : Session) (dir : Nat) (c : Cmd) (b : Bytes) : Bytes :=
  gcmText t.kSess (sctrNonce dir (fieldAt c.args 0x1B8 8)) b

/-- `n` bytes from `a` cut at 4-KiB boundaries: address and length of each piece. -/
def pagePieces (a n : Nat) : List (Nat × Nat) :=
  if a / 4096 = (a + n - 1) / 4096 then [(a, n)]
  else
    let k := 4096 - a % 4096
    [(a, k), (a + k, n - k)]

/-- A session's access to memory as the request of an engine of its partition (R508). -/
def State.sessReq (s : State) (src p : Nat) (write : Bool) (e : Nat × Nat) : Req :=
  { src := src, cls := 0, op := if write then 0x02 else 0x01, addr := s.pkg * 2 ^ 48 + e.1 % 2 ^ 48, len := e.2, part := some p }

/-- The status of a session's access to one piece of memory (R406, R508): checked as that of a slice mover of the
partition; a far-tier access needs its port up. -/
def State.sessStatus (s : State) (p : Nat) (write : Bool) (e : Nat × Nat) : Nat :=
  let st := if 2 ^ 48 ≤ e.1 then xUNMAPPED else s.localStatus (s.sessReq (pgSlMover (4 * ((s.risersOf p).head?.getD 0))) p write e)
  if st ≠ 0 then st
  else match homeOf e.1 with
    | .cxl x _ => if s.cxUp x then 0 else xCXLERROR
    | _ => 0

/-- A piece written, through the caches where its lines have one (R328): data `d`. -/
def State.sessWrite (s : State) (p : Nat) (e : Nat × Nat) (d : Bytes) : Nat × State :=
  let st := s.sessStatus p true e
  if st ≠ 0 then (st, s.countStatus (s.sessReq pgMordant p true e) st)
  else match homeOf e.1 with
    | .cxl x _ =>
      if (s.viaLocal e.1 e.2 (some p)).isSome then (0, (s.cacheIn e.1 e.2 (some p) true).poke e.1 d 0 (some p))
      else
        let c := s.stepCtrs x ((linesOf e.1 e.2).map fun l => l.1)
        if c.2 then (0, c.1.storeLocal e.1 d 0) else (xCXLERROR, c.1)
    | .dram _ => (0, (s.cacheIn e.1 e.2 (some p) true).poke e.1 d 0 (some p))
    | _ => (0, s.storeLocal e.1 d 0)

/-- A piece read: status, bytes (zero where it failed), state. -/
def State.sessRead (s : State) (p : Nat) (e : Nat × Nat) : Nat × Bytes × State :=
  let st := s.sessStatus p false e
  if st ≠ 0 then (st, List.replicate e.2 0, s.countStatus (s.sessReq pgMordant p false e) st)
  else
    let s1 := s.cacheIn e.1 e.2 (some p) false
    let d := s1.peek e.1 e.2 (some p)
    (poisonStatus d.2, d.1, { s1 with free := s1.free + 1 })

/-- The status that keeps a session of partition `p` from a control-space word: the pages of the partition are those
of R515. -/
def State.sessPage (s : State) (p x : Nat) : Nat :=
  match placeOf x with
  | .unmapped => xUNMAPPED
  | .page pg _ => match riserOf pg with
    | some r => if s.partOfRiser r = p then 0 else xPARTDENIED
    | none => xREGIONDENIED
  | _ => xREGIONDENIED

/-- A session writes one word. -/
def State.sessPut (s : State) (p x w : Nat) : Nat × State :=
  let st := s.sessPage p x
  if st ≠ 0 then (st, s.countStatus (regReq pgMordant true x) st) else s.writeWord pgMordant (some p) x w

/-- A session reads one word. -/
def State.sessGet (s : State) (p x : Nat) : Nat × Bytes × State :=
  let st := s.sessPage p x
  if st ≠ 0 then (st, le 4 0, s.countStatus (regReq pgMordant false x) st)
  else
    let r := s.readWord pgMordant x
    (r.1, le 4 r.2.1, r.2.2)

/-- The first status that is not OK. -/
def worse (a b : Nat) : Nat := if a = 0 then b else a

/-- All of a SESSION_WRITE's data: the status of the first word that failed, and the state. -/
def State.sessWriteAll (s : State) (c : Cmd) (d : Bytes) : Nat × State :=
  let a := fieldAt c.args 0x00 8
  if fieldAt c.args 0x0A 1 = 0 then
    (pagePieces a d.length).foldl (fun t e =>
      let r := t.2.sessWrite c.part e (slice d (e.1 - a) e.2)
      (worse t.1 r.1, r.2)) (0, s)
  else
    (List.range (d.length / 4)).foldl (fun t i =>
      let r := t.2.sessPut c.part (a + 4 * i) (fieldAt d (4 * i) 4)
      (worse t.1 r.1, r.2)) (0, s)

/-- All of a SESSION_READ's data. -/
def State.sessReadAll (s : State) (c : Cmd) (n : Nat) : Nat × Bytes × State :=
  let a := fieldAt c.args 0x00 8
  if fieldAt c.args 0x0A 1 = 0 then
    (pagePieces a n).foldl (fun t e =>
      let r := t.2.2.sessRead c.part e
      (worse t.1 r.1, t.2.1 ++ r.2.1, r.2.2)) (0, [], s)
  else
    (List.range (n / 4)).foldl (fun t i =>
      let r := t.2.2.sessGet c.part (a + 4 * i)
      (worse t.1 r.1, t.2.1 ++ r.2.1, r.2.2)) (0, [], s)

/-- A session access completes: the RSP carries the status of the first word that failed (Table 11-2). -/
def State.sessDone (s : State) (op : Nat) (c : Cmd) (st : Nat) (data : Bytes) : State :=
  let r := TxFrame.rsp c.id op st s.time.ticks c.part data
  ((s.closeCmd c.id (some r)).sendTx r).relayAnswer c.id st

/-- SESSION_WRITE (R508): the data, deciphered, are written to the partition's memory or pages. -/
def execSessionWrite (c : Cmd) (s : State) : Host.Outcome State Fault Refusal :=
  let ct := slice c.args 0x10 (fieldAt c.args 0x08 2)
  finishD (accessed ++ [.sprue, .descs]) s <|
    if !s.turn c then s
    else if !s.partOk 0x0123 c || !sessionArgsOk c then s.complete 0x0123 c stBADFORMAT
    else match (s.trusted c.part).session with
      | none => s.complete 0x0123 c stNOSESSION
      | some t =>
        let st := s.sessionCheck 0x0123 c ct
        if st ≠ 0 then s.refuseSession 0x0123 c st
        else
          let r := (s.acceptSctr c).sessWriteAll c (sessText t 0 c ct)
          r.2.sessDone 0x0123 c r.1 (sessionData t 0x0123 c [] [])

/-- SESSION_READ (R508): LEN bytes of the partition's memory or pages return enciphered at DATA 0x10. -/
def execSessionRead (c : Cmd) (s : State) : Host.Outcome State Fault Refusal :=
  finishD (answered ++ [.latches, .mem, .poison, .ctrs, .slices, .descs, .wires]) s <|
    if !s.turn c then s
    else if !s.partOk 0x0124 c || !sessionArgsOk c then s.complete 0x0124 c stBADFORMAT
    else match (s.trusted c.part).session with
      | none => s.complete 0x0124 c stNOSESSION
      | some t =>
        let st := s.sessionCheck 0x0124 c []
        if st ≠ 0 then s.refuseSession 0x0124 c st
        else
          let r := (s.acceptSctr c).sessReadAll c (fieldAt c.args 0x08 2)
          r.2.2.sessDone 0x0124 c r.1 (sessionData t 0x0124 c (List.replicate 16 0) (sessText t 1 c r.2.1))

/-- The status that refuses a GET_DESCRIPTION: before stage 11 has ended, in Decommissioned, or an OFFSET past the
description. -/
def State.describeCheck (s : State) (c : Cmd) (d : Desc) : Nat :=
  firstStatus [
    (!s.started || decide (s.fuse.life = .decommissioned), stWRONGSTATE),
    (decide (d.bytes.length ≤ fieldAt c.args 0x00 4), stBADFORMAT)]

/-- GET_DESCRIPTION (R556): length, generation and hash of the description, and up to 416 bytes from OFFSET. -/
def execGetDescription (c : Cmd) (s : State) : Host.Outcome State Fault Refusal :=
  let d := aget {} s.descs (if c.part = 0xFF then 8 else c.part)
  finish answered s <| s.act1 0x0310 c (s.describeCheck c d) id
    (le 4 d.bytes.length ++ le 4 d.gen ++ le 8 0 ++ sha256 d.bytes ++ (d.bytes.drop (fieldAt c.args 0x00 4)).take 416)

end Sys2Proof.Machine
end

