-- ==== Sys2Proof/Machine/SpruePort.lean ====
section
/-!
DEFINITION. Machine/SpruePort.lean: DMA (R458 to R461), event frames and rings (R464 to R468, R518), the frames that
leave (R440, R443 to R445, R449) and the Sprue link (R448).
-/

namespace Sys2Proof.Machine

open Sys2Proof

/-! ### DMA (R458 to R461) -/

/-- DMA frames wait in order. -/
def State.sendDma (s : State) (f : TxFrame) : State := s.modSprue fun u => { u with dmaOut := u.dmaOut ++ [f] }

/-- `n` bytes from `a`, cut at 4-KiB boundaries, which no request crosses. -/
def pieces : Nat → Nat → Nat → List (Nat × Nat)
  | 0, _, _ => []
  | k + 1, a, n =>
    if n = 0 then []
    else
      let m := min n (4096 - a % 4096)
      (a, m) :: pieces k (a + m) (n - m)

/-- A request of the Sprue port. -/
def sprueReq (op a n : Nat) (d : Bytes) (poison : Bool) : Req :=
  { src := pgSprue, cls := classOf pgSprue, op := op, addr := a, len := n, data := d
    poison := if poison then 2 ^ ((n + 63) / 64) - 1 else 0 }

/-- The completion of request `id`, taken. -/
def State.takeDone (s : State) (id : Nat) : Option Ans := (s.hall.done.find? fun e => decide (e.1 = id)).map fun e => e.2
def State.dropDone (s : State) (id : Nat) : State := s.modHall fun h => { h with done := adel id h.done }

/-- The transfer of an XID. -/
def State.xferOf (s : State) (xid : Nat) : DmaXfer := (s.sprue.writes.find? fun x => decide (x.xid = xid)).getD { xid := xid }
def State.setXfer (s : State) (x : DmaXfer) : State :=
  s.modSprue fun u => { u with writes := u.writes.filter (fun y => decide (y.xid ≠ x.xid)) ++ [x] }

/-- The first failure in arrival order, at the lowest address of its frame: 0 and 0 where none is (R460). -/
def DmaXfer.outcome (x : DmaXfer) : Nat × Nat :=
  match x.fails.foldl (fun b e => match b with
      | none => some e
      | some y => if e.1 < y.1 ∨ (e.1 = y.1 ∧ e.2.1 < y.2.1) then some e else b) none with
  | some e => (e.2.2, e.2.1)
  | none => (0, 0)

/-- What has been answered of a WRITE transfer is noted; its DONE follows once LAST came and all is answered. -/
def State.pumpWrite (s : State) (x : DmaXfer) : State :=
  let got := x.waits.filterMap fun w => (s.takeDone w.1).map fun a => (w, a)
  let s1 := got.foldl (fun s e => s.dropDone e.1.1) s
  let y : DmaXfer :=
    { x with
      waits := x.waits.filter fun w => (s.takeDone w.1).isNone
      fails := x.fails ++ (got.filter fun e => decide (e.2.status ≠ 0)).map fun e => (e.1.2.1, e.1.2.2.1, e.2.status) }
  if y.last && y.waits.isEmpty then
    (s1.modSprue fun u => { u with writes := u.writes.filter fun z => decide (z.xid ≠ x.xid) }).sendDma
      (.dmaDone x.xid y.outcome.1 y.outcome.2)
  else s1.setXfer y

/-- The next bytes of a READ are asked for. -/
def State.askRead (s : State) (xid a stop : Nat) : State :=
  let n := min (min 464 (stop - a)) (4096 - a % 4096)
  let r := s.issueReq (sprueReq 0x01 a n [] false)
  r.2.modSprue fun u => { u with reads := u.reads ++ [{ xid := xid, at_ := a, len := n, id := r.1, stop := stop }] }

/-- An answered request of a READ: a DATA frame and the next request, or its DONE (R461). -/
def State.pumpRead (s : State) (d : DmaRead) : State :=
  match s.takeDone d.id with
  | none => s
  | some a =>
    let s1 := (s.dropDone d.id).modSprue fun u => { u with reads := u.reads.filter fun x => decide (x.id ≠ d.id) }
    if 1 < a.status then s1.sendDma (.dmaDone d.xid a.status d.at_)
    else
      let s2 := s1.sendDma (.dmaData d.xid d.at_ (slice a.data 0 d.len) (decide (a.poison ≠ 0)))
      if d.at_ + d.len < d.stop then s2.askRead d.xid (d.at_ + d.len) d.stop else s2.sendDma (.dmaDone d.xid 0 0)

/-- Answers that came in are taken by the transfers they belong to. -/
def State.pumpDma (s : State) : State :=
  let s1 := s.sprue.writes.foldl State.pumpWrite s
  s1.sprue.reads.foldl State.pumpRead s1

/-- Bytes of WRITE data not yet performed. -/
def State.dmaHeld (s : State) : Nat := ((s.sprue.writes.map fun x => (x.waits.map fun w => w.2.2.2).sum)).sum

/-- A frame of a WRITE: refused whole, discarded where the buffer has no room, or performed by requests. -/
def State.dmaFrame (s : State) (x : DmaXfer) (openAt : Bool) (a : Nat) (d : Bytes) (poison : Bool) : State × DmaXfer :=
  let k := x.frames
  let fail (st : Nat) := { x with fails := x.fails ++ [(k, a, st)] }
  if !openAt then (s, fail xREGIONDENIED)
  else if d.isEmpty then (s, x)
  else if !s.ownPkg a then (s, fail xUNMAPPED)
  else if 0x100000 < s.dmaHeld + d.length then (s.bump pgSprue SP_DMA_DISCARDED, fail xTIMEOUT)
  else
    (pieces 2 a d.length).foldl (fun b p =>
      let r := b.1.issueReq (sprueReq 0x02 p.1 p.2 (slice d (p.1 - a) p.2) poison)
      (r.2, { b.2 with waits := b.2.waits ++ [(r.1, k, p.1, p.2)] })) (s, x)

/-- DMA_WRITE (R460): a WRITE frame of its XID; the DONE follows the frame with LAST. -/
def execDmaWrite (f : Frame) (s : State) : Host.Outcome State Fault Refusal :=
  finish (asked ++ [.sprue]) s <|
    if fieldAt (bodyOf f) 0 1 ≠ 0 then s
    else s.onFrame 0x07 f fun keyed s =>
      let b := bodyOf f
      let x := s.xferOf (fieldAt b 0x04 4)
      let r := s.dmaFrame x (keyed && s.started) (fieldAt b 0x08 8) (b.drop 0x10) (poisonFlag f)
      (r.1.setXfer { r.2 with frames := r.2.frames + 1, last := lastFlag f }).pumpDma

/-- DMA_READ (R461). -/
def execDmaRead (f : Frame) (s : State) : Host.Outcome State Fault Refusal :=
  finish (asked ++ [.sprue]) s <|
    if fieldAt (bodyOf f) 0 1 ≠ 1 then s
    else s.onFrame 0x07 f fun keyed s =>
      let b := bodyOf f
      let xid := fieldAt b 0x04 4
      let a := fieldAt b 0x08 8
      let n := fieldAt b 0x10 4
      if !(keyed && s.started) then s.sendDma (.dmaDone xid xREGIONDENIED a)
      else if n = 0 ∨ 1048576 < n then s.sendDma (.dmaDone xid xMISALIGNED a)
      else if 16 ≤ s.sprue.reads.length then s.sendDma (.dmaDone xid xBADOP a)
      else if !s.ownPkg a then s.sendDma (.dmaDone xid xUNMAPPED a)
      else (s.askRead xid a (a + n)).pumpDma

/-! ### Event records (R464 to R468, R518) -/

/-- An event record as its 32 bytes (Table 12-9). -/
def EvRec.bytes (r : EvRec) : Bytes :=
  le 8 r.stamp ++ le 4 r.source ++ le 2 r.code ++ le 1 (r.sev + 4 * r.esc.toNat + 8 * r.lostBefore.toNat) ++ le 1 r.count ++
    slice r.info 0 16

/-- The request that writes a record of a ring at `base` of `n` records (R465): `part` the partition whose ring it is. -/
def ringReq (src a : Nat) (part : Option Nat) (d : Bytes) : Req :=
  { src := src, cls := 5, op := 0x02, addr := a, len := 32, data := d, part := part }

/-- The status a ring write completes with (R465): MISALIGNED, UNMAPPED, REGION-DENIED, then what R406 still finds. -/
def State.ringStatus (s : State) (base n : Nat) (r : Req) : Nat :=
  let h := homeOf (localOf base)
  firstStatus [
    (decide (base % (32 * n) ≠ 0), xMISALIGNED), (!s.ownPkg base || decide (h = .none), xUNMAPPED),
    (match h with | .slice k o => decide (s.scratchMb k * mib < o + 32 * n) | _ => true, xREGIONDENIED),
    (decide (s.localStatus r ≠ 0), s.localStatus r)]

/-- EV_RING. -/
def State.ringBase (s : State) : Nat := s.rd pgEv EV_RING_HI_ADDR * 2 ^ 32 + s.rd pgEv EV_RING_LO_ADDR

/-- The ring faults: it is off until EV_RING_HI is next written, and what waits for it is delivered (R466). -/
def State.ringFault (s : State) (st : Nat) (r : EvRec) : State :=
  let s1 := ((s.wrs pgEv [(EV_STAT_RING_FAULT, 1), (EV_STAT_FAULT_STATUS, st)]).bump pgEv EV_LOST_COUNT).delivered r
  (s1.events.queues.map fun e => e.1).foldl State.deliver s1

/-- The oldest record of a page is written to the event ring, or counted lost (R465, R466). -/
def State.ringWrite (s : State) (pg : Nat) : State :=
  match s.queue pg with
  | [] => s
  | r :: rest =>
    let s1 := s.setQueue pg rest
    let n := 2 ^ s.rd pgEv EV_RING_SIZE_LOG2
    let w := s.rd pgEv EV_WR_INDEX
    if (w + 2 ^ 32 - s.rd pgEv EV_RD_INDEX) % 2 ^ 32 = n then
      ({ s1 with events := { s1.events with lostBefore := true } }.bump pgEv EV_LOST_COUNT).delivered r
    else
      let base := s.ringBase
      let d := ({ s.leaveInfo r with lostBefore := s.events.lostBefore } : EvRec).bytes
      let q := ringReq pgEv (base + 32 * (w % n)) none d
      let st := s.ringStatus base n q
      if st ≠ 0 then (s1.countStatus q st).ringFault st r
      else
        let s2 := (s1.storeLocal (localOf q.addr) d 0).wr pgEv EV_WR_INDEX (w + 1)
        { s2 with events := { s2.events with lostBefore := false } }.delivered r

/-- The oldest record for a partition's own ring is written there, until that ring faults (R518). -/
def State.pevWrite (s : State) (p : Nat) : State :=
  let t := s.trusted p
  match t.ring with
  | [] => s
  | r :: rest =>
    let s1 := s.modTrusted p fun t => { t with ring := rest }
    if t.pevFault || !s.sealed p then s1
    else
      let n := 2 ^ t.pevLog2
      let base := 0xFFFF * 2 ^ 48 + localOf t.pevAddr
      let w := s.rd pgMordant MD_PEV_WR_INDEX p
      let q := ringReq pgEv (base + 32 * (w % n)) (some p) r.bytes
      let st := if s.ownPkg t.pevAddr then s.ringStatus base n q else xUNMAPPED
      if st ≠ 0 then (s1.countStatus q st).modTrusted p fun t => { t with pevFault := true }
      else (s1.storeLocal (localOf q.addr) r.bytes 0).wr pgMordant MD_PEV_WR_INDEX (w + 1) p

/-- RING_WRITE (R465, R518): the oldest undelivered record of page `page`, and the oldest record for the ring of the
sealed partition it belongs to. -/
def execRingWrite (page : Nat) (s : State) : Host.Outcome State Fault Refusal :=
  finish (tiled ++ [.hall]) s <|
    let s1 := if s.ringOn then s.ringWrite page else s
    match (riserOf page).map s1.partOfRiser with
    | some p => s1.pevWrite p
    | none => s1

/-- EVT_FRAME_SEND (R467): up to 15 records in STAMP order leave for the queue, when 15 wait, a Madder record waits, or
4 slots have passed since the oldest. -/
def execEvtFrameSend (s : State) : Host.Outcome State Fault Refusal :=
  finish [.sprue, .events] s <|
    let l := s.events.wait
    let due := decide (15 ≤ l.length) || l.any (fun w => decide (1 ≤ w.rcd.sev) || decide (4 ≤ s.time.slots - w.at_))
    if s.rd pgSprue SP_STATUS_LINK = 2 ∧ due then
      { s with
        events := { s.events with wait := l.drop 15 }
        sprue := { s.sprue with tx := s.sprue.tx ++ [.evt ((l.take 15).map EvWait.rcd)] } }
    else s

/-! ### Frames that leave (R440, R443 to R445, R449) -/

/-- TYPE, FLAGS, PART and used body of a frame. -/
def TxFrame.fields : TxFrame → Nat × Nat × Nat × Bytes
  | .time x t2 t3 st => (0x01, 1, 0xFF, le 10 t2 ++ le 10 t3 ++ le 4 x ++ le 1 st)
  | .rsp id op st acted p d =>
    (0x03, 0, p, le 4 id ++ le 2 op ++ le 1 st ++ le 1 0 ++ le 8 acted ++ d.take 464)
  | .reg w p es => (if w then 0x06 else 0x05, 1, p, (es.map fun e => le 4 e.1 ++ le 1 e.2 ++ le 3 0).flatten)
  | .dmaData x a d pz => (0x07, if pz then 4 else 0, 0xFF, le 1 2 ++ le 3 0 ++ le 4 x ++ le 8 a ++ d)
  | .dmaDone x st a => (0x07, 0, 0xFF, le 1 3 ++ le 1 st ++ le 2 0 ++ le 4 x ++ le 8 a)
  | .evt rs => (0x04, 0, 0xFF, (rs.map EvRec.bytes).flatten)

/-- The place of a frame in the order of R449. -/
def TxFrame.rank : TxFrame → Nat
  | .time .. => 1
  | .rsp .. => 2
  | .evt rs => if rs.any fun r => decide (1 ≤ r.sev) then 3 else 6
  | .reg .. => 4
  | _ => 5

/-- The frame that goes next. -/
def State.nextFrame (s : State) : Option TxFrame :=
  let l := s.sprue.tx ++ s.sprue.dmaOut.take 1
  ((List.range 7).filterMap fun k => l.find? fun f => decide (f.rank = k)).head?

/-- The frame leaves its queue. -/
def State.unqueue (s : State) (f : TxFrame) : State :=
  s.modSprue fun u => if f.rank = 5 then { u with dmaOut := u.dmaOut.drop 1 } else { u with tx := u.tx.erase f }

/-- The bytes of a frame before its TAG, numbered `n`. -/
def State.txText (s : State) (f : TxFrame) (n : Nat) : Bytes :=
  let e := f.fields
  frameText e.1 e.2.1 e.2.2.2.length n s.pkg e.2.2.1 e.2.2.2

/-- A frame leaves with its tag under a key, or untagged. -/
def State.emitUnder (s : State) (f : TxFrame) (key : Option Bytes) (salt n : Nat) : State :=
  match key with
  | some k =>
    let b := s.txText f n
    s.modSprue fun u => { u with out := b ++ frameTag k salt 1 n b, sentSeq := n }
  | none => s.modSprue fun u => { u with out := s.txText f 0 ++ List.replicate 16 0 }

/-- The RSP of a SPRUE_KEYX that installed a key. -/
def TxFrame.isKeyx : TxFrame → Bool
  | .rsp _ 0x0100 0 _ _ _ => true
  | _ => false

/-- A frame leaves: the RSP of a SPRUE_KEYX under the former key, every other under the key in force (R444). -/
def State.emit (s : State) (f : TxFrame) : State :=
  match f.isKeyx, s.sprue.former with
  | true, some (k, salt, n) => (s.emitUnder f k salt n).modSprue fun u => { u with former := none }
  | _, _ =>
    match s.sprue.key with
    | some k =>
      let n := s.sprue.txSeq
      ((s.emitUnder f (some k) s.sprue.salt n).modSprue fun u => { u with txSeq := n + 1 }).usedSeq 1 n
    | none => s.emitUnder f none 0 0

/-- SLACK symbols of an AM frame: 256 bytes of two-bit symbols (R440). -/
def amSlack : Nat := 1024

/-- An AM frame's bytes: those before its SLACK are free. -/
def amBytes (n : Nat) : Bytes := Config.freeBytes n 256 ++ List.replicate 256 0

/-- A frame's 512 bytes join the lane's stream, which is scrambled and coded as a Runner lane's with L = 0 (R440). -/
def State.codeFrame (s : State) (b : Bytes) : State := s.modSprue fun u => { u with line := u.line.feed 0 b }

/-- SPRUE_FRAME_SEND (R449): one frame position: at every 257th an AM frame, which pays stuff symbols owed; else the
first frame that waits, or IDLE. `symbols`: what the lane's coder gives the line for it. -/
def execSprueFrameSend (symbols : List LineSym) (s : State) : Host.Outcome State Fault Refusal :=
  finish (asked ++ [.sprue]) s <|
    if !s.sprueLit then s
    else
      let am := decide (s.sprue.pos = 256)
      let owed := s.rd pgSprue SP_LSLACK_OWED
      let slack := if am then amSlack else 0
      let r := s.sprue.txLine.send true slack owed symbols
      let s1 := (s.wr pgSprue SP_LSLACK_OWED (min 511 (owed - min owed slack + r.2))).modSprue
        fun u => { u with pos := (u.pos + 1) % 257, txLine := r.1 }
      if am then { (s1.modSprue fun u => { u with out := [] }).codeFrame (amBytes s.free) with free := s.free + 1 }
      else if s.rd pgSprue SP_STATUS_LINK ≠ 2 then s1
      else
        let s2 := s1.pumpDma
        let s3 := match s2.nextFrame with
          | some f => (s2.unqueue f).emit f
          | none => s2.modSprue fun u => { u with out := frameText 0x0F 0 0 0 s.pkg 0xFF [] ++ List.replicate 16 0 }
        s3.codeFrame s3.sprue.out

/-! ### The link (R448) -/

/-- SPRUE_LINK_UP (R448): an AM position comes with a good AM frame, or without one; at 64 consecutive good ones the
port is UP. -/
def execSprueLinkUp (good : Bool) (s : State) : Host.Outcome State Fault Refusal :=
  finish [.regs, .sprue] s <|
    if !s.sprueLit then s
    else if !good then s.modSprue fun u => { u with goodAm := 0, badAm := u.badAm + 1 }
    else
      let n := s.sprue.goodAm + 1
      let l := s.rd pgSprue SP_STATUS_LINK
      (s.modSprue fun u => { u with goodAm := n, badAm := 0 }).wr pgSprue SP_STATUS_LINK (if l = 2 ∨ 64 ≤ n then 2 else 1)

/-- The port goes DOWN. -/
def State.sprueDown (s : State) (cause : Nat) : State :=
  let was := s.rd pgSprue SP_STATUS_LINK
  let s1 := ((s.modSprue fun u => { u with goodAm := 0, badAm := 0, line := {}, txLine := {}, rxLine := {} }).wr pgSprue SP_STATUS_LINK 0).wr pgSprue SP_LSLACK_OWED 0
  let s2 := { s1 with events := { s1.events with wait := s1.events.wait.drop (s1.events.wait.length - 64) } }
  if was = 2 then s2.raise pgSprue ev_SP_LINK_DOWN (le 1 cause) else s2

/-- SPRUE_DOWN (R448, R440): after 8 AM positions without a good AM (0), with VLAS absent (1), or with OWED above 256
(2). -/
def execSprueDown (cause : Fin 3) (s : State) : Host.Outcome State Fault Refusal :=
  finish (evented ++ [.sprue]) s <|
    match cause.val with
    | 0 => if 8 ≤ s.sprue.badAm then s.sprueDown 0 else s
    | 1 => (s.modSprue fun u => { u with vlas := false }).sprueDown 1
    | _ => if 256 < s.rd pgSprue SP_LSLACK_OWED then s.sprueDown 2 else s

/-- VLAS_RETURN (R448, R439): the laser lights, and a port that start-up has lit locks and may come UP again. -/
def execVlasReturn (s : State) : Host.Outcome State Fault Refusal :=
  finish [.regs, .sprue] s <|
    let s1 := s.modSprue fun u => { u with vlas := true, goodAm := 0, badAm := 0 }
    if s1.sprueLit && s.time.running then s1.wr pgSprue SP_STATUS_LINK (max 1 (s.rd pgSprue SP_STATUS_LINK)) else s1

end Sys2Proof.Machine
end

