-- ==== Sys2Proof/Machine/Dispatch.lean ====
section
/-!
DEFINITION. Machine/Dispatch.lean: the meaning of a command, one arm per constructor of Instr.
-/

namespace Sys2Proof.Machine

open Sys2Proof

/-- The effect of command `i` on everything but the queue. -/
def exec (i : Instr) (s : State) : Host.Outcome State Fault Refusal :=
  match i with
  | .pwrGoodChange level => Sys2Proof.Machine.execPwrGoodChange level s
  | .resetNChange level => Sys2Proof.Machine.execResetNChange level s
  | .holdNChange level => Sys2Proof.Machine.execHoldNChange level s
  | .pinTransition pin => Sys2Proof.Machine.execPinTransition pin s
  | .inputQuietExpiry pin => Sys2Proof.Machine.execInputQuietExpiry pin s
  | .refclkLoss => Sys2Proof.Machine.execRefclkLoss s
  | .refclkRestored => Sys2Proof.Machine.execRefclkRestored s
  | .vauxLoss vinFell => Sys2Proof.Machine.execVauxLoss vinFell s
  | .scanInstruction code => Sys2Proof.Machine.execScanInstruction code s
  | .startUpStage obs => Sys2Proof.Machine.execStartUpStage obs s
  | .savedSetWrite unit spares phase volt => Sys2Proof.Machine.execSavedSetWrite unit spares phase volt s
  | .reset c => Sys2Proof.Machine.execReset c s
  | .resetActs => Sys2Proof.Machine.execResetActs s
  | .drainEnd sectors lost => Sys2Proof.Machine.execDrainEnd sectors lost s
  | .resetComplete obs => Sys2Proof.Machine.execResetComplete obs s
  | .timeFrame f frac gap => Sys2Proof.Machine.execTimeFrame f frac gap s
  | .counterStep => Sys2Proof.Machine.execCounterStep s
  | .timeHoldover => Sys2Proof.Machine.execTimeHoldover s
  | .holdoverExpiry => Sys2Proof.Machine.execHoldoverExpiry s
  | .timeMarkSend port => Sys2Proof.Machine.execTimeMarkSend port s
  | .timeMark port stamp state arrival => Sys2Proof.Machine.execTimeMark port stamp state arrival s
  | .boundaryPreparation => Sys2Proof.Machine.execBoundaryPreparation s
  | .recentre riser phase volt lane xgMargin pl => Sys2Proof.Machine.execRecentre riser phase volt lane xgMargin pl s
  | .ageingMonitorSample cluster delay slack => Sys2Proof.Machine.execAgeingMonitorSample cluster delay slack s
  | .memoryMaintenanceSlot chan => Sys2Proof.Machine.execMemoryMaintenanceSlot chan s
  | .loadPattern c => Sys2Proof.Machine.execLoadPattern c s
  | .patternLoadDone part slot => Sys2Proof.Machine.execPatternLoadDone part slot s
  | .pour c => Sys2Proof.Machine.execPour c s
  | .hold c => Sys2Proof.Machine.execHold c s
  | .release c => Sys2Proof.Machine.execRelease c s
  | .cmd f => Sys2Proof.Machine.execCmd f s
  | .regrd f => Sys2Proof.Machine.execRegrd f s
  | .regwr f => Sys2Proof.Machine.execRegwr f s
  | .dmaWrite f => Sys2Proof.Machine.execDmaWrite f s
  | .dmaRead f => Sys2Proof.Machine.execDmaRead f s
  | .bulk f => Sys2Proof.Machine.execBulk f s
  | .bulkTimeout stream => Sys2Proof.Machine.execBulkTimeout stream s
  | .sprueLinkUp good => Sys2Proof.Machine.execSprueLinkUp good s
  | .sprueDown cause => Sys2Proof.Machine.execSprueDown cause s
  | .evtFrameSend => Sys2Proof.Machine.execEvtFrameSend s
  | .ringWrite page => Sys2Proof.Machine.execRingWrite page s
  | .sprueKeyx c => Sys2Proof.Machine.execSprueKeyx c s
  | .deploy c => Sys2Proof.Machine.execDeploy c s
  | .operatorRekey c => Sys2Proof.Machine.execOperatorRekey c s
  | .decommission c => Sys2Proof.Machine.execDecommission c s
  | .getCerts c => Sys2Proof.Machine.execGetCerts c s
  | .attest c => Sys2Proof.Machine.execAttest c s
  | .getLog c => Sys2Proof.Machine.execGetLog c s
  | .setPatternKey c => Sys2Proof.Machine.execSetPatternKey c s
  | .rotateFarKey c => Sys2Proof.Machine.execRotateFarKey c s
  | .farKeyRotated part => Sys2Proof.Machine.execFarKeyRotated part s
  | .sessionOpen c => Sys2Proof.Machine.execSessionOpen c s
  | .seal c => Sys2Proof.Machine.execSeal c s
  | .unseal c => Sys2Proof.Machine.execUnseal c s
  | .sessionWrite c => Sys2Proof.Machine.execSessionWrite c s
  | .sessionRead c => Sys2Proof.Machine.execSessionRead c s
  | .svnAdvance c => Sys2Proof.Machine.execSvnAdvance c s
  | .svnFuseBlow => Sys2Proof.Machine.execSvnFuseBlow s
  | .scrubComplete part => Sys2Proof.Machine.execScrubComplete part s
  | .drbgHealthFail test => Sys2Proof.Machine.execDrbgHealthFail test s
  | .getDescription c => Sys2Proof.Machine.execGetDescription c s
  | .updBegin c => Sys2Proof.Machine.execUpdBegin c s
  | .ledgerStageDone readBack => Sys2Proof.Machine.execLedgerStageDone readBack s
  | .updDistribute c => Sys2Proof.Machine.execUpdDistribute c s
  | .distributionEnd rounds notReady => Sys2Proof.Machine.execDistributionEnd rounds notReady s
  | .updCommit c => Sys2Proof.Machine.execUpdCommit c s
  | .commitPrepare ready => Sys2Proof.Machine.execCommitPrepare ready s
  | .handOver => Sys2Proof.Machine.execHandOver s
  | .selectRecordWrite verified => Sys2Proof.Machine.execSelectRecordWrite verified s
  | .updDiscard c => Sys2Proof.Machine.execUpdDiscard c s
  | .recoveryBegin c => Sys2Proof.Machine.execRecoveryBegin c s
  | .recoveryRestart c => Sys2Proof.Machine.execRecoveryRestart c s
  | .shutdownAck c => Sys2Proof.Machine.execShutdownAck c s
  | .shutdownRead c => Sys2Proof.Machine.execShutdownRead c s
  | .ageingRead c => Sys2Proof.Machine.execAgeingRead c s
  | .stop c => Sys2Proof.Machine.execStop c s
  | .stopExpiry port => Sys2Proof.Machine.execStopExpiry port s
  | .relay c => Sys2Proof.Machine.execRelay c s
  | .stopRelay port => Sys2Proof.Machine.execStopRelay port s
  | .ingressUnit port vc => Sys2Proof.Machine.execIngressUnit port vc s
  | .trainingStateAdvance port obs => Sys2Proof.Machine.execTrainingStateAdvance port obs s
  | .trainingTimeout port => Sys2Proof.Machine.execTrainingTimeout port s
  | .keyxMessage port msg => Sys2Proof.Machine.execKeyxMessage port msg s
  | .trafficKeySwitch port => Sys2Proof.Machine.execTrafficKeySwitch port s
  | .blockReceive port blk => Sys2Proof.Machine.execBlockReceive port blk s
  | .lcfReceive port lcf => Sys2Proof.Machine.execLcfReceive port lcf s
  | .replay port => Sys2Proof.Machine.execReplay port s
  | .fillBlock port => Sys2Proof.Machine.execFillBlock port s
  | .linkLoss port cause => Sys2Proof.Machine.execLinkLoss port cause s
  | .runnerLaneFailure port fault => Sys2Proof.Machine.execRunnerLaneFailure port fault s
  | .narrow port upper => Sys2Proof.Machine.execNarrow port upper s
  | .retrain port => Sys2Proof.Machine.execRetrain port s
  | .eyeScanGridEnd port lane eye grid => Sys2Proof.Machine.execEyeScanGridEnd port lane eye grid s
  | .schedWordDrive port cyc => Sys2Proof.Machine.execSchedWordDrive port cyc s
  | .schedWordRelease port => Sys2Proof.Machine.execSchedWordRelease port s
  | .releaseBufferFlush port => Sys2Proof.Machine.execReleaseBufferFlush port s
  | .requestIssue rq => Sys2Proof.Machine.execRequestIssue rq s
  | .read id parity => Sys2Proof.Machine.execRead id parity s
  | .write turn => Sys2Proof.Machine.execWrite turn s
  | .writeShort turn => Sys2Proof.Machine.execWriteShort turn s
  | .atomic turn => Sys2Proof.Machine.execAtomic turn s
  | .reduce turn => Sys2Proof.Machine.execReduce turn s
  | .response id cycles => Sys2Proof.Machine.execResponse id cycles s
  | .requestTimeout id => Sys2Proof.Machine.execRequestTimeout id s
  | .transitPacket port => Sys2Proof.Machine.execTransitPacket port s
  | .routerForward router out => Sys2Proof.Machine.execRouterForward router out s
  | .scheduleEntry router index => Sys2Proof.Machine.execScheduleEntry router index s
  | .syncTokenArrival store => Sys2Proof.Machine.execSyncTokenArrival store s
  | .neighbourModeStep riser chunk => Sys2Proof.Machine.execNeighbourModeStep riser chunk s
  | .routerBad router net cause => Sys2Proof.Machine.execRouterBad router net cause s
  | .crossingParityError router port group cyc => Sys2Proof.Machine.execCrossingParityError router port group cyc s
  | .tnop core => Sys2Proof.Machine.execTnop core s
  | .tloads core => Sys2Proof.Machine.execTloads core s
  | .tswap core => Sys2Proof.Machine.execTswap core s
  | .tmm core errs => Sys2Proof.Machine.execTmm core errs s
  | .tout core errs => Sys2Proof.Machine.execTout core errs s
  | .tsync core => Sys2Proof.Machine.execTsync core s
  | .tsyncWaitMet core => Sys2Proof.Machine.execTsyncWaitMet core s
  | .tpred core => Sys2Proof.Machine.execTpred core s
  | .tend core => Sys2Proof.Machine.execTend core s
  | .periodRestart core => Sys2Proof.Machine.execPeriodRestart core s
  | .mxfer turn => Sys2Proof.Machine.execMxfer turn s
  | .mxferComplete mv => Sys2Proof.Machine.execMxferComplete mv s
  | .mnop mv => Sys2Proof.Machine.execMnop mv s
  | .msync mv => Sys2Proof.Machine.execMsync mv s
  | .mend mv => Sys2Proof.Machine.execMend mv s
  | .windowStart core => Sys2Proof.Machine.execWindowStart core s
  | .windowEnd core => Sys2Proof.Machine.execWindowEnd core s
  | .wfi core => Sys2Proof.Machine.execWfi core s
  | .userTrap core cause tval => Sys2Proof.Machine.execUserTrap core cause tval s
  | .htread core rd => Sys2Proof.Machine.execHtread core rd s
  | .htwait core rd rs1 => Sys2Proof.Machine.execHtwait core rd rs1 s
  | .htwaitComplete core => Sys2Proof.Machine.execHtwaitComplete core s
  | .crcblk core rd rs1 => Sys2Proof.Machine.execCrcblk core rd rs1 s
  | .syncset core rs1 rs2 add => Sys2Proof.Machine.execSyncset core rs1 rs2 add s
  | .syncwait core rd rs1 rs2 ge => Sys2Proof.Machine.execSyncwait core rd rs1 rs2 ge s
  | .syncwaitComplete core => Sys2Proof.Machine.execSyncwaitComplete core s
  | .descld core vd rs1 => Sys2Proof.Machine.execDescld core vd rs1 s
  | .mxpack core vd vs rs1 => Sys2Proof.Machine.execMxpack core vd vs rs1 s
  | .mxunpack core vd vs rs1 => Sys2Proof.Machine.execMxunpack core vd vs rs1 s
  | .amo core op wide rd rs1 rs2 => Sys2Proof.Machine.execAmo core op wide rd rs1 rs2 s
  | .lr core wide rd rs1 => Sys2Proof.Machine.execLr core wide rd rs1 s
  | .sc core wide rd rs1 rs2 => Sys2Proof.Machine.execSc core wide rd rs1 rs2 s
  | .clusterMemoryAccess cluster acc => Sys2Proof.Machine.execClusterMemoryAccess cluster acc s
  | .patrolStep cluster => Sys2Proof.Machine.execPatrolStep cluster s
  | .rebuildStep turn => Sys2Proof.Machine.execRebuildStep turn s
  | .memoryRun chan index => Sys2Proof.Machine.execMemoryRun chan index s
  | .readWordDrive chan => Sys2Proof.Machine.execReadWordDrive chan s
  | .writeWordArrival chan cyc => Sys2Proof.Machine.execWriteWordArrival chan cyc s
  | .unscheduledAccess chan id => Sys2Proof.Machine.execUnscheduledAccess chan id s
  | .writeParityRewrite chan addr passed => Sys2Proof.Machine.execWriteParityRewrite chan addr passed s
  | .laneParityError kind unit group addr => Sys2Proof.Machine.execLaneParityError kind unit group addr s
  | .laneFailure kind unit group => Sys2Proof.Machine.execLaneFailure kind unit group s
  | .retrainingStart kind unit => Sys2Proof.Machine.execRetrainingStart kind unit s
  | .retrainingDone kind unit obs => Sys2Proof.Machine.execRetrainingDone kind unit obs s
  | .cacheAccess slice id parity => Sys2Proof.Machine.execCacheAccess slice id parity s
  | .cacheFillReturn slice line status data poison tagOk => Sys2Proof.Machine.execCacheFillReturn slice line status data poison tagOk s
  | .flush r slice => Sys2Proof.Machine.execFlush r slice s
  | .flushComplete turn => Sys2Proof.Machine.execFlushComplete turn s
  | .sbRegions r slice w => Sys2Proof.Machine.execSbRegions r slice w s
  | .cxlPortDown port => Sys2Proof.Machine.execCxlPortDown port s
  | .cxlRequestTimeout port id => Sys2Proof.Machine.execCxlRequestTimeout port id s
  | .commit r port dec => Sys2Proof.Machine.execCommit r port dec s
  | .decoderCommitEffect port dec => Sys2Proof.Machine.execDecoderCommitEffect port dec s
  | .hkSample value fault => Sys2Proof.Machine.execHkSample value fault s
  | .shutdownRecordWrite verified => Sys2Proof.Machine.execShutdownRecordWrite verified s
  | .pwrOffReq => Sys2Proof.Machine.execPwrOffReq s
  | .voltageStep domain => Sys2Proof.Machine.execVoltageStep domain s
  | .replan => Sys2Proof.Machine.execReplan s
  | .operatingHour verified => Sys2Proof.Machine.execOperatingHour verified s
  | .ledgerErase verified => Sys2Proof.Machine.execLedgerErase verified s
  | .regWrite r off w => Sys2Proof.Machine.execRegWrite r off w s
  | .regReadClear r off => Sys2Proof.Machine.execRegReadClear r off s
  | .latchingRead r off => Sys2Proof.Machine.execLatchingRead r off s
  | .evtForce r page => Sys2Proof.Machine.execEvtForce r page s
  | .fence r page => Sys2Proof.Machine.execFence r page s
  | .resetReq r page => Sys2Proof.Machine.execResetReq r page s
  | .enable r page => Sys2Proof.Machine.execEnable r page s
  | .ptConfig r count => Sys2Proof.Machine.execPtConfig r count s
  | .ptSeed r part seed => Sys2Proof.Machine.execPtSeed r part seed s
  | .ptRnAssign r port part valid => Sys2Proof.Machine.execPtRnAssign r port part valid s
  | .ptCxAssign r port part valid => Sys2Proof.Machine.execPtCxAssign r port part valid s
  | .patrolListWrite r cluster reg w => Sys2Proof.Machine.execPatrolListWrite r cluster reg w s
  | .nwHmembStageHi r tag => Sys2Proof.Machine.execNwHmembStageHi r tag s
  | .nwHrtSwap r parts => Sys2Proof.Machine.execNwHrtSwap r parts s
  | .nwHrtCopy r parts => Sys2Proof.Machine.execNwHrtCopy r parts s
  | .routeCopyDone part => Sys2Proof.Machine.execRouteCopyDone part s
  | .nwHpkg r w => Sys2Proof.Machine.execNwHpkg r w s
  | .nwRegTgt r router cls target => Sys2Proof.Machine.execNwRegTgt r router cls target s
  | .nwSflagHi r store index w => Sys2Proof.Machine.execNwSflagHi r store index w s
  | .mcTrainRequest r chan => Sys2Proof.Machine.execMcTrainRequest r chan s
  | .mcXgRetrain r riser mask => Sys2Proof.Machine.execMcXgRetrain r riser mask s
  | .rnPctrlRetrain r port => Sys2Proof.Machine.execRnPctrlRetrain r port s
  | .evRingHi r w => Sys2Proof.Machine.execEvRingHi r w s
  | .hkReplanRequest r => Sys2Proof.Machine.execHkReplanRequest r s
  | .blockSend port stuffed => Sys2Proof.Machine.execBlockSend port stuffed s
  | .sprueFrameSend stuffed => Sys2Proof.Machine.execSprueFrameSend stuffed s
  | .frameDiscarded f => Sys2Proof.Machine.execFrameDiscarded f s
  | .vauxRise => Sys2Proof.Machine.execVauxRise s
  | .vlasReturn => Sys2Proof.Machine.execVlasReturn s
  | .cxlPortRetrain port obs => Sys2Proof.Machine.execCxlPortRetrain port obs s
  | .msyncWaitMet mv => Sys2Proof.Machine.execMsyncWaitMet mv s

end Sys2Proof.Machine
end

