-- ==== Sys2Proof/Machine/RvFloat.lean ====
section
/-!
DEFINITION. Machine/RvFloat.lean: a general core's F and D instructions (R209): rounding in the five modes with the exception flags, exact
arithmetic rounded once, comparisons, conversions and classes.
-/

namespace Sys2Proof.Machine

open Sys2Proof

/-- FP64. -/
def fFP64 : Fmt := ⟨64, 52, -1074, 0x7FEFFFFFFFFFFFFF, some 0x7FF0000000000000, true⟩

/-- The quiet NaN that operations give. -/
def Fmt.quiet (f : Fmt) : Nat := (2 ^ (f.bits - 1 - f.mb) - 1) * 2 ^ f.mb + 2 ^ (f.mb - 1)

/-- A code is a signalling NaN. -/
def Fmt.signals (f : Fmt) (c : Nat) : Bool := (f.decode c).isNan && !c.testBit (f.mb - 1)

/-! ### Rounding -/

/-- `m / 2^sh` rounded in mode `rm`: 0 to nearest even, 1 towards zero, 2 down, 3 up, 4 to nearest, ties away, 5 to odd (the
vector conversions that round so). -/
def roundMode (rm : Nat) (neg : Bool) (m sh : Nat) : Nat :=
  let k := m / 2 ^ sh
  let r := m % 2 ^ sh
  let up := match rm with
    | 0 => decide (2 ^ sh < 2 * r ∨ (2 * r = 2 ^ sh ∧ k % 2 = 1))
    | 1 => false
    | 2 => neg && decide (r ≠ 0)
    | 3 => !neg && decide (r ≠ 0)
    | 4 => decide (r ≠ 0 ∧ 2 ^ sh ≤ 2 * r)
    | _ => decide (r ≠ 0 ∧ k % 2 = 0)
  if up then k + 1 else k

/-- `m × 2^e` in units of `2^q`, rounded, and whether it is inexact. -/
def inUnits (rm : Nat) (neg : Bool) (m : Nat) (e q : Int) : Nat × Bool :=
  if q ≤ e then (m * 2 ^ (e - q).toNat, false)
  else (roundMode rm neg m (q - e).toNat, decide (m % 2 ^ (q - e).toNat ≠ 0))

/-- A number rounded to a format: its code and its flags. A result is tiny if it is below the least normal number once rounded as if the
exponent had no bound. -/
def Fmt.pack (f : Fmt) (rm : Nat) : Num → Nat × Nat
  | .nan => (f.quiet, 0)
  | .inf n => (f.code n (f.infc.getD 0), 0)
  | .fin n m e =>
    let q0 := e + (bitLen m : Int) - ((f.mb : Int) + 1)
    let q := max q0 f.qmin
    let r := inUnits rm n m e q
    let g := r.1 + (q - f.qmin).toNat * 2 ^ f.mb
    if m = 0 then (f.code n 0, 0)
    else if f.maxc < g then
      let top := decide (rm = 1 ∨ rm = 5) || decide (rm = 2 ∧ n = false) || decide (rm = 3 ∧ n = true)
      (f.code n (if top then f.maxc else f.infc.getD 0), 5)
    else
      let t := inUnits rm n m e q0
      let tiny := decide (q0 < f.qmin) && decide (t.1 * 2 ^ (q0 - (f.qmin - 2200)).toNat < 2 ^ (f.mb + 2200))
      (f.code n g, if r.2 then (if tiny then 3 else 1) else 0)

/-! ### Arithmetic -/

/-- A sum in a rounding mode: an exact zero of unlike signs is −0 only when rounding down. -/
def rmAdd (rm : Nat) (a b : Num) : Num :=
  match a.add b with
  | .fin n 0 e => .fin (if a.neg? = b.neg? then n else decide (rm = 2)) 0 e
  | v => v

/-- The quotient with at least 60 bits more than the format, and a last bit that says whether anything is left. -/
def Num.quot : Num → Num → Num
  | .nan, _ => .nan
  | _, .nan => .nan
  | .inf _, .inf _ => .nan
  | .inf a, .fin n _ _ => .inf (a != n)
  | .fin n _ _, .inf b => .fin (n != b) 0 0
  | .fin n1 m1 e1, .fin n2 m2 e2 =>
    if m2 = 0 then (if m1 = 0 then .nan else .inf (n1 != n2))
    else
      let k := bitLen m2 + 120
      let x := m1 * 2 ^ k
      .fin (n1 != n2) (2 * (x / m2) + (if x % m2 = 0 then 0 else 1)) (e1 - e2 - k - 1)

/-- Integer square root, bit by bit from 2^n. -/
def isqrt : Nat → Nat → Nat → Nat
  | 0, _, r => r
  | n + 1, v, r => let t := r + 2 ^ n; isqrt n v (if t * t ≤ v then t else r)

/-- The square root likewise. -/
def Num.sqrt : Num → Num
  | .nan => .nan
  | .inf n => if n then .nan else .inf false
  | .fin n m e =>
    if m = 0 then .fin n 0 e
    else if n then .nan
    else
      let k : Nat := 200 + ((e % 2).toNat)
      let x := m * 2 ^ k
      let w := bitLen x / 2 + 1
      let r := isqrt w x 0
      .fin false (2 * r + (if r * r = x then 0 else 1)) ((e - k) / 2 - 1)

/-- Codes of operands and the result of an operation over their numbers: a signalling operand, or a NaN from none, is invalid. -/
def Fmt.op (f : Fmt) (rm : Nat) (args : List Nat) (bad : Bool) (v : Num) : Nat × Nat :=
  let r := f.pack rm v
  let nans := args.any fun c => (f.decode c).isNan
  (r.1, r.2 ||| (if args.any f.signals ∨ bad = true ∨ (v.isNan ∧ nans = false) then 16 else 0))

def Fmt.fadd (f : Fmt) (rm a b : Nat) : Nat × Nat := f.op rm [a, b] false (rmAdd rm (f.decode a) (f.decode b))
def Fmt.fsub (f : Fmt) (rm a b : Nat) : Nat × Nat := f.op rm [a, b] false (rmAdd rm (f.decode a) (f.decode b).negate)
def Fmt.fmul (f : Fmt) (rm a b : Nat) : Nat × Nat := f.op rm [a, b] false ((f.decode a).mul (f.decode b))

/-- A quotient; a finite number by zero also raises DZ. -/
def Fmt.fdiv (f : Fmt) (rm a b : Nat) : Nat × Nat :=
  let x := f.decode a
  let y := f.decode b
  let r := f.op rm [a, b] false (x.quot y)
  let dz := match x, y with
    | .fin _ m _, .fin _ 0 _ => decide (m ≠ 0)
    | _, _ => false
  (r.1, r.2 ||| (if dz then 8 else 0))
def Fmt.fsqrt (f : Fmt) (rm a : Nat) : Nat × Nat := f.op rm [a] false (f.decode a).sqrt

/-- a × b + c rounded once, with the product and the addend negated as `np` and `nc` say; infinity times zero is invalid whatever c is. -/
def Fmt.fma (f : Fmt) (rm : Nat) (np nc : Bool) (a b c : Nat) : Nat × Nat :=
  let x := f.decode a
  let y := f.decode b
  let p := x.mul y
  let p := if np then p.negate else p
  let z := if nc then (f.decode c).negate else f.decode c
  f.op rm [a, b, c] (p.isNan && !x.isNan && !y.isNan) (rmAdd rm p z)

/-! ### Comparison, sign and class -/

/-- Sign injection by funct3: the sign of b, its opposite, the exclusive or of both. -/
def Fmt.fsgnj (f : Fmt) (k a b : Nat) : Nat :=
  let s := match k with
    | 0 => f.neg b
    | 1 => !f.neg b
    | _ => f.neg a != f.neg b
  f.code s (f.mag a)

/-- IEEE 754-2019 minimumNumber and maximumNumber, −0 below +0. -/
def Fmt.fminmax (f : Fmt) (max_ : Bool) (a b : Nat) : Nat × Nat :=
  let x := f.decode a
  let y := f.decode b
  let nv := if f.signals a || f.signals b then 16 else 0
  if x.isNan then (if y.isNan then f.quiet else b, nv)
  else if y.isNan then (a, nv)
  else (if (if max_ then x.below y else y.below x) then b else a, nv)

/-- FEQ (2), FLT (1) and FLE (0); a NaN makes the ordered ones invalid, a signalling one all three. -/
def Fmt.fcmp (f : Fmt) (k a b : Nat) : Bool × Nat :=
  let x := f.decode a
  let y := f.decode b
  if x.isNan || y.isNan then (false, if k ≠ 2 ∨ f.signals a = true ∨ f.signals b = true then 16 else 0)
  else
    let zero := decide (f.mag a = 0 ∧ f.mag b = 0)
    let eq := zero || decide (a = b)
    let lt := !eq && x.below y
    (match k with
      | 0 => eq || lt
      | 1 => lt
      | _ => eq, 0)

/-- FCLASS. -/
def Fmt.fclass (f : Fmt) (c : Nat) : Nat :=
  let n := f.neg c
  let g := f.mag c
  if f.infc = some g then (if n then 1 else 2 ^ 7)
  else if f.maxc < g then (if f.signals c then 2 ^ 8 else 2 ^ 9)
  else if g = 0 then (if n then 2 ^ 3 else 2 ^ 4)
  else if g < 2 ^ f.mb then (if n then 2 ^ 2 else 2 ^ 5)
  else if n then 2 ^ 1 else 2 ^ 6

/-! ### Conversions -/

/-- A number to an integer of `n` bits, signed or not: one out of range, an infinity or a NaN gives the bound and NV. -/
def toInteger (rm n : Nat) (signed : Bool) (v : Num) : Nat × Nat :=
  let lo : Int := if signed then -2 ^ (n - 1) else 0
  let hi : Int := if signed then 2 ^ (n - 1) - 1 else 2 ^ n - 1
  match v with
  | .nan => (ofInt n hi, 16)
  | .inf neg => (ofInt n (if neg then lo else hi), 16)
  | .fin neg m e =>
    let r := inUnits rm neg m e 0
    let i : Int := if neg then -(r.1 : Int) else r.1
    if i < lo then (ofInt n lo, 16) else if hi < i then (ofInt n hi, 16) else (ofInt n i, if r.2 then 1 else 0)

/-- A format to another. -/
def convert (f t : Fmt) (rm c : Nat) : Nat × Nat :=
  let r := t.pack rm (f.decode c)
  (r.1, r.2 ||| (if f.signals c then 16 else 0))

/-! ### Registers and instructions -/

/-- The format of a funct7 or an FMA word: S or D. -/
def fmtOf (d : Bool) : Fmt := if d then fFP64 else fFP32

/-- An operand of format S lies boxed in its register, and reads as the quiet NaN otherwise. -/
def unbox (d : Bool) (v : Nat) : Nat := if d then v else if v / 2 ^ 32 = 0xFFFFFFFF then v % 2 ^ 32 else 0x7FC00000
def box (d : Bool) (v : Nat) : Nat := if d then v else v % 2 ^ 32 + 0xFFFFFFFF * 2 ^ 32

/-- The rounding mode of an instruction: its field, or frm where that says so; none where it is reserved. -/
def Gcore.rmOf (u : Gcore) (k : Nat) : Option Nat :=
  let r := if k = 7 then u.csrGet csrFcsr / 32 % 8 else k
  if r < 5 then some r else none

/-- The F and D instructions: what the word `w`, of `len` bytes, does. -/
def fpAct (u : Gcore) (w len : Nat) : Option CoreAct :=
  let d := decide (fn7 w % 4 = 1)
  let f := fmtOf d
  let a := unbox d (u.getF (rs1_ w))
  let b := unbox d (u.getF (rs2_ w))
  let f3 := fn3 w
  let x := u.getX (rs1_ w)
  let s2 := rs2_ w
  let putF (r : Nat × Nat) (cost : Nat := 1) : Option CoreAct := some (((u.setF (rd_ w) (box d r.1)).flag r.2).next len cost)
  let putX (r : Nat × Nat) : Option CoreAct := some (((u.setX (rd_ w) r.1).flag r.2).next len)
  if !u.fpOn then none
  else match opc w with
  | 0x07 => if f3 = 2 ∨ f3 = 3 then some (.load (memAt u w) (memBytes f3)) else none
  | 0x27 => if f3 = 2 ∨ f3 = 3 then some (.store (memAt u w) (le (memBytes f3) (u.getF s2))) else none
  | 0x43 | 0x47 | 0x4B | 0x4F =>
    if 1 < fn7 w % 4 then none
    else (u.rmOf f3).bind fun rm =>
      putF (f.fma rm (opc w = 0x4B ∨ opc w = 0x4F) (opc w = 0x47 ∨ opc w = 0x4F) a b (unbox d (u.getF (wf w 31 27))))
  | 0x53 =>
    if 1 < fn7 w % 4 then none
    else match fn7 w / 4 with
    | 0 => (u.rmOf f3).bind fun rm => putF (f.fadd rm a b)
    | 1 => (u.rmOf f3).bind fun rm => putF (f.fsub rm a b)
    | 2 => (u.rmOf f3).bind fun rm => putF (f.fmul rm a b)
    | 3 => (u.rmOf f3).bind fun rm => putF (f.fdiv rm a b) (if d then 20 else 12)
    | 11 => if s2 = 0 then (u.rmOf f3).bind fun rm => putF (f.fsqrt rm a) (if d then 20 else 12) else none
    | 4 => if f3 < 3 then putF (f.fsgnj f3 a b, 0) else none
    | 5 => if f3 < 2 then putF (f.fminmax (f3 = 1) a b) else none
    | 8 =>
      if s2 = (if d then 0 else 1) then (u.rmOf f3).bind fun rm => putF (convert (fmtOf !d) f rm (unbox (!d) (u.getF (rs1_ w)))) else none
    | 20 => if f3 < 3 then putX (let r := f.fcmp f3 a b; (r.1.toNat, r.2)) else none
    | 24 =>
      if s2 < 4 then (u.rmOf f3).bind fun rm =>
        let r := toInteger rm (if s2 < 2 then 32 else 64) (s2 % 2 = 0) (f.decode a)
        putX (sext (2 ≤ s2) r.1, r.2)
      else none
    | 26 =>
      if s2 < 4 then (u.rmOf f3).bind fun rm =>
        let n := if s2 < 2 then 32 else 64
        putF (f.pack rm (Num.ofInt (if s2 % 2 = 0 then toInt n x else (x % 2 ^ n : Nat))))
      else none
    | 28 =>
      if s2 ≠ 0 then none
      else if f3 = 0 then putX (sext d (u.getF (rs1_ w)), 0)
      else if f3 = 1 then putX (f.fclass a, 0)
      else none
    | 30 => if s2 = 0 ∧ f3 = 0 then putF (x, 0) else none
    | _ => none
  | _ => none

/-- What an FP load makes of its bytes. -/
def loadedF (f3 : Nat) (d : Bytes) : Nat := box (f3 = 3) (unle d)

end Sys2Proof.Machine
end

