-- ==== Sys2Proof/Machine/RvVector.lean ====
section
/-!
DEFINITION. Machine/RvVector.lean: a general core's vector instructions (R209: the V extension 1.0 with VLEN 512 and ELEN 64, Table 6-1): the
configuration, integer, fixed-point and FP arithmetic, masks, reductions, permutations, and the accesses of loads and stores. The
choices that the V extension leaves are log entry 136.
-/

namespace Sys2Proof.Machine

open Sys2Proof

/-! ### Configuration -/

/-- A configuration: SEW is 8 × 2^sw bits, LMUL 2^lm. -/
structure VCfg where
  sw : Nat
  lm : Int
  deriving DecidableEq, Repr

/-- Bits and bytes of an element; elements of the longest vector; registers of a group. -/
def VCfg.bits (c : VCfg) : Nat := 8 * 2 ^ c.sw
def VCfg.bytes (c : VCfg) : Nat := 2 ^ c.sw
def VCfg.max (c : VCfg) : Nat := 2 ^ (6 + c.lm - c.sw).toNat
def regsOf (lm : Int) : Nat := 2 ^ lm.toNat

/-- A vtype's configuration: every SEW from 8 to 64 with every LMUL from 1/8 to 8 (Table 6-1); none where it is not supported. -/
def vtypeCfg (t : Nat) : Option VCfg :=
  if 256 ≤ t ∨ t % 8 = 4 ∨ 3 < t / 8 % 8 then none else some ⟨t / 8 % 8, toInt 3 (t % 8)⟩

def Gcore.vcfg (u : Gcore) : Option VCfg := vtypeCfg (u.csrGet csrVtype)
def Gcore.vl (u : Gcore) : Nat := u.csrGet csrVl
def Gcore.vstart (u : Gcore) : Nat := u.csrGet csrVstart

/-- vsetvli, vsetivli and vsetvl: an unsupported vtype sets vill and a length of 0; else the length is the lesser of the one asked for and
the longest. -/
def vset (u : Gcore) (w len : Nat) : Option CoreAct :=
  let sel := wf w 31 30
  let t := if sel < 2 then wf w 30 20 else if sel = 3 then wf w 29 20 else u.getX (rs2_ w)
  let keep := decide (sel ≠ 3 ∧ rs1_ w = 0 ∧ rd_ w = 0)
  if sel = 2 ∧ fn7 w ≠ 0x40 then none
  else
    let old := u.vcfg
    match (vtypeCfg t).filter fun c => !keep || old.any fun o => decide (o.max = c.max) with
    | none => some (((((u.csrSet csrVtype (2 ^ 63)).csrSet csrVl 0).csrSet csrVstart 0).setX (rd_ w) 0).next len)
    | some c =>
      let n := if keep then u.vl else if sel = 3 then min (rs1_ w) c.max else if rs1_ w = 0 then c.max else min (u.getX (rs1_ w)) c.max
      some (((((u.csrSet csrVtype t).csrSet csrVl n).csrSet csrVstart 0).setX (rd_ w) n).next len)

/-! ### Elements and masks -/

/-- Element `i` of `n` bytes of the group from register `r`, and that element set. -/
def Gcore.elem (u : Gcore) (r n i : Nat) : Nat := fieldAt (u.getV (r + i * n / 64)) (i * n % 64) n
def Gcore.setElem (u : Gcore) (r n i v : Nat) : Gcore :=
  let k := r + i * n / 64
  let b := u.getV k
  u.setV k (slice b 0 (i * n % 64) ++ le n v ++ b.drop (i * n % 64 + n))

/-- Bit `i` of a mask register, and that bit set. -/
def Gcore.maskBit (u : Gcore) (r i : Nat) : Bool := bit (u.elem r 1 (i / 8)) (i % 8)
def Gcore.setMask (u : Gcore) (r i : Nat) (v : Bool) : Gcore := u.setElem r 1 (i / 8) (setBit (u.elem r 1 (i / 8)) (i % 8) v)

/-- The instruction is unmasked; element `i` is active. -/
def unmasked (w : Nat) : Bool := bit w 25
def Gcore.acts (u : Gcore) (w i : Nat) : Bool := unmasked w || u.maskBit 0 i

/-- The body of an instruction: its active elements from vstart to vl. -/
def Gcore.body (u : Gcore) (w : Nat) : List Nat := (List.range u.vl).filter fun i => decide (u.vstart ≤ i) && u.acts w i

/-- The group's register number is a multiple of its size, and the group lies within the 32. -/
def groupOk (r : Nat) (lm : Int) : Bool := decide (-3 ≤ lm ∧ lm ≤ 3 ∧ r % regsOf lm = 0)

/-- A destination group of `2^dl` may lie over a source group of `2^sl` (V extension, 5.2): apart; of one element width; narrower, over the
source's lowest part; or wider, over which the source is the highest part. -/
def lapOk (d : Nat) (dl : Int) (dw : Nat) (s : Nat) (sl : Int) (sw : Nat) : Bool :=
  let dn := regsOf dl
  let sn := regsOf sl
  decide (d + dn ≤ s ∨ s + sn ≤ d) || decide (dw = sw) || decide (dw < sw ∧ d = s) || decide (sw < dw ∧ 0 ≤ sl ∧ d + dn = s + sn)

/-- Two groups lie apart. -/
def apart (d : Nat) (dl : Int) (s : Nat) (sl : Int) : Bool := decide (d + regsOf dl ≤ s ∨ s + regsOf sl ≤ d)

/-! ### Ends -/

/-- A vector instruction ends: vstart is zero. -/
def Gcore.vend (u : Gcore) (cost : Nat) : Option CoreAct := some ((u.csrSet csrVstart 0).next 4 cost)

/-- Cycles of vector arithmetic, and of a reduction (Table 6-2). -/
def VCfg.cost (c : VCfg) : Nat := regsOf c.lm
def VCfg.redCost (c : VCfg) : Nat := regsOf c.lm + 2 * (6 - c.sw)

/-- Elements of `n` bytes written over the body with the values and flags of `f`; the flags go to fflags. -/
def Gcore.vecF (u : Gcore) (w r n : Nat) (f : Nat → Nat × Nat) : Gcore :=
  (u.body w).foldl (fun t i => let e := f i; (t.setElem r n i e.1).flag e.2) u

/-- Likewise with no flags, and with saturation that goes to vxsat. -/
def Gcore.vec (u : Gcore) (w r n : Nat) (f : Nat → Nat) : Gcore := (u.body w).foldl (fun t i => t.setElem r n i (f i)) u
def Gcore.vecS (u : Gcore) (w r n : Nat) (f : Nat → Nat × Bool) : Gcore :=
  (u.body w).foldl (fun t i =>
    let e := f i
    let t1 := t.setElem r n i e.1
    if e.2 then t1.csrSet csrVcsr (t1.csrGet csrVcsr / 2 * 2 + 1) else t1) u

/-- Mask bits written over the body. -/
def Gcore.vecM (u : Gcore) (w r : Nat) (f : Nat → Bool) : Gcore := (u.body w).foldl (fun t i => t.setMask r i (f i)) u

/-! ### Integer arithmetic -/

/-- What makes the ordinary forms illegal: a group out of place, an overlap, or a destination over the mask. -/
def plainOk (w : Nat) (dl : Int) (dw : Nat) (srcs : List (Nat × Int × Nat)) : Bool :=
  let d := rd_ w
  groupOk d dl && (unmasked w || decide (d ≠ 0)) && srcs.all fun e => groupOk e.1 e.2.1 && lapOk d dl dw e.1 e.2.1 e.2.2

/-- The same for a mask as the destination, which may be v0, and may lie over a source's lowest register. -/
def maskOk (w : Nat) (srcs : List (Nat × Int × Nat)) : Bool :=
  srcs.all fun e => groupOk e.1 e.2.1 && (apart (rd_ w) 0 e.1 e.2.1 || decide (rd_ w = e.1))

/-- Rounding of a shift right in mode vxrm: to nearest up, nearest even, down, odd. -/
def vxRound (m : Nat) (v : Int) (sh : Nat) : Int :=
  let q := v / 2 ^ sh
  let r := (v % 2 ^ sh).toNat
  let up := match m with
    | 0 => decide (r ≠ 0 ∧ 2 ^ sh ≤ 2 * r)
    | 1 => decide (2 ^ sh < 2 * r ∨ (r ≠ 0 ∧ 2 * r = 2 ^ sh ∧ q % 2 = 1))
    | 2 => false
    | _ => decide (r ≠ 0 ∧ q % 2 = 0)
  if up then q + 1 else q

/-- A value brought within a signed or unsigned width, and whether it was outside. -/
def satTo (n : Nat) (signed : Bool) (v : Int) : Nat × Bool :=
  let lo : Int := if signed then -2 ^ (n - 1) else 0
  let hi : Int := if signed then 2 ^ (n - 1) - 1 else 2 ^ n - 1
  if v < lo then (ofInt n lo, true) else if hi < v then (ofInt n hi, true) else (ofInt n v, false)

/-- A comparison of funct6 24 to 31. -/
def vcmp (n f6 a b : Nat) : Bool :=
  let x := toInt n a
  let y := toInt n b
  match f6 with
  | 24 => a == b
  | 25 => a != b
  | 26 => decide (a < b)
  | 27 => decide (x < y)
  | 28 => decide (a ≤ b)
  | 29 => decide (x ≤ y)
  | 30 => decide (b < a)
  | _ => decide (y < x)

/-- The operations of one element from two: a from vs2, b from vs1, the register or the immediate. -/
def vOp (n f6 a b : Nat) : Option Nat :=
  let x := toInt n a
  let y := toInt n b
  let sh := b % n
  match f6 with
  | 0 => some ((a + b) % 2 ^ n)
  | 2 => some (ofInt n ((a : Int) - b))
  | 3 => some (ofInt n ((b : Int) - a))
  | 4 => some (min a b)
  | 5 => some (if x < y then a else b)
  | 6 => some (max a b)
  | 7 => some (if x < y then b else a)
  | 9 => some (a &&& b)
  | 10 => some (a ||| b)
  | 11 => some (a ^^^ b)
  | 37 => some (a * 2 ^ sh % 2 ^ n)
  | 40 => some (a / 2 ^ sh)
  | 41 => some (ofInt n (x / 2 ^ sh))
  | _ => none

/-- The second operand of an integer instruction at an element of `n` bytes: a vector element, x, or the immediate. -/
def Gcore.opB (u : Gcore) (w n i : Nat) : Nat :=
  match fn3 w with
  | 0 | 2 => u.elem (rs1_ w) n i
  | 3 => ofInt (8 * n) (toInt 5 (rs1_ w))
  | _ => u.getX (rs1_ w) % 2 ^ (8 * n)

/-- The group of the second operand where it is a vector. -/
def srcB (w : Nat) (lm : Int) (sw : Nat) : List (Nat × Int × Nat) := if fn3 w < 3 then [(rs1_ w, lm, sw)] else []

/-- An index or a shift amount: x whole, or the immediate unsigned. -/
def Gcore.amount (u : Gcore) (w : Nat) : Nat := if fn3 w = 3 then rs1_ w else u.getX (rs1_ w)

/-- Instructions of the OPIVV, OPIVX and OPIVI formats. -/
def vecInt (u : Gcore) (c : VCfg) (w : Nat) : Option CoreAct :=
  let f6 := wf w 31 26
  let f3 := fn3 w
  let d := rd_ w
  let s2 := rs2_ w
  let n := c.bytes
  let k := c.bits
  let a i := u.elem s2 n i
  let b i := u.opB w n i
  let wide i := u.elem s2 (2 * n) i
  let two := (s2, c.lm, c.sw) :: srcB w c.lm c.sw
  let rm := u.csrGet csrVcsr / 2 % 4
  let forms (l : List Nat) := l.contains f3
  let sub := decide (f6 = 18 ∨ f6 = 19)
  let carry i : Nat := if unmasked w then 0 else (u.maskBit 0 i).toNat
  let all (t : Gcore) (f : Gcore → Nat → Gcore) := ((List.range u.vl).filter fun i => decide (u.vstart ≤ i)).foldl f t
  match f6 with
  | 0 | 2 | 3 | 4 | 5 | 6 | 7 | 9 | 10 | 11 | 37 | 40 | 41 =>
    let ok := if f6 = 3 then forms [3, 4] else if f6 = 2 ∨ (4 ≤ f6 ∧ f6 ≤ 7) then forms [0, 4] else true
    let shift := decide (37 ≤ f6 ∧ f3 = 3)
    if ok && plainOk w c.lm c.sw two then
      (u.vec w d n fun i => (vOp k f6 (a i) (if shift then rs1_ w else b i)).getD 0).vend c.cost
    else none
  | 12 =>
    if groupOk d c.lm && groupOk s2 c.lm && apart d c.lm s2 c.lm && (f3 ≠ 0 || (groupOk (rs1_ w) c.lm && apart d c.lm (rs1_ w) c.lm)) &&
        (unmasked w || d ≠ 0) then
      (u.vec w d n fun i => let j := if f3 = 0 then b i else u.amount w; if j < c.max then a j else 0).vend c.cost
    else none
  | 14 =>
    if f3 = 0 then
      let il := c.lm + 1 - c.sw
      if groupOk d c.lm && groupOk s2 c.lm && apart d c.lm s2 c.lm && groupOk (rs1_ w) il && apart d c.lm (rs1_ w) il && (unmasked w || d ≠ 0) then
        (u.vec w d n fun i => let j := u.elem (rs1_ w) 2 i; if j < c.max then a j else 0).vend c.cost
      else none
    else if groupOk d c.lm && groupOk s2 c.lm && apart d c.lm s2 c.lm && (unmasked w || d ≠ 0) then
      let o := u.amount w
      (((u.body w).filter fun i => decide (o ≤ i)).foldl (fun t i => t.setElem d n i (a (i - o))) u).vend c.cost
    else none
  | 15 =>
    if f3 ≠ 0 ∧ plainOk w c.lm c.sw [(s2, c.lm, c.sw)] then
      (u.vec w d n fun i => let j := i + u.amount w; if j < c.max then a j else 0).vend c.cost
    else none
  | 16 | 18 =>
    if unmasked w || (sub && f3 = 3) || d = 0 || !(groupOk d c.lm && two.all fun e => groupOk e.1 c.lm) then none
    else (all u fun t i => t.setElem d n i
      (if sub then ofInt k ((a i : Int) - b i - (u.maskBit 0 i).toNat) else (a i + b i + (u.maskBit 0 i).toNat) % 2 ^ k)).vend c.cost
  | 17 | 19 =>
    if (sub && f3 = 3) || !maskOk w two then none
    else (all u fun t i => t.setMask d i (if sub then decide (a i < b i + carry i) else decide (2 ^ k ≤ a i + b i + carry i))).vend c.cost
  | 23 =>
    if (unmasked w && s2 ≠ 0) || (!unmasked w && d = 0) || !(groupOk d c.lm && two.all fun e => groupOk e.1 c.lm) then none
    else (all u fun t i => t.setElem d n i (if unmasked w || u.maskBit 0 i then b i else a i)).vend c.cost
  | 24 | 25 | 26 | 27 | 28 | 29 | 30 | 31 =>
    let ok := if f6 = 26 ∨ f6 = 27 then forms [0, 4] else if 30 ≤ f6 then forms [3, 4] else true
    if ok && maskOk w two then (u.vecM w d fun i => vcmp k f6 (a i) (b i)).vend c.cost else none
  | 32 | 33 | 34 | 35 =>
    if (34 ≤ f6 && f3 = 3) || !plainOk w c.lm c.sw two then none
    else (u.vecS w d n fun i =>
      let s := decide (f6 % 2 = 1)
      let x : Int := if s then toInt k (a i) else a i
      let y : Int := if s then toInt k (b i) else b i
      satTo k s (if f6 < 34 then x + y else x - y)).vend c.cost
  | 39 =>
    if f3 = 3 then
      let m := rs1_ w + 1
      if [1, 2, 4, 8].contains m && unmasked w && d % m = 0 && s2 % m = 0 then
        ((List.range m).foldl (fun t i => t.setV (d + i) (u.getV (s2 + i))) u).vend m
      else none
    else if plainOk w c.lm c.sw two then
      (u.vecS w d n fun i => satTo k true (vxRound rm (toInt k (a i) * toInt k (b i)) (k - 1))).vend c.cost
    else none
  | 42 | 43 =>
    if plainOk w c.lm c.sw two then
      (u.vec w d n fun i => ofInt k (vxRound rm (if f6 = 42 then (a i : Int) else toInt k (a i)) ((if f3 = 3 then rs1_ w else b i) % k))).vend c.cost
    else none
  | 44 | 45 | 46 | 47 =>
    let sh i := (if f3 = 3 then rs1_ w else b i) % (2 * k)
    let v i : Int := if f6 % 2 = 1 then toInt (2 * k) (wide i) else wide i
    if 3 ≤ c.sw ∨ !plainOk w c.lm c.sw ((s2, c.lm + 1, c.sw + 1) :: srcB w c.lm c.sw) then none
    else if f6 < 46 then (u.vec w d n fun i => ofInt k (v i / 2 ^ sh i)).vend (2 * c.cost)
    else (u.vecS w d n fun i => satTo k (f6 = 47) (vxRound rm (v i) (sh i))).vend (2 * c.cost)
  | 48 | 49 =>
    if f3 ≠ 0 ∨ 3 ≤ c.sw ∨ u.vstart ≠ 0 ∨ !groupOk s2 c.lm then none
    else
      let ext v : Int := if f6 = 49 then toInt k v else (v : Nat)
      let r := (u.body w).foldl (fun x i => x + ext (a i)) (u.elem (rs1_ w) (2 * n) 0 : Int)
      (if u.vl = 0 then u else u.setElem d (2 * n) 0 (ofInt (2 * k) r)).vend c.redCost
  | _ => none

/-- One step of an integer reduction. -/
def redOp (n f6 a b : Nat) : Nat :=
  match f6 with
  | 0 => (a + b) % 2 ^ n
  | 1 => a &&& b
  | 2 => a ||| b
  | 3 => a ^^^ b
  | 4 => min a b
  | 5 => if toInt n a < toInt n b then a else b
  | 6 => max a b
  | _ => if toInt n a < toInt n b then b else a

/-- Multiplication and division of elements (32 to 39). -/
def vMul (n f6 a b : Nat) : Nat :=
  match f6 with
  | 32 => mulDiv n 5 a b
  | 33 => mulDiv n 4 a b
  | 34 => mulDiv n 7 a b
  | 35 => mulDiv n 6 a b
  | 36 => mulDiv n 3 a b
  | 37 => mulDiv n 0 a b
  | 38 => mulDiv n 2 a b
  | _ => mulDiv n 1 a b

/-- Mask-register logic (24 to 31). -/
def maskOp (f6 : Nat) (a b : Bool) : Bool :=
  match f6 with
  | 24 => a && !b
  | 25 => a && b
  | 26 => a || b
  | 27 => a != b
  | 28 => a || !b
  | 29 => !(a && b)
  | 30 => !(a || b)
  | _ => a == b

/-- The mask instructions of VMUNARY0 and VWXUNARY0: set before first, only first, including first; iota, index. -/
def vecMaskUnary (u : Gcore) (c : VCfg) (w : Nat) : Option CoreAct :=
  let d := rd_ w
  let s2 := rs2_ w
  let on := (u.body w).filter fun i => u.maskBit s2 i
  let first := on.headD u.vl
  match rs1_ w with
  | 1 | 2 | 3 =>
    if u.vstart ≠ 0 ∨ d = s2 ∨ (!unmasked w ∧ d = 0) then none
    else (u.vecM w d fun i => if rs1_ w = 1 then decide (i < first) else if rs1_ w = 2 then decide (i = first) else decide (i ≤ first)).vend c.cost
  | 16 =>
    if u.vstart ≠ 0 ∨ !groupOk d c.lm ∨ !apart d c.lm s2 0 ∨ (!unmasked w ∧ d = 0) then none
    else (u.vec w d c.bytes fun i => (on.filter fun j => decide (j < i)).length % 2 ^ c.bits).vend c.cost
  | 17 =>
    if s2 ≠ 0 ∨ !groupOk d c.lm ∨ (!unmasked w ∧ d = 0) then none else (u.vec w d c.bytes fun i => i % 2 ^ c.bits).vend c.cost
  | _ => none

/-- Instructions of the OPMVV and OPMVX formats. -/
def vecMul (u : Gcore) (c : VCfg) (w : Nat) : Option CoreAct :=
  let f6 := wf w 31 26
  let vv := decide (fn3 w = 2)
  let d := rd_ w
  let s1 := rs1_ w
  let s2 := rs2_ w
  let n := c.bytes
  let k := c.bits
  let a i := u.elem s2 n i
  let b i := u.opB w n i
  let sb v := toInt k v
  let two := (s2, c.lm, c.sw) :: srcB w c.lm c.sw
  let rm := u.csrGet csrVcsr / 2 % 4
  let wider := decide (c.sw < 3) && plainOk w (c.lm + 1) (c.sw + 1) two
  match f6 with
  | 0 | 1 | 2 | 3 | 4 | 5 | 6 | 7 =>
    if !vv ∨ u.vstart ≠ 0 ∨ !groupOk s2 c.lm then none
    else (if u.vl = 0 then u else u.setElem d n 0 ((u.body w).foldl (fun x i => redOp k f6 (a i) x) (u.elem s1 n 0))).vend c.redCost
  | 8 | 9 | 10 | 11 =>
    if !plainOk w c.lm c.sw two then none
    else (u.vec w d n fun i =>
      let x : Int := if f6 % 2 = 1 then sb (a i) else a i
      let y : Int := if f6 % 2 = 1 then sb (b i) else b i
      ofInt k (vxRound rm (if f6 < 10 then x + y else x - y) 1)).vend c.cost
  | 14 =>
    if vv ∨ !groupOk d c.lm ∨ !groupOk s2 c.lm ∨ !apart d c.lm s2 c.lm ∨ (!unmasked w ∧ d = 0) then none
    else (u.vec w d n fun i => if i = 0 then u.getX s1 % 2 ^ k else a (i - 1)).vend c.cost
  | 15 =>
    if vv ∨ !plainOk w c.lm c.sw [(s2, c.lm, c.sw)] then none
    else (u.vec w d n fun i => if i + 1 = u.vl then u.getX s1 % 2 ^ k else a (i + 1)).vend c.cost
  | 16 =>
    if vv then
      let on := (u.body w).filter fun i => u.maskBit s2 i
      match s1 with
      | 0 => if unmasked w then (u.setX d (ofInt 64 (sb (a 0)))).vend 1 else none
      | 16 => if u.vstart ≠ 0 then none else (u.setX d on.length).vend c.redCost
      | 17 => if u.vstart ≠ 0 then none else (u.setX d ((on.head?).getD (2 ^ 64 - 1))).vend c.redCost
      | _ => none
    else if s2 ≠ 0 ∨ !unmasked w then none
    else (if u.vl ≤ u.vstart then u else u.setElem d n 0 (u.getX s1 % 2 ^ k)).vend 1
  | 18 =>
    let sh := 4 - s1 / 2
    if !vv ∨ s1 < 2 ∨ 7 < s1 ∨ c.sw < sh ∨ !plainOk w c.lm c.sw [(s2, c.lm - sh, c.sw - sh)] then none
    else (u.vec w d n fun i =>
      let v := u.elem s2 (n / 2 ^ sh) i
      if s1 % 2 = 1 then ofInt k (toInt (k / 2 ^ sh) v) else v).vend c.cost
  | 20 => if vv then vecMaskUnary u c w else none
  | 23 =>
    if !vv ∨ !unmasked w ∨ u.vstart ≠ 0 ∨ !groupOk d c.lm ∨ !groupOk s2 c.lm ∨ !apart d c.lm s2 c.lm ∨ !apart d c.lm s1 0 then none
    else ((((List.range u.vl).filter fun i => u.maskBit s1 i).zipIdx).foldl (fun t e => t.setElem d n e.2 (a e.1)) u).vend c.cost
  | 24 | 25 | 26 | 27 | 28 | 29 | 30 | 31 =>
    if !vv ∨ !unmasked w then none else (u.vecM w d fun i => maskOp f6 (u.maskBit s2 i) (u.maskBit s1 i)).vend 1
  | 32 | 33 | 34 | 35 | 36 | 37 | 38 | 39 =>
    if plainOk w c.lm c.sw two then (u.vec w d n fun i => vMul k f6 (a i) (b i)).vend c.cost else none
  | 41 | 43 | 45 | 47 =>
    if !plainOk w c.lm c.sw two then none
    else (u.vec w d n fun i =>
      let v := u.elem d n i
      let p : Int := if f6 < 44 then ((b i * v : Nat) : Int) else ((b i * a i : Nat) : Int)
      let z : Int := if f6 < 44 then ((a i : Nat) : Int) else ((v : Nat) : Int)
      ofInt k (if f6 = 41 ∨ f6 = 45 then z + p else z - p)).vend c.cost
  | 48 | 49 | 50 | 51 =>
    if !wider then none
    else (u.vec w d (2 * n) fun i =>
      let x : Int := if f6 % 2 = 1 then sb (a i) else a i
      let y : Int := if f6 % 2 = 1 then sb (b i) else b i
      ofInt (2 * k) (if f6 < 50 then x + y else x - y)).vend (2 * c.cost)
  | 52 | 53 | 54 | 55 =>
    if 3 ≤ c.sw ∨ !plainOk w (c.lm + 1) (c.sw + 1) ((s2, c.lm + 1, c.sw + 1) :: srcB w c.lm c.sw) then none
    else (u.vec w d (2 * n) fun i =>
      let y : Int := if f6 % 2 = 1 then sb (b i) else b i
      ofInt (2 * k) (if f6 < 54 then u.elem s2 (2 * n) i + y else u.elem s2 (2 * n) i - y)).vend (2 * c.cost)
  | 56 | 58 | 59 | 60 | 61 | 62 | 63 =>
    if !wider ∨ (f6 = 62 ∧ vv) then none
    else (u.vec w d (2 * n) fun i =>
      let x : Int := if [56, 60, 63].contains f6 then a i else sb (a i)
      let y : Int := if [56, 58, 60, 62].contains f6 then b i else sb (b i)
      ofInt (2 * k) (if f6 < 60 then x * y else x * y + u.elem d (2 * n) i)).vend (2 * c.cost)
  | _ => none

/-! ### FP arithmetic -/

/-- The 7-bit estimates: 2/x − 1 and 2/√x − 1 at the middle of each interval, in 128ths to the nearest. -/
def recipBits (i : Nat) : Nat := let d := 257 + 2 * i; ((65536 - 128 * d) * 2 + d) / (2 * d)
def rsqrtBits (odd : Bool) (i : Nat) : Nat := (isqrt 20 (4 * 65536 * 128 / ((129 + 2 * i) * if odd then 1 else 2)) 0 + 1) / 2 - 128

/-- A nonzero finite code's exponent field as if it were normal, and its fraction. -/
def normal (f : Fmt) (c : Nat) : Int × Nat :=
  let g := f.mag c
  let x := g / 2 ^ f.mb
  if x = 0 then
    let lz := f.mb - bitLen g
    (-(lz : Int), g * 2 ^ (lz + 1) % 2 ^ f.mb)
  else (x, g % 2 ^ f.mb)

/-- vfrec7. -/
def fRec7 (f : Fmt) (rm c : Nat) : Nat × Nat :=
  let n := f.neg c
  let g := f.mag c
  let bias : Nat := 2 ^ (f.bits - 2 - f.mb) - 1
  if (f.decode c).isNan then (f.quiet, if f.signals c then 16 else 0)
  else if f.infc = some g then (f.code n 0, 0)
  else if g = 0 then (f.code n (f.infc.getD 0), 8)
  else
    let e := normal f c
    if e.1 < -1 then
      let top := decide (rm = 1) || decide (rm = 2 ∧ n = false) || decide (rm = 3 ∧ n = true)
      (f.code n (if top then f.maxc else f.infc.getD 0), 5)
    else
      let s := recipBits (e.2 / 2 ^ (f.mb - 7)) * 2 ^ (f.mb - 7)
      let x : Int := 2 * bias - 1 - e.1
      let g := if x = 0 then (s + 2 ^ f.mb) / 2 else if x = -1 then (s + 2 ^ f.mb) / 4 else x.toNat * 2 ^ f.mb + s
      (f.code n g, 0)

/-- vfrsqrt7. -/
def fRsqrt7 (f : Fmt) (c : Nat) : Nat × Nat :=
  let n := f.neg c
  let g := f.mag c
  let bias : Nat := 2 ^ (f.bits - 2 - f.mb) - 1
  if (f.decode c).isNan then (f.quiet, if f.signals c then 16 else 0)
  else if g = 0 then (f.code n (f.infc.getD 0), 8)
  else if n then (f.quiet, 16)
  else if f.infc = some g then (0, 0)
  else
    let e := normal f c
    let s := rsqrtBits (e.1 % 2 = 1) (e.2 / 2 ^ (f.mb - 6)) * 2 ^ (f.mb - 7)
    let x : Int := (3 * bias - 1 - e.1) / 2
    (x.toNat * 2 ^ f.mb + s, 0)

/-- The format of an FP element, where there is one (Table 6-1). -/
def fmtAt (sw : Nat) : Option Fmt := if sw = 2 then some fFP32 else if sw = 3 then some fFP64 else none

/-- Conversions (VFUNARY0): single width 0 to 7, widening 8 to 15, narrowing 16 to 23. -/
def vecConvert (u : Gcore) (c : VCfg) (w rm : Nat) : Option CoreAct :=
  let v := rs1_ w
  let ty := v % 8
  let sw2 := if v / 8 = 2 then c.sw + 1 else c.sw
  let swd := if v / 8 = 1 then c.sw + 1 else c.sw
  let lm2 := if v / 8 = 2 then c.lm + 1 else c.lm
  let lmd := if v / 8 = 1 then c.lm + 1 else c.lm
  let src i := u.elem (rs2_ w) (2 ^ sw2) i
  let k2 := 8 * 2 ^ sw2
  let kd := 8 * 2 ^ swd
  if 24 ≤ v ∨ 3 < sw2 ∨ 3 < swd ∨ !plainOk w lmd swd [(rs2_ w, lm2, sw2)] then none
  else
    let out (f : Nat → Nat × Nat) : Option CoreAct := (u.vecF w (rd_ w) (2 ^ swd) f).vend (regsOf lmd)
    match ty, fmtAt sw2, fmtAt swd with
    | 0, some f, _ => out fun i => toInteger rm kd false (f.decode (src i))
    | 1, some f, _ => out fun i => toInteger rm kd true (f.decode (src i))
    | 6, some f, _ => out fun i => toInteger 1 kd false (f.decode (src i))
    | 7, some f, _ => out fun i => toInteger 1 kd true (f.decode (src i))
    | 2, _, some t => out fun i => t.pack rm (Num.ofInt (src i : Nat))
    | 3, _, some t => out fun i => t.pack rm (Num.ofInt (toInt k2 (src i)))
    | 4, some f, some t => if v / 8 = 0 then none else out fun i => convert f t rm (src i)
    | 5, some f, some t => if v / 8 = 2 then out fun i => convert f t 5 (src i) else none
    | _, _, _ => none

/-- A multiply-add by funct6: signs of product and addend; and whether the destination is a factor (40 to 43) or the addend. -/
def fmaSigns (f6 : Nat) : Bool × Bool :=
  match f6 % 4 with
  | 0 => (false, false)
  | 1 => (true, true)
  | 2 => (false, true)
  | _ => (true, false)

/-- The arithmetic of two operands: a from vs2, b from vs1 or f. -/
def vfOp (f : Fmt) (rm f6 a b : Nat) : Option (Nat × Nat) :=
  match f6 with
  | 0 => some (f.fadd rm a b)
  | 2 => some (f.fsub rm a b)
  | 4 => some (f.fminmax false a b)
  | 6 => some (f.fminmax true a b)
  | 8 => some (f.fsgnj 0 a b, 0)
  | 9 => some (f.fsgnj 1 a b, 0)
  | 10 => some (f.fsgnj 2 a b, 0)
  | 32 => some (f.fdiv rm a b)
  | 33 => some (f.fdiv rm b a)
  | 36 => some (f.fmul rm a b)
  | 39 => some (f.fsub rm b a)
  | _ => none

/-- FP comparisons to a mask. -/
def vfCmp (f : Fmt) (f6 a b : Nat) : Bool × Nat :=
  match f6 with
  | 24 => f.fcmp 2 a b
  | 25 => f.fcmp 0 a b
  | 27 => f.fcmp 1 a b
  | 28 => let r := f.fcmp 2 a b; (!r.1, r.2)
  | 29 => f.fcmp 1 b a
  | _ => f.fcmp 0 b a

/-- Instructions of the OPFVV and OPFVF formats at elements of format `f`. -/
def vecFp (u : Gcore) (c : VCfg) (f : Fmt) (w rm : Nat) : Option CoreAct :=
  let f6 := wf w 31 26
  let vv := decide (fn3 w = 1)
  let d := rd_ w
  let s1 := rs1_ w
  let s2 := rs2_ w
  let n := c.bytes
  let fs := unbox (c.sw = 3) (u.getF s1)
  let a i := u.elem s2 n i
  let b i := if vv then u.elem s1 n i else fs
  let two := (s2, c.lm, c.sw) :: srcB w c.lm c.sw
  let up v := (convert f fFP64 rm v).1
  let nan v := if f.signals v then 16 else 0
  let wideOk := decide (c.sw = 2)
  let wider := wideOk && plainOk w (c.lm + 1) (c.sw + 1) two
  let red (g : Fmt) (m : Nat) (h : Nat → Nat → Nat × Nat) : Option CoreAct :=
    let r := (u.body w).foldl (fun (x : Nat × Nat) i => let y := h x.1 (a i); (y.1, x.2 ||| y.2)) (u.elem s1 m 0, 0)
    if u.vstart ≠ 0 ∨ !groupOk s2 c.lm ∨ g.bits ≠ 8 * m then none
    else (if u.vl = 0 then u else (u.setElem d m 0 r.1).flag r.2).vend c.redCost
  let ws v := (fFP64.op rm [] false (f.decode v)).1
  match f6 with
  | 0 | 2 | 4 | 6 | 8 | 9 | 10 | 32 | 33 | 36 | 39 =>
    if (f6 % 2 = 1 ∧ f6 ≠ 9 ∧ vv) ∨ !plainOk w c.lm c.sw two then none
    else (u.vecF w d n fun i => (vfOp f rm f6 (a i) (b i)).getD (0, 0)).vend c.cost
  | 1 | 3 => if vv then red f n fun x v => f.fadd rm x v else none
  | 5 | 7 => if vv then red f n fun x v => f.fminmax (f6 = 7) x v else none
  | 14 =>
    if vv ∨ !groupOk d c.lm ∨ !groupOk s2 c.lm ∨ !apart d c.lm s2 c.lm ∨ (!unmasked w ∧ d = 0) then none
    else (u.vec w d n fun i => if i = 0 then fs else a (i - 1)).vend c.cost
  | 15 =>
    if vv ∨ !plainOk w c.lm c.sw [(s2, c.lm, c.sw)] then none
    else (u.vec w d n fun i => if i + 1 = u.vl then fs else a (i + 1)).vend c.cost
  | 16 =>
    if !unmasked w then none
    else if vv then (if s1 = 0 then (u.setF d (box (c.sw = 3) (a 0))).vend 1 else none)
    else if s2 ≠ 0 then none
    else (if u.vl ≤ u.vstart then u else u.setElem d n 0 fs).vend 1
  | 19 =>
    if !vv ∨ !plainOk w c.lm c.sw [(s2, c.lm, c.sw)] then none
    else match s1 with
    | 0 => (u.vecF w d n fun i => f.fsqrt rm (a i)).vend c.cost
    | 4 => (u.vecF w d n fun i => fRsqrt7 f (a i)).vend c.cost
    | 5 => (u.vecF w d n fun i => fRec7 f rm (a i)).vend c.cost
    | 16 => (u.vec w d n fun i => f.fclass (a i)).vend c.cost
    | _ => none
  | 23 =>
    if vv ∨ (unmasked w ∧ s2 ≠ 0) ∨ (!unmasked w ∧ d = 0) ∨ !groupOk d c.lm ∨ !groupOk s2 c.lm then none
    else (((List.range u.vl).filter fun i => decide (u.vstart ≤ i)).foldl
      (fun t i => t.setElem d n i (if unmasked w || u.maskBit 0 i then fs else a i)) u).vend c.cost
  | 24 | 25 | 27 | 28 | 29 | 31 =>
    if (vv ∧ (f6 = 29 ∨ f6 = 31)) ∨ !maskOk w two then none
    else ((u.body w).foldl (fun t i => let r := vfCmp f f6 (a i) (b i); (t.setMask d i r.1).flag r.2) u).vend c.cost
  | 40 | 41 | 42 | 43 | 44 | 45 | 46 | 47 =>
    let g := fmaSigns f6
    if !plainOk w c.lm c.sw two then none
    else (u.vecF w d n fun i =>
      let v := u.elem d n i
      if f6 < 44 then f.fma rm g.1 g.2 (b i) v (a i) else f.fma rm g.1 g.2 (b i) (a i) v).vend c.cost
  | 48 | 50 =>
    if !wider then none
    else (u.vecF w d (2 * n) fun i =>
      let r := if f6 = 48 then fFP64.fadd rm (up (a i)) (up (b i)) else fFP64.fsub rm (up (a i)) (up (b i))
      (r.1, r.2 ||| nan (a i) ||| nan (b i))).vend (2 * c.cost)
  | 49 | 51 => if vv && wideOk then red fFP64 (2 * n) fun x v => let r := fFP64.fadd rm x (ws v); (r.1, r.2 ||| nan v) else none
  | 52 | 54 =>
    if !wideOk ∨ !plainOk w (c.lm + 1) (c.sw + 1) ((s2, c.lm + 1, c.sw + 1) :: srcB w c.lm c.sw) then none
    else (u.vecF w d (2 * n) fun i =>
      let x := u.elem s2 (2 * n) i
      let r := if f6 = 52 then fFP64.fadd rm x (up (b i)) else fFP64.fsub rm x (up (b i))
      (r.1, r.2 ||| nan (b i))).vend (2 * c.cost)
  | 56 =>
    if !wider then none
    else (u.vecF w d (2 * n) fun i => let r := fFP64.fmul rm (up (a i)) (up (b i)); (r.1, r.2 ||| nan (a i) ||| nan (b i))).vend (2 * c.cost)
  | 60 | 61 | 62 | 63 =>
    let g := fmaSigns f6
    if !wider then none
    else (u.vecF w d (2 * n) fun i =>
      let r := fFP64.fma rm g.1 g.2 (up (b i)) (up (a i)) (u.elem d (2 * n) i)
      (r.1, r.2 ||| nan (a i) ||| nan (b i))).vend (2 * c.cost)
  | _ => none

/-! ### Loads and stores -/

/-- What a vector load or store accesses: its elements (bytes, how many), fields and the registers of one, where element `i` lies, and
whether it heeds the mask. -/
structure VMem where
  bytes : Nat
  count : Nat
  fields : Nat := 1
  regs : Nat := 1
  masked : Bool
  first : Bool := false
  deriving DecidableEq, Repr

/-- The element width of the `width` field, as a power of two of bytes; none where it is not a vector's. -/
def vWidth (f3 : Nat) : Option Nat :=
  match f3 with
  | 0 => some 0
  | 5 => some 1
  | 6 => some 2
  | 7 => some 3
  | _ => none

/-- The word is a vector load or store. -/
def isVMem (w : Nat) : Bool := decide (opc w = 0x07 ∨ opc w = 0x27) && (vWidth (fn3 w)).isSome

/-- The accesses of a vector load or store; none where it is illegal. -/
def Gcore.vmem (u : Gcore) (w : Nat) : Option VMem :=
  let nf := wf w 31 29 + 1
  let mop := wf w 27 26
  let um := rs2_ w
  let load := decide (opc w = 0x07)
  let masked := !unmasked w
  let d := rd_ w
  if !u.vecOn || bit w 28 then none
  else (vWidth (fn3 w)).bind fun ew =>
    if mop = 0 ∧ um = 8 then
      if unmasked w && [1, 2, 4, 8].contains nf && d % nf = 0 && (load || ew = 0) then
        some { bytes := 2 ^ ew, count := nf * 64 / 2 ^ ew, regs := nf, masked := false }
      else none
    else u.vcfg.bind fun c =>
      if mop = 0 ∧ um = 11 then
        if unmasked w && nf = 1 && ew = 0 then some { bytes := 1, count := (u.vl + 7) / 8, masked := false } else none
      else
        let dw := if mop % 2 = 1 then c.sw else ew
        let lm : Int := c.lm + dw - c.sw
        let il : Int := c.lm + ew - c.sw
        let ok := decide (mop ≠ 0 ∨ um = 0 ∨ (um = 16 ∧ load = true)) && groupOk d lm && decide (nf * regsOf lm ≤ 8 ∧ d + nf * regsOf lm ≤ 32) &&
          !(load && masked && decide (d = 0)) &&
          (mop % 2 = 0 || (groupOk um il && (!load || (if nf = 1 then lapOk d lm dw um il ew else decide (d + nf * regsOf lm ≤ um ∨ um + regsOf il ≤ d)))))
        if ok then some { bytes := 2 ^ dw, count := u.vl, fields := nf, regs := regsOf lm, masked := masked, first := decide (mop = 0 ∧ um = 16) }
        else none

/-- Where field `j` of element `i` lies. -/
def Gcore.vaddr (u : Gcore) (w : Nat) (m : VMem) (i j : Nat) : Nat :=
  let base := u.getX (rs1_ w)
  let o := match wf w 27 26 with
    | 0 => i * m.fields * m.bytes
    | 2 => i * u.getX (rs2_ w)
    | _ => u.elem (rs2_ w) (2 ^ (vWidth (fn3 w)).getD 0) i
  (base + o + j * m.bytes) % 2 ^ 64

/-- The next element that a vector load or store accesses, from vstart on. -/
def Gcore.vnext (u : Gcore) (m : VMem) : Option Nat :=
  (List.range m.count).find? fun i => decide (u.vstart ≤ i) && (!m.masked || u.maskBit 0 i)

/-- A vector load or store goes on with its next element, or ends. -/
def vmemAct (u : Gcore) (w : Nat) : Option CoreAct :=
  (u.vmem w).bind fun m =>
    match u.vnext m with
    | none => { u with field := 0 }.vend 1
    | some i =>
      let a := u.vaddr w m i u.field
      some (if opc w = 0x07 then .load a m.bytes else .store a (le m.bytes (u.elem (rd_ w + u.field * m.regs) m.bytes i)))

/-- An element has been accessed: a load's goes to its register, and vstart and the field move on. -/
def Gcore.vland (u : Gcore) (w : Nat) (d : Bytes) : Gcore :=
  match u.vmem w with
  | none => u
  | some m =>
    match u.vnext m with
    | none => u
    | some i =>
      let t := if opc w = 0x07 then u.setElem (rd_ w + u.field * m.regs) m.bytes i (unle d) else u
      if u.field + 1 < m.fields then { t with field := u.field + 1 }.csrSet csrVstart i
      else { t with field := 0 }.csrSet csrVstart (i + 1)

/-- A fault-only-first load that stops at an element past the first: the length ends there, and the program goes on. -/
def Gcore.vcut (u : Gcore) (w : Nat) : Option Gcore :=
  if !isVMem w then none
  else (u.vmem w).bind fun m => (u.vnext m).bind fun i =>
    if m.first ∧ 0 < i then
      some { ((u.csrSet csrVl i).csrSet csrVstart 0) with field := 0, fault := none, awaits := none, pc := plus u.pc 4, retired := u.retired + 1 }
    else none

/-! ### All vector instructions -/

/-- The vector instructions: what the word `w` does. A whole-register move needs no legal vtype. -/
def vecAct (u : Gcore) (w : Nat) : Option CoreAct :=
  if !u.vecOn then none
  else if isVMem w then vmemAct u w
  else if opc w ≠ 0x57 then none
  else if fn3 w = 7 then vset u w 4
  else
    let c := if wf w 31 26 = 39 ∧ fn3 w = 3 then some (u.vcfg.getD ⟨0, 0⟩) else u.vcfg
    c.bind fun c =>
      match fn3 w with
      | 0 | 3 | 4 => vecInt u c w
      | 2 | 6 => vecMul u c w
      | _ =>
        if !u.fpOn then none
        else (u.rmOf 7).bind fun rm =>
          if wf w 31 26 = 18 then (if fn3 w = 1 then vecConvert u c w rm else none)
          else (fmtAt c.sw).bind fun f => vecFp u c f w rm

end Sys2Proof.Machine
end

