-- ==== Sys2Proof/Machine/RvCore.lean ====
section
/-!
DEFINITION. Machine/RvCore.lean: a general core runs its program (R209, R213, R220): it fetches from its instruction store, and inside its
windows runs the instructions that have no command of their own, one at a time, each when the one before has completed (log
entry 134).
-/

namespace Sys2Proof.Machine

open Sys2Proof

/-- The program's text in the instruction store (Table 6-6): its length, and the 16 bits at an offset. -/
def gsTextLen (b : Bytes) : Nat := fieldAt b 0x0C 4
def gsText (b : Bytes) (o : Nat) : Nat := fieldAt b (fieldAt b 0x08 4 + o) 2

/-- The instruction at offset `pc`, as a 32-bit word (0, which is illegal, for a reserved 16-bit form), and its length; or where no text
is. -/
def fetchAt (b : Bytes) (pc : Nat) : Sum (Nat × Nat) Nat :=
  let n := gsTextLen b
  if n < pc + 2 then .inr pc
  else
    let h := gsText b pc
    if h % 4 ≠ 3 then .inl ((expandC h).getD 0, 2)
    else if n < pc + 4 then .inr (pc + 2)
    else .inl (h + 2 ^ 16 * gsText b (pc + 2), 4)

/-- ngvid (Table 6-5): logical core, cluster, Riser within its partition, partition. -/
def State.coreIdent (s : State) (g : Nat) : Nat :=
  let p := s.gcPart g
  g % 8 + g / 8 % 10 * 8 + (s.risersOf p).idxOf (g / 80) * 2 ^ 7 + p * 2 ^ 10

/-- Core cycles left of the window the core is in (ngvwin). -/
def State.cyclesLeft (s : State) (g : Nat) : Nat :=
  let u := s.gc g
  if u.inWindow then s.winLast (s.gcPart g) u.period (gsWindow (s.gcProg g) u.win) + 1 - s.cycles else 0

/-- An access of the program is outstanding, which FENCE waits for. -/
def State.coreBusy (s : State) (g : Nat) : Bool := s.hall.reqs.any fun e => decide (e.2.src = pgGcore g) && !e.2.machine

def State.coreEnv (s : State) (g : Nat) : CoreEnv :=
  { cycle := s.cycles, time := s.time.ticks, left := s.cyclesLeft g, ident := s.coreIdent g, busy := s.coreBusy g }

/-- What an instruction without a row does; illegal where it is none of the core's. -/
def coreAct (env : CoreEnv) (u : Gcore) (w len : Nat) : CoreAct :=
  ((intAct env u w len).orElse fun _ => (fpAct u w len).orElse fun _ => if len = 4 then vecAct u w else none).getD CoreAct.illegal

/-- An exception, or the end of a fault-only-first load. -/
def State.coreTrap (s : State) (g cause tval w : Nat) : State :=
  match (s.gc g).vcut w with
  | some u => if cause = 4 ∨ cause = 5 then s.modGc g fun _ => u else s.userTrap g cause tval
  | none => s.userTrap g cause tval

/-- The instruction at the program counter is run. A load or a store that leaves its 64-byte sector is misaligned (Table 6-1); else its
request is issued, and the core waits for it: a store goes as WRITE_SHORT. -/
def State.coreStep (s : State) (g : Nat) : State :=
  let u := s.gc g
  match fetchAt (s.gcProg g) u.pc with
  | .inr a => s.userTrap g 1 a
  | .inl (w, len) =>
    if hasRow w then s
    else match coreAct (s.coreEnv g) u w len with
    | .done v cost => s.modGc g fun _ =>
        { v with ready := s.cycles + cost, mid := false, entry := none, pc := if u.mid then u.entry.getD v.pc else v.pc }
    | .trap c t => match t with
      | some t => s.userTrap g c t
      | none => s.openTrap g c
    | .load a n => if crossesSector a n then s.coreTrap g 4 a w else (s.gcAccess g 5 w (len = 4) false (s.gcReq g 0x01 0 a n 0 0)).modGc g fun u => { u with mid := isVMem w }
    | .store a d =>
      if crossesSector a d.length then s.userTrap g 6 a
      else (s.gcAccess g 6 w (len = 4) false { s.gcReq g 0x03 0 a d.length 0 0 with data := d }).modGc g fun u =>
        { u with mid := isVMem w }
    | .stay => s

/-- The registers once an access that the word `w`, of `len` bytes, made is answered with `d`. -/
def Gcore.landed (u : Gcore) (w len : Nat) (d : Bytes) : Gcore :=
  if isVMem w then u.vland w d
  else
    let t := if opc w = 0x03 then u.setX (rd_ w) (loaded (fn3 w) d) else if opc w = 0x07 then u.setF (rd_ w) (loadedF (fn3 w) d) else u
    { t with pc := plus u.pc len, retired := u.retired + 1 }

/-- The core takes the answer of its access, once it is there: the instruction ends, but where a window with RESTART has begun since the
program counter stays (R221). -/
def State.coreLand (s : State) (g : Nat) : State :=
  match (s.gc g).awaits with
  | none => s
  | some x =>
    match s.hall.done.find? fun e => decide (e.1 = x.id) with
    | none => s
    | some e => (s.modHall fun h => { h with done := adel x.id h.done }).modGc g fun u =>
        let t := u.landed x.rd (if x.wide then 4 else 2) e.2.data
        let k := u.csrGet csrVstart
        { (if x.moved then { t with pc := u.pc, field := 0 }.csrSet csrVstart k else t) with awaits := none, ready := s.cycles + 1 }

/-- A core cycle of general core `g`: a fault that waits is taken, an access under way completed, or the next instruction run inside the
window; a vector load or store in progress as its window ends is completed (R221). -/
def State.runCore (s : State) (g : Nat) : State :=
  let u := s.gc g
  if (u.patrol ∧ !u.mid) ∨ u.stopped ∨ s.out (pgGcore g) ∨ s.gcProg g = [] then s
  else match u.fault with
  | some f => s.coreTrap g f.1 f.2 (match fetchAt (s.gcProg g) u.pc with
    | .inl e => e.1
    | .inr _ => 0)
  | none =>
    if u.awaits.any fun x => decide (x.kind = 5 ∨ x.kind = 6) then s.coreLand g
    else if s.gcRuns g ∧ u.ready ≤ s.cycles ∧ (s.cyclesLeft g ≠ 0 ∨ u.mid) then s.coreStep g
    else if u.mid ∧ !u.inWindow ∧ u.awaits.isNone ∧ u.ready ≤ s.cycles then s.coreStep g
    else s

/-- All general cores over a core cycle. -/
def State.runCores (s : State) : State := (s.gcores.map fun e => e.1).foldl State.runCore s

end Sys2Proof.Machine
end

