-- ==== Sys2Proof/Machine/Tick.lean ====
section
/-!
DEFINITION. Machine/Tick.lean: the passing of 0.8 ns when no command waits, and what units that run
by the clock have done by then.
-/

namespace Sys2Proof.Machine

open Sys2Proof

/-- What the synthesiser moves the tick edge by in a slot, fs (Table 2-2, R48): on REFCLK in FREE; at the last filtered
frequency; in LOCKED, and in HOLDOVER once it slews, with the correction due besides, at most 2 ps in all. -/
def TimeUnit.move (u : TimeUnit) : Int :=
  let slew := max (-2000) (min 2000 (u.freq + u.owe))
  match u.state with
  | .free => 0
  | .locked => slew
  | .holdover => if u.slewing then slew else u.freq
  | .acquire | .lost => u.freq

/-- The time unit over one slot of slewing: the tick edge moves; 800 ps of it are a tick that the counter gains or loses against
REFCLK. -/
def TimeUnit.slew (u : TimeUnit) : TimeUnit :=
  let due := match u.state with | .locked => true | .holdover => u.slewing | _ => false
  let ph := u.phase + u.move
  { u with owe := if due then u.owe - (u.move - u.freq) else u.owe, phase := ph % 800000, lead := u.lead + ph / 800000 }

/-- The time unit over one tick of its counter: the counter, and the slot and epoch boundaries it
passes through (R42, R658). -/
def TimeUnit.advance (u : TimeUnit) : TimeUnit :=
  let t := (u.ticks + 1) % 2 ^ 64
  let v := { u with
    ticks := t
    slots := if t % 256 = 0 then u.slots + 1 else u.slots
    epochs := if t % 2 ^ 20 = 0 then u.epochs + 1 else u.epochs }
  if t % 256 = 0 then v.slew else v

/-- The units whose FENCE was written are fenced (R621: cycle 0 of the next slot). -/
def State.fenceNow (s : State) : State :=
  if s.fences.isEmpty then s
  else ({ s.fences.foldl State.fenceUnit s with fences := [] }).redescribe

/-- What matrix cores and movers have streamed by the last finished cycle. -/
def State.settleAll (s : State) : State :=
  let h := s.cycles - 1
  let s1 := (s.mxs.map fun e => e.1).foldl (fun s m => s.settleMx m h) s
  (s1.movers.map fun e => e.1).foldl (fun s m => s.settleMover m h) s1

/-- Movers whose next period begins (R162, R255). -/
def State.restartAll (s : State) : State := (s.movers.map fun e => e.1).foldl State.restartMover s

/-- The first tick of an epoch: what was prepared for its boundary is in force (log entry 8); a HOLD_N still low is told. -/
def State.epochNow (s : State) : State :=
  if s.time.ticks % 2 ^ 20 = 0 then
    (if s.time.prepared = s.time.epochs then s.crossBoundary (s.epoch - 1) else s).notePinHold
  else s

/-- A core cycle is over and the next begins: what the bulk network carried in the one over is counted (R232, R237), what its
coincidences were kept for is dropped (R13, R15), and streams have come to its end. At the start of an epoch its boundary is crossed, at
the start of a slot fences take effect; then banks are taken by scheduled ports and granted to accesses that wait (R200), and general
cores run their programs (R220). -/
def State.nextCycle (s : State) : State :=
  let s1 := { s.countNet s.cycles with hot := [] }
  let s2 := { s1 with time := s1.time.advance }.settleAll
  (if s2.time.ticks % 256 = 0 then s2.epochNow.fenceNow else s2).restartAll.schedBanks.grantBanks.runCores

/-- The counter goes to its next tick, which begins a core cycle or lies in the same one. -/
def State.nextTick (s : State) : State :=
  let s1 := { s with time := s.time.advance }
  if s1.cycles = s.cycles then s1 else s.nextCycle

/-- The ticks of the counter in 0.8 ns of REFCLK: one; none or two where slewing has moved it by a whole tick (R48: it never
steps by it). -/
def State.passTicks (s : State) : State :=
  let l := s.time.lead
  if !s.time.running then s
  else if l < 0 then { s with time := { s.time with lead := l + 1 } }
  else if 0 < l then ({ s with time := { s.time with lead := l - 1 } }).nextTick.nextTick
  else s.nextTick

/-- 0.8 ns of real time: the counter goes on, by core cycles, streams go on (log entry 1), the marks held are checked (R54, R57). With the
counter stopped no core cycle passes (R645). The queue and the fuses are untouched. -/
def tick (s : State) : State :=
  let s1 := { s with real := s.real + 1 }
  let s2 := if s.time.running then s1.passTicks else { s1 with hot := [] }
  { s2.crossCheck with pending := s.pending, fuse := s.fuse }

end Sys2Proof.Machine
end

