-- ==== Sys2Proof/Safety.lean ====
section
/-!
DEFINITION. Safety.lean: what claims about whole runs are stated in: what of the state two states share, what each command
may touch, what the fuses may do, and when a state is sound.
-/

namespace Sys2Proof

open Sys2Proof.Machine

/-- Two states agree in a component. -/
def Machine.Comp.same : Comp → State → State → Prop
  | .free, s, t => t.free = s.free
  | .regs, s, t => t.regs = s.regs ∧ t.hot = s.hot
  | .latches, s, t => t.latches = s.latches
  | .mem, s, t => t.mem = s.mem
  | .undef, s, t => t.undef = s.undef
  | .poison, s, t => t.poison = s.poison
  | .flags, s, t => t.flags = s.flags
  | .fences, s, t => t.fences = s.fences
  | .fuse, s, t => t.fuse = s.fuse
  | .ledger, s, t => t.ledger = s.ledger
  | .pins, s, t => t.pins = s.pins
  | .boot, s, t => t.boot = s.boot
  | .resets, s, t => t.resets = s.resets
  | .time, s, t => t.time = s.time
  | .parts, s, t => t.parts = s.parts
  | .sprue, s, t => t.sprue = s.sprue
  | .events, s, t => t.events = s.events
  | .health, s, t => t.health = s.health
  | .descs, s, t => t.descs = s.descs
  | .ctrs, s, t => t.ctrs = s.ctrs
  | .hall, s, t => t.hall = s.hall
  | .runner, s, t => t.runner = s.runner
  | .net, s, t => t.net = s.net
  | .slices, s, t => t.slices = s.slices
  | .banks, s, t => t.banks = s.banks
  | .chans, s, t => t.chans = s.chans
  | .wires, s, t => t.wires = s.wires
  | .cxl, s, t => t.cxl = s.cxl
  | .movers, s, t => t.movers = s.movers
  | .mxs, s, t => t.mxs = s.mxs
  | .gcores, s, t => t.gcores = s.gcores
  | .mordant, s, t => t.mordant = s.mordant
  | .update, s, t => t.update = s.update

/-- Two states agree in every component that is not listed. -/
def Machine.State.sameBut (l : List Comp) (s t : State) : Prop := ∀ k : Comp, k ∉ l → k.same s t

/-- The components of State that a command may touch, the queue, real time and the certificates given apart, which no command touches. -/
def touches : Instr → List Comp
  | .pwrGoodChange _ => powered
  | .resetNChange _ => powered
  | .holdNChange _ => evented
  | .pinTransition _ => powered
  | .inputQuietExpiry _ => evented ++ [.boot]
  | .refclkLoss => evented ++ [.time, .sprue]
  | .refclkRestored => [.regs, .pins, .time, .health]
  | .vauxLoss _ => powered
  | .scanInstruction _ => [.pins]
  | .startUpStage _ => answered ++ [.mem, .undef, .poison, .fuse, .ledger, .boot, .time, .health, .descs, .net, .chans, .wires, .update]
  | .savedSetWrite _ _ _ _ => [.ledger]
  | .reset _ => answered ++ [.resets]
  | .resetActs => answered ++ [.mem, .undef, .resets, .descs, .update]
  | .drainEnd _ _ => powered
  | .resetComplete _ => answered ++ [.mem, .undef, .ledger, .boot, .resets, .descs]
  | .timeFrame _ _ _ => evented ++ [.time, .sprue]
  | .counterStep => answered ++ [.time, .chans, .update]
  | .timeHoldover => evented ++ [.time]
  | .holdoverExpiry => evented ++ [.time]
  | .timeMarkSend _ => [.runner]
  | .timeMark _ _ _ _ => evented ++ [.time]
  | .boundaryPreparation => served ++ [.undef, .flags, .fuse, .resets, .time, .sprue, .health, .descs, .net, .chans, .wires, .gcores]
  | .recentre _ _ _ _ _ _ => evented ++ [.ledger, .chans, .wires]
  | .ageingMonitorSample _ _ _ => [.health]
  | .memoryMaintenanceSlot _ => tiled ++ [.undef, .chans]
  | .loadPattern _ => answered
  | .patternLoadDone _ _ => answered
  | .pour _ => answered
  | .hold _ => answered
  | .release _ => answered
  | .cmd _ => answered
  | .regrd _ => evented ++ [.latches, .sprue, .descs, .hall, .wires]
  | .regwr _ => accessed ++ [.sprue, .descs]
  | .dmaWrite _ => asked ++ [.sprue]
  | .dmaRead _ => asked ++ [.sprue]
  | .bulk _ => answered ++ [.update]
  | .bulkTimeout _ => answered ++ [.update]
  | .sprueLinkUp _ => [.regs, .sprue]
  | .sprueDown _ => evented ++ [.sprue]
  | .evtFrameSend => [.sprue, .events]
  | .ringWrite _ => tiled ++ [.hall]
  | .sprueKeyx _ => answered
  | .deploy _ => answered ++ [.fuse, .ledger]
  | .operatorRekey _ => answered ++ [.ledger]
  | .decommission _ => answered ++ [.fuse]
  | .getCerts _ => answered
  | .attest _ => answered
  | .getLog _ => answered
  | .setPatternKey _ => answered
  | .rotateFarKey _ => answered
  | .farKeyRotated _ => answered ++ [.ctrs]
  | .sessionOpen _ => answered
  | .seal _ => answered ++ [.mem, .undef]
  | .unseal _ => answered ++ [.mem, .undef]
  | .sessionWrite _ => accessed ++ [.sprue, .descs]
  | .sessionRead _ => answered ++ [.latches, .mem, .poison, .ctrs, .slices, .descs, .wires]
  | .svnAdvance _ => answered
  | .svnFuseBlow => [.regs, .fuse, .mordant]
  | .scrubComplete _ => asked ++ [.mem, .undef, .poison, .flags, .sprue, .descs, .chans]
  | .drbgHealthFail _ => evented
  | .getDescription _ => answered
  | .updBegin _ => answered ++ [.update]
  | .ledgerStageDone _ => answered ++ [.update]
  | .updDistribute _ => answered ++ [.update]
  | .distributionEnd _ _ => answered ++ [.update]
  | .updCommit _ => answered ++ [.update]
  | .commitPrepare _ => [.update]
  | .handOver => answered ++ [.update]
  | .selectRecordWrite _ => evented ++ [.update]
  | .updDiscard _ => answered ++ [.update]
  | .recoveryBegin _ => answered ++ [.update]
  | .recoveryRestart _ => answered ++ [.resets]
  | .shutdownAck _ => answered ++ [.ledger, .boot]
  | .shutdownRead _ => answered
  | .ageingRead _ => answered
  | .stop _ => answered
  | .stopExpiry _ => evented ++ [.runner]
  | .relay _ => answered
  | .stopRelay _ => answered
  | .ingressUnit _ _ => evented ++ [.hall, .runner, .net]
  | .trainingStateAdvance _ _ => evented ++ [.ledger, .descs, .runner]
  | .trainingTimeout _ => evented ++ [.runner]
  | .keyxMessage _ _ => evented ++ [.runner]
  | .trafficKeySwitch _ => evented ++ [.resets, .hall, .runner, .gcores]
  | .blockReceive _ _ => evented ++ [.runner]
  | .lcfReceive _ _ => evented ++ [.runner]
  | .replay _ => [.runner]
  | .fillBlock _ => [.free, .regs, .runner]
  | .linkLoss _ _ => evented ++ [.resets, .hall, .runner, .gcores]
  | .runnerLaneFailure _ _ => evented ++ [.resets, .descs, .hall, .runner, .gcores]
  | .narrow _ _ => evented ++ [.resets, .descs, .hall, .runner, .gcores]
  | .retrain _ => [.runner]
  | .eyeScanGridEnd _ _ _ _ => evented ++ [.ledger, .runner]
  | .schedWordDrive _ _ => evented ++ [.runner]
  | .schedWordRelease _ => [.runner]
  | .releaseBufferFlush _ => [.regs, .runner]
  | .requestIssue _ => accessed ++ [.descs, .net, .wires, .gcores]
  | .read _ _ => served
  | .write _ => served
  | .writeShort _ => served
  | .atomic _ => served
  | .reduce _ => served
  | .response _ _ => evented ++ [.resets, .hall, .net, .gcores]
  | .requestTimeout _ => [.regs, .resets, .hall, .movers, .gcores]
  | .transitPacket _ => [.regs, .hall, .runner]
  | .routerForward _ _ => [.regs, .resets, .hall, .net, .movers, .gcores]
  | .scheduleEntry _ _ => [.regs, .net]
  | .syncTokenArrival _ => [.regs, .flags, .net]
  | .neighbourModeStep _ _ => [.net]
  | .routerBad _ _ _ => evented ++ [.ledger, .resets, .descs, .hall, .net, .gcores]
  | .crossingParityError _ _ _ _ => evented ++ [.net, .hall]
  | .tnop _ => tiled
  | .tloads _ => tiled ++ [.banks]
  | .tswap _ => tiled
  | .tmm _ _ => tiled ++ [.banks]
  | .tout _ _ => tiled ++ [.banks]
  | .tsync _ => tiled ++ [.runner, .net]
  | .tsyncWaitMet _ => [.mxs]
  | .tpred _ => tiled
  | .tend _ => tiled
  | .periodRestart _ => tiled
  | .mxfer _ => asked ++ [.mem, .poison, .descs, .banks]
  | .mxferComplete _ => asked ++ [.mem, .poison, .descs]
  | .mnop _ => asked
  | .msync _ => asked
  | .mend _ => asked
  | .windowStart _ => evented ++ [.gcores]
  | .windowEnd _ => evented ++ [.gcores]
  | .wfi _ => [.gcores]
  | .userTrap _ _ _ => evented ++ [.gcores]
  | .htread _ _ => [.gcores]
  | .htwait _ _ _ => [.gcores]
  | .htwaitComplete _ => [.gcores]
  | .crcblk _ _ _ => asked ++ [.descs]
  | .syncset _ _ _ _ => evented ++ [.runner, .net, .gcores]
  | .syncwait _ _ _ _ _ => evented ++ [.gcores]
  | .syncwaitComplete _ => [.gcores]
  | .descld _ _ _ => asked ++ [.descs]
  | .mxpack _ _ _ _ => evented ++ [.gcores]
  | .mxunpack _ _ _ _ => evented ++ [.gcores]
  | .amo _ _ _ _ _ _ => asked ++ [.descs]
  | .lr _ _ _ _ => asked ++ [.descs]
  | .sc _ _ _ _ _ => asked ++ [.descs]
  | .clusterMemoryAccess _ _ => tiled ++ [.descs, .banks, .gcores]
  | .patrolStep _ => asked ++ [.descs]
  | .rebuildStep _ => tiled ++ [.ctrs, .hall, .slices, .banks]
  | .memoryRun _ _ => tiled ++ [.undef, .chans, .slices]
  | .readWordDrive _ => [.regs, .net, .chans]
  | .writeWordArrival _ _ => tiled ++ [.undef, .chans]
  | .unscheduledAccess _ _ => [.regs, .hall, .chans]
  | .writeParityRewrite _ _ _ => tiled ++ [.chans]
  | .laneParityError _ _ _ _ => evented ++ [.poison, .net, .chans, .wires]
  | .laneFailure _ _ _ => evented ++ [.descs, .chans, .wires]
  | .retrainingStart _ _ => [.regs, .chans, .wires]
  | .retrainingDone _ _ _ => evented ++ [.ledger, .descs, .chans, .wires]
  | .cacheAccess _ _ _ => tiled ++ [.ctrs, .slices]
  | .cacheFillReturn _ _ _ _ _ _ => evented ++ [.hall, .runner, .net, .slices]
  | .flush _ _ => accessed
  | .flushComplete _ => tiled ++ [.ctrs, .slices]
  | .sbRegions _ _ _ => accessed ++ [.descs]
  | .cxlPortDown _ => evented ++ [.descs, .hall, .runner, .net, .slices]
  | .cxlRequestTimeout _ _ => [.regs, .hall, .runner, .net]
  | .commit _ _ _ => accessed ++ [.descs]
  | .decoderCommitEffect _ _ => tiled ++ [.undef, .descs, .ctrs, .slices, .cxl]
  | .hkSample _ _ => evented ++ [.health]
  | .shutdownRecordWrite _ => evented ++ [.ledger, .health]
  | .pwrOffReq => [.regs, .health]
  | .voltageStep _ => evented ++ [.ledger, .health]
  | .replan => evented ++ [.ledger, .health]
  | .operatingHour _ => evented ++ [.ledger, .health]
  | .ledgerErase _ => evented ++ [.ledger, .health]
  | .regWrite _ _ _ => accessed ++ [.descs]
  | .regReadClear _ _ => evented ++ [.latches, .hall, .wires]
  | .latchingRead _ _ => evented ++ [.latches, .hall, .wires]
  | .evtForce _ _ => accessed ++ [.descs]
  | .fence _ _ => accessed ++ [.descs]
  | .resetReq _ _ => accessed ++ [.descs]
  | .enable _ _ => accessed ++ [.descs]
  | .ptConfig _ _ => accessed ++ [.descs]
  | .ptSeed _ _ _ => accessed ++ [.descs]
  | .ptRnAssign _ _ _ _ => accessed ++ [.descs]
  | .ptCxAssign _ _ _ _ => accessed ++ [.descs]
  | .patrolListWrite _ _ _ _ => accessed
  | .nwHmembStageHi _ _ => accessed
  | .nwHrtSwap _ _ => accessed
  | .nwHrtCopy _ _ => accessed
  | .routeCopyDone _ => [.hall]
  | .nwHpkg _ _ => accessed
  | .nwRegTgt _ _ _ _ => accessed
  | .nwSflagHi _ _ _ _ => accessed
  | .mcTrainRequest _ _ => accessed
  | .mcXgRetrain _ _ _ => accessed
  | .rnPctrlRetrain _ _ => accessed ++ [.descs]
  | .evRingHi _ _ => accessed
  | .hkReplanRequest _ => accessed
  | .blockSend _ _ => evented ++ [.runner]
  | .sprueFrameSend _ => asked ++ [.sprue]
  | .frameDiscarded _ => evented ++ [.sprue]
  | .vauxRise => [.regs, .pins, .health]
  | .vlasReturn => [.regs, .sprue]
  | .cxlPortRetrain _ _ => evented ++ [.ledger, .descs, .hall, .runner, .net, .slices]
  | .msyncWaitMet _ => [.movers]

/-- The fuses only move one way (R491, R501, R533, R655): what manufacture fixed stays, the lifecycle state and the SVN never fall, a
disabled UDS stays disabled. -/
def Machine.Fuse.movesTo (f g : Fuse) : Prop :=
  g.variant = f.variant ∧ g.bad = f.bad ∧ g.baseStepping = f.baseStepping ∧ g.startCodes = f.startCodes ∧ g.uds = f.uds ∧
    f.life.code ≤ g.life.code ∧ f.svn ≤ g.svn ∧ (f.udsOff = true → g.udsOff = true)

/-- The RSP that the device keeps for a CMD_ID (R454), once the command has completed. -/
def Machine.State.rspOf (s : State) (id : Nat) : Option TxFrame :=
  (s.sprue.memory.find? fun e => decide (e.1 = id)).bind fun e => e.2

/-- A command completed in this step with a status and DATA: its RSP is kept, stamped with the Hall Time at which it acted
(R75, R451, R454). -/
def Machine.State.completed (s t : State) (op : Nat) (c : Cmd) (status : Nat) (data : Bytes := []) : Prop :=
  t.rspOf c.id = some (.rsp c.id op status s.time.ticks c.part data)

/-- A command that acted in an earlier slot completed OK in this step: its RSP is stamped with the time at which it acted. -/
def Machine.State.completedLate (s t : State) (op : Nat) (c : Cmd) (data : Bytes := []) : Prop :=
  t.rspOf c.id = some (.rsp c.id op 0 ((s.actedAt c.id).getD s.time.ticks) c.part data)

/-- Everything in the power-on scope (Table 14-5) is at its start, the Ledger, the fuses and the pin logic as they stood: no byte of memory
is listed, the DRAM and the far tier read anew, and every register but the pin registers (R650) reads its reset value. -/
def Machine.State.powersOn (s t : State) : Prop :=
  t.ledger = s.ledger ∧ t.fuse = s.fuse ∧ t.pins.edges = s.pins.edges ∧ t.pins.gated = false ∧
    t.sprue = { vlas := s.sprue.vlas } ∧ t.mordant = { opKey := s.mordant.opKey } ∧
    t.mem = [] ∧ t.undef = undefAtPowerOn s.free ∧ t.poison = [] ∧ t.flags = [] ∧ t.fences = [] ∧ t.latches = [] ∧ t.hot = [] ∧
    t.resets = [] ∧ t.time = {} ∧ t.parts = [] ∧ t.events = {} ∧ t.descs = [] ∧ t.ctrs = [] ∧ t.hall = {} ∧ t.runner = [] ∧
    t.net = {} ∧ t.slices = [] ∧ t.banks = {} ∧ t.chans = [] ∧ t.wires = [] ∧ t.cxl = [] ∧ t.movers = [] ∧ t.mxs = [] ∧ t.gcores = [] ∧
    ∀ (pg : Nat) (F : Fld) (i : Nat), F.at i < 4096 → F.lo < 32 → pg ≠ pgBu ∨ (F.at i ≠ 0x060 ∧ F.at i ≠ 0x064) →
      t.rd pg F i = F.resetAt i

/-- Command `c` from `s` answers a next state, and `P` holds of it. -/
def Machine.Leads (c : Instr) (s : State) (P : State → Prop) : Prop := ∃ t, exec c s = .next t ∧ P t

/-- A frame passes its checks (R441 to R447): the codewords are good, the body holds the layout, PKG names this package, and, where
a key is in use, TAG verifies and SEQ is new. -/
abbrev Machine.State.admits (s : State) (f : Frame) : Prop :=
  f.uncorr = false ∧ fitsType f = true ∧ s.framePkgOk f = true ∧
    (match s.sprue.key with
      | none => true
      | some k => tagOk f k s.sprue.salt && !s.stale f) = true

/-- The port is UP and takes a frame of type `ty`. -/
def Machine.State.accepts (s : State) (ty : Nat) (f : Frame) : Prop :=
  s.rd pgSprue SP_STATUS_LINK = 2 ∧ f.ty = ty ∧ s.admits f

/-- The units of a block received on port `q` under `prk`, its payload deciphered (R378, R380). -/
def Machine.State.delivers (s : State) (q : Nat) (prk : Bytes) (b : Block) : Delivery :=
  (List.range 63).foldl (Delivery.flit b (gcmText (trafficKey prk (!(s.port q).first) (b.seq / 2 ^ 32))
    (blockNonce prk (!(s.port q).first) b.seq) b.payload)) { half := (s.port q).rxHalf }

/-- The state once the port has taken a frame, its SEQ used where a key is in use (R444). -/
def Machine.State.taking (s : State) (f : Frame) : State :=
  if s.sprue.key.isSome then (s.sprueLineIn f).acceptSeq f else s.sprueLineIn f

/-- A session access of partition `c.part`, whose session is `e`, verifies, and the `n` bytes at `a` that it names lie in cluster memories or slices
where the partition may reach them (R506 to R508). -/
def Machine.State.sessionOpens (s : State) (op : Nat) (c : Cmd) (e : Session) (a n : Nat) (text : Bytes) (write : Bool) : Prop :=
  s.turn c = true ∧ s.partOk op c = true ∧ sessionArgsOk c = true ∧ (s.trusted c.part).session = some e ∧ sessionOk e op c text = true ∧
    a = fieldAt c.args 0 8 ∧ n = fieldAt c.args 0x08 2 ∧ fieldAt c.args 0x0A 1 = 0 ∧
    ∀ x ∈ pagePieces a n, s.sessStatus c.part write x = 0 ∧
      ((∃ k f, homeOf x.1 = .cluster k f) ∨ ∃ k f, homeOf x.1 = .slice k f)

/-- A command has its turn in the intake and a PART its opcode takes (R452, R453). -/
def Machine.State.acts (s : State) (op : Nat) (c : Cmd) : Prop := s.turn c = true ∧ s.partOk op c = true

/-- The issue of an instruction leaves nothing to record: it has no hazard, deferral or slip, or what it has was noted when the wait
began (R156, R159). -/
def Machine.Issue.settled (i : Issue) (q : Seq) : Prop :=
  (q.noted = true ∧ (i.deferred = true → q.counted = true)) ∨ i.haz = false ∧ i.deferred = false ∧ i.slip = false

/-- The next instruction of core `m`'s program is of class `cls` and issues in cycle `t`, which has come: its partition runs, nothing
is in flight in the core, which is in service, and nothing is left to record (R155 to R159). -/
def Machine.State.tileIssues (s : State) (m cls t : Nat) : Prop :=
  let b := s.mxProg m
  let q := (s.mx m).seq
  let w := tileInstr b q.pc
  let i := s.issueOf (s.mxPart m) q w (s.tileFree m b w) (decide (cls = 5) && decide (tsMode w ≤ 1)) fun t => t + tileCycles b q.pc
  s.playing (s.mxPart m) = true ∧ q.ended = false ∧ q.pc < tsInstrs b ∧ wClass w = cls ∧ s.out (pgMatrix m) = false ∧
    (s.mx m).run = none ∧ (s.mx m).out = none ∧ s.tileKnown m w = true ∧ (wAfter w && q.loose) = false ∧
    i.first ≤ s.cycles ∧ i.at_ = t ∧ t ≤ s.cycles ∧ i.settled q

/-- The word of the next instruction of core `m`, of mover `m`. -/
def Machine.State.tileWord (s : State) (m : Nat) : Nat := tileInstr (s.mxProg m) (s.mx m).seq.pc
def Machine.State.moverWord (s : State) (m : Nat) : Nat := moverInstr (s.mvProg m) (s.mover m).seq.pc

/-- As `tileIssues`, for mover `m` with no transfer under way. -/
def Machine.State.moverIssues (s : State) (m cls t : Nat) : Prop :=
  let b := s.mvProg m
  let q := (s.mover m).seq
  let w := moverInstr b q.pc
  let i := s.issueOf (s.mvPart m) q w (if cls = 5 then q.syncTo else 0) (decide (cls = 5) && decide (tsMode w ≤ 1)) fun t =>
    match wClass w with
    | 0 => t + nopCount w
    | 1 => s.mxferEnd s.cps m b w t
    | _ => t + 1
  s.playing (s.mvPart m) = true ∧ q.ended = false ∧ q.pc < msInstrs b ∧ wClass w = cls ∧ s.out (pgMover m) = false ∧
    (s.mover m).xfer = none ∧ (s.mover m).remote = [] ∧ (cls = 5 → q.wait = none) ∧
    (cls = 1 → isFar w = true → s.mvOut m + min ((farBytes b w + 255) / 256) 256 ≤ 256) ∧ (wAfter w && q.loose) = false ∧
    i.first ≤ s.cycles ∧ i.at_ = t ∧ t ≤ s.cycles ∧ i.settled q

/-- An access of a general core's program that the core makes now and that no check at its origin stops: the program runs, waits for
nothing, and the target is in this package. -/
def Machine.State.gcReaches (s : State) (g : Nat) (r : Req) : Prop :=
  s.gcRuns g = true ∧ (s.gc g).awaits = none ∧ s.ownPkg r.addr = true ∧ s.originStatus r = 0 ∧ s.hall.nextId ∉ s.hall.orphans

/-- The access is issued: its request is on its way, the core waits for it, nothing is stored yet. -/
def Machine.State.gcIssued (s t : State) (g kind rd : Nat) (wide : Bool) (r : Req) : Prop :=
  t.hall.nextId = s.hall.nextId + 1 ∧ t.req s.hall.nextId = some { r with issuedAt := s.real, level := s.levelOf r } ∧
    (t.gc g).awaits = some { id := s.hall.nextId, kind := kind, rd := rd, wide := wide, req := r } ∧ t.mem = s.mem

/-- General core `g` waits in an instruction of kind `kind` with access `w`, which is answered with `a`. -/
def Machine.State.gcAnswered (s : State) (g kind : Nat) (w : Await) (a : Ans) : Prop :=
  (s.gc g).awaits = some w ∧ s.gcWaits g kind = true ∧ s.takeDone w.id = some a

/-- An access to cluster memory `k` lies in it, is not a stopped program's, and nothing makes it wait. -/
def Machine.State.bankFree (s : State) (k : Nat) (a : MemAccess) : Prop :=
  0 < accessSpan a ∧ a.off + accessSpan a ≤ 12 * mib ∧ (accessProgram a = true → s.gcRuns (pgInst a.who) = true) ∧
    s.banks.wait = [] ∧ ∀ e ∈ s.needPorts (accessNeed k a), (aget {} s.banks.ports e.1).free ≤ s.cycles

/-- Slice `n`, the lowest of its partition, which is at rest, has `e` first in its check queue (R355). -/
def Machine.State.settles (s : State) (n : Nat) (e : Suspect) (es : List Suspect) : Prop :=
  s.firstRiser (s.partOfRiser n) = n ∧ s.atRest (s.partOfRiser n) = true ∧ s.out (pgGcore (80 * n)) = false ∧ (s.sl n).suspects = e :: es

/-- The address of the descriptor at patrol's cursor. -/
def Machine.State.patrolEntry (s : State) (k : Nat) : Nat :=
  s.rd (pgCluster k) CL_PATROL_LO_ADDR + 2 ^ 32 * s.rd (pgCluster k) CL_PATROL_HI_ADDR + 64 * s.rd (pgCluster k) CL_PATROL_DESC_DESC

/-- A write of word `w` at offset `o` of page `pg` by `r` reaches its registers: `r` may, the page is there, not sealed to it, and no
condition refuses it (R404, R515, R623). -/
def Machine.State.takes (s : State) (r : Requester) (pg o w : Nat) : Prop :=
  reachStatus (reqIdent r) (offOf pg o) = 0 ∧ placeOf (offOf pg o) = .page pg o ∧ s.closedTo (reqIdent r) pg = false ∧
    s.writeCause none pg (w % 2 ^ 32) (cellsAt pg o) = 0

/-- The same for a write of `v` into one field, the word's other bits as they read. -/
def Machine.State.takesField (s : State) (r : Requester) (pg : Nat) (F : Fld) (v : Nat) (i : Nat := 0) : Prop :=
  s.takes r pg (F.at i) (s.wordWith pg (F.at i) F v)

/-- Request `id` has come to its target, which is not fenced (R270), and nothing there makes it wait: its turn has come (R323, R412), and it
lies in no bank, or no access waits, and every port it needs is free (R200). -/
def Machine.State.atOnce (s : State) (id : Nat) (r : Req) : Prop :=
  s.travels id false = false ∧ s.fencedHome (homeOf (localOf r.addr)) false = false ∧ s.hasTurn id r = true ∧ ((s.bankNeed r).home = none ∨ (s.banks.wait = [] ∧
    ∀ e ∈ s.needPorts (s.bankNeed r), (aget {} s.banks.ports e.1).free ≤ s.cycles))

/-- A safe state's next step is one the spec describes: no fault, no refusal. -/
def Machine.SafeStep (s : State) : Prop := ∃ t, step s = .next t

end Sys2Proof
end

