-- ==== Sys2Proof/WellFormed.lean ====
section
/-!
DEFINITION. WellFormed.lean: the checks on a command's operands: each field fits the width the spec gives it on the wire or
in the register, and byte strings have the length of the body they are. No meaning relies on them (exec is total);
statements that speak of what can arrive do.
-/

namespace Sys2Proof

/-- The fields of a CMD frame's command fit Table 12-4. -/
def Cmd.wf (c : Cmd) : Bool :=
  decide (c.id < 2 ^ 32) && decide (c.part < 256) && decide (c.start < 2 ^ 64) && decide (c.args.length ≤ 464)

/-- The fields of a frame fit Table 12-2 (a LEN over 480 is a BAD-FORMAT frame, not an impossible one). -/
def Frame.wf (f : Frame) : Bool :=
  f.symbols.all (fun l => decide (l < 4)) && decide (f.ty < 256) && decide (f.flags < 256) && decide (f.len < 65536) && decide (f.seq < 2 ^ 32) &&
    decide (f.pkg < 65536) && decide (f.part < 256) && decide (f.body.length ≤ 480) && decide (f.tag.length ≤ 16)

/-- Line symbols have one of the four levels of PAM4, of which NRZ uses two (R373). -/
def symbolsOk (l : List LineSym) : Bool := l.all fun x => decide (x.level < 4)

/-- What a lane's decoder saw is of levels that the line has. -/
def LaneRx.wf (l : LaneRx) : Bool := l.symbols.all fun x => decide (x < 4)

/-- A unit that a start-up test names: a die 0 to 8, a kind and an index of one byte and two (Table 16-10). -/
def BadUnit.wf (b : BadUnit) : Bool := decide (b.die ≤ 8) && decide (b.kind < 256) && decide (b.index < 65536)

/-- A trained unit's outcome names a width code and margins of one byte. -/
def WidthObs.wf (w : WidthObs) : Bool := decide (w.width ≤ 3) && decide (w.phase < 256) && decide (w.volt < 256)

/-- A die answers with a die number 0 to 8 and a level byte. -/
def DieObs.wf (d : DieObs) : Bool := decide (d.die ≤ 8) && decide (d.level < 256)

/-- What a start-up stage meets is in range. -/
def StageObs.wf (o : StageObs) : Bool :=
  o.bad.all BadUnit.wf && o.lost.all (fun n => decide (n < 8)) && o.widths.all WidthObs.wf && o.dies.all DieObs.wf &&
    o.unreachable.all fun n => decide (n < 80)

/-- A block's fields fit Table 10-5, and its payload is 63 flits of 256 bytes. -/
def Block.wf (b : Block) : Bool :=
  decide (b.seq < 2 ^ 64) && decide (b.ftype < 2 ^ 128) && decide (b.utype < 2 ^ 512) && decide (b.poison < 2 ^ 256) &&
    decide (b.payload.length = 16128) && decide (b.tag.length = 16) && b.lanes.all LaneRx.wf

/-- A link control flit's fields fit Table 10-5. -/
def Lcf.wf (l : Lcf) : Bool :=
  decide (l.ack < 2 ^ 64) && decide (l.credSync < 65536) && decide (l.credIndigo < 65536) && decide (l.credWoad < 65536) &&
    decide (l.req < 256) && decide (l.arg < 256) && decide (l.flags < 256) && decide (l.stamp < 2 ^ 80) &&
    decide (l.ltag.length = 16) && l.lanes.all LaneRx.wf

/-- A key-agreement message's fields fit R495's layout. -/
def KxMsg.wf : KxMsg → Bool
  | .kx1 k => decide (k.life < 4) && decide (k.svn ≤ 64)
  | .kx2 _ => true

/-- What training sees is in range: eight lanes, characters of ten bits, stamps of 80. -/
def TrainObs.wf (o : TrainObs) : Bool :=
  (o.sets.all fun x => decide (x.lane < 8) && x.chars.all fun c => decide (c < 1024)) && decide (o.steps.length ≤ 8) &&
    o.probes.all fun p => decide (p.t1 < 2 ^ 80) && decide (p.t2 < 2 ^ 80) && decide (p.t3 < 2 ^ 80) && decide (p.t4 < 2 ^ 80)

/-- A request's address is a hall address (R400), its LEN and values fit Table 7-5's fields. -/
def Request.wf (q : Request) : Bool :=
  decide (q.op < 64) && decide (q.ty < 16) && decide (q.addr < 2 ^ 64) && decide (q.len ≤ 256) &&
    decide (q.value < 2 ^ 64) && decide (q.compare < 2 ^ 64) && decide (q.data.length ≤ 256)

/-- A cluster-memory access lies in the 12 MiB of the window; at most 128 bytes read, 64 written (R199). -/
def MemAccess.wf (a : MemAccess) : Bool :=
  decide (a.off < 0xC00000) && decide (a.len ≤ 128) && decide (a.data.length ≤ 64)

/-- A CXL port's enumeration names bus and device numbers of a byte. -/
def CxlObs.wf (o : CxlObs) : Bool := o.ignored.all fun e => decide (e.1 < 65536)

/-- A page is a PAGE_ID value (TYPE × 65,536 + INSTANCE). -/
def pageWf (p : Nat) : Bool := decide (p < 2 ^ 32)

/-- A control-space offset of one aligned 32-bit word (R404). -/
def offWf (o : Nat) : Bool := decide (o % 4 = 0) && decide (o < 2 ^ 48)

/-- The operands of the command are in range. -/
def Instr.wf : Instr → Bool
  | .pwrGoodChange _ => true
  | .resetNChange _ => true
  | .holdNChange _ => true
  | .pinTransition _ => true
  | .inputQuietExpiry _ => true
  | .refclkLoss => true
  | .refclkRestored => true
  | .vauxLoss _ => true
  | .scanInstruction _ => true
  | .startUpStage obs => obs.wf
  | .savedSetWrite unit _ phase volt => pageWf unit && decide (phase < 256) && decide (volt < 256)
  | .reset c => c.wf
  | .resetActs => true
  | .drainEnd _ lost => lost.all (fun p => decide (p < 8))
  | .resetComplete obs => obs.wf
  | .timeFrame f _ _ => f.wf
  | .counterStep => true
  | .timeHoldover => true
  | .holdoverExpiry => true
  | .timeMarkSend _ => true
  | .timeMark _ stamp _ arrival => decide (stamp < 2 ^ 80) && decide (arrival < 2 ^ 80)
  | .boundaryPreparation => true
  | .recentre _ phase volt lane _ pl => decide (phase < 256) && decide (volt < 256) && decide (lane < 264) && decide (pl.cd < 256) && decide (pl.dc < 256)
  | .ageingMonitorSample _ delay slack => decide (delay < 65536) && decide (slack < 65536)
  | .memoryMaintenanceSlot _ => true
  | .loadPattern c => c.wf
  | .patternLoadDone _ _ => true
  | .pour c => c.wf
  | .hold c => c.wf
  | .release c => c.wf
  | .cmd f => f.wf
  | .regrd f => f.wf
  | .regwr f => f.wf
  | .dmaWrite f => f.wf
  | .dmaRead f => f.wf
  | .bulk f => f.wf
  | .bulkTimeout stream => decide (stream < 65536)
  | .sprueLinkUp _ => true
  | .sprueDown _ => true
  | .evtFrameSend => true
  | .ringWrite page => pageWf page
  | .sprueKeyx c => c.wf
  | .deploy c => c.wf
  | .operatorRekey c => c.wf
  | .decommission c => c.wf
  | .getCerts c => c.wf
  | .attest c => c.wf
  | .getLog c => c.wf
  | .setPatternKey c => c.wf
  | .rotateFarKey c => c.wf
  | .farKeyRotated _ => true
  | .sessionOpen c => c.wf
  | .seal c => c.wf
  | .unseal c => c.wf
  | .sessionWrite c => c.wf
  | .sessionRead c => c.wf
  | .svnAdvance c => c.wf
  | .svnFuseBlow => true
  | .scrubComplete _ => true
  | .drbgHealthFail _ => true
  | .getDescription c => c.wf
  | .updBegin c => c.wf
  | .ledgerStageDone _ => true
  | .updDistribute c => c.wf
  | .distributionEnd _ notReady => notReady.all (fun u => decide (u < 2 ^ 32))
  | .updCommit c => c.wf
  | .commitPrepare ready => ready.all (fun u => decide (u < 2 ^ 32))
  | .handOver => true
  | .selectRecordWrite _ => true
  | .updDiscard c => c.wf
  | .recoveryBegin c => c.wf
  | .recoveryRestart c => c.wf
  | .shutdownAck c => c.wf
  | .shutdownRead c => c.wf
  | .ageingRead c => c.wf
  | .stop c => c.wf
  | .stopExpiry _ => true
  | .relay c => c.wf
  | .stopRelay _ => true
  | .ingressUnit _ _ => true
  | .trainingStateAdvance _ obs => obs.wf
  | .trainingTimeout _ => true
  | .keyxMessage _ msg => msg.wf
  | .trafficKeySwitch _ => true
  | .blockReceive _ blk => blk.wf
  | .lcfReceive _ lcf => lcf.wf
  | .replay _ => true
  | .fillBlock t => t.symbols.all symbolsOk
  | .linkLoss _ _ => true
  | .runnerLaneFailure _ _ => true
  | .narrow _ _ => true
  | .retrain _ => true
  | .eyeScanGridEnd _ _ _ _ => true
  | .schedWordDrive _ cyc => decide (cyc < 256)
  | .schedWordRelease _ => true
  | .releaseBufferFlush _ => true
  | .requestIssue rq => rq.wf
  | .read _ _ => true
  | .write _ => true
  | .writeShort _ => true
  | .atomic _ => true
  | .reduce _ => true
  | .response _ _ => true
  | .requestTimeout _ => true
  | .transitPacket _ => true
  | .routerForward _ _ => true
  | .scheduleEntry _ _ => true
  | .syncTokenArrival _ => true
  | .neighbourModeStep _ _ => true
  | .routerBad _ _ _ => true
  | .crossingParityError _ _ _ cyc => decide (cyc < 256)
  | .tnop _ => true
  | .tloads _ => true
  | .tswap _ => true
  | .tmm _ _ => true
  | .tout _ _ => true
  | .tsync _ => true
  | .tsyncWaitMet _ => true
  | .tpred _ => true
  | .tend _ => true
  | .periodRestart _ => true
  | .mxfer _ => true
  | .mxferComplete _ => true
  | .mnop _ => true
  | .msync _ => true
  | .mend _ => true
  | .windowStart _ => true
  | .windowEnd _ => true
  | .wfi _ => true
  | .userTrap _ cause tval => decide (cause < 64) && decide (tval < 2 ^ 64)
  | .htread _ _ => true
  | .htwait _ _ _ => true
  | .htwaitComplete _ => true
  | .crcblk _ _ _ => true
  | .syncset _ _ _ _ => true
  | .syncwait _ _ _ _ _ => true
  | .syncwaitComplete _ => true
  | .descld _ _ _ => true
  | .mxpack _ _ _ _ => true
  | .mxunpack _ _ _ _ => true
  | .amo _ _ _ _ _ _ => true
  | .lr _ _ _ _ => true
  | .sc _ _ _ _ _ => true
  | .clusterMemoryAccess _ acc => acc.wf
  | .patrolStep _ => true
  | .rebuildStep _ => true
  | .memoryRun _ _ => true
  | .readWordDrive _ => true
  | .writeWordArrival _ cyc => decide (cyc < 256)
  | .unscheduledAccess _ _ => true
  | .writeParityRewrite _ addr _ => decide (addr < 2 ^ 48)
  | .laneParityError kind unit group _ => decide (unit < match kind.val with | 2 => 2 | _ => 256) && decide (group < match kind.val with | 0 => 8 | 1 => 32 | _ => 200)
  | .laneFailure kind unit group => decide (unit < match kind.val with | 0 => 256 | 1 => 16 | _ => 10) && decide (group < match kind.val with | 0 => 8 | 1 => 32 | _ => 200)
  | .retrainingStart _ unit => decide (unit < 256)
  | .retrainingDone _ unit _ => decide (unit < 256)
  | .cacheAccess _ _ _ => true
  | .cacheFillReturn _ _ status data _ _ => decide (status < 256) && decide (data.length ≤ 256)
  | .flush _ _ => true
  | .flushComplete _ => true
  | .sbRegions _ _ w => decide (w < 2 ^ 32)
  | .cxlPortDown _ => true
  | .cxlRequestTimeout _ _ => true
  | .commit _ _ _ => true
  | .decoderCommitEffect _ _ => true
  | .hkSample _ o => o.logs.all fun e => decide (e.log < 256) && decide (e.handle < 2 ^ 64)
  | .shutdownRecordWrite _ => true
  | .pwrOffReq => true
  | .voltageStep _ => true
  | .replan => true
  | .operatingHour _ => true
  | .ledgerErase _ => true
  | .regWrite _ off w => offWf off && decide (w < 2 ^ 32)
  | .regReadClear _ off => offWf off
  | .latchingRead _ off => offWf off
  | .evtForce _ page => pageWf page
  | .fence _ page => pageWf page
  | .resetReq _ page => pageWf page
  | .enable _ page => pageWf page
  | .ptConfig _ _ => true
  | .ptSeed _ _ seed => decide (seed < 2 ^ 32)
  | .ptRnAssign _ _ _ _ => true
  | .ptCxAssign _ _ _ _ => true
  | .patrolListWrite _ _ _ w => decide (w < 2 ^ 32)
  | .nwHmembStageHi _ tag => decide (tag < 2 ^ 30)
  | .nwHrtSwap _ parts => decide (parts < 256)
  | .nwHrtCopy _ parts => decide (parts < 256)
  | .routeCopyDone _ => true
  | .nwHpkg _ w => decide (w < 2 ^ 32)
  | .nwRegTgt _ _ _ target => decide (target < 2 ^ 32)
  | .nwSflagHi _ _ _ w => decide (w < 2 ^ 32)
  | .mcTrainRequest _ _ => true
  | .mcXgRetrain _ _ mask => decide (mask < 2 ^ 32)
  | .rnPctrlRetrain _ _ => true
  | .evRingHi _ w => decide (w < 2 ^ 32)
  | .hkReplanRequest _ => true
  | .blockSend _ symbols => symbols.all symbolsOk
  | .sprueFrameSend symbols => symbolsOk symbols
  | .frameDiscarded f => f.wf
  | .vauxRise => true
  | .vlasReturn => true
  | .cxlPortRetrain _ obs => obs.wf
  | .msyncWaitMet _ => true

end Sys2Proof
end

