-- ==== Sys2Proof/Certificates/Slice0/Obligations.lean ====
section
/-!
DEFINITION. Certificates/Slice0/Obligations.lean: what the model claims, for the provers. Rules are cited as R<n> of spec/.
`Leads c s P` (Safety.lean) says that command `c` from `s` answers a next state of which `P` holds; `sameBut l` that two
states agree in every component not listed.
-/

open Sys2Proof Sys2Proof.Machine

/-! ### The block as a machine -/

/-- A step takes the front command and is its meaning over the queue's rest; with none waiting, one tick passes, which moves
real time on by 0.8 ns (log entry 1). -/
def Obligations.StepRunsFrontCommand : Prop :=
  (∀ (s : State) (c : Instr) (rest : List Instr), s.pending = c :: rest → step s = exec c { s with pending := rest }) ∧
  (∀ s : State, s.pending = [] → ∃ t, step s = .next t ∧ t = tick s ∧ t.real = s.real + 1 ∧ t.pending = [] ∧ t.fuse = s.fuse)

/-- R626: at reset every register field reads its reset value. What the model holds beside registers is at its start: no
command waits, no byte of memory is listed, no partition, time unit or port is under way. -/
def Obligations.ResetReadsResetValues : Prop :=
  (∀ (pg : Nat) (F : Fld) (i : Nat), State.reset.rd pg F i = F.resetAt i) ∧
  State.reset.pending = [] ∧ State.reset.mem = [] ∧ State.reset.poison = [] ∧ State.reset.flags = [] ∧
  State.reset.parts = [] ∧ State.reset.boot.next = 0 ∧ State.reset.boot.begun = false ∧ State.reset.time = {} ∧
  State.reset.sprue = {} ∧ State.reset.resets = [] ∧ State.reset.hot = [] ∧ State.reset.banks = {} ∧ Memory.wf State.reset = true

/-- Every command has a meaning, and only VAUX lost with VIN staying up damages the device (R642): every other command
answers a next state from every state. -/
def Obligations.OnlyVauxLossFaults : Prop :=
  (∀ (c : Instr) (s : State), c ≠ .vauxLoss false → ∃ t, exec c s = .next t) ∧
  (∀ s : State, exec (.vauxLoss false) s = .fault .damaged)

/-- The frame of every command: the queue, real time and the certificates given stay as they stood, and so does every
component of State that `touches` does not list for the command. -/
def Obligations.CommandsTouchOnlyTheirComponents : Prop :=
  ∀ (c : Instr) (s t : State), exec c s = .next t →
    t.pending = s.pending ∧ t.real = s.real ∧ t.pki = s.pki ∧ t.certs = s.certs ∧ s.sameBut (touches c) t

/-- A run of `k` commands that waited takes the `k` first of the queue, in order, and no more. -/
def Obligations.RunTakesCommandsInOrder : Prop :=
  ∀ (k : Nat) (s t : State), k ≤ s.pending.length → Sys2Proof.core.run k s = .next t → t.pending = s.pending.drop k

/-- The fuses move one way (R491, R501): over every step the variant, the fused bad map, steppings, start voltages and UDS stay,
the lifecycle state and the SVN never fall, and a disabled UDS stays disabled. -/
def Obligations.FusesMoveOneWay : Prop :=
  ∀ s t : State, step s = .next t → s.fuse.movesTo t.fuse

/-- What FusesMoveOneWay starts from at reset: a device PROVISIONED at SVN 0, whose UDS is enabled (log entry 5: the fused
values are the model's choice). -/
def Obligations.ResetFuses : Prop :=
  State.reset.fuse.life = .provisioned ∧ State.reset.fuse.svn = 0 ∧ State.reset.fuse.udsOff = false ∧
  State.reset.fuse.deploying = false ∧ State.reset.fuse.decommissioning = false

/-- Local memory: bytes read as they were stored, every byte outside the stored ones as before, and every memory operation
keeps the canonical form of the list. -/
def Obligations.MemoryReadsWhatWasStored : Prop :=
  ∀ (s : State) (a : Nat) (bs : Bytes),
    (s.setBs a bs).getBs a bs.length = bs ∧
    (∀ b, b < a ∨ a + bs.length ≤ b → (s.setBs a bs).getB b = s.getB b) ∧
    (Memory.wf s = true →
      Memory.wf (s.setBs a bs) = true ∧ ∀ (n : Nat) (t : Option Nat),
        Memory.wf (s.retag a n t) = true ∧ Memory.wf (s.undefine a n) = true ∧ Memory.wf (s.zeroStore a n) = true)

/-- R240: a write that covers a 64-byte sector whole makes its poison that of the data; a write to a part of a poisoned sector leaves the mark. Outside
the bytes written, memory is as before; away from DRAM a sector's mark can always be kept (R305). -/
def Obligations.WritesCarryPoison : Prop :=
  (∀ (s : State) (a : Nat) (d : Bytes) (poison : Nat) (b : Nat), b < a ∨ a + d.length ≤ b →
    (s.writeMem a d poison).getB b = s.getB b) ∧
  (∀ (s : State) (x : Nat) (d : Bytes) (poison : Nat), x % 64 = 0 → 0xA000000000 ≤ x → d.length = 64 →
    (s.writeMem x d poison).getBs x 64 = d ∧ (s.writeMem x d poison).poisoned x = bit poison 0) ∧
  (∀ (s : State) (a : Nat) (d : Bytes) (poison : Nat), 0xA000000000 ≤ a → 0 < d.length → a % 64 + d.length < 64 →
    s.poisoned a = true → (s.writeMem a d poison).poisoned a = true)

/-! ### Board inputs, supplies, REFCLK (18_package_electrical.md) -/

/-- Table 18-6 (R648): PWR_GOOD low puts the whole power-on scope at its start at once, and the device waits; high, with the supplies within limits, it
begins stage 0. RESET_N low does the same and stage 0 begins; high, it ends EXTEST, and stage 1 may follow. HOLD_N low, or latched
unstable, stops every partition as HOLD does and counts the epoch; high, it leaves the partitions as they are. R649: PWR_GOOD and RESET_N latched unstable are in their safe state whatever their level, which
only BU_PINS shows. -/
def Obligations.FilteredPinLevelsAct : Prop :=
  (∀ s : State, s.unstable .pwrGood = false → Leads (.pwrGoodChange false) s fun t =>
    s.powersOn t ∧ t.boot = {} ∧ t.rd pgBu BU_PINS_PWR_GOOD = 0) ∧
  (∀ s : State, s.unstable .pwrGood = false → s.pins.vin = true → s.pins.vaux = true →
    Leads (.pwrGoodChange true) s fun t =>
      t.boot = { s.boot with begun := true } ∧ t.rd pgBu BU_PINS_PWR_GOOD = 1 ∧ s.sameBut [.regs, .boot] t) ∧
  (∀ (s : State) (b : Bool), s.unstable .pwrGood = true →
    Leads (.pwrGoodChange b) s fun t => t.rd pgBu BU_PINS_PWR_GOOD = b.toNat ∧ s.sameBut [.regs] t) ∧
  (∀ s : State, s.unstable .resetN = false → Leads (.resetNChange false) s fun t =>
    s.powersOn t ∧ t.boot = { begun := s.pinHigh .pwrGood && s.pins.vin && s.pins.vaux } ∧
    t.pins.byReset = s.pinHigh .pwrGood ∧ t.rd pgBu BU_PINS_RESET_N = 0) ∧
  (∀ s : State, s.unstable .resetN = false → Leads (.resetNChange true) s fun t =>
    t.rd pgBu BU_PINS_RESET_N = 1 ∧ t.pinHigh .resetN = true ∧
    t.pins = { s.pins with scan := if s.pins.scan = 0 then 15 else s.pins.scan } ∧ s.sameBut [.regs, .pins] t) ∧
  (∀ (s : State) (b : Bool), s.unstable .resetN = true →
    Leads (.resetNChange b) s fun t => t.rd pgBu BU_PINS_RESET_N = b.toNat ∧ s.sameBut [.regs] t) ∧
  (∀ (s : State) (b : Bool), b = false ∨ s.unstable .holdN = true → (s.queue pgBu).length < 16 →
    Leads (.holdNChange b) s fun t =>
      t.holdPin = true ∧ t.rd pgBu BU_PINS_HOLD_N = b.toNat ∧ (∀ p, p < s.partCount → t.part p = (s.part p).holdAt s.holdEpoch) ∧
      (s.pins.heldAt ≠ s.time.epochs + 1 → t.rd pgBu BU_PIN_HOLD_EPOCHS =
        min (s.rd pgBu BU_PIN_HOLD_EPOCHS + 1) (2 ^ BU_PIN_HOLD_EPOCHS.width - 1))) ∧
  (∀ s : State, s.unstable .holdN = false →
    Leads (.holdNChange true) s fun t => t.holdPin = false ∧ t.rd pgBu BU_PINS_HOLD_N = 1 ∧ s.sameBut [.regs] t)

/-- R649: the raw transitions of the last 1,000 ms are counted, the count shown up to 1,023; above 100 the pin is latched
unstable; after 100 ms without a transition the bit clears. R652, R490: the scan port takes EXTEST only before deployment and
with RESET_N asserted, SAMPLE only before deployment; every other code selects BYPASS. -/
def Obligations.PinStabilityAndScan : Prop :=
  (∀ (s : State) (p : Pin), Leads (.pinTransition p) s fun t =>
    t.rd pgBu (toggleField p) = min (s.edgesNow p).length 1023 ∧
    (100 < (s.edgesNow p).length → bit (t.rd pgBu BU_PINS_UNSTABLE) (pinIdx p) = true)) ∧
  (∀ (s : State) (p : Pin), bit (s.rd pgBu BU_PINS_UNSTABLE) (pinIdx p) = true →
    100 * msTicks ≤ s.real - (aget [] s.pins.edges (pinIdx p)).head?.getD 0 →
    Leads (.inputQuietExpiry p) s fun t => bit (t.rd pgBu BU_PINS_UNSTABLE) (pinIdx p) = false) ∧
  (∀ (s : State) (code : Fin 16), Leads (.scanInstruction code) s fun t =>
    s.sameBut [.pins] t ∧
    t.pins.scan =
      if (s.fuse.life = .manufacture ∨ s.fuse.life = .provisioned) ∧ code.val = 0 ∧ s.pinHigh .resetN = false then 0
      else if (s.fuse.life = .manufacture ∨ s.fuse.life = .provisioned) ∧ code.val = 2 then 2 else 15)

/-- R645: at REFCLK loss the compute clocks are gated, every Runner and CXL port is down, the time unit is LOST with its
counter stopped at its value, and BU_PINS.REFCLK_LOST is set; when REFCLK is back the counter runs on from its value. R642:
after VAUX loss only the Ledger and the fuses are kept. R650: at VAUX rise the pin registers take their reset values. -/
def Obligations.ReferenceAndSupplies : Prop :=
  (∀ s : State, Leads .refclkLoss s fun t =>
    t.pins.gated = true ∧ t.pins.refclk = false ∧ t.time.state = .lost ∧ t.time.running = false ∧
    t.time.ticks = s.time.ticks ∧ t.rd pgBu BU_PINS_REFCLK_LOST = 1 ∧
    (∀ q, q < 24 → t.rd (pgRunner q) RN_PSTAT_STATE = 0) ∧ ∀ x, x < 2 → t.rd (pgCxl x) CX_STATUS_STATE = 0) ∧
  (∀ s : State, s.pins.refclk = false → Leads .refclkRestored s fun t =>
    t.pins.refclk = true ∧ t.time.running = s.boot.begun ∧ t.time.ticks = s.time.ticks) ∧
  (∀ s : State, Leads (.vauxLoss true) s fun t =>
    t.pins.vaux = false ∧ t.parts = [] ∧ t.mem = [] ∧ t.time = {} ∧ t.ledger = s.ledger ∧ t.fuse = s.fuse ∧
    ∀ (pg : Nat) (F : Fld) (i : Nat), t.rd pg F i = F.resetAt i) ∧
  (∀ s : State, Leads .vauxRise s fun t =>
    t.pins.vaux = true ∧ t.pins.vin = true ∧ t.health.shutdown = none ∧ ∀ F ∈ pinRegs, t.rd pgBu F = 0)

/-! ### Start-up and resets (14_bringup_and_reset.md) -/

/-- R524 to R527: the stage that is next runs and reports its number and status; a FAILED stage stops start-up; the end of stage 11 is told; a stage whose
clocks do not lock stops. Stages 8 and 10 wait for their ports and for LOCKED, to their limit. R530: a saved set replaces that of a unit trained in full, and no other's. -/
def Obligations.StartUpStagesReport : Prop :=
  (∀ (s : State) (obs : StageObs), s.stageReady = true → s.stageNow ≠ 0 ∨ obs.clocks = true → s.stageWaits s.stageNow obs.us = false →
    Leads (.startUpStage obs) s fun t =>
      t.rd pgBu BU_STAGE_STAGE = s.stageNow ∧ (t.rd pgBu BU_STAGE_STATUS = 2 → t.boot.stopped = true) ∧
      (s.stageNow = 0 → obs.fuses = true → t.time.running = true ∧ t.time.state = .free ∧ t.rd pgSprue SP_STATUS_LINK = s.sprueLit.toNat) ∧
      (s.stageNow = 11 → t.rd pgBu BU_STAGE_DONE = 1)) ∧
  (∀ (s : State) (obs : StageObs), s.stageReady = true → s.stageNow = 0 → obs.clocks = false →
    Leads (.startUpStage obs) s fun t => t.boot.stopped = true ∧ s.sameBut [.boot] t) ∧
  (∀ (s : State) (obs : StageObs), s.stageReady = false ∨ s.stageWaits s.stageNow obs.us = true → Leads (.startUpStage obs) s fun t => s.sameBut [] t) ∧
  (∀ (s : State) (unit spares phase volt : Nat), s.on pgBu BU_CTRL_SAVE_EN = true → 4088 ≤ s.slot → unit ∈ s.ledger.unsaved → s.health.shutdown = none →
    Leads (.savedSetWrite unit spares phase volt) s fun t =>
      (∃ e, t.savedOf unit = some e ∧ e.spares = spares ∧ e.phase = phase ∧ e.volt = volt ∧ e.devid = s.devidTag) ∧
      (∀ u, u ≠ unit → t.savedOf u = s.savedOf u) ∧ unit ∉ t.ledger.unsaved ∧ s.sameBut [.ledger] t) ∧
  (∀ (s : State) (unit spares phase volt : Nat), unit ∉ s.ledger.unsaved → Leads (.savedSetWrite unit spares phase volt) s fun t => s.sameBut [] t)

/-- R550, R573: an accepted RESET or RECOVERY_RESTART answers OK and waits for the next slot. R544: a reset whose slot has
come closes its boundary: its units are in reset. -/
def Obligations.ResetsAreTakenAndAct : Prop :=
  (∀ (s : State) (c : Cmd), s.acts 0x0300 c → resetArgsOk c = true → s.resetBusy (resetOf c) = false →
    Leads (.reset c) s fun t =>
      s.completed t 0x0300 c 0 ∧ t.resets = s.resets ++ [{ resetOf c with at_ := s.time.slots + 1 }]) ∧
  (∀ (s : State) (c : Cmd), s.acts 0x0281 c → s.boot.recovery = true → fieldAt c.args 0x00 4 = c.id →
    Leads (.recoveryRestart c) s fun t =>
      s.completed t 0x0281 c 0 ∧ t.resets = s.resets ++ [{ scope := 4, at_ := s.time.slots + 1 }]) ∧
  (∀ (s : State) (r : Reset), s.resets = [r] → r.phase = .requested → r.at_ ≤ s.time.slots →
    Leads .resetActs s fun t =>
      (∃ x, t.resets = [x] ∧ x.phase = .draining ∧ x.scope = r.scope ∧ x.at_ = s.time.slots ∧ x.pages = s.scopePages r) ∧
      ∀ pg ∈ s.scopePages r, s.service pg ≠ 2 → t.service pg = 3)

/-- R545, R547: a drain that is done lets its reset run; a FULL reset starts afresh at stage 0, keeping the Ledger. R550: a
running reset that completes is over, and a CORE reset's unit is back in service, or fenced where its FENCE stands. -/
def Obligations.ResetsRunAndComplete : Prop :=
  (∀ (s : State) (r : Reset) (sectors lost : List Nat), s.resets = [r] → r.phase = .draining → r.scope = 4 →
    r.at_ + 313 ≤ s.time.slots →
    Leads (.drainEnd sectors lost) s fun t =>
      t.boot.next = 0 ∧ t.boot.begun = true ∧ t.parts = [] ∧ t.mem = [] ∧ t.time = {} ∧ t.resets = [] ∧
      t.rd pgBu BU_START_CAUSE = 1 ∧ t.ledger = s.ledger) ∧
  (∀ (s : State) (r : Reset) (sectors lost : List Nat), s.resets = [r] → r.phase = .draining → r.scope ≤ 1 →
    s.accepted r = [] →
    Leads (.drainEnd sectors lost) s fun t => t.resets = [{ r with phase := .running }]) ∧
  (∀ (s : State) (r : Reset) (obs : StageObs), s.resets = [r] → r.phase = .running → r.scope = 0 → r.riser < 8 → r.cluster < 10 →
    r.unit < 8 → s.service r.page ≠ 2 →
    Leads (.resetComplete obs) s fun t =>
      t.resets = [] ∧ t.service r.page = if s.on r.page PAGE_CTRL_FENCE then 1 else 0)

/-! ### Hall Time (02_hall_time.md) -/

/-- R450, R45: an accepted TIME frame is stamped T2 at its arrival and answered with T2, T3 and its XNUM; its T1 is kept for the
exchange. R51, R658: in ACQUIRE, at a slot boundary, the counter takes the step of the last exchange and passes through no slot or
epoch; from LOST the step waits until no partition is ARMED, RUNNING or HOLDING. -/
def Obligations.TimeFramesAndTheStep : Prop :=
  (∀ (s : State) (f : Frame) (frac : Fin 65536) (gap : Nat), s.accepts 0x01 f →
    Leads (.timeFrame f frac gap) s fun t =>
      t.time.validAt = s.time.slots ∧
      t.time.xchg = some ⟨fieldAt (bodyOf f) 0x14 4, fieldAt (bodyOf f) 0x00 10, s.time.ticks * 65536 + frac.val,
        s.time.ticks * 65536 + frac.val + gap⟩ ∧
      t.sprue.tx.head? = some (.time (fieldAt (bodyOf f) 0x14 4) (s.time.ticks * 65536 + frac.val)
        (s.time.ticks * 65536 + frac.val + gap) t.time.state.code) ∧
      t.time.ticks = s.time.ticks) ∧
  (∀ (s : State) (d : Int), s.time.step = some d → s.time.state = .acquire → s.time.stepDue = true → s.tick = 0 →
    (s.time.stepFromLost = true → ∀ p, p < s.partCount → (s.part p).run.live = false) →
    Leads .counterStep s fun t =>
      (t.time.ticks : Int) = ((s.time.ticks : Int) + d) % 2 ^ 64 ∧ t.time.slots = s.time.slots ∧ t.time.epochs = s.time.epochs ∧
      t.time.stepDue = false ∧ t.time.state = .acquire) ∧
  (∀ (s : State) (p : Nat), s.time.stepFromLost = true → p < s.partCount → (s.part p).run.live = true →
    Leads .counterStep s fun t => s.sameBut [] t)

/-- R52: 4,096 slots without a valid TIME frame take LOCKED to HOLDOVER. R54: where two marks have diverged, HOLDOVER is LOST at once. R53, R56: two seconds of HOLDOVER take it to LOST, and no
partition goes on running. R392: a port's mark is due at each multiple of 1,024 ticks, and a mark that the last verified LCF brought is kept with its
offset, for R54; any other is ignored. -/
def Obligations.HoldoverLossAndMarks : Prop :=
  (∀ s : State, s.time.state = .locked → 4096 ≤ s.time.slots - s.time.validAt → s.diverged.length < 2 →
    Leads .timeHoldover s fun t => t.time.state = .holdover ∧ t.time.holdAt = s.real ∧ t.time.ticks = s.time.ticks) ∧
  (∀ s : State, s.time.state = .locked → 4096 ≤ s.time.slots - s.time.validAt → 2 ≤ s.diverged.length →
    (s.queue pgHt).length < 16 → Leads .timeHoldover s fun t => t.time.state = .lost ∧ t.time.holdAt = s.real) ∧
  (∀ s : State, s.time.state ≠ .locked ∨ s.time.slots - s.time.validAt < 4096 → Leads .timeHoldover s fun t => s.sameBut [] t) ∧
  (∀ s : State, s.time.state = .holdover → 2000 * msTicks ≤ s.real - s.time.holdAt →
    Leads .holdoverExpiry s fun t => t.time.state = .lost ∧ t.time.holdAt = s.time.holdAt ∧
      ∀ p, p < s.partCount → (t.part p).run ≠ .running) ∧
  (∀ s : State, s.time.state ≠ .holdover ∨ s.real - s.time.holdAt < 2000 * msTicks →
    Leads .holdoverExpiry s fun t => s.sameBut [] t) ∧
  (∀ (s : State) (q : Fin 24), s.pst q = 6 → (s.port q).markAt < s.time.ticks / 1024 + 1 →
    Leads (.timeMarkSend q) s fun t => (t.port q).markDue = true ∧ (t.port q).markAt = s.time.ticks / 1024 + 1 ∧
      (∀ q', q' ≠ q.val → t.port q' = s.port q') ∧ s.sameBut [.runner] t) ∧
  (∀ (s : State) (q : Fin 24) (stamp : Nat) (st : Fin 5) (arrival : Nat), s.pst q = 6 → s.marks q stamp st arrival = true →
    Leads (.timeMark q stamp st arrival) s fun t =>
      aget {} t.time.marks q = ⟨s.real, unitsPs ((arrival : Int) - stamp) - s.rd (pgRunner q) RN_DELAY_PS,
        decide (st.val = 2)⟩ ∧ t.rd (pgRunner q) RN_TM_STATE_FRESH = 1) ∧
  (∀ (s : State) (q : Fin 24) (stamp : Nat) (st : Fin 5) (arrival : Nat), s.marks q stamp st arrival = false →
    Leads (.timeMark q stamp st arrival) s fun t => s.sameBut [] t)

/-- R71 to R74: at the boundary after epoch `e` a HOLDING partition whose decision has come is HELD, a RUNNING one whose last relative
epoch ends is DONE and any other goes on, and one ARMED for the next epoch runs: from relative epoch 0 by POUR, after the last ended one by RELEASE. -/
def Obligations.BoundaryEndsEpochs : Prop :=
  (∀ (s : State) (p e h : Nat), (s.part p).run = .holding → (s.part p).holdE = some h → h ≤ e → (s.part p).base ≤ (e : Int) →
    (s.part p).toIdle = false → ((s.part p).slot (s.part p).active).repeats = 0 →
    ((s.boundaryPart e p).part p).run = .held ∧ ((s.boundaryPart e p).part p).rel = some ((e : Int) - (s.part p).base).toNat) ∧
  (∀ (s : State) (p e : Nat), (s.part p).run = .running → (s.part p).base ≤ (e : Int) → (s.part p).toIdle = false →
    ((s.part p).slot (s.part p).active).repeats = 0 →
    ((s.boundaryPart e p).part p).run = .running ∧ ((s.boundaryPart e p).part p).rel = some ((e : Int) - (s.part p).base).toNat) ∧
  (∀ (s : State) (p e : Nat), (s.part p).run = .running → (s.part p).base ≤ (e : Int) → (s.part p).toIdle = false →
    ((s.part p).slot (s.part p).active).repeats ≠ 0 →
    ((e : Int) - (s.part p).base).toNat + 1 =
      max 1 ((s.part p).slot (s.part p).active).period * ((s.part p).slot (s.part p).active).repeats →
    ((s.boundaryPart e p).part p).run = .done) ∧
  (∀ (s : State) (p e : Nat), (s.part p).run = .armed → s.time.state ≠ .lost → (s.part p).holdE = none → (s.part p).startE = e + 1 →
    (s.part p).armOp = 0x0002 →
    ((s.boundaryPart e p).part p).run = .running ∧ ((s.boundaryPart e p).part p).base = (e : Int) + 1) ∧
  (∀ (s : State) (p e : Nat), (s.part p).run = .armed → s.time.state ≠ .lost → (s.part p).holdE = none → (s.part p).startE = e + 1 →
    (s.part p).armOp = 0x0004 →
    ((s.boundaryPart e p).part p).run = .running ∧
    ((s.boundaryPart e p).part p).base = (e : Int) + 1 - (((s.part p).rel.map (· + 1)).getD 0 : Nat))

/-- R426, R491: the boundary is prepared once, in slot 4095, and a DEPLOY accepted before is in effect from it. R307: in the
maintenance window channel e mod 32 of a Riser is re-centred. Table 2-3: the in-situ monitors are sampled in slots 4088 to 4091. R301: in its maintenance slot a channel
refreshes by its band, and every bank closes, but for rows that a run placed beyond that slot opens after it (R292). -/
def Obligations.MaintenanceWorkIsDone : Prop :=
  (∀ s : State, s.time.running = true → s.slot = 4095 → s.time.prepared ≠ s.time.epochs + 1 →
    Leads .boundaryPreparation s fun t => t.time.prepared = s.time.epochs + 1 ∧ t.time.ticks = s.time.ticks ∧
      (s.fuse.deploying = true → t.fuse = { s.fuse with life := .deployed, deploying := false }) ∧
      (s.fuse.deploying = false → t.fuse = s.fuse)) ∧
  (∀ s : State, s.time.running = false ∨ s.slot ≠ 4095 ∨ s.time.prepared = s.time.epochs + 1 →
    Leads .boundaryPreparation s fun t => s.sameBut [] t) ∧
  (∀ (s : State) (n : Fin 8) (phase volt lane xg : Nat) (pl : PlObs), 4094 ≤ s.slot →
    s.rd (pgChannel (32 * n + s.epoch % 32)) MC_STATUS_STATE ∈ [1, 2, 3] →
    s.recut (s.chan (32 * n + s.epoch % 32)).cut = false →
    Leads (.recentre n phase volt lane xg pl) s fun t =>
      t.rd (pgChannel (32 * n + s.epoch % 32)) MC_RECENTRE_EPOCH = s.epoch % 2 ^ 32 ∧
      t.rd (pgChannel (32 * n + s.epoch % 32)) MC_MARGIN_PHASE = phase % 256) ∧
  (∀ (s : State) (n : Fin 8) (phase volt lane xg : Nat) (pl : PlObs), s.slot < 4094 →
    Leads (.recentre n phase volt lane xg pl) s fun t => s.sameBut [] t) ∧
  (∀ (s : State) (k : Fin 80) (delay slack : Nat), 4088 ≤ s.slot → s.slot ≤ 4091 →
    Leads (.ageingMonitorSample k delay slack) s fun t =>
      aget delay t.health.least (s.delayKey k) = min delay (aget delay s.health.least (s.delayKey k)) ∧
      aget 0 t.health.slack k = min 65535 (aget 0 s.health.slack k + slack) ∧ s.sameBut [.health] t) ∧
  (∀ (s : State) (c : Fin 256), s.rd (pgChannel c) MC_STATUS_STATE ≠ 0 → maintSlot c (s.time.ticks / 256) = true →
    (s.chan c).maintAt ≠ s.time.slots + 1 → (s.chan c).due = [] →
    Leads (.memoryMaintenanceSlot c) s fun t =>
      (t.chan c).refreshes = (s.chan c).refreshes + refreshesOf (s.bandOf (c / 32)) ∧
      ((s.chan c).lastSlot ≤ s.cycles / s.cps → (t.chan c).rows = []) ∧
      (t.chan c).maintAt = s.time.slots + 1 ∧ t.rd (pgChannel c) MC_STATUS_BAND = s.bandOf (c / 32) % 4 ∧
      t.mem = s.mem ∧ t.poison = s.poison)

/-! ### Memory channels and wires (08_stacked_memory.md) -/

/-- R289 to R294: an entry of the channel's program that is next in its epoch runs: the bus is taken from where it starts to where
its last sector ends, and the next entry is the one after it. A read run stores nothing. R303: an entry one of whose rows waits for
its targeted refresh stops before that sector, and waits, once a slip. R544: a channel in reset absorbs it. R332: what a run within a
cacheable range touches is undefined there. -/
def Obligations.MemoryRunsInOrder : Prop :=
  (∀ (s : State) (c : Fin 256) (index : Nat) (b : Bytes) (w i v : Nat), s.chanSect c = some b → chanEntry b index = some w →
    timedAt b index = some (i, v) → s.playing (s.partOfRiser (c / 32)) = true →
    s.nextEntry c b (s.chan c) = some index → s.chanLive c = true →
    s.out (pgChannel c) = false → (s.chan c).part = 0 → (s.chan c).blocked ≠ index + 1 →
    (Chan.puts c (s.actTh c) s.cps (s.runPlan c w 0 (meCount w) false (s.chan c)).1 ((s.chan c).trim s.cycles)).2 = meCount w →
    (∀ k, k < meCount w → s.cacheable (s.sectorAt c (meSaddr w + k)) = false) →
    Leads (.memoryRun c index) s fun t =>
      (t.chan c).pc = index + 1 ∧ (t.chan c).prevDir = meOp w ∧
      (t.chan c).prevEnd = (s.runPlan c w 0 (meCount w) false (s.chan c)).2 ∧
      (∀ c', c' ≠ c.val → t.chan c' = s.chan c') ∧ (meOp w = 1 → t.mem = s.mem ∧ t.poison = s.poison)) ∧
  (∀ (s : State) (c : Fin 256) (index : Nat) (b : Bytes) (w i v : Nat), s.chanSect c = some b → chanEntry b index = some w →
    timedAt b index = some (i, v) → s.playing (s.partOfRiser (c / 32)) = true →
    s.nextEntry c b (s.chan c) = some index → s.chanLive c = true →
    s.out (pgChannel c) = false → (s.chan c).part = 0 → (s.chan c).blocked ≠ index + 1 →
    (Chan.puts c (s.actTh c) s.cps (s.runPlan c w 0 (meCount w) false (s.chan c)).1 ((s.chan c).trim s.cycles)).2 < meCount w →
    (∀ k, k < meCount w → s.cacheable (s.sectorAt c (meSaddr w + k)) = false) →
    Leads (.memoryRun c index) s fun t =>
      (t.chan c).pc = index ∧ (t.chan c).blocked = index + 1 ∧ (meOp w = 1 → t.mem = s.mem) ∧
      (t.chan c).part =
        (Chan.puts c (s.actTh c) s.cps (s.runPlan c w 0 (meCount w) false (s.chan c)).1 ((s.chan c).trim s.cycles)).2 ∧
      t.rd (pgChannel c) MC_HAMMER_COUNT = min (s.rd (pgChannel c) MC_HAMMER_COUNT + 1) (2 ^ MC_HAMMER_COUNT.width - 1)) ∧
  (∀ (s : State) (c : Fin 256) (index : Nat) (b : Bytes) (w i v : Nat), s.chanSect c = some b → chanEntry b index = some w →
    timedAt b index = some (i, v) → s.playing (s.partOfRiser (c / 32)) = true →
    s.nextEntry c b (s.chan c) = some index → s.chanLive c = true →
    s.out (pgChannel c) = true →
    Leads (.memoryRun c index) s fun t => (t.chan c).pc = index + 1 ∧ t.mem = s.mem ∧ t.poison = s.poison) ∧
  (∀ (s : State) (c : Fin 256) (index : Nat) (b : Bytes) (w i v : Nat), s.chanSect c = some b → chanEntry b index = some w →
    timedAt b index = some (i, v) → s.playing (s.partOfRiser (c / 32)) = true →
    s.nextEntry c b (s.chan c) = some index → s.chanLive c = true →
    s.out (pgChannel c) = false → (s.chan c).part = 0 → (s.chan c).blocked ≠ index + 1 →
    (Chan.puts c (s.actTh c) s.cps (s.runPlan c w 0 (meCount w) false (s.chan c)).1 ((s.chan c).trim s.cycles)).2 = meCount w →
    meOp w = 1 →
    Leads (.memoryRun c index) s fun t => (t.chan c).pc = index + 1 ∧
      ∀ k, k < meCount w → s.cacheable (s.sectorAt c (meSaddr w + k)) = true →
        cellAt t.mem (s.sectorAt c (meSaddr w + k)) = none ∧ backOf t.undef (s.sectorAt c (meSaddr w + k)) = none)

/-- R294: the oldest complete read word is driven at the layer's port in its cycle, or discarded and counted where no connection
takes it. R295: a word the schedule delivers in the channel's phase enters the write buffer, of 32 words at most, the sectors that came too late used up. R298, R299: a channel
serves its part of a queued request once, outside maintenance, where the program leaves it the bus, the first by level and age that it
can serve; R303: an activation that would pass the row's limit is not made, and the row is held for its targeted refresh (log entry 164). -/
def Obligations.ChannelWordsMove : Prop :=
  (∀ (s : State) (c : Fin 256) (e : Nat) (w : BWord) (rest : List (Nat × BWord)), (s.chan c).ready = (e, w) :: rest →
    Leads (.readWordDrive c) s fun t =>
      (t.chan c).ready = rest ∧
      (let k := phaseCycle s.cps c (24 * s.cps) ((e + 7) / 8 + 2)
       if s.net.taken s.cps (80 + c / 32) (layerPort c) k then
         t.net.driven = ⟨80 + c / 32, layerPort c, k, w, s.cycles⟩ :: s.net.driven ∧ t.regs = s.regs
       else t.net = s.net ∧
         t.rd (pgChannel c) MC_WDROP_READ = min (s.rd (pgChannel c) MC_WDROP_READ + 1) (2 ^ MC_WDROP_READ.width - 1))) ∧
  (∀ (s : State) (c : Fin 256) (cyc : Nat) (w : BWord) (m : Bool), cyc < s.cps →
    s.absCycle s.slot cyc % 4 = c.val % 4 → s.wordOut (80 + c / 32) (layerPort c) (s.absCycle s.slot cyc) = some (w, m) →
    (s.chan c).due = [] →
    Leads (.writeWordArrival c cyc) s fun t =>
      t.mem = s.mem ∧ t.poison = s.poison ∧
      (let kept := (s.chan c).wbuf.filter fun e => decide (e.used < 8 ∨ 8 * s.absCycle s.slot cyc < e.until_) || s.rewriting c e
       (t.chan c).wbuf = if 32 ≤ kept.length then kept
        else kept ++ [{ word := w, cycle := s.absCycle s.slot cyc, used := min 8 (s.chan c).skip }])) ∧
  (∀ (s : State) (c : Fin 256) (id : Nat) (q : Req) (l : List BusSector),
    (s.chanQueue c).find? (fun e => decide (e.1 = id)) = some (id, q) → s.chanLive c = true → s.openSlot c = true →
    s.servable c (s.chanQueue c) (id, q) = some l →
    (∀ x ∈ s.chanQueue c, before_ x (id, q) = true → s.servable c (s.chanQueue c) x = none) →
    Leads (.unscheduledAccess c id) s fun t =>
      t.req id = some { q with served := c.val :: q.served } ∧ t.mem = s.mem ∧
      t.rd (pgChannel c) MC_UNSCHED_COUNT = min (s.rd (pgChannel c) MC_UNSCHED_COUNT + 1) (2 ^ MC_UNSCHED_COUNT.width - 1)) ∧
  (∀ (s : State) (c : Fin 256) (id : Nat) (q : Req), (s.chanQueue c).find? (fun e => decide (e.1 = id)) = some (id, q) →
    s.openSlot c = false ∨ s.behind c (s.chanQueue c) (id, q) = true ∨ s.fit c (s.sectorsIn c q) q.dir = none →
    Leads (.unscheduledAccess c id) s fun t => s.sameBut [] t) ∧
  (∀ (s : State) (c : Fin 256) (id : Nat) (q : Req) (l : List BusSector),
    (s.chanQueue c).find? (fun e => decide (e.1 = id)) = some (id, q) → s.chanLive c = true → s.openSlot c = true →
    s.behind c (s.chanQueue c) (id, q) = false → s.fit c (s.sectorsIn c q) q.dir = some l → s.waitsRefresh c l = true →
    Leads (.unscheduledAccess c id) s fun t => t.hall = s.hall ∧ t.mem = s.mem ∧ t.chans = (s.holdRow c l).chans ∧
      t.rd (pgChannel c) MC_UNSCHED_COUNT = s.rd (pgChannel c) MC_UNSCHED_COUNT)

/-- The memory frame of the rows that carry write sectors: a byte outside the 64-byte sectors that the channel owes (those
due, and those of the entry that runs) is as before, where no sector of that entry lies in a cacheable range (R332). -/
def Obligations.ChannelRowsStoreOnlyDueSectors : Prop :=
  ∀ (s t : State) (c : Fin 256) (a : Nat), (∀ d ∈ (s.chan c).due, a < s.sectorAt c d.addr ∨ s.sectorAt c d.addr + 64 ≤ a) →
    (exec (.memoryMaintenanceSlot c) s = .next t → t.getB a = s.getB a) ∧
    (∀ cyc, exec (.writeWordArrival c cyc) s = .next t → t.getB a = s.getB a) ∧
    (∀ (index : Nat) (b : Bytes) (w : Nat), s.chanSect c = some b → chanEntry b index = some w →
      (∀ j, j < meCount w → a < s.sectorAt c (meSaddr w + j) ∨ s.sectorAt c (meSaddr w + j) + 64 ≤ a) →
      (∀ j, j < meCount w → s.cacheable (s.sectorAt c (meSaddr w + j)) = false) →
      exec (.memoryRun c index) s = .next t → t.getB a = s.getB a)

/-- R309, R305: a parity error of a channel whose group has no spare in use poisons the sector, or its
copy in a read word not yet driven, and counts; one of a column group counts, and declares no failure where no other error of its 32 wires lies within 256 cycles. R309, R310: a group that was declared lost takes a full-width channel with a sound other half to half
width on it. R306: a rewrite to which the program leaves a bus position, and that passes, stores the sector again and clears its mark; R316: one whose sector was written
since is dropped. -/
def Obligations.WireErrorsAreContained : Prop :=
  (∀ (s : State) (unit group addr : Nat), s.chanAt addr = unit → unit < 256 → group < 8 → addr < 0xA000000000 →
    bit (s.rd (pgChannel unit) MC_SPARES_USED) group = false → (s.poisonEntries unit).length < 4096 →
    (s.chan unit).reading (chanLocal (addr % 0x1400000000) / 64) = false →
    Leads (.laneParityError 0 unit group addr) s fun t =>
      t.poisoned addr = true ∧ t.mem = s.mem ∧ t.rd (pgChannel unit) MC_PARITY_GROUP = group ∧
      t.rd (pgChannel unit) MC_PARITY_COUNT = min (s.rd (pgChannel unit) MC_PARITY_COUNT + 1) (2 ^ MC_PARITY_COUNT.width - 1)) ∧
  (∀ (s : State) (unit group addr : Nat), s.chanAt addr = unit → unit < 256 → group < 8 → addr < 0xA000000000 →
    bit (s.rd (pgChannel unit) MC_SPARES_USED) group = false → (s.chan unit).prevDir = 1 →
    (s.chan unit).reading (chanLocal (addr % 0x1400000000) / 64) = true →
    Leads (.laneParityError 0 unit group addr) s fun t =>
      t.poison = s.poison ∧ t.mem = s.mem ∧
      (t.chan unit).ready = ((s.chan unit).hurtRead (chanLocal (addr % 0x1400000000) / 64)).ready) ∧
  (∀ (s : State) (n h group addr : Nat), n < 8 → h < 32 → group < 32 →
    Leads (.laneParityError 1 (n + 8 * h) group addr) s fun t =>
      (aget {} t.wires (32 * n + group)).parity = min 65535 ((aget {} s.wires (32 * n + group)).parity + 1) ∧
      t.net.hurt = ((groupInput n group).1 * 64 + (groupInput n group).2, addr, 255) :: s.net.hurt ∧
      ((∀ x ∈ (aget {} s.wires (32 * n + group)).errs, x.1 = h → x.2 + 256 ≤ s.cycles) →
        (aget {} t.wires (32 * n + group)).declared = (aget {} s.wires (32 * n + group)).declared)) ∧
  (∀ (s : State) (unit group addr : Nat), unit < 2 → group < 200 →
    Leads (.laneParityError 2 unit group addr) s fun t =>
      t.rd pgParting MC_PL_PARITY_GROUP = group ∧ t.rd pgParting MC_PL_PARITY_DIR = unit ∧
      t.rd pgParting MC_PL_PARITY_COUNT = min (s.rd pgParting MC_PL_PARITY_COUNT + 1) (2 ^ MC_PL_PARITY_COUNT.width - 1)) ∧
  (∀ (s : State) (unit group : Nat), unit < 256 → group < 8 → bit (s.chan unit).declared group = true →
    s.rd (pgChannel unit) MC_STATUS_STATE ∈ [1, 2] → (s.chan unit).bad = 0 → s.rd (pgChannel unit) MC_SPARES_EXHAUSTED = 0 →
    Leads (.laneFailure 0 unit group) s fun t =>
      t.rd (pgChannel unit) MC_STATUS_STATE = 3 ∧ t.rd (pgChannel unit) MC_STATUS_HALF_UPPER = (if group < 4 then 1 else 0)) ∧
  (∀ (s : State) (unit group : Nat), unit < 256 → group < 8 → bit (s.chan unit).declared group = false → s.redescribe = s →
    Leads (.laneFailure 0 unit group) s fun t => s.sameBut [] t) ∧
  (∀ (s : State) (n h group : Nat), n < 8 → h < 2 → group < 32 →
    (bit (aget {} s.wires (32 * n + group)).declared h || bit (aget {} s.wires (32 * n + group)).declared 2) = true →
    s.groupState n group < 2 →
    Leads (.laneFailure 1 (n + 8 * h) group) s fun t =>
      t.groupState n group = 2 ∧ (aget {} t.wires (32 * n + group)).upper = decide (h = 0)) ∧
  (∀ (s : State) (d h group : Nat), d < 2 → h < 2 → group < 200 →
    (bit (aget {} s.wires (256 + d)).declared h || bit (aget {} s.wires (256 + d)).declared 2) = true →
    s.rd pgParting (if d = 0 then MC_PL_STATE_CD else MC_PL_STATE_DC) < 2 →
    Leads (.laneFailure 2 (d + 8 * h) group) s fun t =>
      t.rd pgParting (if d = 0 then MC_PL_STATE_CD else MC_PL_STATE_DC) = 2 ∧
      t.rd pgParting (if d = 0 then MC_PL_STATE_CD_UPPER else MC_PL_STATE_DC_UPPER) = 1 - h) ∧
  (∀ (s : State) (c : Fin 256) (x : Nat) (d : Bytes), (s.chan c).rewrite.find? (fun e => decide (e.1 = x)) = some (x, d) →
    x % 64 = 0 → x < 0xA000000000 → d.length = 64 → s.deadAt x = false → s.awaiting x = true →
    (s.access c [chanLocal (x % 0x1400000000) / 64] 2).isSome = true →
    Leads (.writeParityRewrite c x true) s fun t =>
      t.getBs x 64 = d ∧ t.poisoned x = false ∧ (t.chan c).rewrite.find? (fun e => decide (e.1 = x)) = none ∧
      ∀ b, b < x ∨ x + 64 ≤ b → t.getB b = s.getB b) ∧
  (∀ (s : State) (c : Fin 256) (x : Nat) (passed : Bool), s.awaiting x = false →
    Leads (.writeParityRewrite c x passed) s fun t => t.mem = s.mem ∧ t.poison = s.poison ∧
      (t.chan c).rewrite.find? (fun e => decide (e.1 = x)) = none)

/-- R311: a retraining starts only at an epoch boundary while its partition is at rest, one channel at a time in a controller's eight; R312: it keeps
what the unit was. When it is done the new settings apply and the unit is in service again. -/
def Obligations.RetrainingRuns : Prop :=
  (∀ (s : State) (u : Nat), u < 256 → s.slot = 0 → s.atRest (s.partOfRiser (u / 32)) = true → s.chanDue u = true →
    (∀ i, i < 8 → s.rd (pgChannel (u / 8 * 8 + i)) MC_STATUS_STATE ≠ 4) →
    Leads (.retrainingStart 0 u) s fun t =>
      t.rd (pgChannel u) MC_STATUS_STATE = 4 ∧ (t.chan u).was = s.rd (pgChannel u) MC_STATUS_STATE ∧
      (t.chan u).training = s.time.epochs + 1) ∧
  (∀ (s : State) (k : Fin 2) (u : Nat), u < 256 → s.atRest (s.partOfRiser (u / 32)) = false ∨ s.slot ≠ 0 →
    Leads (.retrainingStart k u) s fun t => s.sameBut [] t) ∧
  (∀ (s : State) (u : Nat), u < 256 → s.slot = 0 → s.atRest (s.partOfRiser (u / 32)) = true → s.groupState (u / 32) (u % 32) = 2 →
    (aget {} s.wires u).training = 0 →
    Leads (.retrainingStart 1 u) s fun t => (aget {} t.wires u).training = s.time.epochs + 1 ∧ s.sameBut [.wires] t) ∧
  (∀ (s : State) (u : Nat) (o : LaneObs), u < 256 → s.rd (pgChannel u) MC_STATUS_STATE = 4 → (s.chan u).training + 1 ≤ s.time.epochs →
    Leads (.retrainingDone 0 u o) s fun t =>
      t.rd (pgChannel u) MC_STATUS_STATE ∈ [1, 2, 3, 5] ∧ (t.chan u).training = 0 ∧
      ((s.happened (pgChannel u) MC_TRAIN_CTRL_REQUEST).2 = 0 → t.rd (pgChannel u) MC_TRAIN_CTRL_REQUEST = 0) ∧
      t.rd (pgChannel u) MC_MARGIN_PHASE = o.phase % 256) ∧
  (∀ (s : State) (u : Nat) (o : LaneObs), u < 256 → (aget {} s.wires u).training ≠ 0 →
    (aget {} s.wires u).training ≤ s.time.epochs →
    Leads (.retrainingDone 1 u o) s fun t =>
      (aget {} t.wires u).training = 0 ∧ (aget {} t.wires u).spares = min 32 ((aget {} s.wires u).spares + o.weak.length))

/-! ### The networks (07_networks.md) -/

/-- R235, R236: an entry of a router's schedule in its relative epoch sets its connections from its stamp. R246, R248: the first
token that has arrived at a store is applied: SET replaces, ADD adds modulo 2^64, no other flag changes. R250: on one die a token takes
3 + 2h cycles. R253: a step of 64 cycles over, the hub injects the next chunk, and a chunk once accepted stays. R239: a crossing's parity error
marks all sectors of the word, is counted and names its port (log entry 31: all eight). -/
def Obligations.NetworksCarryWordsAndTokens : Prop :=
  (∀ (s : State) (r : Fin 88) (index w : Nat), s.schedEntry r index = some w → s.playing (s.partOfRiser (routerRiser r)) = true →
    s.rd (pgBulk r) NW_BSTAT_MODE = 2 → stampEpoch w = s.relInPeriod (s.partOfRiser (routerRiser r)) →
    Leads (.scheduleEntry r index) s fun t =>
      t.net = { s.net with conns := s.net.conns ++ entryConns r (s.absCycle (stampSlot w) (stampCyc w)) w }) ∧
  (∀ (s : State) (st : Fin 88) (k : Flying), s.net.nextToken st s.cycles = some k → k.index < 4096 →
    Leads (.syncTokenArrival st) s fun t =>
      t.flag st k.index = (if k.op = 0 then k.value else s.flag st k.index + k.value) % 2 ^ 64 ∧
      t.net.tokens = s.net.tokens.erase k ∧
      (∀ st' i, i < 4096 → (st', i) ≠ (st.val, k.index) → t.flag st' i = s.flag st' i)) ∧
  (∀ (s : State) (t own r store index op value : Nat), s.net.tokens = [] → s.net.tables = [] → r < 80 → store < 80 →
    r / 10 = store / 10 →
    ∃ k, (s.flyToken t own r store index op value).net.tokens = [k] ∧ k.store = store ∧ k.index = index ∧
      k.due = t + 3 + 2 * (((r % 5 : Int) - store % 5).natAbs + ((r / 5 % 2 : Int) - store / 5 % 2).natAbs)) ∧
  (∀ (s : State) (n : Fin 8) (chunk : Nat), aget 0 s.net.stepAt n ≤ s.cycles → s.floods (80 + n) = true →
    Leads (.neighbourModeStep n chunk) s fun t =>
      chunk ∈ aget [] t.net.chunks (80 + n) ∧ (∀ r k, k ∈ aget [] s.net.chunks r → k ∈ aget [] t.net.chunks r) ∧
      s.sameBut [.net] t) ∧
  (∀ (s : State) (r : Fin 88) (p : Fin 64) (group cyc : Nat),
    (if r.val < 80 then p.val = 4 else p.val < 8 ∨ 32 ≤ p.val ∧ p.val ≤ 41) → (feeder r p).isSome = true →
    Leads (.crossingParityError r p group cyc) s fun t =>
      t.net.hurt = (r.val * 64 + p.val, s.absCycle s.slot cyc, 255) :: s.net.hurt ∧ t.rd (pgBulk r) NW_XPARITY_PORT = p.val ∧
      t.rd (pgBulk r) NW_XPARITY_COUNT = min (s.rd (pgBulk r) NW_XPARITY_COUNT + 1) (2 ^ NW_XPARITY_COUNT.width - 1))

/-- R242 to R244, R253: a control router with its tables, whose local output has sent nothing in this cycle, sends the Indigo flit that the output
picks, and its packet holds the output to its last flit; one without tables forwards nothing. R271: a
router declared bad is bad, its cluster is fenced, and tables are to avoid it. -/
def Obligations.ControlRoutersForward : Prop :=
  (∀ (s : State) (r : Fin 88) (f : CFlit), s.rd (pgControl r) NW_CSTAT_STATE = 1 → s.flitRoom r 63 s.cycles = true →
    s.pickFlit r 63 1 = some f →
    Leads (.routerForward r 63) s fun t =>
      (f.inp ≠ 63 → aget [] t.net.flits r = (aget [] s.net.flits r).erase f) ∧
      aget 0 t.net.busy ((r * 64 + 63) * 2 + f.vc) = (if f.last then 0 else f.key)) ∧
  (∀ (s : State) (r : Fin 88) (o : Fin 64), s.rd (pgControl r) NW_CSTAT_STATE ≠ 1 ∨ s.flitRoom r o s.cycles = false →
    Leads (.routerForward r o) s fun t => s.sameBut [] t) ∧
  (∀ (s : State) (r : Fin 88) (cause : Fin 2), s.rd (pgBulk r) NW_BSTAT_MODE ≠ 3 → r.val < 80 →
    Leads (.routerBad r 0 cause) s fun t =>
      t.rd (pgBulk r) NW_BSTAT_MODE = 3 ∧ r.val ∈ t.net.avoid ∧
      (s.service (pgCluster r) = 0 → t.service (pgCluster r) = 1))

/-! ### What comes by other packages (11_hall_memory.md) -/

/-- R430: with no STOP the sync unit at the head of a receive buffer passes, each of its tokens on its way, and its credit goes back; on a port of no partition or
another's its tokens are discarded. R424: the oldest request for a member
package leaves by the route of its port's partition, its HOPS raised by one. R429: a STOP_RELAY packet is taken from the inbox, and its command, where
its frame passes the checks and the intake takes it, joins the intake, to be answered by the port it came on; another frame is discarded. R434: a STOP
whose DURATION expired ends. -/
def Obligations.PacketsPass : Prop :=
  (∀ (s : State) (q : Fin 24) (b : Bytes) (z : Bool) (rest : List (Bytes × Bool)), (s.port q).rxSync = (b, z) :: rest →
    (s.port q).stop = none → s.foreign q = false →
    Leads (.ingressUnit q 0) s fun t => (t.port q).rxSync = rest ∧ (t.port q).freeSync = (s.port q).freeSync + 1 ∧
      t.net = ((tokensOf b).foldl (fun u k => u.tokenIn q k) s).net) ∧
  (∀ (s : State) (q : Fin 24) (b : Bytes) (z : Bool) (rest : List (Bytes × Bool)), (s.port q).rxSync = (b, z) :: rest →
    s.foreign q = true →
    Leads (.ingressUnit q 0) s fun t => (t.port q).rxSync = rest ∧ (t.port q).freeSync = (s.port q).freeSync + 1 ∧ t.net = s.net) ∧
  (∀ (s : State) (q : Fin 24) (vc : Fin 3), (s.port q).rxSync = [] → (s.port q).rxIndigo = [] → (s.port q).rxWoad = [] →
    Leads (.ingressUnit q vc) s fun t => s.sameBut [] t) ∧
  (∀ (s : State) (q : Fin 24) (e : Nat × Packet) (o p : Nat),
    s.hall.inbox.find? (fun x => decide (x.1 = q.val ∧ x.2.op ≠ 0x3F)) = some e → bit e.2.ctrl 7 = false →
    s.membState (e.2.dest / 2 ^ 48 % 2 ^ 16) = 2 → e.2.hops + 1 ≤ s.rd pgHall NW_HHOPMAX_MAX → s.rnOwner q = some p →
    s.routeFor p (e.2.dest / 2 ^ 48 % 2 ^ 16) = some o →
    Leads (.transitPacket q) s fun t =>
      t.hall.inbox = s.hall.inbox.erase e ∧
      (∃ x ∈ (t.port o).txIndigo ++ (t.port o).txWoad, x.pkt = { e.2 with hops := e.2.hops + 1 })) ∧
  (∀ (s : State) (q : Fin 24) (e : Nat × Packet) (f : Frame),
    s.hall.inbox.find? (fun x => decide (x.1 = q.val ∧ x.2.op = 0x3F)) = some e → f = frameOf e.2.payload → f.ty = 0x02 → s.admits f →
    s.sprue.memory.find? (fun x => decide (x.1 = (cmdOf f true).id)) = none →
    s.intakeStatus s.sprue.key.isSome (opOf f) (cmdOf f true) = 0 →
    Leads (.stopRelay q) s fun t =>
      t.hall.inbox = s.hall.inbox.erase e ∧ t.hall.relayIn = s.hall.relayIn ++ [((cmdOf f true).id, q.val, e.2)] ∧
      t.sprue.intake = enqueueCmd ⟨opOf f, cmdOf f true, s.dueOf (cmdOf f true)⟩ s.sprue.intake) ∧
  (∀ (s : State) (q : Fin 24) (e : Nat × Packet),
    s.hall.inbox.find? (fun x => decide (x.1 = q.val ∧ x.2.op = 0x3F)) = some e → (frameOf e.2.payload).ty ≠ 0x02 →
    Leads (.stopRelay q) s fun t => t.hall.inbox = s.hall.inbox.erase e ∧ t.sprue = s.sprue ∧
      t.rd pgSprue SP_DISCARD_COUNT = min (s.rd pgSprue SP_DISCARD_COUNT + 1) (2 ^ SP_DISCARD_COUNT.width - 1)) ∧
  (∀ (s : State) (q : Fin 24) (f : StopFilter) (e : Nat), (s.port q).stop = some f → f.ends = some e → e ≤ s.time.slots →
    Leads (.stopExpiry q) s fun t => (t.port q).stop = none ∧ t.rd pgHall NW_HSTOP_ACTION q = 0)

/-- R434: a STOP names its ports and is in force on each from the next slot; RESUME ends the one in force. R429: RELAY sends the
enclosed frame unchanged. -/
def Obligations.StopAndRelayAct : Prop :=
  (∀ (s : State) (c : Cmd) (q : Nat), s.turnFirst c = true → s.partOk 0x0010 c = true →
    (stopOf c).action < 3 → (stopOf c).classes < 8 → (stopOf c).limit ≤ 1024 → fieldAt c.args 0x10 4 < 2 ^ 20 →
    ¬((stopOf c).action = 2 ∧ bit (stopOf c).classes 1 = true) → q ∈ stopPorts (stopOf c).ports →
    (s.port q).stop.map StopFilter.id ≠ some (stopOf c).id →
    Leads (.stop c) s fun t =>
      s.completed t 0x0010 c 0 ∧ t.rd pgHall NW_HSTOP_ID_ID = (stopOf c).id % 2 ^ 32 ∧
      (t.port q).stop = (if (stopOf c).action = 0 then none else
        some { stopOf c with starts := s.time.slots + 1,
                             ends := if fieldAt c.args 0x10 4 = 0 then none else some (s.time.slots + 1 + fieldAt c.args 0x10 4) })) ∧
  (∀ (s : State) (c : Cmd), s.turnFirst c = true → s.partOk 0x0011 c = true → fieldAt c.args 0x00 1 < 24 →
    fieldAt c.args 0x12 2 ≤ 416 →
    Leads (.relay c) s fun t =>
      s.completed t 0x0011 c 0 ∧ aget 0 t.hall.relays (c.id % 65536) = fieldAt c.args 0x00 1 ∧
      ∃ x ∈ (t.port (fieldAt c.args 0x00 1)).txIndigo, x.pkt.op = 0x3F ∧
        x.pkt.payload = slice c.args 0x10 (32 + fieldAt c.args 0x12 2))

/-! ### Pattern commands (02_hall_time.md) -/

/-- R71 to R73: POUR arms a LOADED slot of a partition at rest for epoch E, RELEASE a HELD partition's active one, under the lead
rule, in LOCKED, with no hold standing. HOLD takes RUNNING to HOLDING, undoes an arming, leaves every other state, and names one
partition or all. Each changes no other partition. R504: while the partition's far tier is re-encrypted, POUR and RELEASE are refused BUSY. -/
def Obligations.PourHoldReleaseMovePartitions : Prop :=
  (∀ (s : State) (c : Cmd) (k e : Nat), s.acts 0x0002 c → fieldAt c.args 0x00 1 = k → fieldAt c.args 0x08 8 = e → k < 2 →
    ((s.part c.part).slot k).st = .loaded → (s.part c.part).run.live = false → s.tooEarly e = false → s.time.state = .locked →
    s.holdPin = false → s.protectHold c.part = false → s.partShut c.part = false → s.rotating c.part = false →
    Leads (.pour c) s fun t =>
      s.completed t 0x0002 c 0 ∧ (t.part c.part).run = .armed ∧ (t.part c.part).active = k ∧ (t.part c.part).startE = e ∧
      ((t.part c.part).slot k) = ((s.part c.part).slot k) ∧ ∀ p, p ≠ c.part → t.part p = s.part p) ∧
  (∀ (s : State) (c : Cmd) (e : Nat), s.acts 0x0004 c → fieldAt c.args 0x08 8 = e → (s.part c.part).run = .held →
    (s.part c.part).gone = false → ((s.part c.part).slot (s.part c.part).active).st = .loaded → s.tooEarly e = false →
    s.time.state = .locked → s.holdPin = false → s.protectHold c.part = false → s.partShut c.part = false →
    s.rotating c.part = false →
    Leads (.release c) s fun t =>
      s.completed t 0x0004 c 0 ∧ (t.part c.part).run = .armed ∧ (t.part c.part).active = (s.part c.part).active ∧
      (t.part c.part).startE = e ∧ (t.part c.part).rel = (s.part c.part).rel ∧ ∀ p, p ≠ c.part → t.part p = s.part p) ∧
  (∀ (s : State) (c : Cmd) (p : Nat), s.acts 0x0003 c →
    c.part ≠ 0xFF ∧ p = c.part ∨ c.part = 0xFF ∧ p < s.partCount →
    Leads (.hold c) s fun t =>
      s.completed t 0x0003 c 0 ∧
      t.part p = (match (s.part p).run with
        | .armed => { s.part p with run := (s.part p).prev, active := (s.part p).prevActive, holdE := none }
        | .running => { s.part p with run := .holding, holdE := some (if s.slot = 4095 then s.epoch + 1 else s.epoch) }
        | _ => s.part p)) ∧
  (∀ (s : State) (c : Cmd) (p : Nat), c.part ≠ 0xFF → p ≠ c.part → s.acts 0x0003 c →
    Leads (.hold c) s fun t => t.part p = s.part p) ∧
  (∀ (s : State) (c : Cmd), s.acts 0x0002 c → s.partShut c.part = false → fieldAt c.args 0x00 1 < 2 → s.rotating c.part = true →
    Leads (.pour c) s fun t => s.completed t 0x0002 c stBUSY) ∧
  (∀ (s : State) (c : Cmd), s.acts 0x0004 c → s.partShut c.part = false → s.rotating c.part = true →
    Leads (.release c) s fun t => s.completed t 0x0004 c stBUSY)

/-- R70: an accepted LOAD_PATTERN makes its slot LOADING, binds its BULK stream, and is not answered yet; when its image has
arrived and passes, the slot is LOADED with the image's period, measured, and the load answered OK; an image that does not pass
leaves the slot EMPTY. An image for the slot that its partition runs is checked beside it (log entry 112) and answered BUSY where it
passes. -/
def Obligations.PatternsLoad : Prop :=
  (∀ (s : State) (c : Cmd), s.acts 0x0001 c → s.loadCheck c = 0 →
    Leads (.loadPattern c) s fun t =>
      ((s.part c.part).inUse (fieldAt c.args 0x00 1) = false → ((t.part c.part).slot (fieldAt c.args 0x00 1)).st = .loading) ∧
      ((s.part c.part).inUse (fieldAt c.args 0x00 1) = true →
        (t.part c.part).slot (fieldAt c.args 0x00 1) = (s.part c.part).slot (fieldAt c.args 0x00 1) ∧
        (t.part c.part).loadsInto (fieldAt c.args 0x00 1) = true) ∧
      (t.part c.part).run = (s.part c.part).run ∧
      t.rspOf c.id = none ∧ t.actedAt c.id = some s.time.ticks ∧ (∀ q ∈ t.sprue.intake, q.cmd.id ≠ c.id) ∧
      (fieldAt c.args 0x01 1 = 0 → ∃ x ∈ t.sprue.streams, x.num = fieldAt c.args 0x02 2 ∧ x.binder = 0 ∧ x.part = c.part ∧ x.data = []) ∧
      ∀ p, p ≠ c.part → t.part p = s.part p) ∧
  (∀ (s : State) (p : Fin 8) (k : Fin 2) (b d : Bytes), s.loadDue p k = true → s.partShut p = false → s.imageFor p k = some b →
    s.judgeImage p b = (0, d) → (s.part p).inUse k = false →
    Leads (.patternLoadDone p k) s fun t =>
      ((t.part p).slot k).st = .loaded ∧ ((t.part p).slot k).period = hdPeriod d ∧ ((t.part p).slot k).repeats = hdRepeat d ∧
      t.ms (8 + p) = sha256 (s.ms (8 + p) ++ le 1 3 ++ sha256 (signedPart b)) ∧
      t.rspOf (s.loadOf p k).loadId = some (.rsp (s.loadOf p k).loadId 0x0001 0 ((s.actedAt (s.loadOf p k).loadId).getD s.time.ticks) p [])) ∧
  (∀ (s : State) (p : Fin 8) (k : Fin 2) (b : Bytes), s.loadDue p k = true → s.partShut p = false → s.imageFor p k = some b →
    (s.judgeImage p b).1 ≠ 0 →
    Leads (.patternLoadDone p k) s fun t =>
      ((t.part p).slot k).st = (if (s.part p).inUse k then ((s.part p).slot k).st else .empty) ∧
      t.rspOf (s.loadOf p k).loadId =
        some (.rsp (s.loadOf p k).loadId 0x0001 (s.judgeImage p b).1 s.time.ticks p [])) ∧
  (∀ (s : State) (p : Fin 8) (k : Fin 2) (b : Bytes), s.loadDue p k = true → s.partShut p = false → s.imageFor p k = some b →
    (s.judgeImage p b).1 = 0 → (s.part p).inUse k = true →
    Leads (.patternLoadDone p k) s fun t =>
      (t.part p).slot k = (s.part p).slot k ∧
      t.rspOf (s.loadOf p k).loadId = some (.rsp (s.loadOf p k).loadId 0x0001 stBUSY s.time.ticks p []))

/-! ### The Sprue port (12_sprue.md) -/

/-- R452, R454: a CMD frame that passes every check of the intake joins it by START, its CMD_ID held; one that fails a check is
answered at once with that check's status; a CMD_ID held and completed gets its RSP again. R442, R447: a frame of a reserved type
is discarded and counted. -/
def Obligations.CommandFramesReachTheIntake : Prop :=
  (∀ (s : State) (f : Frame), s.accepts 0x02 f → s.sprue.memory.find? (fun e => decide (e.1 = (cmdOf f false).id)) = none →
    s.intakeStatus s.sprue.key.isSome (opOf f) (cmdOf f false) = 0 →
    Leads (.cmd f) s fun t =>
      t.sprue.intake = enqueueCmd ⟨opOf f, cmdOf f false, s.dueOf (cmdOf f false)⟩ s.sprue.intake ∧
      t.sprue.memory.find? (fun e => decide (e.1 = (cmdOf f false).id)) = some ((cmdOf f false).id, none) ∧ t.sprue.tx = s.sprue.tx) ∧
  (∀ (s : State) (f : Frame), s.accepts 0x02 f → s.sprue.memory.find? (fun e => decide (e.1 = (cmdOf f false).id)) = none →
    s.intakeStatus s.sprue.key.isSome (opOf f) (cmdOf f false) ≠ 0 → s.sprue.tx.length < 256 →
    Leads (.cmd f) s fun t =>
      t.sprue.intake = s.sprue.intake ∧
      .rsp (cmdOf f false).id (opOf f) (s.intakeStatus s.sprue.key.isSome (opOf f) (cmdOf f false)) s.time.ticks f.part [] ∈ t.sprue.tx ∧
      t.rd pgSprue SP_INTAKE_REFUSED =
        min (s.rd pgSprue SP_INTAKE_REFUSED + 1) (2 ^ SP_INTAKE_REFUSED.width - 1)) ∧
  (∀ (s : State) (f : Frame) (r : TxFrame), s.accepts 0x02 f →
    s.rspOf (cmdOf f false).id = some r → (∃ o st a p d, r = .rsp (cmdOf f false).id o st a p d) → s.sprue.tx.length < 256 →
    Leads (.cmd f) s fun t => r ∈ t.sprue.tx ∧ t.sprue.intake = s.sprue.intake) ∧
  (∀ (s : State) (f : Frame), frameTyOk f.ty = false → f.uncorr = false → s.rd pgSprue SP_STATUS_LINK = 2 →
    Leads (.frameDiscarded f) s fun t =>
      t.rd pgSprue SP_DISCARD_COUNT = min (s.rd pgSprue SP_DISCARD_COUNT + 1) (2 ^ SP_DISCARD_COUNT.width - 1) ∧
      t.sprue = { s.sprue with rxLine := t.sprue.rxLine } ∧ s.sameBut [.regs, .sprue] t)

/-- R457: an accepted register frame is answered in one response, its entries read or written one after the other, each answered in its place; a
word of a page that reads answers its value, SCRATCH written is answered OK and holds what was written. R661: without a key, and during start-up outside the pages
then open, an entry answers REGION-DENIED and nothing is read or written. -/
def Obligations.RegisterFramesAreAnswered : Prop :=
  (∀ (s : State) (f : Frame), s.accepts 0x05 f → s.sprue.tx.length < 256 →
    Leads (.regrd f) s fun t =>
      .reg false f.part ((regEntries (bodyOf f)).foldl (State.regrdEntry s.sprue.key.isSome) (s.taking f, [])).2 ∈ t.sprue.tx ∧
      ((regEntries (bodyOf f)).foldl (State.regrdEntry s.sprue.key.isSome) (s.taking f, [])).2.length =
        (regEntries (bodyOf f)).length) ∧
  (∀ (s : State) (f : Frame) (pg o v : Nat), s.accepts 0x05 f → s.sprue.tx.length < 256 → s.sprue.key.isSome = true →
    s.started = true → regEntries (bodyOf f) = [(offOf pg o, v)] → reachStatus pgSprue (offOf pg o) = 0 →
    placeOf (offOf pg o) = .page pg o → s.closedTo pgSprue pg = false → isCompanion pg o = false →
    Leads (.regrd f) s fun t => .reg false f.part [((s.taking f).regWord pg o, 0)] ∈ t.sprue.tx) ∧
  (∀ (s : State) (f : Frame), s.accepts 0x06 f → s.sprue.tx.length < 256 → s.sprue.key = none →
    Leads (.regwr f) s fun t =>
      .reg true f.part ((regEntries (bodyOf f)).map fun _ => (0, xREGIONDENIED)) ∈ t.sprue.tx ∧ t.mem = s.mem ∧ t.resets = s.resets) ∧
  (∀ (s : State) (f : Frame), s.accepts 0x05 f → s.sprue.tx.length < 256 → s.sprue.key = none →
    (∀ x ∈ regEntries (bodyOf f), onDevicePages x.1 = false) →
    Leads (.regrd f) s fun t =>
      .reg false f.part ((regEntries (bodyOf f)).map fun _ => (0, xREGIONDENIED)) ∈ t.sprue.tx ∧ t.latches = s.latches) ∧
  (∀ (s : State) (f : Frame) (pg w : Nat), s.accepts 0x06 f → s.sprue.tx.length < 256 → s.sprue.key.isSome = true →
    s.started = true → f.seq < seqLate → regEntries (bodyOf f) = [(offOf pg (SCRATCH_VALUE.at 0), w)] →
    s.takes .sprue pg (SCRATCH_VALUE.at 0) w →
    Leads (.regwr f) s fun t =>
      .reg true f.part [(0, 0)] ∈ t.sprue.tx ∧ t.rd pg SCRATCH_VALUE = w % 2 ^ 32 ∧ t.mem = s.mem)

/-- R462, R463: data of a BULK frame at the next offset join their stream; a stream that waits too long ends; 15 records, or one of Madder, or
four slots, send an EVT frame. R448, R641: with light, REFCLK and both supplies, 64 consecutive good AM frames bring the port UP; eight AM positions without one take it DOWN, as VLAS
absent does; light returns the laser. -/
def Obligations.StreamsEventsAndTheLink : Prop :=
  (∀ (s : State) (f : Frame) (x : Stream), s.accepts 0x08 f → (s.sprue.key.isSome && s.started || s.boot.recovery) = true →
    s.sprue.streams.find? (fun t => decide (t.num = fieldAt (bodyOf f) 0 2) && !t.last) = some x →
    fieldAt (bodyOf f) 0x08 8 = x.data.length → x.binder = 0 →
    Leads (.bulk f) s fun t => ∃ y ∈ t.sprue.streams, y.num = x.num ∧ y.data = x.data ++ (bodyOf f).drop 0x10 ∧
      y.last = lastFlag f ∧ y.at_ = s.real) ∧
  (∀ (s : State) (n : Nat) (x : Stream), s.sprue.streams.find? (fun t => decide (t.num = n) && !t.last) = some x →
    s.rd pgSprue SP_BULK_TO_US * usTicks ≤ s.real - x.at_ →
    Leads (.bulkTimeout n) s fun t => ∀ y ∈ t.sprue.streams, y.num ≠ n) ∧
  (∀ s : State, s.rd pgSprue SP_STATUS_LINK = 2 →
    15 ≤ s.events.wait.length ∨ (∃ w ∈ s.events.wait, 1 ≤ w.rcd.sev ∨ 4 ≤ s.time.slots - w.at_) →
    Leads .evtFrameSend s fun t =>
      t.sprue.tx = s.sprue.tx ++ [.evt ((s.events.wait.take 15).map EvWait.rcd)] ∧ t.events.wait = s.events.wait.drop 15) ∧
  (∀ s : State, s.sprueLit = true → 63 ≤ s.sprue.goodAm →
    Leads (.sprueLinkUp true) s fun t => t.rd pgSprue SP_STATUS_LINK = 2 ∧ t.sprue.goodAm = s.sprue.goodAm + 1) ∧
  (∀ s : State, s.sprueLit = true →
    Leads (.sprueLinkUp false) s fun t => t.sprue.goodAm = 0 ∧ t.sprue.badAm = s.sprue.badAm + 1 ∧
      t.rd pgSprue SP_STATUS_LINK = s.rd pgSprue SP_STATUS_LINK) ∧
  (∀ (s : State) (good : Bool), s.sprueLit = false → Leads (.sprueLinkUp good) s fun t => s.sameBut [] t) ∧
  (∀ s : State, 8 ≤ s.sprue.badAm → Leads (.sprueDown 0) s fun t => t.rd pgSprue SP_STATUS_LINK = 0 ∧ t.sprue.vlas = s.sprue.vlas) ∧
  (∀ s : State, s.sprue.badAm < 8 → Leads (.sprueDown 0) s fun t => s.sameBut [] t) ∧
  (∀ s : State, Leads (.sprueDown 1) s fun t => t.rd pgSprue SP_STATUS_LINK = 0 ∧ t.sprue.vlas = false) ∧
  (∀ s : State, 256 < s.rd pgSprue SP_LSLACK_OWED → Leads (.sprueDown 2) s fun t => t.rd pgSprue SP_STATUS_LINK = 0) ∧
  (∀ s : State, Leads .vlasReturn s fun t => t.sprue.vlas = true ∧ t.sprue.goodAm = 0 ∧ s.sameBut [.regs, .sprue] t)

/-- R449, R444: a frame position sends the first waiting frame of the order, under the key in force with the next SEQ, or untagged without
one; every 257th position is an AM frame, whose SLACK pays the stuff symbols owed (R440). R460, R461: a DMA write in one piece and a read within 464 bytes each issue one request. R465: the
oldest record of a page is written to its place in the event ring and WR_INDEX advances. -/
def Obligations.SprueFramesLeaveAndDmaRuns : Prop :=
  (∀ (s : State) (l : List LineSym) (f : TxFrame), s.sprueLit = true → s.sprue.pos ≠ 256 →
    s.rd pgSprue SP_STATUS_LINK = 2 → s.sprue.writes = [] → s.sprue.reads = [] → s.sprue.key = none → f.isKeyx = false →
    s.nextFrame = some f → f.rank ≠ 5 →
    Leads (.sprueFrameSend l) s fun t =>
      t.sprue.tx = s.sprue.tx.erase f ∧ t.sprue.out = s.txText f 0 ++ List.replicate 16 0 ∧ t.sprue.pos = (s.sprue.pos + 1) % 257) ∧
  (∀ (s : State) (l : List LineSym) (f : TxFrame) (k : Bytes), s.sprueLit = true → s.sprue.pos ≠ 256 →
    s.rd pgSprue SP_STATUS_LINK = 2 → s.sprue.writes = [] → s.sprue.reads = [] → s.sprue.key = some k → f.isKeyx = false →
    s.sprue.txSeq < seqLast → s.nextFrame = some f →
    Leads (.sprueFrameSend l) s fun t =>
      t.sprue.out = s.txText f s.sprue.txSeq ++ frameTag k s.sprue.salt 1 s.sprue.txSeq (s.txText f s.sprue.txSeq) ∧
      t.sprue.txSeq = s.sprue.txSeq + 1 ∧ t.sprue.sentSeq = s.sprue.txSeq) ∧
  (∀ (s : State) (l : List LineSym), s.sprueLit = true → s.sprue.pos = 256 →
    Leads (.sprueFrameSend l) s fun t => t.sprue.out = [] ∧ t.sprue.pos = 0 ∧ t.sprue.tx = s.sprue.tx ∧
      t.sprue.txLine = (s.sprue.txLine.send true amSlack (s.rd pgSprue SP_LSLACK_OWED) l).1 ∧
      t.rd pgSprue SP_LSLACK_OWED = min 511 (s.rd pgSprue SP_LSLACK_OWED - min (s.rd pgSprue SP_LSLACK_OWED) amSlack +
        (s.sprue.txLine.send true amSlack (s.rd pgSprue SP_LSLACK_OWED) l).2)) ∧
  (∀ (s : State) (f : Frame) (a n : Nat), s.accepts 0x07 f → fieldAt (bodyOf f) 0 1 = 0 → fieldAt (bodyOf f) 0x08 8 = a →
    (bodyOf f).length = 16 + n → 0 < n → a % 4096 + n ≤ 4096 → s.sprue.key.isSome = true → s.started = true → s.ownPkg a = true →
    f.seq < seqLate → s.sprue.writes = [] → s.sprue.reads = [] →
    s.originStatus (sprueReq 0x02 a n ((bodyOf f).drop 16) (poisonFlag f)) = 0 →
    Leads (.dmaWrite f) s fun t =>
      t.hall.nextId = s.hall.nextId + 1 ∧
      ∃ r, t.req s.hall.nextId = some r ∧ r.op = 0x02 ∧ r.addr = a ∧ r.len = n ∧ r.data = slice (bodyOf f) 16 n) ∧
  (∀ (s : State) (f : Frame) (a n : Nat), s.accepts 0x07 f → fieldAt (bodyOf f) 0 1 = 1 → fieldAt (bodyOf f) 0x08 8 = a →
    fieldAt (bodyOf f) 0x10 4 = n → 0 < n → n ≤ 1048576 → s.sprue.key.isSome = true → s.started = true → s.ownPkg a = true →
    f.seq < seqLate → s.sprue.writes = [] → s.sprue.reads = [] → s.originStatus (sprueReq 0x01 a (min (min 464 n) (4096 - a % 4096)) [] false) = 0 →
    s.takeDone s.hall.nextId = none →
    Leads (.dmaRead f) s fun t =>
      t.hall.nextId = s.hall.nextId + 1 ∧
      (∃ r, t.req s.hall.nextId = some r ∧ r.op = 0x01 ∧ r.addr = a ∧ r.len = min (min 464 n) (4096 - a % 4096)) ∧
      t.sprue.reads = [{ xid := fieldAt (bodyOf f) 0x04 4, at_ := a, len := min (min 464 n) (4096 - a % 4096), id := s.hall.nextId,
                         stop := a + n }]) ∧
  (∀ (s : State) (pg : Nat) (r : EvRec) (rest : List EvRec), s.ringOn = true → s.queue pg = r :: rest → riserOf pg = none →
    (s.rd pgEv EV_WR_INDEX + 2 ^ 32 - s.rd pgEv EV_RD_INDEX) % 2 ^ 32 ≠ 2 ^ s.rd pgEv EV_RING_SIZE_LOG2 →
    s.ringStatus s.ringBase (2 ^ s.rd pgEv EV_RING_SIZE_LOG2)
      (ringReq pgEv (s.ringBase + 32 * (s.rd pgEv EV_WR_INDEX % 2 ^ s.rd pgEv EV_RING_SIZE_LOG2)) none
        ({ s.leaveInfo r with lostBefore := s.events.lostBefore } : EvRec).bytes) = 0 →
    Leads (.ringWrite pg) s fun t =>
      t.queue pg = rest ∧ t.rd pgEv EV_WR_INDEX = (s.rd pgEv EV_WR_INDEX + 1) % 2 ^ 32 ∧
      t.mem = (s.storeLocal (localOf (s.ringBase + 32 * (s.rd pgEv EV_WR_INDEX % 2 ^ s.rd pgEv EV_RING_SIZE_LOG2)))
        ({ s.leaveInfo r with lostBefore := s.events.lostBefore } : EvRec).bytes 0).mem)

/-! ### Trust (13_trust.md) -/

/-- R491, R493, R502: DEPLOY enrols the operator key, to be in effect from the next boundary; OPERATOR_REKEY replaces the key under the
current one's signature; DECOMMISSION waits for the next FULL reset; SVN_ADVANCE sets a target that a maintenance window blows. -/
def Obligations.LifecycleAndVersionAdvance : Prop :=
  (∀ (s : State) (c : Cmd), s.acts 0x0101 c → s.fuse.life = .provisioned → s.fuse.deploying = false →
    (coords (slice c.args 0 65)).bind pubKey ≠ none →
    Leads (.deploy c) s fun t =>
      s.completed t 0x0101 c 0 ∧ t.fuse = { s.fuse with deploying := true } ∧ t.ledger.opHash = sha256 (slice c.args 0 65) ∧
      t.mordant.opKey = slice c.args 0 65 ∧ t.rd pgMordant MD_STATUS_OPERATOR = 1) ∧
  (∀ (s : State) (c : Cmd), s.acts 0x0102 c → s.fuse.life = .deployed → (coords (slice c.args 0 65)).bind pubKey ≠ none →
    verify s.mordant.opKey (sha256 (slice c.args 0 65 ++ le 4 c.id)) (slice c.args 0x48 64) = true →
    Leads (.operatorRekey c) s fun t =>
      s.completed t 0x0102 c 0 ∧ t.mordant.opKey = slice c.args 0 65 ∧ t.ledger = { s.ledger with opHash := sha256 (slice c.args 0 65) }) ∧
  (∀ (s : State) (c : Cmd), s.acts 0x0102 c → s.fuse.life = .deployed → (coords (slice c.args 0 65)).bind pubKey ≠ none →
    verify s.mordant.opKey (sha256 (slice c.args 0 65 ++ le 4 c.id)) (slice c.args 0x48 64) = false →
    Leads (.operatorRekey c) s fun t => s.completed t 0x0102 c stAUTHFAIL ∧ t.mordant.opKey = s.mordant.opKey ∧ t.ledger = s.ledger) ∧
  (∀ (s : State) (c : Cmd), s.acts 0x0103 c → s.lifeOpen = true → fieldAt c.args 0 4 = c.id →
    Leads (.decommission c) s fun t => s.completed t 0x0103 c 0 ∧ t.fuse = { s.fuse with decommissioning := true }) ∧
  (∀ (s : State) (c : Cmd), s.acts 0x0130 c → s.lifeOpen = true → s.fuse.svn < fieldAt c.args 0 1 → fieldAt c.args 0 1 ≤ 64 →
    fieldAt c.args 0 1 ≤ s.rd pgMordant MD_SVN_MANIFEST →
    Leads (.svnAdvance c) s fun t =>
      s.completed t 0x0130 c 0 ∧ t.rd pgMordant MD_SVN_PENDING = fieldAt c.args 0 1 ∧ t.fuse = s.fuse) ∧
  (∀ s : State, 4088 ≤ s.slot → s.rd pgMordant MD_SVN_PENDING ≠ 0 →
    Leads .svnFuseBlow s fun t =>
      t.fuse = { s.fuse with svn := max s.fuse.svn (s.rd pgMordant MD_SVN_PENDING) } ∧ t.rd pgMordant MD_SVN_PENDING = 0 ∧
      (12 ≤ s.boot.next → t.ms 3 = sha256 t.deviceRecord)) ∧
  (∀ s : State, s.slot < 4088 → Leads .svnFuseBlow s fun t => s.sameBut [] t)

/-- R494, R505, R489, R509, R504: an accepted SPRUE_KEYX puts a new key in force with both SEQ at their start and its RSP under the former
one; SESSION_OPEN sets the partition's session; SET_PATTERN_KEY sets and measures its Pattern key; a rotation of far keys completes when its
last line is rewritten, every CTR of the partition's ports 0; a failed DRBG test is kept and shown. -/
def Obligations.KeysAreAgreed : Prop :=
  (∀ (s : State) (c : Cmd), s.acts 0x0100 c → s.keyxCheck c = 0 →
    Leads (.sprueKeyx c) s fun t =>
      s.completed t 0x0100 c 0 (slice (point s.fresh.1) 0 0x48 ++ s.fresh.2.1 ++ s.fresh.2.2.sign
        (sha256 (slice c.args 0x00 65 ++ slice c.args 0x48 32 ++ point s.fresh.1 ++ s.fresh.2.1))) ∧ t.sprue.key.isSome = true ∧ t.sprue.rxSeq = none ∧ t.sprue.txSeq = 0 ∧
      t.sprue.former = some (s.sprue.key, s.sprue.salt, s.sprue.txSeq) ∧ t.rd pgSprue SP_STATUS_KEYED = 1) ∧
  (∀ (s : State) (c : Cmd), s.acts 0x0120 c → s.sealing c.part = false → s.fuse.life ≠ .decommissioned → s.mordant.keyed = true →
    s.mordant.drbgFail = false → (shared s.fresh.1 (slice c.args 0x00 65)).isSome = true →
    Leads (.sessionOpen c) s fun t =>
      s.completed t 0x0120 c 0 (slice (point s.fresh.1) 0 0x48 ++ s.fresh.2.1) ∧
      (∃ e, (t.trusted c.part).session = some e ∧ e.qt = slice c.args 0x00 65 ∧ e.nt = slice c.args 0x48 32 ∧ e.sctr = none) ∧
      ∀ p, p ≠ c.part → t.trusted p = s.trusted p) ∧
  (∀ (s : State) (c : Cmd), s.acts 0x0110 c → s.sealed c.part = false → (s.part c.part).loading = false →
    (s.part c.part).run.live = false → (coords (slice c.args 0 65)).bind pubKey ≠ none →
    Leads (.setPatternKey c) s fun t =>
      s.completed t 0x0110 c 0 ∧ (t.trusted c.part).patKey = some (slice c.args 0 65) ∧
      t.ms (8 + c.part) = sha256 (s.ms (8 + c.part) ++ le 1 2 ++ sha256 (slice c.args 0 65))) ∧
  (∀ (s : State) (c : Cmd), s.acts 0x0111 c → s.sealed c.part = false → s.atRest c.part = true →
    (s.trusted c.part).rotate = none → s.mordant.drbgFail = false →
    Leads (.rotateFarKey c) s fun t => (t.trusted c.part).rotate = some c ∧ t.rspOf c.id = none ∧ t.ctrs = s.ctrs) ∧
  (∀ (s : State) (p : Fin 8) (c : Cmd), (s.trusted p).rotate = some c →
    Leads (.farKeyRotated p) s fun t =>
      (t.trusted p).rotate = none ∧ s.completedLate t 0x0111 c (if s.sealed p then s.sessionTail 0x0111 c else []) ∧
      (∀ x, x < 2 → s.cxOwner x = some p.val → ∀ e ∈ t.ctrs, e.1 < cxlBase x / 256 ∨ cxlBase (x + 1) / 256 ≤ e.1) ∧ t.mem = s.mem) ∧
  (∀ (s : State) (test : Fin 2),
    Leads (.drbgHealthFail test) s fun t => t.mordant.drbgFail = true ∧ t.rd pgMordant MD_STATUS_DRBG_OK = 0)

/-- R487, R499, R500, R556, R610: the commands that read answer what they name: a certificate from OFFSET, log entries, an ALIAS2-signed
report, a description, a shutdown record, ageing records; memory, partitions, keys and the Ledger stay. R588: SHUTDOWN_ACK programs the record's ACK
byte. -/
def Obligations.ReadoutsAnswer : Prop :=
  (∀ (s : State) (c : Cmd), s.acts 0x0108 c → s.fuse.life ≠ .decommissioned → fieldAt c.args 0 1 < 4 →
    Leads (.getCerts c) s fun t =>
      s.completed t 0x0108 c 0 (le 4 (s.cert (fieldAt c.args 0 1)).length ++ List.replicate 12 0 ++
        ((s.cert (fieldAt c.args 0 1)).drop (fieldAt c.args 4 4)).take 448) ∧ s.sameBut [.regs, .sprue, .hall, .runner] t) ∧
  (∀ (s : State) (c : Cmd), s.acts 0x0109 c → s.fuse.life ≠ .decommissioned → s.mordant.keyed = true →
    (maskSlots (fieldAt c.args 0x20 2)).length ≤ 7 →
    Leads (.attest c) s fun t =>
      s.completed t 0x0109 c 0 (s.report c ++ s.sign (sha256 (s.report c))) ∧ s.sameBut [.free, .regs, .sprue, .hall, .runner] t) ∧
  (∀ (s : State) (c : Cmd), s.acts 0x010A c →
    Leads (.getLog c) s fun t =>
      s.completed t 0x010A c 0 ((((s.trusted c.part).log.drop (fieldAt c.args 0 2)).take 9).map logEntry).flatten ∧
      s.sameBut [.regs, .sprue, .hall, .runner] t) ∧
  (∀ (s : State) (c : Cmd) (d : Desc), s.acts 0x0310 c → d = aget {} s.descs (if c.part = 0xFF then 8 else c.part) →
    s.started = true → s.fuse.life ≠ .decommissioned → fieldAt c.args 0 4 < d.bytes.length →
    Leads (.getDescription c) s fun t =>
      s.completed t 0x0310 c 0 (le 4 d.bytes.length ++ le 4 d.gen ++ le 8 0 ++ sha256 d.bytes ++
        (d.bytes.drop (fieldAt c.args 0 4)).take 416) ∧ s.sameBut [.regs, .sprue, .hall, .runner] t) ∧
  (∀ (s : State) (c : Cmd), s.acts 0x0401 c →
    Leads (.shutdownRead c) s fun t =>
      s.completed t 0x0401 c 0 (aget (List.replicate 64 0xFF) s.ledger.shut (fieldAt c.args 0 1)) ∧
      s.sameBut [.regs, .sprue, .hall, .runner] t) ∧
  (∀ (s : State) (c : Cmd), s.acts 0x0402 c →
    Leads (.ageingRead c) s fun t =>
      s.completed t 0x0402 c 0 (le 1 ((s.ledger.ageing.filter fun a => decide (fieldAt c.args 0 4 ≤ a.seq)).take 14).length ++
        List.replicate 15 0 ++
        (((s.ledger.ageing.filter fun a => decide (fieldAt c.args 0 4 ≤ a.seq)).take 14).map Age.bytes).flatten) ∧
      s.sameBut [.regs, .sprue, .hall, .runner] t) ∧
  (∀ (s : State) (c : Cmd) (e : Nat × Bytes), s.acts 0x0400 c → s.sprue.key.isSome = true → fieldAt c.args 0x08 4 = c.id →
    s.ledger.pending.filter (fun e => decide (fieldAt e.2 0x08 8 = fieldAt c.args 0 8)) = [e] →
    Leads (.shutdownAck c) s fun t =>
      s.completed t 0x0400 c 0 ∧ aget [] t.ledger.shut e.1 = e.2.set 0x3C 0 ∧
      ∀ i, i ≠ e.1 → aget [] t.ledger.shut i = aget [] s.ledger.shut i)

/-- R512, R513, R519: SEAL replaces the partition's memory keys, so that its DRAM holds nothing of before, and starts its scrub; UNSEAL
ends the session and starts the closing scrub, answered when it ends; a scrub that is due completes. R508: a session access to a cluster memory or a
slice that verifies stores the deciphered data there, and no byte outside the 8-byte words it names (R343's elements), or answers with the memory's bytes enciphered, and
its counter is the session's (R507); one that does not verify is refused. -/
def Obligations.SealsAndSessionsRun : Prop :=
  (∀ (s : State) (c : Cmd), s.acts 0x0121 c → s.sessionCheck 0x0121 c [] = 0 → s.sealCheck c = 0 →
    Leads (.seal c) s fun t =>
      s.completed t 0x0121 c 0 (s.sessionTail 0x0121 c) ∧ (t.trusted c.part).scrubAt = some s.scrubDue ∧
      (t.trusted c.part).domain = slice c.args 0 32 ∧ t.rd pgMordant MD_PART_SCRUBBING c.part = 1 ∧
      ∀ r ∈ s.risersOf c.part, ∀ a, dramBase r ≤ a → a < dramBase r + 0x1400000000 → cellAt t.mem a = none) ∧
  (∀ (s : State) (c : Cmd), s.acts 0x0122 c → s.sealed c.part = true → s.sessionCheck 0x0122 c [] = 0 →
    s.mordant.drbgFail = false →
    Leads (.unseal c) s fun t =>
      t.rspOf c.id = none ∧ (t.trusted c.part).session = none ∧ (t.trusted c.part).patKey = none ∧
      (t.trusted c.part).scrubAt = some s.scrubDue ∧ t.rd pgMordant MD_PART_SCRUBBING c.part = 1 ∧
      (t.trusted c.part).ending.map SealEnd.cause = some 0) ∧
  (∀ (s : State) (p : Fin 8) (n : Nat), (s.trusted p).scrubAt = some n → n ≤ s.time.slots → (s.trusted p).ending = none →
    Leads (.scrubComplete p) s fun t =>
      (t.trusted p).scrubAt = none ∧ (t.trusted p).sealReady = true ∧ t.rd pgMordant MD_PART_SCRUBBING p = 0) ∧
  (∀ (s : State) (p : Fin 8) (n : Nat), (s.trusted p).scrubAt = some n → s.time.slots < n → s.redescribe = s →
    Leads (.scrubComplete p) s fun t => s.sameBut [] t) ∧
  (∀ (s : State) (c : Cmd) (e : Session) (a n : Nat), s.sessionOpens 0x0123 c e a n (slice c.args 0x10 n) true →
    Leads (.sessionWrite c) s fun t =>
      s.completed t 0x0123 c 0 (sessionData e 0x0123 c [] []) ∧
      t.mem = ((pagePieces a n).foldl (fun u x =>
        u.storeLocal x.1 (slice (sessText e 0 c (slice c.args 0x10 n)) (x.1 - a) x.2) 0) s).mem ∧
      (∀ b, b < a / 8 * 8 ∨ (a + n + 7) / 8 * 8 ≤ b → t.getB b = s.getB b) ∧
      (t.trusted c.part).session = some { e with sctr := some (fieldAt c.args 0x1B8 8) }) ∧
  (∀ (s : State) (c : Cmd) (e : Session) (a n k f : Nat), s.sessionOpens 0x0123 c e a n (slice c.args 0x10 n) true →
    homeOf a = .cluster k f → a % 4096 + n ≤ 4096 →
    Leads (.sessionWrite c) s fun t => t.getBs a n = sessText e 0 c (slice c.args 0x10 n)) ∧
  (∀ (s : State) (c : Cmd) (e : Session) (a n : Nat), s.sessionOpens 0x0124 c e a n [] false →
    Leads (.sessionRead c) s fun t =>
      s.completed t 0x0124 c (poisonStatus (s.readMem a n).2)
        (sessionData e 0x0124 c (List.replicate 16 0) (sessText e 1 c (s.readMem a n).1)) ∧
      t.mem = s.mem ∧ t.poison = s.poison ∧
      (t.trusted c.part).session = some { e with sctr := some (fieldAt c.args 0x1B8 8) }) ∧
  (∀ (s : State) (c : Cmd), s.acts 0x0123 c → sessionArgsOk c = true → (s.trusted c.part).session = none →
    Leads (.sessionWrite c) s fun t => s.completed t 0x0123 c stNOSESSION ∧ t.mem = s.mem) ∧
  (∀ (s : State) (c : Cmd) (e : Session), s.acts 0x0124 c → sessionArgsOk c = true → (s.trusted c.part).session = some e →
    sessionOk e 0x0124 c [] = false →
    Leads (.sessionRead c) s fun t => s.completed t 0x0124 c stAUTHFAIL ∧ t.mem = s.mem)

/-! ### Firmware update (15_firmware_update.md) -/

/-- R562 to R566, R573, R574: UPD_BEGIN and RECOVERY_BEGIN bind the stream of a bundle; a bundle read back good goes to the set not in
force and UPD_BEGIN answers; UPD_DISTRIBUTE starts the broadcast of a staged set, whose end lists the live cores that lack an image; UPD_DISCARD
forgets the set. -/
def Obligations.BundlesAreStaged : Prop :=
  (∀ (s : State) (c : Cmd), s.acts 0x0200 c → s.updBusy = false → s.update.begun = none → s.streamFree (fieldAt c.args 0 2) = true →
    Leads (.updBegin c) s fun t =>
      t.update.begun = some (0x0200, c) ∧ t.update.distributed = false ∧ t.update.staged = s.update.staged ∧ t.rd pgBu BU_UPD_STATE_STATE = 1 ∧ t.rspOf c.id = none ∧
      ∃ x ∈ t.sprue.streams, x.num = fieldAt c.args 0 2 ∧ x.binder = 1) ∧
  (∀ (s : State) (c : Cmd), s.acts 0x0280 c → s.boot.recovery = true → s.update.begun = none → s.streamFree (fieldAt c.args 0 2) = true →
    Leads (.recoveryBegin c) s fun t =>
      t.update.begun = some (0x0280, c) ∧ t.rd pgBu BU_UPD_STATE_STATE = 7 ∧ ∃ x ∈ t.sprue.streams, x.num = fieldAt c.args 0 2 ∧ x.binder = 2) ∧
  (∀ (s : State) (c : Cmd), s.update.begun = some (0x0200, c) → s.update.incoming ≠ [] → s.health.shutdown = none →
    Leads (.ledgerStageDone true) s fun t =>
      s.completedLate t 0x0200 c (le 8 (manRelease s.update.incoming) ++ le 1 (manSvn s.update.incoming)) ∧ t.update.staged = true ∧
      t.update.bundle = s.update.incoming ∧ t.update.begun = none ∧ t.update.area (1 - s.update.setInForce) = s.update.incoming ∧
      t.update.area s.update.setInForce = s.update.area s.update.setInForce ∧ t.rd pgBu BU_UPD_STATE_STATE = 3) ∧
  (∀ (s : State) (op : Nat) (c : Cmd), s.update.begun = some (op, c) → s.update.incoming ≠ [] → s.health.shutdown = none →
    Leads (.ledgerStageDone false) s fun t =>
      s.completed t op c stBADFORMAT ∧ t.update.begun = none ∧ t.update.staged = false ∧ t.update.areaA = s.update.areaA ∧ t.update.areaB = s.update.areaB) ∧
  (∀ (s : State) (c : Cmd), s.acts 0x0201 c → s.updBusy = false → s.update.begun = none → s.update.staged = true →
    Leads (.updDistribute c) s fun t => t.update.distribute = some c ∧ t.rd pgBu BU_UPD_STATE_STATE = 4 ∧ t.rspOf c.id = none) ∧
  (∀ (s : State) (c : Cmd) (k : Fin 4) (l : List Nat), s.update.distribute = some c →
    Leads (.distributionEnd k l) s fun t =>
      t.update.distribute = none ∧ t.update.distributed = true ∧ t.update.lacking = s.liveCores.filter (fun p => l.contains p) ∧
      t.rd pgBu BU_UPD_STATE_ROUND = k ∧
      s.completedLate t 0x0201 c (le 2 t.update.lacking.length ++ le 1 k ++ le 1 0 ++ le 4 (t.update.lacking.headD 0))) ∧
  (∀ (s : State) (c : Cmd), s.acts 0x0203 c → s.updBusy = false →
    Leads (.updDiscard c) s fun t => s.completed t 0x0203 c 0 ∧ t.update.staged = false ∧ t.update.bundle = [] ∧
      t.rd pgBu BU_UPD_STATE_STATE = if s.update.begun.isSome then s.rd pgBu BU_UPD_STATE_STATE else 0)

/-- R567 to R570: UPD_COMMIT arms the hand-over of a distributed set for an epoch to come; PREPARE in slots 4088 to 4093 of that epoch
counts the live cores; in slot 4094 the commit goes where every core counted is ready, MS2 becoming the hash of the manifest, and aborts
otherwise, with ROLLBACK where the fused SVN has passed the set's (R575); the select record then names the set just staged, or stays, where its write fails. -/
def Obligations.CommitsHandOver : Prop :=
  (∀ (s : State) (c : Cmd), s.acts 0x0202 c → s.updBusy = false → s.update.distributed = true → s.epoch < fieldAt c.args 0x08 8 →
    s.fuse.svn ≤ manSvn s.update.bundle →
    Leads (.updCommit c) s fun t => t.update.commit = some c ∧ t.update.commitE = fieldAt c.args 0x08 8 ∧
      t.rd pgBu BU_UPD_STATE_STATE = 6 ∧ t.rspOf c.id = none) ∧
  (∀ (s : State) (l : List Nat), s.update.commit.isSome = true → s.epoch = s.update.commitE → 4088 ≤ s.slot → s.slot < 4094 →
    s.update.prepared = none →
    Leads (.commitPrepare l) s fun t => t.update.prepared = some s.liveCores ∧ t.update.ready = s.readyCores l ∧ s.sameBut [.update] t) ∧
  (∀ (s : State) (c : Cmd) (m : List Nat), s.update.commit = some c → s.epoch = s.update.commitE → s.slot = 4094 →
    s.health.shutdown = none → s.fuse.svn ≤ manSvn s.update.bundle → s.update.prepared = some m → (∀ p ∈ m, p ∈ s.update.ready) →
    Leads .handOver s fun t =>
      t.ms 2 = sha256 (s.update.bundle.take (manLength s.update.bundle)) ∧ t.update.goDone = true ∧ t.update.commit = none ∧
      t.update.inForce = s.update.bundle.take (manLength s.update.bundle) ∧
      s.completedLate t 0x0202 c (le 2 0 ++ le 2 0 ++ le 4 0)) ∧
  (∀ (s : State) (c : Cmd) (m : List Nat) (p : Nat), s.update.commit = some c → s.epoch = s.update.commitE → s.slot = 4094 →
    s.health.shutdown = none → s.fuse.svn ≤ manSvn s.update.bundle → s.update.prepared = some m → p ∈ m → p ∉ s.update.ready →
    Leads .handOver s fun t =>
      t.ms 2 = s.ms 2 ∧ t.update.commit = none ∧ t.update.inForce = s.update.inForce ∧ t.update.distributed = s.update.distributed ∧
      ∃ data, s.completed t 0x0202 c stCOMMITABORTED data) ∧
  (∀ (s : State) (c : Cmd), s.update.commit = some c → s.epoch = s.update.commitE → s.slot = 4094 → s.health.shutdown = none →
    manSvn s.update.bundle < s.fuse.svn →
    Leads .handOver s fun t => t.ms 2 = s.ms 2 ∧ t.update.commit = none ∧ t.update.inForce = s.update.inForce ∧ s.completed t 0x0202 c stROLLBACK) ∧
  (∀ s : State, s.update.commit = none ∨ s.epoch ≠ s.update.commitE ∨ s.slot ≠ 4094 ∨ s.health.shutdown ≠ none →
    Leads .handOver s fun t => s.sameBut [] t) ∧
  (∀ (s : State) (r : Select), s.update.goDone = true → s.update.select = some r → s.health.shutdown = none →
    Leads (.selectRecordWrite true) s fun t => t.update.goDone = false ∧
      ∃ x, t.update.select = some x ∧ x.seq = r.seq + 1 ∧ x.set = 1 - r.set) ∧
  (∀ s : State, s.update.goDone = true → s.health.shutdown = none →
    Leads (.selectRecordWrite false) s fun t => t.update.goDone = false ∧ t.update.select = s.update.select ∧ t.rd pgEv LG_STATUS_WRITE_FAIL = 1)
/-! ### Housekeeping, voltages, the Ledger (16_health.md) -/

/-- R578: the next channel of the round is sampled, 4 µs after the one before, and its reading published. R580, R585: a reading above the shutdown limit starts the
shutdown path. R586, R587: the record goes to a free slot, once; PWR_OFF_REQ_N follows 250 µs after the start. -/
def Obligations.SamplesAndShutdowns : Prop :=
  (∀ (s : State) (v : Int) (o : HkObs), s.health.roundOn = true → s.pins.refclk = true →
    s.health.roundAt + 5000 * s.health.chan ≤ s.real → s.health.chan < 511 →
    Leads (.hkSample v o) s fun t => t.health.chan = s.health.chan + 1 ∧ t.health.roundAt = s.health.roundAt ∧
      t.rd pgHk HK_READ_VALUE s.health.chan = if 480 ≤ s.health.chan then 0 else ofInt 16 v) ∧
  (∀ (s : State) (v : Int) (o : HkObs), s.health.roundOn = false ∨ s.pins.refclk = false ∨ s.real < s.health.roundAt + 5000 * s.health.chan →
    Leads (.hkSample v o) s fun t => s.sameBut [] t) ∧
  (∀ (s : State) (v : Int) (o : HkObs), o.fault = false → s.health.roundOn = true → s.pins.refclk = true →
    s.health.roundAt + 5000 * s.health.chan ≤ s.real → s.health.chan < 160 → s.health.chan ∉ s.health.failed →
    3 ≤ s.boot.next → s.health.shutdown = none →
    ((s.tempLimits s.health.chan).2.2 : Int) * 64 < v → v ≤ 150 * 64 →
    Leads (.hkSample v o) s fun t =>
      (∃ d, t.health.shutdown = some d ∧ d.cause = 1 ∧ d.channel = s.health.chan ∧ d.reading = v ∧ d.t0 = s.real) ∧
      t.rd pgHk HK_STATUS_SHUTDOWN = 1 ∧ t.rd pgBu BU_PINS_THERM_TRIP = 1 ∧ t.pins.gated = true) ∧
  (∀ (s : State) (d : Shutdown) (i : Nat), s.health.shutdown = some d → d.recorded = false → d.off = false → s.ledger.freeSlot = some i →
    Leads (.shutdownRecordWrite true) s fun t =>
      t.ledger.shut = ains i (s.shutRecord d) s.ledger.shut ∧ t.health.shutdown = some { d with recorded := true }) ∧
  (∀ (s : State) (d : Shutdown) (i : Nat), s.health.shutdown = some d → d.recorded = false → d.off = false → s.ledger.freeSlot = some i →
    Leads (.shutdownRecordWrite false) s fun t =>
      t.health.shutdown = some d ∧ t.ledger.freeSlot ≠ some i ∧ t.rd pgEv LG_STATUS_WRITE_FAIL = 1) ∧
  (∀ (s : State) (d : Shutdown), s.health.shutdown = some d → d.off = false → 250 * usTicks ≤ s.real - d.t0 →
    Leads .pwrOffReq s fun t => t.rd pgBu BU_PINS_PWR_OFF_REQ = 1 ∧ t.health.shutdown = some { d with off := true } ∧
      s.sameBut [.regs, .health] t)

/-- R594: a domain whose slack detectors called for it goes up one code at slot 4088, below its ceiling. R595: a re-plan begins on request or
every 24 operating hours in a maintenance window. R600: an hour of service is counted in the Ledger, which keeps it through loss of power; R607: the oldest acknowledged sector of shutdown records is erased
where fewer than 64 slots are free, and SHUT_LOW is set where none is. -/
def Obligations.VoltagesHoursAndErases : Prop :=
  (∀ (s : State) (d : Fin 96), s.slot = 4088 → aget 0 s.health.stepDue d ≠ 0 → aget 0 s.health.stepDue d = s.time.epochs →
    (aget 0 s.health.stepAt d = 0 ∨ 1024 ≤ s.rd pgHk HK_ROUNDS_COUNT - (aget 0 s.health.stepAt d - 1)) →
    Leads (.voltageStep d) s fun t =>
      aget 0 t.health.stepDue d = 0 ∧ (s.vCode d < s.ceiling → t.vCode d = s.vCode d + 1) ∧
      (s.ceiling ≤ s.vCode d → t.vCode d = s.ceiling)) ∧
  (∀ s : State, s.rd pgHk HK_REPLAN_CTRL_RUNNING = 0 → 4088 ≤ s.slot → s.boot.next = 12 →
    (s.rd pgHk HK_REPLAN_CTRL_REQUEST ≠ 0 ∨ s.health.replanAt + 24 ≤ s.ledger.hours) →
    Leads .replan s fun t => t.rd pgHk HK_REPLAN_CTRL_RUNNING = 1 ∧ t.health.moves = s.planMoves ∧ t.ledger = s.ledger ∧
      t.health.replanAt = if s.health.replanAt + 24 ≤ s.ledger.hours then s.ledger.hours else s.health.replanAt) ∧
  (∀ s : State, s.rd pgHk HK_REPLAN_CTRL_RUNNING ≠ 0 → s.slot = 4088 → s.health.movedAt ≠ s.time.epochs + 1 → s.health.moves = [] →
    Leads .replan s fun t => t.rd pgHk HK_REPLAN_CTRL_RUNNING = 0 ∧ t.health.replanAt = s.health.replanAt ∧
      t.rd pgHk HK_REPLAN_HOURS = s.ledger.hours % 2 ^ HK_REPLAN_HOURS.width) ∧
  (∀ (s : State) (good : Bool), s.boot.next = 12 → 3600000 * msTicks ≤ s.real - s.health.hourAt →
    Leads (.operatingHour good) s fun t =>
      t.ledger = { s.ledger with hours := s.ledger.hours + 1 } ∧ t.health.hourAt = s.health.hourAt + 3600000 * msTicks ∧
      t.health.least = s.health.least.filter (fun e => decide (e.1 / 96 ≠ (s.ledger.hours + 1) % 24))) ∧
  (∀ (s : State) (good : Bool), s.boot.next ≠ 12 ∨ s.real - s.health.hourAt < 3600000 * msTicks →
    Leads (.operatingHour good) s fun t => s.sameBut [] t) ∧
  (∀ s : State, Leads (.vauxLoss true) s fun t => t.ledger.hours = s.ledger.hours) ∧
  (∀ (s : State) (k : Nat), s.boot.next = 12 → s.ledger.erased < 64 → s.ledger.eraseSector = some k → s.health.eraseAt = none → s.health.shutdown = none →
    Leads (.ledgerErase true) s fun t =>
      t.ledger.shut = s.ledger.shut.filter (fun e => decide (e.1 / 64 ≠ k)) ∧ t.health.eraseAt = some s.real) ∧
  (∀ s : State, s.boot.next = 12 → s.ledger.erased < 64 → s.ledger.eraseSector = none → s.health.shutdown = none →
    Leads (.ledgerErase true) s fun t => t.rd pgEv LG_STATUS_SHUT_LOW = 1 ∧ t.ledger = s.ledger)
/-! ### Runner ports (10_runner_lanes.md) -/

/-- R366 to R369, R388, R379: a port trains state by state: from DOWN while its partition permits it, with nothing of the former link's
keys or blocks; DETECT takes the partner's fields from its RTS1 where a half came up (R365), and stays where none did; DELAY takes the mean of 64 exchanges and the partner's; KEYX agreed on both sides
makes it ACTIVE with full credits. A state's timeout takes it back to DETECT. (An event that a changed description raises may take the ports down: `gated`.) -/
def Obligations.PortsTrain : Prop :=
  (∀ (s : State) (q : Fin 24) (o : TrainObs), s.pst q = 0 → s.canTrain = true → s.on (pgRunner q) RN_PCTRL_ENABLE = true →
    s.portFree q = true →
    Leads (.trainingStateAdvance q o) s fun t =>
      (t.pst q = 1 ∨ t.pins.gated = true) ∧ (t.port q).prk = none ∧ (t.port q).unacked = [] ∧
      t.rd (pgRunner q) RN_KEY_INDEX = 0 ∧ (t.port q).txSched = (s.port q).txSched) ∧
  (∀ (s : State) (q : Fin 24) (o : TrainObs), s.pst q = 1 → (hasAll (trainGood o) 0x0F || hasAll (trainGood o) 0xF0) = true →
    Leads (.trainingStateAdvance q o) s fun t =>
      (t.pst q = 2 ∨ t.pins.gated = true) ∧
      t.rd (pgRunner q) RN_PARTNER_PACKAGE = (trainField o 6 + 256 * trainField o 7) % 2 ^ RN_PARTNER_PACKAGE.width ∧
      t.rd (pgRunner q) RN_PARTNER_PORT = trainField o 2 % 2 ^ RN_PARTNER_PORT.width ∧
      t.rd (pgRunner q) RN_PSTAT_REVERSED = (trainReversed o).toNat) ∧
  (∀ (s : State) (q : Fin 24) (o : TrainObs), s.pst q = 1 → (hasAll (trainGood o) 0x0F || hasAll (trainGood o) 0xF0) = false →
    Leads (.trainingStateAdvance q o) s fun t => t.pst q = 1 ∨ t.pins.gated = true) ∧
  (∀ (s : State) (q : Fin 24) (o : TrainObs), s.pst q = 4 → o.probes.length = 64 →
    Leads (.trainingStateAdvance q o) s fun t =>
      (t.pst q = 5 ∨ t.pins.gated = true) ∧
      t.rd (pgRunner q) RN_DELAY_PS = (probeMean o.probes + o.partnerMean) / 2 % 2 ^ RN_DELAY_PS.width) ∧
  (∀ (s : State) (q : Fin 24) (o : TrainObs), s.pst q = 5 → (s.port q).prk.isSome = true → o.keyed = true →
    Leads (.trainingStateAdvance q o) s fun t =>
      (t.pst q = 6 ∨ t.pins.gated = true) ∧ t.rd (pgRunner q) RN_CREDIT_SYNC = 64 ∧
      t.rd (pgRunner q) RN_CREDIT_INDIGO = 256 ∧ t.rd (pgRunner q) RN_CREDIT_WOAD = 4096) ∧
  (∀ (s : State) (q : Fin 24) (o : TrainObs), s.pst q = 5 → (s.port q).prk = none ∨ o.keyed = false →
    Leads (.trainingStateAdvance q o) s fun t => t.port q = s.port q) ∧
  (∀ (s : State) (q : Fin 24), trainLimit (s.pst q) ≠ 0 → trainLimit (s.pst q) ≤ s.real - (s.port q).since →
    Leads (.trainingTimeout q) s fun t =>
      t.pst q = 1 ∧ (t.port q).prk = none ∧ t.rd (pgRunner q) RN_TRAIN_FAIL_STATE = s.pst q ∧
      t.rd (pgRunner q) RN_TRAIN_FAILS = min (s.rd (pgRunner q) RN_TRAIN_FAILS + 1) (2 ^ RN_TRAIN_FAILS.width - 1)) ∧
  (∀ (s : State) (q : Fin 24), s.real - (s.port q).since < trainLimit (s.pst q) →
    Leads (.trainingTimeout q) s fun t => s.sameBut [] t)

/-- R495: a partner's KX1 whose chain holds is kept and answered with this side's signature over both; one whose chain fails fails the
agreement. A KX2 that verifies gives the shared secret its PRK; one that does not fails. R382: the traffic key goes on at its block number.
R384: a link is lost by its causes, and trains anew. -/
def Obligations.LinkKeysAndLoss : Prop :=
  (∀ (s : State) (q : Fin 24) (a k : Kx1), s.pst q = 5 → (s.port q).kxFailed = false → (s.port q).own = some a → (s.port q).peer = none →
    (s.certKey k.devid).isSome = true → (s.certKey k.alias1).isSome = true → (s.certKey k.alias2).isSome = true →
    s.fuse.life ≠ .deployed ∨ k.life = 2 →
    Leads (.keyxMessage q (.kx1 k)) s fun t =>
      (t.port q).peer = some k ∧ (t.port q).kx2 = s.sign (kxDigest (t.port q).first a k) ∧ (t.port q).kxFailed = false) ∧
  (∀ (s : State) (q : Fin 24) (a k : Kx1), s.pst q = 5 → (s.port q).kxFailed = false → (s.port q).own = some a → (s.port q).peer = none →
    s.certKey k.devid = none →
    Leads (.keyxMessage q (.kx1 k)) s fun t => (t.port q).peer = none ∧ (t.port q).kxFailed = true) ∧
  (∀ (s : State) (q : Fin 24) (a k : Kx1) (key z sig : Bytes), s.pst q = 5 → (s.port q).kxFailed = false → (s.port q).own = some a →
    (s.port q).peer = some k → (s.port q).prk = none → s.certKey k.alias2 = some key → shared (s.port q).eph k.epk = some z →
    verify key (kxDigest (s.port q).first a k) sig = true →
    Leads (.keyxMessage q (.kx2 sig)) s fun t =>
      (t.port q).prk = some (extract (if (s.port q).first then a.nonce ++ k.nonce else k.nonce ++ a.nonce) z) ∧
      bit (t.rd pgMordant MD_LINKS_KEYED) q = true) ∧
  (∀ (s : State) (q : Fin 24) (a k : Kx1) (key sig : Bytes), s.pst q = 5 → (s.port q).kxFailed = false → (s.port q).own = some a →
    (s.port q).peer = some k → (s.port q).prk = none → s.certKey k.alias2 = some key →
    verify key (kxDigest (s.port q).first a k) sig = false →
    Leads (.keyxMessage q (.kx2 sig)) s fun t => (t.port q).prk = none ∧ (t.port q).kxFailed = true) ∧
  (∀ (s : State) (q : Fin 24), s.pst q = 6 → (s.port q).txSeq = (s.rd (pgRunner q) RN_KEY_INDEX + 1) * 2 ^ 32 →
    s.rd (pgRunner q) RN_KEY_INDEX + 1 < (s.port q).loaded →
    Leads (.trafficKeySwitch q) s fun t =>
      t.rd (pgRunner q) RN_KEY_INDEX = (s.rd (pgRunner q) RN_KEY_INDEX + 1) % 2 ^ RN_KEY_INDEX.width ∧ s.sameBut [.regs] t) ∧
  (∀ (s : State) (q : Fin 24), s.pst q = 6 → (s.port q).txSeq = (s.rd (pgRunner q) RN_KEY_INDEX + 1) * 2 ^ 32 →
    (s.port q).loaded ≤ s.rd (pgRunner q) RN_KEY_INDEX + 1 →
    Leads (.trafficKeySwitch q) s fun t => t.pst q = 1 ∧ (t.port q).prk = none) ∧
  (∀ (s : State) (q : Fin 24) (cause : Fin 4), s.pst q = 6 →
    (cause.val = 0 ∧ (∃ b ∈ (s.port q).unacked, 4 ≤ b.resent)) ∨ (cause.val = 1 ∧ 1024 ≤ (s.port q).stall) ∨
      (cause.val = 2 ∧ 64 ≤ (s.port q).badLtag) →
    Leads (.linkLoss q cause) s fun t =>
      t.pst q = 1 ∧ (t.port q).prk = none ∧ (t.port q).unacked = [] ∧ (t.port q).resend = []) ∧
  (∀ (s : State) (q : Fin 24) (cause : Fin 4), s.pst q ≠ 6 → Leads (.linkLoss q cause) s fun t => s.sameBut [] t)

/-- R395, R396: a lane that fails on a sound x8 port asks to narrow to the other half; R397: NARROW takes both directions there. R369: a
partner's RETRAIN is accepted where this side permits it, else not answered. R395: a lane fails by one of its four causes only. R393, R394: a grid that ends in its turn is kept, no count
above 2^DWELL, and where it is of the eye named, it is the one shown and counted. -/
def Obligations.WidthAndMargins : Prop :=
  (∀ (s : State) (q : Fin 24) (x : LaneFault), s.pst q = 6 → s.pwidth q = 3 → s.laneFails q x = true →
    (∀ l, l < 8 → s.rd (lanePage q l) RN_LSTAT_STATE ≠ 3) →
    Leads (.runnerLaneFailure q x) s fun t =>
      t.rd (lanePage q x.lane) RN_LSTAT_STATE = 3 ∧ (t.port q).narrow = some (if x.lane.val < 4 then 1 else 0) ∧
      (t.port q).linkReq = 1 ∧ (t.port q).linkArg = (if x.lane.val < 4 then 1 else 0) ∧ t.pwidth q = 3) ∧
  (∀ (s : State) (q : Fin 24) (x : LaneFault), s.laneFails q x = false →
    Leads (.runnerLaneFailure q x) s fun t => t.runner = s.runner ∧ t.hall = s.hall ∧ t.resets = s.resets) ∧
  (∀ (s : State) (q : Fin 24) (upper : Bool), s.pst q = 6 → s.pwidth q = 3 → (s.port q).narrow = none →
    s.hears q 1 = true → (s.port q).heard.map Lcf.arg = some upper.toNat →
    Leads (.narrow q upper) s fun t =>
      t.pwidth q = upper.toNat + 1 ∧ (t.port q).linkReq = 1 ∧ (t.port q).linkArg = upper.toNat ∧
      t.rd (pgRunner q) RN_DL_SCHED_WORDS = schedWords (s.prate q) (upper.toNat + 1) % 2 ^ RN_DL_SCHED_WORDS.width) ∧
  (∀ (s : State) (q : Fin 24) (upper : Bool), s.pst q = 6 → s.pwidth q = 3 → (s.port q).narrow = some upper.toNat →
    s.hears q 1 = true → (s.port q).heard.map Lcf.arg = some upper.toNat →
    Leads (.narrow q upper) s fun t => t.pwidth q = upper.toNat + 1 ∧ (t.port q).narrow = none) ∧
  (∀ (s : State) (q : Fin 24), s.pst q = 6 → s.portFree q = true → s.hears q 2 = true →
    Leads (.retrain q) s fun t =>
      t.port q = { s.port q with linkReq := 5, accepted := true, heard := none } ∧ s.sameBut [.runner] t) ∧
  (∀ (s : State) (q : Fin 24), s.portFree q = false ∨ s.hears q 2 = false → Leads (.retrain q) s fun t => s.sameBut [] t) ∧
  (∀ (s : State) (q : Fin 24) (lane : Fin 8) (eye : Fin 3) (grid : List (Nat × Nat)), s.pst q = 6 →
    lane.val ∈ lanesOf (s.pwidth q) → s.on (lanePage q lane) RN_EYE_CTRL_ENABLE = true →
    s.rd (lanePage q lane) RN_EYE_CTRL_EYE = eye.val + 1 → s.eyeTurn q lane = some (eye.val + 1) →
    Leads (.eyeScanGridEnd q lane eye grid) s fun t =>
      aget [] (t.port q).grids (lane.val * 4 + eye.val + 1) = eyeGrid (s.rd (lanePage q lane) RN_EYE_CTRL_DWELL) grid ∧
      t.rd (lanePage q lane) RN_EYE_MARGIN_EYE = eye.val + 1 ∧
      t.rd (lanePage q lane) RN_EYE_MARGIN_PASSES =
        min (s.rd (lanePage q lane) RN_EYE_MARGIN_PASSES + 1) (2 ^ RN_EYE_MARGIN_PASSES.width - 1)) ∧
  (∀ (s : State) (q : Fin 24) (lane : Fin 8) (eye : Fin 3) (grid : List (Nat × Nat)),
    s.on (lanePage q lane) RN_EYE_CTRL_ENABLE = false →
    Leads (.eyeScanGridEnd q lane eye grid) s fun t => s.sameBut [] t)

/-- R375 to R378, R383, R385: a port sends the next of the blocks to be resent, else a new block while fewer than 32 are unacknowledged and
its traffic key is in use; each takes an LCF's count. A NAK has every unacknowledged block resent in order; a fill block leaves them as
they were. (A port whose RETRAIN_ACK leaves trains instead.) -/
def Obligations.BlocksAreSent : Prop :=
  (∀ (s : State) (q : Fin 24) (k : Bytes) (l : List (List LineSym)), (s.port q).prk = some k → s.pst q = 6 → (s.port q).resend = [] →
    (s.port q).unacked.length < 32 → (s.port q).txSeq / 2 ^ 32 = s.rd (pgRunner q) RN_KEY_INDEX → (s.port q).linkReq ≠ 5 →
    Leads (.blockSend q l) s fun t =>
      (t.port q).txSeq = (s.port q).txSeq + 1 ∧ (t.port q).lcfTx = (s.port q).lcfTx + 1 ∧ (t.port q).wire.isSome = true ∧
      (∃ b, (t.port q).unacked = (s.port q).unacked ++ [b] ∧ b.seq = (s.port q).txSeq)) ∧
  (∀ (s : State) (q : Fin 24) (k : Bytes) (l : List (List LineSym)) (r : Nat) (rs : List Nat) (b : TxBlock), (s.port q).prk = some k →
    s.pst q = 6 → (s.port q).resend = r :: rs → (s.port q).unacked.find? (fun b => decide (b.seq = r)) = some b →
    (s.port q).linkReq ≠ 5 →
    Leads (.blockSend q l) s fun t =>
      (t.port q).resend = rs ∧ (t.port q).txSeq = (s.port q).txSeq ∧ (t.port q).lcfTx = (s.port q).lcfTx + 1 ∧
      (t.port q).unacked.map TxBlock.seq = (s.port q).unacked.map TxBlock.seq ∧
      t.rd (pgRunner q) RN_REPLAY_COUNT = min (s.rd (pgRunner q) RN_REPLAY_COUNT + 1) (2 ^ RN_REPLAY_COUNT.width - 1)) ∧
  (∀ (s : State) (q : Fin 24) (l : List (List LineSym)), (s.port q).resend = [] → 32 ≤ (s.port q).unacked.length →
    Leads (.blockSend q l) s fun t => s.sameBut [] t) ∧
  (∀ (s : State) (q : Fin 24), s.pst q = 6 → (s.port q).nakRx = true →
    Leads (.replay q) s fun t =>
      t.port q = { s.port q with nakRx := false, resend := (s.port q).unacked.map TxBlock.seq } ∧ s.sameBut [.runner] t) ∧
  (∀ (s : State) (q : Fin 24), (s.port q).nakRx = false → Leads (.replay q) s fun t => s.sameBut [] t) ∧
  (∀ (s : State) (q : Fin 24) (l : List (List LineSym)), s.pst q = 3 ∨ s.pst q = 6 ∧ 32 ≤ (s.port q).unacked.length ∧ (s.port q).resend = [] →
    (s.port q).linkReq ≠ 5 →
    Leads (.fillBlock ⟨q, l⟩) s fun t =>
      (t.port q).unacked = (s.port q).unacked ∧ (t.port q).txSeq = (s.port q).txSeq ∧
      (t.port q).lcfTx = (s.port q).lcfTx + 1 ∧ (t.port q).markDue = false ∧ s.sameBut [.regs, .runner] t)

/-- R383: a block is accepted in order, its tag verified and, after a NAK, with REPLAY, and its units join the receive buffers of their virtual channels (R378); one in error is discarded and asks for a replay.
R381, R379: an LCF whose LTAG verifies acknowledges blocks and returns credits, never beyond the receiver's buffers, and what it asks is heard; one that does not is counted
and changes neither, and asks nothing. -/
def Obligations.BlocksAndLcfsAreReceived : Prop :=
  (∀ (s : State) (q : Fin 24) (k : Bytes) (b : Block), (s.port q).prk = some k → s.pst q = 6 → (b.lanes.any fun l => l.errors.any beyond) = false →
    b.seq = (s.port q).rxSeq → (s.port q).nakTx = false ∨ b.replay = true →
    b.tag = gcmTag (trafficKey k (!(s.port q).first) (b.seq / 2 ^ 32)) (blockNonce k (!(s.port q).first) b.seq)
      (blockAad b.seq b.ftype b.utype b.poison) b.payload →
    Leads (.blockReceive q b) s fun t =>
      (t.port q).rxSeq = (s.port q).rxSeq + 1 ∧ (t.port q).nakTx = false ∧ (t.port q).txSeq = (s.port q).txSeq ∧
      (t.port q).rxSync = (s.port q).rxSync ++ (s.delivers q k b).sync ∧
      (t.port q).rxIndigo = (s.port q).rxIndigo ++ (s.delivers q k b).indigo ∧
      (t.port q).rxWoad = (s.port q).rxWoad ++ (s.delivers q k b).woad) ∧
  (∀ (s : State) (q : Fin 24) (k : Bytes) (b : Block), (s.port q).prk = some k → s.pst q = 6 → (b.lanes.any fun l => l.errors.any beyond) = true →
    Leads (.blockReceive q b) s fun t =>
      t.port q = { s.port q with nakTx := true, rxLine := (t.port q).rxLine, uncorr := (t.port q).uncorr } ∧
      t.rd (pgRunner q) RN_FEC_UNCORR = min (s.rd (pgRunner q) RN_FEC_UNCORR + 1) (2 ^ RN_FEC_UNCORR.width - 1)) ∧
  (∀ (s : State) (q : Fin 24) (k : Bytes) (b : Block), (s.port q).prk = some k → s.pst q = 6 → (b.lanes.any fun l => l.errors.any beyond) = false →
    b.seq = (s.port q).rxSeq → (s.port q).nakTx = false ∨ b.replay = true →
    b.tag ≠ gcmTag (trafficKey k (!(s.port q).first) (b.seq / 2 ^ 32)) (blockNonce k (!(s.port q).first) b.seq)
      (blockAad b.seq b.ftype b.utype b.poison) b.payload →
    Leads (.blockReceive q b) s fun t =>
      t.port q = { s.port q with nakTx := true, rxLine := (t.port q).rxLine, uncorr := (t.port q).uncorr } ∧
      t.rd (pgRunner q) RN_FEC_AUTH_FAIL = min (s.rd (pgRunner q) RN_FEC_AUTH_FAIL + 1) (2 ^ RN_FEC_AUTH_FAIL.width - 1)) ∧
  (∀ (s : State) (q : Fin 24) (k : Bytes) (l : Lcf), (s.port q).prk = some k → s.pst q = 6 →
    l.ltag = lcfTag k (!(s.port q).first) ((s.port q).rxSeq / 2 ^ 32) (s.port q).lcfRx (Machine.Lcf.mid l) →
    l.req ≠ 5 ∨ (s.port q).asking = false ∨ s.portFree q = false →
    Leads (.lcfReceive q l) s fun t =>
      (t.port q).lcfRx = (s.port q).lcfRx + 1 ∧ (t.port q).badLtag = 0 ∧ (t.port q).nakRx = bit l.flags 1 ∧ (t.port q).heard = some l ∧
      (t.port q).unacked = (s.port q).unacked.filter (fun b => decide (l.ack = 2 ^ 64 - 1 ∨ l.ack < b.seq)) ∧
      t.rd (pgRunner q) RN_CREDIT_SYNC = min 64 (s.rd (pgRunner q) RN_CREDIT_SYNC + l.credSync) ∧
      t.rd (pgRunner q) RN_CREDIT_INDIGO = min 256 (s.rd (pgRunner q) RN_CREDIT_INDIGO + l.credIndigo) ∧
      t.rd (pgRunner q) RN_CREDIT_WOAD = min 4096 (s.rd (pgRunner q) RN_CREDIT_WOAD + l.credWoad)) ∧
  (∀ (s : State) (q : Fin 24) (k : Bytes) (l : Lcf), (s.port q).prk = some k → s.pst q = 6 →
    l.ltag ≠ lcfTag k (!(s.port q).first) ((s.port q).rxSeq / 2 ^ 32) (s.port q).lcfRx (Machine.Lcf.mid l) →
    Leads (.lcfReceive q l) s fun t =>
      t.port q = { s.port q with lcfRx := (s.port q).lcfRx + 1, badLtag := (s.port q).badLtag + 1, heard := none,
                                 rxLine := (t.port q).rxLine, uncorr := (t.port q).uncorr } ∧
      t.rd (pgRunner q) RN_CREDIT_SYNC = s.rd (pgRunner q) RN_CREDIT_SYNC)

/-- R387, R391: a word the hub drives to an ACTIVE port of its own partition with DL of 7 or less joins the transmit queue, behind those that
wait, at most SCHED_WORDS of them a slot. R389: received words are released, in order, when their release slot has come. R390: after slot 4087 released words of the epoch that
nothing took are gone. -/
def Obligations.ScheduledWordsCrossLinks : Prop :=
  (∀ (s : State) (q : Fin 24) (cyc : Nat) (w : BWord) (m : Bool), cyc < s.cps → s.pst q = 6 →
    s.on (pgRunner q) RN_PSTAT_SCHED_OK = true → s.foreign q = false → s.rnOwner q = some (s.partOfRiser (q.val / 3)) →
    s.wordOut (80 + q.val / 3) (43 + q.val % 3) (s.absCycle s.slot cyc) = some (w, m) →
    s.drovenNow q < s.rd (pgRunner q) RN_DL_SCHED_WORDS →
    Leads (.schedWordDrive q cyc) s fun t =>
      t.port q = { s.port q with txSched := (s.port q).txSched ++ [w], drove := (s.epoch * 4096 + s.slot, s.drovenNow q + 1) } ∧
      t.mem = s.mem ∧ (m = false → s.sameBut [.runner] t)) ∧
  (∀ (s : State) (q : Fin 24) (cyc : Nat), s.pst q ≠ 6 ∨ s.foreign q = true ∨ s.on (pgRunner q) RN_PSTAT_SCHED_OK = false ∨
      s.rd (pgRunner q) RN_DL_SCHED_WORDS ≤ s.drovenNow q →
    Leads (.schedWordDrive q cyc) s fun t => s.sameBut [] t) ∧
  (∀ (s : State) (q : Fin 24),
    Leads (.schedWordRelease q) s fun t =>
      (t.port q).released = (s.port q).released ++ (s.port q).rxSched.filter (fun e => decide (e.1 ≤ s.time.ticks / 256)) ∧
      (t.port q).rxSched = (s.port q).rxSched.filter (fun e => decide (s.time.ticks / 256 < e.1)) ∧ s.sameBut [.runner] t) ∧
  (∀ (s : State) (q : Fin 24), 4088 ≤ s.slot →
    Leads (.releaseBufferFlush q) s fun t =>
      (t.port q).released = (s.port q).released.filter (fun e => decide (s.epoch * 4096 + 4087 < e.1)) ∧
      (t.port q).rxSched = (s.port q).rxSched ∧ s.sameBut [.regs, .runner] t) ∧
  (∀ (s : State) (q : Fin 24), s.slot < 4088 → Leads (.releaseBufferFlush q) s fun t => s.sameBut [] t)

/-! ### Requests (11_hall_memory.md) -/

/-- R406, R241: a request of an engine, no register access, that passes the checks of its origin takes the next number and its flits, a header and one
for each 64 bytes, go to its router; a program outside its window issues none (R220); one that fails completes at its origin with the status of the first failed check. R414, R411: a request to another package that is
not answered in time completes with TIMEOUT, and an answer completes its request once, when its flits have come. -/
def Obligations.RequestsIssueAndComplete : Prop :=
  (∀ (s : State) (q : Request), programIdle q s = false → s.ownPkg q.addr = true → isReg q.op = false →
    s.originStatus (s.reqOf q) = 0 →
    Leads (.requestIssue q) s fun t =>
      t.hall.nextId = s.hall.nextId + 1 ∧ t.travels s.hall.nextId false = true ∧
      t.req s.hall.nextId = some { s.reqOf q with issuedAt := s.real, level := s.levelOf (s.reqOf q) } ∧
      (∀ r, r ≠ routerOf (reqIdent q.who) → aget [] t.net.flits r = aget [] s.net.flits r) ∧
      ((aget [] t.net.flits (routerOf (reqIdent q.who)) ++ aget [] t.net.outbox (routerOf (reqIdent q.who))).length =
        (aget [] s.net.flits (routerOf (reqIdent q.who)) ++ aget [] s.net.outbox (routerOf (reqIdent q.who))).length +
          ((s.packetOf s.hall.nextId (s.reqOf q)).payload.length + 63) / 64 + 1)) ∧
  (∀ (s : State) (q : Request), programIdle q s = true → s.redescribe = s → Leads (.requestIssue q) s fun t => s.sameBut [] t) ∧
  (∀ (s : State) (q : Request), programIdle q s = false → s.originStatus (s.reqOf q) ≠ 0 → s.service (reqIdent q.who) ≠ 3 →
    s.hall.nextId ∉ s.hall.orphans →
    Leads (.requestIssue q) s fun t =>
      t.hall.nextId = s.hall.nextId + 1 ∧ t.takeDone s.hall.nextId = some { status := s.originStatus (s.reqOf q) } ∧
      t.req s.hall.nextId = none) ∧
  (∀ (s : State) (id cycles : Nat) (r : Req) (a : Ans), s.req id = some r → r.ans = some a → s.service r.src ≠ 3 →
    id ∉ s.hall.orphans → s.travels id true = false →
    Leads (.response id cycles) s fun t => t.takeDone id = some a ∧ t.req id = none) ∧
  (∀ (s : State) (id cycles : Nat) (r : Req) (a : Ans), s.req id = some r → r.ans = some a → id ∈ s.hall.orphans →
    s.travels id true = false →
    Leads (.response id cycles) s fun t => t.hall.done = s.hall.done ∧ t.req id = none) ∧
  (∀ (s : State) (id cycles : Nat) (r : Req), s.req id = some r → r.ans = none ∨ s.travels id true = true → Leads (.response id cycles) s fun t => s.sameBut [] t) ∧
  (∀ (s : State) (id : Nat) (r : Req), s.req id = some r → r.remote.isSome = true → r.ans = none → s.hTimeout ≤ s.real - r.issuedAt →
    s.service r.src ≠ 3 → id ∉ s.hall.orphans →
    Leads (.requestTimeout id) s fun t =>
      t.takeDone id = some { status := xTIMEOUT } ∧ t.req id = none ∧
      t.rd pgHall NW_HTOUT_COUNT = min (s.rd pgHall NW_HTOUT_COUNT + 1) (2 ^ NW_HTOUT_COUNT.width - 1)) ∧
  (∀ (s : State) (id : Nat) (r : Req), s.req id = some r → s.real - r.issuedAt < s.hTimeout →
    Leads (.requestTimeout id) s fun t => s.sameBut [] t)

/-- R407: an own request in this package, outside a cache, is answered with what its home memory reads; a write stores its bytes and no
others (an addition in a reduction part covers its 8-byte words, R343). R270: one whose home is
fenced is answered FENCED. R298: DRAM answers when each of its channels has served. R200, R323: an
access whose banks are not free waits for them; R201: a read of a cluster memory sees what stood there before the cycle. -/
def Obligations.ReadsAndWritesReachTheirHomes : Prop :=
  (∀ (s : State) (id : Nat) (r : Req), s.req id = some r → r.op = 0x01 → r.via = none → r.remote = none → r.ans = none →
    s.viaCache r = none → s.ownPkg r.addr = true → s.servedAll r r.len = true → s.atOnce id r →
    (∀ k off, homeOf (localOf r.addr) ≠ .cluster k off) → (∀ x off, homeOf (localOf r.addr) = .cxl x off → s.cxUp x = true) →
    Leads (.read id []) s fun t =>
      (∃ a, t.req id = some { r with ans := some a } ∧ a.status = poisonStatus (s.readMem (localOf r.addr) r.len).2 ∧
        a.data = (s.readMem (localOf r.addr) r.len).1 ∧ a.poison = (s.readMem (localOf r.addr) r.len).2) ∧
      t.mem = s.mem ∧ t.poison = s.poison) ∧
  (∀ (s : State) (id k off : Nat) (r : Req), s.req id = some r → r.op = 0x01 → r.via = none → r.remote = none → r.ans = none →
    s.viaCache r = none → s.ownPkg r.addr = true → s.atOnce id r → homeOf (localOf r.addr) = .cluster k off →
    Leads (.read id []) s fun t =>
      (∃ a, t.req id = some { r with ans := some a } ∧ a.data = (s.beforeCycle.readMem (localOf r.addr) r.len).1 ∧
        a.poison = (s.beforeCycle.readMem (localOf r.addr) r.len).2) ∧ t.mem = s.mem ∧ t.poison = s.poison) ∧
  (∀ (s : State) (id : Nat) (parity : List Nat) (r : Req), s.req id = some r → r.via = none → r.remote = none →
    r.ans = none → s.viaCache r = none → s.fencedHome (homeOf (localOf r.addr)) false = false →
    s.servedAll r r.span = false ∨ s.travels id false = true →
    Leads (.read id parity) s fun t => s.sameBut [] t) ∧
  (∀ (s : State) (id : Nat) (parity : List Nat) (r : Req), s.req id = some r → r.op = 0x01 → r.via = none → r.remote = none →
    r.ans = none → s.travels id false = false → s.ownPkg r.addr = true → s.fencedHome (homeOf (localOf r.addr)) false = true →
    Leads (.read id parity) s fun t =>
      t.req id = some { r with ans := some { status := xFENCED } } ∧ t.mem = s.mem ∧ t.poison = s.poison ∧ t.banks = s.banks) ∧
  (∀ (s : State) (id h : Nat) (parity : List Nat) (r : Req), s.req id = some r → r.op = 0x01 → r.via = none → r.remote = none →
    r.ans = none → s.travels id false = false → s.fencedHome (homeOf (localOf r.addr)) false = false → s.readyFor r = true →
    s.hasTurn id r = true → (s.bankNeed r).home = some h →
    (∀ w ∈ s.banks.wait, w.work ≠ .request id parity) →
    s.portsFree (s.bankRank h r.src r.level false) (s.needPorts (s.bankNeed r)) = false →
    Leads (.read id parity) s fun t =>
      t.req id = some r ∧ t.mem = s.mem ∧ t.banks.wait = s.banks.wait ++
        [{ rank := s.bankRank h r.src r.level false, page := r.src, need := s.needPorts (s.bankNeed r), work := .request id parity }]) ∧
  (∀ (s : State) (id : Nat) (r : Req), s.req id = some r → r.op = 0x02 → r.via = none → r.remote = none → r.ans = none →
    s.viaCache r = none → s.ownPkg r.addr = true → s.servedAll r r.len = true → localOf r.addr < 0x080000000000 → s.atOnce id r →
    Leads (.write ⟨id, []⟩) s fun t =>
      t.mem = (s.storeLocal (localOf r.addr) (slice r.data 0 r.len) r.poison).mem ∧ t.req id = some { r with ans := some {} } ∧
      (∀ b, b < localOf r.addr / 8 * 8 ∨ (localOf r.addr + r.len + 7) / 8 * 8 ≤ b → t.getB b = s.getB b)) ∧
  (∀ (s : State) (id : Nat) (r : Req), s.req id = some r → r.op = 0x03 → r.via = none → r.remote = none → r.ans = none →
    s.viaCache r = none → s.ownPkg r.addr = true → s.servedAll r r.len = true → localOf r.addr < 0x080000000000 → s.atOnce id r →
    Leads (.writeShort ⟨id, []⟩) s fun t =>
      t.mem = (s.storeLocal (localOf r.addr) (slice r.data 0 r.len) r.poison).mem ∧ t.req id = some { r with ans := some {} } ∧
      (∀ b, b < localOf r.addr / 8 * 8 ∨ (localOf r.addr + r.len + 7) / 8 * 8 ≤ b → t.getB b = s.getB b)) ∧
  (∀ (s : State) (id k f : Nat) (r : Req), s.req id = some r → r.op = 0x02 → r.via = none → r.remote = none → r.ans = none →
    s.viaCache r = none → s.ownPkg r.addr = true → homeOf (localOf r.addr) = .cluster k f → s.atOnce id r →
    Leads (.write ⟨id, []⟩) s fun t => t.getBs (localOf r.addr) r.len = slice r.data 0 r.len)

/-- R336, R339, R341: an atomic and a reduction at their home slice read, operate and store in one step, count, and answer a fetch with the old
value; no byte outside the operand's is written. -/
def Obligations.AtomicsOperateAtHome : Prop :=
  (∀ (s : State) (id k off : Nat) (r : Req), s.req id = some r → isAtomic r.op = true → r.via = none → r.remote = none → r.ans = none →
    s.viaCache r = none → s.ownPkg r.addr = true → homeOf (localOf r.addr) = .slice k off → s.atOnce id r →
    Leads (.atomic ⟨id, []⟩) s fun t =>
      t.getBs (localOf r.addr) (tyBytes r.ty) =
        le (tyBytes r.ty) (atomicOp (r.op - 0x10) r.ty (unle (s.getBs (localOf r.addr) (tyBytes r.ty))) r.value r.compare) ∧
      (∀ b, b < localOf r.addr ∨ localOf r.addr + tyBytes r.ty ≤ b → t.getB b = s.getB b) ∧
      (∃ a, t.req id = some { r with ans := some a } ∧
        a.value = if r.posted then 0 else unle (s.getBs (localOf r.addr) (tyBytes r.ty))) ∧
      t.rd (pgSlice k) SB_ATOMS_COUNT = min (s.rd (pgSlice k) SB_ATOMS_COUNT + 1) (2 ^ SB_ATOMS_COUNT.width - 1)) ∧
  (∀ (s : State) (id k off : Nat) (r : Req), s.req id = some r → isReduce r.op = true → r.via = none → r.remote = none → r.ans = none →
    s.viaCache r = none → s.ownPkg r.addr = true → homeOf (localOf r.addr) = .slice k off → s.atOnce id r →
    Leads (.reduce ⟨id, []⟩) s fun t =>
      t.mem = (s.setBs (localOf r.addr) (reduceOp (r.op - 0x20) r.ty (s.getBs (localOf r.addr) r.span) r.data)).mem ∧
      (∃ a, t.req id = some { r with ans := some a } ∧ a.value = 0 ∧ a.status = 0) ∧
      t.rd (pgSlice k) SB_ATOMS_COUNT = min (s.rd (pgSlice k) SB_ATOMS_COUNT + 1) (2 ^ SB_ATOMS_COUNT.width - 1)) ∧
  (∀ (s : State) (id : Nat) (parity : List Nat) (r : Req), s.req id = some r → isAtomic r.op = false →
    Leads (.atomic ⟨id, parity⟩) s fun t => s.sameBut [] t) ∧
  (∀ (s : State) (id : Nat) (parity : List Nat) (r : Req), s.req id = some r → isReduce r.op = false →
    Leads (.reduce ⟨id, parity⟩) s fun t => s.sameBut [] t)

/-! ### Tile programs (05_tile_programs.md) -/

/-- R186, R171, R172, R185, R162: an instruction that issues in cycle `n` takes the sequencer past it. TNOP does nothing else; TLOADS fills the
shadow sets, or, through a descriptor its core does not accept (R197), does not; TSWAP exchanges the sets; TPRED writes its predicate; TEND ends the period's program. None stores to memory. A period's start
takes an ended program back to instruction 0. -/
def Obligations.TileControlInstructionsRun : Prop :=
  (∀ (s : State) (m : Fin 320) (n : Nat), s.tileIssues m 0 n →
    Leads (.tnop m) s fun t =>
      t.mx m = { s.mx m with seq := (s.mx m).seq.passed n (some (n + nopCount (s.tileWord m))) } ∧
      t.rd (pgMatrix m) MX_SEQ_LAST_SLOT = slotOf s.cps n ∧ t.mem = s.mem) ∧
  (∀ (s : State) (m : Fin 320) (n : Nat), s.tileIssues m 1 n →
    (∀ j, nextTmm (s.mxProg m) (s.mx m).seq.pc = some j → (s.issued m n).loadsBad m (s.mxProg m) (tileInstr (s.mxProg m) j) = none) →
    Leads (.tloads m) s fun t =>
      (t.mx m).seq = (s.mx m).seq.passed n (some (n + tileCycles (s.mxProg m) (s.mx m).seq.pc)) ∧ (t.mx m).active = (s.mx m).active ∧
      (t.mx m).shadow = (match nextTmm (s.mxProg m) (s.mx m).seq.pc with
        | some j => (s.issued m n).setFor (s.mxProg m) (tileInstr (s.mxProg m) j) 0 0
        | none => {}) ∧
      t.rd (pgMatrix m) MX_STATUS_SHADOW_FULL = 1 ∧ t.mem = s.mem) ∧
  (∀ (s : State) (m : Fin 320) (n j : Nat), s.tileIssues m 1 n → nextTmm (s.mxProg m) (s.mx m).seq.pc = some j →
    (s.issued m n).loadsBad m (s.mxProg m) (tileInstr (s.mxProg m) j) ≠ none →
    Leads (.tloads m) s fun t => (t.mx m).shadow = (s.mx m).shadow ∧ t.mem = s.mem ∧ t.poison = s.poison) ∧
  (∀ (s : State) (m : Fin 320) (n : Nat), s.tileIssues m 2 n →
    Leads (.tswap m) s fun t =>
      (t.mx m).seq = (s.mx m).seq.passed n (some (n + 1)) ∧ (t.mx m).active = (s.mx m).shadow ∧ (t.mx m).shadow = (s.mx m).active ∧
      t.rd (pgMatrix m) MX_STATUS_SHADOW_FULL = 0 ∧ t.mem = s.mem) ∧
  (∀ (s : State) (m : Fin 320) (n : Nat), s.tileIssues m 6 n →
    Leads (.tpred m) s fun t =>
      (t.mx m).seq.pc = (s.mx m).seq.pc + 1 ∧ t.mem = s.mem ∧
      t.rd (pgMatrix m) MX_SEQ_PRED_P =
        (if tpDst (s.tileWord m) = 0 then s.rd (pgMatrix m) MX_SEQ_PRED_P
          else setBit (s.rd (pgMatrix m) MX_SEQ_PRED_P) (tpDst (s.tileWord m) - 1)
            (predCond (s.tileWord m) (s.flag (m / 4) (tpFlag (s.tileWord m) % 256)))) % 2 ^ MX_SEQ_PRED_P.width) ∧
  (∀ (s : State) (m : Fin 320) (n : Nat), s.tileIssues m 7 n →
    Leads (.tend m) s fun t =>
      (t.mx m).seq = { (s.mx m).seq.passed n (some (n + 1)) with ended := true } ∧ t.mem = s.mem) ∧
  (∀ (s : State) (m : Fin 320), (s.mx m).run = none → (s.mx m).out = none → (s.mx m).seq.ended = true →
    s.playing (s.mxPart m) = true → s.restartAt (s.mxPart m) (s.mx m).seq.period ≤ s.cycles →
    Leads (.periodRestart m) s fun t =>
      (t.mx m).seq.pc = 0 ∧ (t.mx m).seq.period = (s.mx m).seq.period + 1 ∧ (t.mx m).seq.ended = false ∧
      (t.mx m).active = (s.mx m).active ∧ t.rd (pgMatrix m) MX_SEQ_PRED_P = s.rd (pgMatrix m) MX_SEQ_PRED_P ∧ t.mem = s.mem ∧
      (t.mx m).trks = (s.mx m).trks ∧ t.rd (pgMatrix m) MX_SEQ_STATE_TRK_BANK = s.rd (pgMatrix m) MX_SEQ_STATE_TRK_BANK) ∧
  (∀ (s : State) (m : Fin 320), (s.mx m).run = none → (s.mx m).out = none →
    (s.mx m).seq.ended = false ∨ s.playing (s.mxPart m) = false ∨ s.cycles < s.restartAt (s.mxPart m) (s.mx m).seq.period →
    Leads (.periodRestart m) s fun t => t.mx m = s.mx m ∧ t.mem = s.mem)

/-- R103, R176: a TMM that issues now, with descriptors its core accepts and no parity error, is in flight with what it read, its expected
cycles shown; a TOUT holds its resources to its end; neither has stored yet. R183, R184: a SET or ADD, unless its predicate is false, sends its token, and takes the sync port for a cycle; a WAIT whose condition
holds passes; one whose condition does not is pending, with a slip, until it does. -/
def Obligations.TileOperationsRun : Prop :=
  (∀ (s : State) (m : Fin 320), 0 < s.cycles → s.tileIssues m 3 s.cycles → (s.issued m s.cycles).tmmBad m (s.mxProg m) (s.tileWord m) = none →
    Leads (.tmm m []) s fun t =>
      (t.mx m).seq = (s.mx m).seq.passed s.cycles none ∧
      (∃ r, (t.mx m).run = some r ∧ r.pc = (s.mx m).seq.pc ∧ r.word = s.tileWord m ∧ r.start = s.cycles ∧
        r.acts = s.predHolds m (s.tileWord m)) ∧
      t.rd (pgMatrix m) MX_CYC_EXP_CYCLES = (planFor (s.mxProg m) (s.tileWord m)).total % 2 ^ MX_CYC_EXP_CYCLES.width ∧ t.mem = s.mem) ∧
  (∀ (s : State) (m : Fin 320), s.tileIssues m 4 s.cycles → (s.issued m s.cycles).toutBad m (s.mxProg m) (s.tileWord m) = none →
    Leads (.tout m []) s fun t =>
      (t.mx m).seq.pc = (s.mx m).seq.pc + 1 ∧ t.mem = s.mem ∧
      ∃ o, (t.mx m).out = some o ∧ o.pc = (s.mx m).seq.pc ∧ o.start = s.cycles ∧
        o.fin = s.cycles + tileCycles (s.mxProg m) (s.mx m).seq.pc ∧ o.acts = s.predHolds m (s.tileWord m)) ∧
  (∀ (s : State) (m : Fin 320) (n : Nat), s.tileIssues m 5 n → 2 ≤ tsMode (s.tileWord m) ∨ s.waitMet (m / 4) (s.tileWord m) = true →
    Leads (.tsync m) s fun t =>
      (t.mx m).seq = { (s.mx m).seq with syncTo := n + 1 }.passed n (some (n + 1)) ∧ t.mem = s.mem ∧
      (tsMode (s.tileWord m) ≤ 1 ∨ s.predHolds m (s.tileWord m) = false → t.net = s.net)) ∧
  (∀ (s : State) (m : Fin 320) (n : Nat), s.tileIssues m 5 n → 2 ≤ tsMode (s.tileWord m) → s.predHolds m (s.tileWord m) = true →
    Leads (.tsync m) s fun t =>
      t.net = ((s.issued m n).syncSend n (m / 4) (s.mxPart m) (pgMatrix m) (s.tileWord m)).net ∧
      (tsFlag (s.tileWord m) / 256 % 256 = 0 → tsMode (s.tileWord m) = 2 →
        t.net.tokens = s.net.tokens ++ [⟨m / 4, tsFlag (s.tileWord m) % 256, 0, tsValue (s.tileWord m), n + 3, 8, []⟩])) ∧
  (∀ (s : State) (m : Fin 320) (n : Nat), s.tileIssues m 5 n → tsMode (s.tileWord m) ≤ 1 → s.waitMet (m / 4) (s.tileWord m) = false →
    Leads (.tsync m) s fun t =>
      (t.mx m).seq.wait = some ((s.mx m).seq.pc, s.tileWord m) ∧ (t.mx m).seq.pc = (s.mx m).seq.pc + 1 ∧ t.mem = s.mem ∧
      t.rd (pgMatrix m) MX_SEQ_SYNCW_COUNT = min (s.rd (pgMatrix m) MX_SEQ_SYNCW_COUNT + 1) (2 ^ MX_SEQ_SYNCW_COUNT.width - 1)) ∧
  (∀ (s : State) (m : Fin 320) (k w : Nat), (s.mx m).seq.wait = some (k, w) → s.playing (s.mxPart m) = true →
    (s.mx m).seq.floor ≤ s.cycles → s.waitMet (m / 4) w = true →
    Leads (.tsyncWaitMet m) s fun t =>
      (t.mx m).seq.wait = none ∧ (t.mx m).seq.syncTo = s.cycles + 2 ∧ (t.mx m).seq.pc = (s.mx m).seq.pc ∧ s.sameBut [.mxs] t) ∧
  (∀ (s : State) (m : Fin 320), (s.mx m).seq.wait = none → Leads (.tsyncWaitMet m) s fun t => s.sameBut [] t)

/-! ### Mover programs (07_networks.md) -/

/-- R255, R257: mover instructions issue as tile instructions do. R261, R265, R269: an MXFER whose ends are accepted is under way from its issue, with
its count shown, and any goes past; one between local ends completes when its end has come, storing its elements, and to their sectors only. -/
def Obligations.MoverInstructionsRun : Prop :=
  (∀ (s : State) (m : Fin 112) (n : Nat), s.moverIssues m 0 n →
    Leads (.mnop m) s fun t =>
      t.mover m = { s.mover m with seq := (s.mover m).seq.passed n (some (n + nopCount (s.moverWord m))) } ∧ s.sameBut [.movers] t) ∧
  (∀ (s : State) (m : Fin 112) (n : Nat), s.moverIssues m 5 n →
    2 ≤ tsMode (s.moverWord m) ∨ s.waitMet (mvRouter m) (s.moverWord m) = true →
    Leads (.msync m) s fun t => (t.mover m).seq = { (s.mover m).seq with syncTo := n + 1 }.passed n (some (n + 1)) ∧
      t.net = (if 2 ≤ tsMode (s.moverWord m) then s.syncSend n (mvRouter m) (s.mvPart m) (pgMover m) (s.moverWord m) else s).net) ∧
  (∀ (s : State) (m : Fin 112) (n : Nat), s.moverIssues m 5 n → tsMode (s.moverWord m) ≤ 1 →
    s.waitMet (mvRouter m) (s.moverWord m) = false →
    Leads (.msync m) s fun t =>
      (t.mover m).seq.wait = some ((s.mover m).seq.pc, s.moverWord m) ∧ (t.mover m).seq.pc = (s.mover m).seq.pc + 1) ∧
  (∀ (s : State) (m : Fin 112) (k w : Nat), (s.mover m).seq.wait = some (k, w) → s.playing (s.mvPart m) = true →
    (s.mover m).seq.floor ≤ s.cycles → s.waitMet (mvRouter m) w = true →
    Leads (.msyncWaitMet m) s fun t =>
      (t.mover m).seq.wait = none ∧ (t.mover m).seq.syncTo = s.cycles + 2 ∧ (t.mover m).xfer = (s.mover m).xfer ∧ s.sameBut [.movers] t) ∧
  (∀ (s : State) (m : Fin 112) (n : Nat), s.moverIssues m 7 n →
    Leads (.mend m) s fun t =>
      t.mover m = { s.mover m with seq := { (s.mover m).seq.passed n (some (n + 1)) with ended := true } } ∧ s.sameBut [.movers] t) ∧
  (∀ (s : State) (m : Fin 112) (n : Nat), s.moverIssues m 1 n →
    Leads (.mxfer ⟨m, []⟩) s fun t => (t.mover m).seq = (s.mover m).seq.passed n (some (s.mxferEnd s.cps m (s.mvProg m) (s.moverWord m) n))) ∧
  (∀ (s : State) (m : Fin 112), s.moverIssues m 1 s.cycles → isFar (s.moverWord m) = false → mvCheck (s.moverWord m) = false →
    s.mxferBad m (s.mvProg m) (s.moverWord m) = none → mvSrc (s.moverWord m) = 0 → (s.queue (pgMover m)).length < 16 →
    Leads (.mxfer ⟨m, []⟩) s fun t =>
      t.rd (pgMover m) MV_CYC_EXP_CYCLES = s.mxferCount m (s.mvProg m) (s.moverWord m) % 2 ^ MV_CYC_EXP_CYCLES.width ∧
      ∃ x, (t.mover m).xfer = some x ∧ x.word = s.moverWord m ∧ x.issue = s.cycles ∧
        x.done = s.mxferEnd s.cps m (s.mvProg m) (s.moverWord m) s.cycles ∧ x.status = 0) ∧
  (∀ (s : State) (m : Fin 112) (x : Xfer), (s.mover m).xfer = some x → (s.mover m).remote = [] → x.done ≤ s.cycles → x.status = 0 →
    mvSrc x.word = 0 → mvDst x.word = 0 → mvCrcW x.word = false →
    Leads (.mxferComplete m) s fun t =>
      (t.mover m).xfer = none ∧ (t.mover m).seq = (s.mover m).seq ∧
      t.rd (pgMover m) MV_CYC_ACT_CYCLES = x.count % 2 ^ MV_CYC_ACT_CYCLES.width ∧
      t.mem = (((s.modMover m fun u => { u with xfer := none }).wr (pgMover m) MV_CYC_ACT_CYCLES x.count).storeElems m
        (x.puts.map fun e => { at_ := e.1, w := e.2.1, v := e.2.2.1, bad := e.2.2.2 })).mem ∧
      ∀ a, a / 64 * 64 ∉ touched (x.puts.map fun e => { at_ := e.1, w := e.2.1, v := e.2.2.1, bad := e.2.2.2 }) → t.getB a = s.getB a) ∧
  (∀ (s : State) (m : Fin 112) (x : Xfer), (s.mover m).xfer = some x → (s.mover m).remote = [] → s.cycles < x.done →
    mvSrc x.word = 0 → Leads (.mxferComplete m) s fun t => t.mover m = s.mover m ∧ t.mem = s.mem)

/-! ### General cores (06_clusters.md) -/

/-- R220 to R222: a window begins and runs its program, from its entry where it says RESTART; it ends cleanly for a program that closed it, suspends one where it says
SUSPEND, and is an overrun otherwise. WFI closes the window; a trap stops the program and is recorded. R214: HTREAD, HTWAIT, SYNCSET and SYNCWAIT; what is pending completes
when its tick has come, its flag holds. R209: the clock runs the program inside its window: an ADDI adds, a fetch outside the text traps with cause 1
(log entries 110 and 134); outside its window, with nothing pending, nothing runs. -/
def Obligations.CoreWindowsAndWaits : Prop :=
  (∀ (s : State) (g : Fin 640), s.playing (s.gcPart g) = true → (s.gc g).inWindow = false → (s.gc g).win < gsWins (s.gcProg g) →
    s.winFirst (s.gcPart g) (s.gc g).period (gsWindow (s.gcProg g) (s.gc g).win) ≤ s.cycles → s.out (pgGcore g) = false →
    Leads (.windowStart g) s fun t =>
      (t.gc g).inWindow = true ∧ (t.gc g).patrol = gwPatrol (gsWindow (s.gcProg g) (s.gc g).win) ∧
      (t.gc g).pc = (if gwRestart (gsWindow (s.gcProg g) (s.gc g).win) && !gwPatrol (gsWindow (s.gcProg g) (s.gc g).win) then
        4 * gwEntry (gsWindow (s.gcProg g) (s.gc g).win) else (s.gc g).pc) ∧ s.sameBut [.gcores] t) ∧
  (∀ (s : State) (g : Fin 640), (s.gc g).inWindow = true →
    s.winLast (s.gcPart g) (s.gc g).period (gsWindow (s.gcProg g) (s.gc g).win) < s.cycles →
    Leads (.windowEnd g) s fun t =>
      (t.gc g).inWindow = false ∧ (t.gc g).patrol = false ∧
      ((s.gc g).patrol = true → (t.gc g).pc = (s.gc g).pc ∧ (t.gc g).win = ((s.gc g).nextWin (gsWins (s.gcProg g))).win ∧
        s.sameBut [.gcores] t) ∧
      ((s.gc g).patrol = false → (s.gc g).wfi = true ∨ (s.gc g).stopped = true →
        t.gc g = { (s.gc g).nextWin (gsWins (s.gcProg g)) with inWindow := false, patrol := false } ∧ s.sameBut [.gcores] t) ∧
      ((s.gc g).patrol = false → (s.gc g).wfi = false → (s.gc g).stopped = false →
        (t.gc g).suspended = true ∧ (t.gc g).htwait = none ∧ (t.gc g).syncwait = none ∧
        (gwSuspend (gsWindow (s.gcProg g) (s.gc g).win) = false →
          t.rd (pgGcore g) GC_OVERRUN_COUNT = min (s.rd (pgGcore g) GC_OVERRUN_COUNT + 1) (2 ^ GC_OVERRUN_COUNT.width - 1)))) ∧
  (∀ (s : State) (g : Fin 640), s.gcRuns g = true →
    Leads (.wfi g) s fun t => t.gc g = { (s.gc g).retire with wfi := true } ∧ s.sameBut [.gcores] t) ∧
  (∀ (s : State) (g : Fin 640) (cause tval : Nat), s.gcRuns g = true →
    Leads (.userTrap g cause tval) s fun t =>
      (t.gc g).stopped = true ∧ (t.gc g).pc = (s.gc g).pc ∧ t.rd (pgGcore g) GC_TRAP_CAUSE = cause % 256 ∧
      t.rd (pgGcore g) GC_TRAP_PC_OFFSET = (s.gc g).pc % 2 ^ 32 ∧
      t.rd (pgGcore g) GC_TRAP_COUNT = min (s.rd (pgGcore g) GC_TRAP_COUNT + 1) (2 ^ GC_TRAP_COUNT.width - 1)) ∧
  (∀ (s : State) (g : Fin 640) (rd : Fin 32), s.gcRuns g = true →
    Leads (.htread g rd) s fun t => t.gc g = ((s.gc g).setX rd s.time.ticks).retire ∧ s.sameBut [.gcores] t) ∧
  (∀ (s : State) (g : Fin 640) (rd rs1 : Fin 32), s.gcRuns g = true →
    Leads (.htwait g rd rs1) s fun t =>
      t.gc g = (if (s.gc g).getX rs1 < s.time.ticks then ((s.gc g).setX rd (s.time.ticks - (s.gc g).getX rs1)).retire
        else if (s.gc g).getX rs1 ≤ s.cycleTick then ((s.gc g).setX rd (s.cycleTick - (s.gc g).getX rs1)).retire
        else { s.gc g with htwait := some (rd.val, (s.gc g).getX rs1) }) ∧ s.sameBut [.gcores] t) ∧
  (∀ (s : State) (g : Fin 640) (rd n : Nat), (s.gc g).htwait = some (rd, n) →
    Leads (.htwaitComplete g) s fun t =>
      t.gc g = (if n ≤ s.cycleTick then { ((s.gc g).setX rd (s.cycleTick - n)).retire with htwait := none } else s.gc g) ∧
      s.sameBut [.gcores] t) ∧
  (∀ (s : State) (g : Fin 640) (rs1 rs2 : Fin 32) (add : Bool), s.gcRuns g = true →
    Leads (.syncset g rs1 rs2 add) s fun t =>
      t.gc g = (s.gc g).retire ∧ ((s.gc g).getX rs1 / 256 % 256 = 0 →
        t.net.tokens = s.net.tokens ++ [⟨g.val / 8, (s.gc g).getX rs1 % 256, if add then 1 else 0, (s.gc g).getX rs2, s.cycles + 3, 8, []⟩])) ∧
  (∀ (s : State) (g : Fin 640) (rd rs1 rs2 : Fin 32) (ge : Bool), s.gcRuns g = true →
    s.ownStore (s.gcPart g) (g.val / 8) ((s.gc g).getX rs1 % 2 ^ 16) = true →
    Leads (.syncwait g rd rs1 rs2 ge) s fun t =>
      t.gc g = (if syncHolds ge ((s.gc g).getX rs2) (s.flag (g.val / 8) ((s.gc g).getX rs1 % 256)) then
          ((s.gc g).setX rd (s.flag (g.val / 8) ((s.gc g).getX rs1 % 256))).retire
        else { s.gc g with syncwait := some (rd.val, (s.gc g).getX rs1 % 256, (s.gc g).getX rs2, ge) }) ∧ s.sameBut [.gcores] t) ∧
  (∀ (s : State) (g : Fin 640) (rd rs1 rs2 : Fin 32) (ge : Bool), s.gcRuns g = true →
    s.ownStore (s.gcPart g) (g.val / 8) ((s.gc g).getX rs1 % 2 ^ 16) = false →
    Leads (.syncwait g rd rs1 rs2 ge) s fun t => (t.gc g).stopped = true ∧ t.rd (pgGcore g) GC_TRAP_CAUSE = 2) ∧
  (∀ (s : State) (g : Fin 640) (rd i want : Nat) (ge : Bool), (s.gc g).syncwait = some (rd, i, want, ge) →
    syncHolds ge want (s.flag (g.val / 8) i) = true →
    Leads (.syncwaitComplete g) s fun t =>
      t.gc g = { ((s.gc g).setX rd (s.flag (g.val / 8) i)).retire with syncwait := none } ∧ s.sameBut [.gcores] t) ∧
  (∀ (s : State) (g : Fin 640) (rd rs1 : Fin 32) (imm : Fin 2048), s.gcRuns g = true → (s.gc g).ready ≤ s.cycles →
    s.cyclesLeft g ≠ 0 → s.gcProg g ≠ [] → rd ≠ 0 →
    fetchAt (s.gcProg g) (s.gc g).pc = .inl (imm.val * 2 ^ 20 + rs1.val * 2 ^ 15 + rd.val * 2 ^ 7 + 0x13, 4) →
    ((s.runCore g).gc g).getX rd = ((s.gc g).getX rs1 + imm.val) % 2 ^ 64 ∧ ((s.runCore g).gc g).pc = plus (s.gc g).pc 4 ∧
    s.sameBut [.gcores] (s.runCore g)) ∧
  (∀ (s : State) (g : Fin 640) (a : Nat), s.gcRuns g = true → (s.gc g).ready ≤ s.cycles → s.cyclesLeft g ≠ 0 → s.gcProg g ≠ [] →
    fetchAt (s.gcProg g) (s.gc g).pc = .inr a →
    ((s.runCore g).gc g).stopped = true ∧ (s.runCore g).rd (pgGcore g) GC_TRAP_CAUSE = 1) ∧
  (∀ (s : State) (g : Fin 640), (s.gc g).inWindow = false → (s.gc g).fault = none → (s.gc g).awaits = none → s.runCore g = s)

/-- R210: an AMO, an LR and an SC that its reservation permits issue their request where the address lies in an atomic region, and fault where
it does not; R214: so do CRCBLK and DESCLD, anywhere they may. The core waits (R212), and the instruction ends when its answer is there: AMO gives the
old value, LR remembers what it read, SC tells whether the value still stood, CRCBLK gives the CRC, DESCLD the descriptor, checked. R215 to R217:
MXPACK and MXUNPACK, or the illegal-instruction trap of a form not allowed. A misaligned access traps. -/
def Obligations.CoreAccessesAndPacking : Prop :=
  (∀ (s : State) (g : Fin 640) (op : Fin 9) (wide : Bool) (rd rs1 rs2 : Fin 32) (r : Req),
    r = s.gcReq g (0x10 + (amoCode op wide).1) (amoCode op wide).2 ((s.gc g).getX rs1) 0
      (if wide then (s.gc g).getX rs2 else (s.gc g).getX rs2 % 2 ^ 32) 0 →
    s.gcReaches g r → crossesSector ((s.gc g).getX rs1) (if wide then 8 else 4) = false → s.atomicAt ((s.gc g).getX rs1) = true →
    Leads (.amo g op wide rd rs1 rs2) s fun t => s.gcIssued t g 0 rd wide r) ∧
  (∀ (s : State) (g : Fin 640) (op : Fin 9) (wide : Bool) (rd rs1 rs2 : Fin 32) (w : Await) (a : Ans), s.gcAnswered g 0 w a →
    Leads (.amo g op wide rd rs1 rs2) s fun t =>
      t.gc g = ((s.gc g).setX rd (sext wide a.value)).retire ∧ s.sameBut [.hall, .gcores] t) ∧
  (∀ (s : State) (g : Fin 640) (op : Fin 9) (wide : Bool) (rd rs1 rs2 : Fin 32) (r : Req),
    r = s.gcReq g (0x10 + (amoCode op wide).1) (amoCode op wide).2 ((s.gc g).getX rs1) 0
      (if wide then (s.gc g).getX rs2 else (s.gc g).getX rs2 % 2 ^ 32) 0 →
    s.gcRuns g = true → s.originStatus r = 0 → crossesSector ((s.gc g).getX rs1) (if wide then 8 else 4) = false →
    s.atomicAt ((s.gc g).getX rs1) = false →
    Leads (.amo g op wide rd rs1 rs2) s fun t => (t.gc g).fault = some (7, (s.gc g).getX rs1) ∧ t.mem = s.mem) ∧
  (∀ (s : State) (g : Fin 640) (wide : Bool) (rd rs1 : Fin 32) (a n : Nat), a = (s.gc g).getX rs1 → n = (if wide then 8 else 4) →
    s.gcReaches g (s.gcReq g 0x01 0 a n 0 0) → a % n = 0 → s.atomicAt a = true →
    Leads (.lr g wide rd rs1) s fun t => s.gcIssued t g 1 rd wide (s.gcReq g 0x01 0 a n 0 0)) ∧
  (∀ (s : State) (g : Fin 640) (wide : Bool) (rd rs1 : Fin 32) (w : Await) (a : Ans), s.gcAnswered g 1 w a →
    Leads (.lr g wide rd rs1) s fun t =>
      t.gc g = { ((s.gc g).setX rd (sext wide (unle a.data))).retire with reserved := some (w.req.addr, w.req.len, unle a.data) } ∧
      s.sameBut [.hall, .gcores] t) ∧
  (∀ (s : State) (g : Fin 640) (wide : Bool) (rd rs1 rs2 : Fin 32) (a n v : Nat) (r : Req), a = (s.gc g).getX rs1 →
    n = (if wide then 8 else 4) → r = s.gcReq g 0x14 (if wide then 7 else 6) a 0 ((s.gc g).getX rs2 % 2 ^ (8 * n)) v →
    s.gcReaches g r → a % n = 0 → (s.gc g).reserved = some (a, n, v) → s.atomicAt a = true →
    Leads (.sc g wide rd rs1 rs2) s fun t => s.gcIssued t g 2 rd wide r) ∧
  (∀ (s : State) (g : Fin 640) (wide : Bool) (rd rs1 rs2 : Fin 32) (w : Await) (a : Ans), s.gcAnswered g 2 w a →
    Leads (.sc g wide rd rs1 rs2) s fun t =>
      t.gc g = { ((s.gc g).setX rd (if a.value = w.req.compare then 0 else 1)).retire with reserved := none } ∧
      s.sameBut [.hall, .gcores] t) ∧
  (∀ (s : State) (g : Fin 640) (wide : Bool) (rd rs1 rs2 : Fin 32) (a : Nat), a = (s.gc g).getX rs1 → s.gcRuns g = true →
    a % (if wide then 8 else 4) = 0 → s.atomicAt a = true → (s.gc g).reserved = none →
    Leads (.sc g wide rd rs1 rs2) s fun t => t.gc g = { ((s.gc g).setX rd 1).retire with reserved := none } ∧ t.mem = s.mem) ∧
  (∀ (s : State) (g : Fin 640) (rd rs1 : Fin 32) (a : Nat), a = (s.gc g).getX rs1 → s.gcReaches g (s.gcReq g 0x01 0 a 2048 0 0) →
    a % 2048 = 0 →
    Leads (.crcblk g rd rs1) s fun t => s.gcIssued t g 3 rd true (s.gcReq g 0x01 0 a 2048 0 0)) ∧
  (∀ (s : State) (g : Fin 640) (rd rs1 : Fin 32) (w : Await) (a : Ans), s.gcAnswered g 3 w a →
    Leads (.crcblk g rd rs1) s fun t =>
      t.gc g = ((s.gc g).setX rd (crc32c a.data)).retire ∧ s.sameBut [.hall, .gcores] t) ∧
  (∀ (s : State) (g : Fin 640) (vd rs1 : Fin 32) (a : Nat), a = (s.gc g).getX rs1 → s.gcReaches g (s.gcReq g 0x01 0 a 64 0 0) →
    a % 64 = 0 →
    Leads (.descld g vd rs1) s fun t => s.gcIssued t g 4 vd true (s.gcReq g 0x01 0 a 64 0 0)) ∧
  (∀ (s : State) (g : Fin 640) (vd rs1 : Fin 32) (w : Await) (a : Ans) (st : Nat), s.gcAnswered g 4 w a →
    st = coreDesc (s.gcPart g) (Tensor.of a.data) →
    Leads (.descld g vd rs1) s fun t =>
      t.gc g = ((if st = 0 then (s.gc g).setV vd a.data else s.gc g).setStatus st).retire ∧ t.mem = s.mem) ∧
  (∀ (s : State) (g : Fin 640) (wide : Bool) (rd rs1 : Fin 32), s.gcRuns g = true →
    (s.gc g).getX rs1 % (if wide then 8 else 4) ≠ 0 →
    Leads (.lr g wide rd rs1) s fun t => (t.gc g).stopped = true ∧ t.rd (pgGcore g) GC_TRAP_CAUSE = 4) ∧
  (∀ (s : State) (g : Fin 640) (vd vs rs1 : Fin 32) (x : Bytes × Nat), s.gcRuns g = true →
    (s.gc g).mxIllegal vs ((s.gc g).getX rs1 % 32) = false →
    x = mxPack ((s.gc g).getX rs1 % 32) ((List.range 32).map fun i =>
      fFP32.decode (fieldAt ((s.gc g).getV vs ++ (s.gc g).getV (vs.val + 1)) (4 * i) 4)) →
    Leads (.mxpack g vd vs rs1) s fun t => t.gc g = (((s.gc g).setV vd x.1).flag x.2).retire ∧ s.sameBut [.gcores] t) ∧
  (∀ (s : State) (g : Fin 640) (vd vs rs1 : Fin 32), s.gcRuns g = true → (s.gc g).mxIllegal vs ((s.gc g).getX rs1 % 32) = true →
    Leads (.mxpack g vd vs rs1) s fun t => (t.gc g).stopped = true ∧ t.rd (pgGcore g) GC_TRAP_CAUSE = 2) ∧
  (∀ (s : State) (g : Fin 640) (vd vs rs1 : Fin 32), s.gcRuns g = true → (s.gc g).mxIllegal vd ((s.gc g).getX rs1 % 32) = false →
    Leads (.mxunpack g vd vs rs1) s fun t => (t.gc g).pc = (s.gc g).pc + 4 ∧ (t.gc g).retired = (s.gc g).retired + 1 ∧
      s.sameBut [.gcores] t ∧ (∀ i, i ≠ vd.val → i ≠ vd.val + 1 → (t.gc g).getV i = (s.gc g).getV i) ∧
      ∀ i, i < 32 → fieldAt ((t.gc g).getV vd ++ (t.gc g).getV (vd + 1)) (4 * i) 4 =
        (mxElem ((s.gc g).getX rs1 % 32) (fieldAt ((s.gc g).getV vs) 63 1)
          ((slotCodes ((s.gc g).getV vs) 32 (fmtBits ((s.gc g).getX rs1 % 32))).getD i 0)).1 % 2 ^ 32)

/-! ### Cluster memories, slices, CXL ports (06_clusters.md, 09_shared_buffer.md, 12_sprue_and_far_tier.md) -/

/-- R206, R207: a cluster memory's granted write stores its bytes and no others, a read stores none, and the firmware region turns away who may not
enter, counted. R224, R225: patrol reads the descriptor at its cursor, then the block
and its entry; it counts a block that fails, and moves on. R328, R331, R333: a look-up counts its hit or asks for
what it lacks; what comes fills the line; a flush that ends has written its lines back and clears its bit. R355: the head of the check queue is settled: a table that cannot be read, or does not hold, is told and nothing is
written; a block whose CRC holds again is counted transient. -/
def Obligations.CachesAndChecksWork : Prop :=
  (∀ (s : State) (k : Fin 80) (a : MemAccess), a.write = true → s.bankFree k a →
    (fwRegion (a.off + a.data.length - 1) = false ∨ pgType a.who = 0x0070 ∨ accessFirmware a k = true) →
    Leads (.clusterMemoryAccess k a) s fun t =>
      t.getBs (clusterBase k + a.off) a.data.length = a.data ∧
      ∀ b, b < clusterBase k + a.off ∨ clusterBase k + a.off + a.data.length ≤ b → t.getB b = s.getB b) ∧
  (∀ (s : State) (k : Fin 80) (a : MemAccess), a.write = false →
    Leads (.clusterMemoryAccess k a) s fun t => t.mem = s.mem) ∧
  (∀ (s : State) (k : Fin 80) (a : MemAccess) (i : Nat), a.write = false → s.bankFree k a →
    (fwRegion (a.off + a.len - 1) = false ∨ pgType a.who = 0x0070 ∨ accessFirmware a k = true) → a.parity = [i] →
    a.off / 64 + i < 12 * mib / 64 →
    Leads (.clusterMemoryAccess k a) s fun t =>
      t.poisoned ((clusterBase k + a.off) / 64 * 64 + 64 * i) = true ∧
      t.rd (pgCluster k) CL_MEM_PAR_COUNT = min (s.rd (pgCluster k) CL_MEM_PAR_COUNT + 1) (2 ^ CL_MEM_PAR_COUNT.width - 1)) ∧
  (∀ (s : State) (k : Fin 80) (a : MemAccess), 0 < accessSpan a → a.off + accessSpan a ≤ 12 * mib →
    fwRegion (a.off + accessSpan a - 1) = true → pgType a.who ≠ 0x0070 → accessFirmware a k = false →
    (accessProgram a = true → s.gcRuns (pgInst a.who) = true) →
    Leads (.clusterMemoryAccess k a) s fun t => t.mem = s.mem ∧
      t.rd (pgCluster k) CL_FW_DENY_COUNT = min (s.rd (pgCluster k) CL_FW_DENY_COUNT + 1) (2 ^ CL_FW_DENY_COUNT.width - 1) ∧
      (accessProgram a = true →
        (t.gc (pgInst a.who)).fault = some (if a.write then 7 else 5, 0xFFFF * 2 ^ 48 + clusterBase k + a.off))) ∧
  (∀ (s : State) (k : Fin 80) (g : Nat), s.patrolCore k = some g → s.out (pgCluster k) = false →
    s.rd (pgCluster k) CL_PATROL_CNT_COUNT ≠ 0 → (s.gc (8 * k)).patrolIds = [] →
    Leads (.patrolStep k) s fun t =>
      (t.gc (8 * k)).patrolIds = [s.hall.nextId] ∧ (t.gc (8 * k)).patrolAt = (s.patrolEntry k, s.rd (pgCluster k) CL_PATROL_BLK_BLOCK) ∧
      t.mem = s.mem) ∧
  (∀ (s : State) (k : Fin 80) (g i : Nat) (d : Ans), s.patrolCore k = some g → s.out (pgCluster k) = false →
    s.rd (pgCluster k) CL_PATROL_CNT_COUNT ≠ 0 → (s.gc (8 * k)).patrolIds = [i] →
    (s.gc (8 * k)).patrolAt = (s.patrolEntry k, s.rd (pgCluster k) CL_PATROL_BLK_BLOCK) → s.takeDone i = some d → d.status = 0 →
    coreDesc (s.partOfRiser (k / 10)) (Tensor.of d.data) = 0 → (Tensor.of d.data).checked = true →
    s.rd (pgCluster k) CL_PATROL_BLK_BLOCK < (Tensor.of d.data).blocks →
    Leads (.patrolStep k) s fun t =>
      (t.gc (8 * k)).patrolIds = [s.hall.nextId, s.hall.nextId + 1, s.hall.nextId + 2] ∧ t.mem = s.mem) ∧
  (∀ (s : State) (k : Fin 80) (g i j l blk : Nat) (b e d : Ans), s.patrolCore k = some g → s.out (pgCluster k) = false →
    blk = s.rd (pgCluster k) CL_PATROL_BLK_BLOCK →
    s.rd (pgCluster k) CL_PATROL_CNT_COUNT ≠ 0 → (s.gc (8 * k)).patrolIds = [i, j, l] →
    (s.gc (8 * k)).patrolAt = (s.patrolEntry k, blk) → s.takeDone i = some b → s.takeDone j = some e → s.takeDone l = some d →
    b.status ≤ 1 → e.status ≤ 1 → d.status = 0 → coreDesc (s.partOfRiser (k / 10)) (Tensor.of d.data) = 0 →
    (Tensor.of d.data).checked = true → blk + 1 < (Tensor.of d.data).blocks →
    Leads (.patrolStep k) s fun t =>
      t.rd (pgCluster k) CL_PATROL_BLK_BLOCK = (blk + 1) % 2 ^ 32 ∧ (t.gc (8 * k)).patrolIds = [] ∧ t.mem = s.mem ∧
      t.rd (pgCluster k) CL_PATROL_FAIL_COUNT =
        if b.poison = 0 ∧ crc32c b.data = unle e.data then s.rd (pgCluster k) CL_PATROL_FAIL_COUNT
        else min (s.rd (pgCluster k) CL_PATROL_FAIL_COUNT + 1) (2 ^ CL_PATROL_FAIL_COUNT.width - 1)) ∧
  (∀ (s : State) (n : Fin 8) (id a n' : Nat) (r : Req) (f : Via) (e : Nat × Nat × Nat) (l : CLine), s.cached id = some (r, f, a) →
    (linesOf a r.span).filter (fun e => decide (f e.1 = some n.val)) = [e] → s.missOf f r e = 0 → s.lineAt f e.1 = some (n', l) →
    Leads (.cacheAccess n id []) s fun t =>
      t.rd (pgSlice n) SB_HIT_COUNT = min (s.rd (pgSlice n) SB_HIT_COUNT + 1) (2 ^ SB_HIT_COUNT.width - 1) ∧ t.mem = s.mem) ∧
  (∀ (s : State) (n : Fin 8) (id a : Nat) (r : Req) (f : Via) (e : Nat × Nat × Nat), s.cached id = some (r, f, a) →
    (linesOf a r.span).filter (fun e => decide (f e.1 = some n.val)) = [e] → s.missOf f r e ≠ 0 →
    hasAll (aget 0 (s.sl n).fills e.1) (s.missOf f r e) = false →
    Leads (.cacheAccess n id []) s fun t =>
      aget 0 (t.sl n).fills e.1 = aget 0 (s.sl n).fills e.1 ||| s.missOf f r e ∧
      t.rd (pgSlice n) SB_MISS_COUNT = min (s.rd (pgSlice n) SB_MISS_COUNT + 1) (2 ^ SB_MISS_COUNT.width - 1)) ∧
  (∀ (s : State) (n : Fin 8) (line status poison : Nat) (d : Bytes) (tagOk : Bool) (l : CLine),
    aget 0 (s.sl n).fills line % 16 ≠ 0 → bit (aget 0 (s.sl n).fills line) 4 = false → s.fillStatus line status ≤ 1 →
    (s.sl n).find line = some l →
    Leads (.cacheFillReturn n line status d poison tagOk) s fun t =>
      aget 0 (t.sl n).fills line = 0 ∧ t.mem = s.mem ∧
      (t.sl n).find line = some (l.fill (aget 0 (s.sl n).fills line % 16) (s.fillData line d poison).1
        (if s.taggedLine line && !tagOk then 15 else (s.fillData line d poison).2))) ∧
  (∀ (s : State) (n : Fin 8) (line status poison : Nat) (d : Bytes) (tagOk : Bool), aget 0 (s.sl n).fills line % 16 = 0 →
    Leads (.cacheFillReturn n line status d poison tagOk) s fun t => s.sameBut [] t) ∧
  (∀ (s : State) (n : Fin 8), s.on (pgSlice n) SB_CACHE_CTRL_FLUSH = true →
    Leads (.flushComplete ⟨n, []⟩) s fun t => (t.sl n).flush = [] ∧
      t.mem = ((s.sl n).flush.foldl (fun u e => u.flushLine n e) s).mem ∧
      ((s.happened (pgSlice n) SB_CACHE_CTRL_FLUSH).2 = 0 → t.rd (pgSlice n) SB_CACHE_CTRL_FLUSH = 0)) ∧
  (∀ (s : State) (n : Fin 8) (errs : List Nat), s.on (pgSlice n) SB_CACHE_CTRL_FLUSH = false →
    Leads (.flushComplete ⟨n, errs⟩) s fun t => s.sameBut [] t) ∧
  (∀ (s : State) (n : Fin 8) (errs : List Nat) (e : Suspect) (es : List Suspect), s.settles n e es →
    Leads (.rebuildStep ⟨n, errs⟩) s fun t => (t.sl n).suspects = es ∧ t.mem = (s.settle (s.partOfRiser n) n errs e).mem ∧
      t.poison = (s.settle (s.partOfRiser n) n errs e).poison) ∧
  (∀ (s : State) (n : Fin 8) (errs : List Nat) (e : Suspect) (es : List Suspect) (x : Req × Nat), s.settles n e es →
    s.rebuildBad (s.partOfRiser n) n [(e.table, 64), (e.block, 2048)] = some x →
    Leads (.rebuildStep ⟨n, errs⟩) s fun t => (t.sl n).suspects = es ∧ t.mem = s.mem ∧ t.poison = s.poison ∧
      t.rd (pgSlice n) ERR_LAST_CODE = ev_CHK_BAD_TABLE.code) ∧
  (∀ (s : State) (n : Fin 8) (e : Suspect) (es : List Suspect) (h : CheckHdr) (j : Nat), s.settles n e es →
    (∀ a, s.cacheSlice a (some (s.partOfRiser n)) = none) →
    s.rebuildBad (s.partOfRiser n) n [(e.table, 64), (e.block, 2048)] = none → h = s.checkHdr (s.partOfRiser n) e.table → h.ok = true →
    e.block = h.addr + 2048 * j → j < h.blocks → s.rebuildBad (s.partOfRiser n) n [(e.table + 0x40 + 4 * j, 4)] = none →
    crc32c (s.checkBlock (s.partOfRiser n) e.block).1 = s.checkEntry (s.partOfRiser n) e.table j →
    Leads (.rebuildStep ⟨n, []⟩) s fun t => (t.sl n).suspects = es ∧ t.mem = s.mem ∧ t.poison = s.poison ∧
      t.rd (pgSlice n) SB_CHK_LOST_TRANSIENT =
        min (s.rd (pgSlice n) SB_CHK_LOST_TRANSIENT + 1) (2 ^ SB_CHK_LOST_TRANSIENT.width - 1)) ∧
  (∀ (s : State) (n : Fin 8) (errs : List Nat), (s.sl n).suspects = [] →
    Leads (.rebuildStep ⟨n, errs⟩) s fun t => s.sameBut [] t)

/-- R477: a CXL port whose link leaves its active state is down, and no fill of its lines stands; a request behind it that is late completes CXL-ERROR.
R469: a port free to train comes up as enumerated, or stays down. R471: a COMMIT is refused, or waits; it takes effect at an epoch boundary after it, with TAGS
its range reading zero. -/
def Obligations.ExpandersAndDecoders : Prop :=
  (∀ (s : State) (x : Fin 2), s.cxUp x = true →
    Leads (.cxlPortDown x) s fun t => t.rd (pgCxl x) CX_STATUS_STATE = 0 ∧
      (∀ n, n < 8 → ∀ e ∈ (t.sl n).fills, ∀ f, homeOf (e.1 * 256) ≠ .cxl x f) ∧ t.mem = s.mem) ∧
  (∀ (s : State) (x : Fin 2) (id : Nat) (e : Nat × Req), (s.cxReqs x).find? (fun e => decide (e.1 = id)) = some e → e.2.via = none →
    s.rd (pgCxl x) CX_TIMEOUT_US * usTicks ≤ s.real - e.2.issuedAt →
    Leads (.cxlRequestTimeout x id) s fun t => t.req id = some { e.2 with ans := some { status := xCXLERROR } }) ∧
  (∀ (s : State) (x : Fin 2) (id : Nat), (s.cxReqs x).find? (fun e => decide (e.1 = id)) = none →
    Leads (.cxlRequestTimeout x id) s fun t => s.sameBut [] t) ∧
  (∀ (s : State) (x : Fin 2) (o : CxlObs), 10 ≤ s.boot.next → s.pins.refclk = true → s.pins.gated = false → s.cxFree x = true →
    Leads (.cxlPortRetrain x o) s fun t =>
      (o.up = true → (t.rd (pgCxl x) CX_STATUS_STATE = 3 ∨ t.pins.gated = true) ∧ t.rd (pgCxl x) CX_STATUS_X8 = o.x8.toNat ∧
        t.rd (pgCxl x) CX_STATUS_RATE32 = o.rate32.toNat) ∧
      (o.up = false → t.rd (pgCxl x) CX_STATUS_STATE = 0 ∧ ∀ i, i < 4 → t.rd (pgCxl x) CX_TARGET_PRESENT i = 0)) ∧
  (∀ (s : State) (r : Requester) (x : Fin 2) (d : Fin 8), s.takesField r (pgCxl x) CX_DEC_CTRL_COMMIT 1 d →
    Leads (.commit r x d) s fun t =>
      (s.commitBad x d = true → t.rd (pgCxl x) CX_DEC_STAT_REFUSED d = 1 ∧ t.cxl = s.cxl) ∧
      (s.commitBad x d = false → t.rd (pgCxl x) CX_DEC_STAT_REFUSED d = 0 ∧ (t.cx x).dec = (s.cx x).dec ∧
        (t.cx x).asked.head? = some (d.val, s.time.epochs, s.decRegs x d))) ∧
  (∀ (s : State) (x : Fin 2) (d : Fin 8) (n e : Nat) (a : Dec), (s.cx x).asked.find? (fun e => decide (e.1 = d.val)) = some (n, e, a) →
    e < s.time.epochs → s.slot = 0 → s.dueBy (40 + 8 * x.val + d.val) s.epoch = true → a.tags = false ∨ s.cxUp x = true →
    Leads (.decoderCommitEffect x d) s fun t =>
      t.rd (pgCxl x) CX_DEC_CTRL_COMMITTED d = 1 ∧ t.rd (pgCxl x) CX_DEC_STAT_INITIALISING d = 0 ∧
      (t.cx x).dec.find? (fun e => decide (e.1 = d.val)) = some (d.val, a) ∧ (∀ e ∈ (t.cx x).asked, e.1 ≠ d.val) ∧
      (a.tags = true → ∀ b, cxlBase x + a.base * 2 ^ 28 ≤ b → b < cxlBase x + (a.base + a.size) * 2 ^ 28 → t.getB b = 0)) ∧
  (∀ (s : State) (x : Fin 2) (d : Fin 8) (n e : Nat) (a : Dec), (s.cx x).asked.find? (fun e => decide (e.1 = d.val)) = some (n, e, a) →
    s.time.epochs ≤ e ∨ s.slot ≠ 0 ∨ s.dueBy (40 + 8 * x.val + d.val) s.epoch = false →
    Leads (.decoderCommitEffect x d) s fun t => t.cxl = s.cxl ∧ t.mem = s.mem)

/-! ### Register accesses (17_register_pages.md and the pages' own files) -/

/-- R623: SCRATCH reads back what an accepted write gave it; a refused write changes its cause, its count and no memory. R14, R15: a read clears the counters at its
word, but for what happened in its own core cycle. R628: a read latches its companions. R619: EVT_FORCE raises PAGE_TEST. R621: FENCE, RESET_REQ and ENABLE of a page act. -/
def Obligations.RegisterAccessesAct : Prop :=
  (∀ (s : State) (r : Requester) (pg w : Nat), s.takes r pg (SCRATCH_VALUE.at 0) w →
    Leads (.regWrite r (offOf pg (SCRATCH_VALUE.at 0)) w) s fun t => t.rd pg SCRATCH_VALUE = w % 2 ^ 32 ∧ t.mem = s.mem) ∧
  (∀ (s : State) (r : Requester) (pg o w cause : Nat), reachStatus (reqIdent r) (offOf pg o) = 0 → placeOf (offOf pg o) = .page pg o →
    s.closedTo (reqIdent r) pg = false → s.writeCause none pg (w % 2 ^ 32) (cellsAt pg o) = cause → cause ≠ 0 →
    Leads (.regWrite r (offOf pg o) w) s fun t =>
      t.rd pg ERR_INFO_CAUSE = cause ∧ t.rd pg ERR_INFO_SRC = pgType (reqIdent r) % 2 ^ 16 ∧
      t.rd pg ERR_CNT_REFUSED = min (s.rd pg ERR_CNT_REFUSED + 1) (2 ^ ERR_CNT_REFUSED.width - 1) ∧ t.mem = s.mem ∧
      t.hall = s.hall ∧ t.resets = s.resets ∧ t.fences = s.fences) ∧
  (∀ (s : State) (r : Requester) (pg o : Nat) (e : Fld × Nat), reachStatus (reqIdent r) (offOf pg o) = 0 →
    placeOf (offOf pg o) = .page pg o → s.closedTo (reqIdent r) pg = false → e ∈ cellsAt pg o → e.1.acc = .rc →
    e.1 ≠ MC_XG_INFO_PARITY → e.1.off < 0x040 ∨ s.service pg < 2 →
    Leads (.regReadClear r (offOf pg o)) s fun t => t.rd pg e.1 e.2 = (aget (0, 0) s.hot (fkey pg e.1 e.2)).2 % 2 ^ e.1.width ∧
      ∀ (pg' : Nat) (F : Fld) (i : Nat), fkey pg' F i ∉ (cellsAt pg o).map (fun c => fkey pg c.1 c.2) → t.rd pg' F i = s.rd pg' F i) ∧
  (∀ (s : State) (r : Requester) (pg o c : Nat), reachStatus (reqIdent r) (offOf pg o) = 0 → placeOf (offOf pg o) = .page pg o →
    s.closedTo (reqIdent r) pg = false → c ∈ companions pg o →
    Leads (.latchingRead r (offOf pg o)) s fun t => t.latch (reqIdent r) pg c = some (s.regWord pg c) ∧ t.mem = s.mem) ∧
  (∀ (s : State) (r : Requester) (pg : Nat), s.takes r pg 0x01C 1 → pg ≠ pgBu →
    Leads (.evtForce r pg) s fun t => t.rd pg ERR_LAST_CODE = ev_PAGE_TEST.code ∧ t.rd pg ERR_LAST_VALID = 1) ∧
  (∀ (s : State) (r : Requester) (pg : Nat), s.takesField r pg PAGE_CTRL_FENCE 1 → fenceable pg = true →
    s.on pg PAGE_CTRL_FENCE = false →
    Leads (.fence r pg) s fun t => t.fences = s.fences ++ [pg] ∧ t.on pg PAGE_CTRL_FENCE = true) ∧
  (∀ (s : State) (r : Requester) (pg : Nat), s.takesField r pg PAGE_CTRL_RESET_REQ 1 → resettable pg = true →
    s.on pg PAGE_CTRL_RESET_REQ = false →
    Leads (.resetReq r pg) s fun t => t.resets = s.resets ++ [{ resetOfPage pg with at_ := s.time.slots + 1 }]) ∧
  (∀ (s : State) (r : Requester) (pg : Nat), s.takesField r pg PAGE_CTRL_ENABLE 0 →
    Leads (.enable r pg) s fun t => t.on pg PAGE_CTRL_ENABLE = false ∧ t.mem = s.mem)

/-- What the writes of the configuration rows do where they are taken: R28, R30 and R552, whose effect waits for the boundary; R226, R276, R311, R318, R322,
R333, R369, R595; R629, whose halves join; R420, R425 and R401 of the hall fabric; R466. -/
def Obligations.ConfigurationWritesAct : Prop :=
  (∀ (s : State) (r : Requester) (n : Fin 4), s.takes r pgBu 0x100 n →
    Leads (.ptConfig r n) s fun t => t.rd pgBu PT_CONFIG_COUNT = n ∧ t.rd pgBu PT_CONFIG_ACTIVE = s.rd pgBu PT_CONFIG_ACTIVE ∧
      t.rd pgBu PT_CONFIG_PENDING = if n.val = s.rd pgBu PT_CONFIG_ACTIVE then 0 else 1) ∧
  (∀ (s : State) (r : Requester) (p : Fin 8) (seed : Nat), s.takes r pgBu (PT_SEED_SEED.at p) (seed % 65536) →
    Leads (.ptSeed r p seed) s fun t => t.rd pgBu PT_SEED_SEED p = seed % 65536) ∧
  (∀ (s : State) (r : Requester) (q : Fin 24) (p : Fin 8) (v : Bool), s.takes r pgBu (PT_RN_ASSIGN_PART.at q) (p + 8 * v.toNat) →
    Leads (.ptRnAssign r q p v) s fun t =>
      t.rd pgBu PT_RN_ASSIGN_PART q = p ∧ t.rd pgBu PT_RN_ASSIGN_VALID q = v.toNat ∧ t.rnOwner q = s.rnOwner q) ∧
  (∀ (s : State) (r : Requester) (x : Fin 2) (p : Fin 8) (v : Bool), s.takes r pgBu (PT_CX_ASSIGN_PART.at x) (p + 8 * v.toNat) →
    Leads (.ptCxAssign r x p v) s fun t =>
      t.rd pgBu PT_CX_ASSIGN_PART x = p ∧ t.rd pgBu PT_CX_ASSIGN_VALID x = v.toNat ∧ t.cxOwner x = s.cxOwner x) ∧
  (∀ (s : State) (r : Requester) (k : Fin 80) (g : Fin 3) (w : Nat), s.takes r (pgCluster k) (0x064 + 4 * g) w →
    Leads (.patrolListWrite r k g w) s fun t =>
      t.rd (pgCluster k) CL_PATROL_DESC_DESC = 0 ∧ t.rd (pgCluster k) CL_PATROL_BLK_BLOCK = 0) ∧
  (∀ (s : State) (r : Requester) (k : Fin 88) (c : Fin 6) (w : Nat),
    s.takes r (pgControl k) (NW_REG_TGT_TARGET.at c) (w % 65536) →
    Leads (.nwRegTgt r k c w) s fun t => t.rd (pgControl k) NW_REG_TGT_TARGET c = w % 65536) ∧
  (∀ (s : State) (r : Requester) (k : Fin 88) (i : Fin 256) (w : Nat), s.takes r (pgSync k) (NW_SFLAG_HI_VALUE.at i) w →
    Leads (.nwSflagHi r k i w) s fun t =>
      t.flag k i = ((s.latch (reqIdent r) (pgSync k) (0x800 + 8 * i)).getD (s.flag k i % 2 ^ 32) + w % 2 ^ 32 * 2 ^ 32) % 2 ^ 64 ∧
      t.latch (reqIdent r) (pgSync k) (0x800 + 8 * i) = none) ∧
  (∀ (s : State) (r : Requester) (c : Fin 256), s.takesField r (pgChannel c) MC_TRAIN_CTRL_REQUEST 1 →
    Leads (.mcTrainRequest r c) s fun t =>
      t.rd (pgChannel c) MC_STATUS_RETRAIN_DUE = 1 ∧ t.on (pgChannel c) MC_TRAIN_CTRL_REQUEST = true) ∧
  (∀ (s : State) (r : Requester) (n : Fin 8) (m : Nat), s.takes r (pgColumns n) 0x050 m →
    Leads (.mcXgRetrain r n m) s fun t =>
      t.rd (pgColumns n) MC_XG_RETRAIN_DUE = (s.rd (pgColumns n) MC_XG_RETRAIN_DUE ||| m % 2 ^ 32) % 2 ^ 32) ∧
  (∀ (s : State) (r : Requester) (q : Fin 24), s.takesField r (pgRunner q) RN_PCTRL_RETRAIN 1 → s.pst q = 6 →
    Leads (.rnPctrlRetrain r q) s fun t => (t.port q).asking = true ∧ (s.portFree q = true → (t.port q).linkReq = 2)) ∧
  (∀ (s : State) (r : Requester) (n : Fin 8), s.takesField r (pgSlice n) SB_CACHE_CTRL_FLUSH 1 →
    s.on (pgSlice n) SB_CACHE_CTRL_FLUSH = false →
    Leads (.flush r n) s fun t => t.on (pgSlice n) SB_CACHE_CTRL_FLUSH = true ∧ t.mem = s.mem ∧
      (t.sl n).flush = (s.sl n).lines.filterMap (fun l => if l.dirty = 0 then none else some (l.line, l.dirty))) ∧
  (∀ (s : State) (r : Requester) (n : Fin 8) (w : Nat), s.takes r (pgSlice n) 0x044 w →
    Leads (.sbRegions r n w) s fun t => (t.sl n).active = (s.sl n).active ∧
      (t.sl n).newRegions = if t.word (pgSlice n) sbRegionsFields 0 = (s.sl n).active then none
        else some (t.word (pgSlice n) sbRegionsFields 0)) ∧
  (∀ (s : State) (r : Requester), s.takesField r pgHk HK_REPLAN_CTRL_REQUEST 1 →
    Leads (.hkReplanRequest r) s fun t => t.on pgHk HK_REPLAN_CTRL_REQUEST = true) ∧
  (∀ (s : State) (r : Requester) (w : Nat), s.takes r pgEv 0x048 w →
    Leads (.evRingHi r w) s fun t => t.events.lostBefore = true ∧ t.rd pgEv EV_STAT_RING_FAULT = 0) ∧
  (∀ (s : State) (r : Requester) (tag : Nat), s.takes r pgHall 0x050 (tag % 2 ^ 30) →
    Leads (.nwHmembStageHi r tag) s fun t => t.rd pgHall NW_HMEMB_STAT_LAST_REFUSED = 0 ∧
      t.hall.staged = s.hall.staged ++ [(s.rd pgHall NW_HMEMB_STAGE_LO_PKG,
        s.rd pgHall NW_HMEMB_STAGE_LO_STATE + 4 * (tag % 2 ^ 30), s.epoch + s.tagAhead (tag % 2 ^ 30))]) ∧
  (∀ (s : State) (r : Requester) (m p : Nat), s.takes r pgHall 0x05C (m % 256) → p < 8 → bit m p = true →
    (∀ e ∈ s.hall.swaps, e.1 ≠ p) →
    Leads (.nwHrtSwap r m) s fun t => t.rd pgHall NW_HRT_SWAP_LAST_REFUSED = 0 ∧ t.hall.routes = s.hall.routes ∧
      t.hall.swaps.find? (fun e => decide (e.1 = p)) = some (p, s.swapEpoch)) ∧
  (∀ (s : State) (r : Requester) (m p : Nat), s.takes r pgHall 0x060 (m % 256) → p < 8 → bit m p = true →
    (∀ e ∈ s.hall.copies, e.1 ≠ p) →
    Leads (.nwHrtCopy r m) s fun t => t.hall.routes = s.hall.routes ∧ t.hall.shadow = s.hall.shadow ∧
      t.hall.copies.find? (fun e => decide (e.1 = p)) = some (p, s.time.slots + 1)) ∧
  (∀ (s : State) (p : Fin 8), (s.hall.copies.any fun e => decide (e.1 = p.val)) = true →
    Leads (.routeCopyDone p) s fun t =>
      t.hall.shadow = setTable p s.hall.shadow (tableOf p s.hall.routes) ∧ (∀ e ∈ t.hall.copies, e.1 ≠ p.val) ∧ s.sameBut [.hall] t) ∧
  (∀ (s : State) (r : Requester) (w : Nat), s.takes r pgHall 0x040 (w % 65536) →
    Leads (.nwHpkg r w) s fun t => t.hall.newPkg = some (w % 65536) ∧ t.pkg = s.pkg)
end

