-- ==== Sys2Proof/Laws/Maps.lean ====
section
/-!
SUPPORT. Laws/Maps.lean: the laws of the sparse maps of Machine/AMap.lean: what a key holds after a store, and that
stores keep the canonical form.
-/

namespace Sys2Proof.Machine

variable {α : Type}

@[simp] theorem aget_nil (d : α) (k : Nat) : aget d [] k = d := rfl

theorem aget_adel_same (d : α) (m : List (Nat × α)) (k : Nat) : aget d (adel k m) k = d := by
  induction m with
  | nil => rfl
  | cons e m ih =>
    simp only [adel]
    split
    · exact ih
    · simp_all [aget]

theorem aget_adel_other (d : α) (m : List (Nat × α)) {k j : Nat} (h : j ≠ k) : aget d (adel k m) j = aget d m j := by
  induction m with
  | nil => rfl
  | cons e m ih =>
    simp only [adel, aget]
    split
    · subst k; rw [ih, if_neg h]
    · simp only [aget, ih]

@[simp] theorem aget_ains_same (d : α) (m : List (Nat × α)) (k : Nat) (v : α) : aget d (ains k v m) k = v := by
  induction m with
  | nil => simp [ains, aget]
  | cons e m ih =>
    simp only [ains]
    split
    · simp [aget]
    · split
      · simp [aget]
      · simp_all [aget]

theorem aget_ains_other (d : α) (m : List (Nat × α)) (v : α) {k j : Nat} (h : j ≠ k) :
    aget d (ains k v m) j = aget d m j := by
  induction m with
  | nil => simp [ains, aget, h]
  | cons e m ih =>
    simp only [ains]
    split
    · simp [aget, h]
    · split
      · subst k; simp [aget, h]
      · simp only [aget, ih]

variable [DecidableEq α]

/-- A key holds what was stored there. -/
@[simp] theorem aget_aset_same (d : α) (m : List (Nat × α)) (k : Nat) (v : α) : aget d (aset d m k v) k = v := by
  simp only [aset]
  split
  · rw [aget_adel_same]; simp_all
  · exact aget_ains_same ..

/-- A store leaves every other key alone. -/
theorem aget_aset_other (d : α) (m : List (Nat × α)) (v : α) {k j : Nat} (h : j ≠ k) :
    aget d (aset d m k v) j = aget d m j := by
  simp only [aset]
  split
  · exact aget_adel_other d m h
  · exact aget_ains_other d m v h

theorem aget_aset (d : α) (m : List (Nat × α)) (k j : Nat) (v : α) :
    aget d (aset d m k v) j = if j = k then v else aget d m j := by
  split
  · subst j; exact aget_aset_same ..
  · exact aget_aset_other d m v ‹_›

/-- The default of a store need not be the default of the read, away from the key. -/
theorem aget_aset_other' (d d' : α) (m : List (Nat × α)) (v : α) {k j : Nat} (h : j ≠ k) :
    aget d (aset d' m k v) j = aget d m j := by
  simp only [aset]
  split
  · exact aget_adel_other d m h
  · exact aget_ains_other d m v h

@[simp] theorem aget_aupd_same (d : α) (m : List (Nat × α)) (k : Nat) (f : α → α) :
    aget d (aupd d m k f) k = f (aget d m k) := aget_aset_same ..

theorem aget_aupd_other (d : α) (m : List (Nat × α)) (f : α → α) {k j : Nat} (h : j ≠ k) :
    aget d (aupd d m k f) j = aget d m j := aget_aset_other d m _ h

/-! ### The canonical form -/

/-- Every key of the map is above `k`. -/
def above (k : Nat) (m : List (Nat × α)) : Prop := ∀ e ∈ m, k < e.1

omit [DecidableEq α] in
theorem asorted_cons (k : Nat) (v : α) (m : List (Nat × α)) : asorted ((k, v) :: m) = true ↔ above k m ∧ asorted m = true := by
  induction m generalizing k v with
  | nil => simp [asorted, above]
  | cons e m ih =>
    have he := ih e.1 e.2
    constructor
    · intro h
      simp only [asorted, Bool.and_eq_true, decide_eq_true_eq] at h
      refine ⟨?_, h.2⟩
      have h2 := he.mp h.2
      intro x hx
      rcases List.mem_cons.mp hx with rfl | hx
      · exact h.1
      · exact lt_trans h.1 (h2.1 x hx)
    · rintro ⟨h1, h2⟩
      simp only [asorted, Bool.and_eq_true, decide_eq_true_eq]
      exact ⟨h1 e (by simp), h2⟩

omit [DecidableEq α] in
theorem mem_adel {k : Nat} {m : List (Nat × α)} {e : Nat × α} (h : e ∈ adel k m) : e ∈ m ∧ e.1 ≠ k := by
  induction m with
  | nil => simp [adel] at h
  | cons x m ih =>
    simp only [adel] at h
    split at h
    · exact ⟨List.mem_cons_of_mem _ (ih h).1, (ih h).2⟩
    · rcases List.mem_cons.mp h with rfl | h
      · exact ⟨by simp, fun hk => ‹¬_› hk.symm⟩
      · exact ⟨List.mem_cons_of_mem _ (ih h).1, (ih h).2⟩

omit [DecidableEq α] in
theorem mem_ains {k : Nat} {v : α} {m : List (Nat × α)} {e : Nat × α} (h : e ∈ ains k v m) : e = (k, v) ∨ e ∈ m := by
  induction m with
  | nil => simpa [ains] using h
  | cons x m ih =>
    simp only [ains] at h
    split at h
    · simpa using h
    · split at h
      · rcases List.mem_cons.mp h with h | h
        · exact .inl h
        · exact .inr (List.mem_cons_of_mem _ h)
      · rcases List.mem_cons.mp h with h | h
        · exact .inr (h ▸ List.mem_cons_self ..)
        · exact (ih h).imp id (List.mem_cons_of_mem _)

omit [DecidableEq α] in
theorem asorted_adel (k : Nat) (m : List (Nat × α)) (h : asorted m = true) : asorted (adel k m) = true := by
  induction m with
  | nil => rfl
  | cons e m ih =>
    have hm := (asorted_cons e.1 e.2 m).mp h
    simp only [adel]
    split
    · exact ih hm.2
    · exact (asorted_cons _ _ _).mpr ⟨fun x hx => hm.1 x (mem_adel hx).1, ih hm.2⟩

omit [DecidableEq α] in
theorem asorted_ains (k : Nat) (v : α) (m : List (Nat × α)) (h : asorted m = true) : asorted (ains k v m) = true := by
  induction m with
  | nil => rfl
  | cons e m ih =>
    have hm := (asorted_cons e.1 e.2 m).mp h
    simp only [ains]
    split
    · refine (asorted_cons _ _ _).mpr ⟨fun x hx => ?_, h⟩
      rcases List.mem_cons.mp hx with rfl | hx
      · assumption
      · exact lt_trans ‹_› (hm.1 x hx)
    · split
      · subst k; exact (asorted_cons _ _ _).mpr hm
      · refine (asorted_cons _ _ _).mpr ⟨fun x hx => ?_, ih hm.2⟩
        rcases mem_ains hx with rfl | hx
        · have h1 := ‹¬k < e.1›; have h2 := ‹¬k = e.1›; simp only; omega
        · exact hm.1 x hx

omit [DecidableEq α] in
theorem asorted_filter (p : Nat × α → Bool) (m : List (Nat × α)) (h : asorted m = true) : asorted (m.filter p) = true := by
  induction m with
  | nil => rfl
  | cons e m ih =>
    have hm := (asorted_cons e.1 e.2 m).mp h
    rw [List.filter_cons]
    split
    · exact (asorted_cons _ _ _).mpr ⟨fun x hx => hm.1 x (List.mem_filter.mp hx).1, ih hm.2⟩
    · exact ih hm.2

/-- A store keeps the keys rising and lists no default. -/
theorem acanon_aset (d : α) (m : List (Nat × α)) (k : Nat) (v : α) (h : acanon (fun _ => d) m = true) :
    acanon (fun _ => d) (aset d m k v) = true := by
  simp only [acanon, Bool.and_eq_true, List.all_eq_true, decide_eq_true_eq] at h ⊢
  simp only [aset]
  split
  · exact ⟨asorted_adel k m h.1, fun e he => h.2 e (mem_adel he).1⟩
  · refine ⟨asorted_ains k v m h.1, fun e he => ?_⟩
    rcases mem_ains he with rfl | he
    · assumption
    · exact h.2 e he

end Sys2Proof.Machine
end

