-- ==== Sys2Proof/Laws/State.lean ====
section
/-!
SUPPORT. Laws/State.lean: what each named update of State holds afterwards: its own field, and every other field
unchanged. All are true by rfl, and tagged for simp, so that no proof unfolds a record update.
-/

namespace Sys2Proof.Machine

open Sys2Proof

/-! ### A command's end -/

@[simp] theorem only_free (l : List Comp) (s t : State) :
    (s.only l t).free = if l.contains .free then t.free else s.free := rfl

@[simp] theorem only_regs (l : List Comp) (s t : State) :
    (s.only l t).regs = if l.contains .regs then t.regs else s.regs := rfl

@[simp] theorem only_hot (l : List Comp) (s t : State) :
    (s.only l t).hot = if l.contains .regs then t.hot else s.hot := rfl

@[simp] theorem only_latches (l : List Comp) (s t : State) :
    (s.only l t).latches = if l.contains .latches then t.latches else s.latches := rfl

@[simp] theorem only_mem (l : List Comp) (s t : State) :
    (s.only l t).mem = if l.contains .mem then t.mem else s.mem := rfl

@[simp] theorem only_undef (l : List Comp) (s t : State) :
    (s.only l t).undef = if l.contains .undef then t.undef else s.undef := rfl

@[simp] theorem only_poison (l : List Comp) (s t : State) :
    (s.only l t).poison = if l.contains .poison then t.poison else s.poison := rfl

@[simp] theorem only_flags (l : List Comp) (s t : State) :
    (s.only l t).flags = if l.contains .flags then t.flags else s.flags := rfl

@[simp] theorem only_fences (l : List Comp) (s t : State) :
    (s.only l t).fences = if l.contains .fences then t.fences else s.fences := rfl

@[simp] theorem only_fuse (l : List Comp) (s t : State) :
    (s.only l t).fuse = if l.contains .fuse then t.fuse else s.fuse := rfl

@[simp] theorem only_ledger (l : List Comp) (s t : State) :
    (s.only l t).ledger = if l.contains .ledger then t.ledger else s.ledger := rfl

@[simp] theorem only_pins (l : List Comp) (s t : State) :
    (s.only l t).pins = if l.contains .pins then t.pins else s.pins := rfl

@[simp] theorem only_boot (l : List Comp) (s t : State) :
    (s.only l t).boot = if l.contains .boot then t.boot else s.boot := rfl

@[simp] theorem only_resets (l : List Comp) (s t : State) :
    (s.only l t).resets = if l.contains .resets then t.resets else s.resets := rfl

@[simp] theorem only_time (l : List Comp) (s t : State) :
    (s.only l t).time = if l.contains .time then t.time else s.time := rfl

@[simp] theorem only_parts (l : List Comp) (s t : State) :
    (s.only l t).parts = if l.contains .parts then t.parts else s.parts := rfl

@[simp] theorem only_sprue (l : List Comp) (s t : State) :
    (s.only l t).sprue = if l.contains .sprue then t.sprue else s.sprue := rfl

@[simp] theorem only_events (l : List Comp) (s t : State) :
    (s.only l t).events = if l.contains .events then t.events else s.events := rfl

@[simp] theorem only_health (l : List Comp) (s t : State) :
    (s.only l t).health = if l.contains .health then t.health else s.health := rfl

@[simp] theorem only_descs (l : List Comp) (s t : State) :
    (s.only l t).descs = if l.contains .descs then t.descs else s.descs := rfl

@[simp] theorem only_ctrs (l : List Comp) (s t : State) :
    (s.only l t).ctrs = if l.contains .ctrs then t.ctrs else s.ctrs := rfl

@[simp] theorem only_hall (l : List Comp) (s t : State) :
    (s.only l t).hall = if l.contains .hall then t.hall else s.hall := rfl

@[simp] theorem only_runner (l : List Comp) (s t : State) :
    (s.only l t).runner = if l.contains .runner then t.runner else s.runner := rfl

@[simp] theorem only_net (l : List Comp) (s t : State) :
    (s.only l t).net = if l.contains .net then t.net else s.net := rfl

@[simp] theorem only_slices (l : List Comp) (s t : State) :
    (s.only l t).slices = if l.contains .slices then t.slices else s.slices := rfl

@[simp] theorem only_banks (l : List Comp) (s t : State) :
    (s.only l t).banks = if l.contains .banks then t.banks else s.banks := rfl

@[simp] theorem only_chans (l : List Comp) (s t : State) :
    (s.only l t).chans = if l.contains .chans then t.chans else s.chans := rfl

@[simp] theorem only_wires (l : List Comp) (s t : State) :
    (s.only l t).wires = if l.contains .wires then t.wires else s.wires := rfl

@[simp] theorem only_cxl (l : List Comp) (s t : State) :
    (s.only l t).cxl = if l.contains .cxl then t.cxl else s.cxl := rfl

@[simp] theorem only_movers (l : List Comp) (s t : State) :
    (s.only l t).movers = if l.contains .movers then t.movers else s.movers := rfl

@[simp] theorem only_mxs (l : List Comp) (s t : State) :
    (s.only l t).mxs = if l.contains .mxs then t.mxs else s.mxs := rfl

@[simp] theorem only_gcores (l : List Comp) (s t : State) :
    (s.only l t).gcores = if l.contains .gcores then t.gcores else s.gcores := rfl

@[simp] theorem only_mordant (l : List Comp) (s t : State) :
    (s.only l t).mordant = if l.contains .mordant then t.mordant else s.mordant := rfl

@[simp] theorem only_update (l : List Comp) (s t : State) :
    (s.only l t).update = if l.contains .update then t.update else s.update := rfl

/-- The queue, real time and the certificates given stay as they stood whatever a command does. -/
@[simp] theorem only_fixed (l : List Comp) (s t : State) :
    (s.only l t).pending = s.pending ∧ (s.only l t).real = s.real ∧ (s.only l t).pki = s.pki ∧
      (s.only l t).certs = s.certs := ⟨rfl, rfl, rfl, rfl⟩

/-! ### The named updates -/

@[simp] theorem wr_regs (s : State) (pg : Nat) (F : Fld) (v i : Nat) : (s.wr pg F v i).regs =
    aset (F.resetAt i) s.regs (fkey pg F i) (v % 2 ^ F.width) := rfl

@[simp] theorem wr_other (s : State) (pg : Nat) (F : Fld) (v i : Nat) :
    (s.wr pg F v i).pending = s.pending ∧ (s.wr pg F v i).free = s.free ∧ (s.wr pg F v i).real = s.real ∧
    (s.wr pg F v i).latches = s.latches ∧ (s.wr pg F v i).mem = s.mem ∧ (s.wr pg F v i).undef = s.undef ∧
    (s.wr pg F v i).poison = s.poison ∧ (s.wr pg F v i).flags = s.flags ∧ (s.wr pg F v i).fences = s.fences ∧
    (s.wr pg F v i).fuse = s.fuse ∧ (s.wr pg F v i).ledger = s.ledger ∧ (s.wr pg F v i).pins = s.pins ∧
    (s.wr pg F v i).boot = s.boot ∧ (s.wr pg F v i).resets = s.resets ∧ (s.wr pg F v i).time = s.time ∧
    (s.wr pg F v i).parts = s.parts ∧ (s.wr pg F v i).sprue = s.sprue ∧ (s.wr pg F v i).events = s.events ∧
    (s.wr pg F v i).health = s.health ∧ (s.wr pg F v i).descs = s.descs ∧ (s.wr pg F v i).ctrs = s.ctrs ∧
    (s.wr pg F v i).hall = s.hall ∧ (s.wr pg F v i).runner = s.runner ∧ (s.wr pg F v i).net = s.net ∧
    (s.wr pg F v i).slices = s.slices ∧ (s.wr pg F v i).chans = s.chans ∧ (s.wr pg F v i).wires = s.wires ∧
    (s.wr pg F v i).cxl = s.cxl ∧ (s.wr pg F v i).movers = s.movers ∧ (s.wr pg F v i).mxs = s.mxs ∧
    (s.wr pg F v i).gcores = s.gcores ∧ (s.wr pg F v i).mordant = s.mordant ∧ (s.wr pg F v i).update = s.update ∧
    (s.wr pg F v i).pki = s.pki ∧ (s.wr pg F v i).certs = s.certs ∧
    (s.wr pg F v i).hot = s.hot ∧ (s.wr pg F v i).banks = s.banks := by
  refine ⟨?_, ?_, ?_, ?_, ?_, ?_, ?_, ?_, ?_, ?_, ?_, ?_, ?_, ?_, ?_, ?_, ?_, ?_, ?_, ?_, ?_, ?_, ?_, ?_, ?_, ?_, ?_, ?_, ?_, ?_, ?_, ?_, ?_, ?_, ?_, ?_, ?_⟩ <;> rfl

/-- A note of what a field did in this core cycle (R13, R15) changes nothing that reads see. -/
@[simp] theorem note_other (s : State) (pg : Nat) (F : Fld) (v i : Nat) :
    (s.note pg F v i).pending = s.pending ∧ (s.note pg F v i).free = s.free ∧ (s.note pg F v i).real = s.real ∧
    (s.note pg F v i).regs = s.regs ∧ (s.note pg F v i).latches = s.latches ∧ (s.note pg F v i).mem = s.mem ∧
    (s.note pg F v i).undef = s.undef ∧ (s.note pg F v i).poison = s.poison ∧ (s.note pg F v i).flags = s.flags ∧
    (s.note pg F v i).fences = s.fences ∧ (s.note pg F v i).fuse = s.fuse ∧ (s.note pg F v i).ledger = s.ledger ∧
    (s.note pg F v i).pins = s.pins ∧ (s.note pg F v i).boot = s.boot ∧ (s.note pg F v i).resets = s.resets ∧
    (s.note pg F v i).time = s.time ∧ (s.note pg F v i).parts = s.parts ∧ (s.note pg F v i).sprue = s.sprue ∧
    (s.note pg F v i).events = s.events ∧ (s.note pg F v i).health = s.health ∧ (s.note pg F v i).descs = s.descs ∧
    (s.note pg F v i).ctrs = s.ctrs ∧ (s.note pg F v i).hall = s.hall ∧ (s.note pg F v i).runner = s.runner ∧
    (s.note pg F v i).net = s.net ∧ (s.note pg F v i).slices = s.slices ∧ (s.note pg F v i).banks = s.banks ∧
    (s.note pg F v i).chans = s.chans ∧ (s.note pg F v i).wires = s.wires ∧ (s.note pg F v i).cxl = s.cxl ∧
    (s.note pg F v i).movers = s.movers ∧ (s.note pg F v i).mxs = s.mxs ∧ (s.note pg F v i).gcores = s.gcores ∧
    (s.note pg F v i).mordant = s.mordant ∧ (s.note pg F v i).update = s.update ∧ (s.note pg F v i).pki = s.pki ∧
    (s.note pg F v i).certs = s.certs := by
  refine ⟨?_, ?_, ?_, ?_, ?_, ?_, ?_, ?_, ?_, ?_, ?_, ?_, ?_, ?_, ?_, ?_, ?_, ?_, ?_, ?_, ?_, ?_, ?_, ?_, ?_, ?_, ?_, ?_, ?_, ?_, ?_, ?_, ?_, ?_, ?_, ?_, ?_⟩ <;> rfl

@[simp] theorem modBanks_banks (s : State) (f : Banks → Banks) : (s.modBanks f).banks = f s.banks := rfl

@[simp] theorem modBanks_other (s : State) (f : Banks → Banks) :
    (s.modBanks f).pending = s.pending ∧ (s.modBanks f).free = s.free ∧ (s.modBanks f).real = s.real ∧
    (s.modBanks f).regs = s.regs ∧ (s.modBanks f).hot = s.hot ∧ (s.modBanks f).latches = s.latches ∧
    (s.modBanks f).mem = s.mem ∧ (s.modBanks f).undef = s.undef ∧ (s.modBanks f).poison = s.poison ∧
    (s.modBanks f).flags = s.flags ∧ (s.modBanks f).fences = s.fences ∧ (s.modBanks f).fuse = s.fuse ∧
    (s.modBanks f).ledger = s.ledger ∧ (s.modBanks f).pins = s.pins ∧ (s.modBanks f).boot = s.boot ∧
    (s.modBanks f).resets = s.resets ∧ (s.modBanks f).time = s.time ∧ (s.modBanks f).parts = s.parts ∧
    (s.modBanks f).sprue = s.sprue ∧ (s.modBanks f).events = s.events ∧ (s.modBanks f).health = s.health ∧
    (s.modBanks f).descs = s.descs ∧ (s.modBanks f).ctrs = s.ctrs ∧ (s.modBanks f).hall = s.hall ∧
    (s.modBanks f).runner = s.runner ∧ (s.modBanks f).net = s.net ∧ (s.modBanks f).slices = s.slices ∧
    (s.modBanks f).chans = s.chans ∧ (s.modBanks f).wires = s.wires ∧ (s.modBanks f).cxl = s.cxl ∧
    (s.modBanks f).movers = s.movers ∧ (s.modBanks f).mxs = s.mxs ∧ (s.modBanks f).gcores = s.gcores ∧
    (s.modBanks f).mordant = s.mordant ∧ (s.modBanks f).update = s.update ∧ (s.modBanks f).pki = s.pki ∧
    (s.modBanks f).certs = s.certs := by
  refine ⟨?_, ?_, ?_, ?_, ?_, ?_, ?_, ?_, ?_, ?_, ?_, ?_, ?_, ?_, ?_, ?_, ?_, ?_, ?_, ?_, ?_, ?_, ?_, ?_, ?_, ?_, ?_, ?_, ?_, ?_, ?_, ?_, ?_, ?_, ?_, ?_, ?_⟩ <;> rfl

@[simp] theorem modPart_parts (s : State) (p : Nat) (f : Part → Part) : (s.modPart p f).parts =
    aupd {} s.parts p f := rfl

@[simp] theorem modPart_other (s : State) (p : Nat) (f : Part → Part) :
    (s.modPart p f).pending = s.pending ∧ (s.modPart p f).free = s.free ∧ (s.modPart p f).real = s.real ∧
    (s.modPart p f).regs = s.regs ∧ (s.modPart p f).latches = s.latches ∧ (s.modPart p f).mem = s.mem ∧
    (s.modPart p f).undef = s.undef ∧ (s.modPart p f).poison = s.poison ∧ (s.modPart p f).flags = s.flags ∧
    (s.modPart p f).fences = s.fences ∧ (s.modPart p f).fuse = s.fuse ∧ (s.modPart p f).ledger = s.ledger ∧
    (s.modPart p f).pins = s.pins ∧ (s.modPart p f).boot = s.boot ∧ (s.modPart p f).resets = s.resets ∧
    (s.modPart p f).time = s.time ∧ (s.modPart p f).sprue = s.sprue ∧ (s.modPart p f).events = s.events ∧
    (s.modPart p f).health = s.health ∧ (s.modPart p f).descs = s.descs ∧ (s.modPart p f).ctrs = s.ctrs ∧
    (s.modPart p f).hall = s.hall ∧ (s.modPart p f).runner = s.runner ∧ (s.modPart p f).net = s.net ∧
    (s.modPart p f).slices = s.slices ∧ (s.modPart p f).chans = s.chans ∧ (s.modPart p f).wires = s.wires ∧
    (s.modPart p f).cxl = s.cxl ∧ (s.modPart p f).movers = s.movers ∧ (s.modPart p f).mxs = s.mxs ∧
    (s.modPart p f).gcores = s.gcores ∧ (s.modPart p f).mordant = s.mordant ∧ (s.modPart p f).update = s.update ∧
    (s.modPart p f).pki = s.pki ∧ (s.modPart p f).certs = s.certs ∧
    (s.modPart p f).hot = s.hot ∧ (s.modPart p f).banks = s.banks := by
  refine ⟨?_, ?_, ?_, ?_, ?_, ?_, ?_, ?_, ?_, ?_, ?_, ?_, ?_, ?_, ?_, ?_, ?_, ?_, ?_, ?_, ?_, ?_, ?_, ?_, ?_, ?_, ?_, ?_, ?_, ?_, ?_, ?_, ?_, ?_, ?_, ?_, ?_⟩ <;> rfl

@[simp] theorem setB_mem (s : State) (a : Nat) (v : Byte) : (s.setB a v).mem =
    if backOf s.undef a = some v then adel a s.mem else ains a v s.mem := rfl

@[simp] theorem setB_other (s : State) (a : Nat) (v : Byte) :
    (s.setB a v).pending = s.pending ∧ (s.setB a v).free = s.free ∧ (s.setB a v).real = s.real ∧
    (s.setB a v).regs = s.regs ∧ (s.setB a v).latches = s.latches ∧ (s.setB a v).undef = s.undef ∧
    (s.setB a v).poison = s.poison ∧ (s.setB a v).flags = s.flags ∧ (s.setB a v).fences = s.fences ∧
    (s.setB a v).fuse = s.fuse ∧ (s.setB a v).ledger = s.ledger ∧ (s.setB a v).pins = s.pins ∧
    (s.setB a v).boot = s.boot ∧ (s.setB a v).resets = s.resets ∧ (s.setB a v).time = s.time ∧
    (s.setB a v).parts = s.parts ∧ (s.setB a v).sprue = s.sprue ∧ (s.setB a v).events = s.events ∧
    (s.setB a v).health = s.health ∧ (s.setB a v).descs = s.descs ∧ (s.setB a v).ctrs = s.ctrs ∧
    (s.setB a v).hall = s.hall ∧ (s.setB a v).runner = s.runner ∧ (s.setB a v).net = s.net ∧
    (s.setB a v).slices = s.slices ∧ (s.setB a v).chans = s.chans ∧ (s.setB a v).wires = s.wires ∧
    (s.setB a v).cxl = s.cxl ∧ (s.setB a v).movers = s.movers ∧ (s.setB a v).mxs = s.mxs ∧
    (s.setB a v).gcores = s.gcores ∧ (s.setB a v).mordant = s.mordant ∧ (s.setB a v).update = s.update ∧
    (s.setB a v).pki = s.pki ∧ (s.setB a v).certs = s.certs ∧
    (s.setB a v).hot = s.hot ∧ (s.setB a v).banks = s.banks := by
  refine ⟨?_, ?_, ?_, ?_, ?_, ?_, ?_, ?_, ?_, ?_, ?_, ?_, ?_, ?_, ?_, ?_, ?_, ?_, ?_, ?_, ?_, ?_, ?_, ?_, ?_, ?_, ?_, ?_, ?_, ?_, ?_, ?_, ?_, ?_, ?_, ?_, ?_⟩ <;> rfl

@[simp] theorem setPoison_poison (s : State) (a : Nat) (b : Bool) : (s.setPoison a b).poison =
    aset 0 s.poison (sectorOf a) b.toNat := rfl

@[simp] theorem setPoison_other (s : State) (a : Nat) (b : Bool) :
    (s.setPoison a b).pending = s.pending ∧ (s.setPoison a b).free = s.free ∧ (s.setPoison a b).real = s.real ∧
    (s.setPoison a b).regs = s.regs ∧ (s.setPoison a b).latches = s.latches ∧ (s.setPoison a b).mem = s.mem ∧
    (s.setPoison a b).undef = s.undef ∧ (s.setPoison a b).flags = s.flags ∧ (s.setPoison a b).fences = s.fences ∧
    (s.setPoison a b).fuse = s.fuse ∧ (s.setPoison a b).ledger = s.ledger ∧ (s.setPoison a b).pins = s.pins ∧
    (s.setPoison a b).boot = s.boot ∧ (s.setPoison a b).resets = s.resets ∧ (s.setPoison a b).time = s.time ∧
    (s.setPoison a b).parts = s.parts ∧ (s.setPoison a b).sprue = s.sprue ∧ (s.setPoison a b).events = s.events ∧
    (s.setPoison a b).health = s.health ∧ (s.setPoison a b).descs = s.descs ∧ (s.setPoison a b).ctrs = s.ctrs ∧
    (s.setPoison a b).hall = s.hall ∧ (s.setPoison a b).runner = s.runner ∧ (s.setPoison a b).net = s.net ∧
    (s.setPoison a b).slices = s.slices ∧ (s.setPoison a b).chans = s.chans ∧ (s.setPoison a b).wires = s.wires ∧
    (s.setPoison a b).cxl = s.cxl ∧ (s.setPoison a b).movers = s.movers ∧ (s.setPoison a b).mxs = s.mxs ∧
    (s.setPoison a b).gcores = s.gcores ∧ (s.setPoison a b).mordant = s.mordant ∧
    (s.setPoison a b).update = s.update ∧ (s.setPoison a b).pki = s.pki ∧ (s.setPoison a b).certs = s.certs ∧
    (s.setPoison a b).hot = s.hot ∧ (s.setPoison a b).banks = s.banks := by
  refine ⟨?_, ?_, ?_, ?_, ?_, ?_, ?_, ?_, ?_, ?_, ?_, ?_, ?_, ?_, ?_, ?_, ?_, ?_, ?_, ?_, ?_, ?_, ?_, ?_, ?_, ?_, ?_, ?_, ?_, ?_, ?_, ?_, ?_, ?_, ?_, ?_, ?_⟩ <;> rfl

@[simp] theorem clearPoison_poison (s : State) (a n : Nat) : (s.clearPoison a n).poison =
    s.poison.filter fun e => decide (e.1 * 64 < a ∨ a + n ≤ e.1 * 64) := rfl

@[simp] theorem clearPoison_other (s : State) (a n : Nat) :
    (s.clearPoison a n).pending = s.pending ∧ (s.clearPoison a n).free = s.free ∧ (s.clearPoison a n).real = s.real ∧
    (s.clearPoison a n).regs = s.regs ∧ (s.clearPoison a n).latches = s.latches ∧ (s.clearPoison a n).mem = s.mem ∧
    (s.clearPoison a n).undef = s.undef ∧ (s.clearPoison a n).flags = s.flags ∧
    (s.clearPoison a n).fences = s.fences ∧ (s.clearPoison a n).fuse = s.fuse ∧
    (s.clearPoison a n).ledger = s.ledger ∧ (s.clearPoison a n).pins = s.pins ∧ (s.clearPoison a n).boot = s.boot ∧
    (s.clearPoison a n).resets = s.resets ∧ (s.clearPoison a n).time = s.time ∧ (s.clearPoison a n).parts = s.parts ∧
    (s.clearPoison a n).sprue = s.sprue ∧ (s.clearPoison a n).events = s.events ∧
    (s.clearPoison a n).health = s.health ∧ (s.clearPoison a n).descs = s.descs ∧ (s.clearPoison a n).ctrs = s.ctrs ∧
    (s.clearPoison a n).hall = s.hall ∧ (s.clearPoison a n).runner = s.runner ∧ (s.clearPoison a n).net = s.net ∧
    (s.clearPoison a n).slices = s.slices ∧ (s.clearPoison a n).chans = s.chans ∧
    (s.clearPoison a n).wires = s.wires ∧ (s.clearPoison a n).cxl = s.cxl ∧ (s.clearPoison a n).movers = s.movers ∧
    (s.clearPoison a n).mxs = s.mxs ∧ (s.clearPoison a n).gcores = s.gcores ∧
    (s.clearPoison a n).mordant = s.mordant ∧ (s.clearPoison a n).update = s.update ∧
    (s.clearPoison a n).pki = s.pki ∧ (s.clearPoison a n).certs = s.certs ∧
    (s.clearPoison a n).hot = s.hot ∧ (s.clearPoison a n).banks = s.banks := by
  refine ⟨?_, ?_, ?_, ?_, ?_, ?_, ?_, ?_, ?_, ?_, ?_, ?_, ?_, ?_, ?_, ?_, ?_, ?_, ?_, ?_, ?_, ?_, ?_, ?_, ?_, ?_, ?_, ?_, ?_, ?_, ?_, ?_, ?_, ?_, ?_, ?_, ?_⟩ <;> rfl

@[simp] theorem setQueue_events (s : State) (pg : Nat) (q : List EvRec) : (s.setQueue pg q).events =
    { s.events with queues := aset [] s.events.queues pg q } := rfl

@[simp] theorem setQueue_other (s : State) (pg : Nat) (q : List EvRec) :
    (s.setQueue pg q).pending = s.pending ∧ (s.setQueue pg q).free = s.free ∧ (s.setQueue pg q).real = s.real ∧
    (s.setQueue pg q).regs = s.regs ∧ (s.setQueue pg q).latches = s.latches ∧ (s.setQueue pg q).mem = s.mem ∧
    (s.setQueue pg q).undef = s.undef ∧ (s.setQueue pg q).poison = s.poison ∧ (s.setQueue pg q).flags = s.flags ∧
    (s.setQueue pg q).fences = s.fences ∧ (s.setQueue pg q).fuse = s.fuse ∧ (s.setQueue pg q).ledger = s.ledger ∧
    (s.setQueue pg q).pins = s.pins ∧ (s.setQueue pg q).boot = s.boot ∧ (s.setQueue pg q).resets = s.resets ∧
    (s.setQueue pg q).time = s.time ∧ (s.setQueue pg q).parts = s.parts ∧ (s.setQueue pg q).sprue = s.sprue ∧
    (s.setQueue pg q).health = s.health ∧ (s.setQueue pg q).descs = s.descs ∧ (s.setQueue pg q).ctrs = s.ctrs ∧
    (s.setQueue pg q).hall = s.hall ∧ (s.setQueue pg q).runner = s.runner ∧ (s.setQueue pg q).net = s.net ∧
    (s.setQueue pg q).slices = s.slices ∧ (s.setQueue pg q).chans = s.chans ∧ (s.setQueue pg q).wires = s.wires ∧
    (s.setQueue pg q).cxl = s.cxl ∧ (s.setQueue pg q).movers = s.movers ∧ (s.setQueue pg q).mxs = s.mxs ∧
    (s.setQueue pg q).gcores = s.gcores ∧ (s.setQueue pg q).mordant = s.mordant ∧
    (s.setQueue pg q).update = s.update ∧ (s.setQueue pg q).pki = s.pki ∧ (s.setQueue pg q).certs = s.certs ∧
    (s.setQueue pg q).hot = s.hot ∧ (s.setQueue pg q).banks = s.banks := by
  refine ⟨?_, ?_, ?_, ?_, ?_, ?_, ?_, ?_, ?_, ?_, ?_, ?_, ?_, ?_, ?_, ?_, ?_, ?_, ?_, ?_, ?_, ?_, ?_, ?_, ?_, ?_, ?_, ?_, ?_, ?_, ?_, ?_, ?_, ?_, ?_, ?_, ?_⟩ <;> rfl

@[simp] theorem closeCmd_sprue (s : State) (id : Nat) (r : Option TxFrame) : (s.closeCmd id r).sprue =
    { s.sprue with
      intake := s.sprue.intake.filter fun q => decide (q.cmd.id ≠ id)
      memory := remember s.sprue.memory id r
      acted := if r.isSome then adel id s.sprue.acted else ains id s.time.ticks s.sprue.acted } := rfl

@[simp] theorem closeCmd_other (s : State) (id : Nat) (r : Option TxFrame) :
    (s.closeCmd id r).pending = s.pending ∧ (s.closeCmd id r).free = s.free ∧ (s.closeCmd id r).real = s.real ∧
    (s.closeCmd id r).regs = s.regs ∧ (s.closeCmd id r).latches = s.latches ∧ (s.closeCmd id r).mem = s.mem ∧
    (s.closeCmd id r).undef = s.undef ∧ (s.closeCmd id r).poison = s.poison ∧ (s.closeCmd id r).flags = s.flags ∧
    (s.closeCmd id r).fences = s.fences ∧ (s.closeCmd id r).fuse = s.fuse ∧ (s.closeCmd id r).ledger = s.ledger ∧
    (s.closeCmd id r).pins = s.pins ∧ (s.closeCmd id r).boot = s.boot ∧ (s.closeCmd id r).resets = s.resets ∧
    (s.closeCmd id r).time = s.time ∧ (s.closeCmd id r).parts = s.parts ∧ (s.closeCmd id r).events = s.events ∧
    (s.closeCmd id r).health = s.health ∧ (s.closeCmd id r).descs = s.descs ∧ (s.closeCmd id r).ctrs = s.ctrs ∧
    (s.closeCmd id r).hall = s.hall ∧ (s.closeCmd id r).runner = s.runner ∧ (s.closeCmd id r).net = s.net ∧
    (s.closeCmd id r).slices = s.slices ∧ (s.closeCmd id r).chans = s.chans ∧ (s.closeCmd id r).wires = s.wires ∧
    (s.closeCmd id r).cxl = s.cxl ∧ (s.closeCmd id r).movers = s.movers ∧ (s.closeCmd id r).mxs = s.mxs ∧
    (s.closeCmd id r).gcores = s.gcores ∧ (s.closeCmd id r).mordant = s.mordant ∧
    (s.closeCmd id r).update = s.update ∧ (s.closeCmd id r).pki = s.pki ∧ (s.closeCmd id r).certs = s.certs ∧
    (s.closeCmd id r).hot = s.hot ∧ (s.closeCmd id r).banks = s.banks := by
  refine ⟨?_, ?_, ?_, ?_, ?_, ?_, ?_, ?_, ?_, ?_, ?_, ?_, ?_, ?_, ?_, ?_, ?_, ?_, ?_, ?_, ?_, ?_, ?_, ?_, ?_, ?_, ?_, ?_, ?_, ?_, ?_, ?_, ?_, ?_, ?_, ?_, ?_⟩ <;> rfl

@[simp] theorem modTime_time (s : State) (f : TimeUnit → TimeUnit) : (s.modTime f).time =
    f s.time := rfl

@[simp] theorem modTime_other (s : State) (f : TimeUnit → TimeUnit) :
    (s.modTime f).pending = s.pending ∧ (s.modTime f).free = s.free ∧ (s.modTime f).real = s.real ∧
    (s.modTime f).regs = s.regs ∧ (s.modTime f).latches = s.latches ∧ (s.modTime f).mem = s.mem ∧
    (s.modTime f).undef = s.undef ∧ (s.modTime f).poison = s.poison ∧ (s.modTime f).flags = s.flags ∧
    (s.modTime f).fences = s.fences ∧ (s.modTime f).fuse = s.fuse ∧ (s.modTime f).ledger = s.ledger ∧
    (s.modTime f).pins = s.pins ∧ (s.modTime f).boot = s.boot ∧ (s.modTime f).resets = s.resets ∧
    (s.modTime f).parts = s.parts ∧ (s.modTime f).sprue = s.sprue ∧ (s.modTime f).events = s.events ∧
    (s.modTime f).health = s.health ∧ (s.modTime f).descs = s.descs ∧ (s.modTime f).ctrs = s.ctrs ∧
    (s.modTime f).hall = s.hall ∧ (s.modTime f).runner = s.runner ∧ (s.modTime f).net = s.net ∧
    (s.modTime f).slices = s.slices ∧ (s.modTime f).chans = s.chans ∧ (s.modTime f).wires = s.wires ∧
    (s.modTime f).cxl = s.cxl ∧ (s.modTime f).movers = s.movers ∧ (s.modTime f).mxs = s.mxs ∧
    (s.modTime f).gcores = s.gcores ∧ (s.modTime f).mordant = s.mordant ∧ (s.modTime f).update = s.update ∧
    (s.modTime f).pki = s.pki ∧ (s.modTime f).certs = s.certs ∧
    (s.modTime f).hot = s.hot ∧ (s.modTime f).banks = s.banks := by
  refine ⟨?_, ?_, ?_, ?_, ?_, ?_, ?_, ?_, ?_, ?_, ?_, ?_, ?_, ?_, ?_, ?_, ?_, ?_, ?_, ?_, ?_, ?_, ?_, ?_, ?_, ?_, ?_, ?_, ?_, ?_, ?_, ?_, ?_, ?_, ?_, ?_, ?_⟩ <;> rfl

@[simp] theorem modLedger_ledger (s : State) (f : Ledger → Ledger) : (s.modLedger f).ledger =
    f s.ledger := rfl

@[simp] theorem modLedger_other (s : State) (f : Ledger → Ledger) :
    (s.modLedger f).pending = s.pending ∧ (s.modLedger f).free = s.free ∧ (s.modLedger f).real = s.real ∧
    (s.modLedger f).regs = s.regs ∧ (s.modLedger f).latches = s.latches ∧ (s.modLedger f).mem = s.mem ∧
    (s.modLedger f).undef = s.undef ∧ (s.modLedger f).poison = s.poison ∧ (s.modLedger f).flags = s.flags ∧
    (s.modLedger f).fences = s.fences ∧ (s.modLedger f).fuse = s.fuse ∧ (s.modLedger f).pins = s.pins ∧
    (s.modLedger f).boot = s.boot ∧ (s.modLedger f).resets = s.resets ∧ (s.modLedger f).time = s.time ∧
    (s.modLedger f).parts = s.parts ∧ (s.modLedger f).sprue = s.sprue ∧ (s.modLedger f).events = s.events ∧
    (s.modLedger f).health = s.health ∧ (s.modLedger f).descs = s.descs ∧ (s.modLedger f).ctrs = s.ctrs ∧
    (s.modLedger f).hall = s.hall ∧ (s.modLedger f).runner = s.runner ∧ (s.modLedger f).net = s.net ∧
    (s.modLedger f).slices = s.slices ∧ (s.modLedger f).chans = s.chans ∧ (s.modLedger f).wires = s.wires ∧
    (s.modLedger f).cxl = s.cxl ∧ (s.modLedger f).movers = s.movers ∧ (s.modLedger f).mxs = s.mxs ∧
    (s.modLedger f).gcores = s.gcores ∧ (s.modLedger f).mordant = s.mordant ∧ (s.modLedger f).update = s.update ∧
    (s.modLedger f).pki = s.pki ∧ (s.modLedger f).certs = s.certs ∧
    (s.modLedger f).hot = s.hot ∧ (s.modLedger f).banks = s.banks := by
  refine ⟨?_, ?_, ?_, ?_, ?_, ?_, ?_, ?_, ?_, ?_, ?_, ?_, ?_, ?_, ?_, ?_, ?_, ?_, ?_, ?_, ?_, ?_, ?_, ?_, ?_, ?_, ?_, ?_, ?_, ?_, ?_, ?_, ?_, ?_, ?_, ?_, ?_⟩ <;> rfl

@[simp] theorem modHealth_health (s : State) (f : Health → Health) : (s.modHealth f).health =
    f s.health := rfl

@[simp] theorem modHealth_other (s : State) (f : Health → Health) :
    (s.modHealth f).pending = s.pending ∧ (s.modHealth f).free = s.free ∧ (s.modHealth f).real = s.real ∧
    (s.modHealth f).regs = s.regs ∧ (s.modHealth f).latches = s.latches ∧ (s.modHealth f).mem = s.mem ∧
    (s.modHealth f).undef = s.undef ∧ (s.modHealth f).poison = s.poison ∧ (s.modHealth f).flags = s.flags ∧
    (s.modHealth f).fences = s.fences ∧ (s.modHealth f).fuse = s.fuse ∧ (s.modHealth f).ledger = s.ledger ∧
    (s.modHealth f).pins = s.pins ∧ (s.modHealth f).boot = s.boot ∧ (s.modHealth f).resets = s.resets ∧
    (s.modHealth f).time = s.time ∧ (s.modHealth f).parts = s.parts ∧ (s.modHealth f).sprue = s.sprue ∧
    (s.modHealth f).events = s.events ∧ (s.modHealth f).descs = s.descs ∧ (s.modHealth f).ctrs = s.ctrs ∧
    (s.modHealth f).hall = s.hall ∧ (s.modHealth f).runner = s.runner ∧ (s.modHealth f).net = s.net ∧
    (s.modHealth f).slices = s.slices ∧ (s.modHealth f).chans = s.chans ∧ (s.modHealth f).wires = s.wires ∧
    (s.modHealth f).cxl = s.cxl ∧ (s.modHealth f).movers = s.movers ∧ (s.modHealth f).mxs = s.mxs ∧
    (s.modHealth f).gcores = s.gcores ∧ (s.modHealth f).mordant = s.mordant ∧ (s.modHealth f).update = s.update ∧
    (s.modHealth f).pki = s.pki ∧ (s.modHealth f).certs = s.certs ∧
    (s.modHealth f).hot = s.hot ∧ (s.modHealth f).banks = s.banks := by
  refine ⟨?_, ?_, ?_, ?_, ?_, ?_, ?_, ?_, ?_, ?_, ?_, ?_, ?_, ?_, ?_, ?_, ?_, ?_, ?_, ?_, ?_, ?_, ?_, ?_, ?_, ?_, ?_, ?_, ?_, ?_, ?_, ?_, ?_, ?_, ?_, ?_, ?_⟩ <;> rfl

@[simp] theorem modNet_net (s : State) (f : Net → Net) : (s.modNet f).net =
    f s.net := rfl

@[simp] theorem modNet_other (s : State) (f : Net → Net) :
    (s.modNet f).pending = s.pending ∧ (s.modNet f).free = s.free ∧ (s.modNet f).real = s.real ∧
    (s.modNet f).regs = s.regs ∧ (s.modNet f).latches = s.latches ∧ (s.modNet f).mem = s.mem ∧
    (s.modNet f).undef = s.undef ∧ (s.modNet f).poison = s.poison ∧ (s.modNet f).flags = s.flags ∧
    (s.modNet f).fences = s.fences ∧ (s.modNet f).fuse = s.fuse ∧ (s.modNet f).ledger = s.ledger ∧
    (s.modNet f).pins = s.pins ∧ (s.modNet f).boot = s.boot ∧ (s.modNet f).resets = s.resets ∧
    (s.modNet f).time = s.time ∧ (s.modNet f).parts = s.parts ∧ (s.modNet f).sprue = s.sprue ∧
    (s.modNet f).events = s.events ∧ (s.modNet f).health = s.health ∧ (s.modNet f).descs = s.descs ∧
    (s.modNet f).ctrs = s.ctrs ∧ (s.modNet f).hall = s.hall ∧ (s.modNet f).runner = s.runner ∧
    (s.modNet f).slices = s.slices ∧ (s.modNet f).chans = s.chans ∧ (s.modNet f).wires = s.wires ∧
    (s.modNet f).cxl = s.cxl ∧ (s.modNet f).movers = s.movers ∧ (s.modNet f).mxs = s.mxs ∧
    (s.modNet f).gcores = s.gcores ∧ (s.modNet f).mordant = s.mordant ∧ (s.modNet f).update = s.update ∧
    (s.modNet f).pki = s.pki ∧ (s.modNet f).certs = s.certs ∧
    (s.modNet f).hot = s.hot ∧ (s.modNet f).banks = s.banks := by
  refine ⟨?_, ?_, ?_, ?_, ?_, ?_, ?_, ?_, ?_, ?_, ?_, ?_, ?_, ?_, ?_, ?_, ?_, ?_, ?_, ?_, ?_, ?_, ?_, ?_, ?_, ?_, ?_, ?_, ?_, ?_, ?_, ?_, ?_, ?_, ?_, ?_, ?_⟩ <;> rfl

@[simp] theorem modHall_hall (s : State) (f : Hall → Hall) : (s.modHall f).hall =
    f s.hall := rfl

@[simp] theorem modHall_other (s : State) (f : Hall → Hall) :
    (s.modHall f).pending = s.pending ∧ (s.modHall f).free = s.free ∧ (s.modHall f).real = s.real ∧
    (s.modHall f).regs = s.regs ∧ (s.modHall f).latches = s.latches ∧ (s.modHall f).mem = s.mem ∧
    (s.modHall f).undef = s.undef ∧ (s.modHall f).poison = s.poison ∧ (s.modHall f).flags = s.flags ∧
    (s.modHall f).fences = s.fences ∧ (s.modHall f).fuse = s.fuse ∧ (s.modHall f).ledger = s.ledger ∧
    (s.modHall f).pins = s.pins ∧ (s.modHall f).boot = s.boot ∧ (s.modHall f).resets = s.resets ∧
    (s.modHall f).time = s.time ∧ (s.modHall f).parts = s.parts ∧ (s.modHall f).sprue = s.sprue ∧
    (s.modHall f).events = s.events ∧ (s.modHall f).health = s.health ∧ (s.modHall f).descs = s.descs ∧
    (s.modHall f).ctrs = s.ctrs ∧ (s.modHall f).runner = s.runner ∧ (s.modHall f).net = s.net ∧
    (s.modHall f).slices = s.slices ∧ (s.modHall f).chans = s.chans ∧ (s.modHall f).wires = s.wires ∧
    (s.modHall f).cxl = s.cxl ∧ (s.modHall f).movers = s.movers ∧ (s.modHall f).mxs = s.mxs ∧
    (s.modHall f).gcores = s.gcores ∧ (s.modHall f).mordant = s.mordant ∧ (s.modHall f).update = s.update ∧
    (s.modHall f).pki = s.pki ∧ (s.modHall f).certs = s.certs ∧
    (s.modHall f).hot = s.hot ∧ (s.modHall f).banks = s.banks := by
  refine ⟨?_, ?_, ?_, ?_, ?_, ?_, ?_, ?_, ?_, ?_, ?_, ?_, ?_, ?_, ?_, ?_, ?_, ?_, ?_, ?_, ?_, ?_, ?_, ?_, ?_, ?_, ?_, ?_, ?_, ?_, ?_, ?_, ?_, ?_, ?_, ?_, ?_⟩ <;> rfl

@[simp] theorem modSprue_sprue (s : State) (f : SprueUnit → SprueUnit) : (s.modSprue f).sprue =
    f s.sprue := rfl

@[simp] theorem modSprue_other (s : State) (f : SprueUnit → SprueUnit) :
    (s.modSprue f).pending = s.pending ∧ (s.modSprue f).free = s.free ∧ (s.modSprue f).real = s.real ∧
    (s.modSprue f).regs = s.regs ∧ (s.modSprue f).latches = s.latches ∧ (s.modSprue f).mem = s.mem ∧
    (s.modSprue f).undef = s.undef ∧ (s.modSprue f).poison = s.poison ∧ (s.modSprue f).flags = s.flags ∧
    (s.modSprue f).fences = s.fences ∧ (s.modSprue f).fuse = s.fuse ∧ (s.modSprue f).ledger = s.ledger ∧
    (s.modSprue f).pins = s.pins ∧ (s.modSprue f).boot = s.boot ∧ (s.modSprue f).resets = s.resets ∧
    (s.modSprue f).time = s.time ∧ (s.modSprue f).parts = s.parts ∧ (s.modSprue f).events = s.events ∧
    (s.modSprue f).health = s.health ∧ (s.modSprue f).descs = s.descs ∧ (s.modSprue f).ctrs = s.ctrs ∧
    (s.modSprue f).hall = s.hall ∧ (s.modSprue f).runner = s.runner ∧ (s.modSprue f).net = s.net ∧
    (s.modSprue f).slices = s.slices ∧ (s.modSprue f).chans = s.chans ∧ (s.modSprue f).wires = s.wires ∧
    (s.modSprue f).cxl = s.cxl ∧ (s.modSprue f).movers = s.movers ∧ (s.modSprue f).mxs = s.mxs ∧
    (s.modSprue f).gcores = s.gcores ∧ (s.modSprue f).mordant = s.mordant ∧ (s.modSprue f).update = s.update ∧
    (s.modSprue f).pki = s.pki ∧ (s.modSprue f).certs = s.certs ∧
    (s.modSprue f).hot = s.hot ∧ (s.modSprue f).banks = s.banks := by
  refine ⟨?_, ?_, ?_, ?_, ?_, ?_, ?_, ?_, ?_, ?_, ?_, ?_, ?_, ?_, ?_, ?_, ?_, ?_, ?_, ?_, ?_, ?_, ?_, ?_, ?_, ?_, ?_, ?_, ?_, ?_, ?_, ?_, ?_, ?_, ?_, ?_, ?_⟩ <;> rfl

@[simp] theorem modMordant_mordant (s : State) (f : Mordant → Mordant) : (s.modMordant f).mordant =
    f s.mordant := rfl

@[simp] theorem modMordant_other (s : State) (f : Mordant → Mordant) :
    (s.modMordant f).pending = s.pending ∧ (s.modMordant f).free = s.free ∧ (s.modMordant f).real = s.real ∧
    (s.modMordant f).regs = s.regs ∧ (s.modMordant f).latches = s.latches ∧ (s.modMordant f).mem = s.mem ∧
    (s.modMordant f).undef = s.undef ∧ (s.modMordant f).poison = s.poison ∧ (s.modMordant f).flags = s.flags ∧
    (s.modMordant f).fences = s.fences ∧ (s.modMordant f).fuse = s.fuse ∧ (s.modMordant f).ledger = s.ledger ∧
    (s.modMordant f).pins = s.pins ∧ (s.modMordant f).boot = s.boot ∧ (s.modMordant f).resets = s.resets ∧
    (s.modMordant f).time = s.time ∧ (s.modMordant f).parts = s.parts ∧ (s.modMordant f).sprue = s.sprue ∧
    (s.modMordant f).events = s.events ∧ (s.modMordant f).health = s.health ∧ (s.modMordant f).descs = s.descs ∧
    (s.modMordant f).ctrs = s.ctrs ∧ (s.modMordant f).hall = s.hall ∧ (s.modMordant f).runner = s.runner ∧
    (s.modMordant f).net = s.net ∧ (s.modMordant f).slices = s.slices ∧ (s.modMordant f).chans = s.chans ∧
    (s.modMordant f).wires = s.wires ∧ (s.modMordant f).cxl = s.cxl ∧ (s.modMordant f).movers = s.movers ∧
    (s.modMordant f).mxs = s.mxs ∧ (s.modMordant f).gcores = s.gcores ∧ (s.modMordant f).update = s.update ∧
    (s.modMordant f).pki = s.pki ∧ (s.modMordant f).certs = s.certs ∧
    (s.modMordant f).hot = s.hot ∧ (s.modMordant f).banks = s.banks := by
  refine ⟨?_, ?_, ?_, ?_, ?_, ?_, ?_, ?_, ?_, ?_, ?_, ?_, ?_, ?_, ?_, ?_, ?_, ?_, ?_, ?_, ?_, ?_, ?_, ?_, ?_, ?_, ?_, ?_, ?_, ?_, ?_, ?_, ?_, ?_, ?_, ?_, ?_⟩ <;> rfl

@[simp] theorem modTrusted_mordant (s : State) (p : Nat) (f : Trusted → Trusted) : (s.modTrusted p f).mordant =
    { s.mordant with parts := aupd {} s.mordant.parts p f } := rfl

@[simp] theorem modTrusted_other (s : State) (p : Nat) (f : Trusted → Trusted) :
    (s.modTrusted p f).pending = s.pending ∧ (s.modTrusted p f).free = s.free ∧ (s.modTrusted p f).real = s.real ∧
    (s.modTrusted p f).regs = s.regs ∧ (s.modTrusted p f).latches = s.latches ∧ (s.modTrusted p f).mem = s.mem ∧
    (s.modTrusted p f).undef = s.undef ∧ (s.modTrusted p f).poison = s.poison ∧ (s.modTrusted p f).flags = s.flags ∧
    (s.modTrusted p f).fences = s.fences ∧ (s.modTrusted p f).fuse = s.fuse ∧ (s.modTrusted p f).ledger = s.ledger ∧
    (s.modTrusted p f).pins = s.pins ∧ (s.modTrusted p f).boot = s.boot ∧ (s.modTrusted p f).resets = s.resets ∧
    (s.modTrusted p f).time = s.time ∧ (s.modTrusted p f).parts = s.parts ∧ (s.modTrusted p f).sprue = s.sprue ∧
    (s.modTrusted p f).events = s.events ∧ (s.modTrusted p f).health = s.health ∧ (s.modTrusted p f).descs = s.descs ∧
    (s.modTrusted p f).ctrs = s.ctrs ∧ (s.modTrusted p f).hall = s.hall ∧ (s.modTrusted p f).runner = s.runner ∧
    (s.modTrusted p f).net = s.net ∧ (s.modTrusted p f).slices = s.slices ∧ (s.modTrusted p f).chans = s.chans ∧
    (s.modTrusted p f).wires = s.wires ∧ (s.modTrusted p f).cxl = s.cxl ∧ (s.modTrusted p f).movers = s.movers ∧
    (s.modTrusted p f).mxs = s.mxs ∧ (s.modTrusted p f).gcores = s.gcores ∧ (s.modTrusted p f).update = s.update ∧
    (s.modTrusted p f).pki = s.pki ∧ (s.modTrusted p f).certs = s.certs ∧
    (s.modTrusted p f).hot = s.hot ∧ (s.modTrusted p f).banks = s.banks := by
  refine ⟨?_, ?_, ?_, ?_, ?_, ?_, ?_, ?_, ?_, ?_, ?_, ?_, ?_, ?_, ?_, ?_, ?_, ?_, ?_, ?_, ?_, ?_, ?_, ?_, ?_, ?_, ?_, ?_, ?_, ?_, ?_, ?_, ?_, ?_, ?_, ?_, ?_⟩ <;> rfl

@[simp] theorem modUpdate_update (s : State) (f : Update → Update) : (s.modUpdate f).update =
    f s.update := rfl

@[simp] theorem modUpdate_other (s : State) (f : Update → Update) :
    (s.modUpdate f).pending = s.pending ∧ (s.modUpdate f).free = s.free ∧ (s.modUpdate f).real = s.real ∧
    (s.modUpdate f).regs = s.regs ∧ (s.modUpdate f).latches = s.latches ∧ (s.modUpdate f).mem = s.mem ∧
    (s.modUpdate f).undef = s.undef ∧ (s.modUpdate f).poison = s.poison ∧ (s.modUpdate f).flags = s.flags ∧
    (s.modUpdate f).fences = s.fences ∧ (s.modUpdate f).fuse = s.fuse ∧ (s.modUpdate f).ledger = s.ledger ∧
    (s.modUpdate f).pins = s.pins ∧ (s.modUpdate f).boot = s.boot ∧ (s.modUpdate f).resets = s.resets ∧
    (s.modUpdate f).time = s.time ∧ (s.modUpdate f).parts = s.parts ∧ (s.modUpdate f).sprue = s.sprue ∧
    (s.modUpdate f).events = s.events ∧ (s.modUpdate f).health = s.health ∧ (s.modUpdate f).descs = s.descs ∧
    (s.modUpdate f).ctrs = s.ctrs ∧ (s.modUpdate f).hall = s.hall ∧ (s.modUpdate f).runner = s.runner ∧
    (s.modUpdate f).net = s.net ∧ (s.modUpdate f).slices = s.slices ∧ (s.modUpdate f).chans = s.chans ∧
    (s.modUpdate f).wires = s.wires ∧ (s.modUpdate f).cxl = s.cxl ∧ (s.modUpdate f).movers = s.movers ∧
    (s.modUpdate f).mxs = s.mxs ∧ (s.modUpdate f).gcores = s.gcores ∧ (s.modUpdate f).mordant = s.mordant ∧
    (s.modUpdate f).pki = s.pki ∧ (s.modUpdate f).certs = s.certs ∧
    (s.modUpdate f).hot = s.hot ∧ (s.modUpdate f).banks = s.banks := by
  refine ⟨?_, ?_, ?_, ?_, ?_, ?_, ?_, ?_, ?_, ?_, ?_, ?_, ?_, ?_, ?_, ?_, ?_, ?_, ?_, ?_, ?_, ?_, ?_, ?_, ?_, ?_, ?_, ?_, ?_, ?_, ?_, ?_, ?_, ?_, ?_, ?_, ?_⟩ <;> rfl

@[simp] theorem modPort_runner (s : State) (q : Nat) (f : RPort → RPort) : (s.modPort q f).runner =
    aupd {} s.runner q f := rfl

@[simp] theorem modPort_other (s : State) (q : Nat) (f : RPort → RPort) :
    (s.modPort q f).pending = s.pending ∧ (s.modPort q f).free = s.free ∧ (s.modPort q f).real = s.real ∧
    (s.modPort q f).regs = s.regs ∧ (s.modPort q f).latches = s.latches ∧ (s.modPort q f).mem = s.mem ∧
    (s.modPort q f).undef = s.undef ∧ (s.modPort q f).poison = s.poison ∧ (s.modPort q f).flags = s.flags ∧
    (s.modPort q f).fences = s.fences ∧ (s.modPort q f).fuse = s.fuse ∧ (s.modPort q f).ledger = s.ledger ∧
    (s.modPort q f).pins = s.pins ∧ (s.modPort q f).boot = s.boot ∧ (s.modPort q f).resets = s.resets ∧
    (s.modPort q f).time = s.time ∧ (s.modPort q f).parts = s.parts ∧ (s.modPort q f).sprue = s.sprue ∧
    (s.modPort q f).events = s.events ∧ (s.modPort q f).health = s.health ∧ (s.modPort q f).descs = s.descs ∧
    (s.modPort q f).ctrs = s.ctrs ∧ (s.modPort q f).hall = s.hall ∧ (s.modPort q f).net = s.net ∧
    (s.modPort q f).slices = s.slices ∧ (s.modPort q f).chans = s.chans ∧ (s.modPort q f).wires = s.wires ∧
    (s.modPort q f).cxl = s.cxl ∧ (s.modPort q f).movers = s.movers ∧ (s.modPort q f).mxs = s.mxs ∧
    (s.modPort q f).gcores = s.gcores ∧ (s.modPort q f).mordant = s.mordant ∧ (s.modPort q f).update = s.update ∧
    (s.modPort q f).pki = s.pki ∧ (s.modPort q f).certs = s.certs ∧
    (s.modPort q f).hot = s.hot ∧ (s.modPort q f).banks = s.banks := by
  refine ⟨?_, ?_, ?_, ?_, ?_, ?_, ?_, ?_, ?_, ?_, ?_, ?_, ?_, ?_, ?_, ?_, ?_, ?_, ?_, ?_, ?_, ?_, ?_, ?_, ?_, ?_, ?_, ?_, ?_, ?_, ?_, ?_, ?_, ?_, ?_, ?_, ?_⟩ <;> rfl

@[simp] theorem modChan_chans (s : State) (c : Nat) (f : Chan → Chan) : (s.modChan c f).chans =
    aupd {} s.chans c f := rfl

@[simp] theorem modChan_other (s : State) (c : Nat) (f : Chan → Chan) :
    (s.modChan c f).pending = s.pending ∧ (s.modChan c f).free = s.free ∧ (s.modChan c f).real = s.real ∧
    (s.modChan c f).regs = s.regs ∧ (s.modChan c f).latches = s.latches ∧ (s.modChan c f).mem = s.mem ∧
    (s.modChan c f).undef = s.undef ∧ (s.modChan c f).poison = s.poison ∧ (s.modChan c f).flags = s.flags ∧
    (s.modChan c f).fences = s.fences ∧ (s.modChan c f).fuse = s.fuse ∧ (s.modChan c f).ledger = s.ledger ∧
    (s.modChan c f).pins = s.pins ∧ (s.modChan c f).boot = s.boot ∧ (s.modChan c f).resets = s.resets ∧
    (s.modChan c f).time = s.time ∧ (s.modChan c f).parts = s.parts ∧ (s.modChan c f).sprue = s.sprue ∧
    (s.modChan c f).events = s.events ∧ (s.modChan c f).health = s.health ∧ (s.modChan c f).descs = s.descs ∧
    (s.modChan c f).ctrs = s.ctrs ∧ (s.modChan c f).hall = s.hall ∧ (s.modChan c f).runner = s.runner ∧
    (s.modChan c f).net = s.net ∧ (s.modChan c f).slices = s.slices ∧ (s.modChan c f).wires = s.wires ∧
    (s.modChan c f).cxl = s.cxl ∧ (s.modChan c f).movers = s.movers ∧ (s.modChan c f).mxs = s.mxs ∧
    (s.modChan c f).gcores = s.gcores ∧ (s.modChan c f).mordant = s.mordant ∧ (s.modChan c f).update = s.update ∧
    (s.modChan c f).pki = s.pki ∧ (s.modChan c f).certs = s.certs ∧
    (s.modChan c f).hot = s.hot ∧ (s.modChan c f).banks = s.banks := by
  refine ⟨?_, ?_, ?_, ?_, ?_, ?_, ?_, ?_, ?_, ?_, ?_, ?_, ?_, ?_, ?_, ?_, ?_, ?_, ?_, ?_, ?_, ?_, ?_, ?_, ?_, ?_, ?_, ?_, ?_, ?_, ?_, ?_, ?_, ?_, ?_, ?_, ?_⟩ <;> rfl

@[simp] theorem modWires_wires (s : State) (g : Nat) (f : Wires → Wires) : (s.modWires g f).wires =
    aupd {} s.wires g f := rfl

@[simp] theorem modWires_other (s : State) (g : Nat) (f : Wires → Wires) :
    (s.modWires g f).pending = s.pending ∧ (s.modWires g f).free = s.free ∧ (s.modWires g f).real = s.real ∧
    (s.modWires g f).regs = s.regs ∧ (s.modWires g f).latches = s.latches ∧ (s.modWires g f).mem = s.mem ∧
    (s.modWires g f).undef = s.undef ∧ (s.modWires g f).poison = s.poison ∧ (s.modWires g f).flags = s.flags ∧
    (s.modWires g f).fences = s.fences ∧ (s.modWires g f).fuse = s.fuse ∧ (s.modWires g f).ledger = s.ledger ∧
    (s.modWires g f).pins = s.pins ∧ (s.modWires g f).boot = s.boot ∧ (s.modWires g f).resets = s.resets ∧
    (s.modWires g f).time = s.time ∧ (s.modWires g f).parts = s.parts ∧ (s.modWires g f).sprue = s.sprue ∧
    (s.modWires g f).events = s.events ∧ (s.modWires g f).health = s.health ∧ (s.modWires g f).descs = s.descs ∧
    (s.modWires g f).ctrs = s.ctrs ∧ (s.modWires g f).hall = s.hall ∧ (s.modWires g f).runner = s.runner ∧
    (s.modWires g f).net = s.net ∧ (s.modWires g f).slices = s.slices ∧ (s.modWires g f).chans = s.chans ∧
    (s.modWires g f).cxl = s.cxl ∧ (s.modWires g f).movers = s.movers ∧ (s.modWires g f).mxs = s.mxs ∧
    (s.modWires g f).gcores = s.gcores ∧ (s.modWires g f).mordant = s.mordant ∧ (s.modWires g f).update = s.update ∧
    (s.modWires g f).pki = s.pki ∧ (s.modWires g f).certs = s.certs ∧
    (s.modWires g f).hot = s.hot ∧ (s.modWires g f).banks = s.banks := by
  refine ⟨?_, ?_, ?_, ?_, ?_, ?_, ?_, ?_, ?_, ?_, ?_, ?_, ?_, ?_, ?_, ?_, ?_, ?_, ?_, ?_, ?_, ?_, ?_, ?_, ?_, ?_, ?_, ?_, ?_, ?_, ?_, ?_, ?_, ?_, ?_, ?_, ?_⟩ <;> rfl

@[simp] theorem modSl_slices (s : State) (n : Nat) (f : SliceUnit → SliceUnit) : (s.modSl n f).slices =
    aupd {} s.slices n f := rfl

@[simp] theorem modSl_other (s : State) (n : Nat) (f : SliceUnit → SliceUnit) :
    (s.modSl n f).pending = s.pending ∧ (s.modSl n f).free = s.free ∧ (s.modSl n f).real = s.real ∧
    (s.modSl n f).regs = s.regs ∧ (s.modSl n f).latches = s.latches ∧ (s.modSl n f).mem = s.mem ∧
    (s.modSl n f).undef = s.undef ∧ (s.modSl n f).poison = s.poison ∧ (s.modSl n f).flags = s.flags ∧
    (s.modSl n f).fences = s.fences ∧ (s.modSl n f).fuse = s.fuse ∧ (s.modSl n f).ledger = s.ledger ∧
    (s.modSl n f).pins = s.pins ∧ (s.modSl n f).boot = s.boot ∧ (s.modSl n f).resets = s.resets ∧
    (s.modSl n f).time = s.time ∧ (s.modSl n f).parts = s.parts ∧ (s.modSl n f).sprue = s.sprue ∧
    (s.modSl n f).events = s.events ∧ (s.modSl n f).health = s.health ∧ (s.modSl n f).descs = s.descs ∧
    (s.modSl n f).ctrs = s.ctrs ∧ (s.modSl n f).hall = s.hall ∧ (s.modSl n f).runner = s.runner ∧
    (s.modSl n f).net = s.net ∧ (s.modSl n f).chans = s.chans ∧ (s.modSl n f).wires = s.wires ∧
    (s.modSl n f).cxl = s.cxl ∧ (s.modSl n f).movers = s.movers ∧ (s.modSl n f).mxs = s.mxs ∧
    (s.modSl n f).gcores = s.gcores ∧ (s.modSl n f).mordant = s.mordant ∧ (s.modSl n f).update = s.update ∧
    (s.modSl n f).pki = s.pki ∧ (s.modSl n f).certs = s.certs ∧
    (s.modSl n f).hot = s.hot ∧ (s.modSl n f).banks = s.banks := by
  refine ⟨?_, ?_, ?_, ?_, ?_, ?_, ?_, ?_, ?_, ?_, ?_, ?_, ?_, ?_, ?_, ?_, ?_, ?_, ?_, ?_, ?_, ?_, ?_, ?_, ?_, ?_, ?_, ?_, ?_, ?_, ?_, ?_, ?_, ?_, ?_, ?_, ?_⟩ <;> rfl

@[simp] theorem modCx_cxl (s : State) (x : Nat) (f : CxlUnit → CxlUnit) : (s.modCx x f).cxl =
    aupd {} s.cxl x f := rfl

@[simp] theorem modCx_other (s : State) (x : Nat) (f : CxlUnit → CxlUnit) :
    (s.modCx x f).pending = s.pending ∧ (s.modCx x f).free = s.free ∧ (s.modCx x f).real = s.real ∧
    (s.modCx x f).regs = s.regs ∧ (s.modCx x f).latches = s.latches ∧ (s.modCx x f).mem = s.mem ∧
    (s.modCx x f).undef = s.undef ∧ (s.modCx x f).poison = s.poison ∧ (s.modCx x f).flags = s.flags ∧
    (s.modCx x f).fences = s.fences ∧ (s.modCx x f).fuse = s.fuse ∧ (s.modCx x f).ledger = s.ledger ∧
    (s.modCx x f).pins = s.pins ∧ (s.modCx x f).boot = s.boot ∧ (s.modCx x f).resets = s.resets ∧
    (s.modCx x f).time = s.time ∧ (s.modCx x f).parts = s.parts ∧ (s.modCx x f).sprue = s.sprue ∧
    (s.modCx x f).events = s.events ∧ (s.modCx x f).health = s.health ∧ (s.modCx x f).descs = s.descs ∧
    (s.modCx x f).ctrs = s.ctrs ∧ (s.modCx x f).hall = s.hall ∧ (s.modCx x f).runner = s.runner ∧
    (s.modCx x f).net = s.net ∧ (s.modCx x f).slices = s.slices ∧ (s.modCx x f).chans = s.chans ∧
    (s.modCx x f).wires = s.wires ∧ (s.modCx x f).movers = s.movers ∧ (s.modCx x f).mxs = s.mxs ∧
    (s.modCx x f).gcores = s.gcores ∧ (s.modCx x f).mordant = s.mordant ∧ (s.modCx x f).update = s.update ∧
    (s.modCx x f).pki = s.pki ∧ (s.modCx x f).certs = s.certs ∧
    (s.modCx x f).hot = s.hot ∧ (s.modCx x f).banks = s.banks := by
  refine ⟨?_, ?_, ?_, ?_, ?_, ?_, ?_, ?_, ?_, ?_, ?_, ?_, ?_, ?_, ?_, ?_, ?_, ?_, ?_, ?_, ?_, ?_, ?_, ?_, ?_, ?_, ?_, ?_, ?_, ?_, ?_, ?_, ?_, ?_, ?_, ?_, ?_⟩ <;> rfl

@[simp] theorem modMover_movers (s : State) (m : Nat) (f : Mover → Mover) : (s.modMover m f).movers =
    aupd {} s.movers m f := rfl

@[simp] theorem modMover_other (s : State) (m : Nat) (f : Mover → Mover) :
    (s.modMover m f).pending = s.pending ∧ (s.modMover m f).free = s.free ∧ (s.modMover m f).real = s.real ∧
    (s.modMover m f).regs = s.regs ∧ (s.modMover m f).latches = s.latches ∧ (s.modMover m f).mem = s.mem ∧
    (s.modMover m f).undef = s.undef ∧ (s.modMover m f).poison = s.poison ∧ (s.modMover m f).flags = s.flags ∧
    (s.modMover m f).fences = s.fences ∧ (s.modMover m f).fuse = s.fuse ∧ (s.modMover m f).ledger = s.ledger ∧
    (s.modMover m f).pins = s.pins ∧ (s.modMover m f).boot = s.boot ∧ (s.modMover m f).resets = s.resets ∧
    (s.modMover m f).time = s.time ∧ (s.modMover m f).parts = s.parts ∧ (s.modMover m f).sprue = s.sprue ∧
    (s.modMover m f).events = s.events ∧ (s.modMover m f).health = s.health ∧ (s.modMover m f).descs = s.descs ∧
    (s.modMover m f).ctrs = s.ctrs ∧ (s.modMover m f).hall = s.hall ∧ (s.modMover m f).runner = s.runner ∧
    (s.modMover m f).net = s.net ∧ (s.modMover m f).slices = s.slices ∧ (s.modMover m f).chans = s.chans ∧
    (s.modMover m f).wires = s.wires ∧ (s.modMover m f).cxl = s.cxl ∧ (s.modMover m f).mxs = s.mxs ∧
    (s.modMover m f).gcores = s.gcores ∧ (s.modMover m f).mordant = s.mordant ∧ (s.modMover m f).update = s.update ∧
    (s.modMover m f).pki = s.pki ∧ (s.modMover m f).certs = s.certs ∧
    (s.modMover m f).hot = s.hot ∧ (s.modMover m f).banks = s.banks := by
  refine ⟨?_, ?_, ?_, ?_, ?_, ?_, ?_, ?_, ?_, ?_, ?_, ?_, ?_, ?_, ?_, ?_, ?_, ?_, ?_, ?_, ?_, ?_, ?_, ?_, ?_, ?_, ?_, ?_, ?_, ?_, ?_, ?_, ?_, ?_, ?_, ?_, ?_⟩ <;> rfl

@[simp] theorem modMx_mxs (s : State) (m : Nat) (f : MxCore → MxCore) : (s.modMx m f).mxs =
    aupd {} s.mxs m f := rfl

@[simp] theorem modMx_other (s : State) (m : Nat) (f : MxCore → MxCore) :
    (s.modMx m f).pending = s.pending ∧ (s.modMx m f).free = s.free ∧ (s.modMx m f).real = s.real ∧
    (s.modMx m f).regs = s.regs ∧ (s.modMx m f).latches = s.latches ∧ (s.modMx m f).mem = s.mem ∧
    (s.modMx m f).undef = s.undef ∧ (s.modMx m f).poison = s.poison ∧ (s.modMx m f).flags = s.flags ∧
    (s.modMx m f).fences = s.fences ∧ (s.modMx m f).fuse = s.fuse ∧ (s.modMx m f).ledger = s.ledger ∧
    (s.modMx m f).pins = s.pins ∧ (s.modMx m f).boot = s.boot ∧ (s.modMx m f).resets = s.resets ∧
    (s.modMx m f).time = s.time ∧ (s.modMx m f).parts = s.parts ∧ (s.modMx m f).sprue = s.sprue ∧
    (s.modMx m f).events = s.events ∧ (s.modMx m f).health = s.health ∧ (s.modMx m f).descs = s.descs ∧
    (s.modMx m f).ctrs = s.ctrs ∧ (s.modMx m f).hall = s.hall ∧ (s.modMx m f).runner = s.runner ∧
    (s.modMx m f).net = s.net ∧ (s.modMx m f).slices = s.slices ∧ (s.modMx m f).chans = s.chans ∧
    (s.modMx m f).wires = s.wires ∧ (s.modMx m f).cxl = s.cxl ∧ (s.modMx m f).movers = s.movers ∧
    (s.modMx m f).gcores = s.gcores ∧ (s.modMx m f).mordant = s.mordant ∧ (s.modMx m f).update = s.update ∧
    (s.modMx m f).pki = s.pki ∧ (s.modMx m f).certs = s.certs ∧
    (s.modMx m f).hot = s.hot ∧ (s.modMx m f).banks = s.banks := by
  refine ⟨?_, ?_, ?_, ?_, ?_, ?_, ?_, ?_, ?_, ?_, ?_, ?_, ?_, ?_, ?_, ?_, ?_, ?_, ?_, ?_, ?_, ?_, ?_, ?_, ?_, ?_, ?_, ?_, ?_, ?_, ?_, ?_, ?_, ?_, ?_, ?_, ?_⟩ <;> rfl

@[simp] theorem modGc_gcores (s : State) (g : Nat) (f : Gcore → Gcore) : (s.modGc g f).gcores =
    aupd {} s.gcores g f := rfl

@[simp] theorem modGc_other (s : State) (g : Nat) (f : Gcore → Gcore) :
    (s.modGc g f).pending = s.pending ∧ (s.modGc g f).free = s.free ∧ (s.modGc g f).real = s.real ∧
    (s.modGc g f).regs = s.regs ∧ (s.modGc g f).latches = s.latches ∧ (s.modGc g f).mem = s.mem ∧
    (s.modGc g f).undef = s.undef ∧ (s.modGc g f).poison = s.poison ∧ (s.modGc g f).flags = s.flags ∧
    (s.modGc g f).fences = s.fences ∧ (s.modGc g f).fuse = s.fuse ∧ (s.modGc g f).ledger = s.ledger ∧
    (s.modGc g f).pins = s.pins ∧ (s.modGc g f).boot = s.boot ∧ (s.modGc g f).resets = s.resets ∧
    (s.modGc g f).time = s.time ∧ (s.modGc g f).parts = s.parts ∧ (s.modGc g f).sprue = s.sprue ∧
    (s.modGc g f).events = s.events ∧ (s.modGc g f).health = s.health ∧ (s.modGc g f).descs = s.descs ∧
    (s.modGc g f).ctrs = s.ctrs ∧ (s.modGc g f).hall = s.hall ∧ (s.modGc g f).runner = s.runner ∧
    (s.modGc g f).net = s.net ∧ (s.modGc g f).slices = s.slices ∧ (s.modGc g f).chans = s.chans ∧
    (s.modGc g f).wires = s.wires ∧ (s.modGc g f).cxl = s.cxl ∧ (s.modGc g f).movers = s.movers ∧
    (s.modGc g f).mxs = s.mxs ∧ (s.modGc g f).mordant = s.mordant ∧ (s.modGc g f).update = s.update ∧
    (s.modGc g f).pki = s.pki ∧ (s.modGc g f).certs = s.certs ∧
    (s.modGc g f).hot = s.hot ∧ (s.modGc g f).banks = s.banks := by
  refine ⟨?_, ?_, ?_, ?_, ?_, ?_, ?_, ?_, ?_, ?_, ?_, ?_, ?_, ?_, ?_, ?_, ?_, ?_, ?_, ?_, ?_, ?_, ?_, ?_, ?_, ?_, ?_, ?_, ?_, ?_, ?_, ?_, ?_, ?_, ?_, ?_, ?_⟩ <;> rfl

@[simp] theorem setFlag_flags (s : State) (store index v : Nat) : (s.setFlag store index v).flags =
    aset 0 s.flags (store * 4096 + index) (v % 2 ^ 64) := rfl

@[simp] theorem setFlag_other (s : State) (store index v : Nat) :
    (s.setFlag store index v).pending = s.pending ∧ (s.setFlag store index v).free = s.free ∧
    (s.setFlag store index v).real = s.real ∧ (s.setFlag store index v).regs = s.regs ∧
    (s.setFlag store index v).latches = s.latches ∧ (s.setFlag store index v).mem = s.mem ∧
    (s.setFlag store index v).undef = s.undef ∧ (s.setFlag store index v).poison = s.poison ∧
    (s.setFlag store index v).fences = s.fences ∧ (s.setFlag store index v).fuse = s.fuse ∧
    (s.setFlag store index v).ledger = s.ledger ∧ (s.setFlag store index v).pins = s.pins ∧
    (s.setFlag store index v).boot = s.boot ∧ (s.setFlag store index v).resets = s.resets ∧
    (s.setFlag store index v).time = s.time ∧ (s.setFlag store index v).parts = s.parts ∧
    (s.setFlag store index v).sprue = s.sprue ∧ (s.setFlag store index v).events = s.events ∧
    (s.setFlag store index v).health = s.health ∧ (s.setFlag store index v).descs = s.descs ∧
    (s.setFlag store index v).ctrs = s.ctrs ∧ (s.setFlag store index v).hall = s.hall ∧
    (s.setFlag store index v).runner = s.runner ∧ (s.setFlag store index v).net = s.net ∧
    (s.setFlag store index v).slices = s.slices ∧ (s.setFlag store index v).chans = s.chans ∧
    (s.setFlag store index v).wires = s.wires ∧ (s.setFlag store index v).cxl = s.cxl ∧
    (s.setFlag store index v).movers = s.movers ∧ (s.setFlag store index v).mxs = s.mxs ∧
    (s.setFlag store index v).gcores = s.gcores ∧ (s.setFlag store index v).mordant = s.mordant ∧
    (s.setFlag store index v).update = s.update ∧ (s.setFlag store index v).pki = s.pki ∧
    (s.setFlag store index v).certs = s.certs ∧
    (s.setFlag store index v).hot = s.hot ∧ (s.setFlag store index v).banks = s.banks := by
  refine ⟨?_, ?_, ?_, ?_, ?_, ?_, ?_, ?_, ?_, ?_, ?_, ?_, ?_, ?_, ?_, ?_, ?_, ?_, ?_, ?_, ?_, ?_, ?_, ?_, ?_, ?_, ?_, ?_, ?_, ?_, ?_, ?_, ?_, ?_, ?_, ?_, ?_⟩ <;> rfl

@[simp] theorem setLatch_latches (s : State) (src pg o : Nat) (v : Option Nat) : (s.setLatch src pg o v).latches =
    aset 0 s.latches (latchKey src pg o) (match v with | some x => x + 1 | none => 0) := rfl

@[simp] theorem setLatch_other (s : State) (src pg o : Nat) (v : Option Nat) :
    (s.setLatch src pg o v).pending = s.pending ∧ (s.setLatch src pg o v).free = s.free ∧
    (s.setLatch src pg o v).real = s.real ∧ (s.setLatch src pg o v).regs = s.regs ∧
    (s.setLatch src pg o v).mem = s.mem ∧ (s.setLatch src pg o v).undef = s.undef ∧
    (s.setLatch src pg o v).poison = s.poison ∧ (s.setLatch src pg o v).flags = s.flags ∧
    (s.setLatch src pg o v).fences = s.fences ∧ (s.setLatch src pg o v).fuse = s.fuse ∧
    (s.setLatch src pg o v).ledger = s.ledger ∧ (s.setLatch src pg o v).pins = s.pins ∧
    (s.setLatch src pg o v).boot = s.boot ∧ (s.setLatch src pg o v).resets = s.resets ∧
    (s.setLatch src pg o v).time = s.time ∧ (s.setLatch src pg o v).parts = s.parts ∧
    (s.setLatch src pg o v).sprue = s.sprue ∧ (s.setLatch src pg o v).events = s.events ∧
    (s.setLatch src pg o v).health = s.health ∧ (s.setLatch src pg o v).descs = s.descs ∧
    (s.setLatch src pg o v).ctrs = s.ctrs ∧ (s.setLatch src pg o v).hall = s.hall ∧
    (s.setLatch src pg o v).runner = s.runner ∧ (s.setLatch src pg o v).net = s.net ∧
    (s.setLatch src pg o v).slices = s.slices ∧ (s.setLatch src pg o v).chans = s.chans ∧
    (s.setLatch src pg o v).wires = s.wires ∧ (s.setLatch src pg o v).cxl = s.cxl ∧
    (s.setLatch src pg o v).movers = s.movers ∧ (s.setLatch src pg o v).mxs = s.mxs ∧
    (s.setLatch src pg o v).gcores = s.gcores ∧ (s.setLatch src pg o v).mordant = s.mordant ∧
    (s.setLatch src pg o v).update = s.update ∧ (s.setLatch src pg o v).pki = s.pki ∧
    (s.setLatch src pg o v).certs = s.certs ∧
    (s.setLatch src pg o v).hot = s.hot ∧ (s.setLatch src pg o v).banks = s.banks := by
  refine ⟨?_, ?_, ?_, ?_, ?_, ?_, ?_, ?_, ?_, ?_, ?_, ?_, ?_, ?_, ?_, ?_, ?_, ?_, ?_, ?_, ?_, ?_, ?_, ?_, ?_, ?_, ?_, ?_, ?_, ?_, ?_, ?_, ?_, ?_, ?_, ?_, ?_⟩ <;> rfl

@[simp] theorem addReset_resets (s : State) (r : Reset) : (s.addReset r).resets =
    s.resets ++ [{ r with at_ := s.time.slots + 1 }] := rfl

@[simp] theorem addReset_other (s : State) (r : Reset) :
    (s.addReset r).pending = s.pending ∧ (s.addReset r).free = s.free ∧ (s.addReset r).real = s.real ∧
    (s.addReset r).regs = s.regs ∧ (s.addReset r).latches = s.latches ∧ (s.addReset r).mem = s.mem ∧
    (s.addReset r).undef = s.undef ∧ (s.addReset r).poison = s.poison ∧ (s.addReset r).flags = s.flags ∧
    (s.addReset r).fences = s.fences ∧ (s.addReset r).fuse = s.fuse ∧ (s.addReset r).ledger = s.ledger ∧
    (s.addReset r).pins = s.pins ∧ (s.addReset r).boot = s.boot ∧ (s.addReset r).time = s.time ∧
    (s.addReset r).parts = s.parts ∧ (s.addReset r).sprue = s.sprue ∧ (s.addReset r).events = s.events ∧
    (s.addReset r).health = s.health ∧ (s.addReset r).descs = s.descs ∧ (s.addReset r).ctrs = s.ctrs ∧
    (s.addReset r).hall = s.hall ∧ (s.addReset r).runner = s.runner ∧ (s.addReset r).net = s.net ∧
    (s.addReset r).slices = s.slices ∧ (s.addReset r).chans = s.chans ∧ (s.addReset r).wires = s.wires ∧
    (s.addReset r).cxl = s.cxl ∧ (s.addReset r).movers = s.movers ∧ (s.addReset r).mxs = s.mxs ∧
    (s.addReset r).gcores = s.gcores ∧ (s.addReset r).mordant = s.mordant ∧ (s.addReset r).update = s.update ∧
    (s.addReset r).pki = s.pki ∧ (s.addReset r).certs = s.certs ∧
    (s.addReset r).hot = s.hot ∧ (s.addReset r).banks = s.banks := by
  refine ⟨?_, ?_, ?_, ?_, ?_, ?_, ?_, ?_, ?_, ?_, ?_, ?_, ?_, ?_, ?_, ?_, ?_, ?_, ?_, ?_, ?_, ?_, ?_, ?_, ?_, ?_, ?_, ?_, ?_, ?_, ?_, ?_, ?_, ?_, ?_, ?_, ?_⟩ <;> rfl

end Sys2Proof.Machine
end

