-- ==== Sys2Proof/Laws/Regs.lean ====
section
/-!
SUPPORT. Laws/Regs.lean: the laws of the register-field store: a read after a write, other fields and other pages.
-/

namespace Sys2Proof.Machine

open Sys2Proof

/-- A field reads as it was written, cut to its width. -/
@[simp] theorem rd_wr_same (s : State) (pg : Nat) (F : Fld) (v i : Nat) : (s.wr pg F v i).rd pg F i = v % 2 ^ F.width :=
  aget_aset_same ..

/-- A write leaves every other key alone, whatever default it is read with. -/
theorem aget_wr_other (s : State) (pg : Nat) (F : Fld) (v i d : Nat) {k : Nat} (h : k ≠ fkey pg F i) :
    aget d (s.wr pg F v i).regs k = aget d s.regs k := aget_aset_other' _ _ _ _ h

/-- A write leaves every other field alone. -/
theorem rd_wr_other (s : State) (pg : Nat) (F : Fld) (v i : Nat) {pg' : Nat} {F' : Fld} {i' : Nat}
    (h : fkey pg' F' i' ≠ fkey pg F i) : (s.wr pg F v i).rd pg' F' i' = s.rd pg' F' i' :=
  aget_wr_other s pg F v i _ h

/-- The page of a key. -/
theorem fkey_page (pg : Nat) (F : Fld) (i : Nat) (ha : F.at i < 4096) (hl : F.lo < 32) :
    fkey pg F i / 131072 = pg := by
  simp only [fkey]; omega

/-- The offset of a key on its page. -/
theorem fkey_off (pg : Nat) (F : Fld) (i : Nat) (ha : F.at i < 4096) (hl : F.lo < 32) :
    fkey pg F i / 32 % 4096 = F.at i := by
  simp only [fkey]; omega

/-- Fields of different pages are different keys. -/
theorem fkey_pages {pg pg' : Nat} (F F' : Fld) (i i' : Nat) (h : pg ≠ pg') (ha : F.at i < 4096) (hl : F.lo < 32)
    (ha' : F'.at i' < 4096) (hl' : F'.lo < 32) : fkey pg F i ≠ fkey pg' F' i' := by
  intro he
  have := fkey_page pg F i ha hl
  rw [he, fkey_page pg' F' i' ha' hl'] at this
  exact h this.symm

/-- Fields at different places of one page are different keys. -/
theorem fkey_fields (pg : Nat) (F F' : Fld) (i i' : Nat) (hl : F.lo < 32) (hl' : F'.lo < 32)
    (h : F.at i ≠ F'.at i' ∨ F.lo ≠ F'.lo) : fkey pg F i ≠ fkey pg F' i' := by
  simp only [fkey]; omega

@[simp] theorem rd_modPart (s : State) (p : Nat) (f : Part → Part) (pg : Nat) (F : Fld) (i : Nat) :
    (s.modPart p f).rd pg F i = s.rd pg F i := rfl

/-- The registers are all a field read depends on. -/
theorem rd_congr {s t : State} (h : t.regs = s.regs) (pg : Nat) (F : Fld) (i : Nat) : t.rd pg F i = s.rd pg F i := by
  simp only [State.rd, h]

/-- A note changes what no field reads as. -/
@[simp] theorem rd_note (s : State) (pg : Nat) (F : Fld) (v i : Nat) (pg' : Nat) (F' : Fld) (i' : Nat) :
    (s.note pg F v i).rd pg' F' i' = s.rd pg' F' i' := rfl

/-- Hardware's setting of bits is a write to what fields read as. -/
theorem rd_hwSet_same (s : State) (pg : Nat) (F : Fld) (b i : Nat) :
    (s.hwSet pg F b i).rd pg F i = (s.rd pg F i ||| b) % 2 ^ F.width := by
  simp only [State.hwSet, rd_wr_same]

theorem rd_hwSet_other (s : State) (pg : Nat) (F : Fld) (b i : Nat) {pg' : Nat} {F' : Fld} {i' : Nat}
    (h : fkey pg' F' i' ≠ fkey pg F i) : (s.hwSet pg F b i).rd pg' F' i' = s.rd pg' F' i' := by
  simp only [State.hwSet, rd_wr_other _ _ _ _ _ h, rd_note]

theorem rd_bump_same (s : State) (pg : Nat) (F : Fld) (n i : Nat) :
    (s.bump pg F n i).rd pg F i = min (s.rd pg F i + n) (2 ^ F.width - 1) := by
  have h : min (s.rd pg F i + n) (2 ^ F.width - 1) % 2 ^ F.width = min (s.rd pg F i + n) (2 ^ F.width - 1) :=
    Nat.mod_eq_of_lt (by have := Nat.two_pow_pos F.width; omega)
  simp only [State.bump]
  split <;> simp only [rd_wr_same, h]

theorem rd_bump_other (s : State) (pg : Nat) (F : Fld) (n i : Nat) {pg' : Nat} {F' : Fld} {i' : Nat}
    (h : fkey pg' F' i' ≠ fkey pg F i) : (s.bump pg F n i).rd pg' F' i' = s.rd pg' F' i' := by
  simp only [State.bump]
  split <;> simp only [rd_wr_other _ _ _ _ _ h, rd_note]

/-- A list of writes leaves every key alone that none of them writes. -/
theorem aget_wrs_other (s : State) (pg : Nat) (l : List (Fld × Nat)) (i d : Nat) {k : Nat}
    (h : ∀ e ∈ l, k ≠ fkey pg e.1 i) : aget d (s.wrs pg l i).regs k = aget d s.regs k := by
  induction l generalizing s with
  | nil => rfl
  | cons e l ih =>
    have h1 := ih (s.wr pg e.1 e.2 i) (fun x hx => h x (List.mem_cons_of_mem _ hx))
    simp only [State.wrs, List.foldl_cons] at h1 ⊢
    rw [h1, aget_wr_other s pg e.1 e.2 i d (h e (by simp))]

end Sys2Proof.Machine
end

