-- ==== Sys2Proof/Laws/Events.lean ====
section
/-!
SUPPORT. Laws/Events.lean: what raising an event can change. `raise` touches the components of `evented` only, and of the
registers only page headers, the states of the Runner and CXL ports, and EV_LOST: every other key is as it was.
-/

namespace Sys2Proof.Machine

open Sys2Proof

/-! ### Agreement in all but some components -/

theorem Comp.same_refl (k : Comp) (s : State) : k.same s s := by
  cases k <;> first | rfl | exact ⟨rfl, rfl⟩

theorem Comp.same_trans {k : Comp} {s t u : State} (h1 : k.same s t) (h2 : k.same t u) : k.same s u := by
  cases k <;> first | exact Eq.trans h2 h1 | exact ⟨h2.1.trans h1.1, h2.2.trans h1.2⟩

theorem sameBut_refl (l : List Comp) (s : State) : s.sameBut l s := fun k _ => k.same_refl s

theorem sameBut_trans {l : List Comp} {s t u : State} (h1 : s.sameBut l t) (h2 : t.sameBut l u) : s.sameBut l u :=
  fun k hk => Comp.same_trans (h1 k hk) (h2 k hk)

theorem sameBut_mono {l l' : List Comp} {s t : State} (h : s.sameBut l t) (hl : ∀ k ∈ l, k ∈ l') : s.sameBut l' t :=
  fun k hk => h k fun hm => hk (hl k hm)

theorem sameBut_foldl {β : Type} {l : List Comp} (f : State → β → State) (hf : ∀ (s : State) b, s.sameBut l (f s b)) (bs : List β)
    (s : State) : s.sameBut l (bs.foldl f s) := by
  induction bs generalizing s with
  | nil => exact sameBut_refl l s
  | cons b bs ih => exact sameBut_trans (hf s b) (ih _)

/-- A command's answer differs from its start in the listed components only. -/
theorem sameBut_only (l : List Comp) (s t : State) : s.sameBut l (s.only l t) := by
  intro k hk
  have hc : l.contains k = false := by simpa using hk
  cases k <;> simp [Comp.same, hk]

theorem sameBut_wr (s : State) (pg : Nat) (F : Fld) (v i : Nat) : s.sameBut [.regs] (s.wr pg F v i) := by
  intro k hk
  cases k <;> first | exact absurd (by decide) hk | rfl

theorem sameBut_wrs (s : State) (pg : Nat) (l : List (Fld × Nat)) (i : Nat) : s.sameBut [.regs] (s.wrs pg l i) :=
  sameBut_foldl (l := [.regs]) (fun s (e : Fld × Nat) => s.wr pg e.1 e.2 i) (fun s e => sameBut_wr s pg e.1 e.2 i) l s

theorem sameBut_note (s : State) (pg : Nat) (F : Fld) (v i : Nat) : s.sameBut [.regs] (s.note pg F v i) := by
  intro k hk
  cases k <;> first | exact absurd (by decide) hk | rfl

theorem sameBut_hwSet (s : State) (pg : Nat) (F : Fld) (b i : Nat) : s.sameBut [.regs] (s.hwSet pg F b i) :=
  sameBut_trans (sameBut_note _ _ _ _ _) (sameBut_wr _ _ _ _ _)

theorem sameBut_bump (s : State) (pg : Nat) (F : Fld) (n i : Nat) : s.sameBut [.regs] (s.bump pg F n i) := by
  simp only [State.bump]
  split
  · exact sameBut_trans (sameBut_note _ _ _ _ _) (sameBut_wr _ _ _ _ _)
  · exact sameBut_wr _ _ _ _ _

/-! ### The registers an event leaves alone -/

/-- Keys that no event writes: outside the page headers, and neither a Runner or CXL port's state nor EV_LOST. -/
def quietKey (k : Nat) : Prop :=
  44 ≤ k / 32 % 4096 ∧ (∀ q, q < 24 → k ≠ fkey (pgRunner q) RN_PSTAT_STATE 0) ∧
    (∀ x, x < 2 → k ≠ fkey (pgCxl x) CX_STATUS_STATE 0) ∧ k ≠ fkey pgEv EV_LOST_COUNT 0

/-- Two states hold the same in every quiet register key. -/
def quietSame (s t : State) : Prop := ∀ k d, quietKey k → aget d t.regs k = aget d s.regs k

theorem quietSame_refl (s : State) : quietSame s s := fun _ _ _ => rfl

theorem quietSame_trans {s t u : State} (h1 : quietSame s t) (h2 : quietSame t u) : quietSame s u :=
  fun k d hk => (h2 k d hk).trans (h1 k d hk)

theorem quietSame_of_regs {s t : State} (h : t.regs = s.regs) : quietSame s t := fun _ _ _ => by rw [h]

theorem quietSame_foldl {β : Type} (f : State → β → State) (bs : List β) (hf : ∀ s b, b ∈ bs → quietSame s (f s b))
    (s : State) : quietSame s (bs.foldl f s) := by
  induction bs generalizing s with
  | nil => exact quietSame_refl s
  | cons b bs ih =>
    exact quietSame_trans (hf s b (by simp)) (ih (fun s c hc => hf s c (List.mem_cons_of_mem _ hc)) _)

/-- A write of a page header field is loud. -/
theorem quietSame_wr_header (s : State) (pg : Nat) (F : Fld) (v : Nat) (ha : F.at 0 < 44) (hl : F.lo < 32) :
    quietSame s (s.wr pg F v) := by
  intro k d hk
  refine aget_wr_other s pg F v 0 d fun he => ?_
  have h1 := hk.1
  rw [he, fkey_off pg F 0 (by omega) hl] at h1
  omega

theorem quietSame_wr_loud (s : State) (pg : Nat) (F : Fld) (v : Nat) (h : ∀ k, quietKey k → k ≠ fkey pg F 0) :
    quietSame s (s.wr pg F v) := fun k d hk => aget_wr_other s pg F v 0 d (h k hk)

/-- A quiet field reads as before. -/
theorem rd_quiet {s t : State} (h : quietSame s t) (pg : Nat) (F : Fld) (i : Nat) (hk : quietKey (fkey pg F i)) :
    t.rd pg F i = s.rd pg F i := h _ _ hk

/-! ### The parts of raising -/

/-- Both facts together: the components of `evented` alone, and quiet keys as they were. -/
def eventOnly (s t : State) : Prop := s.sameBut evented t ∧ quietSame s t

theorem eventOnly_refl (s : State) : eventOnly s s := ⟨sameBut_refl _ s, quietSame_refl s⟩

theorem eventOnly_trans {s t u : State} (h1 : eventOnly s t) (h2 : eventOnly t u) : eventOnly s u :=
  ⟨sameBut_trans h1.1 h2.1, quietSame_trans h1.2 h2.2⟩

theorem eventOnly_foldl {β : Type} (f : State → β → State) (bs : List β) (hf : ∀ s b, b ∈ bs → eventOnly s (f s b))
    (s : State) : eventOnly s (bs.foldl f s) := by
  induction bs generalizing s with
  | nil => exact eventOnly_refl s
  | cons b bs ih =>
    exact eventOnly_trans (hf s b (by simp)) (ih (fun s c hc => hf s c (List.mem_cons_of_mem _ hc)) _)

theorem eventOnly_header (s : State) (pg : Nat) (F : Fld) (v : Nat) (ha : F.at 0 < 44) (hl : F.lo < 32) :
    eventOnly s (s.wr pg F v) :=
  ⟨sameBut_mono (sameBut_wr _ _ _ _ _) (by decide), quietSame_wr_header s pg F v ha hl⟩

theorem eventOnly_hwSet {s t : State} (h : eventOnly s t) (pg : Nat) (F : Fld) (b : Nat) (ha : F.at 0 < 44) (hl : F.lo < 32) :
    eventOnly s (t.hwSet pg F b) :=
  eventOnly_trans h ⟨sameBut_mono (sameBut_hwSet _ _ _ _ _) (by decide),
    quietSame_trans (quietSame_of_regs (t := t.note ..) rfl) (quietSame_wr_header (t.note ..) pg F _ ha hl)⟩

theorem quietSame_bump_loud (s : State) (pg : Nat) (F : Fld) (n : Nat) (h : ∀ k, quietKey k → k ≠ fkey pg F 0) :
    quietSame s (s.bump pg F n) := by
  simp only [State.bump]
  split
  · exact quietSame_wr_loud (s.note ..) pg F _ h
  · exact quietSame_wr_loud s pg F _ h

theorem eventOnly_bump {s t : State} (h : eventOnly s t) (pg : Nat) (F : Fld) (n : Nat) (ha : F.at 0 < 44) (hl : F.lo < 32) :
    eventOnly s (t.bump pg F n) := by
  refine eventOnly_trans h ⟨sameBut_mono (sameBut_bump _ _ _ _ _) (by decide), quietSame_bump_loud t pg F n fun k hk he => ?_⟩
  have h1 := hk.1
  rw [he, fkey_off pg F 0 (by omega) hl] at h1
  omega

theorem eventOnly_then_header {s t : State} (h : eventOnly s t) (pg : Nat) (F : Fld) (v : Nat) (ha : F.at 0 < 44)
    (hl : F.lo < 32) : eventOnly s (t.wr pg F v) := eventOnly_trans h (eventOnly_header t pg F v ha hl)

theorem eventOnly_other {s t : State} (h1 : s.sameBut [.free, .pins, .parts, .events, .movers, .mxs, .mordant] t) :
    eventOnly s t :=
  ⟨sameBut_mono h1 (by decide), quietSame_of_regs (h1 .regs (by decide)).1⟩

theorem losePart_eventOnly (s : State) (p : Nat) : eventOnly s (s.losePart p) :=
  eventOnly_other fun k hk => by cases k <;> first | exact absurd (by decide) hk | rfl | exact ⟨rfl, rfl⟩

theorem portsDown_eventOnly (s : State) : eventOnly s s.portsDown := by
  refine eventOnly_trans (eventOnly_foldl _ _ (fun s q hq => ?_) s) (eventOnly_foldl _ _ (fun s x hx => ?_) _)
  · exact ⟨sameBut_mono (sameBut_wr _ _ _ _ _) (by decide),
      quietSame_wr_loud _ _ _ _ fun k hk => hk.2.1 q (List.mem_range.mp hq)⟩
  · exact ⟨sameBut_mono (sameBut_wr _ _ _ _ _) (by decide),
      quietSame_wr_loud _ _ _ _ fun k hk => hk.2.2.1 x (List.mem_range.mp hx)⟩

theorem gate_eventOnly (s : State) : eventOnly s { s with pins := { s.pins with gated := true } } :=
  eventOnly_other fun k hk => by cases k <;> first | exact absurd (by decide) hk | rfl | exact ⟨rfl, rfl⟩

theorem lampblack_eventOnly (s : State) : eventOnly s s.lampblack :=
  eventOnly_trans (eventOnly_foldl State.losePart s.partList (fun s p _ => losePart_eventOnly s p) s)
    (eventOnly_trans (portsDown_eventOnly _) (gate_eventOnly _))

theorem halt_eventOnly (s : State) (pg : Nat) : eventOnly s (s.halt pg) := by
  refine eventOnly_other fun k hk => ?_
  simp only [State.halt]
  split <;> (cases k <;> first | exact absurd (by decide) hk | rfl | exact ⟨rfl, rfl⟩)

theorem fenceOne_eventOnly (s : State) (pg : Nat) : eventOnly s (s.fenceOne pg) := by
  simp only [State.fenceOne]
  split
  · refine eventOnly_trans ?_ (halt_eventOnly _ pg)
    refine eventOnly_then_header ?_ pg _ _ (by decide) (by decide)
    exact eventOnly_header s pg _ _ (by decide) (by decide)
  · exact eventOnly_refl s

theorem fenceUnit_eventOnly (s : State) (pg : Nat) : eventOnly s (s.fenceUnit pg) := by
  simp only [State.fenceUnit]
  split
  · exact eventOnly_foldl _ _ (fun s p _ => fenceOne_eventOnly s p) s
  · exact fenceOne_eventOnly s pg

theorem act_eventOnly (s : State) (pg sev : Nat) (named : Bool) : eventOnly s (s.act pg sev named) := by
  unfold State.act
  split
  · exact eventOnly_refl s
  · split
    · exact eventOnly_refl s
    · exact fenceUnit_eventOnly s pg
  · split
    · exact eventOnly_refl s
    · split
      · exact losePart_eventOnly ..
      · exact eventOnly_foldl _ _ (fun s p _ => losePart_eventOnly s p) s
  · exact lampblack_eventOnly s

theorem setQueue_eventOnly (s : State) (pg : Nat) (q : List EvRec) : eventOnly s (s.setQueue pg q) :=
  eventOnly_other fun k hk => by cases k <;> first | exact absurd (by decide) hk | rfl | exact ⟨rfl, rfl⟩

theorem await_eventOnly (s : State) (r : EvRec) : eventOnly s (s.await r) := by
  simp only [State.await]
  split
  · exact eventOnly_refl s
  · exact eventOnly_other fun k hk => by cases k <;> first | exact absurd (by decide) hk | rfl | exact ⟨rfl, rfl⟩

theorem partRing_eventOnly (s : State) (r : EvRec) : eventOnly s (s.partRing r) := by
  simp only [State.partRing]
  split
  · split
    · exact eventOnly_other fun k hk => by cases k <;> first | exact absurd (by decide) hk | rfl | exact ⟨rfl, rfl⟩
    · exact eventOnly_refl s
  · exact eventOnly_refl s

theorem deliver_eventOnly (s : State) (pg : Nat) : eventOnly s (s.deliver pg) := by
  simp only [State.deliver]
  split
  · exact eventOnly_refl s
  · have h : eventOnly s ((s.queue pg).foldl State.delivered (s.setQueue pg [])) :=
      eventOnly_trans (setQueue_eventOnly s pg [])
        (eventOnly_foldl _ _ (fun s r _ => eventOnly_trans (partRing_eventOnly s r) (await_eventOnly _ r)) _)
    split
    · refine eventOnly_trans h ⟨sameBut_mono (sameBut_bump _ _ _ _ _) (by decide), ?_⟩
      exact quietSame_bump_loud _ _ _ _ fun k hk => hk.2.2.2
    · exact h

theorem evHeader_eventOnly (s : State) (pg code sev : Nat) (esc : Bool) : eventOnly s (s.evHeader pg code sev esc) := by
  have wrs_header : ∀ (t : State) (l : List (Fld × Nat)), (∀ e ∈ l, e.1.at 0 < 44 ∧ e.1.lo < 32) → eventOnly t (t.wrs pg l) := by
    intro t l hl
    exact eventOnly_foldl _ _ (fun s e he => eventOnly_header s pg e.1 e.2 (hl e he).1 (hl e he).2) t
  have hsev : (sevField sev).at 0 < 44 ∧ (sevField sev).lo < 32 := by
    unfold sevField; split <;> decide
  simp only [State.evHeader]
  refine eventOnly_trans ?_ (eventOnly_header _ pg _ _ (by decide) (by decide))
  have h2 : ∀ t : State, eventOnly t
      ((((t.hwSet pg (sevField sev)).bump pg ERR_CNT_EVENTS)).wrs pg [(ERR_LAST_CODE, code), (ERR_LAST_SEV, sev), (ERR_LAST_VALID, 1)]) := by
    intro t
    refine eventOnly_trans ?_ (wrs_header _ _ (by simp [ERR_LAST_CODE, ERR_LAST_SEV, ERR_LAST_VALID, Fld.at]))
    exact eventOnly_bump (eventOnly_hwSet (eventOnly_refl t) pg _ _ hsev.1 hsev.2) pg ERR_CNT_EVENTS _ (by decide) (by decide)
  have h0 : eventOnly s (if s.evQuiet pg then s.wrs pg [(ERR_FIRST_CODE, code), (ERR_FIRST_SEV, sev), (ERR_FIRST_VALID, 1)] else s) := by
    split
    · exact wrs_header _ _ (by simp [ERR_FIRST_CODE, ERR_FIRST_SEV, ERR_FIRST_VALID, Fld.at])
    · exact eventOnly_refl s
  split
  · exact eventOnly_hwSet (eventOnly_trans h0 (h2 _)) pg _ _ (by decide) (by decide)
  · exact eventOnly_trans h0 (h2 _)

/-- Everything raising an event can do. -/
theorem raiseAt_eventOnly (s : State) (pg code sev : Nat) (named : Bool) (info : Bytes) :
    eventOnly s (s.raiseAt pg code sev named info) := by
  have sev' : ∀ n, (sevField n).at 0 < 44 ∧ (sevField n).lo < 32 := by
    intro n; unfold sevField; split <;> decide
  simp only [State.raiseAt]
  generalize (if decide (sev = 1 ∧ s.rd pg PAGE_STAT_LEVEL = 1) = true then 2 else sev) = sv
  have h1 := evHeader_eventOnly s pg code sv (decide (sev = 1 ∧ s.rd pg PAGE_STAT_LEVEL = 1))
  split
  · exact h1
  · split
    · exact eventOnly_trans h1 (eventOnly_trans (setQueue_eventOnly ..) (eventOnly_trans (deliver_eventOnly ..) (act_eventOnly ..)))
    · split
      · exact eventOnly_trans h1 (eventOnly_trans (setQueue_eventOnly ..) (eventOnly_trans (deliver_eventOnly ..) (act_eventOnly ..)))
      · refine eventOnly_trans ?_ (act_eventOnly _ _ _ _)
        refine eventOnly_trans ?_ (deliver_eventOnly _ _)
        refine eventOnly_then_header ?_ pg _ _ (by decide) (by decide)
        refine eventOnly_hwSet ?_ pg _ _ (sev' _).1 (sev' _).2
        refine eventOnly_hwSet ?_ pg _ _ (by decide) (by decide)
        refine eventOnly_hwSet ?_ pg _ _ (by decide) (by decide)
        exact eventOnly_trans h1 (setQueue_eventOnly _ _ _)

theorem raise_eventOnly (s : State) (pg : Nat) (k : EvKind) (info : Bytes) : eventOnly s (s.raise pg k info) :=
  raiseAt_eventOnly ..

/-- A quiet field reads as before an event. -/
theorem rd_raise (s : State) (pg : Nat) (k : EvKind) (info : Bytes) (pg' : Nat) (F : Fld) (i : Nat)
    (h : quietKey (fkey pg' F i)) : (s.raise pg k info).rd pg' F i = s.rd pg' F i :=
  rd_quiet (raise_eventOnly ..).2 _ _ _ h

/-- A component outside `evented` is as before an event. -/
theorem raise_same (s : State) (pg : Nat) (k : EvKind) (info : Bytes) (c : Comp) (h : c ∉ evented) :
    c.same s (s.raise pg k info) := (raise_eventOnly ..).1 c h

/-- What an event leaves alone, field by field. -/
@[simp] theorem raise_other (s : State) (pg : Nat) (k : EvKind) (info : Bytes) :
    (s.raise pg k info).mem = s.mem ∧ (s.raise pg k info).undef = s.undef ∧ (s.raise pg k info).poison = s.poison ∧
    (s.raise pg k info).flags = s.flags ∧ (s.raise pg k info).fences = s.fences ∧ (s.raise pg k info).fuse = s.fuse ∧
    (s.raise pg k info).ledger = s.ledger ∧ (s.raise pg k info).boot = s.boot ∧ (s.raise pg k info).resets = s.resets ∧
    (s.raise pg k info).time = s.time ∧ (s.raise pg k info).sprue = s.sprue ∧ (s.raise pg k info).health = s.health ∧
    (s.raise pg k info).descs = s.descs ∧ (s.raise pg k info).ctrs = s.ctrs ∧ (s.raise pg k info).hall = s.hall ∧
    (s.raise pg k info).runner = s.runner ∧ (s.raise pg k info).net = s.net ∧ (s.raise pg k info).slices = s.slices ∧
    (s.raise pg k info).chans = s.chans ∧ (s.raise pg k info).wires = s.wires ∧ (s.raise pg k info).cxl = s.cxl ∧
    (s.raise pg k info).gcores = s.gcores ∧ (s.raise pg k info).update = s.update ∧
    (s.raise pg k info).latches = s.latches := by
  have h := fun c hc => raise_same s pg k info c hc
  exact ⟨h .mem (by decide), h .undef (by decide), h .poison (by decide), h .flags (by decide), h .fences (by decide),
    h .fuse (by decide), h .ledger (by decide), h .boot (by decide), h .resets (by decide), h .time (by decide),
    h .sprue (by decide), h .health (by decide), h .descs (by decide), h .ctrs (by decide), h .hall (by decide),
    h .runner (by decide), h .net (by decide), h .slices (by decide), h .chans (by decide), h .wires (by decide),
    h .cxl (by decide), h .gcores (by decide), h .update (by decide), h .latches (by decide)⟩

end Sys2Proof.Machine
end

