-- ==== Sys2Proof/Laws/Intake.lean ====
section
/-!
SUPPORT. Laws/Intake.lean: what completing a command does: its RSP is kept under its CMD_ID, and only the components of
`answered` can change.
-/

namespace Sys2Proof.Machine

open Sys2Proof

theorem find_remember (m : List (Nat × Option TxFrame)) (id : Nat) (r : Option TxFrame) :
    (remember m id r).find? (fun e => decide (e.1 = id)) = some (id, r) := by
  simp only [remember]
  split
  · rename_i h
    induction m with
    | nil => simp at h
    | cons e m ih =>
      rw [List.map_cons, List.find?_cons]
      by_cases he : e.1 = id
      · simp [he]
      · simp only [he, if_false, decide_false]
        exact ih (by simpa [he] using h)
  · simp

theorem sendTx_memory (s : State) (f : TxFrame) : (s.sendTx f).sprue.memory = s.sprue.memory := by
  simp only [State.sendTx]
  split <;> rfl

theorem relayAnswer_sprue (s : State) (id st : Nat) : (s.relayAnswer id st).sprue = s.sprue := by
  simp only [State.relayAnswer]
  split <;> rfl

/-- A completed command's RSP is kept (R454). -/
theorem complete_completed (s : State) (op : Nat) (c : Cmd) (st : Nat) (d : Bytes) :
    s.completed (s.complete op c st d) op c st d := by
  have h : ∀ t : State, t.sprue.memory = (s.closeCmd c.id (some (.rsp c.id op st s.time.ticks c.part d))).sprue.memory →
      s.completed t op c st d := by
    intro t ht
    simp [State.completed, State.rspOf, ht, find_remember]
  simp only [State.complete, Option.getD_none]
  split
  · exact h _ (by rw [relayAnswer_sprue, sendTx_memory])
  · exact h _ (by rw [(raise_other _ _ _ _).2.2.2.2.2.2.2.2.2.2.1, relayAnswer_sprue, sendTx_memory])

theorem sameBut_complete (s : State) (op : Nat) (c : Cmd) (st : Nat) (d : Bytes) (a : Option Nat := none) :
    s.sameBut answered (s.complete op c st d a) := by
  have h1 : s.sameBut answered (s.closeCmd c.id (some (.rsp c.id op st (a.getD s.time.ticks) c.part d))) :=
    fun k hk => by cases k <;> first | exact absurd (by decide) hk | rfl
  have h2 : ∀ (t : State) f, t.sameBut answered (t.sendTx f) := by
    intro t f
    simp only [State.sendTx]
    split
    · exact fun k hk => by cases k <;> first | exact absurd (by decide) hk | rfl
    · exact sameBut_mono (sameBut_bump _ _ _ _ _) (by decide)
  have h3 : ∀ (t : State) id n, t.sameBut answered (t.relayAnswer id n) := by
    intro t id n
    simp only [State.relayAnswer]
    split
    · exact sameBut_refl _ t
    · exact fun k hk => by cases k <;> first | exact absurd (by decide) hk | rfl
  simp only [State.complete]
  have h := sameBut_trans h1 (sameBut_trans (h2 _ (.rsp c.id op st (a.getD s.time.ticks) c.part d)) (h3 _ c.id st))
  split
  · exact h
  · exact sameBut_trans h (sameBut_mono (raise_eventOnly _ _ _ _).1 (by decide))

theorem sameBut_completeLate (s : State) (op : Nat) (c : Cmd) (d : Bytes) : s.sameBut answered (s.completeLate op c d) :=
  sameBut_complete s op c 0 d _

/-- A command that completes late has its RSP kept, with the time at which it acted (R451, R454). -/
theorem completeLate_completed (s : State) (op : Nat) (c : Cmd) (d : Bytes) :
    s.completedLate (s.completeLate op c d) op c d := by
  have h : (s.completeLate op c d).sprue.memory =
      (s.closeCmd c.id (some (.rsp c.id op 0 ((s.actedAt c.id).getD s.time.ticks) c.part d))).sprue.memory := by
    simp only [State.completeLate, State.complete, if_true]
    rw [relayAnswer_sprue, sendTx_memory]
  simp [State.completedLate, State.rspOf, h, find_remember]

/-- A command that has its turn, with a valid PART and no ground for refusal, acts and completes OK. -/
theorem actIf_ok (s : State) (op : Nat) (c : Cmd) (eff : State → State) (d : Bytes) (hp : s.partOk op c = true) :
    s.actIf true op c 0 eff d = (eff s).complete op c 0 d := by
  simp [State.actIf, hp]

theorem act1_ok (s : State) (op : Nat) (c : Cmd) (eff : State → State) (d : Bytes) (ht : s.turn c = true)
    (hp : s.partOk op c = true) : s.act1 op c 0 eff d = (eff s).complete op c 0 d := by
  simp [State.act1, ht, actIf_ok, hp]

/-- A command in its turn that a check refuses completes with that status and has no other effect. -/
theorem act1_refused (s : State) (op : Nat) (c : Cmd) (st : Nat) (eff : State → State) (d : Bytes) (ht : s.turn c = true)
    (hp : s.partOk op c = true) (hs : st ≠ 0) : s.act1 op c st eff d = s.complete op c st := by
  simp [State.act1, State.actIf, ht, hp, hs]

/-- Completing a command OK raises no event: only the Sprue port, the relay's records and the drop count change. -/
theorem complete_ok_rd (s : State) (op : Nat) (c : Cmd) (d : Bytes) (pg : Nat) (F : Fld) (i : Nat)
    (h : fkey pg F i ≠ fkey pgSprue SP_TXQ_DROPPED 0) : (s.complete op c 0 d).rd pg F i = s.rd pg F i := by
  have hr : ∀ (t : State) id n, (t.relayAnswer id n).regs = t.regs := by
    intro t id n; simp only [State.relayAnswer]; split <;> rfl
  have hs : ∀ (t : State) f, (t.sendTx f).rd pg F i = t.rd pg F i := by
    intro t f; simp only [State.sendTx]; split
    · rfl
    · exact rd_bump_other t _ _ _ _ h
  simp only [State.complete, if_true]
  rw [rd_congr (hr _ _ _), hs]
  rfl

end Sys2Proof.Machine
end

