-- ==== Sys2Proof/Laws/Line.lean ====
section
/-!
SUPPORT. Laws/Line.lean: a receiver of a stuffed line gives back what its sender stuffed (R373).
-/

namespace Sys2Proof.Laws

open Sys2Proof Sys2Proof.Machine

/-- A symbol makes a run of 31 only from one of 30. -/
theorem next_count (r : LineRun) (l : Nat) (h : r.count < 31) : (r.next l).count ≤ 31 := by
  unfold LineRun.next
  split
  · simp; omega
  · simp

/-- The level of the run after a symbol is the symbol's. -/
theorem next_level (r : LineRun) (l : Nat) : (r.next l).level = l := by
  unfold LineRun.next
  split <;> simp_all

/-- What the sender stuffs, a receiver in the same run takes out again, and finds every removed symbol of the expected level. -/
theorem unstuff_stuff (pam : Bool) (r : LineRun) (ls : List Nat) (h : r.count < 31) :
    (unstuff pam r (stuff pam r ls).1).kept = ls ∧ (unstuff pam r (stuff pam r ls).1).wrong = 0 := by
  induction ls generalizing r with
  | nil => simp [stuff, unstuff]
  | cons l ls ih =>
    have hc : r.count ≠ 31 := by omega
    have hn := next_count r l h
    by_cases h31 : (r.next l).count = 31
    · have := ih { r.next l with level := stuffLevel pam l, count := 1 } (by simp)
      simp [stuff, unstuff, h31, hc, next_level, this.1, this.2]
    · have := ih (r.next l) (by omega)
      simp [stuff, unstuff, h31, hc, this.1, this.2]

end Sys2Proof.Laws
end

