-- ==== Sys2Proof/Laws/Mem.lean ====
section
/-!
SUPPORT. Laws/Mem.lean: the laws of local memory: a read after a store gives the byte stored and every other byte as it
was, and every memory operation keeps the canonical form.
-/

namespace Sys2Proof.Machine

open Sys2Proof

theorem cellAt_adel_same (m : List (Nat × Byte)) (a : Nat) : cellAt (adel a m) a = none := by
  induction m with
  | nil => rfl
  | cons e m ih =>
    simp only [adel]
    split
    · exact ih
    · simp_all [cellAt]

theorem cellAt_adel_other (m : List (Nat × Byte)) {a b : Nat} (h : b ≠ a) : cellAt (adel a m) b = cellAt m b := by
  induction m with
  | nil => rfl
  | cons e m ih =>
    simp only [adel, cellAt]
    split
    · subst a; rw [ih, if_neg h]
    · simp only [cellAt, ih]

theorem cellAt_ains_same (m : List (Nat × Byte)) (a : Nat) (v : Byte) : cellAt (ains a v m) a = some v := by
  induction m with
  | nil => simp [ains, cellAt]
  | cons e m ih =>
    simp only [ains]
    split
    · simp [cellAt]
    · split
      · simp [cellAt]
      · simp_all [cellAt]

theorem cellAt_ains_other (m : List (Nat × Byte)) (v : Byte) {a b : Nat} (h : b ≠ a) :
    cellAt (ains a v m) b = cellAt m b := by
  induction m with
  | nil => simp [ains, cellAt, h]
  | cons e m ih =>
    simp only [ains]
    split
    · simp [cellAt, h]
    · split
      · subst a; simp [cellAt, h]
      · simp only [cellAt, ih]

/-- Where an unlisted address reads as a known byte, it is the byte `undefByte` gives. -/
theorem undefByte_of_backOf (l : List (Nat × Nat × Option Nat)) (a : Nat) (v : Byte) (h : backOf l a = some v) :
    undefByte l a = v := by
  induction l with
  | nil => simpa [backOf, undefByte] using h
  | cons e l ih =>
    obtain ⟨b, n, t⟩ := e
    simp only [backOf, undefByte] at h ⊢
    by_cases hc : b ≤ a ∧ a < b + n
    · rw [if_pos hc] at h ⊢
      cases t <;> simp_all
    · rw [if_neg hc] at h ⊢
      exact ih h

/-- A byte reads as it was stored. -/
@[simp] theorem getB_setB_same (s : State) (a : Nat) (v : Byte) : (s.setB a v).getB a = v := by
  simp only [State.getB, State.setB]
  by_cases h : backOf s.undef a = some v
  · rw [if_pos h, cellAt_adel_same]
    exact undefByte_of_backOf _ _ _ h
  · rw [if_neg h, cellAt_ains_same]

/-- A store leaves every other byte alone. -/
theorem getB_setB_other (s : State) (v : Byte) {a b : Nat} (h : b ≠ a) : (s.setB a v).getB b = s.getB b := by
  simp only [State.getB, State.setB]
  split_ifs
  · rw [cellAt_adel_other _ h]
  · rw [cellAt_ains_other _ v h]

/-- Bytes stored below an address leave it alone. -/
theorem getB_setBs_below (s : State) (a : Nat) (bs : Bytes) {b : Nat} (h : b < a) : (s.setBs a bs).getB b = s.getB b := by
  induction bs generalizing s a with
  | nil => rfl
  | cons x bs ih =>
    simp only [State.setBs]
    rw [ih _ _ (by omega), getB_setB_other s x (by omega)]

/-- Bytes stored above an address leave it alone. -/
theorem getB_setBs_above (s : State) (a : Nat) (bs : Bytes) {b : Nat} (h : a + bs.length ≤ b) :
    (s.setBs a bs).getB b = s.getB b := by
  induction bs generalizing s a with
  | nil => rfl
  | cons x bs ih =>
    simp only [List.length_cons] at h
    simp only [State.setBs]
    rw [ih _ _ (by omega), getB_setB_other s x (by omega)]

/-- A string of bytes reads as it was stored. -/
theorem getB_setBs_in (s : State) (a : Nat) (bs : Bytes) {i : Nat} (h : i < bs.length) :
    (s.setBs a bs).getB (a + i) = bs[i] := by
  induction bs generalizing s a i with
  | nil => simp at h
  | cons x bs ih =>
    simp only [State.setBs]
    cases i with
    | zero => rw [Nat.add_zero, getB_setBs_below _ _ _ (by omega)]; simp
    | succ i =>
      have h' : i < bs.length := by simpa using h
      have e : a + (i + 1) = a + 1 + i := by omega
      rw [e, ih (s.setB a x) (a + 1) h']
      rfl

/-! ### The canonical form of memory -/

theorem wf_iff (s : State) : Memory.wf s = true ↔ asorted s.mem = true ∧ ∀ e ∈ s.mem, backOf s.undef e.1 ≠ some e.2 := by
  simp [Memory.wf, List.all_eq_true]

/-- Reset memory lists nothing. -/
theorem wf_reset : Memory.wf State.reset = true := rfl

/-- A state with the same memory and ranges is as canonical. -/
theorem wf_congr {s t : State} (h1 : t.mem = s.mem) (h2 : t.undef = s.undef) : Memory.wf t = Memory.wf s := by
  simp [Memory.wf, h1, h2]

theorem wf_setB (s : State) (a : Nat) (v : Byte) (h : Memory.wf s = true) : Memory.wf (s.setB a v) = true := by
  rw [wf_iff] at h ⊢
  simp only [State.setB]
  split_ifs with hb
  · exact ⟨asorted_adel a _ h.1, fun e he => h.2 e (mem_adel he).1⟩
  · refine ⟨asorted_ains a v _ h.1, fun e he => ?_⟩
    rcases mem_ains he with rfl | he
    · exact hb
    · exact h.2 e he

theorem wf_setBs (s : State) (a : Nat) (bs : Bytes) (h : Memory.wf s = true) : Memory.wf (s.setBs a bs) = true := by
  induction bs generalizing s a with
  | nil => exact h
  | cons x bs ih => exact ih _ _ (wf_setB s a x h)

/-- A range swallowed whole changes what an address outside it reads as nowhere. -/
theorem backOf_filter (l : List (Nat × Nat × Option Nat)) (b n a : Nat) (h : ¬(b ≤ a ∧ a < b + n)) :
    backOf (l.filter fun r => decide (¬(b ≤ r.1 ∧ r.1 + r.2.1 ≤ b + n))) a = backOf l a := by
  induction l with
  | nil => rfl
  | cons e l ih =>
    obtain ⟨c, m, t⟩ := e
    rw [List.filter_cons]
    split
    · simp only [backOf, ih]
    · rename_i hs
      simp only [decide_eq_true_eq, not_not] at hs
      rw [ih]
      simp only [backOf]
      rw [if_neg (by omega)]

theorem wf_retag (s : State) (b n : Nat) (t : Option Nat) (h : Memory.wf s = true) : Memory.wf (s.retag b n t) = true := by
  rw [wf_iff] at h ⊢
  refine ⟨asorted_filter _ _ h.1, fun e he => ?_⟩
  simp only [State.retag, List.mem_filter, decide_eq_true_eq] at he
  have ho : ¬(b ≤ e.1 ∧ e.1 < b + n) := by omega
  simp only [State.retag, backOf]
  rw [if_neg ho, backOf_filter _ _ _ _ ho]
  exact h.2 e he.1

theorem wf_undefine (s : State) (b n : Nat) (h : Memory.wf s = true) : Memory.wf (s.undefine b n) = true := by
  have := wf_retag s b n (some s.free) h
  exact this

theorem wf_clearPoison (s : State) (a n : Nat) (h : Memory.wf s = true) : Memory.wf (s.clearPoison a n) = true := h

theorem wf_zeroStore (s : State) (a n : Nat) (h : Memory.wf s = true) : Memory.wf (s.zeroStore a n) = true :=
  wf_retag s a n none h

end Sys2Proof.Machine
end

