-- ==== Sys2Proof/Tests/Slice0.lean ====
section
/-!
SUPPORT. Tests/Slice0.lean: small states, the WellFormed smoke, the spec's worked examples, known answers of the algorithms
it names, and for every statement with hypotheses a theorem `met_<statement>` that meets them together, clause by clause.
-/

set_option Elab.async false
set_option maxRecDepth 20000

namespace Sys2Proof.Tests

open Sys2Proof Sys2Proof.Machine

/-! ### Small states -/

/-- The state in slot `sl` of epoch `e`, at its first tick. -/
def at_ (e sl : Nat) (s : State) : State :=
  { s with time := { s.time with ticks := (e * 4096 + sl) * 256, slots := e * 4096 + sl, epochs := e } }
/-- A device that is up: start-up done, Hall Time LOCKED, board inputs high. -/
def dev : State :=
  at_ 7 9 ({ State.reset with boot := { begun := true, next := 12 }, time := { running := true, state := .locked } }.wrs pgBu
    [(BU_PINS_PWR_GOOD, 1), (BU_PINS_RESET_N, 1), (BU_PINS_HOLD_N, 1)])
theorem undescribed (s : State) (h : s.descs = []) : s.redescribe = s := by simp [State.redescribe, h]
/-- Partition 0 plays, epoch base `b`, with program sections. -/
def plays (b : Int) (l : List Section) (s : State) : State :=
  s.modPart 0 fun p => { p with run := .running, base := b, slot0 := { st := .loaded, sections := l } }
def cmd (args : Bytes) (part : Nat := 0) : Cmd := { id := 77, part := part, start := 0, args := args }
/-- A program of one entry of 16 bytes, past a header of 64. -/
def oneEntry (w : Nat) : Bytes := le 4 1 ++ le 4 64 ++ List.replicate 56 0 ++ le 16 w
/-- The link is UP, and the device is package 5. -/
def linked : State := (dev.wr pgSprue SP_STATUS_LINK 2).wr pgHall NW_HPKG_PKG 5
def chanProg (i : Nat) : Section := { ty := 4, riser := 0, unit := i, body := oneEntry (10 * 2 ^ 20 + 2 ^ 41 + 3 * 2 ^ 48) }
/-- Channel 1 plays a read run of one sector in relative epoch 0. -/
def reading : State := (plays 7 [chanProg 1] dev).wr (pgChannel 1) MC_STATUS_STATE 1
/-- Runner port 2 is ACTIVE and partition 0's; package 9 is a member reached by it. -/
def joined : State :=
  let s := (linked.wr (pgRunner 2) RN_PSTAT_STATE 6).modHall fun h => { h with memb := [(9, 2)], routes := [(9, 2)], owners := [(2, 8)] }
  s.wr pgHall NW_HHOPMAX_MAX 8
/-- A key of the Sprue port, and the device with it in use. -/
def key : Bytes := List.replicate 32 1
def keyed : State := { linked with sprue := { linked.sprue with key := some key, salt := 3, tx := [], memory := [] } }
/-- The frame with the tag that verifies under that key. -/
def tagged (f : Frame) : Frame :=
  { f with tag := frameTag key 3 0 f.seq (frameText f.ty f.flags f.len f.seq f.pkg f.part (bodyOf f)) }
/-- A frame of a type with its used body. -/
def frame (ty : Nat) (b : Bytes) : Frame := { ty := ty, len := b.length, pkg := 5, part := 0, body := b }
def cmdBody (op : Nat) (args : Bytes) : Bytes := le 4 77 ++ le 2 op ++ le 2 0 ++ le 8 0 ++ args
/-- A signature of a message by scalar 7, and a Pattern image of one channel program that it signs. -/
def signed (b : Bytes) : Bytes := b ++ ecdsaSign 7 9 (sha256 b)
def patBytes (s : State) : Bytes :=
  le 4 0x54415056 ++ le 2 1 ++ le 2 0 ++ [8, 0, 1, 0] ++ le 4 1 ++ le 4 0 ++ le 4 0 ++ le 8 (0x170 + 64) ++ sha256 (s.descOf 0) ++
    List.replicate 32 0 ++ le 8 0x100 ++ List.replicate 152 0 ++
    ([4, 0, 1, 0] ++ le 4 0 ++ le 8 0x120 ++ le 8 80 ++ le 8 0) ++ oneEntry (10 * 2 ^ 20 + 2 ^ 41 + 3 * 2 ^ 48)
/-- Slot 0 of partition 0 waits for the stream's bytes, which have come, under the Pattern key of scalar 7. -/
def loads (b : Bytes) : State :=
  let s := dev.modPart 0 fun p => { p with slot0 := { st := .loading, loadId := 70, stream := 3, length := b.length } }
  { s with mordant := { s.mordant with parts := [(0, { patKey := some (point 7) })] },
           sprue := { s.sprue with streams := [{ num := 3, binder := 0, part := 0, slot := 0, data := b, last := true, at_ := 0 }] } }
/-- The slice space of Riser 0 has 8 MiB of scratch. -/
def scratch (s : State) : State := s.modSl 0 fun u => { u with active := 8 }
/-- A session of partition 0 is open under `key`. -/
def opened : State :=
  { dev with mordant := { dev.mordant with parts := [(0, { session := some { kSess := key, kWrap := key, qt := [], qd := [], nt := [], nd := [] } })] } }
/-- A session command with its 16 argument bytes, data, and the text of it that its tag covers. -/
def sess (op : Nat) (head data text : Bytes) : Cmd :=
  let a := slice (slice head 0 16 ++ data) 0 0x1B8 ++ le 8 1
  cmd (a ++ gcmTag key (sctrNonce 0 1) (sessAad op (cmd a)) text)
/-- A shutdown record that is valid and not acknowledged. -/
def shutRec : Bytes :=
  let b := le 4 0x44485356 ++ le 4 1 ++ le 8 5 ++ List.replicate 40 0
  b ++ le 4 (crc32c b) ++ List.replicate 4 0xFF
/-- A manifest of no images, SVN 3. -/
def manifest : Bytes := List.replicate 6 0 ++ [3, 0] ++ List.replicate 700 0
def updating (u : Update) (s : State) : State := { s with update := u }
/-- A descriptor of one 8-bit element in cluster 0's memory. -/
def oneElem : Bytes := le 8 0xFFFF010100000100 ++ [1, 0, 0, 1, 0, 0, 1, 0, 0, 1, 0, 0] ++ List.replicate 36 0 ++ le 8 (2 ^ 24)
/-- A tile program, and a mover program, of one instruction stamped slot `sl` cycle 0 of relative epoch 0. -/
def tileOf (w : Nat) (sl : Nat := 5) : Section :=
  { ty := 1, riser := 0, unit := 0, body := le 2 1 ++ le 2 1 ++ le 2 1 ++ le 2 0 ++ le 4 64 ++ le 4 80 ++ le 4 96 ++ le 4 160 ++
      List.replicate 40 0 ++ le 16 (w + sl * 2 ^ 17) ++ le 16 0 ++ oneElem }
def moverOf (w : Nat) (sl : Nat := 5) : Section :=
  { ty := 2, riser := 0, unit := 0, body := le 2 1 ++ le 2 1 ++ le 4 64 ++ le 4 80 ++ List.replicate 52 0 ++ le 16 (w + sl * 2 ^ 17) ++ oneElem }
/-- The cycle in which slot 5 of epoch 7 begins. -/
def cyc5 : Nat := (7 * 4096 + 5) * 256
/-- A general core's program of one window, slots 5 to 20 of relative epoch 0. -/
def coreOf (text : Bytes := List.replicate 64 0) (w : Nat := 2 ^ 60) : Section :=
  { ty := 5, riser := 0, unit := 0, body := le 2 1 ++ le 2 0 ++ le 4 64 ++ le 4 80 ++ le 4 64 ++ List.replicate 48 0 ++
      le 16 (w + 5 * 2 ^ 20 + 20 * 2 ^ 40) ++ text }
/-- Core 0 runs inside that window, x5 and x6 given; slice 0 has 8 MiB of scratch and 8 of atomic region. -/
def core (x5 : Nat) (x6 : Nat := 0) (f : Gcore → Gcore := id) : State :=
  ((plays 7 [coreOf] dev).modSl 0 fun u => { u with active := 8 + 8 * 256 }).modGc 0 fun u => f { u with inWindow := true, x := [(5, x5), (6, x6)] }
/-- A checked descriptor of two blocks. -/
def twoBlocks : Bytes :=
  le 8 0xFFFF010100001000 ++ le 3 8192 ++ le 3 1 ++ le 3 1 ++ le 3 1 ++ le 5 1 ++ le 5 8192 ++ le 5 8192 ++ le 5 8192 ++ le 8 0 ++
    le 8 0xFFFF010100000040 ++ le 8 (2 ^ 24 + 128)
/-- Cluster 0's first core patrols a list of one entry; its reads under way, and what they brought. -/
def patrolling (ids : List Nat) (done : List (Nat × Ans)) : State :=
  let s := ((dev.modGc 0 fun u => { u with patrol := true }).wr (pgCluster 0) CL_PATROL_CNT_COUNT 1).wrs (pgCluster 0)
    [(CL_PATROL_LO_ADDR, 0x01000000), (CL_PATROL_HI_ADDR, 0xFFFF0101)]
  (s.modGc 0 fun u => { u with patrolIds := ids, patrolAt := (0xFFFF010101000000, 0) }).modHall fun h => { h with done := done }
/-- A tile program of TLOADS and a TMM whose activations lie in cluster 5. -/
def twoTiles : Section :=
  { ty := 1, riser := 0, unit := 0, body := le 2 2 ++ le 2 1 ++ le 2 1 ++ le 2 0 ++ le 4 64 ++ le 4 96 ++ le 4 112 ++ le 4 176 ++
      List.replicate 40 0 ++ le 16 (1 + 5 * 2 ^ 17) ++ le 16 (3 + 9 * 2 ^ 17 + 2 ^ 84) ++ le 16 0 ++
      le 8 0xFFFF010500000100 ++ oneElem.drop 8 }
/-- The same with the text of its program. -/
def runs (text : Bytes) (s : State) : State :=
  s.modPart 0 fun p => { p with slot0 := { p.slot0 with sections := [coreOf text] } }
/-- An address of that atomic region. -/
def atom : Nat := 0xFFFF010000000000 + 88 * 1048576 + 64

/-- The bytes of a frame, as a STOP_RELAY packet carries them. -/
def frameBytes (f : Frame) : Bytes :=
  le 1 f.ty ++ le 1 f.flags ++ le 2 f.len ++ le 4 f.seq ++ le 2 f.pkg ++ le 1 f.part ++ le 5 0 ++ f.body ++ f.tag
/-- Table 10-2's set of lane `l`, RTS1 from port 3 of package 9, received 8 times. -/
def rts (l : Nat) : RtsRun := ⟨l, rtsChars [0x4A, l, 3, 31, 0, 0, 9, 0, 0, 0, 0, 0, 0], 8⟩
/-- Runner port 2 is ACTIVE with 8 lanes. -/
def wide2 (f : RPort → RPort := id) : State :=
  ((dev.wr (pgRunner 2) RN_PSTAT_STATE 6).wr (pgRunner 2) RN_PSTAT_WIDTH 3).modPort 2 f
/-- A check table of one block of zeros at the foot of Riser 0's memory, and a suspect of it. -/
def tableOf : CheckHdr := { blocks := 1, addr := 0xFFFF000000000000, parity := 0, ok := true }
def suspected : State :=
  let h := le 4 0 ++ le 4 1 ++ le 8 0xFFFF000000000000 ++ List.replicate 12 0
  (({ dev with undef := [] }.setBs 0x1000 (h ++ le 4 (crc32c h))).setBs 0x1040 (le 4 (crc32c (List.replicate 2048 0)))).modSl 0 fun u =>
    { u with suspects := [⟨0xFFFF000000000000, 0xFFFF000000001000⟩] }

/-- The wait of core 0 for request 3, of an access of 8 bytes there (kind 0) or of another kind. -/
def await (kind : Nat) : Await :=
  { id := 3, kind := kind, rd := 7, wide := false, req := { src := pgGcore 0, cls := 2, op := 1, addr := atom, len := 8 } }

/-! ### WellFormed: an ill-formed term for each check, which the check refuses -/

theorem wf_refuses_commands :
    ([{ id := 2 ^ 32, part := 0, start := 0, args := [] }, { id := 0, part := 256, start := 0, args := [] },
      { id := 0, part := 0, start := 2 ^ 64, args := [] }, { id := 0, part := 0, start := 0, args := List.replicate 465 0 }] : List
          Cmd).all
      (fun c => !(Instr.pour c).wf) = true := by decide +kernel
theorem wf_refuses_frames :
    ([{ ty := 256 }, { ty := 2, flags := 256 }, { ty := 2, len := 65536 }, { ty := 2, seq := 2 ^ 32 }, { ty := 2, pkg := 65536 },
      { ty := 2, part := 256 }, { ty := 2, body := List.replicate 481 0 }, { ty := 2, tag := List.replicate 17 0 }] : List Frame).all
      (fun f => !(Instr.cmd f).wf) = true := by decide +kernel
theorem wf_refuses_stages :
    ([{ bad := [⟨9, 0, 0⟩] }, { bad := [⟨0, 256, 0⟩] }, { bad := [⟨0, 0, 65536⟩] }, { lost := [8] },
      { widths := [{ unit := 0, width := 4 }] }, { widths := [{ unit := 0, width := 0, phase := 256 }] },
      { widths := [{ unit := 0, width := 0, volt := 256 }] }, { dies := [⟨9, 0, 0, 0⟩] }, { dies := [⟨0, 0, 256, 0⟩] },
      { unreachable := [80] }] : List StageObs).all (fun o => !(Instr.startUpStage o).wf) = true := by decide +kernel
theorem wf_refuses_blocks :
    let b : Block := { seq := 0, payload := List.replicate 16128 0, tag := List.replicate 16 0 }
    b.wf = true ∧
    [{ b with seq := 2 ^ 64 }, { b with ftype := 2 ^ 128 }, { b with utype := 2 ^ 512 }, { b with poison := 2 ^ 256 },
        { b with payload := [] },
      { b with tag := [] }].all (fun x => !(Instr.blockReceive 0 x).wf) = true := by decide +kernel
theorem wf_refuses_control_flits :
    let l : Lcf := { ltag := List.replicate 16 0 }
    l.wf = true ∧
    [{ l with ack := 2 ^ 64 }, { l with credSync := 65536 }, { l with credIndigo := 65536 }, { l with credWoad := 65536 },
        { l with req := 256 },
      { l with arg := 256 }, { l with flags := 256 }, { l with stamp := 2 ^ 80 }, { l with ltag := [] }].all
      (fun x => !(Instr.lcfReceive 0 x).wf) = true := by decide +kernel
theorem wf_refuses_training :
    ([{ sets := [⟨8, [], 0⟩] }, { sets := [⟨0, [1024], 0⟩] }, { steps := List.replicate 9 {} }, { probes := [⟨2 ^ 80, 0, 0, 0⟩] },
        { probes := [⟨0, 2 ^ 80, 0, 0⟩] }, { probes := [⟨0, 0, 2 ^ 80, 0⟩] }, { probes := [⟨0, 0, 0, 2 ^ 80⟩] }] : List TrainObs).all
      (fun o => !(Instr.trainingStateAdvance 0 o).wf) = true ∧
    ([⟨[], [], [], [], [], 4, 0, []⟩, ⟨[], [], [], [], [], 0, 65,
        []⟩] : List Kx1).all (fun k => !(Instr.keyxMessage 0 (.kx1 k)).wf) = true := by
  decide +kernel
theorem wf_refuses_requests :
    let q : Request := { who := .sprue, op := 1, addr := 0 }
    q.wf = true ∧
    [{ q with op := 64 }, { q with ty := 16 }, { q with addr := 2 ^ 64 }, { q with len := 257 }, { q with value := 2 ^ 64 },
      { q with compare := 2 ^ 64 }, { q with data := List.replicate 257 0 }].all (fun x => !(Instr.requestIssue x).wf) = true := by
          decide +kernel
theorem wf_refuses_memory_accesses :
    ([{ who := 0, off := 0xC00000 }, { who := 0, off := 0, len := 129 },
        { who := 0, off := 0, data := List.replicate 65 0 }] : List MemAccess).all
      (fun a => !(Instr.clusterMemoryAccess 0 a).wf) = true := by decide +kernel
theorem wf_refuses_operands :
    [Instr.savedSetWrite (2 ^ 32) 0 0 0, .savedSetWrite 0 0 256 0, .savedSetWrite 0 0 0 256, .drainEnd [] [8],
        .timeMark 0 (2 ^ 80) 0 0,
      .timeMark 0 0 0 (2 ^ 80), .recentre 0 256 0 0 0 {}, .recentre 0 0 256 0 0 {}, .ageingMonitorSample 0 65536 0,
          .ageingMonitorSample 0 0 65536,
      .bulkTimeout 65536, .ringWrite (2 ^ 32), .distributionEnd 0 [2 ^ 32], .commitPrepare [2 ^ 32], .schedWordDrive 0 256,
      .crossingParityError 0 0 0 256, .userTrap 0 64 0, .userTrap 0 0 (2 ^ 64), .writeWordArrival 0 256,
          .writeParityRewrite 0 (2 ^ 48) true,
      .laneParityError 0 256 0 0, .laneParityError 1 256 0 0, .laneParityError 2 2 0 0, .laneParityError 0 0 8 0,
          .laneParityError 1 0 32 0,
      .laneParityError 2 0 200 0, .laneFailure 0 256 0, .laneFailure 1 16 0, .laneFailure 2 10 0, .laneFailure 0 0 8,
          .laneFailure 1 0 32,
      .laneFailure 2 0 200, .retrainingStart 0 256, .retrainingDone 0 256 {}, .cacheFillReturn 0 0 256 [] 0 true,
      .cacheFillReturn 0 0 0 (List.replicate 257 0) 0 true, .sbRegions .sprue 0 (2 ^ 32), .regWrite .sprue 2 0,
          .regWrite .sprue 0 (2 ^ 32),
      .regWrite .sprue (2 ^ 48) 0, .regReadClear .sprue 2, .latchingRead .sprue 2, .evtForce .sprue (2 ^ 32), .fence .sprue (2 ^ 32),
      .resetReq .sprue (2 ^ 32), .enable .sprue (2 ^ 32), .ptSeed .sprue 0 (2 ^ 32), .patrolListWrite .sprue 0 0 (2 ^ 32),
      .nwHmembStageHi .sprue (2 ^ 30), .nwHrtSwap .sprue 256, .nwHrtCopy .sprue 256, .nwHpkg .sprue (2 ^ 32),
          .nwRegTgt .sprue 0 0 (2 ^ 32),
      .nwSflagHi .sprue 0 0 (2 ^ 32), .mcXgRetrain .sprue 0 (2 ^ 32), .evRingHi .sprue (2 ^ 32),
      .cxlPortRetrain 0 { up := true, ignored := [(65536, 1)] }].all (fun i => !i.wf) = true := by decide +kernel

/-! ### Worked examples of the spec, and known answers of the algorithms it names

Each is a check of this model's work, from the place its comment names. -/

/-- 02_hall_time.md, worked example: a VZX8-B reads HT_NOW 0x0123456789AB (slot 1,929, tick 171, core cycle 149). -/
theorem test_hall_time_fields :
    let s := { dev with fuse := { dev.fuse with variant := 1 }, time := { dev.time with ticks := 0x0123456789AB } }
    s.epoch = 1193046 ∧ s.slot = 1929 ∧ s.tick = 171 ∧ s.cycle = 149 := by decide +kernel

/-- 08_stacked_memory.md, worked example of R286: seed 0x5A3C, local offset 0x0065_2D7E_9B40. -/
theorem test_interleave :
    channelOf 0x12D7E9B40 0x5A3C = 10 ∧ channelOf 0x12D7E9B40 0 = 8 ∧ chanLocal 0x12D7E9B40 = 0x096BF440 ∧
    rowOf 0x25AFD1 = 2411 ∧ bankOf 0x25AFD1 = 30 ∧ (dev.wr (pgChannel 160) MC_SEED_SEED 0x5A3C).chanAt 0x00652D7E9B40 = 170 := by
  decide +kernel

/-- 08_stacked_memory.md, worked example of R291: 64 sectors from cycle 230 of slot 200 end at eighth 1 of cycle 18 of slot 201. -/
theorem test_run_ends :
    (runStarts (dataCycle 256 10 0) 1 6144 64 (8 * (200 * 256 + 230))).2 = 8 * (201 * 256) + 145 := by decide +kernel

/-- 08_stacked_memory.md, R303's example: VZX8-C at 4× has one group of three targeted refreshes; VZX8-A at 1× has two. -/
theorem test_targeted_refresh_groups : (192 - 38 - 20 * 4) / 68 = 1 ∧ tnrGroups 256 0 = 2 := by decide

/-- 10_runner_lanes.md, worked example of R389: DL of two cables at rate 4 x8. -/
theorem test_delivery_slots : dlOf 26400 4 3 = 4 ∧ dlOf 526000 4 3 = 6 := by decide

/-- 03_matrix_arrays.md, Tables 3-3 and 3-4: the fold chosen and the cycles, for FP8 against FP8, M 512, K 19,456. -/
theorem test_fold_cycles :
    ([1, 2, 7, 16, 200].map fun n => ((chooseFold n 19456 .byte .byte false 7).map fun f =>
      (f.t, (planOf f .byte .byte 512 n 19456 false false).total))) =
    [some (4, 2483), some (4, 2483), some (8, 4933), some (16, 9830), some (8, 122641)] := by decide +kernel

/-- 05_tile_programs.md, Table 5-15: the TMM word's fields and its 9,814 cycles. -/
theorem test_tmm_word :
    let w : Nat := 0x000124E4C000F01FF330000000000013
    [wClass w, mmWfmt w, mmAfmt w, mmM w, mmN w, mmK w, mmFold w, mmTrec w] = [3, 3, 3, 512, 16, 19456, 7, 18] ∧
    wAfter w = true ∧ mmPre w = true ∧
    (planOf (foldOf w) .byte .byte 512 16 19456 true false).total = 9814 := by decide +kernel

/-- 04_arithmetic.md, nearest-neighbour search: one load, M = 1,024 and 926, N = 16, K = 448. -/
theorem test_search_fold :
    ((chooseFold 16 448 .byte .byte true 7).map fun f =>
      (f.d, f.t, (planOf f .byte .byte 1024 16 448 false true).total, (planOf f .byte .byte 926 16 448 false true).total)) =
    some (256, 8, 541, 493) := by decide +kernel

/-- 04_arithmetic.md, worked example: a tracker of three, smaller first, offered five scores. -/
theorem test_tracker :
    (([(24, 100), (15, 104), (60, 108), (15, 112)] : List (Nat × Nat)).foldl (fun (t : Trk) e => (t.offer 3 (.fin false e.1 (-1))
        e.2 0 false).1) { small := true }).l.map
      (fun e => e.2.1) = [104, 112, 100] := by decide +kernel

/-- 01_organisation.md, worked example: the page of general core 5 of cluster 7 on Riser 6; 17_register_pages.md: slice mover 3 of
slice 4. -/
theorem test_page_offsets :
    offOf (pgGcore (67 * 8 + 5)) 0 = 0x1670D000 ∧ clusterBase 67 = 0x010143000000 ∧ offOf (pgSlMover 19) 0 = 0x28047000 := by
  decide +kernel

/-- 17_register_pages.md, worked example: REGRD of PAGE_ID and PAGE_STAT of slice mover 19 in the two-partition configuration, and
past the slice movers; REGWR of SB_REGIONS while the partition runs. -/
theorem test_register_example :
    let s := (dev.wr pgBu PT_CONFIG_ACTIVE 1).modPart 1 fun p => { p with run := .running }
    (s.readWord pgSprue 0x28047000).2.1 = 0x00340013 ∧ (s.readWord pgSprue 0x28047010).2.1 = 0x90 ∧
    (s.readWord pgSprue 0x28048000).1 = xUNMAPPED ∧
    (match exec (.regWrite .sprue 0x28040044 (80 + 4 * 2 ^ 8 + 2 * 2 ^ 16)) s with
      | .next t =>
        decide (t.rd (pgSlice 4) ERR_CNT_REFUSED = 1 ∧ t.regWord (pgSlice 4) 0x02C = 0x00502044)
      | _ => false) = true := by
  decide +kernel

/-- 14_bringup_and_reset.md, worked example: partition 1 of two, with 4 Risers, 12 Runner ports and a CXL port,
    has a description of 1,040
bytes. -/
theorem test_description_length :
    let s := (dev.wr pgBu PT_CONFIG_ACTIVE 1).modHall fun h =>
        { h with owners := (List.range 13).map fun i => (if i < 12 then 12 + i else 25, 9) }
    (s.descOf 1).length = 1040 := by decide +kernel

/-- 06_clusters.md: the check value of CRC-32C over "123456789". -/
theorem test_crc32c : crc32c [0x31, 0x32, 0x33, 0x34, 0x35, 0x36, 0x37, 0x38, 0x39] = 0xE3069283 := by decide +kernel

/-- FIPS 180-4: SHA-256 of "abc". -/
theorem test_sha256 :
    beNat (sha256 [0x61, 0x62, 0x63]) = 0xba7816bf8f01cfea414140de5dae2223b00361a396177a9cb410ff61f20015ad := by decide +kernel

/-- AES-256-GCM of nothing under the zero key and nonce (the GCM specification's test case 13). -/
theorem test_gcm : beNat (gcmTag (List.replicate 32 0) 0 [] []) = 0x530f8afbc74536b9a963b4f1c4cb738b := by decide +kernel

/-- RFC 6979, A.2.5: the P-256 public key of a scalar, and its signature of "sample" under SHA-256. -/
theorem test_p256_public_key :
    beNat (pubOf 0xC9AFA9D845BA75166B5C215767B1D6934E50C3DB36E89B127B8A622B120F6721) =
      0x60FED4BA255A9D31C961EB74C6356D68C049B8923B61FA6CE669622E60F29FB67903FE1008B8BC99A41AE9E95628BC64F2F1B20C2D7E9F5177A3C294D4462299 := by
  decide +kernel
theorem test_ecdsa :
    ecdsaOk (be 64 0x60FED4BA255A9D31C961EB74C6356D68C049B8923B61FA6CE669622E60F29FB67903FE1008B8BC99A41AE9E95628BC64F2F1B20C2D7E9F5177A3C294D4462299)
      (sha256 [0x73, 0x61, 0x6d, 0x70, 0x6c, 0x65])
      (be 64 0xEFD48B2AACB6A8FD1140DD9CD45E81D69D2C877B56AAF991C34D0EA84EAF3716F7CB1C942D657C41D436C7A1B6E29F65F3E900DBB9AFF4064DC4AB2F843ACDA8) = true := by
  decide +kernel

/-! ### The block -/

/-- The table gives no row bits: no word spells a command, and a word put in front leaves the queue as it was. -/
theorem test_no_word_spells_a_command : decodeTableWord 32 5 = none ∧ State.reset.withFetchWord 32 5 = State.reset := ⟨rfl, rfl⟩

/-- With none waiting a step is one tick of 0.8 ns. -/
theorem test_idle_step :
    (match step State.reset with | .next t => decide (t.real = 1 ∧ t.pending = []) | _ => false) = true := by
  decide +kernel

/-- Power-on, as R524 has it: PWR_GOOD high begins start-up, and stage 0 ends with Hall Time running. -/
theorem test_power_on :
    (match exec (.pwrGoodChange true) State.reset with
      | .next s => (match exec (.startUpStage {}) s with
        | .next t => decide (t.time.running = true ∧ t.boot.next = 1 ∧ t.rd pgBu BU_STAGE_STAGE = 0)
        | _ => false)
      | _ => false) = true := by decide +kernel

/-- Core 0 waits for request 3 of `kind`, which is answered. -/
def answered (kind : Nat) (a : Ans) (f : Gcore → Gcore := id) : State :=
  (core atom 9 fun u => f { u with awaits := some (await kind) }).modHall fun h => { h with done := [(3, a)] }

/-- RISC-V's unprivileged ISA: AMOADD.W sign-extends the old word (R210). -/
theorem test_amo_sign_extends :
    (match exec (.amo 0 1 false 7 5 6) (answered 0 { value := 0x80000000 }) with
      | .next t => decide ((t.gc 0).getX 7 = 0xFFFFFFFF80000000 ∧ (t.gc 0).awaits = none)
      | _ => false) = true := by decide +kernel

/-- RISC-V's unprivileged ISA: ADDI x7, x5, 5 in a program's text, and C.LI x10, -1 (R209). -/
theorem test_program_text :
    let u := ((runs (le 4 0x00528393 ++ List.replicate 60 0) (core 9)).runCore 0).gc 0
    let v := ((runs (le 2 0x557D ++ List.replicate 62 0) (core 9)).runCore 0).gc 0
    (u.getX 7, u.pc, v.getX 10, v.pc) = (14, 4, 2 ^ 64 - 1, 2) := by decide +kernel

/-- RISC-V's unprivileged ISA: FADD.S of 1 and 2^-30 rounds to 1 and sets NX; DIVU by zero answers all ones (R209). -/
theorem test_core_arithmetic :
    fFP32.fadd 0 0x3F800000 0x30800000 = (0x3F800000, 1) ∧ mulDiv 64 5 7 0 = 2 ^ 64 - 1 := by decide +kernel

/-- The worked example of R374 (spec/10_runner_lanes.md): 36 symbols of level 0 and one of level 2 in PAM4 go out with one stuff symbol of
level 3 after the 31st; the next LCF leaves out the last of its 16 SLACK symbols; the receiver restores both. -/
theorem test_stuffing :
    let piece := List.replicate 36 (⟨0, false⟩ : LineSym) ++ [⟨2, false⟩]
    let lcf := List.replicate 8 (⟨0, false⟩ : LineSym) ++ (List.replicate 15 ⟨1, true⟩ ++ [⟨2, true⟩])
    let line := List.replicate 31 0 ++ [3] ++ List.replicate 5 0 ++ [2]
    let sent := ({} : LineRun).send true 16 0 piece
    sent = ({ level := 2, count := 1, last := line }, 1) ∧
      (sent.1.send true 16 1 lcf).1.last = List.replicate 8 0 ++ List.replicate 15 1 ∧
      ({} : LineRun).take true 0 line = ({ level := 2, count := 1, last := piece.map LineSym.level, owed := 1 }, 1, 0) := by
  decide +kernel

/-- IEEE 802.3, 36.2.4: D21.5 keeps the disparity, D3.0 turns it (R363); 10_runner_lanes.md, R372: lane 0's first bits, s(0) = s(-39) XOR
s(-58). -/
theorem test_line_coding :
    dataChar false 0xB5 = (0b1010101010, false) ∧ dataChar false 0x03 = (0b1100011011, true) ∧
    scramble 4 0x3FFFFFFFFFFFFF8 % 2 = 0 := by decide +kernel

/-! ### Hypotheses met: one state for each clause of a statement that has hypotheses -/

theorem met_StepRunsFrontCommand :
    (∃ (s : State) (c : Instr) (rest : List Instr), (s.pending = c :: rest)) ∧
    (∃ (s : State), (s.pending = [])) :=
  ⟨⟨{ dev with pending := [.refclkLoss, .vauxRise] }, .refclkLoss, [.vauxRise], by decide +kernel⟩,
    ⟨dev, by decide +kernel⟩⟩

theorem met_OnlyVauxLossFaults :
    (∃ (c : Instr), (c ≠ .vauxLoss false)) :=
  ⟨.refclkLoss, by decide +kernel⟩

theorem met_CommandsTouchOnlyTheirComponents :
    (∃ (c : Instr) (s : State) (t : State), (exec c s = .next t)) :=
  ⟨.refclkLoss, dev, _, rfl⟩

theorem met_RunTakesCommandsInOrder :
    (∃ (k : Nat) (s : State) (t : State), (k ≤ s.pending.length) ∧ (Sys2Proof.core.run k s = .next t)) :=
  ⟨1, { dev with pending := [.refclkLoss, .vauxRise] }, _, by decide, rfl⟩

theorem met_FusesMoveOneWay :
    (∃ (s : State) (t : State), (step s = .next t)) :=
  ⟨dev, _, rfl⟩

theorem met_MemoryReadsWhatWasStored :
    (∃ (a : Nat) (bs : Bytes) (b : Nat), (b < a ∨ a + bs.length ≤ b)) ∧
    (∃ (s : State), (Memory.wf s = true)) :=
  ⟨⟨100, [1, 2], 102, by decide +kernel⟩,
    ⟨State.reset, by decide +kernel⟩⟩

theorem met_WritesCarryPoison :
    (∃ (a : Nat) (d : Bytes) (b : Nat), (b < a ∨ a + d.length ≤ b)) ∧
    (∃ (x : Nat) (d : Bytes), (x % 64 = 0) ∧ (0xA000000000 ≤ x) ∧ (d.length = 64)) ∧
    (∃ (s : State) (a : Nat) (d : Bytes), (0xA000000000 ≤ a) ∧ (0 < d.length) ∧ (a % 64 + d.length < 64) ∧ (s.poisoned a = true)) :=
  ⟨⟨100, [1,2], 99, by decide +kernel⟩,
    ⟨0xA000000000, List.replicate 64 5, by decide +kernel⟩,
    ⟨dev.setPoison 0xA000000000 true, 0xA000000000, [1], by decide +kernel⟩⟩

theorem met_FilteredPinLevelsAct :
    (∃ (s : State), (s.unstable .pwrGood = false)) ∧
    (∃ (s : State), (s.unstable .pwrGood = false) ∧ (s.pins.vin = true) ∧ (s.pins.vaux = true)) ∧
    (∃ (s : State), (s.unstable .pwrGood = true)) ∧
    (∃ (s : State), (s.unstable .resetN = true)) ∧
    (∃ (s : State), (s.unstable .resetN = false)) ∧
    (∃ (s : State) (b : Bool), (b = false ∨ s.unstable .holdN = true) ∧ ((s.queue pgBu).length < 16)) ∧
    (∃ (s : State), (s.unstable .holdN = false)) :=
  ⟨⟨dev, by decide +kernel⟩,
    ⟨dev, by decide +kernel⟩,
    ⟨dev.wr pgBu BU_PINS_UNSTABLE 2, by decide +kernel⟩,
    ⟨dev.wr pgBu BU_PINS_UNSTABLE 1, by decide +kernel⟩,
    ⟨dev, by decide +kernel⟩,
    ⟨plays 7 [] dev, false, by decide +kernel⟩,
    ⟨dev, by decide +kernel⟩⟩

theorem met_PinStabilityAndScan :
    (∃ (s : State) (p : Pin), (bit (s.rd pgBu BU_PINS_UNSTABLE) (pinIdx p) = true) ∧
        (100 * msTicks ≤ s.real - (aget [] s.pins.edges (pinIdx p)).head?.getD 0)) :=
  ⟨{ dev with real := 125000000 }.wr pgBu BU_PINS_UNSTABLE 1, .resetN, by decide +kernel⟩

theorem met_ReferenceAndSupplies :
    (∃ (s : State), (s.pins.refclk = false)) :=
  ⟨{ dev with pins := { dev.pins with refclk := false } }, by decide +kernel⟩

theorem met_StartUpStagesReport :
    (∃ (s : State) (obs : StageObs), (s.stageReady = true) ∧ (s.stageNow ≠ 0 ∨ obs.clocks = true) ∧
        (s.stageWaits s.stageNow obs.us = false)) ∧
    (∃ (s : State) (obs : StageObs), (s.stageReady = true) ∧ (s.stageNow = 0) ∧ (obs.clocks = false)) ∧
    (∃ (s : State) (obs : StageObs), (s.stageReady = false ∨ s.stageWaits s.stageNow obs.us = true)) ∧
    (∃ (s : State) (unit : Nat), (s.on pgBu BU_CTRL_SAVE_EN = true) ∧ (4088 ≤ s.slot) ∧ (unit ∈ s.ledger.unsaved) ∧ (s.health.shutdown = none)) ∧
    (∃ (s : State) (unit : Nat), (unit ∉ s.ledger.unsaved)) :=
  ⟨⟨{ State.reset with boot := { begun := true, next := 0 } }.wrs pgBu [(BU_PINS_PWR_GOOD, 1), (BU_PINS_RESET_N, 1)], { us := 5 },
      by decide +kernel⟩,
    ⟨{ State.reset with boot := { begun := true, next := 0 } }.wrs pgBu [(BU_PINS_PWR_GOOD, 1), (BU_PINS_RESET_N, 1)],
        { clocks := false }, by decide +kernel⟩,
    ⟨{ dev.modTime (fun u => { u with state := .free }) with boot := { begun := true, next := 10 } }, { us := 9999999 }, by decide +kernel⟩,
    ⟨(at_ 7 4090 (dev.wr pgBu BU_CTRL_SAVE_EN 1)).trainedFull (pgRunner 3) true, pgRunner 3, by decide +kernel⟩,
    ⟨dev, 0, by decide +kernel⟩⟩

theorem met_ResetsAreTakenAndAct :
    (∃ (s : State) (c : Cmd), (s.acts 0x0300 c) ∧ (resetArgsOk c = true) ∧ (s.resetBusy (resetOf c) = false)) ∧
    (∃ (s : State) (c : Cmd), (s.acts 0x0281 c) ∧ (s.boot.recovery = true) ∧ (fieldAt c.args 0x00 4 = c.id)) ∧
    (∃ (s : State) (r : Reset), (s.resets = [r]) ∧ (r.phase = .requested) ∧ (r.at_ ≤ s.time.slots)) :=
  ⟨⟨dev, cmd ([0, 2, 3, 0, 1] ++ List.replicate 11 0) 0xFF, by unfold State.acts; decide +kernel⟩,
    ⟨{ dev with boot := { begun := true, next := 1, recovery := true } }, cmd (le 4 77) 0xFF, by unfold State.acts; decide +kernel⟩,
    ⟨{ dev with resets := [{ scope := 0, riser := 2, cluster := 3, kind := 0, unit := 1, at_ := 3 }] },
        { scope := 0, riser := 2, cluster := 3, kind := 0, unit := 1, at_ := 3 }, by decide +kernel⟩⟩

theorem met_ResetsRunAndComplete :
    (∃ (s : State) (r : Reset), (s.resets = [r]) ∧ (r.phase = .draining) ∧ (r.scope = 4) ∧ (r.at_ + 313 ≤ s.time.slots)) ∧
    (∃ (s : State) (r : Reset), (s.resets = [r]) ∧ (r.phase = .draining) ∧ (r.scope ≤ 1) ∧ (s.accepted r = [])) ∧
    (∃ (s : State) (r : Reset), (s.resets = [r]) ∧ (r.phase = .running) ∧ (r.scope = 0) ∧ (r.riser < 8) ∧ (r.cluster < 10) ∧
        (r.unit < 8) ∧ (s.service r.page ≠ 2)) :=
  ⟨⟨{ dev with resets := [{ scope := 4, phase := .draining, at_ := 3 }] }, { scope := 4, phase := .draining, at_ := 3 },
      by decide +kernel⟩,
    ⟨{ dev with resets := [{ scope := 1, riser := 2, cluster := 3, phase := .draining, at_ := 3 }] },
        { scope := 1, riser := 2, cluster := 3, phase := .draining, at_ := 3 }, by decide +kernel⟩,
    ⟨{ dev with resets := [{ scope := 0, riser := 2, cluster := 3, phase := .running, at_ := 3 }] },
        { scope := 0, riser := 2, cluster := 3, phase := .running, at_ := 3 }, by decide +kernel⟩⟩

theorem met_TimeFramesAndTheStep :
    (∃ (s : State) (f : Frame), (s.accepts 0x01 f)) ∧
    (∃ (s : State) (d : Int), (s.time.step = some d) ∧ (s.time.state = .acquire) ∧ (s.time.stepDue = true) ∧ (s.tick = 0) ∧
        ((s.time.stepFromLost = true → ∀ p, p < s.partCount → (s.part p).run.live = false))) ∧
    (∃ (s : State) (p : Nat), (s.time.stepFromLost = true) ∧ (p < s.partCount) ∧ ((s.part p).run.live = true)) :=
  ⟨⟨linked, { ty := 1, len := 0x18, pkg := 5, body := List.replicate 0x18 3 }, by unfold State.accepts; decide +kernel⟩,
    ⟨{ dev with time := { dev.time with ticks := 7*2^20+9*256, step := some (-5), state := .acquire, stepDue := true } }, -5,
        by decide +kernel⟩,
    ⟨plays 7 [] { dev with time := { dev.time with step := some (-5), state := .acquire, stepDue := true, stepFromLost := true } }, 0,
        by decide +kernel⟩⟩

theorem met_HoldoverLossAndMarks :
    (∃ (s : State), (s.time.state = .locked) ∧ (4096 ≤ s.time.slots - s.time.validAt) ∧ (s.diverged.length < 2)) ∧
    (∃ (s : State), (s.time.state = .locked) ∧ (4096 ≤ s.time.slots - s.time.validAt) ∧ (2 ≤ s.diverged.length) ∧
        ((s.queue pgHt).length < 16)) ∧
    (∃ (s : State), (s.time.state ≠ .locked ∨ s.time.slots - s.time.validAt < 4096)) ∧
    (∃ (s : State), (s.time.state = .holdover) ∧ (2000 * msTicks ≤ s.real - s.time.holdAt)) ∧
    (∃ (s : State), (s.time.state ≠ .holdover ∨ s.real - s.time.holdAt < 2000 * msTicks)) ∧
    (∃ (s : State) (q : Fin 24), (s.pst q = 6) ∧ ((s.port q).markAt < s.time.ticks / 1024 + 1)) ∧
    (∃ (s : State) (q : Fin 24) (stamp : Nat) (st : Fin 5) (arrival : Nat), (s.pst q = 6) ∧ (s.marks q stamp st arrival = true)) ∧
    (∃ (s : State) (q : Fin 24) (stamp : Nat) (st : Fin 5) (arrival : Nat), (s.marks q stamp st arrival = false)) :=
  ⟨⟨dev, by decide +kernel⟩,
    ⟨{ ((dev.wr (pgRunner 2) RN_PSTAT_STATE 6).wr (pgRunner 3) RN_PSTAT_STATE 6) with
        time := { dev.time with marks := [(2, ⟨0, 5000, true⟩), (3, ⟨0, -5000, true⟩)] } }, by decide +kernel⟩,
    ⟨{ dev with time := { dev.time with validAt := dev.time.slots } }, by decide +kernel⟩,
    ⟨plays 7 [] { dev with real := 3000000000, time := { dev.time with state := .holdover } }, by decide +kernel⟩,
    ⟨dev, by decide +kernel⟩,
    ⟨joined, 2, by decide +kernel⟩,
    ⟨joined.modPort 2 fun u => { u with heard := some { flags := 80, stamp := 5, arrival := 9 } }, 2, 5, 2, 9, by decide +kernel⟩,
    ⟨joined, 2, 5, 2, 9, by decide +kernel⟩⟩

theorem met_BoundaryEndsEpochs :
    (∃ (s : State) (p : Nat) (e : Nat) (h : Nat), ((s.part p).run = .holding) ∧ ((s.part p).holdE = some h) ∧ (h ≤ e) ∧
        ((s.part p).base ≤ (e : Int)) ∧ ((s.part p).toIdle = false) ∧ (((s.part p).slot (s.part p).active).repeats = 0)) ∧
    (∃ (s : State) (p : Nat) (e : Nat), ((s.part p).run = .running) ∧ ((s.part p).base ≤ (e : Int)) ∧ ((s.part p).toIdle = false) ∧
        (((s.part p).slot (s.part p).active).repeats = 0)) ∧
    (∃ (s : State) (p : Nat) (e : Nat), ((s.part p).run = .running) ∧ ((s.part p).base ≤ (e : Int)) ∧ ((s.part p).toIdle = false) ∧
        (((s.part p).slot (s.part p).active).repeats ≠ 0) ∧ (((e : Int) - (s.part p).base).toNat + 1 = max 1 ((s.part p).slot (s.part
        p).active).period * ((s.part p).slot (s.part p).active).repeats)) ∧
    (∃ (s : State) (p : Nat) (e : Nat), ((s.part p).run = .armed) ∧ (s.time.state ≠ .lost) ∧ ((s.part p).holdE = none) ∧
        ((s.part p).startE = e + 1) ∧ ((s.part p).armOp = 0x0002)) ∧
    (∃ (s : State) (p : Nat) (e : Nat), ((s.part p).run = .armed) ∧ (s.time.state ≠ .lost) ∧ ((s.part p).holdE = none) ∧
        ((s.part p).startE = e + 1) ∧ ((s.part p).armOp = 0x0004)) :=
  ⟨⟨dev.modPart 0 fun p => { p with run := .holding, holdE := some 7, base := 7 }, 0, 7, 7, by decide +kernel⟩,
    ⟨plays 6 [] dev, 0, 7, by decide +kernel⟩,
    ⟨(plays 6 [] dev).modPart 0 fun p => { p with slot0 := { p.slot0 with period := 1, repeats := 2 } }, 0, 7, by decide +kernel⟩,
    ⟨dev.modPart 0 fun p => { p with run := .armed, startE := 8, armOp := 2 }, 0, 7, by decide +kernel⟩,
    ⟨dev.modPart 0 fun p => { p with run := .armed, startE := 8, armOp := 4, rel := some 3 }, 0, 7, by decide +kernel⟩⟩

theorem met_MaintenanceWorkIsDone :
    (∃ (s : State), (s.time.running = true) ∧ (s.slot = 4095) ∧ (s.time.prepared ≠ s.time.epochs + 1)) ∧
    (∃ (s : State), (s.time.running = false ∨ s.slot ≠ 4095 ∨ s.time.prepared = s.time.epochs + 1)) ∧
    (∃ (s : State) (n : Fin 8), (4094 ≤ s.slot) ∧ (s.rd (pgChannel (32 * n + s.epoch % 32)) MC_STATUS_STATE ∈ [1, 2, 3]) ∧
        (s.recut (s.chan (32 * n + s.epoch % 32)).cut = false)) ∧
    (∃ (s : State), (s.slot < 4094)) ∧
    (∃ (s : State), (4088 ≤ s.slot) ∧ (s.slot ≤ 4091)) ∧
    (∃ (s : State) (c : Fin 256), (s.rd (pgChannel c) MC_STATUS_STATE ≠ 0) ∧ (maintSlot c (s.time.ticks / 256) = true) ∧
        ((s.chan c).maintAt ≠ s.time.slots + 1) ∧ ((s.chan c).due = [])) :=
  ⟨⟨at_ 7 4095 dev, by decide +kernel⟩,
    ⟨dev, by decide +kernel⟩,
    ⟨at_ 7 4094 (dev.wr (pgChannel 39) MC_STATUS_STATE 1), 1, by decide +kernel⟩,
    ⟨dev, by decide +kernel⟩,
    ⟨at_ 7 4090 dev, by decide +kernel⟩,
    ⟨at_ 7 14 (dev.wr (pgChannel 1) MC_STATUS_STATE 1), 1, by decide +kernel⟩⟩

/-- R332: a scheduled run within a cacheable range leaves it undefined. -/
theorem test_run_in_cacheable_range :
    let s := ((reading.wr (pgSlice 0) SB_CRANGE_VALID 1).wr (pgSlice 0) SB_CRANGE_COUNT 1024).setB 448 5
    (match exec (.memoryRun 1 0) s with
     | .next t => decide (s.getB 448 = 5) && decide (cellAt t.mem 448 = none) && decide (backOf t.undef 448 = none)
     | _ => false) = true := by decide +kernel

theorem met_MemoryRunsInOrder :
    (∃ (s : State) (c : Fin 256) (index : Nat) (b : Bytes) (w : Nat) (i : Nat) (v : Nat), (s.chanSect c = some b) ∧
        (chanEntry b index = some w) ∧ (timedAt b index = some (i, v)) ∧ (s.playing (s.partOfRiser (c / 32)) = true) ∧
        (s.nextEntry c b (s.chan c) = some index) ∧ (s.chanLive c = true) ∧
        (s.out (pgChannel c) = false) ∧ ((s.chan c).part = 0) ∧
        ((s.chan c).blocked ≠ index + 1) ∧
        ((Chan.puts c (s.actTh c) s.cps (s.runPlan c w 0 (meCount w) false (s.chan c)).1 ((s.chan c).trim s.cycles)).2 =
        meCount w) ∧ (∀ k, k < meCount w → s.cacheable (s.sectorAt c (meSaddr w + k)) = false)) ∧
    (∃ (s : State) (c : Fin 256) (index : Nat) (b : Bytes) (w : Nat) (i : Nat) (v : Nat), (s.chanSect c = some b) ∧
        (chanEntry b index = some w) ∧ (timedAt b index = some (i, v)) ∧ (s.playing (s.partOfRiser (c / 32)) = true) ∧
        (s.nextEntry c b (s.chan c) = some index) ∧ (s.chanLive c = true) ∧
        (s.out (pgChannel c) = false) ∧ ((s.chan c).part = 0) ∧
        ((s.chan c).blocked ≠ index + 1) ∧
        ((Chan.puts c (s.actTh c) s.cps (s.runPlan c w 0 (meCount w) false (s.chan c)).1 ((s.chan c).trim s.cycles)).2 <
        meCount w) ∧ (∀ k, k < meCount w → s.cacheable (s.sectorAt c (meSaddr w + k)) = false)) ∧
    (∃ (s : State) (c : Fin 256) (index : Nat) (b : Bytes) (w : Nat) (i : Nat) (v : Nat), (s.chanSect c = some b) ∧
        (chanEntry b index = some w) ∧ (timedAt b index = some (i, v)) ∧ (s.playing (s.partOfRiser (c / 32)) = true) ∧
        (s.nextEntry c b (s.chan c) = some index) ∧ (s.chanLive c = true) ∧
        (s.out (pgChannel c) = true)) ∧
    (∃ (s : State) (c : Fin 256) (index : Nat) (b : Bytes) (w : Nat) (i : Nat) (v : Nat), (s.chanSect c = some b) ∧
        (chanEntry b index = some w) ∧ (timedAt b index = some (i, v)) ∧ (s.playing (s.partOfRiser (c / 32)) = true) ∧
        (s.nextEntry c b (s.chan c) = some index) ∧ (s.chanLive c = true) ∧
        (s.out (pgChannel c) = false) ∧ ((s.chan c).part = 0) ∧
        ((s.chan c).blocked ≠ index + 1) ∧
        ((Chan.puts c (s.actTh c) s.cps (s.runPlan c w 0 (meCount w) false (s.chan c)).1 ((s.chan c).trim s.cycles)).2 =
        meCount w) ∧ (meOp w = 1)) :=
  ⟨⟨reading, 1, 0, oneEntry (10 * 2 ^ 20 + 2 ^ 41 + 3 * 2 ^ 48), 10 * 2 ^ 20 + 2 ^ 41 + 3 * 2 ^ 48, 0,
      10 * 2 ^ 20 + 2 ^ 41 + 3 * 2 ^ 48, by decide +kernel⟩,
    ⟨{ reading.modChan 1 fun u => { u with track := [(bankOf 3, [(rowOf 3, 2 ^ 40)])] } with free := 3 }, 1, 0, oneEntry (10 * 2 ^ 20 + 2 ^ 41 + 3 * 2 ^ 48), 10 * 2 ^ 20 + 2 ^ 41 + 3 * 2 ^ 48, 0, 10 * 2 ^ 20 + 2 ^ 41 + 3 * 2 ^ 48, by decide +kernel⟩,
    ⟨reading.wr (pgChannel 1) PAGE_STAT_SERVICE 1, 1, 0, oneEntry (10 * 2 ^ 20 + 2 ^ 41 + 3 * 2 ^ 48),
        10 * 2 ^ 20 + 2 ^ 41 + 3 * 2 ^ 48, 0, 10 * 2 ^ 20 + 2 ^ 41 + 3 * 2 ^ 48, by decide +kernel⟩,
    ⟨((reading.wr (pgSlice 0) SB_CRANGE_VALID 1).wr (pgSlice 0) SB_CRANGE_COUNT 1024), 1, 0, oneEntry (10 * 2 ^ 20 + 2 ^ 41 + 3 * 2 ^ 48),
        10 * 2 ^ 20 + 2 ^ 41 + 3 * 2 ^ 48, 0, 10 * 2 ^ 20 + 2 ^ 41 + 3 * 2 ^ 48, by decide +kernel⟩⟩

theorem met_ChannelWordsMove :
    (∃ (s : State) (c : Fin 256) (e : Nat) (w : BWord) (rest : List (Nat × BWord)), ((s.chan c).ready = (e, w) :: rest)) ∧
    (∃ (s : State) (c : Fin 256) (cyc : Nat) (w : BWord) (m : Bool), (cyc < s.cps) ∧ (s.absCycle s.slot cyc % 4 = c.val % 4) ∧
        (s.wordOut (80 + c / 32) (layerPort c) (s.absCycle s.slot cyc) = some (w, m)) ∧ ((s.chan c).due = [])) ∧
    (∃ (s : State) (c : Fin 256) (id : Nat) (q : Req) (l : List BusSector),
        ((s.chanQueue c).find? (fun e => decide (e.1 = id)) = some (id, q)) ∧ (s.chanLive c = true) ∧ (s.openSlot c = true) ∧
        (s.servable c (s.chanQueue c) (id, q) = some l) ∧
        (∀ x ∈ s.chanQueue c, before_ x (id, q) = true → s.servable c (s.chanQueue c) x = none)) ∧
    (∃ (s : State) (c : Fin 256) (id : Nat) (q : Req), ((s.chanQueue c).find? (fun e => decide (e.1 = id)) = some (id, q)) ∧
        (s.openSlot c = false ∨ s.behind c (s.chanQueue c) (id, q) = true ∨ s.fit c (s.sectorsIn c q) q.dir = none)) ∧
    (∃ (s : State) (c : Fin 256) (id : Nat) (q : Req) (l : List BusSector),
        ((s.chanQueue c).find? (fun e => decide (e.1 = id)) = some (id, q)) ∧ (s.chanLive c = true) ∧ (s.openSlot c = true) ∧
        (s.behind c (s.chanQueue c) (id, q) = false) ∧ (s.fit c (s.sectorsIn c q) q.dir = some l) ∧ (s.waitsRefresh c l = true)) :=
  ⟨⟨dev.modChan 1 fun u => { u with ready := [(400000000, {})] }, 1, 400000000, {}, [], by decide +kernel⟩,
    ⟨(dev.wr (pgBulk 80) NW_BSTAT_MODE 2).modNet fun n => { n with conns := [⟨80, 24, 3, dev.absCycle 9 0, 200⟩] }, 1, 5, missWord, false, by decide +kernel⟩,
    ⟨(dev.wr (pgChannel 1) MC_STATUS_STATE 1).setReq 3
        { src := 0, cls := 0, op := 1, addr := 0xFFFF000000000000 + 256, len := 64, part := some 0 }, 1, 3,
        { src := 0, cls := 0, op := 1, addr := 0xFFFF000000000000 + 256, len := 64, part := some 0 },
        [{ addr := 0, dir := 1, start := 58738896, len := 5, first := true, own := false, act := true, col := true }], by decide +kernel⟩,
    ⟨at_ 7 4090 ((dev.wr (pgChannel 1) MC_STATUS_STATE 1).setReq 3
        { src := 0, cls := 0, op := 1, addr := 0xFFFF000000000000 + 256, len := 64, part := some 0 }), 1, 3,
        { src := 0, cls := 0, op := 1, addr := 0xFFFF000000000000 + 256, len := 64, part := some 0 }, by decide +kernel⟩,
    ⟨((dev.wr (pgChannel 1) MC_STATUS_STATE 1).modChan 1 fun u => { u with track := [(bankOf 0, [(rowOf 0, 2 ^ 40)])] }).setReq 3
        { src := 0, cls := 0, op := 1, addr := 0xFFFF000000000000 + 256, len := 64, part := some 0 }, 1, 3,
        { src := 0, cls := 0, op := 1, addr := 0xFFFF000000000000 + 256, len := 64, part := some 0 },
        [{ addr := 0, dir := 1, start := 58738896, len := 5, first := true, own := false, act := true, col := true }], by decide +kernel⟩⟩

theorem met_ChannelRowsStoreOnlyDueSectors :
    (∃ (s t : State) (c : Fin 256) (a : Nat), (∀ d ∈ (s.chan c).due, a < s.sectorAt c d.addr ∨ s.sectorAt c d.addr + 64 ≤ a) ∧
      exec (.memoryMaintenanceSlot c) s = .next t) ∧
    (∃ (s t : State) (c : Fin 256) (a cyc : Nat),
      (∀ d ∈ (s.chan c).due, a < s.sectorAt c d.addr ∨ s.sectorAt c d.addr + 64 ≤ a) ∧ exec (.writeWordArrival c cyc) s = .next t) ∧
    (∃ (s t : State) (c : Fin 256) (a index : Nat) (b : Bytes) (w : Nat),
      (∀ d ∈ (s.chan c).due, a < s.sectorAt c d.addr ∨ s.sectorAt c d.addr + 64 ≤ a) ∧ s.chanSect c = some b ∧
      chanEntry b index = some w ∧ (∀ j, j < meCount w → a < s.sectorAt c (meSaddr w + j) ∨ s.sectorAt c (meSaddr w + j) + 64 ≤ a) ∧
      (∀ j, j < meCount w → s.cacheable (s.sectorAt c (meSaddr w + j)) = false) ∧
      exec (.memoryRun c index) s = .next t) :=
  ⟨⟨dev.modChan 1 fun u => { u with due := [{ addr := 3, start := 0 }] }, _, 1, 7, by decide +kernel, rfl⟩,
    ⟨dev.modChan 1 fun u => { u with due := [{ addr := 3, start := 0 }] }, _, 1, 7, 0, by decide +kernel, rfl⟩,
    ⟨reading, _, 1, 7, 0, oneEntry (10 * 2 ^ 20 + 2 ^ 41 + 3 * 2 ^ 48), 10 * 2 ^ 20 + 2 ^ 41 + 3 * 2 ^ 48, by decide +kernel,
      by decide +kernel, by decide +kernel, by decide +kernel, by decide +kernel, rfl⟩⟩

theorem met_WireErrorsAreContained :
    (∃ (s : State) (unit : Nat) (group : Nat) (addr : Nat), (s.chanAt addr = unit) ∧ (unit < 256) ∧ (group < 8) ∧
        (addr < 0xA000000000) ∧ (bit (s.rd (pgChannel unit) MC_SPARES_USED) group = false) ∧ ((s.poisonEntries unit).length < 4096) ∧
        ((s.chan unit).reading (chanLocal (addr % 0x1400000000) / 64) = false)) ∧
    (∃ (s : State) (unit : Nat) (group : Nat) (addr : Nat), (s.chanAt addr = unit) ∧ (unit < 256) ∧ (group < 8) ∧
        (addr < 0xA000000000) ∧ (bit (s.rd (pgChannel unit) MC_SPARES_USED) group = false) ∧ ((s.chan unit).prevDir = 1) ∧
        ((s.chan unit).reading (chanLocal (addr % 0x1400000000) / 64) = true)) ∧
    (∃ (n : Nat) (h : Nat) (group : Nat), (n < 8) ∧ (h < 32) ∧ (group < 32)) ∧
    (∃ (unit : Nat) (group : Nat), (unit < 2) ∧ (group < 200)) ∧
    (∃ (s : State) (unit : Nat) (group : Nat), (unit < 256) ∧ (group < 8) ∧ (bit (s.chan unit).declared group = true) ∧ (s.rd (pgChannel unit) MC_STATUS_STATE ∈ [1, 2]) ∧
        ((s.chan unit).bad = 0) ∧ (s.rd (pgChannel unit) MC_SPARES_EXHAUSTED = 0)) ∧
    (∃ (s : State) (unit : Nat) (group : Nat), (unit < 256) ∧ (group < 8) ∧ (bit (s.chan unit).declared group = false) ∧
        (s.redescribe = s)) ∧
    (∃ (s : State) (n : Nat) (h : Nat) (group : Nat), (n < 8) ∧ (h < 2) ∧ (group < 32) ∧
        ((bit (aget {} s.wires (32 * n + group)).declared h || bit (aget {} s.wires (32 * n + group)).declared 2) = true) ∧
        (s.groupState n group < 2)) ∧
    (∃ (s : State) (d : Nat) (h : Nat) (group : Nat), (d < 2) ∧ (h < 2) ∧ (group < 200) ∧
        ((bit (aget {} s.wires (256 + d)).declared h || bit (aget {} s.wires (256 + d)).declared 2) = true) ∧
        (s.rd pgParting (if d = 0 then MC_PL_STATE_CD else MC_PL_STATE_DC) < 2)) ∧
    (∃ (s : State) (c : Fin 256) (x : Nat) (d : Bytes), ((s.chan c).rewrite.find? (fun e => decide (e.1 = x)) = some (x, d)) ∧
        (x % 64 = 0) ∧ (x < 0xA000000000) ∧ (d.length = 64) ∧ (s.deadAt x = false) ∧
        (s.awaiting x = true) ∧ ((s.access c [chanLocal (x % 0x1400000000) / 64] 2).isSome = true)) ∧
    (∃ (s : State) (x : Nat), (s.awaiting x = false)) :=
  ⟨⟨dev, 1, 3, 256, by decide +kernel⟩,
    ⟨dev.modChan 1 fun u => { u with prevDir := 1, packOf := [0] }, 1, 3, 256, by decide +kernel⟩,
    ⟨2, 7, 5, by decide +kernel⟩,
    ⟨1, 40, by decide +kernel⟩,
    ⟨(dev.wr (pgChannel 5) MC_STATUS_STATE 1).modChan 5 fun u => { u with declared := 4 }, 5, 2, by decide +kernel⟩,
    ⟨dev, 5, 2, by decide +kernel, by decide +kernel, by decide +kernel, undescribed _ (by decide +kernel)⟩,
    ⟨{ dev with wires := [(81, { declared := 2 })] }, 2, 1, 17, by decide +kernel⟩,
    ⟨{ dev with wires := [(257, { declared := 4 })] }, 1, 0, 40, by decide +kernel⟩,
    ⟨{ dev.modChan 1 fun u => { u with rewrite := [(256, List.replicate 64 9)] } with poison := [(4, 2)] }, 1, 256, List.replicate 64 9,
      by decide +kernel⟩,
    ⟨dev, 256, by decide +kernel⟩⟩

theorem met_RetrainingRuns :
    (∃ (s : State) (u : Nat), (u < 256) ∧ (s.slot = 0) ∧ (s.atRest (s.partOfRiser (u / 32)) = true) ∧ (s.chanDue u = true) ∧ ((∀ i,
        i < 8 → s.rd (pgChannel (u / 8 * 8 + i)) MC_STATUS_STATE ≠ 4))) ∧
    (∃ (s : State) (u : Nat), (u < 256) ∧ (s.atRest (s.partOfRiser (u / 32)) = false ∨ s.slot ≠ 0)) ∧
    (∃ (s : State) (u : Nat), (u < 256) ∧ (s.slot = 0) ∧ (s.atRest (s.partOfRiser (u / 32)) = true) ∧ (s.groupState (u / 32) (u % 32) = 2) ∧
        ((aget {} s.wires u).training = 0)) ∧
    (∃ (s : State) (u : Nat), (u < 256) ∧ (s.rd (pgChannel u) MC_STATUS_STATE = 4) ∧ ((s.chan u).training + 1 ≤ s.time.epochs)) ∧
    (∃ (s : State) (u : Nat), (u < 256) ∧ ((aget {} s.wires u).training ≠ 0) ∧ ((aget {} s.wires u).training ≤ s.time.epochs)) :=
  ⟨⟨at_ 7 0 ((dev.wr (pgChannel 5) MC_STATUS_STATE 3).wr (pgChannel 5) MC_TRAIN_CTRL_AUTO 1), 5, by decide +kernel⟩,
    ⟨plays 7 [] dev, 5, by decide +kernel⟩,
    ⟨at_ 7 0 (dev.wr (pgColumns 0) MC_XG_STATE_UP_STATE (2 * 4 ^ 5)), 5, by decide +kernel⟩,
    ⟨(dev.wr (pgChannel 5) MC_STATUS_STATE 4).modChan 5 fun u => { u with training := 6, was := 3 }, 5, by decide +kernel⟩,
    ⟨{ dev with wires := [(5, { training := 6, was := 2 })] }, 5, by decide +kernel⟩⟩

theorem met_NetworksCarryWordsAndTokens :
    (∃ (s : State) (r : Fin 88) (index : Nat) (w : Nat), (s.schedEntry r index = some w) ∧
        (s.playing (s.partOfRiser (routerRiser r)) = true) ∧ (s.rd (pgBulk r) NW_BSTAT_MODE = 2) ∧
        (stampEpoch w = s.relInPeriod (s.partOfRiser (routerRiser r)))) ∧
    (∃ (s : State) (st : Fin 88) (k : Flying), (s.net.nextToken st s.cycles = some k) ∧ (k.index < 4096)) ∧
    (∃ (s : State) (r : Nat) (store : Nat), (s.net.tokens = []) ∧ (s.net.tables = []) ∧ (r < 80) ∧ (store < 80) ∧ (r / 10 = store / 10)) ∧
    (∃ (s : State) (n : Fin 8), (aget 0 s.net.stepAt n ≤ s.cycles) ∧ (s.floods (80 + n) = true)) ∧
    (∃ (r : Fin 88) (p : Fin 64), ((if r.val < 80 then p.val = 4 else p.val < 8 ∨ 32 ≤ p.val ∧ p.val ≤ 41)) ∧
        ((feeder r p).isSome = true)) :=
  ⟨⟨plays 7 [{ ty := 3, riser := 0, unit := 4, body := oneEntry (20 * 2 ^ 20 + 77 * 2 ^ 40) }] (dev.wr (pgBulk 4) NW_BSTAT_MODE 2), 4, 0, 20 * 2 ^ 20 + 77 * 2 ^ 40,
      by decide +kernel⟩,
    ⟨dev.modNet fun n => { n with tokens := [⟨6, 12, 0, 40, 9, 3, []⟩] }, 6, ⟨6, 12, 0, 40, 9, 3, []⟩, by decide +kernel⟩,
    ⟨dev, 13, 18, by decide +kernel⟩,
    ⟨dev, 1, by decide +kernel⟩,
    ⟨4, 4, by decide +kernel⟩⟩

theorem met_ControlRoutersForward :
    (∃ (s : State) (r : Fin 88) (f : CFlit), (s.rd (pgControl r) NW_CSTAT_STATE = 1) ∧ (s.flitRoom r 63 s.cycles = true) ∧
        (s.pickFlit r 63 1 = some f)) ∧
    (∃ (s : State) (r : Fin 88) (o : Fin 64), (s.rd (pgControl r) NW_CSTAT_STATE ≠ 1 ∨ s.flitRoom r o s.cycles = false)) ∧
    (∃ (s : State) (r : Fin 88), (s.rd (pgBulk r) NW_BSTAT_MODE ≠ 3) ∧ (r.val < 80)) :=
  ⟨⟨(dev.wr (pgControl 4) NW_CSTAT_STATE 1).modNet fun n => { n with flits := [(4, [{ id := 8, vc := 1, level := 0, dest := 4, inp := 0, head := true, last := true }])] }, 4,
        { id := 8, vc := 1, level := 0, dest := 4, inp := 0, head := true, last := true }, by decide +kernel⟩,
    ⟨dev.wr (pgControl 4) NW_CSTAT_STATE 3, 4, 1, by decide +kernel⟩,
    ⟨dev, 34, by decide +kernel⟩⟩

theorem met_PacketsPass :
    (∃ (s : State) (q : Fin 24) (b : Bytes) (z : Bool) (rest : List (Bytes × Bool)), ((s.port q).rxSync = (b, z) :: rest) ∧
        ((s.port q).stop = none) ∧ (s.foreign q = false)) ∧
    (∃ (s : State) (q : Fin 24) (b : Bytes) (z : Bool) (rest : List (Bytes × Bool)), ((s.port q).rxSync = (b, z) :: rest) ∧
        (s.foreign q = true)) ∧
    (∃ (s : State) (q : Fin 24), ((s.port q).rxSync = []) ∧ ((s.port q).rxIndigo = []) ∧ ((s.port q).rxWoad = [])) ∧
    (∃ (s : State) (q : Fin 24) (e : Nat × Packet) (o : Nat) (p : Nat), (s.hall.inbox.find? (fun x => decide (x.1 = q.val ∧
        x.2.op ≠ 0x3F)) = some e) ∧ (bit e.2.ctrl 7 = false) ∧ (s.membState (e.2.dest / 2 ^ 48 % 2 ^ 16) = 2) ∧
        (e.2.hops + 1 ≤ s.rd pgHall NW_HHOPMAX_MAX) ∧ (s.rnOwner q = some p) ∧ (s.routeFor p (e.2.dest / 2 ^ 48 % 2 ^ 16) = some o)) ∧
    (∃ (s : State) (q : Fin 24) (e : Nat × Packet) (f : Frame),
        (s.hall.inbox.find? (fun x => decide (x.1 = q.val ∧ x.2.op = 0x3F)) = some e) ∧ (f = frameOf e.2.payload) ∧ (f.ty = 0x02) ∧
        (s.admits f) ∧ (s.sprue.memory.find? (fun x => decide (x.1 = (cmdOf f true).id)) = none) ∧
        (s.intakeStatus s.sprue.key.isSome (opOf f) (cmdOf f true) = 0)) ∧
    (∃ (s : State) (q : Fin 24) (e : Nat × Packet),
        (s.hall.inbox.find? (fun x => decide (x.1 = q.val ∧ x.2.op = 0x3F)) = some e) ∧ ((frameOf e.2.payload).ty ≠ 0x02)) ∧
    (∃ (s : State) (q : Fin 24) (f : StopFilter) (e : Nat), ((s.port q).stop = some f) ∧ (f.ends = some e) ∧ (e ≤ s.time.slots)) :=
  ⟨⟨dev.modPort 2 fun u => { u with rxSync := [(List.replicate 64 0, false)] }, 2, List.replicate 64 0, false, [], by decide +kernel⟩,
    ⟨(dev.wr pgMordant MD_FOREIGN_PORTS 4).modPort 2 fun u => { u with rxSync := [(List.replicate 64 0, false)] }, 2,
      List.replicate 64 0, false, [], by decide +kernel⟩,
    ⟨dev, 2, by decide +kernel⟩,
    ⟨joined.modHall fun h => { h with inbox := [(2, { dest := 9 * 2 ^ 48 + 64, op := 1, len := 64, srcPkg := 3 })] }, 2, (2,
        { dest := 9 * 2 ^ 48 + 64, op := 1, len := 64, srcPkg := 3 }), 2, 0, by decide +kernel⟩,
    ⟨({ joined with sprue := keyed.sprue }).modHall fun h =>
        { h with inbox := [(2, { op := 0x3F, payload := frameBytes (tagged (frame 2 (cmdBody 0x0003 []))) })] }, 2,
      (2, { op := 0x3F, payload := frameBytes (tagged (frame 2 (cmdBody 0x0003 []))) }), _, by decide +kernel, rfl, by decide +kernel⟩,
    ⟨joined.modHall fun h => { h with inbox := [(2, { op := 0x3F })] }, 2, (2, { op := 0x3F }), by decide +kernel⟩,
    ⟨dev.modPort 2 fun u => { u with stop := some { id := 3, action := 1, classes := 1, limit := 0, src := 0, ends := some 5 } }, 2,
        { id := 3, action := 1, classes := 1, limit := 0, src := 0, ends := some 5 }, 5, by decide +kernel⟩⟩

theorem met_StopAndRelayAct :
    (∃ (s : State) (c : Cmd) (q : Nat), (s.turnFirst c = true) ∧ (s.partOk 0x0010 c = true) ∧ ((stopOf c).action < 3) ∧
        ((stopOf c).classes < 8) ∧ ((stopOf c).limit ≤ 1024) ∧ (fieldAt c.args 0x10 4 < 2 ^ 20) ∧ (¬((stopOf c).action = 2 ∧
        bit (stopOf c).classes 1 = true)) ∧ (q ∈ stopPorts (stopOf c).ports) ∧
        ((s.port q).stop.map StopFilter.id ≠ some (stopOf c).id)) ∧
    (∃ (s : State) (c : Cmd), (s.turnFirst c = true) ∧ (s.partOk 0x0011 c = true) ∧ (fieldAt c.args 0x00 1 < 24) ∧
        (fieldAt c.args 0x12 2 ≤ 416)) :=
  ⟨⟨linked, cmd ([1, 0, 0, 0, 4, 0, 0, 0, 1, 0, 0, 0, 0, 0, 0, 0] ++ le 4 20) 0xFF, 2, by decide +kernel⟩,
    ⟨joined, cmd ([2] ++ List.replicate 17 0 ++ [8, 0] ++ List.replicate 60 4) 0xFF, by decide +kernel⟩⟩

theorem met_PourHoldReleaseMovePartitions :
    (∃ (s : State) (c : Cmd) (k : Nat) (e : Nat), (s.acts 0x0002 c) ∧ (fieldAt c.args 0x00 1 = k) ∧ (fieldAt c.args 0x08 8 = e) ∧
        (k < 2) ∧ (((s.part c.part).slot k).st = .loaded) ∧ ((s.part c.part).run.live = false) ∧ (s.tooEarly e = false) ∧
        (s.time.state = .locked) ∧ (s.holdPin = false) ∧ (s.protectHold c.part = false) ∧ (s.partShut c.part = false) ∧
        (s.rotating c.part = false)) ∧
    (∃ (s : State) (c : Cmd) (e : Nat), (s.acts 0x0004 c) ∧ (fieldAt c.args 0x08 8 = e) ∧ ((s.part c.part).run = .held) ∧
        ((s.part c.part).gone = false) ∧ (((s.part c.part).slot (s.part c.part).active).st = .loaded) ∧ (s.tooEarly e = false) ∧
        (s.time.state = .locked) ∧ (s.holdPin = false) ∧ (s.protectHold c.part = false) ∧ (s.partShut c.part = false) ∧
        (s.rotating c.part = false)) ∧
    (∃ (s : State) (c : Cmd) (p : Nat), (s.acts 0x0003 c) ∧ (c.part ≠ 0xFF ∧ p = c.part ∨ c.part = 0xFF ∧ p < s.partCount)) ∧
    (∃ (s : State) (c : Cmd) (p : Nat), (c.part ≠ 0xFF) ∧ (p ≠ c.part) ∧ (s.acts 0x0003 c)) ∧
    (∃ (s : State) (c : Cmd), (s.acts 0x0002 c) ∧ (s.partShut c.part = false) ∧ (fieldAt c.args 0x00 1 < 2) ∧ (s.rotating c.part = true)) ∧
    (∃ (s : State) (c : Cmd), (s.acts 0x0004 c) ∧ (s.partShut c.part = false) ∧ (s.rotating c.part = true)) :=
  ⟨⟨(dev.modPart 0 fun p => { p with slot0 := { st := .loaded } }), cmd ([0] ++ List.replicate 7 0 ++ le 8 12), 0, 12,
      by unfold State.acts; decide +kernel⟩,
    ⟨(dev.modPart 0 fun p => { p with slot0 := { st := .loaded }, run := .held, rel := some 2 }), cmd (List.replicate 8 0 ++ le 8 12),
        12, by unfold State.acts; decide +kernel⟩,
    ⟨plays 7 [] dev, cmd [], 0, by unfold State.acts; decide +kernel⟩,
    ⟨(plays 7 [] dev).wr pgBu PT_CONFIG_ACTIVE 3, cmd [], 3, by unfold State.acts; decide +kernel⟩,
    ⟨dev.modMordant fun m => { m with parts := [(0, { rotate := some (cmd []) })] }, cmd [], by unfold State.acts; decide +kernel⟩,
    ⟨dev.modMordant fun m => { m with parts := [(0, { rotate := some (cmd []) })] }, cmd [], by unfold State.acts; decide +kernel⟩⟩

theorem met_PatternsLoad :
    (∃ (s : State) (c : Cmd), (s.acts 0x0001 c) ∧ (s.loadCheck c = 0)) ∧
    (∃ (s : State) (p : Fin 8) (k : Fin 2) (b : Bytes) (d : Bytes), (s.loadDue p k = true) ∧ (s.partShut p = false) ∧
        (s.imageFor p k = some b) ∧ (s.judgeImage p b = (0, d)) ∧ ((s.part p).inUse k = false)) ∧
    (∃ (s : State) (p : Fin 8) (k : Fin 2) (b : Bytes), (s.loadDue p k = true) ∧ (s.partShut p = false) ∧ (s.imageFor p k = some b) ∧
        ((s.judgeImage p b).1 ≠ 0)) ∧
    (∃ (s : State) (p : Fin 8) (k : Fin 2) (b : Bytes), (s.loadDue p k = true) ∧ (s.partShut p = false) ∧
        (s.imageFor p k = some b) ∧ ((s.judgeImage p b).1 = 0) ∧ ((s.part p).inUse k = true)) :=
  ⟨⟨dev, cmd ([1, 0, 3, 0] ++ List.replicate 12 0 ++ le 8 100), by unfold State.acts; decide +kernel⟩,
    ⟨loads (signed (patBytes dev)), 0, 0, (signed (patBytes dev)), (signed (patBytes dev)), by decide +kernel⟩,
    ⟨loads [1, 2], 0, 0, [1, 2], by decide +kernel⟩,
    ⟨(loads (signed (patBytes dev))).modPart 0 fun p => { p with run := .running, slot0 := { st := .loaded }, over0 := some p.slot0 },
        0, 0, (signed (patBytes dev)), by decide +kernel⟩⟩

theorem met_CommandFramesReachTheIntake :
    (∃ (s : State) (f : Frame), (s.accepts 0x02 f) ∧ (s.sprue.memory.find? (fun e => decide (e.1 = (cmdOf f false).id)) = none) ∧
        (s.intakeStatus s.sprue.key.isSome (opOf f) (cmdOf f false) = 0)) ∧
    (∃ (s : State) (f : Frame), (s.accepts 0x02 f) ∧ (s.sprue.memory.find? (fun e => decide (e.1 = (cmdOf f false).id)) = none) ∧
        (s.intakeStatus s.sprue.key.isSome (opOf f) (cmdOf f false) ≠ 0) ∧ (s.sprue.tx.length < 256)) ∧
    (∃ (s : State) (f : Frame) (r : TxFrame), (s.accepts 0x02 f) ∧ (s.rspOf (cmdOf f false).id = some r) ∧ ((∃ o st a p d,
        r = .rsp (cmdOf f false).id o st a p d)) ∧ (s.sprue.tx.length < 256)) ∧
    (∃ (s : State) (f : Frame), (frameTyOk f.ty = false) ∧ (f.uncorr = false) ∧ (s.rd pgSprue SP_STATUS_LINK = 2)) :=
  ⟨⟨keyed, tagged (frame 2 (cmdBody 0x0003 [])), by unfold State.accepts; decide +kernel⟩,
    ⟨keyed, tagged (frame 2 (cmdBody 0x0999 [])), by unfold State.accepts; decide +kernel⟩,
    ⟨{ keyed with sprue := { keyed.sprue with memory := [(77, some (.rsp 77 3 0 5 0 []))] } }, tagged (frame 2 (cmdBody 0x0003 [])),
        .rsp 77 3 0 5 0 [], by unfold State.accepts; decide +kernel, by decide +kernel, ⟨_, _, _, _, _, rfl⟩, by decide +kernel⟩,
    ⟨linked, { ty := 0x33 }, by decide +kernel⟩⟩

theorem met_RegisterFramesAreAnswered :
    (∃ (s : State) (f : Frame), (s.accepts 0x05 f) ∧ (s.sprue.tx.length < 256)) ∧
    (∃ (s : State) (f : Frame) (pg : Nat) (o : Nat) (v : Nat), (s.accepts 0x05 f) ∧ (s.sprue.tx.length < 256) ∧
        (s.sprue.key.isSome = true) ∧ (s.started = true) ∧ (regEntries (bodyOf f) = [(offOf pg o, v)]) ∧
        (reachStatus pgSprue (offOf pg o) = 0) ∧ (placeOf (offOf pg o) = .page pg o) ∧ (s.closedTo pgSprue pg = false) ∧
        (isCompanion pg o = false)) ∧
    (∃ (s : State) (f : Frame), (s.accepts 0x06 f) ∧ (s.sprue.tx.length < 256) ∧ (s.sprue.key = none)) ∧
    (∃ (s : State) (f : Frame), (s.accepts 0x05 f) ∧ (s.sprue.tx.length < 256) ∧ (s.sprue.key = none) ∧
        (∀ x ∈ regEntries (bodyOf f), onDevicePages x.1 = false)) ∧
    (∃ (s : State) (f : Frame) (pg : Nat) (w : Nat), (s.accepts 0x06 f) ∧ (s.sprue.tx.length < 256) ∧ (s.sprue.key.isSome = true) ∧
        (s.started = true) ∧ (f.seq < seqLate) ∧ (regEntries (bodyOf f) = [(offOf pg (SCRATCH_VALUE.at 0), w)]) ∧
        (s.takes .sprue pg (SCRATCH_VALUE.at 0) w)) :=
  ⟨⟨keyed, tagged (frame 5 (le 8 0 ++ le 8 0x100000)), by unfold State.accepts; decide +kernel⟩,
    ⟨keyed, tagged (frame 5 (le 4 (offOf (pgSlMover 19) 0x10) ++ le 4 0)), pgSlMover 19, 0x10, 0, by unfold State.accepts; decide +kernel⟩,
    ⟨linked, frame 6 (le 8 0), by unfold State.accepts; decide +kernel⟩,
    ⟨linked, frame 5 (le 4 (offOf (pgSlMover 19) 0x10) ++ le 4 0), by unfold State.accepts; decide +kernel⟩,
    ⟨keyed, tagged (frame 6 (le 4 (offOf (pgMatrix 3) (SCRATCH_VALUE.at 0)) ++ le 4 9)), pgMatrix 3, 9,
      by unfold State.accepts State.takes; decide +kernel⟩⟩

theorem met_StreamsEventsAndTheLink :
    (∃ (s : State) (f : Frame) (x : Stream), (s.accepts 0x08 f) ∧ ((s.sprue.key.isSome && s.started || s.boot.recovery) = true) ∧
        (s.sprue.streams.find? (fun t => decide (t.num = fieldAt (bodyOf f) 0 2) && !t.last) = some x) ∧
        (fieldAt (bodyOf f) 0x08 8 = x.data.length) ∧ (x.binder = 0)) ∧
    (∃ (s : State) (n : Nat) (x : Stream), (s.sprue.streams.find? (fun t => decide (t.num = n) && !t.last) = some x) ∧
        (s.rd pgSprue SP_BULK_TO_US * usTicks ≤ s.real - x.at_)) ∧
    (∃ (s : State), (s.rd pgSprue SP_STATUS_LINK = 2) ∧ (15 ≤ s.events.wait.length ∨ (∃ w ∈ s.events.wait,
        1 ≤ w.rcd.sev ∨ 4 ≤ s.time.slots - w.at_))) ∧
    (∃ (s : State), (s.sprueLit = true) ∧ (63 ≤ s.sprue.goodAm)) ∧
    (∃ (s : State), (s.sprueLit = true)) ∧
    (∃ (s : State), (s.sprueLit = false)) ∧
    (∃ (s : State), (8 ≤ s.sprue.badAm)) ∧
    (∃ (s : State), (s.sprue.badAm < 8)) ∧
    (∃ (s : State), (256 < s.rd pgSprue SP_LSLACK_OWED)) :=
  ⟨⟨{ keyed with sprue := { keyed.sprue with streams := [{ num := 3, binder := 0, part := 0, slot := 0, data := [1, 2], last := false, at_ := 0 }] } }, tagged (frame 8 (le 8 3 ++ le 8 2 ++ [7, 8])), { num := 3, binder := 0, part := 0, slot := 0, data := [1, 2], last := false, at_ := 0 }, by unfold State.accepts; decide +kernel⟩,
    ⟨{ keyed with real := 2 ^ 40, sprue := { keyed.sprue with streams := [{ num := 3, binder := 0, part := 0, slot := 0, data := [1, 2], last := false, at_ := 0 }] } }, 3, { num := 3, binder := 0, part := 0, slot := 0, data := [1, 2], last := false, at_ := 0 }, by decide +kernel⟩,
    ⟨{ linked with events := { linked.events with wait := [⟨{ stamp := 0, source := 0, code := 1, sev := 0 }, 0⟩] } },
        by decide +kernel⟩,
    ⟨{ linked with sprue := { linked.sprue with vlas := true, goodAm := 63 } }, by decide +kernel⟩,
    ⟨{ linked with sprue := { linked.sprue with vlas := true, goodAm := 63 } }, by decide +kernel⟩,
    ⟨State.reset, by decide +kernel⟩,
    ⟨{ linked with sprue := { linked.sprue with badAm := 8 } }, by decide +kernel⟩,
    ⟨linked, by decide +kernel⟩,
    ⟨linked.wr pgSprue SP_LSLACK_OWED 300, by decide +kernel⟩⟩

theorem met_SprueFramesLeaveAndDmaRuns :
    (∃ (s : State) (f : TxFrame), (s.sprueLit = true) ∧ (s.sprue.pos ≠ 256) ∧
        (s.rd pgSprue SP_STATUS_LINK = 2) ∧ (s.sprue.writes = []) ∧ (s.sprue.reads = []) ∧ (s.sprue.key = none) ∧ (f.isKeyx = false) ∧
        (s.nextFrame = some f) ∧ (f.rank ≠ 5)) ∧
    (∃ (s : State) (f : TxFrame) (k : Bytes), (s.sprueLit = true) ∧ (s.sprue.pos ≠ 256) ∧
        (s.rd pgSprue SP_STATUS_LINK = 2) ∧ (s.sprue.writes = []) ∧ (s.sprue.reads = []) ∧ (s.sprue.key = some k) ∧
        (f.isKeyx = false) ∧ (s.sprue.txSeq < seqLast) ∧ (s.nextFrame = some f)) ∧
    (∃ (s : State), (s.sprueLit = true) ∧ (s.sprue.pos = 256)) ∧
    (∃ (s : State) (f : Frame) (a : Nat) (n : Nat), (s.accepts 0x07 f) ∧ (fieldAt (bodyOf f) 0 1 = 0) ∧
        (fieldAt (bodyOf f) 0x08 8 = a) ∧ ((bodyOf f).length = 16 + n) ∧ (0 < n) ∧ (a % 4096 + n ≤ 4096) ∧
        (s.sprue.key.isSome = true) ∧ (s.started = true) ∧ (s.ownPkg a = true) ∧ (f.seq < seqLate) ∧ (s.sprue.writes = []) ∧
        (s.sprue.reads = []) ∧ (s.originStatus (sprueReq 0x02 a n ((bodyOf f).drop 16) (poisonFlag f)) = 0)) ∧
    (∃ (s : State) (f : Frame) (a : Nat) (n : Nat), (s.accepts 0x07 f) ∧ (fieldAt (bodyOf f) 0 1 = 1) ∧
        (fieldAt (bodyOf f) 0x08 8 = a) ∧ (fieldAt (bodyOf f) 0x10 4 = n) ∧ (0 < n) ∧ (n ≤ 1048576) ∧ (s.sprue.key.isSome = true) ∧
        (s.started = true) ∧ (s.ownPkg a = true) ∧ (f.seq < seqLate) ∧ (s.sprue.writes = []) ∧ (s.sprue.reads = []) ∧
        (s.originStatus (sprueReq 0x01 a (min (min 464 n) (4096 - a % 4096)) [] false) = 0) ∧ (s.takeDone s.hall.nextId = none)) ∧
    (∃ (s : State) (pg : Nat) (r : EvRec) (rest : List EvRec), (s.ringOn = true) ∧ (s.queue pg = r :: rest) ∧ (riserOf pg = none) ∧
        ((s.rd pgEv EV_WR_INDEX + 2 ^ 32 - s.rd pgEv EV_RD_INDEX) % 2 ^ 32 ≠ 2 ^ s.rd pgEv EV_RING_SIZE_LOG2) ∧
        (s.ringStatus s.ringBase (2 ^ s.rd pgEv EV_RING_SIZE_LOG2) (ringReq pgEv (s.ringBase + 32 * (s.rd pgEv EV_WR_INDEX % 2 ^ s.rd
        pgEv EV_RING_SIZE_LOG2)) none ({ s.leaveInfo r with lostBefore := s.events.lostBefore } : EvRec).bytes) = 0)) :=
  ⟨⟨{ linked with sprue := { linked.sprue with vlas := true, tx := [.time 1 2 3 0] } }, .time 1 2 3 0, by decide +kernel⟩,
    ⟨{ keyed with sprue := { keyed.sprue with vlas := true, tx := [.time 1 2 3 0] } }, .time 1 2 3 0, key, by decide +kernel⟩,
    ⟨{ keyed with sprue := { keyed.sprue with vlas := true, pos := 256 } }, by decide +kernel⟩,
    ⟨scratch keyed, tagged (frame 7 ([0, 0, 0, 0] ++ le 4 9 ++ le 8 0xFFFF010000000040 ++ [5, 6])), 0xFFFF010000000040, 2,
        by unfold State.accepts; decide +kernel⟩,
    ⟨scratch keyed, tagged (frame 7 ([1, 0, 0, 0] ++ le 4 9 ++ le 8 0xFFFF010000000040 ++ le 4 20)), 0xFFFF010000000040, 20,
        by unfold State.accepts; decide +kernel⟩,
    ⟨scratch { (keyed.wrs pgEv [(EV_CTRL_RING_EN, 1), (EV_RING_HI_ADDR, 0xFFFF0100), (EV_RING_SIZE_LOG2, 8)]) with events := { keyed.events with queues := [(pgBu, [{ stamp := 4, source := pgBu, code := 7, sev := 1 }])] } }, pgBu, { stamp := 4, source := pgBu, code := 7, sev := 1 }, [], by decide +kernel⟩⟩

theorem met_LifecycleAndVersionAdvance :
    (∃ (s : State) (c : Cmd), (s.acts 0x0101 c) ∧ (s.fuse.life = .provisioned) ∧ (s.fuse.deploying = false) ∧
        ((coords (slice c.args 0 65)).bind pubKey ≠ none)) ∧
    (∃ (s : State) (c : Cmd), (s.acts 0x0102 c) ∧ (s.fuse.life = .deployed) ∧ ((coords (slice c.args 0 65)).bind pubKey ≠ none) ∧
        (verify s.mordant.opKey (sha256 (slice c.args 0 65 ++ le 4 c.id)) (slice c.args 0x48 64) = true)) ∧
    (∃ (s : State) (c : Cmd), (s.acts 0x0102 c) ∧ (s.fuse.life = .deployed) ∧ ((coords (slice c.args 0 65)).bind pubKey ≠ none) ∧
        (verify s.mordant.opKey (sha256 (slice c.args 0 65 ++ le 4 c.id)) (slice c.args 0x48 64) = false)) ∧
    (∃ (s : State) (c : Cmd), (s.acts 0x0103 c) ∧ (s.lifeOpen = true) ∧ (fieldAt c.args 0 4 = c.id)) ∧
    (∃ (s : State) (c : Cmd), (s.acts 0x0130 c) ∧ (s.lifeOpen = true) ∧ (s.fuse.svn < fieldAt c.args 0 1) ∧
        (fieldAt c.args 0 1 ≤ 64) ∧ (fieldAt c.args 0 1 ≤ s.rd pgMordant MD_SVN_MANIFEST)) ∧
    (∃ (s : State), (4088 ≤ s.slot) ∧ (s.rd pgMordant MD_SVN_PENDING ≠ 0)) ∧
    (∃ (s : State), (s.slot < 4088)) :=
  ⟨⟨dev, cmd (point 9) 0xFF, by unfold State.acts; decide +kernel⟩,
    ⟨{ dev with fuse := { dev.fuse with life := .deployed }, mordant := { dev.mordant with opKey := point 7 } }, cmd (point 9 ++
        List.replicate 7 0 ++ ecdsaSign 7 11 (sha256 (point 9 ++ le 4 77))) 0xFF, by unfold State.acts; decide +kernel⟩,
    ⟨{ dev with fuse := { dev.fuse with life := .deployed }, mordant := { dev.mordant with opKey := point 7 } }, cmd (point 9) 0xFF,
        by unfold State.acts; decide +kernel⟩,
    ⟨dev, cmd (le 4 77) 0xFF, by unfold State.acts; decide +kernel⟩,
    ⟨dev.wr pgMordant MD_SVN_MANIFEST 9, cmd [5] 0xFF, by unfold State.acts; decide +kernel⟩,
    ⟨at_ 7 4090 (dev.wr pgMordant MD_SVN_PENDING 9), by decide +kernel⟩,
    ⟨dev, by decide +kernel⟩⟩

theorem met_KeysAreAgreed :
    (∃ (s : State) (c : Cmd), (s.acts 0x0100 c) ∧ (s.keyxCheck c = 0)) ∧
    (∃ (s : State) (c : Cmd), (s.acts 0x0120 c) ∧ (s.sealing c.part = false) ∧ (s.fuse.life ≠ .decommissioned) ∧
        (s.mordant.keyed = true) ∧ (s.mordant.drbgFail = false) ∧ ((shared s.fresh.1 (slice c.args 0x00 65)).isSome = true)) ∧
    (∃ (s : State) (c : Cmd), (s.acts 0x0110 c) ∧ (s.sealed c.part = false) ∧ ((s.part c.part).loading = false) ∧
        ((s.part c.part).run.live = false) ∧ ((coords (slice c.args 0 65)).bind pubKey ≠ none)) ∧
    (∃ (s : State) (c : Cmd), (s.acts 0x0111 c) ∧ (s.sealed c.part = false) ∧ (s.atRest c.part = true) ∧
        ((s.trusted c.part).rotate = none) ∧ (s.mordant.drbgFail = false)) ∧
    (∃ (s : State) (p : Fin 8) (c : Cmd), ((s.trusted p).rotate = some c)) :=
  ⟨⟨{ dev with mordant := { dev.mordant with keyed := true } }, cmd (point 9) 0xFF, by unfold State.acts; decide +kernel⟩,
    ⟨{ dev with mordant := { dev.mordant with keyed := true } }, cmd (point 9), by unfold State.acts; decide +kernel⟩,
    ⟨dev, cmd (point 9), by unfold State.acts; decide +kernel⟩,
    ⟨dev, cmd [], by unfold State.acts; decide +kernel⟩,
    ⟨{ dev with mordant := { dev.mordant with parts := [(0, { rotate := some (cmd []) })] } }.modHall fun h =>
        { h with owners := [(24, 8)] }, 0, cmd [], by decide +kernel⟩⟩

theorem met_ReadoutsAnswer :
    (∃ (s : State) (c : Cmd), (s.acts 0x0108 c) ∧ (s.fuse.life ≠ .decommissioned) ∧ (fieldAt c.args 0 1 < 4)) ∧
    (∃ (s : State) (c : Cmd), (s.acts 0x0109 c) ∧ (s.fuse.life ≠ .decommissioned) ∧ (s.mordant.keyed = true) ∧
        ((maskSlots (fieldAt c.args 0x20 2)).length ≤ 7)) ∧
    (∃ (s : State) (c : Cmd), (s.acts 0x010A c)) ∧
    (∃ (s : State) (c : Cmd) (d : Desc), (s.acts 0x0310 c) ∧ (d = aget {} s.descs (if c.part = 0xFF then 8 else c.part)) ∧
        (s.started = true) ∧ (s.fuse.life ≠ .decommissioned) ∧ (fieldAt c.args 0 4 < d.bytes.length)) ∧
    (∃ (s : State) (c : Cmd), (s.acts 0x0401 c)) ∧
    (∃ (s : State) (c : Cmd), (s.acts 0x0402 c)) ∧
    (∃ (s : State) (c : Cmd) (e : Nat × Bytes), (s.acts 0x0400 c) ∧ (s.sprue.key.isSome = true) ∧ (fieldAt c.args 0x08 4 = c.id) ∧
        (s.ledger.pending.filter (fun e => decide (fieldAt e.2 0x08 8 = fieldAt c.args 0 8)) = [e])) :=
  ⟨⟨dev, cmd [2] 0xFF, by unfold State.acts; decide +kernel⟩,
    ⟨{ dev with mordant := { dev.mordant with keyed := true } }, cmd (List.replicate 32 3 ++ [7, 0]) 0xFF,
        by unfold State.acts; decide +kernel⟩,
    ⟨dev, cmd [], by unfold State.acts; decide +kernel⟩,
    ⟨{ dev with descs := [(0, { bytes := List.replicate 70 1, gen := 3 })] }, cmd [], { bytes := List.replicate 70 1, gen := 3 },
        by unfold State.acts; decide +kernel⟩,
    ⟨dev, cmd [1] 0xFF, by unfold State.acts; decide +kernel⟩,
    ⟨dev, cmd [] 0xFF, by unfold State.acts; decide +kernel⟩,
    ⟨{ keyed with ledger := { keyed.ledger with shut := [(1, shutRec)] } }, cmd (le 8 5 ++ le 4 77) 0xFF, (1, shutRec),
        by unfold State.acts; decide +kernel⟩⟩

/-- The session that `opened` holds. -/
def sessionKey : Session := { kSess := key, kWrap := key, qt := [], qd := [], nt := [], nd := [] }
/-- A session access within one page of one home. -/
theorem opens_one (s : State) (op : Nat) (c : Cmd) (e : Session) (a n : Nat) (text : Bytes) (write : Bool)
    (h : s.turn c = true ∧ s.partOk op c = true ∧ sessionArgsOk c = true ∧ (s.trusted c.part).session = some e ∧ sessionOk e op c text = true ∧
      a = fieldAt c.args 0 8 ∧ n = fieldAt c.args 0x08 2 ∧ fieldAt c.args 0x0A 1 = 0 ∧ pagePieces a n = [(a, n)] ∧
      s.sessStatus c.part write (a, n) = 0)
    (o : (∃ k f, homeOf a = .cluster k f) ∨ ∃ k f, homeOf a = .slice k f) : s.sessionOpens op c e a n text write := by
  obtain ⟨h1, h2, h3, h4, h5, h6, h7, h8, h9, h10⟩ := h
  refine ⟨h1, h2, h3, h4, h5, h6, h7, h8, fun x hx => ?_⟩
  rw [h9, List.mem_singleton] at hx
  exact hx ▸ ⟨h10, o⟩

theorem met_SealsAndSessionsRun :
    (∃ (s : State) (c : Cmd), (s.acts 0x0121 c) ∧ (s.sessionCheck 0x0121 c [] = 0) ∧ (s.sealCheck c = 0)) ∧
    (∃ (s : State) (c : Cmd), (s.acts 0x0122 c) ∧ (s.sealed c.part = true) ∧ (s.sessionCheck 0x0122 c [] = 0) ∧ (s.mordant.drbgFail = false)) ∧
    (∃ (s : State) (p : Fin 8) (n : Nat), ((s.trusted p).scrubAt = some n) ∧ (n ≤ s.time.slots) ∧ ((s.trusted p).ending = none)) ∧
    (∃ (s : State) (p : Fin 8) (n : Nat), ((s.trusted p).scrubAt = some n) ∧ (s.time.slots < n) ∧ (s.redescribe = s)) ∧
    (∃ (s : State) (c : Cmd) (e : Session) (a : Nat) (n : Nat), s.sessionOpens 0x0123 c e a n (slice c.args 0x10 n) true) ∧
    (∃ (s : State) (c : Cmd) (e : Session) (a : Nat) (n : Nat) (k : Nat) (f : Nat),
        (s.sessionOpens 0x0123 c e a n (slice c.args 0x10 n) true) ∧ (homeOf a = .cluster k f) ∧ (a % 4096 + n ≤ 4096)) ∧
    (∃ (s : State) (c : Cmd) (e : Session) (a : Nat) (n : Nat), s.sessionOpens 0x0124 c e a n [] false) ∧
    (∃ (s : State) (c : Cmd), (s.acts 0x0123 c) ∧ (sessionArgsOk c = true) ∧ ((s.trusted c.part).session = none)) ∧
    (∃ (s : State) (c : Cmd) (e : Session), (s.acts 0x0124 c) ∧ (sessionArgsOk c = true) ∧ ((s.trusted c.part).session = some e) ∧
        (sessionOk e 0x0124 c [] = false)) :=
  ⟨⟨opened, sess 0x0121 (List.replicate 16 1) (List.replicate 16 1) [], by unfold State.acts; decide +kernel⟩,
    ⟨opened.wr pgMordant MD_PART_SEALED 1 0, sess 0x0122 [] [] [], by unfold State.acts; decide +kernel⟩,
    ⟨{ dev with mordant := { dev.mordant with parts := [(0, { scrubAt := some 20 })] } }, 0, 20, by decide +kernel⟩,
    ⟨{ dev with mordant := { dev.mordant with parts := [(0, { scrubAt := some (2 ^ 30) })] } }, 0, 2 ^ 30, by decide +kernel, by decide +kernel,
        undescribed _ (by decide +kernel)⟩,
    ⟨scratch opened, sess 0x0123 ([0, 0, 0, 0, 0, 1, 0, 0, 16, 0, 0]) (List.replicate 16 9) (List.replicate 16 9), sessionKey,
      0x010000000000, 16, opens_one _ _ _ _ _ _ _ _ (by decide +kernel) (.inr ⟨0, 0, by decide +kernel⟩)⟩,
    ⟨opened, sess 0x0123 ([0, 0, 0, 0, 1, 1, 0, 0, 16, 0, 0]) (List.replicate 16 9) (List.replicate 16 9), sessionKey,
      0x010100000000, 16, 0, 0, opens_one _ _ _ _ _ _ _ _ (by decide +kernel) (.inl ⟨0, 0, by decide +kernel⟩), by decide +kernel⟩,
    ⟨scratch opened, sess 0x0124 ([0, 0, 0, 0, 0, 1, 0, 0, 16, 0, 0]) [] [], sessionKey,
      0x010000000000, 16, opens_one _ _ _ _ _ _ _ _ (by decide +kernel) (.inr ⟨0, 0, by decide +kernel⟩)⟩,
    ⟨dev, sess 0x0123 ([0, 0, 0, 0, 0, 1, 0, 0, 16, 0, 0]) [] [], by unfold State.acts; decide +kernel⟩,
    ⟨scratch opened, sess 0x0123 ([0, 0, 0, 0, 0, 1, 0, 0, 16, 0, 0]) [] [],
        { kSess := key, kWrap := key, qt := [], qd := [], nt := [], nd := [] }, by unfold State.acts; decide +kernel⟩⟩

theorem met_BundlesAreStaged :
    (∃ (s : State) (c : Cmd), (s.acts 0x0200 c) ∧ (s.updBusy = false) ∧ (s.update.begun = none) ∧
        (s.streamFree (fieldAt c.args 0 2) = true)) ∧
    (∃ (s : State) (c : Cmd), (s.acts 0x0280 c) ∧ (s.boot.recovery = true) ∧ (s.update.begun = none) ∧
        (s.streamFree (fieldAt c.args 0 2) = true)) ∧
    (∃ (s : State) (c : Cmd), (s.update.begun = some (0x0200, c)) ∧ (s.update.incoming ≠ []) ∧ (s.health.shutdown = none)) ∧
    (∃ (s : State) (op : Nat) (c : Cmd), (s.update.begun = some (op, c)) ∧ (s.update.incoming ≠ []) ∧ (s.health.shutdown = none)) ∧
    (∃ (s : State) (c : Cmd), (s.acts 0x0201 c) ∧ (s.updBusy = false) ∧ (s.update.begun = none) ∧ (s.update.staged = true)) ∧
    (∃ (s : State) (c : Cmd), (s.update.distribute = some c)) ∧
    (∃ (s : State) (c : Cmd), (s.acts 0x0203 c) ∧ (s.updBusy = false)) :=
  ⟨⟨dev, cmd [9] 0xFF, by unfold State.acts; decide +kernel⟩,
    ⟨{ dev with boot := { dev.boot with recovery := true } }, cmd [9] 0xFF, by unfold State.acts; decide +kernel⟩,
    ⟨updating { begun := some (0x0200, cmd [9] 0xFF), incoming := manifest } dev, cmd [9] 0xFF, by decide +kernel⟩,
    ⟨updating { begun := some (0x0280, cmd [9] 0xFF), incoming := manifest } dev, 0x0280, cmd [9] 0xFF, by decide +kernel⟩,
    ⟨updating { staged := true, bundle := manifest } dev, cmd [] 0xFF, by unfold State.acts; decide +kernel⟩,
    ⟨updating { distribute := some (cmd [] 0xFF), bundle := manifest } dev, cmd [] 0xFF, by decide +kernel⟩,
    ⟨dev, cmd [] 0xFF, by unfold State.acts; decide +kernel⟩⟩

theorem met_CommitsHandOver :
    (∃ (s : State) (c : Cmd), (s.acts 0x0202 c) ∧ (s.updBusy = false) ∧ (s.update.distributed = true) ∧
        (s.epoch < fieldAt c.args 0x08 8) ∧ (s.fuse.svn ≤ manSvn s.update.bundle)) ∧
    (∃ (s : State), (s.update.commit.isSome = true) ∧ (s.epoch = s.update.commitE) ∧ (4088 ≤ s.slot) ∧ (s.slot < 4094) ∧
        (s.update.prepared = none)) ∧
    (∃ (s : State) (c : Cmd) (m : List Nat), (s.update.commit = some c) ∧ (s.epoch = s.update.commitE) ∧ (s.slot = 4094) ∧
        (s.health.shutdown = none) ∧ (s.fuse.svn ≤ manSvn s.update.bundle) ∧ (s.update.prepared = some m) ∧ ((∀ p ∈ m, p ∈ s.update.ready))) ∧
    (∃ (s : State) (c : Cmd) (m : List Nat) (p : Nat), (s.update.commit = some c) ∧ (s.epoch = s.update.commitE) ∧ (s.slot = 4094) ∧
        (s.health.shutdown = none) ∧ (s.fuse.svn ≤ manSvn s.update.bundle) ∧ (s.update.prepared = some m) ∧ (p ∈ m) ∧ (p ∉ s.update.ready)) ∧
    (∃ (s : State) (c : Cmd), (s.update.commit = some c) ∧ (s.epoch = s.update.commitE) ∧ (s.slot = 4094) ∧
        (s.health.shutdown = none) ∧ (manSvn s.update.bundle < s.fuse.svn)) ∧
    (∃ (s : State), (s.update.commit = none ∨ s.epoch ≠ s.update.commitE ∨ s.slot ≠ 4094 ∨ s.health.shutdown ≠ none)) ∧
    (∃ (s : State) (r : Select), (s.update.goDone = true) ∧ (s.update.select = some r) ∧ (s.health.shutdown = none)) ∧
    (∃ (s : State), (s.update.goDone = true) ∧ (s.health.shutdown = none)) :=
  ⟨⟨updating { distributed := true, bundle := manifest } dev, cmd (List.replicate 8 0 ++ le 8 9) 0xFF,
      by unfold State.acts; decide +kernel⟩,
    ⟨at_ 7 4089 (updating { commit := some (cmd [] 0xFF), commitE := 7, bundle := manifest } dev), by decide +kernel⟩,
    ⟨at_ 7 4094 (updating { commit := some (cmd [] 0xFF), commitE := 7, bundle := manifest, prepared := some [1], ready := [1] } dev),
        cmd [] 0xFF, [1], by decide +kernel⟩,
    ⟨at_ 7 4094 (updating { commit := some (cmd [] 0xFF), commitE := 7, bundle := manifest, prepared := some [1, 2], ready := [1] }
        dev), cmd [] 0xFF, [1, 2], 2, by decide +kernel⟩,
    ⟨at_ 7 4094 (updating { commit := some (cmd [] 0xFF), commitE := 7, bundle := manifest } { dev with fuse := { dev.fuse with svn := 9 } }),
        cmd [] 0xFF, by decide +kernel⟩,
    ⟨dev, by decide +kernel⟩,
    ⟨updating { goDone := true, selA := some ⟨3, 0, [], true⟩ } dev, ⟨3, 0, [], true⟩, by decide +kernel⟩,
    ⟨updating { goDone := true, selA := some ⟨3, 0, [], true⟩ } dev, by decide +kernel⟩⟩

theorem met_SamplesAndShutdowns :
    (∃ (s : State), (s.health.roundOn = true) ∧ (s.pins.refclk = true) ∧ (s.health.roundAt + 5000 * s.health.chan ≤ s.real) ∧
        (s.health.chan < 511)) ∧
    (∃ (s : State), (s.health.roundOn = false ∨ s.pins.refclk = false ∨ s.real < s.health.roundAt + 5000 * s.health.chan)) ∧
    (∃ (s : State) (v : Int) (o : HkObs), (o.fault = false) ∧ (s.health.roundOn = true) ∧ (s.pins.refclk = true) ∧
        (s.health.roundAt + 5000 * s.health.chan ≤ s.real) ∧ (s.health.chan < 160) ∧ (s.health.chan ∉ s.health.failed) ∧
        (3 ≤ s.boot.next) ∧ (s.health.shutdown = none) ∧ (((s.tempLimits s.health.chan).2.2 : Int) * 64 < v) ∧ (v ≤ 150 * 64)) ∧
    (∃ (s : State) (d : Shutdown) (i : Nat), (s.health.shutdown = some d) ∧ (d.recorded = false) ∧ (d.off = false) ∧
        (s.ledger.freeSlot = some i)) ∧
    (∃ (s : State) (d : Shutdown) (i : Nat), (s.health.shutdown = some d) ∧ (d.recorded = false) ∧ (d.off = false) ∧
        (s.ledger.freeSlot = some i)) ∧
    (∃ (s : State) (d : Shutdown), (s.health.shutdown = some d) ∧ (d.off = false) ∧ (250 * usTicks ≤ s.real - d.t0)) :=
  ⟨⟨{ dev with real := 2 ^ 40, health := { dev.health with roundOn := true, chan := 0 } }, by decide +kernel⟩,
    ⟨dev, by decide +kernel⟩,
    ⟨{ dev with real := 2 ^ 40, health := { dev.health with roundOn := true, chan := 3 } }, 8000, {}, by decide +kernel⟩,
    ⟨{ dev with real := 10000000, health := { dev.health with shutdown := some { t0 := 0, cause := 1, channel := 3, reading := 8000, rate := 0, stamp := 0, running := 0 } } }, { t0 := 0, cause := 1, channel := 3, reading := 8000, rate := 0, stamp := 0, running := 0 }, 0, by decide +kernel⟩,
    ⟨{ dev with real := 10000000, health := { dev.health with shutdown := some { t0 := 0, cause := 1, channel := 3, reading := 8000, rate := 0, stamp := 0, running := 0 } } }, { t0 := 0, cause := 1, channel := 3, reading := 8000, rate := 0, stamp := 0, running := 0 }, 0, by decide +kernel⟩,
    ⟨{ dev with real := 10000000, health := { dev.health with shutdown := some { t0 := 0, cause := 1, channel := 3, reading := 8000, rate := 0, stamp := 0, running := 0 } } }, { t0 := 0, cause := 1, channel := 3, reading := 8000, rate := 0, stamp := 0, running := 0 }, by decide +kernel⟩⟩

theorem met_VoltagesHoursAndErases :
    (∃ (s : State) (d : Fin 96), (s.slot = 4088) ∧ (aget 0 s.health.stepDue d ≠ 0) ∧ (aget 0 s.health.stepDue d = s.time.epochs) ∧
        ((aget 0 s.health.stepAt d = 0 ∨ 1024 ≤ s.rd pgHk HK_ROUNDS_COUNT - (aget 0 s.health.stepAt d - 1)))) ∧
    (∃ (s : State), (s.rd pgHk HK_REPLAN_CTRL_RUNNING = 0) ∧ (4088 ≤ s.slot) ∧ (s.boot.next = 12) ∧
        ((s.rd pgHk HK_REPLAN_CTRL_REQUEST ≠ 0 ∨ s.health.replanAt + 24 ≤ s.ledger.hours))) ∧
    (∃ (s : State), (s.rd pgHk HK_REPLAN_CTRL_RUNNING ≠ 0) ∧ (s.slot = 4088) ∧ (s.health.movedAt ≠ s.time.epochs + 1) ∧
        (s.health.moves = [])) ∧
    (∃ (s : State), (s.boot.next = 12) ∧ (3600000 * msTicks ≤ s.real - s.health.hourAt)) ∧
    (∃ (s : State), (s.boot.next ≠ 12 ∨ s.real - s.health.hourAt < 3600000 * msTicks)) ∧
    (∃ (s : State) (k : Nat), (s.boot.next = 12) ∧ (s.ledger.erased < 64) ∧ (s.ledger.eraseSector = some k) ∧
        (s.health.eraseAt = none) ∧ (s.health.shutdown = none)) ∧
    (∃ (s : State), (s.boot.next = 12) ∧ (s.ledger.erased < 64) ∧ (s.ledger.eraseSector = none) ∧ (s.health.shutdown = none)) :=
  ⟨⟨at_ 7 4088 { dev with health := { dev.health with stepDue := [(3, 7)] } }, 3, by decide +kernel⟩,
    ⟨at_ 7 4090 (dev.wr pgHk HK_REPLAN_CTRL_REQUEST 1), by decide +kernel⟩,
    ⟨at_ 7 4088 (dev.wr pgHk HK_REPLAN_CTRL_RUNNING 1), by decide +kernel⟩,
    ⟨{ dev with real := 5000000000000 }, by decide +kernel⟩,
    ⟨dev, by decide +kernel⟩,
    ⟨{ dev with ledger := { dev.ledger with shut := (List.range 200).map fun i => (i, [1]) } }, 0, by decide +kernel⟩,
    ⟨{ dev with ledger := { dev.ledger with shut := (List.range 256).map fun i => (i, shutRec) } }, by decide +kernel⟩⟩

theorem met_PortsTrain :
    (∃ (s : State) (q : Fin 24), (s.pst q = 0) ∧ (s.canTrain = true) ∧ (s.on (pgRunner q) RN_PCTRL_ENABLE = true) ∧
        (s.portFree q = true)) ∧
    (∃ (s : State) (q : Fin 24) (o : TrainObs), (s.pst q = 1) ∧ ((hasAll (trainGood o) 0x0F || hasAll (trainGood o) 0xF0) = true)) ∧
    (∃ (s : State) (q : Fin 24) (o : TrainObs), (s.pst q = 1) ∧ ((hasAll (trainGood o) 0x0F || hasAll (trainGood o) 0xF0) = false)) ∧
    (∃ (s : State) (q : Fin 24) (o : TrainObs), (s.pst q = 4) ∧ (o.probes.length = 64)) ∧
    (∃ (s : State) (q : Fin 24) (o : TrainObs), (s.pst q = 5) ∧ ((s.port q).prk.isSome = true) ∧ (o.keyed = true)) ∧
    (∃ (s : State) (q : Fin 24) (o : TrainObs), (s.pst q = 5) ∧ ((s.port q).prk = none ∨ o.keyed = false)) ∧
    (∃ (s : State) (q : Fin 24), (trainLimit (s.pst q) ≠ 0) ∧ (trainLimit (s.pst q) ≤ s.real - (s.port q).since)) ∧
    (∃ (s : State) (q : Fin 24), (s.real - (s.port q).since < trainLimit (s.pst q))) :=
  ⟨⟨dev.wr (pgRunner 2) RN_PCTRL_ENABLE 1, 2, by decide +kernel⟩,
    ⟨dev.wr (pgRunner 2) RN_PSTAT_STATE 1, 2, { sets := (List.range 4).map rts }, by decide +kernel⟩,
    ⟨dev.wr (pgRunner 2) RN_PSTAT_STATE 1, 2, { sets := (List.range 3).map rts }, by decide +kernel⟩,
    ⟨dev.wr (pgRunner 2) RN_PSTAT_STATE 4, 2, { probes := List.replicate 64 ⟨0, 3, 5, 9⟩ }, by decide +kernel⟩,
    ⟨(((dev.wr (pgRunner 2) RN_PSTAT_STATE 5).wr (pgRunner 2) RN_PSTAT_WIDTH 3).modPort 2 fun u => { u with prk := some key }), 2,
        { keyed := true }, by decide +kernel⟩,
    ⟨(dev.wr (pgRunner 2) RN_PSTAT_STATE 5), 2, {}, by decide +kernel⟩,
    ⟨{ (dev.wr (pgRunner 2) RN_PSTAT_STATE 2) with real := 2 ^ 40 }, 2, by decide +kernel⟩,
    ⟨(dev.wr (pgRunner 2) RN_PSTAT_STATE 2), 2, by decide +kernel⟩⟩

theorem met_LinkKeysAndLoss :
    (∃ (s : State) (q : Fin 24) (a : Kx1) (k : Kx1), (s.pst q = 5) ∧ ((s.port q).kxFailed = false) ∧ ((s.port q).own = some a) ∧
        ((s.port q).peer = none) ∧ ((s.certKey k.devid).isSome = true) ∧ ((s.certKey k.alias1).isSome = true) ∧
        ((s.certKey k.alias2).isSome = true) ∧ (s.fuse.life ≠ .deployed ∨ k.life = 2)) ∧
    (∃ (s : State) (q : Fin 24) (a : Kx1) (k : Kx1), (s.pst q = 5) ∧ ((s.port q).kxFailed = false) ∧ ((s.port q).own = some a) ∧
        ((s.port q).peer = none) ∧ (s.certKey k.devid = none)) ∧
    (∃ (s : State) (q : Fin 24) (a : Kx1) (k : Kx1) (key : Bytes) (z : Bytes) (sig : Bytes), (s.pst q = 5) ∧
        ((s.port q).kxFailed = false) ∧ ((s.port q).own = some a) ∧ ((s.port q).peer = some k) ∧ ((s.port q).prk = none) ∧
        (s.certKey k.alias2 = some key) ∧ (shared (s.port q).eph k.epk = some z) ∧
        (verify key (kxDigest (s.port q).first a k) sig = true)) ∧
    (∃ (s : State) (q : Fin 24) (a : Kx1) (k : Kx1) (key : Bytes) (sig : Bytes), (s.pst q = 5) ∧ ((s.port q).kxFailed = false) ∧
        ((s.port q).own = some a) ∧ ((s.port q).peer = some k) ∧ ((s.port q).prk = none) ∧ (s.certKey k.alias2 = some key) ∧
        (verify key (kxDigest (s.port q).first a k) sig = false)) ∧
    (∃ (s : State) (q : Fin 24), (s.pst q = 6) ∧ ((s.port q).txSeq = (s.rd (pgRunner q) RN_KEY_INDEX + 1) * 2 ^ 32) ∧
        (s.rd (pgRunner q) RN_KEY_INDEX + 1 < (s.port q).loaded)) ∧
    (∃ (s : State) (q : Fin 24), (s.pst q = 6) ∧ ((s.port q).txSeq = (s.rd (pgRunner q) RN_KEY_INDEX + 1) * 2 ^ 32) ∧
        ((s.port q).loaded ≤ s.rd (pgRunner q) RN_KEY_INDEX + 1)) ∧
    (∃ (s : State) (q : Fin 24) (cause : Fin 4), (s.pst q = 6) ∧ ((cause.val = 0 ∧ (∃ b ∈ (s.port q).unacked,
        4 ≤ b.resent)) ∨ (cause.val = 1 ∧ 1024 ≤ (s.port q).stall) ∨ (cause.val = 2 ∧ 64 ≤ (s.port q).badLtag))) ∧
    (∃ (s : State) (q : Fin 24), (s.pst q ≠ 6)) :=
  ⟨⟨{ (((dev.wr (pgRunner 2) RN_PSTAT_STATE 5).wr (pgRunner 2) RN_PSTAT_WIDTH 3).modPort 2 fun u => { u with own := some { devid := [1], alias1 := [2], alias2 := [3], epk := point 11, nonce := [5], life := 2, svn := 0, domain := [] } }) with pki := [([1], point 5), ([2], point 6), ([3], point 7)] }, 2, { devid := [1], alias1 := [2], alias2 := [3], epk := point 11, nonce := [5], life := 2, svn := 0, domain := [] }, { devid := [1], alias1 := [2], alias2 := [3], epk := point 11, nonce := [5], life := 2, svn := 0, domain := [] }, by decide +kernel⟩,
    ⟨(((dev.wr (pgRunner 2) RN_PSTAT_STATE 5).wr (pgRunner 2) RN_PSTAT_WIDTH 3).modPort 2 fun u =>
        { u with own := some { devid := [1], alias1 := [2], alias2 := [3], epk := point 11, nonce := [5], life := 2, svn := 0, domain := [] } }), 2, { devid := [1], alias1 := [2], alias2 := [3], epk := point 11, nonce := [5], life := 2, svn := 0, domain := [] }, { devid := [1], alias1 := [2], alias2 := [3], epk := point 11, nonce := [5], life := 2, svn := 0, domain := [] }, by decide +kernel⟩,
    ⟨{ (((dev.wr (pgRunner 2) RN_PSTAT_STATE 5).wr (pgRunner 2) RN_PSTAT_WIDTH 3).modPort 2 fun u => { u with own := some { devid := [1], alias1 := [2], alias2 := [3], epk := point 11, nonce := [5], life := 2, svn := 0, domain := [] }, peer := some { devid := [1], alias1 := [2], alias2 := [3], epk := point 11, nonce := [5], life := 2, svn := 0, domain := [] }, eph := 13 }) with pki := [([1], point 5), ([2], point 6), ([3], point 7)] }, 2, { devid := [1], alias1 := [2], alias2 := [3], epk := point 11, nonce := [5], life := 2, svn := 0, domain := [] }, { devid := [1], alias1 := [2], alias2 := [3], epk := point 11, nonce := [5], life := 2, svn := 0, domain := [] }, point 7, (shared 13 (point 11)).getD [], ecdsaSign 7 9 (kxDigest false ({ devid := [1], alias1 := [2], alias2 := [3], epk := point 11, nonce := [5], life := 2, svn := 0, domain := [] }) ({ devid := [1], alias1 := [2], alias2 := [3], epk := point 11, nonce := [5], life := 2, svn := 0, domain := [] })), by decide +kernel⟩,
    ⟨{ (((dev.wr (pgRunner 2) RN_PSTAT_STATE 5).wr (pgRunner 2) RN_PSTAT_WIDTH 3).modPort 2 fun u => { u with own := some { devid := [1], alias1 := [2], alias2 := [3], epk := point 11, nonce := [5], life := 2, svn := 0, domain := [] }, peer := some { devid := [1], alias1 := [2], alias2 := [3], epk := point 11, nonce := [5], life := 2, svn := 0, domain := [] }, eph := 13 }) with pki := [([1], point 5), ([2], point 6), ([3], point 7)] }, 2, { devid := [1], alias1 := [2], alias2 := [3], epk := point 11, nonce := [5], life := 2, svn := 0, domain := [] }, { devid := [1], alias1 := [2], alias2 := [3], epk := point 11, nonce := [5], life := 2, svn := 0, domain := [] }, point 7, [1], by decide +kernel⟩,
    ⟨(((dev.wr (pgRunner 2) RN_PSTAT_STATE 6).wr (pgRunner 2) RN_PSTAT_WIDTH 3).modPort 2 fun u =>
        { u with txSeq := 2 ^ 32, loaded := 2 }), 2, by decide +kernel⟩,
    ⟨(((dev.wr (pgRunner 2) RN_PSTAT_STATE 6).wr (pgRunner 2) RN_PSTAT_WIDTH 3).modPort 2 fun u =>
        { u with txSeq := 2 ^ 32, loaded := 1 }), 2, by decide +kernel⟩,
    ⟨(((dev.wr (pgRunner 2) RN_PSTAT_STATE 6).wr (pgRunner 2) RN_PSTAT_WIDTH 3).modPort 2 fun u => { u with stall := 1024 }), 2, 1,
        by decide +kernel⟩,
    ⟨dev, 2, by decide +kernel⟩⟩

theorem met_WidthAndMargins :
    (∃ (s : State) (q : Fin 24) (x : LaneFault), (s.pst q = 6) ∧ (s.pwidth q = 3) ∧ (s.laneFails q x = true) ∧
        (∀ l, l < 8 → s.rd (lanePage q l) RN_LSTAT_STATE ≠ 3)) ∧
    (∃ (s : State) (q : Fin 24) (x : LaneFault), (s.laneFails q x = false)) ∧
    (∃ (s : State) (q : Fin 24) (upper : Bool), (s.pst q = 6) ∧ (s.pwidth q = 3) ∧ ((s.port q).narrow = none) ∧
        (s.hears q 1 = true) ∧ ((s.port q).heard.map Lcf.arg = some upper.toNat)) ∧
    (∃ (s : State) (q : Fin 24) (upper : Bool), (s.pst q = 6) ∧ (s.pwidth q = 3) ∧ ((s.port q).narrow = some upper.toNat) ∧
        (s.hears q 1 = true) ∧ ((s.port q).heard.map Lcf.arg = some upper.toNat)) ∧
    (∃ (s : State) (q : Fin 24), (s.pst q = 6) ∧ (s.portFree q = true) ∧ (s.hears q 2 = true)) ∧
    (∃ (s : State) (q : Fin 24), (s.portFree q = false ∨ s.hears q 2 = false)) ∧
    (∃ (s : State) (q : Fin 24) (lane : Fin 8) (eye : Fin 3), (s.pst q = 6) ∧
        (lane.val ∈ lanesOf (s.pwidth q)) ∧ (s.on (lanePage q lane) RN_EYE_CTRL_ENABLE = true) ∧
        (s.rd (lanePage q lane) RN_EYE_CTRL_EYE = eye.val + 1) ∧ (s.eyeTurn q lane = some (eye.val + 1))) ∧
    (∃ (s : State) (q : Fin 24) (lane : Fin 8), (s.on (lanePage q lane) RN_EYE_CTRL_ENABLE = false)) :=
  ⟨⟨wide2, 2, { lane := 3 }, by decide +kernel⟩,
    ⟨wide2, 2, { lane := 3, cause := 1 }, by decide +kernel⟩,
    ⟨wide2 fun u => { u with heard := some { req := 1, arg := 1 } }, 2, true, by decide +kernel⟩,
    ⟨wide2 fun u => { u with narrow := some 1, heard := some { req := 1, arg := 1 } }, 2, true, by decide +kernel⟩,
    ⟨wide2 fun u => { u with heard := some { req := 2 } }, 2, by decide +kernel⟩,
    ⟨plays 7 [] (dev.modHall fun h => { h with owners := [(2, 8)] }), 2, by decide +kernel⟩,
    ⟨(wide2.wr (lanePage 2 3) RN_EYE_CTRL_ENABLE 1).wr (lanePage 2 3) RN_EYE_CTRL_EYE 2, 2, 3, 1, by decide +kernel⟩,
    ⟨dev.wr (lanePage 2 3) RN_EYE_CTRL_ENABLE 0, 2, 3, by decide +kernel⟩⟩

theorem met_BlocksAreSent :
    (∃ (s : State) (q : Fin 24) (k : Bytes), ((s.port q).prk = some k) ∧ (s.pst q = 6) ∧ ((s.port q).resend = []) ∧
        ((s.port q).unacked.length < 32) ∧ ((s.port q).txSeq / 2 ^ 32 = s.rd (pgRunner q) RN_KEY_INDEX) ∧ ((s.port q).linkReq ≠ 5)) ∧
    (∃ (s : State) (q : Fin 24) (k : Bytes) (r : Nat) (rs : List Nat) (b : TxBlock), ((s.port q).prk = some k) ∧ (s.pst q = 6) ∧
        ((s.port q).resend = r :: rs) ∧ ((s.port q).unacked.find? (fun b => decide (b.seq = r)) = some b) ∧ ((s.port q).linkReq ≠ 5)) ∧
    (∃ (s : State) (q : Fin 24), ((s.port q).resend = []) ∧ (32 ≤ (s.port q).unacked.length)) ∧
    (∃ (s : State) (q : Fin 24), (s.pst q = 6) ∧ ((s.port q).nakRx = true)) ∧
    (∃ (s : State) (q : Fin 24), ((s.port q).nakRx = false)) ∧
    (∃ (s : State) (q : Fin 24), (s.pst q = 3 ∨ s.pst q = 6 ∧ 32 ≤ (s.port q).unacked.length ∧ (s.port q).resend = []) ∧
        ((s.port q).linkReq ≠ 5)) :=
  ⟨⟨(((dev.wr (pgRunner 2) RN_PSTAT_STATE 6).wr (pgRunner 2) RN_PSTAT_WIDTH 3).modPort 2 fun u => { u with prk := some key }), 2, key,
      by decide +kernel⟩,
    ⟨(((dev.wr (pgRunner 2) RN_PSTAT_STATE 6).wr (pgRunner 2) RN_PSTAT_WIDTH 3).modPort 2 fun u =>
        { u with prk := some key, unacked := [{ seq := 3, plain := List.replicate 1008 0 }, { seq := 4 }], resend := [3, 4] }), 2,
        key, 3, [4], { seq := 3, plain := List.replicate 1008 0 }, by decide +kernel⟩,
    ⟨(((dev.wr (pgRunner 2) RN_PSTAT_STATE 6).wr (pgRunner 2) RN_PSTAT_WIDTH 3).modPort 2 fun u =>
        { u with unacked := List.replicate 32 { seq := 3 } }), 2, by decide +kernel⟩,
    ⟨(((dev.wr (pgRunner 2) RN_PSTAT_STATE 6).wr (pgRunner 2) RN_PSTAT_WIDTH 3).modPort 2 fun u =>
        { u with nakRx := true, unacked := [{ seq := 3 }] }), 2, by decide +kernel⟩,
    ⟨dev, 2, by decide +kernel⟩,
    ⟨(dev.wr (pgRunner 2) RN_PSTAT_STATE 3), 2, by decide +kernel⟩⟩

theorem met_BlocksAndLcfsAreReceived :
    (∃ (s : State) (q : Fin 24) (k : Bytes) (b : Block), ((s.port q).prk = some k) ∧ (s.pst q = 6) ∧ ((b.lanes.any fun l => l.errors.any beyond) = false) ∧
        (b.seq = (s.port q).rxSeq) ∧ ((s.port q).nakTx = false ∨ b.replay = true) ∧
        (b.tag = gcmTag (trafficKey k (!(s.port q).first) (b.seq / 2 ^ 32)) (blockNonce k (!(s.port q).first) b.seq) (blockAad b.seq
        b.ftype b.utype b.poison) b.payload)) ∧
    (∃ (s : State) (q : Fin 24) (k : Bytes) (b : Block), ((s.port q).prk = some k) ∧ (s.pst q = 6) ∧ ((b.lanes.any fun l => l.errors.any beyond) = true)) ∧
    (∃ (s : State) (q : Fin 24) (k : Bytes) (b : Block), ((s.port q).prk = some k) ∧ (s.pst q = 6) ∧ ((b.lanes.any fun l => l.errors.any beyond) = false) ∧
        (b.seq = (s.port q).rxSeq) ∧ ((s.port q).nakTx = false ∨ b.replay = true) ∧
        (b.tag ≠ gcmTag (trafficKey k (!(s.port q).first) (b.seq / 2 ^ 32)) (blockNonce k (!(s.port q).first) b.seq) (blockAad b.seq
        b.ftype b.utype b.poison) b.payload)) ∧
    (∃ (s : State) (q : Fin 24) (k : Bytes) (l : Lcf), ((s.port q).prk = some k) ∧ (s.pst q = 6) ∧
        (l.ltag = lcfTag k (!(s.port q).first) ((s.port q).rxSeq / 2 ^ 32) (s.port q).lcfRx (Machine.Lcf.mid l)) ∧
        (l.req ≠ 5 ∨ (s.port q).asking = false ∨ s.portFree q = false)) ∧
    (∃ (s : State) (q : Fin 24) (k : Bytes) (l : Lcf), ((s.port q).prk = some k) ∧ (s.pst q = 6) ∧
        (l.ltag ≠ lcfTag k (!(s.port q).first) ((s.port q).rxSeq / 2 ^ 32) (s.port q).lcfRx (Machine.Lcf.mid l))) :=
  ⟨⟨(((dev.wr (pgRunner 2) RN_PSTAT_STATE 6).wr (pgRunner 2) RN_PSTAT_WIDTH 3).modPort 2 fun u =>
      { u with prk := some key, rxSeq := 3 }), 2, key, { seq := 3, payload := List.replicate 1008 7, tag := gcmTag (trafficKey key true 0) (blockNonce key true 3) (blockAad 3 0 0 0) (List.replicate 1008 7) }, by decide +kernel⟩,
    ⟨(((dev.wr (pgRunner 2) RN_PSTAT_STATE 6).wr (pgRunner 2) RN_PSTAT_WIDTH 3).modPort 2 fun u =>
        { u with prk := some key, rxSeq := 3 }), 2, key, { seq := 3, lanes := [{ errors := [16] }] }, by decide +kernel⟩,
    ⟨(((dev.wr (pgRunner 2) RN_PSTAT_STATE 6).wr (pgRunner 2) RN_PSTAT_WIDTH 3).modPort 2 fun u =>
        { u with prk := some key, rxSeq := 3 }), 2, key, { seq := 3 }, by decide +kernel⟩,
    ⟨(((dev.wr (pgRunner 2) RN_PSTAT_STATE 6).wr (pgRunner 2) RN_PSTAT_WIDTH 3).modPort 2 fun u =>
        { u with prk := some key, rxSeq := 3, unacked := [{ seq := 3 }, { seq := 9 }] }), 2, key,
        { ack := 4, credSync := 60, credIndigo := 3, flags := 2, ltag := lcfTag key true 0 0 (Machine.Lcf.mid { ack := 4, credSync := 60, credIndigo := 3, flags := 2 }) }, by decide +kernel⟩,
    ⟨(((dev.wr (pgRunner 2) RN_PSTAT_STATE 6).wr (pgRunner 2) RN_PSTAT_WIDTH 3).modPort 2 fun u =>
        { u with prk := some key, rxSeq := 3 }), 2, key, { ack := 4 }, by decide +kernel⟩⟩

theorem met_ScheduledWordsCrossLinks :
    (∃ (s : State) (q : Fin 24) (cyc : Nat) (w : BWord) (m : Bool), (cyc < s.cps) ∧ (s.pst q = 6) ∧
        (s.on (pgRunner q) RN_PSTAT_SCHED_OK = true) ∧ (s.foreign q = false) ∧ (s.rnOwner q = some (s.partOfRiser (q.val / 3))) ∧
        (s.wordOut (80 + q.val / 3) (43 + q.val % 3) (s.absCycle s.slot cyc) = some (w, m)) ∧
        (s.drovenNow q < s.rd (pgRunner q) RN_DL_SCHED_WORDS)) ∧
    (∃ (s : State) (q : Fin 24), (s.pst q ≠ 6 ∨ s.foreign q = true ∨ s.on (pgRunner q) RN_PSTAT_SCHED_OK = false ∨
        s.rd (pgRunner q) RN_DL_SCHED_WORDS ≤ s.drovenNow q)) ∧
    (∃ (s : State), (4088 ≤ s.slot)) ∧
    (∃ (s : State), (s.slot < 4088)) :=
  ⟨⟨((((joined.wr (pgRunner 2) RN_PSTAT_SCHED_OK 1).wr (pgRunner 2) RN_DL_SCHED_WORDS 8).wr (pgBulk 80) NW_BSTAT_MODE 2).modNet fun n => { n with conns := [⟨80, 45, 3, dev.absCycle 9 0, 200⟩] }), 2, 5,
      missWord, false, by decide +kernel⟩,
    ⟨dev, 2, by decide +kernel⟩,
    ⟨at_ 7 4089 (dev.modPort 2 fun u => { u with released := [(5, {}), (4095, {})] }), by decide +kernel⟩,
    ⟨dev, by decide +kernel⟩⟩

theorem met_RequestsIssueAndComplete :
    (∃ (s : State) (q : Request), (programIdle q s = false) ∧ (s.ownPkg q.addr = true) ∧ (isReg q.op = false) ∧ (s.originStatus (s.reqOf q) = 0)) ∧
    (∃ (s : State) (q : Request), (programIdle q s = true) ∧ (s.redescribe = s)) ∧
    (∃ (s : State) (q : Request), (programIdle q s = false) ∧ (s.originStatus (s.reqOf q) ≠ 0) ∧ (s.service (reqIdent q.who) ≠ 3) ∧
        (s.hall.nextId ∉ s.hall.orphans)) ∧
    (∃ (s : State) (id : Nat) (r : Req) (a : Ans), (s.req id = some r) ∧ (r.ans = some a) ∧ (s.service r.src ≠ 3) ∧
        (id ∉ s.hall.orphans) ∧ (s.travels id true = false)) ∧
    (∃ (s : State) (id : Nat) (r : Req) (a : Ans), (s.req id = some r) ∧ (r.ans = some a) ∧ (id ∈ s.hall.orphans) ∧ (s.travels id true = false)) ∧
    (∃ (s : State) (id : Nat) (r : Req), (s.req id = some r) ∧ (r.ans = none ∨ s.travels id true = true)) ∧
    (∃ (s : State) (id : Nat) (r : Req), (s.req id = some r) ∧ (r.remote.isSome = true) ∧ (r.ans = none) ∧
        (s.hTimeout ≤ s.real - r.issuedAt) ∧ (s.service r.src ≠ 3) ∧ (id ∉ s.hall.orphans)) ∧
    (∃ (s : State) (id : Nat) (r : Req), (s.req id = some r) ∧ (s.real - r.issuedAt < s.hTimeout)) :=
  ⟨⟨scratch dev, { who := .sprue, op := 1, addr := 0xFFFF010000000040, len := 64, data := List.replicate 64 5 }, by decide +kernel⟩,
    ⟨dev, { who := .gcore 0, op := 1, addr := 0xFFFF010000000040, len := 64 }, by decide +kernel, undescribed _ (by decide +kernel)⟩,
    ⟨dev, { who := .sprue, op := 1, addr := 0xFFFF0F0000000040, len := 64, data := List.replicate 64 5 }, by decide +kernel⟩,
    ⟨((scratch dev).setReq 3 ({ src := pgGcore 0, cls := 1, op := 1, addr := 0xFFFF010000000040, len := 64, data := List.replicate 64 5, part := some 0, ans := some { status := 0 } })), 3, { src := pgGcore 0, cls := 1, op := 1, addr := 0xFFFF010000000040, len := 64, data := List.replicate 64 5, part := some 0, ans := some { status := 0 } }, { status := 0 }, by decide +kernel⟩,
    ⟨((scratch dev).setReq 3 ({ src := pgGcore 0, cls := 1, op := 1, addr := 0xFFFF010000000040, len := 64, data := List.replicate 64 5, part := some 0, ans := some { status := 0 } })).modHall fun h => { h with orphans := [3] }, 3, { src := pgGcore 0, cls := 1, op := 1, addr := 0xFFFF010000000040, len := 64, data := List.replicate 64 5, part := some 0, ans := some { status := 0 } }, { status := 0 }, by decide +kernel⟩,
    ⟨((scratch dev).setReq 3 ({ src := pgGcore 0, cls := 1, op := 1, addr := 0xFFFF010000000040, len := 64, data := List.replicate 64 5, part := some 0 })), 3, { src := pgGcore 0, cls := 1, op := 1, addr := 0xFFFF010000000040, len := 64, data := List.replicate 64 5, part := some 0 }, by decide +kernel⟩,
    ⟨{ ((scratch dev).setReq 3 ({ src := pgGcore 0, cls := 1, op := 1, addr := 0xFFFF010000000040, len := 64, data := List.replicate 64 5, part := some 0, remote := some 9 })) with real := 2 ^ 40 }, 3, { src := pgGcore 0, cls := 1, op := 1, addr := 0xFFFF010000000040, len := 64, data := List.replicate 64 5, part := some 0, remote := some 9 }, by decide +kernel⟩,
    ⟨((scratch dev).setReq 3 ({ src := pgGcore 0, cls := 1, op := 1, addr := 0xFFFF010000000040, len := 64, data := List.replicate 64 5, part := some 0, remote := some 9 })), 3, { src := pgGcore 0, cls := 1, op := 1, addr := 0xFFFF010000000040, len := 64, data := List.replicate 64 5, part := some 0, remote := some 9 }, by decide +kernel⟩⟩

theorem met_ReadsAndWritesReachTheirHomes :
    (∃ (s : State) (id : Nat) (r : Req), (s.req id = some r) ∧ (r.op = 0x01) ∧ (r.via = none) ∧ (r.remote = none) ∧ (r.ans = none) ∧
        (s.viaCache r = none) ∧ (s.ownPkg r.addr = true) ∧ (s.servedAll r r.len = true) ∧ (s.atOnce id r) ∧
        (∀ k off, homeOf (localOf r.addr) ≠ .cluster k off) ∧
        (∀ x off, homeOf (localOf r.addr) = .cxl x off → s.cxUp x = true)) ∧
    (∃ (s : State) (id : Nat) (k : Nat) (off : Nat) (r : Req), (s.req id = some r) ∧ (r.op = 0x01) ∧ (r.via = none) ∧
        (r.remote = none) ∧ (r.ans = none) ∧ (s.viaCache r = none) ∧ (s.ownPkg r.addr = true) ∧
        (homeOf (localOf r.addr) = .cluster k off) ∧ (s.atOnce id r)) ∧
    (∃ (s : State) (id : Nat) (r : Req), (s.req id = some r) ∧ (r.via = none) ∧ (r.remote = none) ∧ (r.ans = none) ∧
        (s.viaCache r = none) ∧ (s.fencedHome (homeOf (localOf r.addr)) false = false) ∧
        (s.servedAll r r.span = false ∨ s.travels id false = true)) ∧
    (∃ (s : State) (id : Nat) (r : Req), (s.req id = some r) ∧ (r.op = 0x01) ∧ (r.via = none) ∧ (r.remote = none) ∧ (r.ans = none) ∧
        (s.travels id false = false) ∧ (s.ownPkg r.addr = true) ∧ (s.fencedHome (homeOf (localOf r.addr)) false = true)) ∧
    (∃ (s : State) (id h : Nat) (parity : List Nat) (r : Req), (s.req id = some r) ∧ (r.op = 0x01) ∧ (r.via = none) ∧
        (r.remote = none) ∧ (r.ans = none) ∧ (s.travels id false = false) ∧ (s.fencedHome (homeOf (localOf r.addr)) false = false) ∧
        (s.readyFor r = true) ∧ (s.hasTurn id r = true) ∧ ((s.bankNeed r).home = some h) ∧ (∀ w ∈ s.banks.wait, w.work ≠ .request id parity) ∧
        (s.portsFree (s.bankRank h r.src r.level false) (s.needPorts (s.bankNeed r)) = false)) ∧
    (∃ (s : State) (id : Nat) (r : Req), (s.req id = some r) ∧ (r.op = 0x02) ∧ (r.via = none) ∧ (r.remote = none) ∧ (r.ans = none) ∧
        (s.viaCache r = none) ∧ (s.ownPkg r.addr = true) ∧ (s.servedAll r r.len = true) ∧ (localOf r.addr < 0x080000000000) ∧ (s.atOnce id r)) ∧
    (∃ (s : State) (id : Nat) (r : Req), (s.req id = some r) ∧ (r.op = 0x03) ∧ (r.via = none) ∧ (r.remote = none) ∧ (r.ans = none) ∧
        (s.viaCache r = none) ∧ (s.ownPkg r.addr = true) ∧ (s.servedAll r r.len = true) ∧ (localOf r.addr < 0x080000000000) ∧ (s.atOnce id r)) ∧
    (∃ (s : State) (id : Nat) (k : Nat) (f : Nat) (r : Req), (s.req id = some r) ∧ (r.op = 0x02) ∧ (r.via = none) ∧
        (r.remote = none) ∧ (r.ans = none) ∧ (s.viaCache r = none) ∧ (s.ownPkg r.addr = true) ∧
        (homeOf (localOf r.addr) = .cluster k f) ∧ (s.atOnce id r)) :=
  ⟨⟨(scratch dev).setReq 3
      ({ src := pgGcore 0, cls := 1, op := 1, addr := 0xFFFF010000000040, len := 64, data := List.replicate 64 5, part := some 0 }),
      3, { src := pgGcore 0, cls := 1, op := 1, addr := 0xFFFF010000000040, len := 64, data := List.replicate 64 5, part := some 0 },
      by decide +kernel, by decide +kernel, by decide +kernel, by decide +kernel, by decide +kernel,
      by decide +kernel, by decide +kernel, by decide +kernel, by unfold State.atOnce; decide +kernel,
      fun k off h => absurd ((show homeOf (localOf 0xFFFF010000000040) = .slice 0 0x40 by decide +kernel).symm.trans h) (by nofun),
      fun k off h => absurd ((show homeOf (localOf 0xFFFF010000000040) = .slice 0 0x40 by decide +kernel).symm.trans h) (by nofun)⟩,
    ⟨((scratch dev).setReq 3 ({ src := pgGcore 0, cls := 1, op := 1, addr := 0xFFFF010100000040, len := 64, data := List.replicate 64 5, part := some 0 })), 3, 0, 0x40, { src := pgGcore 0, cls := 1, op := 1, addr := 0xFFFF010100000040, len := 64, data := List.replicate 64 5, part := some 0 }, by unfold State.atOnce; decide +kernel⟩,
    ⟨((scratch dev).setReq 3 ({ src := pgGcore 0, cls := 1, op := 1, addr := 0xFFFF000000000040, len := 64, data := List.replicate 64 5, part := some 0 })), 3, { src := pgGcore 0, cls := 1, op := 1, addr := 0xFFFF000000000040, len := 64, data := List.replicate 64 5, part := some 0 }, by decide +kernel⟩,
    ⟨(((scratch dev).wr (pgSlice 0) PAGE_STAT_SERVICE 1).setReq 3 ({ src := pgGcore 0, cls := 1, op := 1, addr := 0xFFFF010000000040, len := 64, part := some 0 })),
        3, { src := pgGcore 0, cls := 1, op := 1, addr := 0xFFFF010000000040, len := 64, part := some 0 }, by decide +kernel⟩,
    ⟨{ (scratch dev).setReq 3 ({ src := pgGcore 0, cls := 1, op := 1, addr := 0xFFFF010000000040, len := 64, data := List.replicate 64 5, part := some 0 }) with
        banks := { ports := (List.range 8192).map fun p => (p, ⟨2 ^ 40, 0, 0, 0⟩) } }, 3, 3145728, [],
        { src := pgGcore 0, cls := 1, op := 1, addr := 0xFFFF010000000040, len := 64, data := List.replicate 64 5, part := some 0 }, by decide +kernel⟩,
    ⟨((scratch dev).setReq 3 ({ src := pgGcore 0, cls := 1, op := 2, addr := 0xFFFF010000000040, len := 64, data := List.replicate 64 5, part := some 0 })), 3, { src := pgGcore 0, cls := 1, op := 2, addr := 0xFFFF010000000040, len := 64, data := List.replicate 64 5, part := some 0 }, by unfold State.atOnce; decide +kernel⟩,
    ⟨((scratch dev).setReq 3 ({ src := pgGcore 0, cls := 1, op := 3, addr := 0xFFFF010000000040, len := 20, data := List.replicate 20 5, part := some 0 })), 3, { src := pgGcore 0, cls := 1, op := 3, addr := 0xFFFF010000000040, len := 20, data := List.replicate 20 5, part := some 0 }, by unfold State.atOnce; decide +kernel⟩,
    ⟨((scratch dev).setReq 3 ({ src := pgGcore 0, cls := 1, op := 2, addr := 0xFFFF010100000040, len := 64, data := List.replicate 64 5, part := some 0 })), 3, 0, 0x40, { src := pgGcore 0, cls := 1, op := 2, addr := 0xFFFF010100000040, len := 64, data := List.replicate 64 5, part := some 0 }, by unfold State.atOnce; decide +kernel⟩⟩

theorem met_AtomicsOperateAtHome :
    (∃ (s : State) (id : Nat) (k : Nat) (off : Nat) (r : Req), (s.req id = some r) ∧ (isAtomic r.op = true) ∧ (r.via = none) ∧
        (r.remote = none) ∧ (r.ans = none) ∧ (s.viaCache r = none) ∧ (s.ownPkg r.addr = true) ∧
        (homeOf (localOf r.addr) = .slice k off) ∧ (s.atOnce id r)) ∧
    (∃ (s : State) (id : Nat) (k : Nat) (off : Nat) (r : Req), (s.req id = some r) ∧ (isReduce r.op = true) ∧ (r.via = none) ∧
        (r.remote = none) ∧ (r.ans = none) ∧ (s.viaCache r = none) ∧ (s.ownPkg r.addr = true) ∧
        (homeOf (localOf r.addr) = .slice k off) ∧ (s.atOnce id r)) ∧
    (∃ (s : State) (id : Nat) (r : Req), (s.req id = some r) ∧ (isAtomic r.op = false)) ∧
    (∃ (s : State) (id : Nat) (r : Req), (s.req id = some r) ∧ (isReduce r.op = false)) :=
  ⟨⟨(((dev.modSl 0 fun u => { u with active := 96 * 256 })).setReq 3
      ({ src := pgGcore 0, cls := 1, op := 0x10, ty := 6, addr := 0xFFFF010000000040, value := 5, part := some 0 })), 3, 0, 0x40,
      { src := pgGcore 0, cls := 1, op := 0x10, ty := 6, addr := 0xFFFF010000000040, value := 5, part := some 0 }, by unfold State.atOnce; decide +kernel⟩,
    ⟨(((dev.modSl 0 fun u => { u with active := 96 * 256 })).setReq 3
        ({ src := pgGcore 0, cls := 1, op := 0x20, ty := 4, addr := 0xFFFF010000000040, len := 64, data := List.replicate 64 5, part := some 0 })), 3, 0, 0x40, { src := pgGcore 0, cls := 1, op := 0x20, ty := 4, addr := 0xFFFF010000000040, len := 64, data := List.replicate 64 5, part := some 0 }, by unfold State.atOnce; decide +kernel⟩,
    ⟨((scratch dev).setReq 3 ({ src := pgGcore 0, cls := 1, op := 1, addr := 0xFFFF010000000040, len := 64, data := List.replicate 64 5, part := some 0 })), 3, { src := pgGcore 0, cls := 1, op := 1, addr := 0xFFFF010000000040, len := 64, data := List.replicate 64 5, part := some 0 }, by decide +kernel⟩,
    ⟨((scratch dev).setReq 3 ({ src := pgGcore 0, cls := 1, op := 1, addr := 0xFFFF010000000040, len := 64, data := List.replicate 64 5, part := some 0 })), 3, { src := pgGcore 0, cls := 1, op := 1, addr := 0xFFFF010000000040, len := 64, data := List.replicate 64 5, part := some 0 }, by decide +kernel⟩⟩

theorem met_TileControlInstructionsRun :
    (∃ (s : State) (m : Fin 320) (n : Nat), (s.tileIssues m 0 n)) ∧
    (∃ (s : State) (m : Fin 320) (n : Nat), (s.tileIssues m 1 n) ∧ (∀ j, nextTmm (s.mxProg m) (s.mx m).seq.pc = some j →
        (s.issued m n).loadsBad m (s.mxProg m) (tileInstr (s.mxProg m) j) = none)) ∧
    (∃ (s : State) (m : Fin 320) (n j : Nat), (s.tileIssues m 1 n) ∧ (nextTmm (s.mxProg m) (s.mx m).seq.pc = some j) ∧
        ((s.issued m n).loadsBad m (s.mxProg m) (tileInstr (s.mxProg m) j) ≠ none)) ∧
    (∃ (s : State) (m : Fin 320) (n : Nat), (s.tileIssues m 2 n)) ∧
    (∃ (s : State) (m : Fin 320) (n : Nat), (s.tileIssues m 6 n)) ∧
    (∃ (s : State) (m : Fin 320) (n : Nat), (s.tileIssues m 7 n)) ∧
    (∃ (s : State) (m : Fin 320), ((s.mx m).run = none) ∧ ((s.mx m).out = none) ∧ ((s.mx m).seq.ended = true) ∧
        (s.playing (s.mxPart m) = true) ∧ (s.restartAt (s.mxPart m) (s.mx m).seq.period ≤ s.cycles)) ∧
    (∃ (s : State) (m : Fin 320), ((s.mx m).run = none) ∧ ((s.mx m).out = none) ∧
        ((s.mx m).seq.ended = false ∨ s.playing (s.mxPart m) = false ∨ s.cycles < s.restartAt (s.mxPart m) (s.mx m).seq.period)) :=
  ⟨⟨(plays 7 [tileOf (0 + 7 * 2 ^ 49) 5] dev), 0, cyc5, by unfold State.tileIssues Issue.settled; decide +kernel⟩,
    ⟨(plays 7 [tileOf (1) 5] dev), 0, cyc5, by unfold State.tileIssues Issue.settled; decide +kernel⟩,
    ⟨plays 7 [twoTiles] dev, 0, cyc5, 1, by unfold State.tileIssues Issue.settled; decide +kernel⟩,
    ⟨(plays 7 [tileOf (2) 5] dev), 0, cyc5, by unfold State.tileIssues Issue.settled; decide +kernel⟩,
    ⟨(plays 7 [tileOf (6 + 1 * 2 ^ 52 + 0 * 2 ^ 49) 5] dev), 0, cyc5, by unfold State.tileIssues Issue.settled; decide +kernel⟩,
    ⟨(plays 7 [tileOf (7) 5] dev), 0, cyc5, by unfold State.tileIssues Issue.settled; decide +kernel⟩,
    ⟨(plays 6 [tileOf 7] dev).modMx 0 fun c => { c with seq := { c.seq with pc := 1, ended := true } }, 0, by decide +kernel⟩,
    ⟨(plays 6 [tileOf 7] dev).modMx 0 fun c => { c with seq := { c.seq with pc := 1, ended := true, period := 5 } }, 0,
        by decide +kernel⟩⟩

theorem met_TileOperationsRun :
    (∃ (s : State) (m : Fin 320), (0 < s.cycles) ∧ (s.tileIssues m 3 s.cycles) ∧
        ((s.issued m s.cycles).tmmBad m (s.mxProg m) (s.tileWord m) = none)) ∧
    (∃ (s : State) (m : Fin 320), (s.tileIssues m 4 s.cycles) ∧ ((s.issued m s.cycles).toutBad m (s.mxProg m) (s.tileWord m) = none)) ∧
    (∃ (s : State) (m : Fin 320) (n : Nat), (s.tileIssues m 5 n) ∧
        (2 ≤ tsMode (s.tileWord m) ∨ s.waitMet (m / 4) (s.tileWord m) = true)) ∧
    (∃ (s : State) (m : Fin 320) (n : Nat), (s.tileIssues m 5 n) ∧ (2 ≤ tsMode (s.tileWord m)) ∧
        (s.predHolds m (s.tileWord m) = true)) ∧
    (∃ (s : State) (m : Fin 320) (n : Nat), (s.tileIssues m 5 n) ∧ (tsMode (s.tileWord m) ≤ 1) ∧
        (s.waitMet (m / 4) (s.tileWord m) = false)) ∧
    (∃ (s : State) (m : Fin 320) (k : Nat) (w : Nat), ((s.mx m).seq.wait = some (k, w)) ∧ (s.playing (s.mxPart m) = true) ∧
        ((s.mx m).seq.floor ≤ s.cycles) ∧ (s.waitMet (m / 4) w = true)) ∧
    (∃ (s : State) (m : Fin 320), ((s.mx m).seq.wait = none)) :=
  ⟨⟨(plays 7 [tileOf (3) 9] dev), 0, by unfold State.tileIssues Issue.settled; decide +kernel⟩,
    ⟨(plays 7 [tileOf (4) 9] dev), 0, by unfold State.tileIssues Issue.settled; decide +kernel⟩,
    ⟨(plays 7 [tileOf (5 + 2 * 2 ^ 49) 5] dev), 0, cyc5, by unfold State.tileIssues Issue.settled; decide +kernel⟩,
    ⟨(plays 7 [tileOf (5 + 3 * 2 ^ 49) 5] dev), 0, cyc5, by unfold State.tileIssues Issue.settled; decide +kernel⟩,
    ⟨(plays 7 [tileOf (5 + 3 * 2 ^ 67) 9] dev), 0, cyc5 + 4 * 256, by unfold State.tileIssues Issue.settled; decide +kernel⟩,
    ⟨(plays 7 [tileOf 5] dev).modMx 0 fun c => { c with seq := { c.seq with pc := 1, wait := some (0, 5) } }, 0, 0, 5,
        by decide +kernel⟩,
    ⟨dev, 0, by decide +kernel⟩⟩

theorem met_MoverInstructionsRun :
    (∃ (s : State) (m : Fin 112) (n : Nat), (s.moverIssues m 0 n)) ∧
    (∃ (s : State) (m : Fin 112) (n : Nat), (s.moverIssues m 5 n) ∧
        (2 ≤ tsMode (s.moverWord m) ∨ s.waitMet (mvRouter m) (s.moverWord m) = true)) ∧
    (∃ (s : State) (m : Fin 112) (n : Nat), (s.moverIssues m 5 n) ∧ (tsMode (s.moverWord m) ≤ 1) ∧
        (s.waitMet (mvRouter m) (s.moverWord m) = false)) ∧
    (∃ (s : State) (m : Fin 112) (k : Nat) (w : Nat), ((s.mover m).seq.wait = some (k, w)) ∧ (s.playing (s.mvPart m) = true) ∧
        ((s.mover m).seq.floor ≤ s.cycles) ∧ (s.waitMet (mvRouter m) w = true)) ∧
    (∃ (s : State) (m : Fin 112) (n : Nat), (s.moverIssues m 7 n)) ∧
    (∃ (s : State) (m : Fin 112) (n : Nat), (s.moverIssues m 1 n)) ∧
    (∃ (s : State) (m : Fin 112), (s.moverIssues m 1 s.cycles) ∧ (isFar (s.moverWord m) = false) ∧ (mvCheck (s.moverWord m) = false) ∧
        (s.mxferBad m (s.mvProg m) (s.moverWord m) = none) ∧ (mvSrc (s.moverWord m) = 0) ∧ ((s.queue (pgMover m)).length < 16)) ∧
    (∃ (s : State) (m : Fin 112) (x : Xfer), ((s.mover m).xfer = some x) ∧ ((s.mover m).remote = []) ∧ (x.done ≤ s.cycles) ∧
        (x.status = 0) ∧ (mvSrc x.word = 0) ∧ (mvDst x.word = 0) ∧ (mvCrcW x.word = false)) ∧
    (∃ (s : State) (m : Fin 112) (x : Xfer), ((s.mover m).xfer = some x) ∧ ((s.mover m).remote = []) ∧ (s.cycles < x.done) ∧
        (mvSrc x.word = 0)) :=
  ⟨⟨(plays 7 [moverOf (0 + 7 * 2 ^ 49) 5] dev), 0, cyc5, by unfold State.moverIssues Issue.settled; decide +kernel⟩,
    ⟨(plays 7 [moverOf (5 + 2 * 2 ^ 49) 5] dev), 0, cyc5, by unfold State.moverIssues Issue.settled; decide +kernel⟩,
    ⟨(plays 7 [moverOf (5 + 3 * 2 ^ 67) 9] dev), 0, cyc5 + 4 * 256, by unfold State.moverIssues Issue.settled; decide +kernel⟩,
    ⟨(plays 7 [moverOf 5] dev).modMover 0 fun c => { c with seq := { c.seq with pc := 1, wait := some (0, 5) } }, 0, 0, 5,
        by decide +kernel⟩,
    ⟨(plays 7 [moverOf (7) 5] dev), 0, cyc5, by unfold State.moverIssues Issue.settled; decide +kernel⟩,
    ⟨(plays 7 [moverOf (1) 9] dev), 0, cyc5 + 4 * 256, by unfold State.moverIssues Issue.settled; decide +kernel⟩,
    ⟨(plays 7 [moverOf (1) 9] dev), 0, by unfold State.moverIssues Issue.settled; decide +kernel⟩,
    ⟨(plays 7 [moverOf 1] dev).modMover 0 fun c =>
        { c with xfer := some { word := 1, issue := 3, count := 4, done := 7, puts := [(0x010100000100, 8, 5, false)] } }, 0,
        { word := 1, issue := 3, count := 4, done := 7, puts := [(0x010100000100, 8, 5, false)] }, by decide +kernel⟩,
    ⟨(plays 7 [moverOf 1] dev).modMover 0 fun c =>
        { c with xfer := some { word := 1, issue := 3, count := 4, done := 2 ^ 40, puts := [(0x010100000100, 8, 5, false)] } }, 0,
        { word := 1, issue := 3, count := 4, done := 2 ^ 40, puts := [(0x010100000100, 8, 5, false)] }, by decide +kernel⟩⟩

theorem met_CoreWindowsAndWaits :
    (∃ (s : State) (g : Fin 640), (s.playing (s.gcPart g) = true) ∧ ((s.gc g).inWindow = false) ∧
        ((s.gc g).win < gsWins (s.gcProg g)) ∧ (s.winFirst (s.gcPart g) (s.gc g).period (gsWindow (s.gcProg g) (s.gc g).win) ≤
        s.cycles) ∧ (s.out (pgGcore g) = false)) ∧
    (∃ (s : State) (g : Fin 640), ((s.gc g).inWindow = true) ∧
        (s.winLast (s.gcPart g) (s.gc g).period (gsWindow (s.gcProg g) (s.gc g).win) < s.cycles)) ∧
    (∃ (s : State) (g : Fin 640), (s.gcRuns g = true)) ∧
    (∃ (s : State) (g : Fin 640), (s.gcRuns g = true)) ∧
    (∃ (s : State) (g : Fin 640), (s.gcRuns g = true)) ∧
    (∃ (s : State) (g : Fin 640), (s.gcRuns g = true)) ∧
    (∃ (s : State) (g : Fin 640) (rd : Nat) (n : Nat), ((s.gc g).htwait = some (rd, n))) ∧
    (∃ (s : State) (g : Fin 640), (s.gcRuns g = true)) ∧
    (∃ (s : State) (g : Fin 640) (rs1 : Fin 32), (s.gcRuns g = true) ∧
        (s.ownStore (s.gcPart g) (g.val / 8) ((s.gc g).getX rs1 % 2 ^ 16) = true)) ∧
    (∃ (s : State) (g : Fin 640) (rs1 : Fin 32), (s.gcRuns g = true) ∧
        (s.ownStore (s.gcPart g) (g.val / 8) ((s.gc g).getX rs1 % 2 ^ 16) = false)) ∧
    (∃ (s : State) (g : Fin 640) (rd : Nat) (i : Nat) (want : Nat) (ge : Bool), ((s.gc g).syncwait = some (rd, i, want, ge)) ∧
        (syncHolds ge want (s.flag (g.val / 8) i) = true)) ∧
    (∃ (s : State) (g : Fin 640) (rd rs1 : Fin 32) (imm : Fin 2048), (s.gcRuns g = true) ∧ ((s.gc g).ready ≤ s.cycles) ∧
        (s.cyclesLeft g ≠ 0) ∧ (s.gcProg g ≠ []) ∧ (rd ≠ 0) ∧ (fetchAt (s.gcProg g) (s.gc g).pc =
        .inl (imm.val * 2 ^ 20 + rs1.val * 2 ^ 15 + rd.val * 2 ^ 7 + 0x13, 4))) ∧
    (∃ (s : State) (g : Fin 640) (a : Nat), (s.gcRuns g = true) ∧ ((s.gc g).ready ≤ s.cycles) ∧ (s.cyclesLeft g ≠ 0) ∧
        (s.gcProg g ≠ []) ∧ (fetchAt (s.gcProg g) (s.gc g).pc = .inr a)) ∧
    (∃ (s : State) (g : Fin 640), ((s.gc g).inWindow = false) ∧ ((s.gc g).fault = none) ∧ ((s.gc g).awaits = none)) :=
  ⟨⟨plays 7 [coreOf] dev, 0, by decide +kernel⟩,
    ⟨at_ 7 30 (core 0), 0, by decide +kernel⟩,
    ⟨core 0, 0, by decide +kernel⟩,
    ⟨core 0, 0, by decide +kernel⟩,
    ⟨core 0, 0, by decide +kernel⟩,
    ⟨core 5, 0, by decide +kernel⟩,
    ⟨core 0 0 fun u => { u with htwait := some (7, 5) }, 0, 7, 5, by decide +kernel⟩,
    ⟨core 9 33, 0, by decide +kernel⟩,
    ⟨core 9 33, 0, 5, by decide +kernel⟩,
    ⟨core 0xFF00, 0, 5, by decide +kernel⟩,
    ⟨core 0 0 fun u => { u with syncwait := some (7, 3, 0, true) }, 0, 7, 3, 0, true, by decide +kernel⟩,
    ⟨runs (le 4 (5 * 2 ^ 20 + 5 * 2 ^ 15 + 7 * 2 ^ 7 + 0x13) ++ List.replicate 60 0) (core 9), 0, 7, 5, 5, by decide +kernel⟩,
    ⟨core 0 0 fun u => { u with pc := 4096 }, 0, 4096, by decide +kernel⟩,
    ⟨dev, 0, by decide +kernel⟩⟩

theorem met_CoreAccessesAndPacking :
    (∃ (s : State) (g : Fin 640) (op : Fin 9) (wide : Bool) (rs1 rs2 : Fin 32) (r : Req), (r = s.gcReq g (0x10 + (amoCode op wide).1) (amoCode op wide).2 ((s.gc g).getX rs1) 0
        (if wide then (s.gc g).getX rs2 else (s.gc g).getX rs2 % 2 ^ 32) 0) ∧ (s.gcReaches g r) ∧
        (crossesSector ((s.gc g).getX rs1) (if wide then 8 else 4) = false) ∧ (s.atomicAt ((s.gc g).getX rs1) = true)) ∧
    (∃ (s : State) (g : Fin 640) (w : Await) (a : Ans), (s.gcAnswered g 0 w a)) ∧
    (∃ (s : State) (g : Fin 640) (op : Fin 9) (wide : Bool) (rs1 rs2 : Fin 32) (r : Req), (r = s.gcReq g (0x10 + (amoCode op wide).1) (amoCode op wide).2 ((s.gc g).getX rs1) 0
        (if wide then (s.gc g).getX rs2 else (s.gc g).getX rs2 % 2 ^ 32) 0) ∧ (s.gcRuns g = true) ∧ (s.originStatus r = 0) ∧
        (crossesSector ((s.gc g).getX rs1) (if wide then 8 else 4) = false) ∧ (s.atomicAt ((s.gc g).getX rs1) = false)) ∧
    (∃ (s : State) (g : Fin 640) (wide : Bool) (rs1 : Fin 32) (a : Nat) (n : Nat), (a = (s.gc g).getX rs1) ∧
        (n = (if wide then 8 else 4)) ∧ (s.gcReaches g (s.gcReq g 0x01 0 a n 0 0)) ∧ (a % n = 0) ∧ (s.atomicAt a = true)) ∧
    (∃ (s : State) (g : Fin 640) (w : Await) (a : Ans), (s.gcAnswered g 1 w a)) ∧
    (∃ (s : State) (g : Fin 640) (wide : Bool) (rs1 : Fin 32) (rs2 : Fin 32) (a : Nat) (n : Nat) (v : Nat) (r :
        Req), (a = (s.gc g).getX rs1) ∧ (n = (if wide then 8 else 4)) ∧
        (r = s.gcReq g 0x14 (if wide then 7 else 6) a 0 ((s.gc g).getX rs2 % 2 ^ (8 * n)) v) ∧ (s.gcReaches g r) ∧ (a % n = 0) ∧
        ((s.gc g).reserved = some (a, n, v)) ∧ (s.atomicAt a = true)) ∧
    (∃ (s : State) (g : Fin 640) (w : Await) (a : Ans), (s.gcAnswered g 2 w a)) ∧
    (∃ (s : State) (g : Fin 640) (wide : Bool) (rs1 : Fin 32) (a : Nat), (a = (s.gc g).getX rs1) ∧ (s.gcRuns g = true) ∧
        (a % (if wide then 8 else 4) = 0) ∧ (s.atomicAt a = true) ∧ ((s.gc g).reserved = none)) ∧
    (∃ (s : State) (g : Fin 640) (rs1 : Fin 32) (a : Nat), (a = (s.gc g).getX rs1) ∧ (s.gcReaches g (s.gcReq g 0x01 0 a 2048 0 0)) ∧
        (a % 2048 = 0)) ∧
    (∃ (s : State) (g : Fin 640) (w : Await) (a : Ans), (s.gcAnswered g 3 w a)) ∧
    (∃ (s : State) (g : Fin 640) (rs1 : Fin 32) (a : Nat), (a = (s.gc g).getX rs1) ∧
        (s.gcReaches g (s.gcReq g 0x01 0 a 64 0 0)) ∧ (a % 64 = 0)) ∧
    (∃ (s : State) (g : Fin 640) (w : Await) (a : Ans) (st : Nat), (s.gcAnswered g 4 w a) ∧
        (st = coreDesc (s.gcPart g) (Tensor.of a.data))) ∧
    (∃ (s : State) (g : Fin 640) (wide : Bool) (rs1 : Fin 32), (s.gcRuns g = true) ∧
        ((s.gc g).getX rs1 % (if wide then 8 else 4) ≠ 0)) ∧
    (∃ (s : State) (g : Fin 640) (vs : Fin 32) (rs1 : Fin 32) (x : Bytes × Nat), (s.gcRuns g = true) ∧
        ((s.gc g).mxIllegal vs ((s.gc g).getX rs1 % 32) = false) ∧
        (x = mxPack ((s.gc g).getX rs1 % 32) ((List.range 32).map fun i => fFP32.decode (fieldAt ((s.gc g).getV vs ++
        (s.gc g).getV (vs.val + 1)) (4 * i) 4)))) ∧
    (∃ (s : State) (g : Fin 640) (vs : Fin 32) (rs1 : Fin 32), (s.gcRuns g = true) ∧
        ((s.gc g).mxIllegal vs ((s.gc g).getX rs1 % 32) = true)) ∧
    (∃ (s : State) (g : Fin 640) (vd : Fin 32) (rs1 : Fin 32), (s.gcRuns g = true) ∧
        ((s.gc g).mxIllegal vd ((s.gc g).getX rs1 % 32) = false)) :=
  ⟨⟨core atom 9, 0, 0, true, 5, 6,
        (core atom 9).gcReq 0 (0x10 + (amoCode 0 true).1) (amoCode 0 true).2 atom 0 9 0, by unfold State.gcReaches; decide +kernel⟩,
    ⟨answered 0 { value := 5, data := [] }, 0, await 0, { value := 5, data := [] }, by unfold State.gcAnswered; decide +kernel⟩,
    ⟨core 0xFFFF000000000800 9, 0, 0, true, 5, 6,
        (core 0xFFFF000000000800 9).gcReq 0 (0x10 + (amoCode 0 true).1) (amoCode 0 true).2 0xFFFF000000000800 0 9 0, by decide +kernel⟩,
    ⟨core atom 9, 0, true, 5, atom, 8, by unfold State.gcReaches; decide +kernel⟩,
    ⟨answered 1 { value := 5, data := le 8 6 }, 0, await 1, { value := 5, data := le 8 6 }, by unfold State.gcAnswered; decide +kernel⟩,
    ⟨(core atom 9 fun u => { u with reserved := some (atom, 8, 0) }), 0, true, 5, 6, atom, 8, 0,
        (core atom 9 fun u => { u with reserved := some (atom, 8, 0) }).gcReq 0 0x14 7 atom 0 9 0, by unfold State.gcReaches; decide +kernel⟩,
    ⟨answered 2 { value := 5, data := [] }, 0, await 2, { value := 5, data := [] }, by unfold State.gcAnswered; decide +kernel⟩,
    ⟨core atom 9, 0, true, 5, atom, by decide +kernel⟩,
    ⟨core 0xFFFF010000000800, 0, 5, 0xFFFF010000000800, by unfold State.gcReaches; decide +kernel⟩,
    ⟨answered 3 { value := 5, data := List.replicate 2048 6 }, 0, await 3, { value := 5, data := List.replicate 2048 6 }, by unfold State.gcAnswered; decide +kernel⟩,
    ⟨core 0xFFFF010000000800, 0, 5, 0xFFFF010000000800, by unfold State.gcReaches; decide +kernel⟩,
    ⟨answered 4 { value := 5, data := oneElem }, 0, await 4, { value := 5, data := oneElem }, coreDesc 0 (Tensor.of oneElem), by unfold State.gcAnswered; decide +kernel⟩,
    ⟨core 6, 0, true, 5, by decide +kernel⟩,
    ⟨core 5 0 fun u => { u with csr := [(csrMstatus, 512)] }, 0, 4, 5, mxPack 5 ((List.range 32).map fun _ => fFP32.decode 0),
        by decide +kernel⟩,
    ⟨core 5, 0, 3, 5, by decide +kernel⟩,
    ⟨core 5 0 fun u => { u with csr := [(csrMstatus, 512)], v := [(4, List.replicate 64 37)] }, 0, 2, 5, by decide +kernel⟩⟩

theorem nothing_cached (a : Nat) : suspected.cacheSlice a (some (suspected.partOfRiser 0)) = none := by
  have h : ∀ n, suspected.cacheMb n = 0 := fun n => by
    have e : suspected.slices = [(0, { suspects := [⟨0xFFFF000000000000, 0xFFFF000000001000⟩] })] := by decide +kernel
    unfold State.cacheMb State.scratchMb State.sl
    rw [e]
    by_cases z : n = 0 <;> simp [aget, z]
  unfold State.cacheSlice
  simp only [h]
  split
  · simp
  · split <;> rfl
  · rfl

theorem zeros_sum : crc32c (List.replicate 2048 0) = 2760475471 := by decide +kernel

theorem block_plain : ((List.range 2048).all fun i => !suspected.deadAt i && decide (suspected.getB i = 0)) = true := by decide +kernel

theorem block_zeros : (suspected.checkBlock (suspected.partOfRiser 0) 0xFFFF000000000000).1 = List.replicate 2048 0 := by
  have h : ∀ i, i < 2048 → suspected.deadAt i = false ∧ suspected.getB i = 0 := fun i hi => by
    have := List.all_eq_true.mp block_plain i (List.mem_range.mpr hi)
    simpa using this
  unfold State.checkBlock State.peek State.copyOf State.lineAt
  simp only [nothing_cached]
  refine List.ext_getElem (by simp) fun i hi _ => ?_
  have hi' : i < 2048 := by simpa using hi
  simp only [List.getElem_map, List.getElem_range, State.readMem, localOf]
  rw [List.getD_eq_getElem _ _ (by simpa using hi')]
  simp only [List.getElem_map, List.getElem_range]
  rw [List.getElem_replicate]
  simp [(h i hi').1, (h i hi').2]

theorem block_sum : crc32c (suspected.checkBlock (suspected.partOfRiser 0) 0xFFFF000000000000).1 =
    suspected.checkEntry (suspected.partOfRiser 0) 0xFFFF000000001000 0 := by
  rw [block_zeros, zeros_sum]
  decide +kernel

theorem met_CachesAndChecksWork :
    (∃ (s : State) (k : Fin 80) (a : MemAccess), (a.write = true) ∧ (s.bankFree k a) ∧
        (fwRegion (a.off + a.data.length - 1) = false ∨ pgType a.who = 0x0070 ∨ accessFirmware a k = true)) ∧
    (∃ (a : MemAccess), (a.write = false)) ∧
    (∃ (s : State) (k : Fin 80) (a : MemAccess) (i : Nat), (a.write = false) ∧ (s.bankFree k a) ∧
        (fwRegion (a.off + a.len - 1) = false ∨ pgType a.who = 0x0070 ∨ accessFirmware a k = true) ∧ (a.parity = [i]) ∧
        (a.off / 64 + i < 12 * mib / 64)) ∧
    (∃ (s : State) (k : Fin 80) (a : MemAccess), (0 < accessSpan a) ∧ (a.off + accessSpan a ≤ 12 * mib) ∧
        (fwRegion (a.off + accessSpan a - 1) = true) ∧ (pgType a.who ≠ 0x0070) ∧ (accessFirmware a k = false) ∧
        (accessProgram a = true → s.gcRuns (pgInst a.who) = true)) ∧
    (∃ (s : State) (k : Fin 80) (g : Nat), (s.patrolCore k = some g) ∧ (s.out (pgCluster k) = false) ∧
        (s.rd (pgCluster k) CL_PATROL_CNT_COUNT ≠ 0) ∧ ((s.gc (8 * k)).patrolIds = [])) ∧
    (∃ (s : State) (k : Fin 80) (g i : Nat) (d : Ans), (s.patrolCore k = some g) ∧ (s.out (pgCluster k) = false) ∧
        (s.rd (pgCluster k) CL_PATROL_CNT_COUNT ≠ 0) ∧ ((s.gc (8 * k)).patrolIds = [i]) ∧
        ((s.gc (8 * k)).patrolAt = (s.patrolEntry k, s.rd (pgCluster k) CL_PATROL_BLK_BLOCK)) ∧ (s.takeDone i = some d) ∧
        (d.status = 0) ∧ (coreDesc (s.partOfRiser (k / 10)) (Tensor.of d.data) = 0) ∧ ((Tensor.of d.data).checked = true) ∧
        (s.rd (pgCluster k) CL_PATROL_BLK_BLOCK < (Tensor.of d.data).blocks)) ∧
    (∃ (s : State) (k : Fin 80) (g i j l blk : Nat) (b e d : Ans), (s.patrolCore k = some g) ∧ (s.out (pgCluster k) = false) ∧
        (blk = s.rd (pgCluster k) CL_PATROL_BLK_BLOCK) ∧ (s.rd (pgCluster k) CL_PATROL_CNT_COUNT ≠ 0) ∧ 
        ((s.gc (8 * k)).patrolIds = [i, j, l]) ∧ ((s.gc (8 * k)).patrolAt = (s.patrolEntry k, blk)) ∧ (s.takeDone i = some b) ∧
        (s.takeDone j = some e) ∧ (s.takeDone l = some d) ∧ (b.status ≤ 1) ∧ (e.status ≤ 1) ∧ (d.status = 0) ∧
        (coreDesc (s.partOfRiser (k / 10)) (Tensor.of d.data) = 0) ∧ ((Tensor.of d.data).checked = true) ∧ (blk + 1 < (Tensor.of d.data).blocks)) ∧
    (∃ (s : State) (n : Fin 8) (id : Nat) (a : Nat) (n' : Nat) (r : Req) (f : Via) (e : Nat × Nat × Nat) (l : CLine),
        (s.cached id = some (r, f, a)) ∧ ((linesOf a r.span).filter (fun e => decide (f e.1 = some n.val)) = [e]) ∧
        (s.missOf f r e = 0) ∧ (s.lineAt f e.1 = some (n', l))) ∧
    (∃ (s : State) (n : Fin 8) (id : Nat) (a : Nat) (r : Req) (f : Via) (e : Nat × Nat × Nat), (s.cached id = some (r, f, a)) ∧
        ((linesOf a r.span).filter (fun e => decide (f e.1 = some n.val)) = [e]) ∧ (s.missOf f r e ≠ 0) ∧
        (hasAll (aget 0 (s.sl n).fills e.1) (s.missOf f r e) = false)) ∧
    (∃ (s : State) (n : Fin 8) (line : Nat) (status : Nat) (l : CLine), (aget 0 (s.sl n).fills line % 16 ≠ 0) ∧
        (bit (aget 0 (s.sl n).fills line) 4 = false) ∧ (s.fillStatus line status ≤ 1) ∧ ((s.sl n).find line = some l)) ∧
    (∃ (s : State) (n : Fin 8) (line : Nat), (aget 0 (s.sl n).fills line % 16 = 0)) ∧
    (∃ (s : State) (n : Fin 8), (s.on (pgSlice n) SB_CACHE_CTRL_FLUSH = true)) ∧
    (∃ (s : State) (n : Fin 8), (s.on (pgSlice n) SB_CACHE_CTRL_FLUSH = false)) ∧
    (∃ (s : State) (n : Fin 8) (e : Suspect) (es : List Suspect), (s.settles n e es)) ∧
    (∃ (s : State) (n : Fin 8) (e : Suspect) (es : List Suspect) (x : Req × Nat), (s.settles n e es) ∧
        (s.rebuildBad (s.partOfRiser n) n [(e.table, 64), (e.block, 2048)] = some x)) ∧
    (∃ (s : State) (n : Fin 8) (e : Suspect) (es : List Suspect) (h : CheckHdr) (j : Nat), (s.settles n e es) ∧
        (∀ a, s.cacheSlice a (some (s.partOfRiser n)) = none) ∧
        (s.rebuildBad (s.partOfRiser n) n [(e.table, 64), (e.block, 2048)] = none) ∧ (h = s.checkHdr (s.partOfRiser n) e.table) ∧
        (h.ok = true) ∧ (e.block = h.addr + 2048 * j) ∧ (j < h.blocks) ∧
        (s.rebuildBad (s.partOfRiser n) n [(e.table + 0x40 + 4 * j, 4)] = none) ∧
        (crc32c (s.checkBlock (s.partOfRiser n) e.block).1 = s.checkEntry (s.partOfRiser n) e.table j)) ∧
    (∃ (s : State) (n : Fin 8), ((s.sl n).suspects = [])) :=
  ⟨⟨dev, 0, { who := pgGcore 0, off := 100, write := true, len := 64, data := [4, 5], machine := true }, by unfold State.bankFree; decide +kernel⟩,
    ⟨{ who := pgGcore 0, off := 100 }, by decide⟩,
    ⟨dev, 0, { who := pgMatrix 0, off := 128, parity := [0] }, 0, by unfold State.bankFree; decide +kernel⟩,
    ⟨core 0, 0, { who := pgGcore 0, off := 0xBC0000, write := true, data := [4, 5] }, by decide +kernel⟩,
    ⟨patrolling [] [], 0, 0, by decide +kernel⟩,
    ⟨patrolling [5] [(5, { data := twoBlocks })], 0, 0, 5, { data := twoBlocks }, by unfold State.patrolEntry; decide +kernel⟩,
    ⟨patrolling [5, 6, 7] [(5, {}), (6, {}), (7, { data := twoBlocks })], 0, 0, 5, 6, 7, 0, {}, {}, { data := twoBlocks },
        by unfold State.patrolEntry; decide +kernel⟩,
    ⟨(((((dev.modSl 0 fun u => { u with active := 0 }).wr (pgSlice 0) SB_CRANGE_COUNT 4).wr (pgSlice 0) SB_CRANGE_VALID 1).setReq 3
        { src := pgGcore 0, cls := 1, op := 1, addr := 0xFFFF000000000040, len := 64, part := some 0 }).modSl 0 fun u =>
        { u with lines := [{ line := 0, valid := 15, data := List.replicate 256 7 }] }), 0, 3,
        (((((((dev.modSl 0 fun u => { u with active := 0 }).wr (pgSlice 0) SB_CRANGE_COUNT 4).wr (pgSlice 0) SB_CRANGE_VALID 1).setReq
        3 { src := pgGcore 0, cls := 1, op := 1, addr := 0xFFFF000000000040, len := 64, part := some 0 }).modSl 0 fun u =>
        { u with lines := [{ line := 0, valid := 15, data := List.replicate 256 7 }] }).cached 3).get (by decide +kernel)).2.2, 0,
        (((((((dev.modSl 0 fun u => { u with active := 0 }).wr (pgSlice 0) SB_CRANGE_COUNT 4).wr (pgSlice 0) SB_CRANGE_VALID 1).setReq
        3 { src := pgGcore 0, cls := 1, op := 1, addr := 0xFFFF000000000040, len := 64, part := some 0 }).modSl 0 fun u =>
        { u with lines := [{ line := 0, valid := 15, data := List.replicate 256 7 }] }).cached 3).get (by decide +kernel)).1,
        (((((((dev.modSl 0 fun u => { u with active := 0 }).wr (pgSlice 0) SB_CRANGE_COUNT 4).wr (pgSlice 0) SB_CRANGE_VALID 1).setReq
        3 { src := pgGcore 0, cls := 1, op := 1, addr := 0xFFFF000000000040, len := 64, part := some 0 }).modSl 0 fun u =>
        { u with lines := [{ line := 0, valid := 15, data := List.replicate 256 7 }] }).cached 3).get (by decide +kernel)).2.1, (0, 2,
        2), { line := 0, valid := 15, data := List.replicate 256 7 }, (Option.some_get (by decide +kernel)).symm, by decide +kernel⟩,
    ⟨(((((dev.modSl 0 fun u => { u with active := 0 }).wr (pgSlice 0) SB_CRANGE_COUNT 4).wr (pgSlice 0) SB_CRANGE_VALID 1).setReq 3
        { src := pgGcore 0, cls := 1, op := 1, addr := 0xFFFF000000000040, len := 64, part := some 0 })), 0, 3,
        (((((((dev.modSl 0 fun u => { u with active := 0 }).wr (pgSlice 0) SB_CRANGE_COUNT 4).wr (pgSlice 0) SB_CRANGE_VALID 1).setReq
        3 { src := pgGcore 0, cls := 1, op := 1, addr := 0xFFFF000000000040, len := 64, part := some 0 })).cached 3).get (by
        decide +kernel)).2.2, (((((((dev.modSl 0 fun u => { u with active := 0 }).wr (pgSlice 0) SB_CRANGE_COUNT 4).wr (pgSlice 0)
        SB_CRANGE_VALID 1).setReq 3
        { src := pgGcore 0, cls := 1, op := 1, addr := 0xFFFF000000000040, len := 64, part := some 0 })).cached 3).get (by
        decide +kernel)).1, (((((((dev.modSl 0 fun u => { u with active := 0 }).wr (pgSlice 0) SB_CRANGE_COUNT 4).wr (pgSlice 0)
        SB_CRANGE_VALID 1).setReq 3
        { src := pgGcore 0, cls := 1, op := 1, addr := 0xFFFF000000000040, len := 64, part := some 0 })).cached 3).get (by
        decide +kernel)).2.1, (0, 2, 2), (Option.some_get (by decide +kernel)).symm, by decide +kernel⟩,
    ⟨dev.modSl 0 fun u => { u with fills := [(0, 3)], lines := [{ line := 0, valid := 8, data := List.replicate 256 7 }] }, 0, 0, 0,
        { line := 0, valid := 8, data := List.replicate 256 7 }, by decide +kernel⟩,
    ⟨dev, 0, 0, by decide +kernel⟩,
    ⟨dev.wr (pgSlice 0) SB_CACHE_CTRL_FLUSH 1, 0, by decide +kernel⟩,
    ⟨dev, 0, by decide +kernel⟩,
    ⟨dev.modSl 0 fun u => { u with suspects := [⟨3, 0x010000000000⟩, ⟨4, 0x010000000000⟩] }, 0, ⟨3, 0x010000000000⟩, [⟨4,
        0x010000000000⟩], by unfold State.settles; decide +kernel⟩,
    ⟨dev.modSl 0 fun u => { u with suspects := [⟨3, 0x010000000000⟩] }, 0, ⟨3, 0x010000000000⟩, [], _,
      by unfold State.settles; decide +kernel, (Option.some_get (by decide +kernel)).symm⟩,
    ⟨suspected, 0, ⟨0xFFFF000000000000, 0xFFFF000000001000⟩, [], tableOf, 0, by unfold State.settles; decide +kernel, nothing_cached,
      by decide +kernel, by decide +kernel, rfl, rfl, by decide, by decide +kernel, block_sum⟩,
    ⟨dev, 0, by decide +kernel⟩⟩

theorem met_ExpandersAndDecoders :
    (∃ (s : State) (x : Fin 2), (s.cxUp x = true)) ∧
    (∃ (s : State) (x : Fin 2) (id : Nat) (e : Nat × Req), ((s.cxReqs x).find? (fun e => decide (e.1 = id)) = some e) ∧
        (e.2.via = none) ∧ (s.rd (pgCxl x) CX_TIMEOUT_US * usTicks ≤ s.real - e.2.issuedAt)) ∧
    (∃ (s : State) (x : Fin 2) (id : Nat), ((s.cxReqs x).find? (fun e => decide (e.1 = id)) = none)) ∧
    (∃ (s : State) (x : Fin 2), (10 ≤ s.boot.next) ∧ (s.pins.refclk = true) ∧ (s.pins.gated = false) ∧ (s.cxFree x = true)) ∧
    (∃ (s : State) (r : Requester) (x : Fin 2) (d : Fin 8), (s.takesField r (pgCxl x) CX_DEC_CTRL_COMMIT 1 d)) ∧
    (∃ (s : State) (x : Fin 2) (d : Fin 8) (n : Nat) (e : Nat) (a : Dec),
        ((s.cx x).asked.find? (fun e => decide (e.1 = d.val)) = some (n, e, a)) ∧ (e < s.time.epochs) ∧ (s.slot = 0) ∧ (s.dueBy (40 + 8 * x.val + d.val) s.epoch = true) ∧
        (a.tags = false ∨ s.cxUp x = true)) ∧
    (∃ (s : State) (x : Fin 2) (d : Fin 8) (n : Nat) (e : Nat) (a : Dec),
        ((s.cx x).asked.find? (fun e => decide (e.1 = d.val)) = some (n, e, a)) ∧ (s.time.epochs ≤ e ∨ s.slot ≠ 0 ∨ s.dueBy (40 + 8 * x.val + d.val) s.epoch = false)) :=
  ⟨⟨((dev.wr (pgCxl 0) CX_STATUS_STATE 3).modHall fun h => { h with owners := [(24, 8)] }).modSl 0 fun u =>
      { u with fills := [(0x080000000000 / 256, 3)] }, 0, by decide +kernel⟩,
    ⟨{ ((dev.wr (pgCxl 0) CX_STATUS_STATE 3).modHall fun h => { h with owners := [(24, 8)] }).setReq 3 { src := pgGcore 0, cls := 1, op := 1, addr := 0xFFFF080000000040, len := 64, part := some 0 } with real := 2 ^ 40 }, 0, 3, (3, { src := pgGcore 0, cls := 1, op := 1, addr := 0xFFFF080000000040, len := 64, part := some 0 }), by decide +kernel⟩,
    ⟨dev, 0, 3, by decide +kernel⟩,
    ⟨dev, 0, by decide +kernel⟩,
    ⟨((dev.wr (pgCxl 0) CX_STATUS_STATE 3).modHall fun h => { h with owners := [(24, 8)] }), .sprue, 0, 2,
        by unfold State.takesField State.takes; decide +kernel⟩,
    ⟨at_ 7 0 (dev.modCx 0 fun u =>
        { u with asked := [(2, 6, { base := 0, size := 1, ways := 0, ig := 0, targets := 0, tags := false, tagDec := 0, tagRegion := false })] }), 0, 2, 2, 6, { base := 0, size := 1, ways := 0, ig := 0, targets := 0, tags := false, tagDec := 0, tagRegion := false }, by decide +kernel⟩,
    ⟨dev.modCx 0 fun u => { u with asked := [(2, 6, { base := 0, size := 1, ways := 0, ig := 0, targets := 0, tags := true, tagDec := 0, tagRegion := false })] }, 0, 2, 2, 6, { base := 0, size := 1, ways := 0, ig := 0, targets := 0, tags := true, tagDec := 0, tagRegion := false }, by decide +kernel⟩⟩

theorem met_RegisterAccessesAct :
    (∃ (s : State) (r : Requester) (pg : Nat) (w : Nat), (s.takes r pg (SCRATCH_VALUE.at 0) w)) ∧
    (∃ (s : State) (r : Requester) (pg : Nat) (o : Nat) (w : Nat) (cause : Nat), (reachStatus (reqIdent r) (offOf pg o) = 0) ∧
        (placeOf (offOf pg o) = .page pg o) ∧ (s.closedTo (reqIdent r) pg = false) ∧
        (s.writeCause none pg (w % 2 ^ 32) (cellsAt pg o) = cause) ∧ (cause ≠ 0)) ∧
    (∃ (s : State) (r : Requester) (pg : Nat) (o : Nat) (e : Fld × Nat), (reachStatus (reqIdent r) (offOf pg o) = 0) ∧
        (placeOf (offOf pg o) = .page pg o) ∧ (s.closedTo (reqIdent r) pg = false) ∧ (e ∈ cellsAt pg o) ∧ (e.1.acc = .rc) ∧
        (e.1 ≠ MC_XG_INFO_PARITY) ∧ (e.1.off < 0x040 ∨ s.service pg < 2)) ∧
    (∃ (s : State) (r : Requester) (pg : Nat) (o : Nat) (c : Nat), (reachStatus (reqIdent r) (offOf pg o) = 0) ∧
        (placeOf (offOf pg o) = .page pg o) ∧ (s.closedTo (reqIdent r) pg = false) ∧ (c ∈ companions pg o)) ∧
    (∃ (s : State) (r : Requester) (pg : Nat), (s.takes r pg 0x01C 1) ∧ (pg ≠ pgBu)) ∧
    (∃ (s : State) (r : Requester) (pg : Nat), (s.takesField r pg PAGE_CTRL_FENCE 1) ∧ (fenceable pg = true) ∧
        (s.on pg PAGE_CTRL_FENCE = false)) ∧
    (∃ (s : State) (r : Requester) (pg : Nat), (s.takesField r pg PAGE_CTRL_RESET_REQ 1) ∧ (resettable pg = true) ∧
        (s.on pg PAGE_CTRL_RESET_REQ = false)) ∧
    (∃ (s : State) (r : Requester) (pg : Nat), (s.takesField r pg PAGE_CTRL_ENABLE 0)) :=
  ⟨⟨dev, .sprue, pgBu, 5, by unfold State.takes; decide +kernel⟩,
    ⟨(dev.wr (pgChannel 7) PAGE_STAT_SERVICE 1), .sprue, pgChannel 7, MC_TRAIN_CTRL_REQUEST.at 0, 2^32-1,
        (dev.wr (pgChannel 7) PAGE_STAT_SERVICE 1).writeCause none (pgChannel 7) (2^32-1) (cellsAt (pgChannel 7)
        (MC_TRAIN_CTRL_REQUEST.at 0)), by decide +kernel⟩,
    ⟨dev.wr (pgMatrix 0) MX_WLATE_COUNT 9, .sprue, pgMatrix 0, 0x054, (MX_WLATE_COUNT, 0), by decide +kernel⟩,
    ⟨dev, .sprue, pgHt, 0x040, 0x044, by decide +kernel⟩,
    ⟨dev, .sprue, pgHt, by unfold State.takes; decide +kernel⟩,
    ⟨dev, .sprue, pgMatrix 4, by unfold State.takesField State.takes; decide +kernel⟩,
    ⟨dev, .sprue, pgMatrix 4, by unfold State.takesField State.takes; decide +kernel⟩,
    ⟨dev.wr (pgMatrix 4) PAGE_CTRL_ENABLE 1, .sprue, pgMatrix 4, by unfold State.takesField State.takes; decide +kernel⟩⟩

theorem met_ConfigurationWritesAct :
    (∃ (s : State) (r : Requester) (n : Fin 4), (s.takes r pgBu 0x100 n)) ∧
    (∃ (s : State) (r : Requester) (p : Fin 8) (seed : Nat), (s.takes r pgBu (PT_SEED_SEED.at p) (seed % 65536))) ∧
    (∃ (s : State) (r : Requester) (q : Fin 24) (p : Fin 8) (v : Bool), (s.takes r pgBu (PT_RN_ASSIGN_PART.at q) (p + 8 * v.toNat))) ∧
    (∃ (s : State) (r : Requester) (x : Fin 2) (p : Fin 8) (v : Bool), (s.takes r pgBu (PT_CX_ASSIGN_PART.at x) (p + 8 * v.toNat))) ∧
    (∃ (s : State) (r : Requester) (k : Fin 80) (g : Fin 3) (w : Nat), (s.takes r (pgCluster k) (0x064 + 4 * g) w)) ∧
    (∃ (s : State) (r : Requester) (k : Fin 88) (c : Fin 6) (w : Nat),
        (s.takes r (pgControl k) (NW_REG_TGT_TARGET.at c) (w % 65536))) ∧
    (∃ (s : State) (r : Requester) (k : Fin 88) (i : Fin 256) (w : Nat), (s.takes r (pgSync k) (NW_SFLAG_HI_VALUE.at i) w)) ∧
    (∃ (s : State) (r : Requester) (c : Fin 256), (s.takesField r (pgChannel c) MC_TRAIN_CTRL_REQUEST 1)) ∧
    (∃ (s : State) (r : Requester) (n : Fin 8) (m : Nat), (s.takes r (pgColumns n) 0x050 m)) ∧
    (∃ (s : State) (r : Requester) (q : Fin 24), (s.takesField r (pgRunner q) RN_PCTRL_RETRAIN 1) ∧ (s.pst q = 6)) ∧
    (∃ (s : State) (r : Requester) (n : Fin 8), (s.takesField r (pgSlice n) SB_CACHE_CTRL_FLUSH 1) ∧
        (s.on (pgSlice n) SB_CACHE_CTRL_FLUSH = false)) ∧
    (∃ (s : State) (r : Requester) (n : Fin 8) (w : Nat), (s.takes r (pgSlice n) 0x044 w)) ∧
    (∃ (s : State) (r : Requester), (s.takesField r pgHk HK_REPLAN_CTRL_REQUEST 1)) ∧
    (∃ (s : State) (r : Requester) (w : Nat), (s.takes r pgEv 0x048 w)) ∧
    (∃ (s : State) (r : Requester) (tag : Nat), (s.takes r pgHall 0x050 (tag % 2 ^ 30))) ∧
    (∃ (s : State) (r : Requester) (m : Nat) (p : Nat), (s.takes r pgHall 0x05C (m % 256)) ∧ (p < 8) ∧ (bit m p = true) ∧
        (∀ e ∈ s.hall.swaps, e.1 ≠ p)) ∧
    (∃ (s : State) (r : Requester) (m : Nat) (p : Nat), (s.takes r pgHall 0x060 (m % 256)) ∧ (p < 8) ∧ (bit m p = true) ∧
        (∀ e ∈ s.hall.copies, e.1 ≠ p)) ∧
    (∃ (s : State) (p : Fin 8), ((s.hall.copies.any fun e => decide (e.1 = p.val)) = true)) ∧
    (∃ (s : State) (r : Requester) (w : Nat), (s.takes r pgHall 0x040 (w % 65536))) :=
  ⟨⟨dev, .sprue, 2, by unfold State.takes; decide +kernel⟩,
    ⟨dev, .sprue, 0, 77777, by unfold State.takes; decide +kernel⟩,
    ⟨dev, .sprue, 3, 0, true, by unfold State.takes; decide +kernel⟩,
    ⟨dev, .sprue, 1, 0, true, by unfold State.takes; decide +kernel⟩,
    ⟨dev, .sprue, 3, 1, 0x40, by unfold State.takes; decide +kernel⟩,
    ⟨dev, .sprue, 3, 2, 70000, by unfold State.takes; decide +kernel⟩,
    ⟨dev, .sprue, 3, 2, 2^32+7, by unfold State.takes; decide +kernel⟩,
    ⟨dev.wr (pgChannel 3) MC_STATUS_STATE 1, .sprue, 3, by unfold State.takesField State.takes; decide +kernel⟩,
    ⟨dev, .sprue, 3, 6, by unfold State.takes; decide +kernel⟩,
    ⟨joined, .sprue, 2, by unfold State.takesField State.takes; decide +kernel⟩,
    ⟨dev, .sprue, 3, by unfold State.takesField State.takes; decide +kernel⟩,
    ⟨dev, .sprue, 3, 8, by unfold State.takes; decide +kernel⟩,
    ⟨dev, .sprue, by unfold State.takesField State.takes; decide +kernel⟩,
    ⟨dev, .sprue, 0, by unfold State.takes; decide +kernel⟩,
    ⟨joined.wrs pgHall [(NW_HMEMB_STAGE_LO_PKG, 9), (NW_HMEMB_STAGE_LO_STATE, 0)], .sprue, 12, by unfold State.takes; decide +kernel⟩,
    ⟨dev, .sprue, 1, 0, by unfold State.takes; decide +kernel⟩,
    ⟨dev, .sprue, 1, 0, by unfold State.takes; decide +kernel⟩,
    ⟨dev.modHall fun h => { h with copies := [(0, 3)] }, 0, by decide +kernel⟩,
    ⟨dev, .sprue, 44, by unfold State.takes; decide +kernel⟩⟩

end Sys2Proof.Tests
end

section
/-!
Proofs of the family 02_hall_time.md: HOLDOVER, LOST and time marks (O17). What an event leaves of real time and of the Runner
ports' states comes first, as the cross-check of marks (R54) reads both; then what LOST does, what a cross-check can do, and
the statement's clauses.
-/

namespace Sys2Proof.Machine

open Sys2Proof

/-! ### Commands that change nothing -/

theorem only_self (l : List Comp) (s : State) : s.only l s = s := by simp [State.only]

/-- A command whose effect is the state itself changes nothing. -/
theorem leads_unchanged {c : Instr} {l : List Comp} {s : State} (h : exec c s = finish l s s) :
    Leads c s fun t => s.sameBut [] t :=
  ⟨s.only l s, h, by rw [only_self]; exact sameBut_refl [] s⟩

/-! ### Real time and the ports' states under an event

A page header lies below offset 44 and EV_LOST at 0x058, while a port's state lies at 0x040 of its page, so that only the ports
going down (Lampblack, Table 16-7) move it: to 0. -/

/-- Real time and every Runner port's state are as they were. -/
def linksHold (s t : State) : Prop := t.real = s.real ∧ ∀ q, t.pst q = s.pst q

/-- Real time is as it was, and a port's state is as it was or 0. -/
def linksFall (s t : State) : Prop := t.real = s.real ∧ ∀ q, t.pst q = s.pst q ∨ t.pst q = 0

theorem linksHold_refl (s : State) : linksHold s s := ⟨rfl, fun _ => rfl⟩

theorem linksHold_symm {s t : State} (h : linksHold s t) : linksHold t s := ⟨h.1.symm, fun q => (h.2 q).symm⟩

theorem linksHold_trans {s t u : State} (h1 : linksHold s t) (h2 : linksHold t u) : linksHold s u :=
  ⟨h2.1.trans h1.1, fun q => (h2.2 q).trans (h1.2 q)⟩

theorem linksHold.falls {s t : State} (h : linksHold s t) : linksFall s t := ⟨h.1, fun q => .inl (h.2 q)⟩

theorem linksFall_trans {s t u : State} (h1 : linksFall s t) (h2 : linksFall t u) : linksFall s u := by
  refine ⟨h2.1.trans h1.1, fun q => ?_⟩
  rcases h2.2 q with h | h
  · rw [h]; exact h1.2 q
  · exact .inr h

theorem linksHold_of_regs {s t : State} (hreal : t.real = s.real) (hregs : t.regs = s.regs) : linksHold s t :=
  ⟨hreal, fun _ => rd_congr hregs _ _ _⟩

theorem linksHold_foldl {β : Type} (f : State → β → State) (bs : List β) (hf : ∀ s b, b ∈ bs → linksHold s (f s b))
    (s : State) : linksHold s (bs.foldl f s) := by
  induction bs generalizing s with
  | nil => exact linksHold_refl s
  | cons b bs ih =>
    exact linksHold_trans (hf s b (by simp)) (ih (fun s c hc => hf s c (List.mem_cons_of_mem _ hc)) _)

theorem linksFall_foldl {β : Type} (f : State → β → State) (hf : ∀ s b, linksFall s (f s b)) (bs : List β) (s : State) :
    linksFall s (bs.foldl f s) := by
  induction bs generalizing s with
  | nil => exact (linksHold_refl s).falls
  | cons b bs ih => exact linksFall_trans (hf s b) (ih _)

/-- Field `F` lies inside its page, elsewhere than a port's state. -/
abbrev offLinks (F : Fld) : Prop := F.at 0 < 4096 ∧ F.at 0 ≠ 0x040 ∧ F.lo < 32

theorem offLinks_sevField (n : Nat) : offLinks (sevField n) := by
  unfold sevField; split <;> exact ⟨by decide, by decide, by decide⟩

theorem linksHold_wr (s : State) (pg : Nat) {F : Fld} (v : Nat) (hF : offLinks F) : linksHold s (s.wr pg F v) := by
  obtain ⟨hat, hne, hlo⟩ := hF
  refine ⟨rfl, fun q => rd_wr_other _ _ _ _ _ fun hk => hne ?_⟩
  calc F.at 0 = fkey pg F 0 / 32 % 4096 := (fkey_off pg F 0 hat hlo).symm
    _ = fkey (pgRunner q) RN_PSTAT_STATE 0 / 32 % 4096 := by rw [hk]
    _ = 0x040 := fkey_off _ RN_PSTAT_STATE 0 (by decide) (by decide)

theorem linksHold_wrs (s : State) (pg : Nat) (l : List (Fld × Nat)) (hl : ∀ e ∈ l, offLinks e.1) :
    linksHold s (s.wrs pg l) :=
  linksHold_foldl (fun s (e : Fld × Nat) => s.wr pg e.1 e.2) l (fun s e he => linksHold_wr s pg e.2 (hl e he)) s

theorem linksHold_note (s : State) (pg : Nat) (F : Fld) (v : Nat) : linksHold s (s.note pg F v) :=
  linksHold_of_regs rfl rfl

theorem linksHold_hwSet (s : State) (pg : Nat) {F : Fld} (b : Nat) (hF : offLinks F) : linksHold s (s.hwSet pg F b) :=
  linksHold_trans (linksHold_note s pg F _) (linksHold_wr _ pg _ hF)

theorem linksHold_bump (s : State) (pg : Nat) {F : Fld} (n : Nat) (hF : offLinks F) : linksHold s (s.bump pg F n) := by
  simp only [State.bump]
  split
  · exact linksHold_trans (linksHold_note s pg F _) (linksHold_wr _ pg _ hF)
  · exact linksHold_wr s pg _ hF

theorem linksHold_evHeader (s : State) (pg code sev : Nat) (esc : Bool) : linksHold s (s.evHeader pg code sev esc) := by
  have first : linksHold s (if s.evQuiet pg then
      s.wrs pg [(ERR_FIRST_CODE, code), (ERR_FIRST_SEV, sev), (ERR_FIRST_VALID, 1)] else s) := by
    split
    · exact linksHold_wrs s pg _ (by simp [offLinks, ERR_FIRST_CODE, ERR_FIRST_SEV, ERR_FIRST_VALID, Fld.at])
    · exact linksHold_refl s
  have last : ∀ t : State, linksHold t
      (t.wrs pg [(ERR_LAST_CODE, code), (ERR_LAST_SEV, sev), (ERR_LAST_VALID, 1)]) := fun t =>
    linksHold_wrs t pg _ (by simp [offLinks, ERR_LAST_CODE, ERR_LAST_SEV, ERR_LAST_VALID, Fld.at])
  have counted := linksHold_trans first (linksHold_trans
    (linksHold_trans (linksHold_hwSet _ pg 1 (offLinks_sevField sev)) (linksHold_bump _ pg 1 (F := ERR_CNT_EVENTS) (by decide)))
    (last _))
  simp only [State.evHeader]
  split
  · exact linksHold_trans counted (linksHold_trans (linksHold_hwSet _ pg 1 (by decide)) (linksHold_wr _ pg _ (by decide)))
  · exact linksHold_trans counted (linksHold_wr _ pg _ (by decide))

theorem linksHold_delivered (s : State) (r : EvRec) : linksHold s (s.delivered r) := by
  have ring : linksHold s (s.partRing r) := by
    simp only [State.partRing]
    split
    · split <;> exact linksHold_of_regs rfl rfl
    · exact linksHold_refl s
  refine linksHold_trans ring ?_
  simp only [State.delivered, State.await]
  split <;> exact linksHold_of_regs rfl rfl

theorem linksHold_deliver (s : State) (pg : Nat) : linksHold s (s.deliver pg) := by
  simp only [State.deliver]
  split
  · exact linksHold_refl s
  · have sent : linksHold s ((s.queue pg).foldl State.delivered (s.setQueue pg [])) :=
      linksHold_trans (linksHold_of_regs rfl rfl) (linksHold_foldl _ _ (fun s r _ => linksHold_delivered s r) _)
    split
    · exact linksHold_trans sent (linksHold_bump _ _ _ (by decide))
    · exact sent

/-- A record joins its page's queue, which is delivered where the ring is off. -/
theorem linksHold_enqueue (s : State) (pg : Nat) (q : List EvRec) : linksHold s ((s.setQueue pg q).deliver pg) :=
  linksHold_trans (linksHold_of_regs rfl rfl) (linksHold_deliver _ pg)

theorem linksHold_losePart (s : State) (p : Nat) : linksHold s (s.losePart p) := linksHold_of_regs rfl rfl

theorem linksHold_fenceOne (s : State) (pg : Nat) : linksHold s (s.fenceOne pg) := by
  have halt : ∀ t : State, linksHold t (t.halt pg) := by
    intro t
    simp only [State.halt]
    split <;> exact linksHold_of_regs rfl rfl
  simp only [State.fenceOne]
  split
  · exact linksHold_trans (linksHold_wr s pg _ (by decide)) (linksHold_trans (linksHold_wr _ pg _ (by decide)) (halt _))
  · exact linksHold_refl s

theorem linksHold_fenceUnit (s : State) (pg : Nat) : linksHold s (s.fenceUnit pg) := by
  simp only [State.fenceUnit]
  split
  · exact linksHold_foldl _ _ (fun s p _ => linksHold_fenceOne s p) s
  · exact linksHold_fenceOne s pg

/-- A write of 0 to a field that is 0 at reset takes a port's state to 0, where it is that field, or leaves it. -/
theorem linksFall_wr_zero (s : State) (pg : Nat) {F : Fld} (hF : F.resetAt 0 = 0) : linksFall s (s.wr pg F 0) := by
  refine ⟨rfl, fun q => ?_⟩
  by_cases hk : fkey (pgRunner q) RN_PSTAT_STATE 0 = fkey pg F 0
  · refine .inr ?_
    calc (s.wr pg F 0).pst q = (s.wr pg F 0).rd pg F := by
          simp only [State.pst, State.rd, hk, hF]; rfl
      _ = 0 := by rw [rd_wr_same, Nat.zero_mod]
  · exact .inl (rd_wr_other s pg F 0 0 hk)

theorem linksFall_portsDown (s : State) : linksFall s s.portsDown :=
  linksFall_trans (linksFall_foldl _ (fun s q => linksFall_wr_zero s (pgRunner q) (F := RN_PSTAT_STATE) rfl) _ s)
    (linksFall_foldl _ (fun s x => linksFall_wr_zero s (pgCxl x) (F := CX_STATUS_STATE) rfl) _ _)

theorem linksFall_lampblack (s : State) : linksFall s s.lampblack := by
  have gate : ∀ (t : State) (p : Pins), linksHold t { t with pins := p } := fun _ _ => linksHold_of_regs rfl rfl
  exact linksFall_trans (linksHold_foldl State.losePart s.partList (fun s p _ => linksHold_losePart s p) s).falls
    (linksFall_trans (linksFall_portsDown _) (gate _ _).falls)

theorem linksFall_act (s : State) (pg sev : Nat) (named : Bool) : linksFall s (s.act pg sev named) := by
  unfold State.act
  split
  · exact (linksHold_refl s).falls
  · split
    · exact (linksHold_refl s).falls
    · exact (linksHold_fenceUnit s pg).falls
  · split
    · exact (linksHold_refl s).falls
    · split
      · exact (linksHold_losePart s _).falls
      · exact (linksHold_foldl _ _ (fun s p _ => linksHold_losePart s p) s).falls
  · exact linksFall_lampblack s

/-- Raising an event leaves real time alone, and takes a port's state to 0 or leaves it. -/
theorem linksFall_raise (s : State) (pg : Nat) (k : EvKind) (info : Bytes) : linksFall s (s.raise pg k info) := by
  simp only [State.raise, State.raiseAt]
  generalize (if decide (k.sev = 1 ∧ s.rd pg PAGE_STAT_LEVEL = 1) = true then 2 else k.sev) = sev
  have header := linksHold_evHeader s pg k.code sev (decide (k.sev = 1 ∧ s.rd pg PAGE_STAT_LEVEL = 1))
  have enqueued := fun q => linksHold_trans header (linksHold_enqueue _ pg q)
  split
  · exact header.falls
  · split
    · exact linksFall_trans (enqueued _).falls (linksFall_act _ _ _ _)
    · split
      · exact linksFall_trans (enqueued _).falls (linksFall_act _ _ _ _)
      · refine linksFall_trans (linksHold.falls ?_) (linksFall_act _ _ _ _)
        refine linksHold_trans ?_ (linksHold_deliver _ pg)
        refine linksHold_trans ?_ (linksHold_wr _ pg _ (by decide))
        refine linksHold_trans ?_ (linksHold_hwSet _ pg _ (offLinks_sevField _))
        refine linksHold_trans ?_ (linksHold_hwSet _ pg _ (by decide))
        refine linksHold_trans ?_ (linksHold_hwSet _ pg _ (by decide))
        exact linksHold_trans header (linksHold_of_regs rfl rfl)

/-- An Ochre event for which its page's queue has room takes no port down: it has no action (Table 16-7). -/
theorem linksHold_raise_ochre (s : State) (pg : Nat) (k : EvKind) (info : Bytes) (hsev : k.sev = 0)
    (hroom : (s.queue pg).length < 16) : linksHold s (s.raise pg k info) := by
  have header := linksHold_evHeader s pg k.code 0 false
  have enqueued := fun q => linksHold_trans header (linksHold_enqueue _ pg q)
  simp only [State.raise, State.raiseAt, hsev, Nat.zero_ne_one, false_and, decide_false, Bool.false_eq_true, if_false, hroom, if_true]
  split
  · exact header
  · split
    · exact enqueued _
    · exact enqueued _

theorem raise_time (s : State) (pg : Nat) (k : EvKind) (info : Bytes) : (s.raise pg k info).time = s.time :=
  raise_same s pg k info .time (by decide)

/-- Offsets from 44 on are quiet but those of a port's state (0x040) and of EV_LOST (0x058). -/
theorem quietKey_of_offset (pg : Nat) {F : Fld} (h44 : 44 ≤ F.at 0) (hF : offLinks F) (hlost : F.at 0 ≠ 0x058) :
    quietKey (fkey pg F 0) := by
  obtain ⟨hat, hlink, hlo⟩ := hF
  have hoff := fkey_off pg F 0 hat hlo
  have other : ∀ (pg' : Nat) (G : Fld), G.at 0 < 4096 → G.lo < 32 → F.at 0 ≠ G.at 0 → fkey pg F 0 ≠ fkey pg' G 0 := by
    intro pg' G hG hGlo hne he
    exact hne (by rw [← hoff, he, fkey_off pg' G 0 hG hGlo])
  exact ⟨by omega, fun q _ => other _ RN_PSTAT_STATE (by decide) (by decide) hlink,
    fun x _ => other _ CX_STATUS_STATE (by decide) (by decide) hlink, other _ EV_LOST_COUNT (by decide) (by decide) hlost⟩

/-! ### LOST (R56) -/

theorem lostPart_not_running_same (s : State) (p : Nat) : ((s.lostPart p).part p).run ≠ .running := by
  simp only [State.lostPart, State.part, modPart_parts, aget_aupd_same]
  split <;> simp_all

theorem lostPart_not_running_keeps {s : State} {j : Nat} (p : Nat) (h : (s.part j).run ≠ .running) :
    ((s.lostPart p).part j).run ≠ .running := by
  by_cases hj : j = p
  · rw [hj]; exact lostPart_not_running_same s p
  · simpa only [State.lostPart, State.part, modPart_parts, aget_aupd_other _ _ _ hj] using h

theorem foldl_lostPart_not_running (l : List Nat) (j : Nat) (s : State) (h : j ∈ l ∨ (s.part j).run ≠ .running) :
    ((l.foldl State.lostPart s).part j).run ≠ .running := by
  induction l generalizing s with
  | nil => exact h.resolve_left (by simp)
  | cons p l ih =>
    refine ih _ ?_
    rcases h with h | h
    · rcases List.mem_cons.mp h with rfl | h
      · exact .inr (lostPart_not_running_same s j)
      · exact .inl h
    · exact .inr (lostPart_not_running_keeps p h)

theorem foldl_lostPart_other (l : List Nat) (s : State) :
    (l.foldl State.lostPart s).regs = s.regs ∧ (l.foldl State.lostPart s).time = s.time := by
  induction l generalizing s with
  | nil => exact ⟨rfl, rfl⟩
  | cons p l ih => exact ih (s.lostPart p)

/-- The time unit once it has entered LOST: from HOLDOVER it goes on counting from when it entered that. -/
theorem toLost_time (s : State) (cause : Nat) : (s.toLost cause).time =
    { s.time with
      state := .lost
      holdAt := if s.time.state = .holdover ∨ s.time.state = .lost then s.time.holdAt else s.real
      aligned := 0 } := by
  simp only [State.toLost, (foldl_lostPart_other _ _).2, modTime_time, raise_time]

theorem toLost_quietSame (s : State) (cause : Nat) : quietSame s (s.toLost cause) :=
  quietSame_trans (raise_eventOnly s pgHt ev_TIME_LOST _).2 (quietSame_of_regs (foldl_lostPart_other _ _).1)

theorem toLost_partCount (s : State) (cause : Nat) : (s.toLost cause).partCount = s.partCount :=
  congrArg (2 ^ ·) (rd_quiet (toLost_quietSame s cause) pgBu PT_CONFIG_ACTIVE 0
    (quietKey_of_offset _ (by decide) (by decide) (by decide)))

theorem toLost_not_running (s : State) (cause : Nat) {p : Nat} (hp : p < s.partCount) :
    ((s.toLost cause).part p).run ≠ .running := by
  refine foldl_lostPart_not_running _ p _ (.inl (List.mem_range.mpr ?_))
  rwa [← toLost_partCount s cause, State.partCount, State.toLost, rd_congr (foldl_lostPart_other _ _).1] at hp

/-! ### The cross-check of marks (R54, R57) -/

/-- The state with R57's condition standing or not. -/
def State.setXchk (s : State) (b : Bool) : State := s.modTime fun u => { u with xchkHeld := b }

/-- In HOLDOVER two diverged marks make the device LOST (R54); in LOCKED an event may be raised (R57); otherwise nothing happens
but that R57's condition ceases. -/
theorem crossCheck_cases (s : State) : ∃ b,
    (s.time.state = .holdover ∧ 2 ≤ s.diverged.length ∧ s.crossCheck = (s.setXchk b).toLost 1) ∨
    (¬(s.time.state = .holdover ∧ 2 ≤ s.diverged.length) ∧ s.crossCheck = s.setXchk b) ∨
    (s.time.state = .locked ∧ ∃ info, s.crossCheck = ((s.setXchk b).raise pgHt ev_TIME_XCHK info).setXchk true) := by
  have kept : ∃ b, (if s.time.xchkHeld && s.xchkOver then s.modTime fun u => { u with xchkHeld := false } else s) = s.setXchk b := by
    split
    · exact ⟨false, rfl⟩
    · exact ⟨s.time.xchkHeld, rfl⟩
  obtain ⟨b, hb⟩ := kept
  refine ⟨b, ?_⟩
  simp only [State.crossCheck, hb]
  split
  next hst =>
    split
    next h2 => exact .inl ⟨hst, h2, rfl⟩
    next h2 => exact .inr (.inl ⟨fun h => h2 h.2, rfl⟩)
  next hst =>
    split
    · exact .inr (.inr ⟨hst, _, rfl⟩)
    · exact .inr (.inl ⟨by simp [hst], rfl⟩)
  next hst _ => exact .inr (.inl ⟨fun h => hst h.1, rfl⟩)

theorem setXchk_quietSame (s : State) (b : Bool) : quietSame s (s.setXchk b) := quietSame_of_regs rfl

theorem crossCheck_quietSame (s : State) : quietSame s s.crossCheck := by
  obtain ⟨b, ⟨_, _, h⟩ | ⟨_, h⟩ | ⟨_, info, h⟩⟩ := crossCheck_cases s
  · rw [h]; exact quietSame_trans (setXchk_quietSame s b) (toLost_quietSame _ 1)
  · rw [h]; exact setXchk_quietSame s b
  · rw [h]
    exact quietSame_trans (setXchk_quietSame s b)
      (quietSame_trans (raise_eventOnly _ pgHt ev_TIME_XCHK info).2 (setXchk_quietSame _ true))

theorem crossCheck_marks (s : State) : s.crossCheck.time.marks = s.time.marks := by
  obtain ⟨b, ⟨_, _, h⟩ | ⟨_, h⟩ | ⟨_, info, h⟩⟩ := crossCheck_cases s
  · rw [h, toLost_time]; rfl
  · rw [h]; rfl
  · rw [h, State.setXchk, modTime_time, raise_time]; rfl

/-- Marks diverge no more where ports go down and the limit stays. -/
theorem diverged_length_le {s t : State} (hlink : linksFall s t) (hmarks : t.time.marks = s.time.marks)
    (hlimit : t.markLimit = s.markLimit) : t.diverged.length ≤ s.diverged.length := by
  obtain ⟨hreal, hpst⟩ := hlink
  have hsub : t.neighbours.Sublist s.neighbours := by
    simp only [State.neighbours, hmarks, hreal]
    refine List.monotone_filter_right _ fun e he => ?_
    have hp : t.rd (pgRunner e.1) RN_PSTAT_STATE = s.rd (pgRunner e.1) RN_PSTAT_STATE ∨
      t.rd (pgRunner e.1) RN_PSTAT_STATE = 0 := hpst e.1
    simp only [Bool.and_eq_true, decide_eq_true_eq] at he ⊢
    exact ⟨he.1, by omega⟩
  simp only [State.diverged, hlimit]
  exact (hsub.filter _).length_le

/-! ### Entering HOLDOVER (R52, R54) -/

/-- The time unit as HOLDOVER begins, before the marks are checked. -/
def State.holdoverBegins (s : State) : State :=
  s.modTime fun u => { u with state := .holdover, holdAt := s.real, aligned := 0, slewing := false }

/-- The limit of R54 at the start of HOLDOVER is R57's. -/
theorem holdoverBegins_markLimit (s : State) : s.holdoverBegins.markLimit = 1000 := by
  simp [State.markLimit, State.holdMs, State.holdoverBegins]

theorem locked_markLimit {s : State} (h : s.time.state = .locked) : s.markLimit = 1000 := by
  simp [State.markLimit, h]

theorem linksHold_holdoverBegins (s : State) : linksHold s s.holdoverBegins := linksHold_of_regs rfl rfl

/-- With fewer than two marks diverged the unit is in HOLDOVER from now on. -/
theorem toHoldover_stays {s : State} (h : s.holdoverBegins.diverged.length < 2) :
    s.toHoldover.time.state = .holdover ∧ s.toHoldover.time.holdAt = s.real ∧ s.toHoldover.time.ticks = s.time.ticks := by
  obtain ⟨b, ⟨_, h2, _⟩ | ⟨_, heq⟩ | ⟨hst, _⟩⟩ := crossCheck_cases s.holdoverBegins
  · omega
  · rw [show s.toHoldover = _ from heq]; exact ⟨rfl, rfl, rfl⟩
  · exact absurd hst (by simp [State.holdoverBegins])

/-- With two marks diverged it is LOST at once. -/
theorem toHoldover_lost {s : State} (h : 2 ≤ s.holdoverBegins.diverged.length) :
    s.toHoldover.time.state = .lost ∧ s.toHoldover.time.holdAt = s.real := by
  obtain ⟨b, ⟨_, _, heq⟩ | ⟨hn, _⟩ | ⟨hst, _⟩⟩ := crossCheck_cases s.holdoverBegins
  · rw [show s.toHoldover = _ from heq, toLost_time]; exact ⟨rfl, rfl⟩
  · exact absurd ⟨rfl, h⟩ hn
  · exact absurd hst (by simp [State.holdoverBegins])

theorem holdoverBegins_diverged_le {s t : State} (hst : s.time.state = .locked) (hlink : linksFall s t)
    (htime : t.time = s.time) : t.holdoverBegins.diverged.length ≤ s.diverged.length :=
  diverged_length_le (linksFall_trans hlink (linksHold_holdoverBegins t).falls)
    (by simp only [State.holdoverBegins, modTime_time, htime])
    (by rw [holdoverBegins_markLimit, locked_markLimit hst])

theorem diverged_le_holdoverBegins {s t : State} (hst : s.time.state = .locked) (hlink : linksHold s t)
    (htime : t.time = s.time) : s.diverged.length ≤ t.holdoverBegins.diverged.length :=
  diverged_length_le (linksHold_symm (linksHold_trans hlink (linksHold_holdoverBegins t))).falls
    (by simp only [State.holdoverBegins, modTime_time, htime]) (by rw [holdoverBegins_markLimit, locked_markLimit hst])

/-! ### The four commands -/

theorem exec_timeHoldover (s : State) : exec .timeHoldover s = execTimeHoldover s := rfl

theorem exec_holdoverExpiry (s : State) : exec .holdoverExpiry s = execHoldoverExpiry s := rfl

theorem exec_timeMarkSend (q : Fin 24) (s : State) : exec (.timeMarkSend q) s = execTimeMarkSend q s := rfl

theorem exec_timeMark (q : Fin 24) (stamp : Nat) (st : Fin 5) (arrival : Nat) (s : State) :
    exec (.timeMark q stamp st arrival) s = execTimeMark q stamp st arrival s := rfl

/-- A command of an event and of the time unit answers its effect in time, partitions and registers. -/
theorem timed_only (s t : State) : (s.only (evented ++ [.time]) t).time = t.time ∧
    (s.only (evented ++ [.time]) t).parts = t.parts ∧ (s.only (evented ++ [.time]) t).regs = t.regs := ⟨rfl, rfl, rfl⟩

theorem execTimeHoldover_due {s : State} (hst : s.time.state = .locked) (hslots : 4096 ≤ s.time.slots - s.time.validAt) :
    exec .timeHoldover s =
      finish (evented ++ [.time]) s (s.raise pgHt ev_TIME_HOLDOVER (le 4 (ofInt 32 s.time.lastGood))).toHoldover := by
  rw [exec_timeHoldover, execTimeHoldover, if_pos ⟨hst, hslots⟩]

theorem leads_timeHoldover_holdover {s : State} (hst : s.time.state = .locked)
    (hslots : 4096 ≤ s.time.slots - s.time.validAt) (hfew : s.diverged.length < 2) :
    Leads .timeHoldover s fun t => t.time.state = .holdover ∧ t.time.holdAt = s.real ∧ t.time.ticks = s.time.ticks := by
  refine ⟨_, execTimeHoldover_due hst hslots, ?_⟩
  have hlink := linksFall_raise s pgHt ev_TIME_HOLDOVER (le 4 (ofInt 32 s.time.lastGood))
  have htime := raise_time s pgHt ev_TIME_HOLDOVER (le 4 (ofInt 32 s.time.lastGood))
  have hstay := toHoldover_stays (lt_of_le_of_lt (holdoverBegins_diverged_le hst hlink htime) hfew)
  rwa [hlink.1, htime] at hstay

theorem leads_timeHoldover_lost {s : State} (hst : s.time.state = .locked)
    (hslots : 4096 ≤ s.time.slots - s.time.validAt) (hmany : 2 ≤ s.diverged.length) (hroom : (s.queue pgHt).length < 16) :
    Leads .timeHoldover s fun t => t.time.state = .lost ∧ t.time.holdAt = s.real := by
  refine ⟨_, execTimeHoldover_due hst hslots, ?_⟩
  have hlink := linksHold_raise_ochre s pgHt ev_TIME_HOLDOVER (le 4 (ofInt 32 s.time.lastGood)) rfl hroom
  have htime := raise_time s pgHt ev_TIME_HOLDOVER (le 4 (ofInt 32 s.time.lastGood))
  have hlost := toHoldover_lost (hmany.trans (diverged_le_holdoverBegins hst hlink htime))
  rwa [hlink.1] at hlost

theorem leads_timeHoldover_idle {s : State} (h : s.time.state ≠ .locked ∨ s.time.slots - s.time.validAt < 4096) :
    Leads .timeHoldover s fun t => s.sameBut [] t :=
  leads_unchanged (by rw [exec_timeHoldover, execTimeHoldover, if_neg (by rintro ⟨hst, hslots⟩; exact h.elim (· hst) (by omega))])

theorem leads_holdoverExpiry_lost {s : State} (hst : s.time.state = .holdover)
    (hms : 2000 * msTicks ≤ s.real - s.time.holdAt) :
    Leads .holdoverExpiry s fun t => t.time.state = .lost ∧ t.time.holdAt = s.time.holdAt ∧
      ∀ p, p < s.partCount → (t.part p).run ≠ .running := by
  have hexec : exec .holdoverExpiry s = finish (evented ++ [.time]) s (s.toLost 0) := by
    rw [exec_holdoverExpiry, execHoldoverExpiry, if_pos ⟨hst, hms⟩]
  refine ⟨_, hexec, ?_, ?_, fun p hp => ?_⟩
  · rw [(timed_only _ _).1, toLost_time]
  · rw [(timed_only _ _).1, toLost_time]; exact if_pos (.inl hst)
  · exact toLost_not_running s 0 hp

theorem leads_holdoverExpiry_idle {s : State} (h : s.time.state ≠ .holdover ∨ s.real - s.time.holdAt < 2000 * msTicks) :
    Leads .holdoverExpiry s fun t => s.sameBut [] t :=
  leads_unchanged (by rw [exec_holdoverExpiry, execHoldoverExpiry, if_neg (by rintro ⟨hst, hms⟩; exact h.elim (· hst) (by omega))])

theorem leads_timeMarkSend_due {s : State} {q : Fin 24} (hup : s.pst q = 6)
    (hdue : (s.port q).markAt < s.time.ticks / 1024 + 1) :
    Leads (.timeMarkSend q) s fun t => (t.port q).markDue = true ∧ (t.port q).markAt = s.time.ticks / 1024 + 1 ∧
      (∀ q', q' ≠ q.val → t.port q' = s.port q') ∧ s.sameBut [.runner] t := by
  have hexec : exec (.timeMarkSend q) s = finish [.runner] s
      (s.modPort q fun u => { u with markDue := true, markAt := s.time.ticks / 1024 + 1 }) := by
    rw [exec_timeMarkSend, execTimeMarkSend, if_pos ⟨hup, hdue⟩]
  refine ⟨_, hexec, ?_, ?_, fun q' hq => ?_, sameBut_only _ _ _⟩
  · simp [State.port]
  · simp [State.port]
  · simp [State.port, aget_aupd_other _ _ _ hq]

/-- The registers of a port that a mark has reached (R392, Table 10-8). -/
def State.markRegs (s : State) (q st : Nat) (o : Int) : State :=
  (s.hwPut (pgRunner q) RN_TM_STATE_FRESH 1).wrs (pgRunner q) [(RN_TM_OFFSET_PS, ofInt 32 o), (RN_TM_STATE_PARTNER, st)]

theorem markRegs_fresh (s : State) (q st : Nat) (o : Int) : (s.markRegs q st o).rd (pgRunner q) RN_TM_STATE_FRESH = 1 := by
  have hother : ∀ e ∈ [(RN_TM_OFFSET_PS, ofInt 32 o), (RN_TM_STATE_PARTNER, st)],
      fkey (pgRunner q) RN_TM_STATE_FRESH 0 ≠ fkey (pgRunner q) e.1 0 := by
    simp only [List.forall_mem_cons]
    exact ⟨fkey_fields _ _ _ _ _ (by decide) (by decide) (by decide),
      fkey_fields _ _ _ _ _ (by decide) (by decide) (by decide), by simp⟩
  calc (s.markRegs q st o).rd (pgRunner q) RN_TM_STATE_FRESH
      = (s.hwPut (pgRunner q) RN_TM_STATE_FRESH 1).rd (pgRunner q) RN_TM_STATE_FRESH := aget_wrs_other _ _ _ _ _ hother
    _ = 1 := rd_wr_same ..

theorem markRegs_time (s : State) (q st : Nat) (o : Int) : (s.markRegs q st o).time = s.time := rfl

/-- The offset of a mark (R392). -/
def State.markOffset (s : State) (q stamp arrival : Nat) : Int :=
  unitsPs ((arrival : Int) - stamp) - s.rd (pgRunner q) RN_DELAY_PS

/-- A mark kept as its port's latest. -/
def State.keepMark (s : State) (q : Nat) (m : Mark) : State := s.modTime fun u => { u with marks := ains q m u.marks }

theorem leads_timeMark_kept {s : State} {q : Fin 24} {stamp : Nat} {st : Fin 5} {arrival : Nat} (hup : s.pst q = 6)
    (hmark : s.marks q stamp st arrival = true) :
    Leads (.timeMark q stamp st arrival) s fun t =>
      aget {} t.time.marks q = ⟨s.real, unitsPs ((arrival : Int) - stamp) - s.rd (pgRunner q) RN_DELAY_PS,
        decide (st.val = 2)⟩ ∧ t.rd (pgRunner q) RN_TM_STATE_FRESH = 1 := by
  have hexec : exec (.timeMark q stamp st arrival) s = finish (evented ++ [.time]) s
      (((s.markRegs q st (s.markOffset q stamp arrival)).keepMark q
        ⟨s.real, s.markOffset q stamp arrival, decide (st.val = 2)⟩).crossCheck) := by
    rw [exec_timeMark, execTimeMark, if_pos ⟨hup, hmark⟩]; rfl
  refine ⟨_, hexec, ?_, ?_⟩
  · rw [(timed_only _ _).1, crossCheck_marks]
    exact aget_ains_same ..
  · rw [rd_congr (timed_only _ _).2.2,
      rd_quiet (crossCheck_quietSame _) _ _ _ (quietKey_of_offset _ (by decide) (by decide) (by decide))]
    exact markRegs_fresh ..

theorem leads_timeMark_ignored {s : State} {q : Fin 24} {stamp : Nat} {st : Fin 5} {arrival : Nat}
    (hmark : s.marks q stamp st arrival = false) :
    Leads (.timeMark q stamp st arrival) s fun t => s.sameBut [] t :=
  leads_unchanged (by rw [exec_timeMark, execTimeMark, if_neg (by simp [hmark])])

/-- Settles O17: each clause is what its command leads to. Entering HOLDOVER turns on the event raised first: it moves no port's
state but to 0, so that marks diverge no more than before; and with room in the queue it moves none, so that they diverge as before. -/
theorem holdoverLossAndMarks : Obligations.HoldoverLossAndMarks := by
  unfold Obligations.HoldoverLossAndMarks
  exact ⟨fun _ => leads_timeHoldover_holdover, fun _ => leads_timeHoldover_lost, fun _ => leads_timeHoldover_idle,
    fun _ => leads_holdoverExpiry_lost, fun _ => leads_holdoverExpiry_idle, fun _ _ => leads_timeMarkSend_due,
    fun _ _ _ _ _ => leads_timeMark_kept, fun _ _ _ _ _ => leads_timeMark_ignored⟩

end Sys2Proof.Machine
end

section
/-!
Proofs of the family 16_health.md: voltages, hours and erases (O42). The statement fails in its clause on an erase that finds no
sector (R607): LEDGER_ERASE leaves SHUT_LOW as it stands where that reads other than 0, and the statement admits states whose
register store holds more there than the field's one bit can. `State.wr` cuts what it stores to the field's width, so no write
makes such a state.
-/

namespace Sys2Proof.Machine

open Sys2Proof

/-! ### An erase with no sector to erase (R607) -/

theorem execLedgerErase_no_sector {s : State} (good : Bool) (hboot : s.boot.next = 12) (hlow : s.ledger.erased < 64)
    (hsec : s.ledger.eraseSector = none) (hrun : s.health.shutdown = none) :
    exec (.ledgerErase good) s = finish (evented ++ [.ledger, .health]) s
      (if s.on pgEv LG_STATUS_SHUT_LOW then s
        else (s.wr pgEv LG_STATUS_SHUT_LOW 1).raise pgEv ev_LG_SHUT_LOW (le 2 s.ledger.erased)) := by
  rw [show exec (.ledgerErase good) s = execLedgerErase good s from rfl, execLedgerErase, if_pos ⟨hboot, hlow, hrun⟩, hsec]

/-- No event writes SHUT_LOW. -/
theorem raise_shutLow (s : State) (pg : Nat) (k : EvKind) (info : Bytes) :
    (s.raise pg k info).rd pgEv LG_STATUS_SHUT_LOW = s.rd pgEv LG_STATUS_SHUT_LOW :=
  rd_raise s pg k info pgEv LG_STATUS_SHUT_LOW 0 (quietKey_of_offset pgEv (by decide) (by decide) (by decide))

/-- With no sector to erase SHUT_LOW comes to read 1, and the Ledger stays, exactly where the field was within its one bit. -/
theorem leads_ledgerErase_shutLow_iff {s : State} (good : Bool) (hboot : s.boot.next = 12) (hlow : s.ledger.erased < 64)
    (hsec : s.ledger.eraseSector = none) (hrun : s.health.shutdown = none) :
    (Leads (.ledgerErase good) s fun t => t.rd pgEv LG_STATUS_SHUT_LOW = 1 ∧ t.ledger = s.ledger) ↔
      s.rd pgEv LG_STATUS_SHUT_LOW ≤ 1 := by
  have hexec := execLedgerErase_no_sector good hboot hlow hsec hrun
  by_cases hset : s.rd pgEv LG_STATUS_SHUT_LOW = 0
  · rw [if_neg (by simp [State.on, hset])] at hexec
    refine iff_of_true ⟨_, hexec, ?_, ?_⟩ (by omega)
    · exact (raise_shutLow _ _ _ _).trans (rd_wr_same ..)
    · exact raise_same (s.wr pgEv LG_STATUS_SHUT_LOW 1) pgEv ev_LG_SHUT_LOW _ .ledger (by decide)
  · rw [if_pos (by simp [State.on, hset]), finish, only_self] at hexec
    constructor
    · rintro ⟨t, ht, hone, -⟩
      obtain rfl : s = t := by rw [hexec] at ht; injection ht
      exact hone.le
    · exact fun hle => ⟨s, hexec, by omega, rfl⟩

/-! ### The counterexample -/

/-- A shutdown record of SEQUENCE 1 (Table 16-4) that is valid and not acknowledged. -/
def unackedRecord : Bytes :=
  let b := le 4 0x44485356 ++ le 4 1 ++ le 8 1 ++ List.replicate 40 0
  b ++ le 4 (crc32c b) ++ List.replicate 4 0xFF

/-- A Ledger whose 256 shutdown slots all hold a record not acknowledged, so that no sector can be erased. -/
def fullShutArea : Ledger := { shut := (List.range 256).map fun i => (i, unackedRecord) }

theorem fullShutArea_erased : fullShutArea.erased = 0 := by simp [fullShutArea, Ledger.erased]

theorem fullShutArea_eraseSector : fullShutArea.eraseSector = none := by decide +kernel

/-- Refutes O42: after stage 11, with no slot erased and no sector to erase, SHUT_LOW stored as 2 reads 2 after the erase,
not 1. -/
theorem not_voltagesHoursAndErases : ¬ Obligations.VoltagesHoursAndErases := by
  unfold Obligations.VoltagesHoursAndErases
  rintro ⟨-, -, -, -, -, -, -, shutLow⟩
  let s : State := { boot := { next := 12 }, ledger := fullShutArea, regs := [(fkey pgEv LG_STATUS_SHUT_LOW 0, 2)] }
  have hlow : s.ledger.erased < 64 := fullShutArea_erased.trans_lt (by decide)
  have hset : s.rd pgEv LG_STATUS_SHUT_LOW = 2 := by decide
  have hle := (leads_ledgerErase_shutLow_iff true rfl hlow fullShutArea_eraseSector rfl).mp
    (shutLow s rfl hlow fullShutArea_eraseSector rfl)
  omega

end Sys2Proof.Machine
end

section
/-!
Proofs of the block as a machine (O2 to O7): every command but the VAUX loss with VIN up answers its effect in the
components of its list, from which the frame and the order of a run follow. The fuses do not only move forward (O6).
-/

namespace Sys2Proof.Machine

open Sys2Proof

/-! ### What a command answers -/

/-- Every command but VAUX lost with VIN staying up answers some effect of its own, in the components of its list. -/
theorem exec_eq_finish {c : Instr} (s : State) (hc : c ≠ .vauxLoss false) : ∃ u, exec c s = finish (touches c) s u := by
  cases c
  case vauxLoss vinFell =>
    cases vinFell
    · exact absurd rfl hc
    · exact ⟨_, rfl⟩
  all_goals exact ⟨_, rfl⟩

theorem exec_vauxLoss_damages (s : State) : exec (.vauxLoss false) s = .fault .damaged := rfl

/-- What a command answers is its start, but for the components of its list. -/
theorem exec_next_only {c : Instr} {s t : State} (h : exec c s = .next t) : ∃ u, t = s.only (touches c) u := by
  by_cases hc : c = .vauxLoss false
  · rw [hc, exec_vauxLoss_damages] at h; cases h
  · obtain ⟨u, hu⟩ := exec_eq_finish s hc
    rw [hu, finish] at h
    exact ⟨u, by injection h with h; exact h.symm⟩

theorem exec_pending {c : Instr} {s t : State} (h : exec c s = .next t) : t.pending = s.pending := by
  obtain ⟨u, rfl⟩ := exec_next_only h
  rfl

/-- Settles O3: a command's answer is what `finish` makes of its effect. -/
theorem onlyVauxLossFaults : Obligations.OnlyVauxLossFaults := by
  unfold Obligations.OnlyVauxLossFaults
  refine ⟨fun c s hc => ?_, exec_vauxLoss_damages⟩
  obtain ⟨u, hu⟩ := exec_eq_finish s hc
  exact ⟨_, hu⟩

/-- Settles O4: what `finish` leaves is what is not in the command's list. -/
theorem commandsTouchOnlyTheirComponents : Obligations.CommandsTouchOnlyTheirComponents := by
  unfold Obligations.CommandsTouchOnlyTheirComponents
  intro c s t h
  obtain ⟨u, rfl⟩ := exec_next_only h
  obtain ⟨hpending, hreal, hpki, hcerts⟩ := only_fixed (touches c) s u
  exact ⟨hpending, hreal, hpki, hcerts, sameBut_only _ s u⟩

/-! ### Runs (O5) -/

/-- A step with commands waiting takes the front one and leaves the rest. -/
theorem step_pending {s t : State} {c : Instr} {rest : List Instr} (hp : s.pending = c :: rest) (h : step s = .next t) :
    t.pending = rest := by
  simp only [step, hp] at h
  exact exec_pending h

/-- A run goes on from the state that its first step answers, and past that only. -/
theorem run_succ_next (M : Host.Core) {k : Nat} {s t : M.State} (h : M.run (k + 1) s = .next t) :
    ∃ u, M.step s = .next u ∧ M.run k u = .next t := by
  rw [Host.Core.run] at h
  cases hs : M.step s with
  | next u => rw [hs] at h; exact ⟨u, rfl, h⟩
  | fault r => rw [hs] at h; cases h
  | refused r => rw [hs] at h; cases h

/-- Settles O5, by induction on the number of steps. -/
theorem runTakesCommandsInOrder : Obligations.RunTakesCommandsInOrder := by
  unfold Obligations.RunTakesCommandsInOrder
  intro k
  induction k with
  | zero =>
    intro s t _ h
    injection h with h
    rw [← h, List.drop_zero]
  | succ k ih =>
    intro s t hk h
    cases hp : s.pending with
    | nil => simp [hp] at hk
    | cons c rest =>
      obtain ⟨u, hs, hrun⟩ := run_succ_next core h
      have hu : u.pending = rest := step_pending hp hs
      have hlen : k ≤ u.pending.length := by rw [hu]; rw [hp] at hk; simpa using hk
      rw [ih u t hlen hrun, hu, List.drop_succ_cons]

/-! ### The state after reset (O2, O7) -/

/-- No register is listed at reset, so that every field reads its reset value. -/
theorem reset_rd (pg : Nat) (F : Fld) (i : Nat) : State.reset.rd pg F i = F.resetAt i := aget_nil _ _

/-- Settles O2. -/
theorem resetReadsResetValues : Obligations.ResetReadsResetValues := by
  unfold Obligations.ResetReadsResetValues
  exact ⟨reset_rd, rfl, rfl, rfl, rfl, rfl, rfl, rfl, rfl, rfl, rfl, rfl, rfl, wf_reset⟩

/-- Settles O7: the fuses at reset are the model's choice (log entry 5). -/
theorem resetFuses : Obligations.ResetFuses := by
  unfold Obligations.ResetFuses
  exact ⟨rfl, rfl, rfl, rfl, rfl⟩

/-! ### The fuses (O6) -/

theorem noteLife_fuse (s : State) (f : Fuse) : (s.noteLife f).fuse = s.fuse := by
  unfold State.noteLife State.noteRecord
  split
  · rfl
  · split <;> rfl

/-- At the boundary's preparation a DEPLOY accepted before is carried out on the fuses as they stand (R491). -/
theorem boundaryPreparation_fuse {s : State} (hrun : s.time.running = true) (hslot : s.slot = 4095)
    (hprep : s.time.prepared ≠ s.time.epochs + 1) :
    ∃ t, exec .boundaryPreparation s = .next t ∧ t.fuse = s.fuse.deploy := by
  refine ⟨_, rfl, ?_⟩
  rw [only_fuse, if_pos (by decide), if_pos (by simp [hrun, hslot, hprep]), noteLife_fuse]

/-- A device that a FULL reset decommissioned while a DEPLOY was still to come into effect, in slot 4095. -/
def deployingDecommissioned : State :=
  { fuse := { life := .decommissioned, deploying := true }, time := { running := true, ticks := 4095 * 256 } }

/-- Refutes O6: stage 0 makes a device DECOMMISSIONED (R491) without ending a DEPLOY accepted before, and the boundary's
preparation then takes it back to DEPLOYED: the lifecycle state falls. -/
theorem not_fusesMoveOneWay : ¬ Obligations.FusesMoveOneWay := by
  unfold Obligations.FusesMoveOneWay
  intro h
  obtain ⟨t, ht, hfuse⟩ := boundaryPreparation_fuse (s := deployingDecommissioned) rfl rfl (by decide)
  have hstep : step { deployingDecommissioned with pending := [.boundaryPreparation] } = .next t := ht
  obtain ⟨-, -, -, -, -, hlife, -⟩ := h _ t hstep
  rw [hfuse] at hlife
  exact absurd hlife (by decide)

end Sys2Proof.Machine
end

section
/-!
Proofs about local memory (O8, O9): what a byte string reads back as, and what a write with poison does sector by sector (R240).
-/

namespace Sys2Proof.Machine

open Sys2Proof

/-! ### Byte strings -/

@[simp] theorem slice_length (b : Bytes) (o n : Nat) : (slice b o n).length = n := by
  simp only [slice, List.length_append, List.length_replicate, List.length_take]
  omega

/-- Memory and its ranges are all a byte depends on. -/
theorem getB_congr {s t : State} (hmem : t.mem = s.mem) (hundef : t.undef = s.undef) (a : Nat) : t.getB a = s.getB a := by
  simp only [State.getB, hmem, hundef]

theorem getBs_congr {s t : State} (hmem : t.mem = s.mem) (hundef : t.undef = s.undef) (a n : Nat) :
    t.getBs a n = s.getBs a n := by
  simp only [State.getBs, getB_congr hmem hundef]

@[simp] theorem getBs_length (s : State) (a n : Nat) : (s.getBs a n).length = n := by simp [State.getBs]

/-- A string of bytes reads back as it was stored. -/
theorem getBs_setBs (s : State) (a : Nat) (bs : Bytes) : (s.setBs a bs).getBs a bs.length = bs := by
  refine List.ext_getElem (by simp) fun i h _ => ?_
  simp only [State.getBs, List.getElem_map, List.getElem_range]
  exact getB_setBs_in s a bs (by simpa using h)

/-- A byte outside the stored ones is as before. -/
theorem getB_setBs_outside (s : State) {a b : Nat} {bs : Bytes} (h : b < a ∨ a + bs.length ≤ b) :
    (s.setBs a bs).getB b = s.getB b :=
  h.elim (getB_setBs_below s a bs) (getB_setBs_above s a bs)

/-- Settles O8: bytes read back as stored, and every memory operation keeps the canonical form. -/
theorem memoryReadsWhatWasStored : Obligations.MemoryReadsWhatWasStored := by
  unfold Obligations.MemoryReadsWhatWasStored
  exact fun s a bs => ⟨getBs_setBs s a bs, fun _ => getB_setBs_outside s, fun hwf => ⟨wf_setBs s a bs hwf,
    fun n t => ⟨wf_retag s a n t hwf, wf_undefine s a n hwf, wf_zeroStore s a n hwf⟩⟩⟩

/-! ### Marks of poison (R240, R305) -/

theorem sameBut_mark (s : State) (a : Nat) (b : Bool) : s.sameBut (.poison :: evented) (s.mark a b) := by
  have set : ∀ c, s.sameBut (.poison :: evented) (s.setPoison a c) := fun c k hk => by
    cases k <;> first | exact absurd (by decide) hk | exact ⟨rfl, rfl⟩ | rfl
  simp only [State.mark]
  split
  · exact set false
  · split
    · split
      · exact set true
      · exact sameBut_mono (raise_eventOnly _ _ _ _).1 (by decide)
    · exact set true

theorem mark_getB (s : State) (a : Nat) (c : Bool) (b : Nat) : (s.mark a c).getB b = s.getB b :=
  getB_congr (sameBut_mark s a c .mem (by decide)) (sameBut_mark s a c .undef (by decide)) b

theorem poisoned_congr_sector (s : State) {a b : Nat} (h : sectorOf a = sectorOf b) : s.poisoned a = s.poisoned b := by
  simp only [State.poisoned, h]

theorem poisoned_setPoison (s : State) (a : Nat) (b : Bool) : (s.setPoison a b).poisoned a = b := by
  simp only [State.poisoned, State.setPoison, aget_aset_same]
  cases b <;> rfl

/-- Away from DRAM a sector's mark can always be kept. -/
theorem mark_of_not_dram (s : State) {a : Nat} (b : Bool) (h : 0xA000000000 ≤ a) : s.mark a b = s.setPoison a b := by
  have hd : ¬ a < 0xA000000000 := by omega
  cases b <;> simp [State.mark, hd]

/-! ### One sector of a write -/

/-- What a write of `d` at `a` does to the sector at `x` (R240, R315). -/
def State.storeSector (s : State) (a : Nat) (d : Bytes) (poison x : Nat) : State :=
  if s.deadAt x then s
  else (s.setBs (max a x) (slice d (max a x - a) (min (a + d.length) (x + 64) - max a x))).mark x
    (dataBad a d.length poison x || (!decide (max a x = x ∧ min (a + d.length) (x + 64) = x + 64) && s.poisoned x))

theorem writeMem_eq_foldl (s : State) (a : Nat) (d : Bytes) (poison : Nat) :
    s.writeMem a d poison = (sectors a d.length).foldl (fun s x => s.storeSector a d poison x) s := rfl

theorem storeSector_of_not_dead {s : State} {x : Nat} (h : s.deadAt x = false) (a : Nat) (d : Bytes) (poison : Nat) :
    s.storeSector a d poison x =
      (s.setBs (max a x) (slice d (max a x - a) (min (a + d.length) (x + 64) - max a x))).mark x
        (dataBad a d.length poison x || (!decide (max a x = x ∧ min (a + d.length) (x + 64) = x + 64) && s.poisoned x)) := by
  rw [State.storeSector, if_neg (by simp [h])]

/-- A byte that is outside the data, or outside the sector, is as before. -/
theorem storeSector_getB_outside (s : State) {a : Nat} {d : Bytes} (poison x : Nat) {b : Nat}
    (h : b < max a x ∨ min (a + d.length) (x + 64) ≤ b) : (s.storeSector a d poison x).getB b = s.getB b := by
  unfold State.storeSector
  split
  · rfl
  · rw [mark_getB]
    refine getB_setBs_outside s ?_
    rw [slice_length]
    omega

theorem foldl_getB_same {β : Type} (f : State → β → State) (b : Nat) (l : List β)
    (hf : ∀ s, ∀ x ∈ l, (f s x).getB b = s.getB b) (s : State) : (l.foldl f s).getB b = s.getB b := by
  induction l generalizing s with
  | nil => rfl
  | cons x l ih => exact (ih (fun s y hy => hf s y (List.mem_cons_of_mem _ hy)) _).trans (hf s x (by simp))

/-- A write leaves every byte outside its data. -/
theorem writeMem_getB_outside (s : State) {a : Nat} {d : Bytes} (poison : Nat) {b : Nat} (h : b < a ∨ a + d.length ≤ b) :
    (s.writeMem a d poison).getB b = s.getB b := by
  rw [writeMem_eq_foldl]
  exact foldl_getB_same _ b _ (fun s x _ => storeSector_getB_outside s poison x (by omega)) s

/-- A write within one sector is what it does there. -/
theorem writeMem_one_sector (s : State) {a : Nat} {d : Bytes} (poison : Nat) (hpos : 0 < d.length)
    (hone : a % 64 + d.length ≤ 64) : s.writeMem a d poison = s.storeSector a d poison (a / 64 * 64) := by
  have hs : sectors a d.length = [a / 64 * 64] := by
    have hn : (a + d.length - 1) / 64 - a / 64 + 1 = 1 := by omega
    simp [sectors, hn, Nat.ne_of_gt hpos]
  rw [writeMem_eq_foldl, hs]
  rfl

theorem deadAt_of_not_dram (s : State) {a : Nat} (h : 0xA000000000 ≤ a) : s.deadAt a = false := by
  simp [State.deadAt, Nat.not_lt.mpr h]

theorem slice_zero_length (d : Bytes) : slice d 0 d.length = d := by simp [slice]

/-- A whole sector away from DRAM takes the data and its poison. -/
theorem writeMem_sector {s : State} {x : Nat} {d : Bytes} (poison : Nat) (hx : x % 64 = 0) (hd : 0xA000000000 ≤ x)
    (hlen : d.length = 64) :
    (s.writeMem x d poison).getBs x 64 = d ∧ (s.writeMem x d poison).poisoned x = bit poison 0 := by
  have hsec : x / 64 * 64 = x := by omega
  have hbad : dataBad x 64 poison x = bit poison 0 := by simp [dataBad]
  have heq : s.writeMem x d poison = (s.setBs x d).setPoison x (bit poison 0) := by
    rw [writeMem_one_sector s poison (by omega) (by omega), hsec, storeSector_of_not_dead (deadAt_of_not_dram s hd),
      mark_of_not_dram _ _ hd, hlen, hbad]
    simp [← hlen, slice_zero_length]
  rw [heq]
  refine ⟨?_, poisoned_setPoison _ _ _⟩
  rw [getBs_congr (t := (s.setBs x d).setPoison x _) (s := s.setBs x d) rfl rfl, ← hlen]
  exact getBs_setBs s x d

/-- A write to a part of a poisoned sector away from DRAM leaves the mark. -/
theorem writeMem_part_poisoned {s : State} {a : Nat} {d : Bytes} (poison : Nat) (ha : 0xA000000000 ≤ a)
    (hpos : 0 < d.length) (hpart : a % 64 + d.length < 64) (hp : s.poisoned a = true) :
    (s.writeMem a d poison).poisoned a = true := by
  have hx : 0xA000000000 ≤ a / 64 * 64 := by omega
  have hsec : sectorOf a = sectorOf (a / 64 * 64) := by simp [sectorOf]
  have hnot : ¬ (max a (a / 64 * 64) = a / 64 * 64 ∧ min (a + d.length) (a / 64 * 64 + 64) = a / 64 * 64 + 64) := by omega
  have hp' : s.poisoned (a / 64 * 64) = true := by rw [← poisoned_congr_sector s hsec]; exact hp
  rw [writeMem_one_sector s poison hpos (by omega), storeSector_of_not_dead (deadAt_of_not_dram s hx),
    mark_of_not_dram _ _ hx, poisoned_congr_sector _ hsec, poisoned_setPoison,
    decide_eq_false hnot, hp']
  simp

/-- Settles O9, sector by sector. -/
theorem writesCarryPoison : Obligations.WritesCarryPoison := by
  unfold Obligations.WritesCarryPoison
  exact ⟨fun s _ _ poison _ h => writeMem_getB_outside s poison h, fun _ _ _ poison => writeMem_sector poison,
    fun _ _ _ poison => writeMem_part_poisoned poison⟩

end Sys2Proof.Machine
end

section
/-!
The facts about registers, events and the end of a command that the proofs of every family use: which keys of the field store
differ, what an operation leaves of a field elsewhere, what raising an event, bringing descriptions up to date and completing a
command leave of the state.
-/

namespace Sys2Proof.Machine

open Sys2Proof

/-! ### Keys of the field store -/

/-- A field's place lies inside its page. -/
abbrev Fld.inPage (F : Fld) (i : Nat) : Prop := F.at i < 4096 ∧ F.lo < 32

/-- Two fields lie at different places of whatever page. -/
abbrev Fld.apart (F : Fld) (i : Nat) (F' : Fld) (i' : Nat) : Prop :=
  F.inPage i ∧ F'.inPage i' ∧ (F.at i ≠ F'.at i' ∨ F.lo ≠ F'.lo)

theorem fkey_ne_of_apart (pg pg' : Nat) {F F' : Fld} {i i' : Nat} (h : F.apart i F' i') : fkey pg F i ≠ fkey pg' F' i' := by
  obtain ⟨⟨ha, hl⟩, ⟨ha', hl'⟩, hne⟩ := h
  simp only [fkey]
  omega

theorem fkey_ne_of_page {pg pg' : Nat} {F F' : Fld} {i i' : Nat} (h : pg ≠ pg') (hF : F.inPage i) (hF' : F'.inPage i') :
    fkey pg F i ≠ fkey pg' F' i' := fkey_pages F F' i i' h hF.1 hF.2 hF'.1 hF'.2

/-! ### What operations leave of fields at other places -/

section
variable {F F' : Fld} {i i' : Nat} (pg pg' : Nat) (s : State)

theorem rd_wr_apart (v : Nat) (h : F'.apart i' F i) : (s.wr pg F v i).rd pg' F' i' = s.rd pg' F' i' :=
  rd_wr_other s pg F v i (fkey_ne_of_apart pg' pg h)

theorem rd_bump_apart (n : Nat) (h : F'.apart i' F i) : (s.bump pg F n i).rd pg' F' i' = s.rd pg' F' i' :=
  rd_bump_other s pg F n i (fkey_ne_of_apart pg' pg h)

theorem rd_hwClear_apart (b : Nat) (h : F'.apart i' F i) : (s.hwClear pg F b i).rd pg' F' i' = s.rd pg' F' i' :=
  rd_wr_apart pg pg' s _ h

theorem rd_wr_page {pg pg'} (v : Nat) (hp : pg' ≠ pg) (hF' : F'.inPage i') (hF : F.inPage i) :
    (s.wr pg F v i).rd pg' F' i' = s.rd pg' F' i' :=
  rd_wr_other s pg F v i (fkey_ne_of_page hp hF' hF)

theorem rd_wrs_apart (l : List (Fld × Nat)) (h : ∀ e ∈ l, F'.apart i' e.1 i) : (s.wrs pg l i).rd pg' F' i' = s.rd pg' F' i' :=
  aget_wrs_other s pg l i _ fun e he => fkey_ne_of_apart pg' pg (h e he)

theorem rd_wrs_page {pg pg'} (l : List (Fld × Nat)) (hp : pg' ≠ pg) (hF' : F'.inPage i') (h : ∀ e ∈ l, e.1.inPage i) :
    (s.wrs pg l i).rd pg' F' i' = s.rd pg' F' i' :=
  aget_wrs_other s pg l i _ fun e he => fkey_ne_of_page hp hF' (h e he)

end

/-- A list of writes to different fields leaves the first as written. -/
theorem rd_wrs_head (s : State) (pg : Nat) (F : Fld) (v : Nat) (l : List (Fld × Nat)) (i : Nat) (h : ∀ e ∈ l, F.apart i e.1 i) :
    (s.wrs pg ((F, v) :: l) i).rd pg F i = v % 2 ^ F.width :=
  (rd_wrs_apart pg pg (s.wr pg F v i) l h).trans (rd_wr_same ..)

theorem wrs_cons (s : State) (pg : Nat) (e : Fld × Nat) (l : List (Fld × Nat)) (i : Nat) :
    s.wrs pg (e :: l) i = (s.wr pg e.1 e.2 i).wrs pg l i := rfl

theorem wrs_nil (s : State) (pg i : Nat) : s.wrs pg [] i = s := rfl

/-- A value within a field's width reads back whole. -/
theorem rd_wr_fits (s : State) (pg : Nat) (F : Fld) {v : Nat} (i : Nat) (h : v < 2 ^ F.width) : (s.wr pg F v i).rd pg F i = v := by
  rw [rd_wr_same, Nat.mod_eq_of_lt h]

theorem rd_foldl_same {β : Type} (f : State → β → State) (pg : Nat) (F : Fld) (i : Nat) (l : List β)
    (hf : ∀ s, ∀ b ∈ l, (f s b).rd pg F i = s.rd pg F i) (s : State) : (l.foldl f s).rd pg F i = s.rd pg F i := by
  induction l generalizing s with
  | nil => rfl
  | cons b l ih => exact (ih (fun s c hc => hf s c (List.mem_cons_of_mem _ hc)) _).trans (hf s b (by simp))

/-! ### Fields that no event writes -/

/-- A field that raising an event leaves alone: past the page header, no Runner or CXL port's state, and not EV_LOST. -/
abbrev quietFld (pg : Nat) (F : Fld) (i : Nat) : Prop :=
  44 ≤ F.at i ∧ F.inPage i ∧ (F.at i ≠ 0x040 ∨ F.lo ≠ 0 ∨ (pgType pg ≠ 0x0040 ∧ pgType pg ≠ 0x0051)) ∧
    (F.at i ≠ 0x058 ∨ F.lo ≠ 0 ∨ pg ≠ pgEv)

theorem quietKey_of_quietFld {pg : Nat} {F : Fld} {i : Nat} (h : quietFld pg F i) : quietKey (fkey pg F i) := by
  obtain ⟨h44, ⟨ha, hl⟩, hport, hlost⟩ := h
  have hRN : RN_PSTAT_STATE.at 0 = 0x040 ∧ RN_PSTAT_STATE.lo = 0 := ⟨rfl, rfl⟩
  have hCX : CX_STATUS_STATE.at 0 = 0x040 ∧ CX_STATUS_STATE.lo = 0 := ⟨rfl, rfl⟩
  have hEV : EV_LOST_COUNT.at 0 = 0x058 ∧ EV_LOST_COUNT.lo = 0 := ⟨rfl, rfl⟩
  simp only [quietKey, fkey, hRN, hCX, hEV, pgRunner, pgCxl, pgType, pageId] at hport ⊢
  refine ⟨by omega, fun q hq => ?_, fun x hx => ?_, ?_⟩ <;> omega

/-- A quiet field reads as before an event. -/
theorem rd_raise_quiet (s : State) (pg : Nat) (k : EvKind) (info : Bytes) {pg' : Nat} {F : Fld} {i : Nat} (h : quietFld pg' F i) :
    (s.raise pg k info).rd pg' F i = s.rd pg' F i :=
  rd_raise s pg k info pg' F i (quietKey_of_quietFld h)

theorem rd_raiseAt_quiet (s : State) (pg code sev : Nat) (named : Bool) (info : Bytes) {pg' : Nat} {F : Fld} {i : Nat}
    (h : quietFld pg' F i) : (s.raiseAt pg code sev named info).rd pg' F i = s.rd pg' F i :=
  rd_quiet (raiseAt_eventOnly ..).2 _ _ _ (quietKey_of_quietFld h)

/-! ### Ochre events -/

theorem sameBut_setQueue (s : State) (pg : Nat) (q : List EvRec) : s.sameBut [.events] (s.setQueue pg q) := by
  intro k hk
  cases k <;> first | exact absurd (by decide) hk | exact ⟨rfl, rfl⟩ | rfl

theorem sameBut_evHeader (s : State) (pg code sev : Nat) (esc : Bool) : s.sameBut [.regs] (s.evHeader pg code sev esc) := by
  have first : s.sameBut [.regs] (if s.evQuiet pg then
      s.wrs pg [(ERR_FIRST_CODE, code), (ERR_FIRST_SEV, sev), (ERR_FIRST_VALID, 1)] else s) := by
    split
    · exact sameBut_wrs _ _ _ _
    · exact sameBut_refl _ s
  have counted := sameBut_trans first (sameBut_trans (sameBut_hwSet _ pg (sevField sev) 1 0)
    (sameBut_trans (sameBut_bump _ pg ERR_CNT_EVENTS 1 0) (sameBut_wrs _ pg
      [(ERR_LAST_CODE, code), (ERR_LAST_SEV, sev), (ERR_LAST_VALID, 1)] 0)))
  simp only [State.evHeader]
  split
  · exact sameBut_trans counted (sameBut_trans (sameBut_hwSet _ _ _ _ _) (sameBut_wr _ _ _ _ _))
  · exact sameBut_trans counted (sameBut_wr _ _ _ _ _)

theorem sameBut_delivered (s : State) (r : EvRec) : s.sameBut [.events, .mordant] (s.delivered r) := by
  have ring : s.sameBut [.events, .mordant] (s.partRing r) := by
    simp only [State.partRing]
    split
    · split
      · intro k hk
        cases k <;> first | exact absurd (by decide) hk | exact ⟨rfl, rfl⟩ | rfl
      · exact sameBut_refl _ s
    · exact sameBut_refl _ s
  refine sameBut_trans ring ?_
  simp only [State.delivered, State.await]
  split
  · exact sameBut_refl _ _
  · intro k hk
    cases k <;> first | exact absurd (by decide) hk | exact ⟨rfl, rfl⟩ | rfl

theorem sameBut_deliver (s : State) (pg : Nat) : s.sameBut [.regs, .events, .mordant] (s.deliver pg) := by
  simp only [State.deliver]
  split
  · exact sameBut_refl _ s
  · have sent : s.sameBut [.regs, .events, .mordant] ((s.queue pg).foldl State.delivered (s.setQueue pg [])) :=
      sameBut_trans (sameBut_mono (sameBut_setQueue s pg []) (by decide))
        (sameBut_foldl _ (fun s r => sameBut_mono (sameBut_delivered s r) (by decide)) _ _)
    split
    · exact sameBut_trans sent (sameBut_mono (sameBut_bump _ _ _ _ _) (by decide))
    · exact sent

/-- An Ochre event has no action (Table 16-7): where its page's queue has room, only registers, records and partition rings change. -/
theorem sameBut_raise_ochre (s : State) (pg : Nat) (k : EvKind) (info : Bytes) (hsev : k.sev = 0)
    (hroom : (s.queue pg).length < 16) : s.sameBut [.regs, .events, .mordant] (s.raise pg k info) := by
  have header : s.sameBut [.regs, .events, .mordant] (s.evHeader pg k.code 0 false) :=
    sameBut_mono (sameBut_evHeader s pg k.code 0 false) (by decide)
  have enqueued := fun q => sameBut_trans header (sameBut_trans
    (sameBut_mono (sameBut_setQueue (s.evHeader pg k.code 0 false) pg q) (by decide)) (sameBut_deliver _ pg))
  simp only [State.raise, State.raiseAt, hsev, Nat.zero_ne_one, false_and, decide_false, Bool.false_eq_true, if_false, hroom, if_true]
  split
  · exact header
  · split
    · exact enqueued _
    · exact enqueued _

/-! ### Descriptions brought up to date (R555) -/

/-- What bringing descriptions up to date can change: them, and what an event can. -/
def described : List Comp := .descs :: evented

theorem sameBut_of_descs (s : State) (d : List (Nat × Desc)) : s.sameBut [.descs] { s with descs := d } := by
  intro k hk
  cases k <;> first | exact absurd (by decide) hk | exact ⟨rfl, rfl⟩ | rfl

theorem descNotice_frame (s : State) (p : Nat) : s.sameBut described (s.descNotice p) ∧ quietSame s (s.descNotice p) := by
  unfold State.descNotice
  split
  · exact ⟨sameBut_refl _ s, quietSame_refl s⟩
  · simp only
    split
    · exact ⟨sameBut_refl _ s, quietSame_refl s⟩
    · have h := fun d => raise_eventOnly { s with descs := d } pgBu ev_BU_DESC_CHANGED
      exact ⟨sameBut_trans (sameBut_mono (sameBut_of_descs s _) (by decide)) (sameBut_mono (h _ _).1 (by decide)),
        quietSame_trans (quietSame_of_regs rfl) (h _ _).2⟩

theorem redescribe_frame (s : State) : s.sameBut described s.redescribe ∧ quietSame s s.redescribe :=
  ⟨sameBut_foldl _ (fun s p => (descNotice_frame s p).1) _ s,
    quietSame_foldl _ _ (fun s p _ => (descNotice_frame s p).2) s⟩

theorem rd_redescribe (s : State) {pg : Nat} {F : Fld} {i : Nat} (h : quietFld pg F i) : s.redescribe.rd pg F i = s.rd pg F i :=
  rd_quiet (redescribe_frame s).2 _ _ _ (quietKey_of_quietFld h)

theorem redescribe_same (s : State) {k : Comp} (h : k ∉ described) : k.same s s.redescribe := (redescribe_frame s).1 k h

/-- With no description formed there is none to bring up to date. -/
theorem redescribe_of_descs_nil (s : State) (h : s.descs = []) : s.redescribe = s := by simp [State.redescribe, h]

/-! ### The end of a command -/

/-- A quiet field, other than the count of frames dropped, reads as before a command's completion. -/
theorem rd_complete (s : State) (op : Nat) (c : Cmd) (st : Nat) (d : Bytes) (a : Option Nat) {pg : Nat} {F : Fld} {i : Nat}
    (hq : quietFld pg F i) (hdrop : F.apart i SP_TXQ_DROPPED 0 ∨ pg ≠ pgSprue) :
    (s.complete op c st d a).rd pg F i = s.rd pg F i := by
  have hne : fkey pg F i ≠ fkey pgSprue SP_TXQ_DROPPED 0 :=
    hdrop.elim (fkey_ne_of_apart _ _) fun hp => fkey_ne_of_page hp hq.2.1 (by decide)
  have sent : ∀ (t : State) f, (t.sendTx f).rd pg F i = t.rd pg F i := by
    intro t f
    simp only [State.sendTx]
    split
    · rfl
    · exact rd_bump_other t _ _ _ _ hne
  have relayed : ∀ (t : State) id n, (t.relayAnswer id n).rd pg F i = t.rd pg F i := by
    intro t id n
    simp only [State.relayAnswer]
    split <;> rfl
  simp only [State.complete]
  split
  · rw [relayed, sent]; rfl
  · rw [rd_raise_quiet _ _ _ _ hq, relayed, sent]; rfl

/-- A completed command's effect stays in the components that no completion touches. -/
theorem complete_same (s : State) (op : Nat) (c : Cmd) (st : Nat) (d : Bytes) (a : Option Nat) {k : Comp} (h : k ∉ answered) :
    k.same s (s.complete op c st d a) := sameBut_complete s op c st d a k h

/-- A completion OK raises no event: only registers, the Sprue port and what a relay left change. -/
theorem sameBut_complete_ok (s : State) (op : Nat) (c : Cmd) (d : Bytes) (a : Option Nat) :
    s.sameBut [.regs, .sprue, .hall, .runner] (s.complete op c 0 d a) := by
  have closed : ∀ r, s.sameBut [.regs, .sprue, .hall, .runner] (s.closeCmd c.id r) := fun r k hk => by
    cases k <;> first | exact absurd (by decide) hk | exact ⟨rfl, rfl⟩ | rfl
  have sent : ∀ (t : State) f, t.sameBut [.regs, .sprue, .hall, .runner] (t.sendTx f) := by
    intro t f
    simp only [State.sendTx]
    split
    · exact fun k hk => by cases k <;> first | exact absurd (by decide) hk | exact ⟨rfl, rfl⟩ | rfl
    · exact sameBut_mono (sameBut_bump _ _ _ _ _) (by decide)
  have relayed : ∀ (t : State) id n, t.sameBut [.regs, .sprue, .hall, .runner] (t.relayAnswer id n) := by
    intro t id n
    simp only [State.relayAnswer]
    split
    · exact sameBut_refl _ t
    · exact fun k hk => by cases k <;> first | exact absurd (by decide) hk | exact ⟨rfl, rfl⟩ | rfl
  simp only [State.complete, if_true]
  exact sameBut_trans (closed _) (sameBut_trans (sent _ _) (relayed _ _ _))

/-- A completion reads as one at any state that counts the same time. -/
theorem completed_of_time {s u t : State} {op : Nat} {c : Cmd} {st : Nat} {d : Bytes} (htime : u.time.ticks = s.time.ticks)
    (h : u.completed t op c st d) : s.completed t op c st d := by
  rw [State.completed, ← htime]; exact h

end Sys2Proof.Machine
end

section
/-!
Proofs of the family 18_package_electrical.md: the filtered pin levels (O10), pin stability and the scan port (O11).
-/

namespace Sys2Proof.Machine

open Sys2Proof

/-! ### The power-on scope at its start (Table 14-5) -/

/-- A list of writes to fields of one page that lie apart leaves each as written. -/
theorem rd_foldl_wr_mem (pg : Nat) (g : Fld → Nat) {F : Fld} (l : List Fld) (hl : l.Pairwise fun F G => F.apart 0 G 0) (hF : F ∈ l)
    (s : State) : (l.foldl (fun t F => t.wr pg F (g F)) s).rd pg F = g F % 2 ^ F.width := by
  induction l generalizing s with
  | nil => simp at hF
  | cons G l ih =>
    obtain ⟨hG, hl⟩ := List.pairwise_cons.mp hl
    by_cases hm : F ∈ l
    · exact ih hl hm _
    · obtain rfl : F = G := (List.mem_cons.mp hF).resolve_right hm
      exact (rd_foldl_same _ pg F 0 l (fun s H hH => rd_wr_apart pg pg s _ (hG H hH)) _).trans (rd_wr_same ..)

theorem pinRegs_apart : pinRegs.Pairwise fun F G => F.apart 0 G 0 := by decide

/-- The registers of the pin logic come through a FULL reset (R650). -/
theorem fullReset_rd_pin (s : State) {F : Fld} (hF : F ∈ pinRegs) : s.fullReset.rd pgBu F = s.rd pgBu F % 2 ^ F.width :=
  rd_foldl_wr_mem pgBu (fun F => s.rd pgBu F) pinRegs pinRegs_apart hF _

/-- Every other register reads its reset value after it (R626). -/
theorem fullReset_rd_other (s : State) {pg : Nat} {F : Fld} {i : Nat} (hF : F.inPage i)
    (h : pg ≠ pgBu ∨ (F.at i ≠ 0x060 ∧ F.at i ≠ 0x064)) : s.fullReset.rd pg F i = F.resetAt i := by
  have places : ∀ G ∈ pinRegs, G.inPage 0 ∧ (G.at 0 = 0x060 ∨ G.at 0 = 0x064) := by decide
  refine (rd_foldl_same _ pg F i pinRegs (fun t G hG => ?_) _).trans (aget_nil _ _)
  obtain ⟨hin, hat⟩ := places G hG
  rcases h with hp | ⟨h60, h64⟩
  · exact rd_wr_page t _ hp hF hin
  · exact rd_wr_apart pgBu pg t _ ⟨hF, hin, .inl (by omega)⟩

/-- Writes to registers change the registers alone. -/
theorem foldl_wr_eq (pg : Nat) (g : Fld → Nat) (l : List Fld) (t : State) :
    ∃ r, l.foldl (fun t F => t.wr pg F (g F)) t = { t with regs := r } := by
  induction l generalizing t with
  | nil => exact ⟨t.regs, rfl⟩
  | cons F l ih =>
    obtain ⟨r, hr⟩ := ih (t.wr pg F (g F))
    exact ⟨r, hr⟩

/-- A FULL reset at a pin's change takes the power-on scope to its start, whatever becomes of start-up and of what began the reset. -/
theorem fullReset_powersOn (s : State) (F : Fld) (v : Nat) (b : Boot) (byReset : Bool) :
    s.powersOn (s.only powered
      { (s.wr pgBu F v).fullReset with boot := b, pins := { (s.wr pgBu F v).fullReset.pins with byReset := byReset } }) := by
  have hrd := fun pg F' i ha hl h => fullReset_rd_other (s.wr pgBu F v) (pg := pg) (F := F') (i := i) ⟨ha, hl⟩ h
  obtain ⟨r, hr⟩ := foldl_wr_eq pgBu (fun G => (s.wr pgBu F v).rd pgBu G) pinRegs _
  rw [State.fullReset, hr] at hrd ⊢
  exact ⟨rfl, rfl, rfl, rfl, rfl, rfl, rfl, rfl, rfl, rfl, rfl, rfl, rfl, rfl, rfl, rfl, rfl, rfl, rfl, rfl, rfl, rfl, rfl, rfl, rfl,
    rfl, rfl, rfl, rfl, rfl, hrd⟩

/-! ### The pins' own registers -/

/-- A level written leaves what latches the pins unstable. -/
theorem unstable_wr_level (s : State) (p : Pin) (b : Bool) :
    (s.wr pgBu (pinField p) b.toNat).rd pgBu BU_PINS_UNSTABLE = s.rd pgBu BU_PINS_UNSTABLE :=
  rd_wr_apart pgBu pgBu s _ (by cases p <;> decide)

theorem rd_wr_level (s : State) (p : Pin) (b : Bool) : (s.wr pgBu (pinField p) b.toNat).rd pgBu (pinField p) = b.toNat :=
  rd_wr_fits s pgBu _ 0 (by cases p <;> cases b <;> decide)

/-- A stable pin is high exactly where its level is. -/
theorem pinHigh_wr_level {s : State} {p : Pin} (h : s.unstable p = false) (b : Bool) :
    (s.wr pgBu (pinField p) b.toNat).pinHigh p = b := by
  simp only [State.pinHigh, State.on, rd_wr_level, unstable_wr_level s p]
  rw [show bit (s.rd pgBu BU_PINS_UNSTABLE) (pinIdx p) = false from h]
  cases b <;> rfl

/-- An unstable pin is not high. -/
theorem pinHigh_unstable {s : State} {p : Pin} (h : s.unstable p = true) (b : Bool) :
    (s.wr pgBu (pinField p) b.toNat).pinHigh p = false := by
  simp only [State.pinHigh, unstable_wr_level s p]
  rw [show bit (s.rd pgBu BU_PINS_UNSTABLE) (pinIdx p) = true from h]
  simp

theorem pinHigh_wr_other (s : State) {p q : Pin} (h : q ≠ p) (b : Bool) :
    (s.wr pgBu (pinField p) b.toNat).pinHigh q = s.pinHigh q := by
  simp only [State.pinHigh, State.on, unstable_wr_level s p]
  rw [rd_wr_apart pgBu pgBu s _ (by revert h; cases p <;> cases q <;> decide)]

/-! ### PWR_GOOD and RESET_N (Table 18-6) -/

theorem execPwrGoodChange_unstable {s : State} {b : Bool} (h : s.unstable .pwrGood = true) :
    exec (.pwrGoodChange b) s = finish powered s (s.wr pgBu BU_PINS_PWR_GOOD b.toNat) := by
  rw [show exec (.pwrGoodChange b) s = execPwrGoodChange b s from rfl, execPwrGoodChange, if_pos h]

theorem execResetNChange_unstable {s : State} {b : Bool} (h : s.unstable .resetN = true) :
    exec (.resetNChange b) s = finish powered s (s.wr pgBu BU_PINS_RESET_N b.toNat) := by
  rw [show exec (.resetNChange b) s = execResetNChange b s from rfl, execResetNChange, if_pos h]

theorem sameBut_only_of {l l' : List Comp} {s t : State} (h : s.sameBut l' t) : s.sameBut l' (s.only l t) := by
  intro k hk
  have ht := h k hk
  by_cases hl : k ∈ l
  · cases k <;> simp_all [Comp.same]
  · exact sameBut_only l s t k hl

theorem leads_pwrGood_low {s : State} (h : s.unstable .pwrGood = false) : Leads (.pwrGoodChange false) s fun t =>
    s.powersOn t ∧ t.boot = {} ∧ t.rd pgBu BU_PINS_PWR_GOOD = 0 := by
  have hlow : (s.wr pgBu BU_PINS_PWR_GOOD 0).pinHigh .pwrGood = false := pinHigh_wr_level (b := false) h
  have hexec : exec (.pwrGoodChange false) s = finish powered s
      { (s.wr pgBu BU_PINS_PWR_GOOD 0).fullReset with
        boot := {}, pins := { (s.wr pgBu BU_PINS_PWR_GOOD 0).fullReset.pins with byReset := false } } := by
    rw [show exec (.pwrGoodChange false) s = execPwrGoodChange false s from rfl, execPwrGoodChange, if_neg (by simp [h]),
      if_pos (by simp [hlow])]
    rfl
  refine ⟨_, hexec, fullReset_powersOn .., rfl, ?_⟩
  calc (s.wr pgBu BU_PINS_PWR_GOOD 0).fullReset.rd pgBu BU_PINS_PWR_GOOD
      = (s.wr pgBu BU_PINS_PWR_GOOD 0).rd pgBu BU_PINS_PWR_GOOD % 2 ^ BU_PINS_PWR_GOOD.width := fullReset_rd_pin _ (by decide)
    _ = 0 := by rw [rd_wr_same]; rfl

theorem leads_pwrGood_high {s : State} (h : s.unstable .pwrGood = false) (hvin : s.pins.vin = true) (hvaux : s.pins.vaux = true) :
    Leads (.pwrGoodChange true) s fun t =>
      t.boot = { s.boot with begun := true } ∧ t.rd pgBu BU_PINS_PWR_GOOD = 1 ∧ s.sameBut [.regs, .boot] t := by
  have hhigh : (s.wr pgBu BU_PINS_PWR_GOOD 1).pinHigh .pwrGood = true := pinHigh_wr_level (b := true) h
  have hexec : exec (.pwrGoodChange true) s = finish powered s
      { s.wr pgBu BU_PINS_PWR_GOOD 1 with boot := { s.boot with begun := true } } := by
    have begins : s.boot.begun = true → { s.boot with begun := true } = s.boot := by
      intro hb; cases hs : s.boot; simp_all
    rw [show exec (.pwrGoodChange true) s = execPwrGoodChange true s from rfl, execPwrGoodChange, if_neg (by simp [h]),
      if_neg (by simp [hhigh])]
    by_cases hb : s.boot.begun = true
    · rw [if_neg (by simp [hb]), begins hb]
      rfl
    · rw [if_pos (by simp [hb, hvin, hvaux])]
      rfl
  refine ⟨_, hexec, rfl, rd_wr_fits s pgBu BU_PINS_PWR_GOOD (v := 1) 0 (by decide), sameBut_only_of ?_⟩
  intro k hk
  cases k <;> first | exact absurd (by decide) hk | rfl

theorem leads_pwrGood_unstable {s : State} (b : Bool) (h : s.unstable .pwrGood = true) :
    Leads (.pwrGoodChange b) s fun t => t.rd pgBu BU_PINS_PWR_GOOD = b.toNat ∧ s.sameBut [.regs] t :=
  ⟨_, execPwrGoodChange_unstable h, rd_wr_level s .pwrGood b, sameBut_only_of (sameBut_wr s pgBu BU_PINS_PWR_GOOD b.toNat 0)⟩

theorem leads_resetN_low {s : State} (h : s.unstable .resetN = false) : Leads (.resetNChange false) s fun t =>
    s.powersOn t ∧ t.boot = { begun := s.pinHigh .pwrGood && s.pins.vin && s.pins.vaux } ∧
    t.pins.byReset = s.pinHigh .pwrGood ∧ t.rd pgBu BU_PINS_RESET_N = 0 := by
  have hlow : (s.wr pgBu BU_PINS_RESET_N 0).pinHigh .resetN = false := pinHigh_wr_level (b := false) h
  have hgood : (s.wr pgBu BU_PINS_RESET_N 0).pinHigh .pwrGood = s.pinHigh .pwrGood :=
    pinHigh_wr_other s (p := .resetN) (by decide) false
  have hexec : exec (.resetNChange false) s = finish powered s
      { (s.wr pgBu BU_PINS_RESET_N 0).fullReset with
        boot := { begun := s.pinHigh .pwrGood && s.pins.vin && s.pins.vaux }
        pins := { (s.wr pgBu BU_PINS_RESET_N 0).fullReset.pins with byReset := s.pinHigh .pwrGood } } := by
    rw [show exec (.resetNChange false) s = execResetNChange false s from rfl, execResetNChange, if_neg (by simp [h]),
      if_pos (by simp [hlow]), ← hgood]
    rfl
  refine ⟨_, hexec, fullReset_powersOn .., rfl, rfl, ?_⟩
  calc (s.wr pgBu BU_PINS_RESET_N 0).fullReset.rd pgBu BU_PINS_RESET_N
      = (s.wr pgBu BU_PINS_RESET_N 0).rd pgBu BU_PINS_RESET_N % 2 ^ BU_PINS_RESET_N.width := fullReset_rd_pin _ (by decide)
    _ = 0 := by rw [rd_wr_same]; rfl

theorem leads_resetN_high {s : State} (h : s.unstable .resetN = false) : Leads (.resetNChange true) s fun t =>
    t.rd pgBu BU_PINS_RESET_N = 1 ∧ t.pinHigh .resetN = true ∧
    t.pins = { s.pins with scan := if s.pins.scan = 0 then 15 else s.pins.scan } ∧ s.sameBut [.regs, .pins] t := by
  have hhigh : (s.wr pgBu BU_PINS_RESET_N 1).pinHigh .resetN = true := pinHigh_wr_level (b := true) h
  have hexec : exec (.resetNChange true) s = finish powered s
      { s.wr pgBu BU_PINS_RESET_N 1 with pins := { s.pins with scan := if s.pins.scan = 0 then 15 else s.pins.scan } } := by
    rw [show exec (.resetNChange true) s = execResetNChange true s from rfl, execResetNChange, if_neg (by simp [h]),
      if_neg (by simp [hhigh])]
    rfl
  refine ⟨_, hexec, rd_wr_fits s pgBu BU_PINS_RESET_N (v := 1) 0 (by decide), hhigh, rfl, sameBut_only_of ?_⟩
  intro k hk
  cases k <;> first | exact absurd (by decide) hk | rfl

theorem leads_resetN_unstable {s : State} (b : Bool) (h : s.unstable .resetN = true) :
    Leads (.resetNChange b) s fun t => t.rd pgBu BU_PINS_RESET_N = b.toNat ∧ s.sameBut [.regs] t :=
  ⟨_, execResetNChange_unstable h, rd_wr_level s .resetN b, sameBut_only_of (sameBut_wr s pgBu BU_PINS_RESET_N b.toNat 0)⟩

/-! ### HOLD_N (R648) -/

/-- Holding partitions by a list changes nothing but them. -/
theorem sameBut_holdParts (l : List Nat) (s : State) : s.sameBut [.parts] (l.foldl State.holdPart s) := by
  refine sameBut_foldl State.holdPart (fun s p k hk => ?_) l s
  cases k <;> first | exact absurd (by decide) hk | exact ⟨rfl, rfl⟩ | rfl

theorem holdPart_part (s : State) (p j : Nat) :
    (s.holdPart p).part j = if j = p then (s.part p).holdAt s.holdEpoch else s.part j := by
  simp only [State.holdPart, State.part, modPart_parts, aupd]
  rw [aget_aset]

/-- Each partition of the first `n` is held once, and no other. -/
theorem holdParts_part (n : Nat) (s : State) (j : Nat) :
    ((List.range n).foldl State.holdPart s).part j = if j < n then (s.part j).holdAt s.holdEpoch else s.part j := by
  induction n generalizing j with
  | zero => rfl
  | succ n ih =>
    have hepoch : ((List.range n).foldl State.holdPart s).holdEpoch = s.holdEpoch := by
      have htime : ((List.range n).foldl State.holdPart s).time = s.time := sameBut_holdParts _ s .time (by decide)
      rw [State.holdEpoch, State.slot, State.epoch, htime]
      rfl
    rw [List.range_succ, List.foldl_append, List.foldl_cons, List.foldl_nil, holdPart_part, hepoch, ih, ih]
    by_cases hj : j = n
    · simp [hj]
    · have : (j < n + 1) ↔ j < n := by omega
      simp [hj, this]

/-- The epoch is counted where it was not yet, and told by an Ochre event. -/
theorem notePinHold_frame {s : State} (hroom : (s.queue pgBu).length < 16) :
    s.sameBut [.regs, .events, .mordant, .pins] s.notePinHold ∧
    (∀ F : Fld, quietFld pgBu F 0 → F.apart 0 BU_PIN_HOLD_EPOCHS 0 → s.notePinHold.rd pgBu F = s.rd pgBu F) ∧
    (s.holdPin = true → s.pins.heldAt ≠ s.time.epochs + 1 → s.notePinHold.rd pgBu BU_PIN_HOLD_EPOCHS =
      min (s.rd pgBu BU_PIN_HOLD_EPOCHS + 1) (2 ^ BU_PIN_HOLD_EPOCHS.width - 1)) := by
  unfold State.notePinHold
  split
  · have pinned : s.sameBut [.pins] { s with pins := { s.pins with heldAt := s.time.epochs + 1 } } := fun k hk => by
      cases k <;> first | exact absurd (by decide) hk | exact ⟨rfl, rfl⟩ | rfl
    have counted := sameBut_trans (sameBut_mono (l' := [.regs, .events, .mordant, .pins]) pinned (by decide))
      (sameBut_mono (sameBut_bump _ pgBu BU_PIN_HOLD_EPOCHS 1 0) (by decide))
    have hevents := counted
    refine ⟨sameBut_trans counted (sameBut_mono (sameBut_raise_ochre _ _ _ _ rfl ?_) (by decide)), fun F hq hap => ?_, fun _ _ => ?_⟩
    · exact hroom
    · rw [rd_raise_quiet _ _ _ _ hq, rd_bump_apart _ _ _ _ hap]
      rfl
    · rw [rd_raise_quiet _ _ _ _ (by decide), rd_bump_same]
      rfl
  · rename_i hno
    refine ⟨sameBut_refl _ s, fun _ _ _ => rfl, fun hpin hheld => ?_⟩
    exact absurd (by simp [hpin, hheld]) hno

theorem leads_holdN_held {s : State} {b : Bool} (h : b = false ∨ s.unstable .holdN = true) (hroom : (s.queue pgBu).length < 16) :
    Leads (.holdNChange b) s fun t =>
      t.holdPin = true ∧ t.rd pgBu BU_PINS_HOLD_N = b.toNat ∧ (∀ p, p < s.partCount → t.part p = (s.part p).holdAt s.holdEpoch) ∧
      (s.pins.heldAt ≠ s.time.epochs + 1 → t.rd pgBu BU_PIN_HOLD_EPOCHS =
        min (s.rd pgBu BU_PIN_HOLD_EPOCHS + 1) (2 ^ BU_PIN_HOLD_EPOCHS.width - 1)) := by
  obtain ⟨s1, hs1⟩ : ∃ s1, s1 = s.wr pgBu BU_PINS_HOLD_N b.toNat := ⟨_, rfl⟩
  have hpin : s1.holdPin = true := by
    have : s1.pinHigh .holdN = false := by
      rw [hs1]
      cases hu : s.unstable .holdN
      · rw [show b = false by simpa [hu] using h]; exact pinHigh_wr_level (p := .holdN) hu false
      · exact pinHigh_unstable (p := .holdN) hu b
    simp [State.holdPin, this]
  obtain ⟨s2, hs2⟩ : ∃ s2, s2 = s1.partList.foldl State.holdPart s1 := ⟨_, rfl⟩
  have hexec : exec (.holdNChange b) s = finish evented s s2.notePinHold := by
    rw [show exec (.holdNChange b) s = execHoldNChange b s from rfl, execHoldNChange, ← hs1, if_pos hpin, hs2]
  have held := sameBut_holdParts s1.partList s1
  rw [← hs2] at held
  have hregs : s2.regs = s1.regs := (held .regs (by decide)).1
  have hpins : s2.pins = s1.pins := held .pins (by decide)
  have hqueue : (s2.queue pgBu).length < 16 := by
    rw [State.queue, show s2.events = s1.events from held .events (by decide), hs1]; exact hroom
  have hpin2 : s2.holdPin = true := by
    simpa only [State.holdPin, State.pinHigh, State.on, rd_congr hregs] using hpin
  obtain ⟨noted, hrd, hcount⟩ := notePinHold_frame hqueue
  have hcounted : s1.partCount = s.partCount := by
    rw [hs1]; exact congrArg (2 ^ ·) (rd_wr_apart pgBu pgBu s _ (by decide))
  refine ⟨_, hexec, ?_, ?_, fun p hp => ?_, fun hheld => ?_⟩
  · change s2.notePinHold.holdPin = true
    rw [← hpin2]
    simp only [State.holdPin, State.pinHigh, State.on]
    rw [hrd _ (by decide) (by decide), hrd BU_PINS_UNSTABLE (by decide) (by decide)]
  · change s2.notePinHold.rd pgBu BU_PINS_HOLD_N = b.toNat
    rw [hrd _ (by decide) (by decide), rd_congr hregs, hs1]
    exact rd_wr_level s .holdN b
  · have hparts : s2.notePinHold.parts = s2.parts := noted .parts (by decide)
    change aget {} s2.notePinHold.parts p = _
    rw [hparts, hs2]
    refine (holdParts_part s1.partCount s1 p).trans ?_
    rw [if_pos (hcounted ▸ hp), hs1]
    rfl
  · change s2.notePinHold.rd pgBu BU_PIN_HOLD_EPOCHS = _
    have htime : s2.time = s.time := by rw [show s2.time = s1.time from held .time (by decide), hs1]; rfl
    rw [hcount hpin2 (by rw [hpins, htime, hs1]; exact hheld), rd_congr hregs, hs1, rd_wr_apart pgBu pgBu s _ (by decide)]

theorem leads_holdN_high {s : State} (h : s.unstable .holdN = false) : Leads (.holdNChange true) s fun t =>
    t.holdPin = false ∧ t.rd pgBu BU_PINS_HOLD_N = 1 ∧ s.sameBut [.regs] t := by
  have hhigh : (s.wr pgBu BU_PINS_HOLD_N 1).holdPin = false := by
    rw [State.holdPin, show (s.wr pgBu BU_PINS_HOLD_N 1).pinHigh .holdN = true from pinHigh_wr_level (p := .holdN) h true]
    rfl
  have hexec : exec (.holdNChange true) s = finish evented s (s.wr pgBu BU_PINS_HOLD_N 1) := by
    rw [show exec (.holdNChange true) s = execHoldNChange true s from rfl, execHoldNChange, if_neg]
    · rfl
    · exact Bool.eq_false_iff.mp hhigh
  exact ⟨_, hexec, hhigh, rd_wr_fits s pgBu BU_PINS_HOLD_N (v := 1) 0 (by decide), sameBut_only_of (sameBut_wr s pgBu BU_PINS_HOLD_N 1 0)⟩

/-- Settles O10, pin by pin. -/
theorem filteredPinLevelsAct : Obligations.FilteredPinLevelsAct := by
  unfold Obligations.FilteredPinLevelsAct
  exact ⟨fun _ => leads_pwrGood_low, fun _ => leads_pwrGood_high, fun _ b => leads_pwrGood_unstable b,
    fun _ => leads_resetN_low, fun _ => leads_resetN_high, fun _ b => leads_resetN_unstable b,
    fun _ _ => leads_holdN_held, fun _ => leads_holdN_high⟩

/-! ### Unstable pins and the scan port (R649, R652) -/

theorem testBit_setBit_true (v i : Nat) : (setBit v i true).testBit i = true := by
  simp [setBit, Nat.shiftLeft_eq, Nat.testBit_or, Nat.testBit_two_pow_self]

theorem testBit_setBit_false (v i : Nat) : (setBit v i false).testBit i = false := by
  by_cases h : v.testBit i = true
  · have odd : v / 2 ^ i % 2 = 1 := by simpa [Nat.testBit_eq_decide_div_mod_eq] using h
    have even : (v - 2 ^ i) / 2 ^ i = v / 2 ^ i - 1 := by simpa using Nat.sub_mul_div v (2 ^ i) 1
    rw [setBit, if_neg (by simp), if_pos h, Nat.testBit_eq_decide_div_mod_eq, even]
    simp only [decide_eq_false_iff_not]
    omega
  · rw [setBit, if_neg (by simp), if_neg h]
    simpa using h

theorem pinIdx_lt (p : Pin) : pinIdx p < BU_PINS_UNSTABLE.width := by cases p <;> decide

/-- What a pin's bit of UNSTABLE reads after it is written. -/
theorem bit_wr_unstable (s : State) (p : Pin) (v : Nat) (b : Bool) :
    bit ((s.wr pgBu BU_PINS_UNSTABLE (setBit v (pinIdx p) b)).rd pgBu BU_PINS_UNSTABLE) (pinIdx p) = b := by
  rw [rd_wr_same, bit, Nat.testBit_mod_two_pow, decide_eq_true (pinIdx_lt p), Bool.true_and]
  cases b
  · exact testBit_setBit_false v _
  · exact testBit_setBit_true v _

theorem safePin_regs (s : State) {p : Pin} (h : p ≠ .holdN) : (s.safePin p).regs = s.fullReset.regs := by
  unfold State.safePin
  generalize s.fullReset = t
  cases p with
  | resetN => rfl
  | pwrGood => rfl
  | holdN => exact absurd rfl h

/-- A register of the pin logic that holds a value of its width stays through a pin's safe state. -/
theorem safePin_rd_pin (s : State) (p : Pin) {F : Fld} (hF : F ∈ pinRegs) (hfits : s.rd pgBu F < 2 ^ F.width) :
    (s.safePin p).rd pgBu F = s.rd pgBu F := by
  have hreset : s.fullReset.rd pgBu F = s.rd pgBu F := by rw [fullReset_rd_pin s hF, Nat.mod_eq_of_lt hfits]
  have quiet : ∀ G ∈ pinRegs, quietFld pgBu G 0 ∧ G.apart 0 BU_PIN_HOLD_EPOCHS 0 := by decide
  cases p with
  | resetN => exact (rd_congr (safePin_regs s (by decide)) ..).trans hreset
  | pwrGood => exact (rd_congr (safePin_regs s (by decide)) ..).trans hreset
  | holdN =>
    obtain ⟨hq, hap⟩ := quiet F hF
    have held : (s.partList.foldl State.holdPart s).rd pgBu F = s.rd pgBu F :=
      rd_congr (sameBut_holdParts s.partList s .regs (by decide)).1 ..
    change (s.partList.foldl State.holdPart s).notePinHold.rd pgBu F = _
    unfold State.notePinHold
    split
    · rw [rd_raise_quiet _ _ _ _ hq, rd_bump_apart _ _ _ _ hap]
      exact held
    · exact held

/-- A pin transition: the count shown, and, above 100, the pin latched unstable. -/
theorem leads_pinTransition (s : State) (p : Pin) : Leads (.pinTransition p) s fun t =>
    t.rd pgBu (toggleField p) = min (s.edgesNow p).length 1023 ∧
    (100 < (s.edgesNow p).length → bit (t.rd pgBu BU_PINS_UNSTABLE) (pinIdx p) = true) := by
  refine ⟨_, rfl, ?_⟩
  obtain ⟨s2, hs2⟩ : ∃ s2, s2 = State.wr { s with pins := { s.pins with edges := aset [] s.pins.edges (pinIdx p) ((s.edgesNow p).take 1023) } }
    pgBu (toggleField p) (min (s.edgesNow p).length 1023) := ⟨_, rfl⟩
  have htoggle : toggleField p ∈ pinRegs ∧ quietFld pgBu (toggleField p) 0 ∧ (toggleField p).apart 0 BU_PINS_UNSTABLE 0 ∧
      BU_PINS_UNSTABLE.apart 0 (toggleField p) 0 ∧ 2 ^ (toggleField p).width = 1024 := by cases p <;> decide
  obtain ⟨hmem, hquiet, hap, hap', hwidth⟩ := htoggle
  have hcount : s2.rd pgBu (toggleField p) = min (s.edgesNow p).length 1023 := by
    rw [hs2]; exact rd_wr_fits _ pgBu (toggleField p) (v := min (s.edgesNow p).length 1023) 0 (by omega)
  have hunstable : s2.rd pgBu BU_PINS_UNSTABLE = s.rd pgBu BU_PINS_UNSTABLE := by
    rw [hs2]; exact rd_wr_apart pgBu pgBu _ _ hap'
  dsimp only
  rw [← hs2]
  split
  · obtain ⟨s3, hs3⟩ : ∃ s3, s3 = s2.wr pgBu BU_PINS_UNSTABLE (setBit (s.rd pgBu BU_PINS_UNSTABLE) (pinIdx p) true) := ⟨_, rfl⟩
    rw [← hs3]
    change (State.raise _ _ _ _).rd pgBu (toggleField p) = _ ∧ (_ → bit ((State.raise _ _ _ _).rd pgBu BU_PINS_UNSTABLE) _ = true)
    rw [rd_raise_quiet _ _ _ _ hquiet, rd_raise_quiet _ _ _ _ (by decide)]
    have hcount3 : s3.rd pgBu (toggleField p) = min (s.edgesNow p).length 1023 := by
      rw [hs3, rd_wr_apart pgBu pgBu s2 _ hap, hcount]
    have hfits : s3.rd pgBu BU_PINS_UNSTABLE < 2 ^ BU_PINS_UNSTABLE.width := by
      rw [hs3, rd_wr_same]; exact Nat.mod_lt _ (by decide)
    rw [safePin_rd_pin s3 p hmem (by omega), safePin_rd_pin s3 p (by decide) hfits]
    exact ⟨hcount3, fun _ => hs3 ▸ bit_wr_unstable s2 p _ true⟩
  · rename_i hno
    refine ⟨hcount, fun habove => ?_⟩
    change bit (s2.rd pgBu BU_PINS_UNSTABLE) (pinIdx p) = true
    rw [hunstable]
    simpa [habove] using hno

/-- 100 ms without a transition: the bit clears. -/
theorem leads_inputQuietExpiry {s : State} {p : Pin} (hbit : bit (s.rd pgBu BU_PINS_UNSTABLE) (pinIdx p) = true)
    (hquiet : 100 * msTicks ≤ s.real - (aget [] s.pins.edges (pinIdx p)).head?.getD 0) :
    Leads (.inputQuietExpiry p) s fun t => bit (t.rd pgBu BU_PINS_UNSTABLE) (pinIdx p) = false := by
  refine ⟨_, rfl, ?_⟩
  dsimp only
  rw [if_pos (by simp [hbit, hquiet])]
  change bit ((State.raise _ _ _ _).rd pgBu BU_PINS_UNSTABLE) _ = false
  rw [rd_raise_quiet _ _ _ _ (by decide)]
  refine (congrArg (fun v => bit v (pinIdx p)) (rd_congr (s := s.wr pgBu BU_PINS_UNSTABLE _) ?_ ..)).trans
    (bit_wr_unstable s p (s.rd pgBu BU_PINS_UNSTABLE) false)
  simp only [apply_ite State.regs, ite_self]

theorem leads_scanInstruction (s : State) (code : Fin 16) : Leads (.scanInstruction code) s fun t =>
    s.sameBut [.pins] t ∧
    t.pins.scan =
      if (s.fuse.life = .manufacture ∨ s.fuse.life = .provisioned) ∧ code.val = 0 ∧ s.pinHigh .resetN = false then 0
      else if (s.fuse.life = .manufacture ∨ s.fuse.life = .provisioned) ∧ code.val = 2 then 2 else 15 := by
  refine ⟨_, rfl, sameBut_only _ s _, ?_⟩
  have h0 : code = 0 ↔ code.val = 0 := Fin.ext_iff
  have h2 : code = 2 ↔ code.val = 2 := Fin.ext_iff
  change (if _ then 0 else if _ then 2 else 15) = _
  simp only [h0, h2, Bool.not_eq_true']
  refine if_congr ?_ rfl (if_congr ?_ rfl rfl) <;> tauto

/-- Settles O11: the counts, the latch and its end, and the scan port's code. -/
theorem pinStabilityAndScan : Obligations.PinStabilityAndScan := by
  unfold Obligations.PinStabilityAndScan
  exact ⟨leads_pinTransition, fun _ _ => leads_inputQuietExpiry, leads_scanInstruction⟩

end Sys2Proof.Machine
end

section
/-!
Events that find their queue full (R23): the last event there is escalated, which can end every partition. What a statement says of an
event's page then fails, where it does not ask for room: O18.
-/

namespace Sys2Proof.Machine

open Sys2Proof

/-- An event queue with no room left, whose last event is of Umber. -/
def umberQueue : List EvRec := List.replicate 16 { stamp := 0, source := 0, code := 0, sev := 1 }

/-- The start state with such a queue at page `pg`. -/
def crowdedAt (pg : Nat) : State := ({} : State).setQueue pg umberQueue

/-- Partition 0 in the last epoch of a Pattern that runs once, and no room left in the queue of the Hall Time page. -/
def lastEpochCrowded : State := { crowdedAt pgHt with parts := [(0, { run := .running, slot0 := { repeats := 1 } })] }

/-- Refutes O18: PATTERN_DONE comes upon a full queue, whose last event becomes of Madder, and every partition is lost (R602): the
partition whose last relative epoch ended is HELD, not DONE. -/
theorem not_boundaryEndsEpochs : ¬ Obligations.BoundaryEndsEpochs := by
  unfold Obligations.BoundaryEndsEpochs
  intro h
  obtain ⟨-, -, hdone, -⟩ := h
  have done : ((lastEpochCrowded.boundaryPart 0 0).part 0).run = .done :=
    hdone lastEpochCrowded 0 0 rfl (by decide) rfl (by decide) (by decide)
  have held : ((lastEpochCrowded.boundaryPart 0 0).part 0).run = .held := by decide
  exact absurd (held.symm.trans done) (by decide)

end Sys2Proof.Machine
end

section
/-!
Proofs of the family 02_hall_time.md: TIME frames and the counter's step (O16).
-/

namespace Sys2Proof.Machine

open Sys2Proof

/-! ### What an exchange leaves of the time unit -/

/-- The counter, the time of the last valid TIME frame and the Sprue port stand as they did. -/
def clockSame (s t : State) : Prop :=
  t.time.ticks = s.time.ticks ∧ t.time.validAt = s.time.validAt ∧ t.sprue = s.sprue

theorem clockSame_refl (s : State) : clockSame s s := ⟨rfl, rfl, rfl⟩

theorem clockSame_trans {s t u : State} (h1 : clockSame s t) (h2 : clockSame t u) : clockSame s u :=
  ⟨h2.1.trans h1.1, h2.2.1.trans h1.2.1, h2.2.2.trans h1.2.2⟩

theorem clockSame_of_same {s t : State} (ht : t.time = s.time) (hs : t.sprue = s.sprue) : clockSame s t := ⟨by rw [ht], by rw [ht], hs⟩

theorem clockSame_raise (s : State) (pg : Nat) (k : EvKind) (info : Bytes) : clockSame s (s.raise pg k info) :=
  clockSame_of_same (raise_time ..) (raise_same s pg k info .sprue (by decide))

theorem clockSame_countGood (s : State) (good : Bool) : clockSame s (s.countGood good) := by
  cases good <;> exact clockSame_of_same rfl rfl

theorem clockSame_toLost (s : State) (cause : Nat) : clockSame s (s.toLost cause) := by
  have hsprue : ∀ l : List Nat, ∀ t : State, (l.foldl State.lostPart t).sprue = t.sprue := fun l => by
    induction l with
    | nil => exact fun _ => rfl
    | cons p l ih => exact fun t => ih (t.lostPart p)
  refine ⟨by rw [toLost_time], by rw [toLost_time], ?_⟩
  exact (hsprue _ _).trans (clockSame_raise s pgHt ev_TIME_LOST _).2.2

theorem clockSame_crossCheck (s : State) : clockSame s s.crossCheck := by
  have ceased : clockSame s (if s.time.xchkHeld && s.xchkOver then s.modTime fun u => { u with xchkHeld := false } else s) := by
    split
    · exact ⟨rfl, rfl, rfl⟩
    · exact clockSame_refl s
  unfold State.crossCheck
  dsimp only
  generalize (if s.time.xchkHeld && s.xchkOver then _ else s) = s1 at ceased ⊢
  refine clockSame_trans ceased ?_
  cases s.time.state with
  | holdover =>
    dsimp only
    split
    · exact clockSame_toLost s1 1
    · exact clockSame_refl s1
  | locked =>
    dsimp only
    split
    · exact clockSame_trans (clockSame_raise s1 pgHt ev_TIME_XCHK _) ⟨rfl, rfl, rfl⟩
    · exact clockSame_refl s1
  | _ => exact clockSame_refl s1

theorem clockSame_toHoldover (s : State) : clockSame s s.toHoldover := by
  unfold State.toHoldover
  exact clockSame_trans ⟨rfl, rfl, rfl⟩ (clockSame_crossCheck (s.modTime _))

theorem clockSame_xchLocked (s : State) (o : Int) : clockSame s (s.xchLocked o) := by
  unfold State.xchLocked
  split
  · exact clockSame_trans (clockSame_countGood s true) ⟨rfl, rfl, rfl⟩
  · have counted := clockSame_trans (clockSame_countGood s false) (clockSame_of_same (t := (s.countGood false).bump pgHt HT_STATE_OUTLIERS) rfl rfl)
    dsimp only
    split
    · exact clockSame_trans counted (clockSame_trans (clockSame_raise ..) (clockSame_toHoldover _))
    · exact counted

theorem clockSame_xchAlign (s : State) (o : Int) : clockSame s (s.xchAlign o) := by
  refine clockSame_trans (clockSame_countGood s (within o 40)) ?_
  unfold State.xchAlign
  dsimp only
  split
  · split <;> exact ⟨rfl, rfl, rfl⟩
  · exact ⟨rfl, rfl, rfl⟩

theorem clockSame_exchange (s : State) (delay o : Int) : clockSame s (s.exchange delay o) := by
  have written : clockSame s ((s.wr pgHt HT_OFFSET_PS (ofInt 32 o)).wr pgHt HT_DELAY_PS (ofInt 32 delay)) := clockSame_of_same rfl rfl
  unfold State.exchange
  dsimp only
  generalize (s.wr pgHt HT_OFFSET_PS (ofInt 32 o)).wr pgHt HT_DELAY_PS (ofInt 32 delay) = s1 at written ⊢
  refine clockSame_trans written ?_
  cases s.time.state with
  | free => exact clockSame_trans (clockSame_countGood s1 _) ⟨rfl, rfl, rfl⟩
  | acquire =>
    dsimp only
    split
    · exact clockSame_trans (clockSame_countGood s1 _) ⟨rfl, rfl, rfl⟩
    · exact clockSame_trans ⟨rfl, rfl, rfl⟩ (clockSame_xchAlign s1.filterFreq o)
  | locked => exact clockSame_xchLocked s1 o
  | holdover =>
    dsimp only
    split
    · exact clockSame_trans ⟨rfl, rfl, rfl⟩ (clockSame_xchAlign ((s1.follow o).modTime fun u => { u with slewing := true }) o)
    · exact clockSame_trans (clockSame_countGood s1 false) (clockSame_toLost _ 2)
  | lost => exact clockSame_refl s1

theorem clockSame_timeInLost (s : State) : clockSame s s.timeInLost := by
  unfold State.timeInLost
  split <;> exact ⟨rfl, rfl, rfl⟩

/-! ### A TIME frame (R45, R450) -/

theorem timeFrame_answers (s : State) (f : Frame) (frac gap : Nat) :
    let t := s.timeFrame f frac gap
    t.time.validAt = s.time.slots ∧
    t.time.xchg = some ⟨fieldAt f.body 0x14 4, fieldAt f.body 0x00 10, s.time.ticks * 65536 + frac, s.time.ticks * 65536 + frac + gap⟩ ∧
    t.sprue.tx.head? = some (.time (fieldAt f.body 0x14 4) (s.time.ticks * 65536 + frac) (s.time.ticks * 65536 + frac + gap)
      t.time.state.code) ∧
    t.time.ticks = s.time.ticks := by
  have valid : clockSame (s.modTime fun u => { u with validAt := u.slots }) ((s.modTime fun u => { u with validAt := u.slots }).timeInLost) :=
    clockSame_timeInLost _
  have answers : ∀ s1, clockSame (s.modTime fun u => { u with validAt := u.slots }) s1 →
      s1.time.validAt = s.time.slots ∧ s1.time.ticks = s.time.ticks := fun s1 h => ⟨h.2.1, h.1⟩
  unfold State.timeFrame
  cases s.time.xchg with
  | none =>
    obtain ⟨hvalid, hticks⟩ := answers _ valid
    exact ⟨hvalid, rfl, rfl, hticks⟩
  | some x =>
    dsimp only
    split
    · obtain ⟨hvalid, hticks⟩ := answers _ (clockSame_trans valid (clockSame_exchange _ _ _))
      exact ⟨hvalid, rfl, rfl, hticks⟩
    · obtain ⟨hvalid, hticks⟩ := answers _ valid
      exact ⟨hvalid, rfl, rfl, hticks⟩

theorem time_usedSeq (s : State) (d n : Nat) : (s.usedSeq d n).time = s.time := by
  simp [State.usedSeq, apply_ite State.time]

theorem time_acceptSeq (s : State) (f : Frame) : (s.acceptSeq f).time = s.time := by
  unfold State.acceptSeq
  split <;> exact time_usedSeq _ _ _

/-- Taking a frame leaves the time unit as it was. -/
theorem time_taking (s : State) (f : Frame) : (s.taking f).time = s.time := by
  unfold State.taking
  split
  · exact time_acceptSeq _ f
  · rfl

/-- A frame that the port takes is handed on, its SEQ used (R444, R447). -/
theorem onFrame_of_accepts {s : State} {ty : Nat} {f : Frame} (h : s.accepts ty f) (k : Bool → State → State) :
    s.onFrame ty f k = k s.sprue.key.isSome (s.taking f) := by
  obtain ⟨hlink, hty, huncorr, hfits, hpkg, hkey⟩ := h
  rw [State.onFrame, if_pos ⟨hlink, hty⟩, State.checkFrame, State.taking]
  cases hk : s.sprue.key with
  | none => simp [huncorr, hfits, hpkg]
  | some key =>
    rw [hk] at hkey
    obtain ⟨htag, hstale⟩ := Bool.and_eq_true_iff.mp hkey
    simp_all

theorem leads_timeFrame {s : State} {f : Frame} (frac : Fin 65536) (gap : Nat) (h : s.accepts 0x01 f) :
    Leads (.timeFrame f frac gap) s fun t =>
      t.time.validAt = s.time.slots ∧
      t.time.xchg = some ⟨fieldAt (bodyOf f) 0x14 4, fieldAt (bodyOf f) 0x00 10, s.time.ticks * 65536 + frac.val,
        s.time.ticks * 65536 + frac.val + gap⟩ ∧
      t.sprue.tx.head? = some (.time (fieldAt (bodyOf f) 0x14 4) (s.time.ticks * 65536 + frac.val)
        (s.time.ticks * 65536 + frac.val + gap) t.time.state.code) ∧
      t.time.ticks = s.time.ticks := by
  refine ⟨_, rfl, ?_⟩
  rw [onFrame_of_accepts h]
  have answers := timeFrame_answers (s.taking f) { f with body := bodyOf f } frac gap
  rw [time_taking] at answers
  exact answers

/-! ### The counter's step (R51, R658) -/

theorem time_sendTx (s : State) (f : TxFrame) : (s.sendTx f).time = s.time := by
  unfold State.sendTx
  split <;> rfl

theorem time_relayAnswer (s : State) (id status : Nat) : (s.relayAnswer id status).time = s.time := by
  unfold State.relayAnswer
  split <;> rfl

theorem time_refuseLate (s : State) : s.refuseLate.time = s.time := by
  unfold State.refuseLate
  generalize s.sprue.intake.filter _ = l
  induction l generalizing s with
  | nil => rfl
  | cons q l ih =>
    refine (ih _).trans ?_
    rw [raise_time, time_relayAnswer, time_sendTx]
    rfl

theorem time_refreshOwed (s : State) : s.refreshOwed.time = s.time := by
  unfold State.refreshOwed
  generalize List.range 256 = l
  induction l generalizing s with
  | nil => rfl
  | cons c l ih =>
    refine (ih _).trans ?_
    dsimp only
    split <;> rfl

theorem time_passHandOver (s : State) (a b : Nat) : (s.passHandOver a b).time = s.time := by
  unfold State.passHandOver
  dsimp only
  split
  · unfold State.abortCommit
    split
    · rfl
    · refine (complete_same _ _ _ _ _ _ (k := .time) (by decide)).trans ?_
      rw [raise_time]
      rfl
  · rfl

theorem leads_counterStep {s : State} {d : Int} (hstep : s.time.step = some d) (hst : s.time.state = .acquire)
    (hdue : s.time.stepDue = true) (htick : s.tick = 0)
    (hlost : s.time.stepFromLost = true → ∀ p, p < s.partCount → (s.part p).run.live = false) : Leads .counterStep s fun t =>
      (t.time.ticks : Int) = ((s.time.ticks : Int) + d) % 2 ^ 64 ∧ t.time.slots = s.time.slots ∧ t.time.epochs = s.time.epochs ∧
      t.time.stepDue = false ∧ t.time.state = .acquire := by
  have held : s.time.stepFromLost = false ∨ (s.partList.all fun p => !(s.part p).run.live) = true := by
    cases hl : s.time.stepFromLost
    · exact .inl rfl
    · refine .inr (List.all_eq_true.mpr fun p hp => ?_)
      rw [hlost hl p (List.mem_range.mp hp)]
      rfl
  refine ⟨_, rfl, ?_⟩
  rw [hstep]
  dsimp only
  rw [if_pos ⟨hst, hdue, htick, held⟩]
  rw [only_time, if_pos (by decide), time_passHandOver, time_refreshOwed, time_refuseLate]
  exact ⟨Int.toNat_of_nonneg (Int.emod_nonneg _ (by decide)), rfl, rfl, rfl, hst⟩

/-- From LOST the step waits for every partition to be at rest (R51). -/
theorem leads_counterStep_waits {s : State} {p : Nat} (hlost : s.time.stepFromLost = true) (hp : p < s.partCount)
    (hlive : (s.part p).run.live = true) : Leads .counterStep s fun t => s.sameBut [] t := by
  have live : ¬ (s.time.stepFromLost = false ∨ (s.partList.all fun p => !(s.part p).run.live) = true) := by
    rintro (h | h)
    · rw [hlost] at h; cases h
    · have := List.all_eq_true.mp h p (List.mem_range.mpr hp)
      rw [hlive] at this
      cases this
  refine leads_unchanged (l := answered ++ [.time, .chans, .update]) ?_
  rw [show exec .counterStep s = execCounterStep s from rfl, execCounterStep]
  cases s.time.step with
  | none => rfl
  | some d =>
    dsimp only
    rw [if_neg fun h => live h.2.2.2]

/-- Settles O16: a TIME frame's stamps, and the step with its wait. -/
theorem timeFramesAndTheStep : Obligations.TimeFramesAndTheStep := by
  unfold Obligations.TimeFramesAndTheStep
  exact ⟨fun _ _ frac gap => leads_timeFrame frac gap, fun _ _ => leads_counterStep, fun _ _ => leads_counterStep_waits⟩

end Sys2Proof.Machine
end

section
/-!
The page headers under an event: raising one on a page leaves the headers of the other pages alone, unless it fences a cluster's.
-/

namespace Sys2Proof.Machine

open Sys2Proof

/-- Page `pg'` holds the same header (its first 44 bytes) in two states. -/
def headSame (pg' : Nat) (s t : State) : Prop :=
  ∀ k d, k / 131072 = pg' → k / 32 % 4096 < 44 → aget d t.regs k = aget d s.regs k

section
variable {pg' : Nat}

theorem headSame_refl (s : State) : headSame pg' s s := fun _ _ _ _ => rfl

theorem headSame_trans {s t u : State} (h1 : headSame pg' s t) (h2 : headSame pg' t u) : headSame pg' s u :=
  fun k d hp ho => (h2 k d hp ho).trans (h1 k d hp ho)

theorem headSame_of_regs {s t : State} (h : t.regs = s.regs) : headSame pg' s t := fun _ _ _ _ => by rw [h]

theorem headSame_foldl {β : Type} (f : State → β → State) (hf : ∀ s b, headSame pg' s (f s b)) (bs : List β) (s : State) :
    headSame pg' s (bs.foldl f s) := by
  induction bs generalizing s with
  | nil => exact headSame_refl s
  | cons b bs ih => exact headSame_trans (hf s b) (ih _)

/-- A field inside its page reads as before where its page's header stands. -/
theorem headSame.rd {s t : State} (h : headSame pg' s t) {F : Fld} {i : Nat} (hF : F.inPage i) (h44 : F.at i < 44) :
    t.rd pg' F i = s.rd pg' F i := by
  obtain ⟨hat, hlo⟩ := hF
  exact h _ _ (fkey_page pg' F i hat hlo) ((fkey_off pg' F i hat hlo).symm ▸ h44)

/-- A write to another page, or past the header. -/
theorem headSame_wr (s : State) {pg : Nat} {F : Fld} (v : Nat) {i : Nat} (hF : F.inPage i) (h : pg' ≠ pg ∨ 44 ≤ F.at i) :
    headSame pg' s (s.wr pg F v i) := by
  obtain ⟨hat, hlo⟩ := hF
  intro k d hp ho
  refine aget_wr_other s pg F v i d fun hk => ?_
  rw [hk, fkey_page pg F i hat hlo] at hp
  rw [hk, fkey_off pg F i hat hlo] at ho
  omega

theorem headSame_wrs (s : State) {pg : Nat} (l : List (Fld × Nat)) (hl : ∀ e ∈ l, e.1.inPage 0) (h : pg' ≠ pg) :
    headSame pg' s (s.wrs pg l) := by
  induction l generalizing s with
  | nil => exact headSame_refl s
  | cons e l ih =>
    rw [wrs_cons]
    exact headSame_trans (headSame_wr s e.2 (hl e (by simp)) (.inl h)) (ih _ fun x hx => hl x (List.mem_cons_of_mem _ hx))

theorem headSame_bump (s : State) {pg : Nat} {F : Fld} (n : Nat) {i : Nat} (hF : F.inPage i) (h : pg' ≠ pg ∨ 44 ≤ F.at i) :
    headSame pg' s (s.bump pg F n i) := by
  unfold State.bump
  split
  · exact headSame_wr (s.note pg F _ i) _ hF h
  · exact headSame_wr s _ hF h

theorem headSame_hwSet (s : State) {pg : Nat} {F : Fld} (b : Nat) {i : Nat} (hF : F.inPage i) (h : pg' ≠ pg ∨ 44 ≤ F.at i) :
    headSame pg' s (s.hwSet pg F b i) :=
  headSame_wr (s.note pg F _ i) _ hF h

theorem sevField_inPage (n : Nat) : (sevField n).inPage 0 := by
  unfold sevField; split <;> decide

theorem headSame_evHeader (s : State) {pg : Nat} (code sev : Nat) (esc : Bool) (h : pg' ≠ pg) :
    headSame pg' s (s.evHeader pg code sev esc) := by
  have first : headSame pg' s (if s.evQuiet pg then
      s.wrs pg [(ERR_FIRST_CODE, code), (ERR_FIRST_SEV, sev), (ERR_FIRST_VALID, 1)] else s) := by
    split
    · exact headSame_wrs s _ (by simp +decide) h
    · exact headSame_refl s
  have counted := headSame_trans first (headSame_trans (headSame_hwSet _ (F := sevField sev) 1 (sevField_inPage sev) (.inl h))
    (headSame_trans (headSame_bump _ (F := ERR_CNT_EVENTS) 1 (i := 0) (by decide) (.inl h))
      (headSame_wrs _ [(ERR_LAST_CODE, code), (ERR_LAST_SEV, sev), (ERR_LAST_VALID, 1)] (by simp +decide) h)))
  simp only [State.evHeader]
  split
  · exact headSame_trans counted (headSame_trans (headSame_hwSet _ 1 (by decide) (.inl h)) (headSame_wr _ _ (by decide) (.inl h)))
  · exact headSame_trans counted (headSame_wr _ _ (by decide) (.inl h))

theorem headSame_deliver (s : State) (pg : Nat) : headSame pg' s (s.deliver pg) := by
  simp only [State.deliver]
  split
  · exact headSame_refl s
  · have sent : headSame pg' s ((s.queue pg).foldl State.delivered (s.setQueue pg [])) :=
      headSame_trans (headSame_of_regs rfl)
        (headSame_foldl _ (fun s r => headSame_of_regs (sameBut_delivered s r .regs (by decide)).1) _ _)
    split
    · exact headSame_trans sent (headSame_bump _ _ (by decide) (.inr (by decide)))
    · exact sent

theorem halt_regs (s : State) (pg : Nat) : (s.halt pg).regs = s.regs := by
  unfold State.halt
  dsimp only
  split <;> rfl

theorem headSame_fenceUnit (s : State) {pg : Nat} (hty : pgType pg ≠ 0x0010) (h : pg' ≠ pg) : headSame pg' s (s.fenceUnit pg) := by
  rw [State.fenceUnit, if_neg hty, State.fenceOne]
  split
  · exact headSame_trans (headSame_wr s 1 (by decide) (.inl h))
      (headSame_trans (headSame_wr _ 1 (by decide) (.inl h)) (headSame_of_regs (halt_regs ..)))
  · exact headSame_refl s

theorem headSame_lampblack (s : State) : headSame pg' s s.lampblack := by
  have lost : headSame pg' s (s.partList.foldl State.losePart s) := headSame_foldl State.losePart (fun _ _ => headSame_of_regs rfl) _ s
  refine headSame_trans lost ?_
  have down : ∀ t : State, headSame pg' t t.portsDown := fun t =>
    headSame_trans (headSame_foldl _ (fun s q => headSame_wr (F := RN_PSTAT_STATE) (i := 0) s 0 (by decide) (.inr (by decide))) _ t)
      (headSame_foldl _ (fun s q => headSame_wr (F := CX_STATUS_STATE) (i := 0) s 0 (by decide) (.inr (by decide))) _ _)
  have gate : ∀ (t : State) (p : Pins), headSame pg' t { t with pins := p } := fun _ _ => headSame_of_regs rfl
  exact headSame_trans (down _) (gate _ _)

theorem headSame_act (s : State) {pg : Nat} (sev : Nat) (named : Bool) (hty : pgType pg ≠ 0x0010) (h : pg' ≠ pg) :
    headSame pg' s (s.act pg sev named) := by
  unfold State.act
  split
  · exact headSame_refl s
  · split
    · exact headSame_refl s
    · exact headSame_fenceUnit s hty h
  · split
    · exact headSame_refl s
    · split
      · exact headSame_of_regs rfl
      · exact headSame_foldl State.losePart (fun _ _ => headSame_of_regs rfl) _ s
  · exact headSame_lampblack s

/-- An event on a page that is no cluster's leaves the headers of the other pages alone. -/
theorem headSame_raiseAt (s : State) {pg : Nat} (code sev : Nat) (named : Bool) (info : Bytes) (hty : pgType pg ≠ 0x0010)
    (h : pg' ≠ pg) : headSame pg' s (s.raiseAt pg code sev named info) := by
  simp only [State.raiseAt]
  generalize (if decide (sev = 1 ∧ s.rd pg PAGE_STAT_LEVEL = 1) = true then 2 else sev) = sv
  have header := headSame_evHeader s code sv (decide (sev = 1 ∧ s.rd pg PAGE_STAT_LEVEL = 1)) h
  have acted := fun (t : State) n o => headSame_act (pg' := pg') t (pg := pg) n o hty h
  have enqueued := fun (t : State) q => headSame_trans (headSame_of_regs (pg' := pg') (s := t) (t := t.setQueue pg q) rfl) (headSame_deliver _ pg)
  split
  · exact header
  · split
    · exact headSame_trans header (headSame_trans (enqueued _ _) (acted _ _ _))
    · split
      · exact headSame_trans header (headSame_trans (enqueued _ _) (acted _ _ _))
      · refine headSame_trans header (headSame_trans ?_ (acted _ _ _))
        refine headSame_trans ?_ (headSame_deliver _ pg)
        refine headSame_trans ?_ (headSame_wr _ _ (by decide) (.inl h))
        refine headSame_trans ?_ (headSame_hwSet _ 1 (sevField_inPage _) (.inl h))
        refine headSame_trans ?_ (headSame_hwSet _ 1 (by decide) (.inl h))
        exact headSame_trans (headSame_of_regs rfl) (headSame_hwSet _ 1 (by decide) (.inl h))

theorem headSame_raise (s : State) {pg : Nat} (k : EvKind) (info : Bytes) (hty : pgType pg ≠ 0x0010) (h : pg' ≠ pg) :
    headSame pg' s (s.raise pg k info) :=
  headSame_raiseAt s k.code k.sev k.named info hty h

/-- Bringing the descriptions up to date raises events on BRINGUP's page alone. -/
theorem headSame_redescribe (s : State) (h : pg' ≠ pgBu) : headSame pg' s s.redescribe := by
  refine headSame_foldl _ (fun s p => ?_) _ s
  unfold State.descNotice
  split
  · exact headSame_refl s
  · dsimp only
    split
    · exact headSame_refl s
    · exact headSame_trans (headSame_of_regs rfl) (headSame_raise _ _ _ (by decide) h)

end

end Sys2Proof.Machine
end

section
/-!
Proofs of the family 14_bringup_and_reset.md: resets drain, run and complete (O15).
-/

namespace Sys2Proof.Machine

open Sys2Proof

/-! ### The end of a drain (R545, R547) -/

theorem execDrainEnd_only {s : State} {r : Reset} (sectors lost : List Nat) (hr : s.resets = [r]) (hphase : r.phase = .draining)
    (hdone : r.at_ + 313 ≤ s.time.slots ∨ s.accepted r = []) : exec (.drainEnd sectors lost) s = finishD powered s
      (let l := s.accepted r
       let s1 := l.foldl (fun s e => s.absorb r sectors e) s
       let s2 := if 2 ≤ r.scope then (s.resetRisers r).foldl (fun s n => s.drainSlice lost n) s1 else s1
       let done (x : Reset) : Reset := if x = r then { x with phase := .running, absorbed := x.absorbed + l.length } else x
       let s3 := { s2 with resets := s2.resets.map done }
       if r.scope = 4 then s3.restart else s3.runReset r) := by
  have found : s.resets.find? (fun r => decide (r.phase = .draining) && (decide (r.at_ + 313 ≤ s.time.slots) || (s.accepted r).isEmpty)) =
      some r := by
    rw [hr, List.find?_cons_of_pos]
    rcases hdone with h | h <;> simp [hphase, h]
  rw [show exec (.drainEnd sectors lost) s = execDrainEnd sectors lost s from rfl, execDrainEnd, found]

theorem execDrainEnd_full {s : State} {r : Reset} (sectors lost : List Nat) (hr : s.resets = [r]) (hphase : r.phase = .draining)
    (hscope : r.scope = 4) (hlate : r.at_ + 313 ≤ s.time.slots) : ∃ u : State, exec (.drainEnd sectors lost) s = finishD powered s u.restart := by
  rw [execDrainEnd_only sectors lost hr hphase (.inl hlate)]
  simp only [if_pos hscope]
  exact ⟨_, rfl⟩

/-- A FULL reset starts afresh: the power-on scope at its start, start-up at stage 0. -/
theorem restart_fields (s : State) : s.restart.boot.next = 0 ∧ s.restart.boot.begun = true ∧ s.restart.parts = [] ∧ s.restart.mem = [] ∧
    s.restart.time = {} ∧ s.restart.resets = [] ∧ s.restart.descs = [] ∧ s.restart.rd pgBu BU_START_CAUSE = 1 := by
  have cause : (s.fullReset.wr pgBu BU_START_CAUSE 1).rd pgBu BU_START_CAUSE = 1 := rd_wr_fits _ pgBu BU_START_CAUSE (v := 1) 0 (by decide)
  obtain ⟨r, hr⟩ := foldl_wr_eq pgBu (fun G => s.rd pgBu G) pinRegs _
  rw [State.fullReset, hr] at cause
  rw [State.restart, State.fullReset, hr]
  exact ⟨rfl, rfl, rfl, rfl, rfl, rfl, rfl, cause⟩

theorem leads_drainEnd_full {s : State} {r : Reset} (sectors lost : List Nat) (hr : s.resets = [r]) (hphase : r.phase = .draining)
    (hscope : r.scope = 4) (hlate : r.at_ + 313 ≤ s.time.slots) : Leads (.drainEnd sectors lost) s fun t =>
      t.boot.next = 0 ∧ t.boot.begun = true ∧ t.parts = [] ∧ t.mem = [] ∧ t.time = {} ∧ t.resets = [] ∧
      t.rd pgBu BU_START_CAUSE = 1 ∧ t.ledger = s.ledger := by
  obtain ⟨u, hexec⟩ := execDrainEnd_full sectors lost hr hphase hscope hlate
  refine ⟨_, hexec, ?_⟩
  obtain ⟨hnext, hbegun, hparts, hmem, htime, hresets, hdescs, hcause⟩ := restart_fields u
  rw [redescribe_of_descs_nil _ hdescs]
  exact ⟨hnext, hbegun, hparts, hmem, htime, hresets, hcause, rfl⟩

theorem resets_foldl {β : Type} (f : State → β → State) (hf : ∀ s b, (f s b).resets = s.resets) (l : List β) (s : State) :
    (l.foldl f s).resets = s.resets := by
  induction l generalizing s with
  | nil => rfl
  | cons b l ih => exact (ih _).trans (hf s b)

theorem resets_wipeCluster (s : State) (c : Nat) : (s.wipeCluster c).resets = s.resets :=
  calc (s.wipeCluster c).resets
      = (((List.range 8).map fun i => 8 * c + i).foldl State.wipeGc
          (((List.range 4).map fun i => 4 * c + i).foldl State.wipeMx s)).resets := by rw [State.wipeCluster, State.wipeMover]
    _ = (((List.range 4).map fun i => 4 * c + i).foldl State.wipeMx s).resets := resets_foldl State.wipeGc (fun _ _ => rfl) _ _
    _ = s.resets := resets_foldl State.wipeMx (fun _ _ => rfl) _ s

theorem resets_zeroCluster (s : State) (c : Nat) (fw : Bool) : (s.zeroCluster c fw).resets = s.resets := rfl

theorem resets_zeroFlags (s : State) (l : List Nat) : (s.zeroFlags l).resets = s.resets := rfl

theorem resets_loseBanks (s : State) (l : List Nat) : (s.loseBanks l).resets = s.resets := by
  unfold State.loseBanks
  split <;> rfl

/-- A CORE or CLUSTER reset leaves the resets under way as they are. -/
theorem resets_runReset (s : State) {r : Reset} (h : r.scope ≤ 1) : (s.runReset r).resets = s.resets := by
  have hscope : r.scope = 0 ∨ r.scope = 1 := by omega
  rcases hscope with h | h
  · rw [show s.runReset r = (s.resetPage r.page).wipeUnit r by rw [State.runReset, h]; rfl, State.wipeUnit]
    split <;> rfl
  · rw [show s.runReset r = ((((r.pages.foldl State.resetPage s).wipeCluster (10 * r.riser + r.cluster)).zeroCluster
      (10 * r.riser + r.cluster) true).zeroFlags [10 * r.riser + r.cluster]).loseBanks (corePages r.pages) by rw [State.runReset, h]; rfl]
    rw [resets_loseBanks, resets_zeroFlags, resets_zeroCluster, resets_wipeCluster]
    exact resets_foldl State.resetPage (fun _ _ => rfl) _ s

theorem leads_drainEnd_runs {s : State} {r : Reset} (sectors lost : List Nat) (hr : s.resets = [r]) (hphase : r.phase = .draining)
    (hscope : r.scope ≤ 1) (hnone : s.accepted r = []) :
    Leads (.drainEnd sectors lost) s fun t => t.resets = [{ r with phase := .running }] := by
  have hexec := execDrainEnd_only sectors lost hr hphase (.inr hnone)
  simp only [hnone, List.foldl_nil, if_neg (show ¬ 2 ≤ r.scope by omega), if_neg (show ¬ r.scope = 4 by omega)] at hexec
  refine ⟨_, hexec, ?_⟩
  change (State.redescribe _).resets = _
  refine (redescribe_same _ (k := .resets) (by decide)).trans ((resets_runReset _ hscope).trans ?_)
  change s.resets.map _ = _
  simp [hr]

/-! ### Back in service (R550) -/

/-- A CORE reset's unit is in service, or fenced where its FENCE stands. -/
theorem service_serveUnit {s : State} {pg : Nat} (h : s.service pg ≠ 2) :
    (s.serveUnit pg).service pg = if s.on pg PAGE_CTRL_FENCE then 1 else 0 := by
  rw [State.serveUnit, if_neg h]
  split
  · exact rd_wr_fits s pg PAGE_STAT_SERVICE (v := 1) 0 (by decide)
  · have served : ((s.wr pg PAGE_STAT_SERVICE 0).wr pg PAGE_CTRL_FENCE 0).service pg = 0 :=
      (rd_wr_apart pg pg _ _ (by decide)).trans (rd_wr_fits s pg PAGE_STAT_SERVICE (v := 0) 0 (by decide))
    rw [show s.serve pg true = ((s.wr pg PAGE_STAT_SERVICE 0).wr pg PAGE_CTRL_FENCE 0).levelClear pg from rfl, State.levelClear]
    split
    · exact served
    · exact (rd_wr_apart pg pg _ _ (by decide)).trans served

theorem page_ne_bringup {r : Reset} (hscope : r.scope = 0) (hn : r.riser < 8) (hc : r.cluster < 10) (hu : r.unit < 8) : r.page ≠ pgBu := by
  unfold Reset.page
  rw [if_neg (by omega)]
  simp only [pgMatrix, pgGcore, pgClMover, pageId, pgBu]
  split <;> omega

theorem resets_serveUnit (s : State) (pg : Nat) : (s.serveUnit pg).resets = s.resets := by
  have level : ∀ t : State, (t.levelClear pg).resets = t.resets := fun t => by unfold State.levelClear; split <;> rfl
  unfold State.serveUnit State.serve
  split
  · rfl
  · split
    · rfl
    · exact level _

theorem endReset_core (s : State) {r : Reset} (obs : StageObs) (h : r.scope = 0) : ∃ info, s.endReset r obs =
    ((r.pages.filter resettable).foldl (fun s pg => s.hwClear pg PAGE_CTRL_RESET_REQ)
      (State.serveUnit { s with resets := s.resets.erase r } r.page)).raise pgBu ev_BU_RESET_DONE info := by
  rw [State.endReset, h]
  exact ⟨_, rfl⟩

theorem leads_resetComplete {s : State} {r : Reset} (obs : StageObs) (hr : s.resets = [r]) (hphase : r.phase = .running)
    (hscope : r.scope = 0) (hn : r.riser < 8) (hc : r.cluster < 10) (hu : r.unit < 8) (hsrv : s.service r.page ≠ 2) :
    Leads (.resetComplete obs) s fun t =>
      t.resets = [] ∧ t.service r.page = if s.on r.page PAGE_CTRL_FENCE then 1 else 0 := by
  have found : s.resets.find? (fun r => decide (r.phase = .running) && (decide (r.scope < 3) || decide (s.boot.rerun = 12))) =
      some r := by
    rw [hr, List.find?_cons_of_pos]
    simp [hphase, hscope]
  have hexec : exec (.resetComplete obs) s =
      finishD (answered ++ [.mem, .undef, .ledger, .boot, .resets, .descs]) s (s.endReset r obs) := by
    rw [show exec (.resetComplete obs) s = execResetComplete obs s from rfl, execResetComplete, found]
  have hbu := page_ne_bringup hscope hn hc hu
  obtain ⟨s1, hs1⟩ : ∃ s1, s1 = State.serveUnit { s with resets := s.resets.erase r } r.page := ⟨_, rfl⟩
  have served : s1.service r.page = if s.on r.page PAGE_CTRL_FENCE then 1 else 0 := hs1 ▸ service_serveUnit hsrv
  have hresets : s1.resets = [] := by
    rw [hs1, resets_serveUnit]
    change s.resets.erase r = []
    simp [hr]
  obtain ⟨s2, hs2⟩ : ∃ s2, s2 = (r.pages.filter resettable).foldl (fun s pg => s.hwClear pg PAGE_CTRL_RESET_REQ) s1 := ⟨_, rfl⟩
  obtain ⟨info, hend⟩ := endReset_core s obs hscope
  rw [hend, ← hs1, ← hs2] at hexec
  refine ⟨_, hexec, ?_⟩
  constructor
  · change (State.redescribe _).resets = []
    refine (redescribe_same _ (k := .resets) (by decide)).trans ((raise_same _ _ _ _ .resets (by decide)).trans ?_)
    rw [hs2]
    exact (resets_foldl (fun (s : State) pg => s.hwClear pg PAGE_CTRL_RESET_REQ) (fun _ _ => rfl) _ s1).trans hresets
  · change (State.redescribe _).service r.page = _
    refine ((headSame_redescribe _ hbu).rd (by decide) (by decide)).trans ?_
    refine ((headSame_raise _ _ _ (by decide) hbu).rd (by decide) (by decide)).trans ?_
    rw [hs2]
    refine (rd_foldl_same (fun s pg => s.hwClear pg PAGE_CTRL_RESET_REQ) r.page PAGE_STAT_SERVICE 0 _ (fun s pg _ => ?_) s1).trans served
    exact rd_hwClear_apart pg r.page s 1 (by decide)

/-- Settles O15: the drain's end, for a FULL and a smaller reset, and the end of a CORE reset. -/
theorem resetsRunAndComplete : Obligations.ResetsRunAndComplete := by
  unfold Obligations.ResetsRunAndComplete
  exact ⟨fun _ _ => leads_drainEnd_full, fun _ _ => leads_drainEnd_runs, fun _ _ => leads_resetComplete⟩

end Sys2Proof.Machine
end

section
/-!
Proofs of the family 14_bringup_and_reset.md: the start-up stages and the saved sets (O13).
-/

namespace Sys2Proof.Machine

open Sys2Proof

/-! ### What training and reports leave alone -/

/-- BRINGUP's registers, the start-up state and the time unit stand as they did. -/
def bringupSame (s t : State) : Prop :=
  (∀ (F : Fld) (i : Nat), F.inPage i → t.rd pgBu F i = s.rd pgBu F i) ∧ t.boot = s.boot ∧ t.time = s.time

theorem bringupSame_refl (s : State) : bringupSame s s := ⟨fun _ _ _ => rfl, rfl, rfl⟩

theorem bringupSame_trans {s t u : State} (h1 : bringupSame s t) (h2 : bringupSame t u) : bringupSame s u :=
  ⟨fun F i hF => (h2.1 F i hF).trans (h1.1 F i hF), h2.2.1.trans h1.2.1, h2.2.2.trans h1.2.2⟩

theorem bringupSame_foldl {β : Type} (f : State → β → State) (l : List β) (hf : ∀ s, ∀ b ∈ l, bringupSame s (f s b)) (s : State) :
    bringupSame s (l.foldl f s) := by
  induction l generalizing s with
  | nil => exact bringupSame_refl s
  | cons b l ih => exact bringupSame_trans (hf s b (by simp)) (ih (fun s c hc => hf s c (List.mem_cons_of_mem _ hc)) _)

theorem bringupSame_wr (s : State) {pg : Nat} {F : Fld} (v : Nat) {i : Nat} (hp : pgBu ≠ pg) (hF : F.inPage i) :
    bringupSame s (s.wr pg F v i) :=
  ⟨fun _ _ hF' => rd_wr_page s v hp hF' hF, rfl, rfl⟩

theorem bringupSame_wrs (s : State) {pg : Nat} (l : List (Fld × Nat)) (hp : pgBu ≠ pg) (h : ∀ e ∈ l, e.1.inPage 0) :
    bringupSame s (s.wrs pg l) :=
  bringupSame_foldl (fun s (e : Fld × Nat) => s.wr pg e.1 e.2) l (fun s e he => bringupSame_wr s e.2 hp (h e he)) s

theorem bringupSame_beginTraining (s : State) {q : Nat} (hq : q < 24) : bringupSame s (s.beginTraining q) := by
  have runner : pgBu ≠ pgRunner q := by simp only [pgBu, pgRunner, pageId]; omega
  have lane : ∀ l ∈ List.range 8, pgBu ≠ lanePage q l := fun l hl => by
    have := List.mem_range.mp hl
    simp only [pgBu, lanePage, pgLane, pageId]
    omega
  have cleared : bringupSame s ((s.hwClear (pgRunner q) RN_PCTRL_RETRAIN).wrs (pgRunner q) [(RN_PSTAT_WIDTH, 0), (RN_PSTAT_RATE, 0),
      (RN_PSTAT_REVERSED, 0), (RN_PSTAT_RETRAIN_DUE, 0), (RN_PSTAT_SCHED_OK, 0), (RN_KEY_INDEX, 0), (RN_REPLAY_OUTSTANDING, 0),
      (RN_CREDIT_INDIGO, 0), (RN_CREDIT_WOAD, 0), (RN_CREDIT_SYNC, 0)]) :=
    bringupSame_trans (bringupSame_wr s _ runner (by decide)) (bringupSame_wrs _ _ runner (by decide))
  have lanes := bringupSame_foldl (fun s l =>
    s.wrs (lanePage q l) [(RN_LSTAT_STATE, 1), (RN_LSTAT_POLINV, 0), (RN_LSTAT_FEC_LOCK, 0), (RN_LSLACK_OWED, 0)]) (List.range 8)
    (fun s l hl => bringupSame_wrs s _ (lane l hl) (by decide))
  have port : ∀ (t : State) (f : RPort → RPort), bringupSame t (t.modPort q f) := fun _ _ => ⟨fun _ _ _ => rfl, rfl, rfl⟩
  have entered : ∀ t : State, bringupSame t (t.enter q 1) := fun t =>
    bringupSame_trans (bringupSame_wr t 1 (F := RN_PSTAT_STATE) (i := 0) runner (by decide)) (port _ _)
  have sent : ∀ t : State, bringupSame t (t.sendSets q (List.range 8) 0x4A 0 0 0) := fun _ => ⟨fun _ _ _ => rfl, rfl, rfl⟩
  unfold State.beginTraining
  refine bringupSame_trans ?_ (sent _)
  refine bringupSame_trans ?_ (entered _)
  refine bringupSame_trans ?_ (port _ _)
  exact bringupSame_trans (bringupSame_trans cleared (lanes _)) (bringupSame_wr _ _ (by decide) (by decide))

theorem bringupSame_trainPorts (s : State) : bringupSame s s.trainPorts :=
  bringupSame_foldl State.beginTraining _
    (fun s _ hq => bringupSame_beginTraining s (List.mem_range.mp (List.mem_filter.mp hq).1)) s

/-! ### A stage's report (R527) -/

/-- The fields of a stage's report that an observer reads, with the start-up state after it. -/
theorem endStage_reports (s : State) {k : Nat} (new : Nat) (o : StageObs) {e : StageEnd} (hk : k ≤ 11) (he : e.st ≤ 2) :
    let t := s.endStage k new o e
    t.rd pgBu BU_STAGE_STAGE = k ∧ t.rd pgBu BU_STAGE_STATUS = e.st ∧ t.boot = s.boot.passed k (decide (e.st = 2)) ∧
    t.time = s.time ∧ t.rd pgSprue SP_STATUS_LINK = s.rd pgSprue SP_STATUS_LINK ∧ (k = 11 → t.rd pgBu BU_STAGE_DONE = 1) := by
  unfold State.endStage
  dsimp only
  generalize (if s.on pgBu BU_STAGE_FAIL then s.rd pgBu BU_STAGE_FAIL else e.fail) = fail
  have places : ∀ k ≤ 11, BU_STAGE_STAGE.apart 0 BU_STAGE_MS_MS k ∧ BU_STAGE_STATUS.apart 0 BU_STAGE_MS_MS k ∧ BU_STAGE_MS_MS.inPage k := by
    decide
  obtain ⟨hstage, hstatus, hin⟩ := places k hk
  obtain ⟨s1, hs1⟩ : ∃ s1, s1 = (s.wrs pgBu [(BU_STAGE_STAGE, k), (BU_STAGE_STATUS, e.st), (BU_STAGE_FAIL, fail),
    (BU_STAGE_RESTORED, s.boot.restored.toNat)]).wr pgBu BU_STAGE_MS_MS (o.us / 1000) k := ⟨_, rfl⟩
  have stage1 : s1.rd pgBu BU_STAGE_STAGE = k := by
    rw [hs1, rd_wr_apart _ _ _ _ hstage, rd_wrs_head _ _ _ _ _ _ (by simp +decide)]
    exact Nat.mod_eq_of_lt (Nat.lt_of_le_of_lt hk (by decide))
  have status1 : s1.rd pgBu BU_STAGE_STATUS = e.st := by
    rw [hs1, rd_wr_apart _ _ _ _ hstatus, wrs_cons, rd_wrs_head _ _ _ _ _ _ (by simp +decide)]
    exact Nat.mod_eq_of_lt (Nat.lt_of_le_of_lt he (by decide))
  have link1 : s1.rd pgSprue SP_STATUS_LINK = s.rd pgSprue SP_STATUS_LINK := by
    rw [hs1, rd_wr_page _ _ (by decide) (by decide) hin, rd_wrs_page _ _ (by decide) (by decide) (by simp +decide)]
  rw [← hs1]
  obtain ⟨s2, hs2⟩ : ∃ s2, s2 = (if k = 11 then s1.wr pgBu BU_STAGE_DONE 1 else s1) := ⟨_, rfl⟩
  have done2 : s2.rd pgBu BU_STAGE_STAGE = k ∧ s2.rd pgBu BU_STAGE_STATUS = e.st ∧ s2.boot = s.boot ∧ s2.time = s.time ∧
      s2.rd pgSprue SP_STATUS_LINK = s.rd pgSprue SP_STATUS_LINK ∧ (k = 11 → s2.rd pgBu BU_STAGE_DONE = 1) := by
    rw [hs2]
    split
    · refine ⟨?_, ?_, hs1 ▸ rfl, hs1 ▸ rfl, ?_, fun _ => rd_wr_fits s1 pgBu BU_STAGE_DONE (v := 1) 0 (by decide)⟩
      · rw [rd_wr_apart _ _ _ _ (by decide), stage1]
      · rw [rd_wr_apart _ _ _ _ (by decide), status1]
      · rw [rd_wr_page _ _ (by decide) (by decide) (by decide), link1]
    · exact ⟨stage1, status1, hs1 ▸ rfl, hs1 ▸ rfl, link1, fun h => absurd h ‹_›⟩
  obtain ⟨hst, hstat, hboot, htime, hlink, hdone⟩ := done2
  rw [← hs2]
  have raised := fun (F : Fld) (pg : Nat) (h : quietFld pg F 0) sev info =>
    rd_raiseAt_quiet { s2 with boot := s2.boot.passed k (decide (e.st = 2)) } pgBu ev_BU_STAGE_DONE.code sev false info h
  refine ⟨(raised _ pgBu (by decide) _ _).trans hst, (raised _ pgBu (by decide) _ _).trans hstat, ?_, ?_,
    (raised _ pgSprue (by decide) _ _).trans hlink, fun h => (raised _ pgBu (by decide) _ _).trans (hdone h)⟩
  · rw [show (State.raiseAt _ _ _ _ _ _).boot = _ from (raiseAt_eventOnly _ _ _ _ _ _).1 .boot (by decide)]
    rw [hboot]
  · exact ((raiseAt_eventOnly _ _ _ _ _ _).1 .time (by decide)).trans htime

/-- A stage ends whole, reduced or FAILED. -/
theorem runStage_st (s : State) (k : Nat) (o : StageObs) : (s.runStage k o).2.st ≤ 2 := by
  unfold State.runStage
  split
  · unfold State.stage0; dsimp only; split
    · exact Nat.zero_le 2
    · exact Nat.le_refl 2
  · unfold State.stage1; dsimp only; split
    · exact Nat.le_refl 2
    · split
      · exact Nat.le_refl 2
      · exact Nat.zero_le 2
  · unfold State.stage2; dsimp only; split
    · exact Nat.le_refl 2
    · split
      · exact Nat.zero_le 2
      · split
        · exact Nat.le_succ 1
        · exact Nat.zero_le 2
  · unfold State.stage3; dsimp only; split
    · exact Nat.le_refl 2
    · split
      · exact Nat.le_succ 1
      · exact Nat.zero_le 2
  · unfold State.stage4; dsimp only; split
    · exact Nat.le_succ 1
    · exact Nat.le_succ 1
    · exact Nat.zero_le 2
  · unfold State.stage5; dsimp only; split
    · exact Nat.le_succ 1
    · exact Nat.zero_le 2
  · unfold State.stage6; dsimp only; split
    · exact Nat.le_succ 1
    · exact Nat.le_succ 1
    · dsimp only; split
      · exact Nat.zero_le 2
      · exact Nat.zero_le 2
  · unfold State.stage7; dsimp only; split
    · exact Nat.le_succ 1
    · exact Nat.zero_le 2
  · unfold State.stage8; split
    · exact Nat.le_succ 1
    · exact Nat.zero_le 2
  · unfold State.stage9; dsimp only; split
    · exact Nat.le_succ 1
    · split
      · exact Nat.le_succ 1
      · exact Nat.zero_le 2
  · unfold State.stage10; dsimp only; split <;> decide
  · exact Nat.zero_le 2

/-! ### Stage 0 (R526) -/

theorem startVolts_link (s : State) : s.startVolts.rd pgSprue SP_STATUS_LINK = s.rd pgSprue SP_STATUS_LINK ∧ s.startVolts.time = s.time := by
  have places : ∀ d < 96, (vSet d).1.inPage (vSet d).2 ∧ (vStart d).1.inPage (vStart d).2 := by decide
  unfold State.startVolts
  constructor
  · refine rd_foldl_same _ pgSprue SP_STATUS_LINK 0 (List.range 96) (fun t d hd => ?_) s
    obtain ⟨hset, hstart⟩ := places d (List.mem_range.mp hd)
    rw [rd_wr_page _ _ (by decide) (by decide) hstart, rd_wr_page _ _ (by decide) (by decide) hset]
  · generalize List.range 96 = l
    induction l generalizing s with
    | nil => rfl
    | cons d l ih => exact ih _

/-- With the fuses read, stage 0 leaves the time unit running FREE and the Sprue port in the state its light gives it. -/
theorem stage0_ready (s : State) {o : StageObs} (ho : o.fuses = true) :
    (s.stage0 o).1.time.running = true ∧ (s.stage0 o).1.time.state = .free ∧
    (s.stage0 o).1.rd pgSprue SP_STATUS_LINK = s.sprueLit.toNat := by
  have lit : ∀ t : State, (t.wr pgSprue SP_STATUS_LINK s.sprueLit.toNat).rd pgSprue SP_STATUS_LINK = s.sprueLit.toNat := fun t =>
    rd_wr_fits t pgSprue SP_STATUS_LINK (v := s.sprueLit.toNat) 0 (Nat.lt_of_le_of_lt (Bool.toNat_le _) (by decide))
  obtain ⟨s1, hs1⟩ : ∃ s1, s1 = ((s.modTime fun u => { u with running := true, state := .free }).wr pgSprue SP_STATUS_LINK
    s.sprueLit.toNat).modLedger fun l => { l with unsaved := [] } := ⟨_, rfl⟩
  have lit1 : s1.rd pgSprue SP_STATUS_LINK = s.sprueLit.toNat := hs1 ▸ (rd_congr rfl ..).trans (lit _)
  obtain ⟨s2, hs2⟩ : ∃ s2, s2 = (if s.pins.byReset then s1.wr pgBu BU_START_CAUSE 2 else s1) := ⟨_, rfl⟩
  have lit2 : s2.rd pgSprue SP_STATUS_LINK = s.sprueLit.toNat ∧ s2.time = s1.time := by
    rw [hs2]
    split
    · exact ⟨(rd_wr_page s1 2 (by decide) (by decide) (by decide)).trans lit1, rfl⟩
    · exact ⟨lit1, rfl⟩
  unfold State.stage0
  dsimp only
  rw [if_pos ho, ← hs1, ← hs2]
  dsimp only
  rw [(startVolts_link _).1, (startVolts_link _).2]
  refine ⟨?_, ?_, (rd_congr rfl ..).trans lit2.1⟩
  · change s2.time.running = true
    rw [lit2.2, hs1]
    rfl
  · change s2.time.state = .free
    rw [lit2.2, hs1]
    rfl

/-! ### The stage that is next (R524 to R527) -/

theorem stageNow_le {s : State} (h : s.stageReady = true) : s.stageNow ≤ 11 := by
  simp only [State.stageReady, Bool.and_eq_true, decide_eq_true_eq] at h
  exact h.1.1.2

theorem leads_startUpStage_runs {s : State} {obs : StageObs} (hready : s.stageReady = true) (hclocks : s.stageNow ≠ 0 ∨ obs.clocks = true)
    (hwait : s.stageWaits s.stageNow obs.us = false) : Leads (.startUpStage obs) s fun t =>
      t.rd pgBu BU_STAGE_STAGE = s.stageNow ∧ (t.rd pgBu BU_STAGE_STATUS = 2 → t.boot.stopped = true) ∧
      (s.stageNow = 0 → obs.fuses = true → t.time.running = true ∧ t.time.state = .free ∧ t.rd pgSprue SP_STATUS_LINK = s.sprueLit.toNat) ∧
      (s.stageNow = 11 → t.rd pgBu BU_STAGE_DONE = 1) := by
  obtain ⟨k, hk⟩ : ∃ k, k = s.stageNow := ⟨_, rfl⟩
  have hle : k ≤ 11 := hk ▸ stageNow_le hready
  obtain ⟨hstage, hstatus, hboot, htime, hlink, hdone⟩ :=
    endStage_reports (s.runStage k obs).1 (s.rd pgBu BU_DEFECTS_NEW) { obs with us := min obs.us (1000 * stageLimit k) } hle
      (runStage_st s k obs)
  obtain ⟨t, ht⟩ : ∃ t, t = (s.runStage k obs).1.endStage k (s.rd pgBu BU_DEFECTS_NEW)
    { obs with us := min obs.us (1000 * stageLimit k) } (s.runStage k obs).2 := ⟨_, rfl⟩
  rw [← ht] at hstage hstatus hboot htime hlink hdone
  obtain ⟨u, hu⟩ : ∃ u, u = (if k = 7 ∧ s.boot.rerun = 0 then t.trainPorts else t) := ⟨_, rfl⟩
  have trained : bringupSame t u ∧ (k = 0 → u = t) := by
    rw [hu]
    split
    · exact ⟨bringupSame_trainPorts t, fun h => by omega⟩
    · exact ⟨bringupSame_refl t, fun _ => rfl⟩
  obtain ⟨⟨hregs, hbootu, htimeu⟩, hzero⟩ := trained
  have hexec : exec (.startUpStage obs) s =
      finish (answered ++ [.mem, .undef, .poison, .fuse, .ledger, .boot, .time, .health, .descs, .net, .chans, .wires, .update]) s
        u.redescribe := by
    rw [show exec (.startUpStage obs) s = execStartUpStage obs s from rfl, execStartUpStage, if_neg (by simp [hready, hwait])]
    dsimp only
    rw [← hk, if_neg (by rw [hk]; rcases hclocks with h | h <;> simp [h]), ← ht, ← hu]
  refine ⟨_, hexec, ?_⟩
  rw [← hk]
  refine ⟨?_, fun hfail => ?_, fun h0 hfuses => ?_, fun h11 => ?_⟩
  · exact (rd_redescribe u (by decide)).trans ((hregs _ _ (by decide)).trans hstage)
  · have hst : (s.runStage k obs).2.st = 2 :=
      hstatus.symm.trans ((((rd_redescribe u (by decide)).trans (hregs BU_STAGE_STATUS 0 (by decide))).symm).trans hfail)
    have hbootr : u.redescribe.boot = u.boot := redescribe_same u (k := .boot) (by decide)
    change u.redescribe.boot.stopped = true
    rw [hbootr, hbootu, hboot, decide_eq_true hst]
    rfl
  · obtain ⟨hrun, hfree, hlit⟩ := stage0_ready s hfuses
    have htimer : u.redescribe.time = u.time := redescribe_same u (k := .time) (by decide)
    have hstage0 : (s.runStage k obs).1 = (s.stage0 obs).1 := by rw [h0]; rfl
    rw [hstage0] at htime hlink
    refine ⟨?_, ?_, (rd_redescribe u (by decide)).trans ((hzero h0).symm ▸ hlink.trans hlit)⟩
    · change u.redescribe.time.running = true
      rw [htimer, htimeu, htime, hrun]
    · change u.redescribe.time.state = .free
      rw [htimer, htimeu, htime, hfree]
  · exact (rd_redescribe u (by decide)).trans ((hregs _ _ (by decide)).trans (hdone h11))

theorem leads_startUpStage_unlocked {s : State} {obs : StageObs} (hready : s.stageReady = true) (h0 : s.stageNow = 0)
    (hclocks : obs.clocks = false) : Leads (.startUpStage obs) s fun t => t.boot.stopped = true ∧ s.sameBut [.boot] t := by
  have nowait : s.stageWaits s.stageNow obs.us = false := by rw [h0]; rfl
  have hexec : exec (.startUpStage obs) s =
      finish (answered ++ [.mem, .undef, .poison, .fuse, .ledger, .boot, .time, .health, .descs, .net, .chans, .wires, .update]) s
        { s with boot := { s.boot with stopped := true } } := by
    rw [show exec (.startUpStage obs) s = execStartUpStage obs s from rfl, execStartUpStage, if_neg (by simp [hready, nowait])]
    dsimp only
    rw [if_pos ⟨h0, by simp [hclocks]⟩]
  refine ⟨_, hexec, rfl, sameBut_only_of fun k hk => ?_⟩
  cases k <;> first | exact absurd (by decide) hk | exact ⟨rfl, rfl⟩ | rfl

theorem leads_startUpStage_waits {s : State} {obs : StageObs} (h : s.stageReady = false ∨ s.stageWaits s.stageNow obs.us = true) :
    Leads (.startUpStage obs) s fun t => s.sameBut [] t := by
  refine leads_unchanged (l := answered ++ [.mem, .undef, .poison, .fuse, .ledger, .boot, .time, .health, .descs, .net, .chans, .wires,
    .update]) ?_
  rw [show exec (.startUpStage obs) s = execStartUpStage obs s from rfl, execStartUpStage, if_pos]
  rcases h with h | h <;> simp [h]

/-! ### Saved sets (R530) -/

/-- The set that is saved for a unit trained in full. -/
def savedEntry (s : State) (unit spares phase volt : Nat) : SavedSet :=
  { unit := unit, devid := s.devidTag, steppings := s.steppings fun d => s.rd pgBu BU_DIE_REV_STEPPING d, fw := s.trainFw
    spares := spares, phase := phase, volt := volt
    ageSeq := (((s.ledger.ageing.filter fun a => decide (a.unit = unit)).getLast?).map Age.seq).getD 0 }

theorem leads_savedSetWrite {s : State} {unit : Nat} (spares phase volt : Nat) (hen : s.on pgBu BU_CTRL_SAVE_EN = true)
    (hslot : 4088 ≤ s.slot) (hunit : unit ∈ s.ledger.unsaved) (hshut : s.health.shutdown = none) :
    Leads (.savedSetWrite unit spares phase volt) s fun t =>
      (∃ e, t.savedOf unit = some e ∧ e.spares = spares ∧ e.phase = phase ∧ e.volt = volt ∧ e.devid = s.devidTag) ∧
      (∀ u, u ≠ unit → t.savedOf u = s.savedOf u) ∧ unit ∉ t.ledger.unsaved ∧ s.sameBut [.ledger] t := by
  have hexec : exec (.savedSetWrite unit spares phase volt) s = finish [.ledger] s (s.modLedger fun l =>
      { l with saved := (l.saved.filter fun x => decide (x.unit ≠ unit)) ++ [savedEntry s unit spares phase volt]
               unsaved := l.unsaved.filter fun x => decide (x ≠ unit) }) := by
    rw [show exec (.savedSetWrite unit spares phase volt) s = execSavedSetWrite unit spares phase volt s from rfl, execSavedSetWrite,
      if_pos (by simp [hen, hslot, hunit, hshut])]
    rfl
  refine ⟨_, hexec, ⟨savedEntry s unit spares phase volt, ?_, rfl, rfl, rfl, rfl⟩, fun u hu => ?_, ?_, sameBut_only _ s _⟩
  · change List.find? _ (_ ++ [_]) = some _
    have last : [savedEntry s unit spares phase volt].find? (fun e => decide (e.unit = unit)) =
        some (savedEntry s unit spares phase volt) := by simp [savedEntry]
    rw [List.find?_append, List.find?_eq_none.mpr (by simp), last, Option.none_or]
  · change List.find? _ (_ ++ [_]) = List.find? _ _
    have last : [savedEntry s unit spares phase volt].find? (fun e => decide (e.unit = u)) = none :=
      List.find?_eq_none.mpr (by simpa [savedEntry] using Ne.symm hu)
    rw [List.find?_append, last, Option.or_none, List.find?_filter]
    refine congrArg (fun p => s.ledger.saved.find? p) (funext fun x => ?_)
    by_cases hx : x.unit = u
    · simp [hx, hu]
    · simp [hx]
  · change unit ∉ s.ledger.unsaved.filter _
    simp

theorem leads_savedSetWrite_none {s : State} {unit : Nat} (spares phase volt : Nat) (hunit : unit ∉ s.ledger.unsaved) :
    Leads (.savedSetWrite unit spares phase volt) s fun t => s.sameBut [] t := by
  refine leads_unchanged (l := [.ledger]) ?_
  rw [show exec (.savedSetWrite unit spares phase volt) s = execSavedSetWrite unit spares phase volt s from rfl, execSavedSetWrite,
    if_neg (by simp [hunit])]

/-- Settles O13: a stage's run, its stop and its wait, and the saved sets. -/
theorem startUpStagesReport : Obligations.StartUpStagesReport := by
  unfold Obligations.StartUpStagesReport
  exact ⟨fun _ _ => leads_startUpStage_runs, fun _ _ => leads_startUpStage_unlocked, fun _ _ => leads_startUpStage_waits,
    fun _ _ spares phase volt => leads_savedSetWrite spares phase volt, fun _ _ spares phase volt => leads_savedSetWrite_none spares phase volt⟩

end Sys2Proof.Machine
end

section
/-!
Proofs of the families 02_hall_time.md and 08_stacked_memory.md: the boundary's preparation, re-centring, the monitors and the
memory-maintenance slot (O19).
-/

namespace Sys2Proof.Machine

open Sys2Proof

/-! ### What completing a request touches -/

theorem sameBut_modHall (s : State) (f : Hall → Hall) : s.sameBut [.hall] (s.modHall f) := by
  intro k hk
  cases k <;> first | exact absurd (by decide) hk | exact ⟨rfl, rfl⟩ | rfl

theorem sameBut_modMover (s : State) (m : Nat) (f : Mover → Mover) : s.sameBut [.movers] (s.modMover m f) := by
  intro k hk
  cases k <;> first | exact absurd (by decide) hk | exact ⟨rfl, rfl⟩ | rfl

theorem sameBut_modGc (s : State) (g : Nat) (f : Gcore → Gcore) : s.sameBut [.gcores] (s.modGc g f) := by
  intro k hk
  cases k <;> first | exact absurd (by decide) hk | exact ⟨rfl, rfl⟩ | rfl

theorem sameBut_dropReq (s : State) (id : Nat) : s.sameBut [.hall] (s.dropReq id) := sameBut_modHall s _

theorem sameBut_moverDone (s : State) (r : Req) (a : Ans) : s.sameBut [.movers] (s.moverDone r a) := by
  unfold State.moverDone
  dsimp only
  split
  · exact sameBut_refl _ s
  · exact sameBut_modMover s _ _

theorem sameBut_gcOutcome (s : State) (g : Nat) (machine load : Bool) (addr status : Nat) :
    s.sameBut [.gcores] (s.gcOutcome g machine load addr status) := by
  unfold State.gcOutcome
  dsimp only
  split
  · exact sameBut_refl _ s
  · split
    · exact sameBut_modGc s _ _
    · exact sameBut_modGc s _ _

/-- What completing a request can touch: the reset that discards it, its origin, and the fabric. -/
def requested : List Comp := [.regs, .resets, .hall, .movers, .gcores]

theorem sameBut_discarded {s t : State} {id src : Nat} (h : s.discarded id src = some t) : s.sameBut [.regs, .resets, .hall] t := by
  unfold State.discarded at h
  split at h
  · injection h with h
    rw [← h]
    intro k hk
    cases k <;> first | exact absurd (by decide) hk | exact ⟨rfl, rfl⟩ | rfl
  · split at h
    · injection h with h
      exact h ▸ sameBut_refl _ s
    · cases h

theorem sameBut_completeReq (s : State) (id : Nat) (r : Req) (a : Ans) : s.sameBut requested (s.completeReq id r a) := by
  unfold State.completeReq
  split
  · next t ht => exact sameBut_trans (sameBut_mono (sameBut_discarded ht) (by decide)) (sameBut_mono (sameBut_dropReq t id) (by decide))
  · have done := sameBut_trans (sameBut_dropReq s id) (sameBut_modHall (s.dropReq id) fun h => { h with done := ains id a h.done })
    dsimp only
    split
    · exact sameBut_trans (sameBut_mono done (by decide)) (sameBut_mono (sameBut_gcOutcome _ _ _ _ _ _) (by decide))
    · exact sameBut_trans (sameBut_mono done (by decide)) (sameBut_mono (sameBut_moverDone _ _ _) (by decide))
    · exact sameBut_mono done (by decide)

/-! ### The preparation leaves the time unit alone (R426) -/

theorem time_foldl {β : Type} (f : State → β → State) (hf : ∀ s b, (f s b).time = s.time) (l : List β) (s : State) :
    (l.foldl f s).time = s.time := by
  induction l generalizing s with
  | nil => rfl
  | cons b l ih => exact (ih _).trans (hf s b)

theorem time_extend (s : State) (p ty : Nat) (digest : Bytes) : (s.extend p ty digest).time = s.time := by
  unfold State.extend
  dsimp only
  split <;> rfl

theorem time_noteLife (s : State) (f : Fuse) : (s.noteLife f).time = s.time := by
  unfold State.noteLife State.noteRecord
  split
  · rfl
  · split <;> rfl

theorem time_assignPorts (s : State) : s.assignPorts.time = s.time := by
  unfold State.assignPorts
  dsimp only
  split
  · rfl
  · exact time_foldl State.measureChange (fun s p => time_extend s p 1 _) _ _

theorem time_endMember (s : State) (P : Nat) : (s.endMember P).time = s.time := by
  refine time_foldl _ (fun t e => ?_) _ s
  split
  · exact sameBut_completeReq _ _ _ _ .time (by decide)
  · rfl

theorem time_applyMembers (s : State) (e : Nat) : (s.applyMembers e).time = s.time := by
  unfold State.applyMembers
  dsimp only
  split
  · rfl
  · rw [raise_time]
    refine time_foldl _ (fun t x => ?_) _ _
    split
    · exact time_endMember t x.1
    · rfl

theorem time_swapRoutes (s : State) (e : Nat) : (s.swapRoutes e).time = s.time := by
  unfold State.swapRoutes
  refine time_foldl _ (fun t x => ?_) _ s
  rfl

theorem time_notePinHold (s : State) : s.notePinHold.time = s.time := by
  unfold State.notePinHold
  split
  · exact raise_time _ _ _ _
  · rfl

theorem time_pinHold (s : State) : s.pinHold.time = s.time := by
  unfold State.pinHold
  split
  · exact (time_notePinHold _).trans (time_foldl (fun (s : State) p => s.modPart p fun q => q.holdAt s.epoch) (fun _ _ => rfl) _ s)
  · rfl

theorem time_prepare (s : State) : s.prepare.time = s.time := by
  unfold State.prepare
  dsimp only
  rw [time_pinHold, time_swapRoutes, time_applyMembers]
  split
  · exact time_assignPorts s
  · rfl

theorem leads_boundaryPreparation {s : State} (hrun : s.time.running = true) (hslot : s.slot = 4095)
    (hprep : s.time.prepared ≠ s.time.epochs + 1) : Leads .boundaryPreparation s fun t =>
      t.time.prepared = s.time.epochs + 1 ∧ t.time.ticks = s.time.ticks ∧
      (s.fuse.deploying = true → t.fuse = { s.fuse with life := .deployed, deploying := false }) ∧
      (s.fuse.deploying = false → t.fuse = s.fuse) := by
  obtain ⟨t, hexec, hfuse⟩ := boundaryPreparation_fuse hrun hslot hprep
  have htime : t.time = { s.time with prepared := s.time.epochs + 1 } := by
    have h := hexec
    rw [show exec .boundaryPreparation s = execBoundaryPreparation s from rfl, execBoundaryPreparation,
      if_pos (by simp [hrun, hslot, hprep])] at h
    injection h with h
    rw [← h, only_time, if_pos (by decide), time_noteLife]
    exact (redescribe_same _ (k := .time) (by decide)).trans (time_prepare _)
  refine ⟨t, hexec, by rw [htime], by rw [htime], fun hd => ?_, fun hd => ?_⟩
  · rw [hfuse, Fuse.deploy, if_pos hd]
  · rw [hfuse, Fuse.deploy, if_neg (by simp [hd])]

theorem leads_boundaryPreparation_none {s : State}
    (h : s.time.running = false ∨ s.slot ≠ 4095 ∨ s.time.prepared = s.time.epochs + 1) :
    Leads .boundaryPreparation s fun t => s.sameBut [] t := by
  refine leads_unchanged
    (l := served ++ [.undef, .flags, .fuse, .resets, .time, .sprue, .health, .descs, .net, .chans, .wires, .gcores]) ?_
  rw [show exec .boundaryPreparation s = execBoundaryPreparation s from rfl, execBoundaryPreparation, if_neg]
  rcases h with h | h | h <;> simp [h]

/-! ### Re-centring (R307) -/

/-- A field of channel `c` past the header that re-centring shows. -/
abbrev marginField (F : Fld) : Prop := F.apart 0 MC_STATUS_RETRAIN_DUE 0 ∧ 44 ≤ F.at 0

theorem quietFld_channel (c : Nat) (hc : c < 256) {F : Fld} (hF : marginField F) : quietFld (pgChannel c) F 0 := by
  obtain ⟨⟨hin, -, -⟩, h44⟩ := hF
  have ht : pgType (pgChannel c) = 0x0020 := by simp only [pgType, pgChannel, pageId]; omega
  have hne : pgChannel c ≠ pgEv := by simp only [pgChannel, pgEv, pageId]; omega
  exact ⟨h44, hin, .inr (.inr (by omega)), .inr (.inr hne)⟩

/-- A channel's margins as measured are shown, and the other fields of its page stay but RETRAIN_DUE. -/
theorem rd_chanMargin (s : State) {c : Nat} (hc : c < 256) (phase volt lane : Nat) :
    (s.chanMargin c phase volt lane).rd (pgChannel c) MC_MARGIN_PHASE = phase % 256 ∧
    (s.chanMargin c phase volt lane).rd (pgChannel c) MC_RECENTRE_EPOCH = s.rd (pgChannel c) MC_RECENTRE_EPOCH := by
  obtain ⟨s0, hs0⟩ : ∃ s0, s0 = (if phase = 0 ∨ volt = 0 then s.declare c (laneGroup lane) else s) := ⟨_, rfl⟩
  obtain ⟨s1, hs1⟩ : ∃ s1, s1 = s0.wrs (pgChannel c) [(MC_MARGIN_PHASE, phase), (MC_MARGIN_VOLT, volt), (MC_MARGIN_LANE, lane)] := ⟨_, rfl⟩
  have regs0 : s0.regs = s.regs := by rw [hs0]; split <;> rfl
  have shown : s1.rd (pgChannel c) MC_MARGIN_PHASE = phase % 256 ∧ s1.rd (pgChannel c) MC_RECENTRE_EPOCH = s.rd (pgChannel c) MC_RECENTRE_EPOCH := by
    rw [hs1]
    exact ⟨rd_wrs_head _ _ _ _ _ _ (by simp +decide), (rd_wrs_apart _ _ _ _ (by simp +decide)).trans (rd_congr regs0 ..)⟩
  have low : ∀ F, marginField F → ∀ info, ((s1.wr (pgChannel c) MC_STATUS_RETRAIN_DUE 1).raise (pgChannel c) ev_MC_MARGIN_LOW info).rd
      (pgChannel c) F = s1.rd (pgChannel c) F := fun F hF info =>
    (rd_raise_quiet _ _ _ _ (quietFld_channel c hc hF)).trans (rd_wr_apart _ _ _ _ hF.1)
  unfold State.chanMargin
  dsimp only
  rw [← hs0, ← hs1]
  split
  · exact ⟨(low _ (by decide) _).trans shown.1, (low _ (by decide) _).trans shown.2⟩
  · exact shown

theorem rd_ageMoved (s : State) (a : Age) (pg : Nat) (F : Fld) (i : Nat) : (s.ageMoved a).rd pg F i = s.rd pg F i := by
  refine rd_congr ?_ ..
  unfold State.ageMoved
  dsimp only
  split
  · rfl
  · split <;> rfl

/-- The crossings' margins leave the channels' pages alone. -/
theorem rd_groupMargin (s : State) (n g m : Nat) {c : Nat} (hn : n < 8) (hc : c < 256) {F : Fld} (hF : marginField F) :
    (s.groupMargin n g m).rd (pgChannel c) F = s.rd (pgChannel c) F := by
  have hpage : pgChannel c ≠ pgColumns n := by simp only [pgChannel, pgColumns, pageId]; omega
  unfold State.groupMargin
  dsimp only
  split
  · exact (rd_raise_quiet _ _ _ _ (quietFld_channel c hc hF)).trans (rd_wr_page _ _ hpage hF.1.1 (by decide))
  · rfl

theorem rd_plMargin (s : State) (o : PlObs) {c : Nat} (hc : c < 256) {F : Fld} (hF : marginField F) :
    (s.plMargin o).rd (pgChannel c) F = s.rd (pgChannel c) F := by
  have hparting : pgChannel c ≠ pgParting := by simp only [pgChannel, pgParting, pageId]; omega
  have hht : pgChannel c ≠ pgHt := by simp only [pgChannel, pgHt, pageId]; omega
  obtain ⟨s1, hs1⟩ : ∃ s1, s1 = (s.wrs pgParting [(MC_PL_MARGIN_CD, o.cd), (MC_PL_MARGIN_DC, o.dc)]).wr pgHt HT_SKEW_PS o.skew := ⟨_, rfl⟩
  have written : s1.rd (pgChannel c) F = s.rd (pgChannel c) F := by
    rw [hs1, rd_wr_page _ _ hht hF.1.1 (by decide), rd_wrs_page _ _ hparting hF.1.1 (by simp +decide)]
  have marked : ∀ d m : Nat, ∀ u : State,
      (u.modWires d fun w => { w with declared := if m = 0 then w.declared ||| 4 else w.declared }).rd (pgChannel c) F = u.rd (pgChannel c) F :=
    fun _ _ _ => rfl
  unfold State.plMargin
  dsimp only
  rw [← hs1]
  split
  · refine (rd_raise_quiet _ _ _ _ (quietFld_channel c hc hF)).trans ?_
    rw [marked, marked, written]
  · rw [marked, marked, written]

theorem leads_recentre {s : State} {n : Fin 8} (phase volt lane xg : Nat) (pl : PlObs) (hslot : 4094 ≤ s.slot)
    (hst : s.rd (pgChannel (32 * n + s.epoch % 32)) MC_STATUS_STATE ∈ [1, 2, 3])
    (hcut : s.recut (s.chan (32 * n + s.epoch % 32)).cut = false) : Leads (.recentre n phase volt lane xg pl) s fun t =>
      t.rd (pgChannel (32 * n + s.epoch % 32)) MC_RECENTRE_EPOCH = s.epoch % 2 ^ 32 ∧
      t.rd (pgChannel (32 * n + s.epoch % 32)) MC_MARGIN_PHASE = phase % 256 := by
  obtain ⟨c, hc⟩ : ∃ c, c = 32 * n.val + s.epoch % 32 := ⟨_, rfl⟩
  have hc256 : c < 256 := by omega
  obtain ⟨s1, hs1⟩ : ∃ s1, s1 = ((s.wr (pgChannel c) MC_RECENTRE_EPOCH s.epoch).chanMargin c phase volt lane).ageMoved
    { seq := 0, unit := pgChannel c, hours := 0, kind := 1, index := 0xFF, phase := phase, volt := volt } := ⟨_, rfl⟩
  have shown : s1.rd (pgChannel c) MC_RECENTRE_EPOCH = s.epoch % 2 ^ 32 ∧ s1.rd (pgChannel c) MC_MARGIN_PHASE = phase % 256 := by
    obtain ⟨hphase, hepoch⟩ := rd_chanMargin (s.wr (pgChannel c) MC_RECENTRE_EPOCH s.epoch) hc256 phase volt lane
    rw [hs1, rd_ageMoved, rd_ageMoved]
    exact ⟨hepoch.trans (rd_wr_same ..), hphase⟩
  have later : ∀ F, marginField F → ∀ u : State, (u = s1 ∨ ∃ m a, u = (s1.groupMargin n (s.epoch % 32) m).ageMoved a) →
      u.rd (pgChannel c) F = s1.rd (pgChannel c) F := by
    rintro F hF u (rfl | ⟨m, a, rfl⟩)
    · rfl
    · rw [rd_ageMoved, rd_groupMargin _ _ _ _ n.isLt hc256 hF]
  have last : ∀ F, marginField F → ∀ u t : State, (t = u ∨ ∃ a b, t = ((u.plMargin pl).ageMoved a).ageMoved b) →
      t.rd (pgChannel c) F = u.rd (pgChannel c) F := by
    rintro F hF u t (rfl | ⟨a, b, rfl⟩)
    · rfl
    · rw [rd_ageMoved, rd_ageMoved, rd_plMargin _ _ hc256 hF]
  rw [← hc] at hst hcut ⊢
  obtain ⟨s2, hs2⟩ : ∃ s2, s2 = (if s1.groupState n.val (s.epoch % 32) ≠ 3 && !s.recut (aget {} s.wires c).cut then
      (s1.groupMargin n (s.epoch % 32) xg).ageMoved
        { seq := 0, unit := pgGroup (32 * n + s.epoch % 32), hours := 0, kind := 2, index := s.epoch % 32, phase := xg }
    else s1) := ⟨_, rfl⟩
  have hexec : exec (.recentre n phase volt lane xg pl) s = finish (evented ++ [.ledger, .chans, .wires]) s
      (if n.val = 0 && !s.recut (max (aget {} s.wires 256).cut (aget {} s.wires 257).cut) then
        ((s2.plMargin pl).ageMoved { seq := 0, unit := pgParting, hours := 0, kind := 3, index := 0, phase := pl.cd }).ageMoved
          { seq := 0, unit := pgParting, hours := 0, kind := 3, index := 1, phase := pl.dc }
      else s2) := by
    have live : ([1, 2, 3].contains (s.rd (pgChannel c) MC_STATUS_STATE) && !s.recut (s.chan c).cut) = true := by
      rw [hcut, List.contains_iff_mem.mpr hst]; rfl
    rw [show exec (.recentre n phase volt lane xg pl) s = execRecentre n phase volt lane xg pl s from rfl, execRecentre, hs2, hs1]
    simp only [← hc, live, if_neg (show ¬ s.slot < 4094 by omega), ↓reduceIte]
  refine ⟨_, hexec, ?_⟩
  have h2 : s2 = s1 ∨ ∃ m a, s2 = (s1.groupMargin n (s.epoch % 32) m).ageMoved a := by
    rw [hs2]
    split
    · exact .inr ⟨_, _, rfl⟩
    · exact .inl rfl
  have all : ∀ F, marginField F → ∀ t : State, (t = s2 ∨ ∃ a b, t = ((s2.plMargin pl).ageMoved a).ageMoved b) →
      t.rd (pgChannel c) F = s1.rd (pgChannel c) F := fun F hF t ht => (last F hF s2 t ht).trans (later F hF s2 h2)
  split
  · exact ⟨(all _ (by decide) _ (.inr ⟨_, _, rfl⟩)).trans shown.1, (all _ (by decide) _ (.inr ⟨_, _, rfl⟩)).trans shown.2⟩
  · exact ⟨(all _ (by decide) _ (.inl rfl)).trans shown.1, (all _ (by decide) _ (.inl rfl)).trans shown.2⟩

theorem leads_recentre_none {s : State} {n : Fin 8} (phase volt lane xg : Nat) (pl : PlObs) (hslot : s.slot < 4094) :
    Leads (.recentre n phase volt lane xg pl) s fun t => s.sameBut [] t := by
  refine leads_unchanged (l := evented ++ [.ledger, .chans, .wires]) ?_
  rw [show exec (.recentre n phase volt lane xg pl) s = execRecentre n phase volt lane xg pl s from rfl, execRecentre]
  dsimp only
  rw [if_pos hslot]

/-! ### The monitors and the memory-maintenance slot (Table 2-3, R301) -/

theorem leads_ageingMonitorSample {s : State} (k : Fin 80) (delay slack : Nat) (hlo : 4088 ≤ s.slot) (hhi : s.slot ≤ 4091) :
    Leads (.ageingMonitorSample k delay slack) s fun t =>
      aget delay t.health.least (s.delayKey k) = min delay (aget delay s.health.least (s.delayKey k)) ∧
      aget 0 t.health.slack k = min 65535 (aget 0 s.health.slack k + slack) ∧ s.sameBut [.health] t := by
  have hexec : exec (.ageingMonitorSample k delay slack) s = finish [.health] s
      ((s.noteDelay k delay).modHealth fun h => { h with slack := aset 0 h.slack k (min 65535 (aget 0 h.slack k + slack)) }) := by
    rw [show exec (.ageingMonitorSample k delay slack) s = execAgeingMonitorSample k delay slack s from rfl, execAgeingMonitorSample,
      if_pos ⟨hlo, hhi⟩]
  exact ⟨_, hexec, aget_ains_same .., aget_aset_same .., sameBut_only _ s _⟩

theorem serveAll_of_no_due (s : State) (c t hw : Nat) (h : (s.chan c).due = []) : s.serveAll c t hw = s := by
  rw [State.serveAll, h]; rfl

theorem leads_memoryMaintenanceSlot {s : State} {c : Fin 256} (hst : s.rd (pgChannel c) MC_STATUS_STATE ≠ 0)
    (hslot : maintSlot c (s.time.ticks / 256) = true) (honce : (s.chan c).maintAt ≠ s.time.slots + 1) (hdue : (s.chan c).due = []) :
    Leads (.memoryMaintenanceSlot c) s fun t =>
      (t.chan c).refreshes = (s.chan c).refreshes + refreshesOf (s.bandOf (c / 32)) ∧
      ((s.chan c).lastSlot ≤ s.cycles / s.cps → (t.chan c).rows = []) ∧
      (t.chan c).maintAt = s.time.slots + 1 ∧ t.rd (pgChannel c) MC_STATUS_BAND = s.bandOf (c / 32) % 4 ∧
      t.mem = s.mem ∧ t.poison = s.poison := by
  obtain ⟨n, hn⟩ : ∃ n, n = tnrServed (tnrGroups s.cps (s.bandOf (c / 32))) (s.chan c).tnr := ⟨_, rfl⟩
  have hexec : exec (.memoryMaintenanceSlot c) s = finish (tiled ++ [.undef, .chans]) s
      (((s.modChan c fun u => { u.refreshed n with
          refreshes := u.refreshes + refreshesOf (s.bandOf (c / 32)), refreshAt := s.real, maintAt := s.time.slots + 1
          rows := if u.lastSlot ≤ s.cycles / s.cps then [] else u.rows }).bump (pgChannel c) MC_TNR_COUNT n).wr (pgChannel c)
        MC_STATUS_BAND (s.bandOf (c / 32))) := by
    rw [show exec (.memoryMaintenanceSlot c) s = execMemoryMaintenanceSlot c s from rfl, execMemoryMaintenanceSlot]
    dsimp only
    rw [if_neg (by simp [hst, hslot, honce]), serveAll_of_no_due s _ _ _ hdue, hn]
  obtain ⟨v, hv⟩ : ∃ v : Chan, v = { (s.chan c).refreshed n with
    refreshes := (s.chan c).refreshes + refreshesOf (s.bandOf (c / 32)), refreshAt := s.real, maintAt := s.time.slots + 1
    rows := if (s.chan c).lastSlot ≤ s.cycles / s.cps then [] else (s.chan c).rows } := ⟨_, rfl⟩
  have hchan : ∀ t : State, t.chans = aupd {} s.chans c (fun u => { u.refreshed n with
      refreshes := u.refreshes + refreshesOf (s.bandOf (c / 32)), refreshAt := s.real, maintAt := s.time.slots + 1
      rows := if u.lastSlot ≤ s.cycles / s.cps then [] else u.rows }) → t.chan c = v := fun t ht => by
    rw [State.chan, ht, aget_aupd_same, hv]
    rfl
  refine ⟨_, hexec, ?_⟩
  beta_reduce
  rw [hchan (State.only _ _ _) rfl, hv]
  exact ⟨rfl, fun h => if_pos h, rfl, rd_wr_same _ _ MC_STATUS_BAND _ 0, rfl, rfl⟩

/-- Settles O19: the preparation, re-centring, the monitors, the maintenance slot. -/
theorem maintenanceWorkIsDone : Obligations.MaintenanceWorkIsDone := by
  unfold Obligations.MaintenanceWorkIsDone
  exact ⟨fun _ => leads_boundaryPreparation, fun _ => leads_boundaryPreparation_none,
    fun _ _ phase volt lane xg pl => leads_recentre phase volt lane xg pl,
    fun _ _ phase volt lane xg pl => leads_recentre_none phase volt lane xg pl,
    fun _ k delay slack => leads_ageingMonitorSample k delay slack, fun _ _ => leads_memoryMaintenanceSlot⟩

end Sys2Proof.Machine
end

section
/-!
Proofs of the family 08_stacked_memory.md: words that enter and leave a channel, and unscheduled accesses (O21).
-/

namespace Sys2Proof.Machine

open Sys2Proof

/-! ### A slip (R156, R296) -/

theorem sameBut_modPart (s : State) (p : Nat) (f : Part → Part) : s.sameBut [.parts] (s.modPart p f) := by
  intro k hk
  cases k <;> first | exact absurd (by decide) hk | exact ⟨rfl, rfl⟩ | rfl

theorem sameBut_slip (s : State) (pg p rel slot cyc late : Nat) : s.sameBut evented (s.slip pg p rel slot cyc late) := by
  unfold State.slip State.holdRunning
  dsimp only
  refine sameBut_trans ?_ (sameBut_mono (sameBut_modPart _ _ _) (by decide))
  exact sameBut_trans (raise_eventOnly s pg ev_SCHED_SLIP _).1 (sameBut_mono (sameBut_bump _ pgHt HT_PSLIP_COUNT 1 p) (by decide))

theorem slip_same (s : State) (pg p rel slot cyc late : Nat) {k : Comp} (h : k ∉ evented) : k.same s (s.slip pg p rel slot cyc late) :=
  sameBut_slip s pg p rel slot cyc late k h

/-- A quiet field of another page than Hall Time's reads as before a slip. -/
theorem rd_slip (s : State) (pg : Nat) {p : Nat} (rel slot cyc late : Nat) {pg' : Nat} {F : Fld} {i : Nat} (hF : quietFld pg' F i)
    (hpg : pg' ≠ pgHt) (hp : p < 8) : (s.slip pg p rel slot cyc late).rd pg' F i = s.rd pg' F i := by
  have inside : ∀ p < 8, HT_PSLIP_COUNT.inPage p := by decide
  have counted : ∀ t : State, (t.bump pgHt HT_PSLIP_COUNT 1 p).rd pg' F i = t.rd pg' F i := fun t =>
    rd_bump_other t pgHt HT_PSLIP_COUNT 1 p (fkey_ne_of_page hpg hF.2.1 (inside p hp))
  unfold State.slip State.holdRunning
  dsimp only
  rw [rd_modPart, counted, rd_raise_quiet _ _ _ _ hF]

theorem partOfRiser_lt (s : State) {r : Nat} (h : r < 8) : s.partOfRiser r < 8 := Nat.lt_of_le_of_lt (Nat.div_le_self _ _) h

/-- Past the header, the fields of a page that is no port's and not the event page's are quiet. -/
theorem quietFld_of_page {pg : Nat} {F : Fld} {i : Nat} (hin : F.inPage i) (h44 : 44 ≤ F.at i)
    (hty : pgType pg ≠ 0x0040 ∧ pgType pg ≠ 0x0051) (hev : pg ≠ pgEv) : quietFld pg F i :=
  ⟨h44, hin, .inr (.inr hty), .inr (.inr hev)⟩

theorem pgChannel_plain {c : Nat} (hc : c < 256) : (pgType (pgChannel c) ≠ 0x0040 ∧ pgType (pgChannel c) ≠ 0x0051) ∧ pgChannel c ≠ pgEv ∧
    pgChannel c ≠ pgHt := by
  simp only [pgType, pgChannel, pgEv, pgHt, pageId]
  omega

/-- A channel's word marks nothing of the addresses its sectors have. -/
theorem sectorAt_slip (s : State) {pg p : Nat} (rel slot cyc late : Nat) {c : Nat} (a : Nat) (hp : p < 8) (hc : c < 256) :
    (s.slip pg p rel slot cyc late).sectorAt c a = s.sectorAt c a := by
  obtain ⟨hty, hev, hht⟩ := pgChannel_plain (c := 32 * (c / 32)) (by omega)
  rw [State.sectorAt, State.sectorAt, rd_slip s pg rel slot cyc late (quietFld_of_page (by decide) (by decide) hty hev) hht hp]

theorem rewriting_slip (s : State) {pg p : Nat} (rel slot cyc late : Nat) {c : Nat} (e : WEntry) (hp : p < 8) (hc : c < 256) :
    (s.slip pg p rel slot cyc late).rewriting c e = s.rewriting c e := by
  have hpoison : (s.slip pg p rel slot cyc late).poison = s.poison := slip_same s pg p rel slot cyc late (k := .poison) (by decide)
  have hchans : (s.slip pg p rel slot cyc late).chans = s.chans := slip_same s pg p rel slot cyc late (k := .chans) (by decide)
  simp only [State.rewriting, sectorAt_slip s rel slot cyc late _ hp hc, State.awaiting, hpoison, State.chan, hchans]

/-! ### A read word leaves (R294) -/

theorem leads_readWordDrive {s : State} {c : Fin 256} {e : Nat} {w : BWord} {rest : List (Nat × BWord)} (h : (s.chan c).ready = (e, w) :: rest) :
    Leads (.readWordDrive c) s fun t =>
      (t.chan c).ready = rest ∧
      (let k := phaseCycle s.cps c (24 * s.cps) ((e + 7) / 8 + 2)
       if s.net.taken s.cps (80 + c / 32) (layerPort c) k then
         t.net.driven = ⟨80 + c / 32, layerPort c, k, w, s.cycles⟩ :: s.net.driven ∧ t.regs = s.regs
       else t.net = s.net ∧
         t.rd (pgChannel c) MC_WDROP_READ = min (s.rd (pgChannel c) MC_WDROP_READ + 1) (2 ^ MC_WDROP_READ.width - 1)) := by
  obtain ⟨s1, hs1⟩ : ∃ s1, s1 = s.modChan c fun u => { u with ready := rest, readOf := adel e u.readOf } := ⟨_, rfl⟩
  have hready : (s1.chan c).ready = rest := by
    rw [hs1, State.chan, modChan_chans, aget_aupd_same]
  have hexec : exec (.readWordDrive c) s = finish [.regs, .net, .chans] s
      (if s.net.taken s.cps (80 + c / 32) (layerPort c) (phaseCycle s.cps c (24 * s.cps) ((e + 7) / 8 + 2)) then
        s1.drive (80 + c / 32) (layerPort c) (phaseCycle s.cps c (24 * s.cps) ((e + 7) / 8 + 2)) w
      else s1.bump (pgChannel c) MC_WDROP_READ) := by
    rw [show exec (.readWordDrive c) s = execReadWordDrive c s from rfl, execReadWordDrive]
    dsimp only
    rw [h, hs1]
  refine ⟨_, hexec, ?_⟩
  dsimp only
  split
  · exact ⟨hready, by rw [hs1]; rfl, by rw [hs1]; rfl⟩
  · exact ⟨hready, by rw [hs1]; rfl, (rd_bump_same ..).trans (by rw [hs1]; rfl)⟩

/-! ### A write word enters (R295) -/

theorem leads_writeWordArrival {s : State} {c : Fin 256} {cyc : Nat} {w : BWord} {m : Bool} (hcyc : cyc < s.cps)
    (hphase : s.absCycle s.slot cyc % 4 = c.val % 4) (hword : s.wordOut (80 + c / 32) (layerPort c) (s.absCycle s.slot cyc) = some (w, m))
    (hdue : (s.chan c).due = []) : Leads (.writeWordArrival c cyc) s fun t =>
      t.mem = s.mem ∧ t.poison = s.poison ∧
      (let kept := (s.chan c).wbuf.filter fun e => decide (e.used < 8 ∨ 8 * s.absCycle s.slot cyc < e.until_) || s.rewriting c e
       (t.chan c).wbuf = if 32 ≤ kept.length then kept
        else kept ++ [{ word := w, cycle := s.absCycle s.slot cyc, used := min 8 (s.chan c).skip }]) := by
  obtain ⟨t0, ht0⟩ : ∃ t0, t0 = s.absCycle s.slot cyc := ⟨_, rfl⟩
  obtain ⟨s1, hs1⟩ : ∃ s1, s1 = (if m then s.slipAt (pgChannel c) (c / 32) t0 else s) := ⟨_, rfl⟩
  have slipped : s1.mem = s.mem ∧ s1.poison = s.poison ∧ s1.chans = s.chans ∧ ∀ e, s1.rewriting c e = s.rewriting c e := by
    rw [hs1]
    split
    · exact ⟨slip_same _ _ _ _ _ _ _ (k := .mem) (by decide), slip_same _ _ _ _ _ _ _ (k := .poison) (by decide),
        slip_same _ _ _ _ _ _ _ (k := .chans) (by decide),
        fun e => rewriting_slip s _ _ _ _ e (partOfRiser_lt s (by omega)) c.isLt⟩
    · exact ⟨rfl, rfl, rfl, fun _ => rfl⟩
  obtain ⟨hmem, hpoison, hchans, hrewriting⟩ := slipped
  have hchan : s1.chan c = s.chan c := by rw [State.chan, hchans]; rfl
  obtain ⟨kept, hkept⟩ : ∃ kept, kept = (s.chan c).wbuf.filter fun e => decide (e.used < 8 ∨ 8 * t0 < e.until_) || s.rewriting c e := ⟨_, rfl⟩
  obtain ⟨s2, hs2⟩ : ∃ s2, s2 = s1.modChan c fun u =>
    { u with wbuf := kept ++ [{ word := w, cycle := t0, used := min 8 u.skip }], skip := u.skip - 8 } := ⟨_, rfl⟩
  have hdue2 : (s2.chan c).due = [] := by
    rw [hs2, State.chan, modChan_chans, aget_aupd_same]
    exact (congrArg Chan.due hchan).trans hdue
  have hexec : exec (.writeWordArrival c cyc) s = finish (tiled ++ [.undef, .chans]) s
      (if 32 ≤ kept.length then (s1.modChan c fun u => { u with wbuf := kept }).bump (pgChannel c) MC_WDROP_WRITE else s2) := by
    rw [show exec (.writeWordArrival c cyc) s = execWriteWordArrival c cyc s from rfl, execWriteWordArrival]
    dsimp only
    rw [if_neg (by omega), hword]
    dsimp only
    rw [← ht0, ← hs1, serveAll_of_no_due s1 c t0 (s.chanHw c) (hchan ▸ hdue), hchan]
    simp only [hrewriting, ← hkept, ← hs2, serveAll_of_no_due s2 c t0 (s.chanHw c) hdue2]
  refine ⟨_, hexec, ?_⟩
  rw [← ht0, ← hkept]
  dsimp only
  split
  · refine ⟨hmem, hpoison, ?_⟩
    obtain ⟨v, hv⟩ : ∃ v, v = s1.modChan c fun u => { u with wbuf := kept } := ⟨_, rfl⟩
    have hbump : (v.bump (pgChannel c) MC_WDROP_WRITE).chans = v.chans := sameBut_bump _ _ _ _ _ .chans (by decide)
    rw [← hv]
    change (aget {} (v.bump (pgChannel c) MC_WDROP_WRITE).chans c).wbuf = kept
    rw [hbump, hv, modChan_chans, aget_aupd_same]
  · refine ⟨by rw [hs2]; exact hmem, by rw [hs2]; exact hpoison, ?_⟩
    change (s2.chan c).wbuf = _
    rw [hs2, State.chan, modChan_chans, aget_aupd_same, ← hchan]
    rfl

/-! ### Unscheduled accesses (R298, R299, R303) -/

/-- The request that `setReq` gives is the one that is read. -/
theorem req_setReq (s : State) (id : Nat) (r : Req) : (s.setReq id r).req id = some r := by
  have h : ∀ l : List (Nat × Req), ((ains id r l).find? fun e => decide (e.1 = id)).map (fun e => e.2) = some r := by
    intro l
    induction l with
    | nil => simp [ains]
    | cons e l ih =>
      simp only [ains]
      split
      · simp
      · split
        · simp
        · next hne => simpa [Ne.symm hne] using ih
  exact h s.hall.reqs

theorem execUnscheduledAccess_eq {s : State} {c : Fin 256} {id : Nat} {q : Req}
    (h : (s.chanQueue c).find? (fun e => decide (e.1 = id)) = some (id, q)) : exec (.unscheduledAccess c id) s = finish [.regs, .hall, .chans] s
      (if !s.chanLive c || !s.openSlot c then s
       else match s.servable c (s.chanQueue c) (id, q) with
         | none => match s.fit c (s.sectorsIn c q) q.dir with
           | some l => if !s.behind c (s.chanQueue c) (id, q) && s.waitsRefresh c l then s.holdRow c l else s
           | none => s
         | some l =>
           if ((s.chanQueue c).filter fun x => before_ x (id, q)).any fun x => (s.servable c (s.chanQueue c) x).isSome then s
           else
             ((s.setReq id { q with served := c.val :: q.served }).bump (pgChannel c) MC_UNSCHED_COUNT).modChan c
               fun u => { u.lend c (s.actTh c) s.cps s.cycles l with moved := u.moved + l.length }) := by
  rw [show exec (.unscheduledAccess c id) s = execUnscheduledAccess c id s from rfl, execUnscheduledAccess]
  dsimp only
  rw [h] <;> rfl

theorem leads_unscheduledAccess_serves {s : State} {c : Fin 256} {id : Nat} {q : Req} {l : List BusSector}
    (hq : (s.chanQueue c).find? (fun e => decide (e.1 = id)) = some (id, q)) (hlive : s.chanLive c = true) (hopen : s.openSlot c = true)
    (hserve : s.servable c (s.chanQueue c) (id, q) = some l)
    (hfirst : ∀ x ∈ s.chanQueue c, before_ x (id, q) = true → s.servable c (s.chanQueue c) x = none) :
    Leads (.unscheduledAccess c id) s fun t =>
      t.req id = some { q with served := c.val :: q.served } ∧ t.mem = s.mem ∧
      t.rd (pgChannel c) MC_UNSCHED_COUNT = min (s.rd (pgChannel c) MC_UNSCHED_COUNT + 1) (2 ^ MC_UNSCHED_COUNT.width - 1) := by
  have hexec := execUnscheduledAccess_eq hq
  have first : ¬ (((s.chanQueue c).filter fun x => before_ x (id, q)).any fun x => (s.servable c (s.chanQueue c) x).isSome) = true := by
    intro h
    obtain ⟨x, hx, hsome⟩ := List.any_eq_true.mp h
    obtain ⟨hmem, hbefore⟩ := List.mem_filter.mp hx
    rw [hfirst x hmem hbefore] at hsome
    cases hsome
  rw [if_neg (by simp [hlive, hopen]), hserve] at hexec
  dsimp only at hexec
  rw [if_neg first] at hexec
  exact ⟨_, hexec, req_setReq s id _, rfl, (rd_congr rfl ..).trans (rd_bump_same (s.setReq id _) (pgChannel c) MC_UNSCHED_COUNT 1 0)⟩

theorem leads_unscheduledAccess_waits {s : State} {c : Fin 256} {id : Nat} {q : Req}
    (hq : (s.chanQueue c).find? (fun e => decide (e.1 = id)) = some (id, q))
    (h : s.openSlot c = false ∨ s.behind c (s.chanQueue c) (id, q) = true ∨ s.fit c (s.sectorsIn c q) q.dir = none) :
    Leads (.unscheduledAccess c id) s fun t => s.sameBut [] t := by
  have hexec := execUnscheduledAccess_eq hq
  refine leads_unchanged (l := [.regs, .hall, .chans]) (hexec.trans (congrArg (finish _ s) ?_))
  by_cases hshut : (!s.chanLive c || !s.openSlot c) = true
  · rw [if_pos hshut]
  · rw [if_neg hshut]
    have hopen : s.openSlot c = true := by
      cases ho : s.openSlot c
      · simp [ho] at hshut
      · rfl
    rcases h with h | h | h
    · rw [h] at hopen; cases hopen
    · rw [show s.servable c (s.chanQueue c) (id, q) = none by rw [State.servable, if_pos h]]
      dsimp only
      split
      · rw [if_neg (by simp [h])]
      · rfl
    · rw [show s.servable c (s.chanQueue c) (id, q) = none by
        rw [State.servable]
        split
        · rfl
        · rw [State.access, h]; rfl]
      dsimp only
      rw [h]

theorem holdRow_same (s : State) (c : Nat) (l : List BusSector) : s.sameBut [.regs, .chans] (s.holdRow c l) := by
  unfold State.holdRow
  split
  · split
    · exact sameBut_refl _ s
    · refine sameBut_trans (t := s.modChan c _) ?_ (sameBut_mono (sameBut_bump _ _ _ _ _) (by decide))
      intro k hk
      cases k <;> first | exact absurd (by decide) hk | exact ⟨rfl, rfl⟩ | rfl
  · exact sameBut_refl _ s

theorem leads_unscheduledAccess_holds {s : State} {c : Fin 256} {id : Nat} {q : Req} {l : List BusSector}
    (hq : (s.chanQueue c).find? (fun e => decide (e.1 = id)) = some (id, q)) (hlive : s.chanLive c = true) (hopen : s.openSlot c = true)
    (hbehind : s.behind c (s.chanQueue c) (id, q) = false) (hfit : s.fit c (s.sectorsIn c q) q.dir = some l)
    (hwait : s.waitsRefresh c l = true) : Leads (.unscheduledAccess c id) s fun t =>
      t.hall = s.hall ∧ t.mem = s.mem ∧ t.chans = (s.holdRow c l).chans ∧
      t.rd (pgChannel c) MC_UNSCHED_COUNT = s.rd (pgChannel c) MC_UNSCHED_COUNT := by
  have hexec := execUnscheduledAccess_eq hq
  have none : s.servable c (s.chanQueue c) (id, q) = none := by
    rw [State.servable, if_neg (by simp [hbehind]), State.access, hfit, Option.filter_some, if_neg (by simp [hwait])]
  rw [if_neg (by simp [hlive, hopen]), none, hfit] at hexec
  dsimp only at hexec
  rw [if_pos (by simp [hbehind, hwait])] at hexec
  have kept : (s.holdRow c l).rd (pgChannel c) MC_UNSCHED_COUNT = s.rd (pgChannel c) MC_UNSCHED_COUNT := by
    unfold State.holdRow
    split
    · split
      · rfl
      · exact rd_bump_apart (pgChannel c) (pgChannel c) _ 1 (by decide)
    · rfl
  exact ⟨_, hexec, holdRow_same s c l .hall (by decide), rfl, rfl, (rd_congr rfl ..).trans kept⟩

/-- Settles O21: read words, write words, and the served, waiting and held request. -/
theorem channelWordsMove : Obligations.ChannelWordsMove := by
  unfold Obligations.ChannelWordsMove
  exact ⟨fun _ _ _ _ _ => leads_readWordDrive, fun _ _ _ _ _ => leads_writeWordArrival, fun _ _ _ _ _ => leads_unscheduledAccess_serves,
    fun _ _ _ _ => leads_unscheduledAccess_waits, fun _ _ _ _ _ => leads_unscheduledAccess_holds⟩

end Sys2Proof.Machine
end

section
/-!
Proofs of the family 08_stacked_memory.md: runs of a channel's program, and the sectors that a channel stores (O20, O22).
-/

namespace Sys2Proof.Machine

open Sys2Proof

/-! ### What a channel's work leaves of the other channels and of the channels' pages -/

/-- A field of a channel's page past the header that only its own row writes: no event, and no late write. -/
abbrev plainField (F : Fld) : Prop := F.apart 0 MC_WLATE_COUNT 0 ∧ F.apart 0 MC_SLIP_COUNT 0 ∧ 44 ≤ F.at 0

/-- Channel `c` has worked: the other channels, and what the channels' pages hold besides late writes and slips, stand as they did. -/
def chanStep (c : Nat) (s t : State) : Prop :=
  (∀ c', c' ≠ c → t.chan c' = s.chan c') ∧ ∀ F, plainField F → ∀ c', c' < 256 → t.rd (pgChannel c') F = s.rd (pgChannel c') F

section
variable {c : Nat}

theorem chanStep_refl (s : State) : chanStep c s s := ⟨fun _ _ => rfl, fun _ _ _ _ => rfl⟩

theorem chanStep_trans {s t u : State} (h1 : chanStep c s t) (h2 : chanStep c t u) : chanStep c s u :=
  ⟨fun c' hc => (h2.1 c' hc).trans (h1.1 c' hc), fun F hF c' hc => (h2.2 F hF c' hc).trans (h1.2 F hF c' hc)⟩

theorem chanStep_foldl {β : Type} (f : State → β → State) (hf : ∀ s b, chanStep c s (f s b)) (l : List β) (s : State) :
    chanStep c s (l.foldl f s) := by
  induction l generalizing s with
  | nil => exact chanStep_refl s
  | cons b l ih => exact chanStep_trans (hf s b) (ih _)

theorem chanStep_of {s t : State} (hchans : t.chans = s.chans) (hregs : t.regs = s.regs) : chanStep c s t :=
  ⟨fun _ _ => by simp only [State.chan, hchans], fun _ _ _ _ => rd_congr hregs ..⟩

theorem chanStep_modChan (s : State) (f : Chan → Chan) : chanStep c s (s.modChan c f) :=
  ⟨fun _ hc => aget_aupd_other _ _ _ hc, fun _ _ _ _ => rfl⟩

theorem plainField_quiet {F : Fld} (hF : plainField F) {c' : Nat} (hc : c' < 256) : quietFld (pgChannel c') F 0 := by
  obtain ⟨hty, hev, -⟩ := pgChannel_plain hc
  exact quietFld_of_page hF.1.1 hF.2.2 hty hev

theorem chanStep_raise (s : State) (pg : Nat) (k : EvKind) (info : Bytes) : chanStep c s (s.raise pg k info) :=
  ⟨fun _ _ => by rw [State.chan, show (s.raise pg k info).chans = s.chans from raise_same s pg k info .chans (by decide)]; rfl,
    fun _ hF _ hc => rd_raise_quiet _ _ _ _ (plainField_quiet hF hc)⟩

theorem chanStep_slip (s : State) (pg : Nat) {p : Nat} (rel slot cyc late : Nat) (hp : p < 8) :
    chanStep c s (s.slip pg p rel slot cyc late) :=
  ⟨fun _ _ => by rw [State.chan, show (s.slip pg p rel slot cyc late).chans = s.chans from slip_same _ _ _ _ _ _ _ (k := .chans) (by decide)]; rfl,
    fun _ hF _ hc => rd_slip s pg rel slot cyc late (plainField_quiet hF hc) (pgChannel_plain hc).2.2 hp⟩

/-- Counting a late write or a slip on a channel's page. -/
theorem chanStep_bump (s : State) (pg : Nat) {F : Fld} (hF : F = MC_WLATE_COUNT ∨ F = MC_SLIP_COUNT) : chanStep c s (s.bump pg F) := by
  refine ⟨fun _ _ => ?_, fun G hG c' _ => ?_⟩
  · rw [State.chan, show (s.bump pg F).chans = s.chans from sameBut_bump s pg F 1 0 .chans (by decide)]; rfl
  · rcases hF with rfl | rfl
    · exact rd_bump_apart pg _ s 1 hG.1
    · exact rd_bump_apart pg _ s 1 hG.2.1

theorem chanStep_mark (s : State) (a : Nat) (b : Bool) : chanStep c s (s.mark a b) := by
  unfold State.mark
  dsimp only
  split
  · exact chanStep_of rfl rfl
  · split
    · split
      · exact chanStep_of rfl rfl
      · exact chanStep_raise s _ _ _
    · exact chanStep_of rfl rfl

theorem setBs_same (s : State) (a : Nat) (bs : Bytes) : (s.setBs a bs).chans = s.chans ∧ (s.setBs a bs).regs = s.regs := by
  induction bs generalizing s a with
  | nil => exact ⟨rfl, rfl⟩
  | cons b bs ih => exact ih (s.setB a b) (a + 1)

theorem chanStep_writeMem (s : State) (a : Nat) (d : Bytes) (poison : Nat) : chanStep c s (s.writeMem a d poison) := by
  rw [writeMem_eq_foldl]
  refine chanStep_foldl _ (fun t x => ?_) _ s
  unfold State.storeSector
  split
  · exact chanStep_refl t
  · exact chanStep_trans (chanStep_of (setBs_same t _ _).1 (setBs_same t _ _).2) (chanStep_mark _ _ _)

theorem chanStep_writeSector (s : State) (k : Nat) (d : DueSector) (w : BWord) (i : Nat) : chanStep c s (s.writeSector k d w i) := by
  unfold State.writeSector
  dsimp only
  split
  · exact chanStep_of rfl rfl
  · exact chanStep_writeMem s _ _ _

theorem chanStep_writeLate (s : State) (d : DueSector) (hc : c < 256) : chanStep c s (s.writeLate c d) := by
  unfold State.writeLate
  dsimp only
  exact chanStep_trans (chanStep_trans (chanStep_mark s _ true) (chanStep_bump _ _ (.inl rfl)))
    (chanStep_slip _ _ _ _ _ _ (partOfRiser_lt s (by omega)))

theorem chanStep_serveDue (hc : c < 256) (t hw n : Nat) (s : State) : chanStep c s (s.serveDue c t hw n) := by
  induction n generalizing s with
  | zero => exact chanStep_refl s
  | succ n ih =>
    have late : ∀ d ds, chanStep c s ((((s.modChan c fun u => { u with due := ds }).writeLate c d).modChan c
        fun u => u.passOver d.flush).serveDue c t hw n) := fun d ds =>
      chanStep_trans (chanStep_modChan s _) (chanStep_trans (chanStep_writeLate _ d hc) (chanStep_trans (chanStep_modChan _ _) (ih _)))
    rw [State.serveDue]
    dsimp only
    split
    · exact chanStep_refl s
    · split
      · split
        · exact chanStep_trans (chanStep_modChan s _) (chanStep_trans (chanStep_writeSector _ _ _ _ _)
            (chanStep_trans (chanStep_modChan _ _) (ih _)))
        · exact late _ _
      · split
        · exact late _ _
        · exact chanStep_refl s

theorem chanStep_readRun (s : State) (l : List BusSector) : chanStep c s (s.readRun c l) :=
  chanStep_trans (chanStep_foldl (fun s (b : BusSector) => s.modChan c fun u =>
    u.pack b.addr (s.readMem (s.sectorAt c b.addr) 64).1 (bit (s.readMem (s.sectorAt c b.addr) 64).2 0) b.end_)
    (fun s _ => chanStep_modChan s _) l s) (chanStep_of rfl rfl)

theorem chanStep_doRun (hc : c < 256) (s : State) (op : Nat) (flush : Bool) (l : List BusSector) (hw : Nat) :
    chanStep c s (s.doRun c op flush l hw) := by
  unfold State.doRun
  dsimp only
  split
  · split
    · exact chanStep_trans (chanStep_readRun s l) (chanStep_modChan _ _)
    · exact chanStep_readRun s l
  · exact chanStep_trans (chanStep_modChan s _) (chanStep_serveDue hc _ _ _ _)

theorem chanStep_spoiled (s : State) (k : Nat) (l : List BusSector) : chanStep c s (s.spoiled k l) :=
  chanStep_foldl State.spoil (fun _ _ => chanStep_of rfl rfl) _ s

theorem chanStep_runSlip (s : State) (plan late : Nat) (hc : c < 256) : chanStep c s (s.runSlip c plan late) := by
  unfold State.runSlip
  dsimp only
  exact chanStep_trans (chanStep_bump s _ (.inr rfl)) (chanStep_slip _ _ _ _ _ _ (partOfRiser_lt s (by omega)))

end

/-! ### A read run stores nothing (R294) -/

/-- Memory, the free fill and the poison stand as they did. -/
def storeSame (s t : State) : Prop := t.mem = s.mem ∧ t.undef = s.undef ∧ t.poison = s.poison

theorem storeSame_trans {s t u : State} (h1 : storeSame s t) (h2 : storeSame t u) : storeSame s u :=
  ⟨h2.1.trans h1.1, h2.2.1.trans h1.2.1, h2.2.2.trans h1.2.2⟩

theorem storeSame_readRun (s : State) (c : Nat) (l : List BusSector) : storeSame s (s.readRun c l) := by
  unfold State.readRun
  dsimp only
  suffices h : ∀ t : State, storeSame t (l.foldl (fun s b => s.modChan c fun u =>
      u.pack b.addr (s.readMem (s.sectorAt c b.addr) 64).1 (bit (s.readMem (s.sectorAt c b.addr) 64).2 0) b.end_) t) from h s
  induction l with
  | nil => exact fun _ => ⟨rfl, rfl, rfl⟩
  | cons b l ih => exact fun t => storeSame_trans ⟨rfl, rfl, rfl⟩ (ih (t.modChan c _))

theorem storeSame_doRun_read (s : State) (c : Nat) {op : Nat} (hop : op = 1) (flush : Bool) (l : List BusSector) (hw : Nat) :
    storeSame s (s.doRun c op flush l hw) := by
  unfold State.doRun
  dsimp only
  rw [if_pos hop]
  split
  · exact storeSame_trans (storeSame_readRun s c l) ⟨rfl, rfl, rfl⟩
  · exact storeSame_readRun s c l

theorem storeSame_slip (s : State) (pg p rel slot cyc late : Nat) : storeSame s (s.slip pg p rel slot cyc late) :=
  ⟨slip_same _ _ _ _ _ _ _ (k := .mem) (by decide), slip_same _ _ _ _ _ _ _ (k := .undef) (by decide),
    slip_same _ _ _ _ _ _ _ (k := .poison) (by decide)⟩

theorem storeSame_runSlip (s : State) (c plan late : Nat) : storeSame s (s.runSlip c plan late) :=
  storeSame_trans (t := s.bump (pgChannel c) MC_SLIP_COUNT) ⟨rfl, rfl, rfl⟩ (storeSame_slip ..)

/-! ### Cacheable ranges (R332) -/

/-- No range of a slice is met by sectors of which none lies in a cacheable range. -/
theorem rangesWith_of_not_cacheable (s : State) (os : List Nat) (h : ∀ o ∈ os, s.cacheable o = false) : s.rangesWith os = [] := by
  unfold State.rangesWith
  rw [List.flatten_eq_nil_iff]
  intro l hl
  obtain ⟨n, -, rfl⟩ := List.mem_map.mp hl
  rw [List.filterMap_eq_nil_iff]
  intro i hi
  refine if_neg fun hon => ?_
  obtain ⟨hvalid, hany⟩ := Bool.and_eq_true_iff.mp hon
  obtain ⟨o, ho, hin⟩ := List.any_eq_true.mp hany
  obtain ⟨hn, hlo, hhi⟩ := of_decide_eq_true hin
  have hcache : s.cacheable o = true := by
    rw [State.cacheable, State.inRange, List.any_eq_true]
    exact ⟨i, hi, Bool.and_eq_true_iff.mpr ⟨hn ▸ hvalid, decide_eq_true ⟨hn ▸ hlo, hn ▸ hhi⟩⟩⟩
  rw [h o ho] at hcache
  cases hcache

/-- The sectors of a plan are those of its entry. -/
theorem runPlan_addr {s : State} {c w j0 n : Nat} {waited : Bool} {u : Chan} {b : BusSector} (h : b ∈ (s.runPlan c w j0 n waited u).1) :
    ∃ i < n, b.addr = meSaddr w + j0 + i := by
  obtain ⟨i, hi, rfl⟩ := List.mem_map.mp h
  exact ⟨i, List.mem_range.mp hi, rfl⟩

theorem length_runPlan (s : State) (c w j0 n : Nat) (waited : Bool) (u : Chan) : (s.runPlan c w j0 n waited u).1.length = n := by
  simp [State.runPlan]

theorem spoiled_of_not_cacheable (s : State) {c w j0 n : Nat} {waited : Bool} {u : Chan} {l : List BusSector}
    (hl : ∀ b ∈ l, b ∈ (s.runPlan c w j0 n waited u).1) (h : ∀ j, j < j0 + n → s.cacheable (s.sectorAt c (meSaddr w + j)) = false) :
    s.spoiled c l = s := by
  rw [State.spoiled, State.spoilRun, rangesWith_of_not_cacheable]
  · rfl
  · intro o ho
    obtain ⟨b, hb, rfl⟩ := List.mem_map.mp ho
    obtain ⟨i, hi, haddr⟩ := runPlan_addr (hl b hb)
    rw [haddr, Nat.add_assoc]
    exact h _ (by omega)

/-! ### A run from its entry's first sector (R289 to R296, R303) -/

/-- The sectors of an entry that starts anew, and how many of them can go on the bus. -/
def freshPlan (s : State) (c w : Nat) : List BusSector × Nat := s.runPlan c w 0 (meCount w) false (s.chan c)
def freshPuts (s : State) (c w : Nat) : Chan × Nat := Chan.puts c (s.actTh c) s.cps (freshPlan s c w).1 ((s.chan c).trim s.cycles)

/-- What of an entry goes on the bus, and is carried out. -/
theorem run_fresh {s : State} {c index w : Nat} (hpart : (s.chan c).part = 0) (hblk : (s.chan c).blocked ≠ index + 1) :
    ∃ (f : Chan → Chan) (flush : Bool) (full plan late : Nat),
      let l := (freshPlan s c w).1.take (freshPuts s c w).2
      let s1 := ((s.spoiled c l).modChan c f).doRun c (meOp w) flush l (s.chanHw c)
      s.run c index w =
        if (freshPuts s c w).2 = meCount w then
          let s2 := s1.modChan c fun u =>
            { u with prevEnd := (freshPlan s c w).2, prevDir := meOp w, prevFull := full, pc := index + 1, part := 0, blocked := 0 }
          if late = 0 then s2 else s2.runSlip c (plan / 8) ((late + 7) / 8)
        else
          ((s1.modChan c fun v => { v.hold (meSaddr w + (freshPuts s c w).2) with
              pc := index, part := (freshPuts s c w).2, blocked := index + 1 }).bump (pgChannel c) MC_HAMMER_COUNT).runSlip c (plan / 8) 0 := by
  unfold State.run
  simp only [hpart, ite_self, hblk, decide_false, Bool.and_false, Nat.sub_zero, Nat.add_zero, Nat.zero_add, ne_eq, not_true_eq_false,
    false_or, Bool.false_eq_true, if_false]
  exact ⟨_, _, _, _, _, rfl⟩

/-- A channel after its own function has acted on it. -/
theorem chan_modChan (s : State) (c : Nat) (f : Chan → Chan) : (s.modChan c f).chan c = f (s.chan c) := by
  rw [State.chan, modChan_chans, aget_aupd_same]; rfl

theorem chan_runSlip (s : State) (c plan late k : Nat) : (s.runSlip c plan late).chan k = s.chan k := by
  unfold State.runSlip
  dsimp only
  rw [State.chan, show (State.slip _ _ _ _ _ _ _).chans = _ from slip_same _ _ _ _ _ _ _ (k := .chans) (by decide),
    show (s.bump (pgChannel c) MC_SLIP_COUNT).chans = s.chans from sameBut_bump _ _ _ _ _ .chans (by decide)]
  rfl

/-- An entry of the channel's program that is next in its epoch, on a live channel. -/
structure nextRun (s : State) (c index : Nat) (b : Bytes) (w i v : Nat) : Prop where
  sect : s.chanSect c = some b
  entry : chanEntry b index = some w
  timed : timedAt b index = some (i, v)
  playing : s.playing (s.partOfRiser (c / 32)) = true
  next : s.nextEntry c b (s.chan c) = some index
  live : s.chanLive c = true

theorem exec_memoryRun {s : State} {c : Fin 256} {index : Nat} {b : Bytes} {w i v : Nat} (h : nextRun s c index b w i v) :
    exec (.memoryRun c index) s = finish (tiled ++ [.undef, .chans, .slices]) s
      (if s.out (pgChannel c) then
        (s.modChan c fun u => { u with pc := index + 1, ranAt := s.epoch + 1 }).slip (pgChannel c) (s.partOfRiser (c / 32))
          (s.relEpoch (s.partOfRiser (c / 32))) (s.absCycle (stampSlot v) (stampCyc v) / s.cps % 4096)
          (s.absCycle (stampSlot v) (stampCyc v) % s.cps) 0
      else s.run c index w) := by
  rw [show exec (.memoryRun c index) s = execMemoryRun c index s from rfl, execMemoryRun]
  dsimp only
  rw [h.sect]
  dsimp only
  rw [h.entry, h.timed]
  dsimp only
  rw [if_pos (by simp [h.playing, h.next, h.live])]

/-- An entry all of whose sectors go on the bus. -/
theorem leads_memoryRun_done {s : State} {c : Fin 256} {index : Nat} {b : Bytes} {w i v : Nat} (h : nextRun s c index b w i v)
    (hin : s.out (pgChannel c) = false) (hpart : (s.chan c).part = 0) (hblk : (s.chan c).blocked ≠ index + 1)
    (hall : (freshPuts s c w).2 = meCount w) : Leads (.memoryRun c index) s fun t =>
      (t.chan c).pc = index + 1 ∧ (t.chan c).prevDir = meOp w ∧ (t.chan c).prevEnd = (freshPlan s c w).2 ∧
      (∀ c', c' ≠ c.val → t.chan c' = s.chan c') ∧
      (meOp w = 1 → storeSame (s.spoiled c (freshPlan s c w).1) t) := by
  obtain ⟨f, flush, full, plan, late, hrun⟩ := run_fresh (s := s) (c := c) (w := w) hpart hblk
  have hl : (freshPlan s c w).1.take (freshPuts s c w).2 = (freshPlan s c w).1 := by
    rw [hall]
    exact List.take_of_length_le (Nat.le_of_eq (length_runPlan s c w 0 (meCount w) false (s.chan c)))
  obtain ⟨s0, hs0⟩ : ∃ s0, s0 = s.spoiled c (freshPlan s c w).1 := ⟨_, rfl⟩
  obtain ⟨s1, hs1⟩ : ∃ s1, s1 = (s0.modChan c f).doRun c (meOp w) flush (freshPlan s c w).1 (s.chanHw c) := ⟨_, rfl⟩
  obtain ⟨s2, hs2⟩ : ∃ s2, s2 = s1.modChan c fun u =>
    { u with prevEnd := (freshPlan s c w).2, prevDir := meOp w, prevFull := full, pc := index + 1, part := 0, blocked := 0 } := ⟨_, rfl⟩
  have hexec : exec (.memoryRun c index) s = finish (tiled ++ [.undef, .chans, .slices]) s
      (if late = 0 then s2 else s2.runSlip c (plan / 8) ((late + 7) / 8)) := by
    rw [exec_memoryRun h, if_neg (by simp [hin]), hrun, if_pos hall, hl, ← hs0, ← hs1, ← hs2]
  have hchan : s2.chan c = { s1.chan c with
      prevEnd := (freshPlan s c w).2, prevDir := meOp w, prevFull := full, pc := index + 1, part := 0, blocked := 0 } := by
    rw [hs2, chan_modChan]
  have step : chanStep c s s2 := by
    rw [hs2, hs1, hs0]
    exact chanStep_trans (chanStep_trans (chanStep_spoiled s _ _) (chanStep_trans (chanStep_modChan _ _) (chanStep_doRun c.isLt _ _ _ _ _)))
      (chanStep_modChan _ _)
  have stored : meOp w = 1 → storeSame s0 s2 := fun hop => by
    rw [hs2, hs1]
    exact storeSame_trans (t := s0.modChan c f) ⟨rfl, rfl, rfl⟩ (storeSame_trans (storeSame_doRun_read _ _ hop _ _ _) ⟨rfl, rfl, rfl⟩)
  have last : ∀ t : State, (t = s2 ∨ t = s2.runSlip c (plan / 8) ((late + 7) / 8)) →
      (∀ k, t.chan k = s2.chan k) ∧ storeSame s2 t := by
    rintro t (rfl | rfl)
    · exact ⟨fun _ => rfl, rfl, rfl, rfl⟩
    · exact ⟨chan_runSlip _ _ _ _, storeSame_runSlip _ _ _ _⟩
  obtain ⟨t, ht⟩ : ∃ t, t = (if late = 0 then s2 else s2.runSlip c (plan / 8) ((late + 7) / 8)) := ⟨_, rfl⟩
  obtain ⟨hchans, hstore⟩ := last t (by rw [ht]; split <;> simp)
  rw [← ht] at hexec
  have here : t.chan c = s2.chan c := hchans c
  refine ⟨_, hexec, ?_⟩
  rw [← hs0]
  refine ⟨?_, ?_, ?_, fun c' hc' => (hchans c').trans (step.1 c' hc'), fun hop => storeSame_trans (stored hop) hstore⟩
  · change (t.chan c).pc = _
    rw [here, hchan]
  · change (t.chan c).prevDir = _
    rw [here, hchan]
  · change (t.chan c).prevEnd = _
    rw [here, hchan]

/-- An entry of which a row waits for its targeted refresh. -/
theorem leads_memoryRun_blocked {s : State} {c : Fin 256} {index : Nat} {b : Bytes} {w i v : Nat} (h : nextRun s c index b w i v)
    (hin : s.out (pgChannel c) = false) (hpart : (s.chan c).part = 0) (hblk : (s.chan c).blocked ≠ index + 1)
    (hfew : (freshPuts s c w).2 < meCount w)
    (hcache : ∀ k, k < meCount w → s.cacheable (s.sectorAt c (meSaddr w + k)) = false) : Leads (.memoryRun c index) s fun t =>
      (t.chan c).pc = index ∧ (t.chan c).blocked = index + 1 ∧ (meOp w = 1 → t.mem = s.mem) ∧ (t.chan c).part = (freshPuts s c w).2 ∧
      t.rd (pgChannel c) MC_HAMMER_COUNT = min (s.rd (pgChannel c) MC_HAMMER_COUNT + 1) (2 ^ MC_HAMMER_COUNT.width - 1) := by
  obtain ⟨f, flush, full, plan, late, hrun⟩ := run_fresh (s := s) (c := c) (w := w) hpart hblk
  obtain ⟨l, hl⟩ : ∃ l, l = (freshPlan s c w).1.take (freshPuts s c w).2 := ⟨_, rfl⟩
  have hspoil : s.spoiled c l = s := by
    refine spoiled_of_not_cacheable s (w := w) (j0 := 0) (n := meCount w) (waited := false) (u := s.chan c)
      (fun b hb => List.mem_of_mem_take (hl ▸ hb)) fun j hj => hcache j (by omega)
  obtain ⟨s1, hs1⟩ : ∃ s1, s1 = (s.modChan c f).doRun c (meOp w) flush l (s.chanHw c) := ⟨_, rfl⟩
  obtain ⟨s2, hs2⟩ : ∃ s2, s2 = s1.modChan c fun v =>
    { v.hold (meSaddr w + (freshPuts s c w).2) with pc := index, part := (freshPuts s c w).2, blocked := index + 1 } := ⟨_, rfl⟩
  have hexec : exec (.memoryRun c index) s = finish (tiled ++ [.undef, .chans, .slices]) s
      ((s2.bump (pgChannel c) MC_HAMMER_COUNT).runSlip c (plan / 8) 0) := by
    rw [exec_memoryRun h, if_neg (by simp [hin]), hrun, if_neg (by omega), ← hl, hspoil, ← hs1, ← hs2]
  have hchan : s2.chan c = { (s1.chan c).hold (meSaddr w + (freshPuts s c w).2) with
      pc := index, part := (freshPuts s c w).2, blocked := index + 1 } := by
    rw [hs2, chan_modChan]
  have step : chanStep c s s2 := by
    rw [hs2, hs1]
    exact chanStep_trans (chanStep_trans (chanStep_modChan _ _) (chanStep_doRun c.isLt _ _ _ _ _)) (chanStep_modChan _ _)
  obtain ⟨s3, hs3⟩ : ∃ s3, s3 = s2.bump (pgChannel c) MC_HAMMER_COUNT := ⟨_, rfl⟩
  obtain ⟨t, ht⟩ : ∃ t, t = s3.runSlip c (plan / 8) 0 := ⟨_, rfl⟩
  have here : t.chan c = s2.chan c := by
    rw [ht, chan_runSlip, State.chan, hs3,
      show (s2.bump (pgChannel c) MC_HAMMER_COUNT).chans = s2.chans from sameBut_bump _ _ _ _ _ .chans (by decide)]
    rfl
  have hmem : meOp w = 1 → t.mem = s.mem := fun hop => by
    rw [ht, (storeSame_runSlip _ _ _ _).1, hs3,
      show (s2.bump (pgChannel c) MC_HAMMER_COUNT).mem = s2.mem from sameBut_bump _ _ _ _ _ .mem (by decide), hs2, hs1]
    exact (storeSame_doRun_read (s.modChan c f) _ hop _ _ _).1
  have hcount : t.rd (pgChannel c) MC_HAMMER_COUNT = min (s.rd (pgChannel c) MC_HAMMER_COUNT + 1) (2 ^ MC_HAMMER_COUNT.width - 1) := by
    rw [ht, (chanStep_runSlip (c := c) _ _ _ c.isLt).2 MC_HAMMER_COUNT (by decide) c c.isLt, hs3, rd_bump_same,
      step.2 MC_HAMMER_COUNT (by decide) c c.isLt]
  rw [← hs3, ← ht] at hexec
  refine ⟨_, hexec, ?_, ?_, hmem, ?_, hcount⟩
  · change (t.chan c).pc = _
    rw [here, hchan]
  · change (t.chan c).blocked = _
    rw [here, hchan]
  · change (t.chan c).part = _
    rw [here, hchan]

/-- A channel in reset absorbs the entry (R544). -/
theorem leads_memoryRun_absorbed {s : State} {c : Fin 256} {index : Nat} {b : Bytes} {w i v : Nat} (h : nextRun s c index b w i v)
    (hout : s.out (pgChannel c) = true) : Leads (.memoryRun c index) s fun t =>
      (t.chan c).pc = index + 1 ∧ t.mem = s.mem ∧ t.poison = s.poison := by
  have hexec := exec_memoryRun h
  rw [if_pos hout] at hexec
  refine ⟨_, hexec, ?_, (storeSame_slip ..).1, (storeSame_slip ..).2.2⟩
  change (State.chan (State.slip _ _ _ _ _ _ _) c).pc = _
  rw [State.chan, show (State.slip _ _ _ _ _ _ _).chans = _ from slip_same _ _ _ _ _ _ _ (k := .chans) (by decide)]
  exact congrArg Chan.pc (chan_modChan s c _)

/-! ### What a run within a cacheable range leaves undefined (R332) -/

/-- Nothing is defined at an address. -/
def undefinedAt (s : State) (a : Nat) : Prop := cellAt s.mem a = none ∧ backOf s.undef a = none

theorem cellAt_filter (m : List (Nat × Byte)) (p : Nat × Byte → Bool) (a : Nat) (h : cellAt m a = none) : cellAt (m.filter p) a = none := by
  induction m with
  | nil => rfl
  | cons e m ih =>
    rw [cellAt] at h
    split at h
    · cases h
    · next hne =>
      rw [List.filter_cons]
      split
      · rw [cellAt, if_neg hne]; exact ih h
      · exact ih h

/-- An undefined region is undefined. -/
theorem undefinedAt_undefine (s : State) {b n a : Nat} (hlo : b ≤ a) (hhi : a < b + n) : undefinedAt (s.undefine b n) a := by
  constructor
  · change cellAt (s.mem.filter _) a = none
    generalize s.mem = m
    induction m with
    | nil => rfl
    | cons e m ih =>
      rw [List.filter_cons]
      split
      · next hk =>
        have : a ≠ e.1 := by
          intro he
          have := of_decide_eq_true hk
          omega
        rw [cellAt, if_neg this]; exact ih
      · exact ih
  · change backOf ((b, n, some s.free) :: _) a = none
    rw [backOf, if_pos ⟨hlo, hhi⟩]

/-- It stays undefined as other regions become so. -/
theorem undefinedAt_undefine_of (s : State) (b n : Nat) {a : Nat} (h : undefinedAt s a) : undefinedAt (s.undefine b n) a := by
  by_cases hin : b ≤ a ∧ a < b + n
  · exact undefinedAt_undefine s hin.1 hin.2
  · refine ⟨cellAt_filter _ _ _ h.1, ?_⟩
    change backOf ((b, n, some s.free) :: s.undef.filter _) a = none
    rw [backOf, if_neg hin, backOf_filter _ _ _ _ hin]
    exact h.2

theorem undefinedAt_spoil (s : State) {e : Nat × Nat × Nat} {a : Nat} (h : e.2.1 ≤ a ∧ a < e.2.1 + e.2.2) : undefinedAt (s.spoil e) a :=
  undefinedAt_undefine s h.1 h.2

theorem undefinedAt_foldl_spoil (l : List (Nat × Nat × Nat)) (s : State) {a : Nat}
    (h : undefinedAt s a ∨ ∃ e ∈ l, e.2.1 ≤ a ∧ a < e.2.1 + e.2.2) : undefinedAt (l.foldl State.spoil s) a := by
  induction l generalizing s with
  | nil =>
    rcases h with h | ⟨e, he, -⟩
    · exact h
    · cases he
  | cons e l ih =>
    refine ih _ ?_
    rcases h with h | ⟨x, hx, hin⟩
    · exact .inl (undefinedAt_undefine_of s e.2.1 e.2.2 h)
    · rcases List.mem_cons.mp hx with rfl | hx
      · exact .inl (undefinedAt_spoil s hin)
      · exact .inr ⟨x, hx, hin⟩

/-- A sector in a cacheable range lies in a range that its run spoils. -/
theorem mem_rangesWith {s : State} {os : List Nat} {o : Nat} (ho : o ∈ os) (hc : s.cacheable o = true) :
    ∃ e ∈ s.rangesWith os, e.2.1 ≤ o ∧ o < e.2.1 + e.2.2 := by
  obtain ⟨i, hi, hin⟩ := List.any_eq_true.mp hc
  obtain ⟨hvalid, hbounds⟩ := Bool.and_eq_true_iff.mp hin
  obtain ⟨hlo, hhi⟩ := of_decide_eq_true hbounds
  refine ⟨(o / 0x1400000000, o / 0x1400000000 * 0x1400000000 + s.rd (pgSlice (o / 0x1400000000)) SB_CRANGE_BASE i * 2 ^ 26,
    s.rd (pgSlice (o / 0x1400000000)) SB_CRANGE_COUNT i * 2 ^ 26), ?_, ?_, ?_⟩
  · refine List.mem_flatten.mpr ⟨_, List.mem_map.mpr ⟨o / 0x1400000000, List.mem_eraseDups.mpr (List.mem_map.mpr ⟨o, ho, rfl⟩), rfl⟩, ?_⟩
    refine List.mem_filterMap.mpr ⟨i, hi, if_pos (Bool.and_eq_true_iff.mpr ⟨hvalid, List.any_eq_true.mpr ⟨o, ho, ?_⟩⟩)⟩
    exact decide_eq_true ⟨rfl, hlo, hhi⟩
  · dsimp only
    omega
  · dsimp only
    omega

/-- Settles O20: an entry done, blocked, absorbed, and one within a cacheable range. -/
theorem memoryRunsInOrder : Obligations.MemoryRunsInOrder := by
  unfold Obligations.MemoryRunsInOrder
  refine ⟨fun s c index b w i v hb he ht hp hn hl hin hpart hblk hall hcache => ?_,
    fun s c index b w i v hb he ht hp hn hl hin hpart hblk hfew hcache =>
      leads_memoryRun_blocked ⟨hb, he, ht, hp, hn, hl⟩ hin hpart hblk hfew hcache,
    fun s c index b w i v hb he ht hp hn hl hout => leads_memoryRun_absorbed ⟨hb, he, ht, hp, hn, hl⟩ hout,
    fun s c index b w i v hb he ht hp hn hl hin hpart hblk hall hop => ?_⟩
  · obtain ⟨t, hexec, hpc, hdir, hend, hchans, hstore⟩ := leads_memoryRun_done ⟨hb, he, ht, hp, hn, hl⟩ hin hpart hblk hall
    have hspoil : s.spoiled c (freshPlan s c w).1 = s :=
      spoiled_of_not_cacheable s (fun _ hb => hb) fun j hj => hcache j (by omega)
    exact ⟨t, hexec, hpc, hdir, hend, hchans, fun hop => ⟨(hspoil ▸ hstore hop).1, (hspoil ▸ hstore hop).2.2⟩⟩
  · obtain ⟨t, hexec, hpc, -, -, -, hstore⟩ := leads_memoryRun_done ⟨hb, he, ht, hp, hn, hl⟩ hin hpart hblk hall
    refine ⟨t, hexec, hpc, fun k hk hcache => ?_⟩
    obtain ⟨hmem, hundef, -⟩ := hstore hop
    have planned : s.sectorAt c (meSaddr w + k) ∈ (freshPlan s c w).1.map fun b => s.sectorAt c b.addr :=
      List.mem_map.mpr ⟨_, List.mem_map.mpr ⟨k, List.mem_range.mpr hk, rfl⟩, rfl⟩
    rw [hmem, hundef]
    exact undefinedAt_foldl_spoil _ s (.inr (mem_rangesWith planned hcache))

end Sys2Proof.Machine
end

section
/-!
Proofs of the family 08_stacked_memory.md: the channel's rows store to no byte outside the sectors that are due (O22).
-/

namespace Sys2Proof.Machine

open Sys2Proof

/-! ### What a write of memory can change -/

theorem sameBut_setB (s : State) (a : Nat) (b : Byte) : s.sameBut [.mem] (s.setB a b) := by
  intro k hk
  cases k <;> first | exact absurd (by decide) hk | exact ⟨rfl, rfl⟩ | rfl

theorem sameBut_setBs (s : State) (a : Nat) (bs : Bytes) : s.sameBut [.mem] (s.setBs a bs) := by
  induction bs generalizing s a with
  | nil => exact sameBut_refl _ s
  | cons b bs ih => exact sameBut_trans (sameBut_setB s a b) (ih (s.setB a b) (a + 1))

theorem sameBut_writeMem (s : State) (a : Nat) (d : Bytes) (poison : Nat) : s.sameBut tiled (s.writeMem a d poison) := by
  rw [writeMem_eq_foldl]
  refine sameBut_foldl _ (fun t x => ?_) _ s
  unfold State.storeSector
  split
  · exact sameBut_refl _ t
  · exact sameBut_trans (sameBut_mono (sameBut_setBs t _ _) (by decide)) (sameBut_mono (sameBut_mark _ _ _) (by decide))

/-! ### Undefining elsewhere -/

theorem undefByte_filter (l : List (Nat × Nat × Option Nat)) (b n a : Nat) (h : ¬(b ≤ a ∧ a < b + n)) :
    undefByte (l.filter fun r => decide (¬(b ≤ r.1 ∧ r.1 + r.2.1 ≤ b + n))) a = undefByte l a := by
  induction l with
  | nil => rfl
  | cons e l ih =>
    obtain ⟨c, m, t⟩ := e
    rw [List.filter_cons]
    split
    · simp only [undefByte, ih]
    · next hin =>
      have hin : b ≤ c ∧ c + m ≤ b + n := by simpa using hin
      rw [ih]
      simp only [undefByte]
      rw [if_neg (by omega)]

theorem cellAt_filter_of (m : List (Nat × Byte)) (p : Nat × Byte → Bool) (a : Nat) (h : ∀ v, p (a, v) = true) :
    cellAt (m.filter p) a = cellAt m a := by
  induction m with
  | nil => rfl
  | cons e m ih =>
    obtain ⟨k, v⟩ := e
    rw [List.filter_cons]
    split
    · rw [cellAt, cellAt, ih]
    · next hp =>
      have : a ≠ k := fun he => hp (he ▸ h v)
      rw [ih, cellAt, if_neg this]

/-- A byte outside a region that becomes undefined reads as before. -/
theorem getB_undefine_outside (s : State) {b n a : Nat} (h : a < b ∨ b + n ≤ a) : (s.undefine b n).getB a = s.getB a := by
  have hmem : cellAt (s.undefine b n).mem a = cellAt s.mem a := cellAt_filter_of s.mem _ a fun v => decide_eq_true h
  have hundef : undefByte (s.undefine b n).undef a = undefByte s.undef a := by
    change undefByte ((b, n, some s.free) :: s.undef.filter _) a = _
    simp only [undefByte]
    rw [if_neg (by omega), undefByte_filter _ _ _ _ (by omega)]
  rw [State.getB, State.getB, hmem, hundef]

/-! ### Due sectors (R295) -/

theorem getB_modChan (s : State) (c : Nat) (f : Chan → Chan) (a : Nat) : (s.modChan c f).getB a = s.getB a := getB_congr rfl rfl a

/-- Address `a` lies in none of the sectors that channel `c` owes. -/
def duesOutside (s : State) (c a : Nat) : Prop :=
  ∀ d ∈ (s.chan c).due, a < s.sectorAt c d.addr ∨ s.sectorAt c d.addr + 64 ≤ a

theorem sectorAt_of_step {c : Nat} {s t : State} (h : chanStep c s t) (hc : c < 256) (x : Nat) : t.sectorAt c x = s.sectorAt c x := by
  rw [State.sectorAt, State.sectorAt, h.2 MC_SEED_SEED (by decide) _ (by omega)]

theorem duesOutside_of {c a : Nat} {s t : State} (h : chanStep c s t) (hc : c < 256) (hdue : ∀ d ∈ (t.chan c).due, d ∈ (s.chan c).due)
    (hs : duesOutside s c a) : duesOutside t c a := fun d hd => by
  rw [sectorAt_of_step h hc]
  exact hs d (hdue d hd)

theorem chan_writeLate (s : State) (c k : Nat) (d : DueSector) : (s.writeLate c d).chan k = s.chan k := by
  unfold State.writeLate
  dsimp only
  rw [State.chan, show (State.slip _ _ _ _ _ _ _).chans = _ from slip_same _ _ _ _ _ _ _ (k := .chans) (by decide),
    show (State.bump _ (pgChannel c) MC_WLATE_COUNT).chans = _ from sameBut_bump _ _ _ _ _ .chans (by decide),
    show (s.mark _ true).chans = s.chans from sameBut_mark s _ true .chans (by decide)]
  rfl

theorem getB_writeLate (s : State) (c : Nat) (d : DueSector) (a : Nat) : (s.writeLate c d).getB a = s.getB a := by
  unfold State.writeLate
  dsimp only
  obtain ⟨hmem, hundef, -⟩ := storeSame_slip ((s.mark (s.sectorAt c d.addr) true).bump (pgChannel c) MC_WLATE_COUNT) (pgChannel c)
    (s.partOfRiser (c / 32)) (s.relEpoch (s.partOfRiser (c / 32))) (d.start / 8 / s.cps % 4096) (d.start / 8 % s.cps) 0
  rw [getB_congr hmem hundef, getB_congr (sameBut_bump _ _ _ _ _ .mem (by decide)) (sameBut_bump _ _ _ _ _ .undef (by decide)), mark_getB]

theorem chan_writeSector (s : State) (c k : Nat) (d : DueSector) (w : BWord) (i : Nat) : (s.writeSector c d w i).chan k = s.chan k := by
  unfold State.writeSector
  dsimp only
  split
  · rfl
  · rw [State.chan, show (s.writeMem _ _ _).chans = s.chans from sameBut_writeMem s _ _ _ .chans (by decide)]
    rfl

theorem getB_writeSector (s : State) (c : Nat) (d : DueSector) (w : BWord) (i : Nat) {a : Nat}
    (h : a < s.sectorAt c d.addr ∨ s.sectorAt c d.addr + 64 ≤ a) : (s.writeSector c d w i).getB a = s.getB a := by
  unfold State.writeSector
  dsimp only
  split
  · exact getB_undefine_outside s h
  · refine writeMem_getB_outside s _ ?_
    rw [slice_length]
    exact h

theorem serveDue_outside {c : Nat} (hc : c < 256) (t hw n : Nat) {a : Nat} (s : State) (h : duesOutside s c a) :
    (s.serveDue c t hw n).getB a = s.getB a ∧ duesOutside (s.serveDue c t hw n) c a := by
  induction n generalizing s with
  | zero => exact ⟨rfl, h⟩
  | succ n ih =>
    rw [State.serveDue]
    dsimp only
    cases hdue : (s.chan c).due with
    | nil => exact ⟨rfl, h⟩
    | cons d ds =>
      dsimp only
      obtain ⟨s0, hs0⟩ : ∃ s0, s0 = s.modChan c fun u => { u with due := ds } := ⟨_, rfl⟩
      have step0 : chanStep c s s0 := hs0 ▸ chanStep_modChan s _
      have due0 : (s0.chan c).due = ds := by rw [hs0, chan_modChan]
      have first : a < s0.sectorAt c d.addr ∨ s0.sectorAt c d.addr + 64 ≤ a := by
        rw [sectorAt_of_step step0 hc]
        exact h d (by rw [hdue]; exact List.mem_cons_self ..)
      have getB0 : s0.getB a = s.getB a := hs0 ▸ getB_congr rfl rfl a
      have go : ∀ u : State, chanStep c s0 u → (u.chan c).due = ds → u.getB a = s0.getB a →
          (u.serveDue c t hw n).getB a = s.getB a ∧ duesOutside (u.serveDue c t hw n) c a := fun u hstep hu hget => by
        have out : duesOutside u c a := duesOutside_of (chanStep_trans step0 hstep) hc
          (fun x hx => by rw [hdue]; rw [hu] at hx; exact List.mem_cons_of_mem _ hx) h
        exact ⟨(ih u out).1.trans (hget.trans getB0), (ih u out).2⟩
      have due_passOver : ∀ (u : Chan) (fl : Bool), (u.passOver fl).due = u.due := fun u fl => by
        unfold Chan.passOver
        split <;> rfl
      have late := go ((s0.writeLate c d).modChan c fun u => u.passOver d.flush)
        (chanStep_trans (chanStep_writeLate s0 d hc) (chanStep_modChan _ _))
        (by rw [chan_modChan, due_passOver, chan_writeLate, due0])
        (by rw [getB_modChan, getB_writeLate])
      rw [← hs0]
      split
      · split
        · exact go _ (chanStep_trans (chanStep_writeSector _ _ _ _ _) (chanStep_modChan _ _))
            (by rw [chan_modChan, chan_writeSector, due0]) (by rw [getB_modChan, getB_writeSector s0 c d _ _ first])
        · exact late
      · split
        · exact late
        · exact ⟨rfl, h⟩

theorem serveAll_outside {c : Nat} (hc : c < 256) (t hw : Nat) {a : Nat} (s : State) (h : duesOutside s c a) :
    (s.serveAll c t hw).getB a = s.getB a ∧ duesOutside (s.serveAll c t hw) c a := serveDue_outside hc t hw _ s h

/-! ### A run's sectors -/

theorem due_activate (u : Chan) (th bank row : Nat) : (u.activate th bank row).due = u.due := by
  unfold Chan.activate Chan.queueRow
  dsimp only
  split
  · split <;> rfl
  · rfl

theorem due_open (u : Chan) (c th n a : Nat) : (u.open c th n a).due = u.due := by
  have activated := due_activate u th (bankOf a) (rowOf a)
  unfold Chan.open
  generalize u.activate th (bankOf a) (rowOf a) = v at activated ⊢
  generalize bankOf a = k
  generalize rowOf a = r
  dsimp only
  split
  · rfl
  · exact activated

theorem due_put (u : Chan) (c th cps : Nat) (b : BusSector) : (u.put c th cps b).due = u.due := by
  rw [show (u.put c th cps b).due = (u.open c th (b.start / 8 / cps) b.addr).due from rfl, due_open]

theorem due_puts (c th cps : Nat) (l : List BusSector) (u : Chan) : (Chan.puts c th cps l u).1.due = u.due := by
  induction l generalizing u with
  | nil => rfl
  | cons b l ih =>
    rw [Chan.puts]
    split
    · rfl
    · exact (ih _).trans (due_put u c th cps b)

/-- What a run stores is what its sectors on the bus store. -/
theorem run_getB (s : State) (c index w a : Nat) : ∃ (l : List BusSector) (f : Chan → Chan) (flush : Bool) (j0 n : Nat) (waited : Bool),
    j0 + n ≤ max j0 (meCount w) ∧ (∀ b ∈ l, b ∈ (s.runPlan c w j0 n waited (s.chan c)).1) ∧ (∀ u, (f u).due = (s.chan c).due) ∧
    (s.run c index w).getB a = (((s.spoiled c l).modChan c f).doRun c (meOp w) flush l (s.chanHw c)).getB a := by
  have slipped : ∀ (t : State) (plan late : Nat), (t.runSlip c plan late).getB a = t.getB a := fun t plan late =>
    getB_congr (storeSame_runSlip t c plan late).1 (storeSame_runSlip t c plan late).2.1 a
  unfold State.run
  dsimp only
  generalize (if decide ((s.chan c).ranAt = s.epoch + 1 ∧ (s.chan c).pc = index) = true then (s.chan c).part else 0) = j0
  generalize (decide ((s.chan c).ranAt = s.epoch + 1 ∧ (s.chan c).pc = index) && decide ((s.chan c).blocked = index + 1)) = waited
  generalize hx : Chan.puts c (s.actTh c) s.cps (s.runPlan c w j0 (meCount w - j0) waited (s.chan c)).1 ((s.chan c).trim s.cycles) = x
  have hdue : x.1.due = (s.chan c).due := by rw [← hx, due_puts]; rfl
  refine ⟨(s.runPlan c w j0 (meCount w - j0) waited (s.chan c)).1.take x.2,
    fun _ => { x.1 with
      moved := (s.chan c).moved + x.2, ranAt := s.epoch + 1
      prevEnd := (((s.runPlan c w j0 (meCount w - j0) waited (s.chan c)).1.take x.2).getLast?.map BusSector.end_).getD (s.chan c).prevEnd
      prevDir := if ((s.runPlan c w j0 (meCount w - j0) waited (s.chan c)).1.take x.2).isEmpty then (s.chan c).prevDir else meOp w },
    meFlush w && decide (x.2 = meCount w - j0), j0, meCount w - j0, waited, by omega, fun b hb => List.mem_of_mem_take hb,
    fun _ => hdue, ?_⟩
  split
  · split
    · exact getB_congr rfl rfl a
    · exact (slipped _ _ _).trans (getB_congr rfl rfl a)
  · split
    · exact getB_congr rfl rfl a
    · refine (slipped _ _ _).trans ((getB_congr ?_ ?_ a).trans (getB_congr rfl rfl a))
      · exact sameBut_bump _ _ _ _ _ .mem (by decide)
      · exact sameBut_bump _ _ _ _ _ .undef (by decide)

/-- A run stores outside no sector of its entry, or that was due before it. -/
theorem run_outside {s : State} {c : Nat} (hc : c < 256) (index w : Nat) {a : Nat} (h : duesOutside s c a)
    (hentry : ∀ j, j < meCount w → a < s.sectorAt c (meSaddr w + j) ∨ s.sectorAt c (meSaddr w + j) + 64 ≤ a)
    (hcache : ∀ j, j < meCount w → s.cacheable (s.sectorAt c (meSaddr w + j)) = false) : (s.run c index w).getB a = s.getB a := by
  obtain ⟨l, f, flush, j0, n, waited, hn, hl, hf, hrun⟩ := run_getB s c index w a
  have planned : ∀ b ∈ l, ∃ j < meCount w, b.addr = meSaddr w + j := fun b hb => by
    obtain ⟨i, hi, haddr⟩ := runPlan_addr (hl b hb)
    exact ⟨j0 + i, by omega, by rw [haddr, Nat.add_assoc]⟩
  have hspoil : s.spoiled c l = s := by
    rw [State.spoiled, State.spoilRun, rangesWith_of_not_cacheable]
    · rfl
    · intro o ho
      obtain ⟨b, hb, rfl⟩ := List.mem_map.mp ho
      obtain ⟨j, hj, haddr⟩ := planned b hb
      rw [haddr]
      exact hcache j hj
  rw [hrun, hspoil, State.doRun]
  dsimp only
  split
  · have read := storeSame_readRun (s.modChan c f) c l
    split
    · exact (getB_congr rfl rfl a).trans (getB_congr read.1 read.2.1 a)
    · exact getB_congr read.1 read.2.1 a
  · refine (serveAll_outside hc 0 _ _ ?_).1.trans (getB_congr rfl rfl a)
    intro d hd
    rw [chan_modChan, chan_modChan, hf] at hd
    rw [sectorAt_of_step (chanStep_trans (chanStep_modChan s f) (chanStep_modChan _ _)) hc]
    rcases List.mem_append.mp hd with hd | hd
    · exact h d hd
    · obtain ⟨e, he, rfl⟩ := List.mem_map.mp hd
      obtain ⟨j, hj, haddr⟩ := planned e.1 (List.fst_mem_of_mem_zipIdx he)
      dsimp only
      rw [haddr]
      exact hentry j hj

/-- Registers count what has been done; memory reads the same. -/
theorem getB_bump (s : State) (pg : Nat) (F : Fld) (n i a : Nat) : (s.bump pg F n i).getB a = s.getB a :=
  getB_congr (sameBut_bump s pg F n i .mem (by decide)) (sameBut_bump s pg F n i .undef (by decide)) a

theorem getB_wr (s : State) (pg : Nat) (F : Fld) (v i a : Nat) : (s.wr pg F v i).getB a = s.getB a := getB_congr rfl rfl a

/-- What a command that may touch memory reads there is what its effect reads. -/
theorem getB_of_exec {l : List Comp} {s t u : State} (hmem : .mem ∈ l) (hundef : .undef ∈ l) (h : finish l s u = .next t) (a : Nat) :
    t.getB a = u.getB a := by
  injection h with h
  refine getB_congr ?_ ?_ a
  · rw [← h, only_mem, if_pos (by simpa using hmem)]
  · rw [← h, only_undef, if_pos (by simpa using hundef)]

theorem maintenance_outside {s t : State} {c : Fin 256} {a : Nat} (h : duesOutside s c a)
    (hexec : exec (.memoryMaintenanceSlot c) s = .next t) : t.getB a = s.getB a := by
  rw [show exec (.memoryMaintenanceSlot c) s = execMemoryMaintenanceSlot c s from rfl, execMemoryMaintenanceSlot] at hexec
  rw [getB_of_exec (by decide) (by decide) hexec]
  dsimp only
  split
  · rfl
  · rw [getB_wr, getB_bump, getB_modChan, (serveAll_outside c.isLt _ _ s h).1]

theorem writeWordArrival_outside {s t : State} {c : Fin 256} {a : Nat} (cyc : Nat) (h : duesOutside s c a)
    (hexec : exec (.writeWordArrival c cyc) s = .next t) : t.getB a = s.getB a := by
  rw [show exec (.writeWordArrival c cyc) s = execWriteWordArrival c cyc s from rfl, execWriteWordArrival] at hexec
  rw [getB_of_exec (by decide) (by decide) hexec]
  dsimp only
  split
  · rfl
  · split
    · rfl
    · next w m _ =>
      obtain ⟨s1, hs1⟩ : ∃ s1, s1 = (if m = true then s.slipAt (pgChannel c) (c / 32) (s.absCycle s.slot cyc) else s) := ⟨_, rfl⟩
      have slipped : s1.getB a = s.getB a ∧ duesOutside s1 c a := by
        rw [hs1]
        split
        · have store := storeSame_slip s (pgChannel c) (s.partOfRiser (c / 32))
            ((epochOf s.cps (s.absCycle s.slot cyc) : Int) - (s.part (s.partOfRiser (c / 32))).base).toNat
            (slotOf s.cps (s.absCycle s.slot cyc)) (cycOf s.cps (s.absCycle s.slot cyc)) 0
          refine ⟨getB_congr store.1 store.2.1 a, duesOutside_of (chanStep_slip s _ _ _ _ _ (partOfRiser_lt s (by omega))) c.isLt ?_ h⟩
          intro d hd
          rwa [State.slipAt, State.chan, show (State.slip _ _ _ _ _ _ _).chans = _ from slip_same _ _ _ _ _ _ _ (k := .chans) (by decide)] at hd
        · exact ⟨rfl, h⟩
      rw [← hs1]
      obtain ⟨hget, hout⟩ := serveAll_outside c.isLt (s.absCycle s.slot cyc) (s.chanHw c) s1 slipped.2
      split
      · rw [getB_bump, getB_modChan, hget, slipped.1]
      · have out := duesOutside_of (chanStep_modChan (c := c) (s1.serveAll c (s.absCycle s.slot cyc) (s.chanHw c)) fun u =>
          { u with
            wbuf := (((s1.serveAll c (s.absCycle s.slot cyc) (s.chanHw c)).chan c).wbuf.filter fun e =>
              decide (e.used < 8 ∨ 8 * s.absCycle s.slot cyc < e.until_) ||
                (s1.serveAll c (s.absCycle s.slot cyc) (s.chanHw c)).rewriting c e) ++
              [{ word := w, cycle := s.absCycle s.slot cyc, used := min 8 u.skip }]
            skip := u.skip - 8 }) c.isLt (fun d hd => by rwa [chan_modChan] at hd) hout
        rw [(serveAll_outside c.isLt _ _ _ out).1, getB_modChan, hget, slipped.1]

theorem memoryRun_outside {s t : State} {c : Fin 256} {index : Nat} {b : Bytes} {w a : Nat} (h : duesOutside s c a)
    (hsect : s.chanSect c = some b) (hw : chanEntry b index = some w)
    (hentry : ∀ j, j < meCount w → a < s.sectorAt c (meSaddr w + j) ∨ s.sectorAt c (meSaddr w + j) + 64 ≤ a)
    (hcache : ∀ j, j < meCount w → s.cacheable (s.sectorAt c (meSaddr w + j)) = false)
    (hexec : exec (.memoryRun c index) s = .next t) : t.getB a = s.getB a := by
  rw [show exec (.memoryRun c index) s = execMemoryRun c index s from rfl, execMemoryRun] at hexec
  rw [getB_of_exec (by decide) (by decide) hexec]
  dsimp only
  rw [hsect]
  dsimp only
  rw [hw]
  cases timedAt b index with
  | none => rfl
  | some e =>
    obtain ⟨i, v⟩ := e
    dsimp only
    split
    · split
      · obtain ⟨hmem, hundef, -⟩ := storeSame_slip (s.modChan c fun u => { u with pc := index + 1, ranAt := s.epoch + 1 }) (pgChannel c)
          (s.partOfRiser (c / 32)) (s.relEpoch (s.partOfRiser (c / 32))) (s.absCycle (stampSlot v) (stampCyc v) / s.cps % 4096)
          (s.absCycle (stampSlot v) (stampCyc v) % s.cps) 0
        rw [getB_congr hmem hundef, getB_modChan]
      · exact run_outside c.isLt index w h hentry hcache
    · rfl

/-- Settles O22: the maintenance slot, an arriving word, and a run. -/
theorem channelRowsStoreOnlyDueSectors : Obligations.ChannelRowsStoreOnlyDueSectors := by
  unfold Obligations.ChannelRowsStoreOnlyDueSectors
  exact fun s t c a h => ⟨maintenance_outside h, fun cyc => writeWordArrival_outside cyc h,
    fun index b w hsect hw hentry hcache => memoryRun_outside h hsect hw hentry hcache⟩

end Sys2Proof.Machine
end

section
/-!
Proofs of the family 08_stacked_memory.md: errors and failures of a channel's wires, of a column group's and of the parting's (O23).
-/

namespace Sys2Proof.Machine

open Sys2Proof

/-! ### Where an address lies, and the room of its channel's table of poison -/

theorem channelOf_sector (o seed : Nat) : channelOf (o / 64 * 64) seed = channelOf o seed := by
  have hq : ∀ i, 6 ≤ i → o / 64 * 64 / 2 ^ i = o / 2 ^ i := fun i hi => by
    obtain ⟨j, rfl⟩ : ∃ j, i = 6 + j := ⟨i - 6, by omega⟩
    rw [pow_add, ← Nat.div_div_eq_div_mul, ← Nat.div_div_eq_div_mul]
    congr 1
    omega
  simp only [channelOf, hq 8 (by omega), hq 13 (by omega), hq 18 (by omega), hq 23 (by omega), hq 28 (by omega)]

/-- The channel of an address is that of its sector. -/
theorem chanAt_sector (s : State) (a : Nat) : s.chanAt (a / 64 * 64) = s.chanAt a := by
  have hr : a / 64 * 64 / 0x1400000000 = a / 0x1400000000 := by omega
  have ho : a / 64 * 64 % 0x1400000000 = a % 0x1400000000 / 64 * 64 := by omega
  rw [State.chanAt, hr, ho, channelOf_sector]
  rfl

theorem chanAt_of_seed {s t : State} (h : ∀ pg, t.rd pg MC_SEED_SEED = s.rd pg MC_SEED_SEED) (a : Nat) : t.chanAt a = s.chanAt a := by
  simp only [State.chanAt, h]

theorem poisonEntries_of_seed {s t : State} (h : ∀ pg, t.rd pg MC_SEED_SEED = s.rd pg MC_SEED_SEED) (hp : t.poison = s.poison) (c : Nat) :
    t.poisonEntries c = s.poisonEntries c := by
  simp only [State.poisonEntries, chanAt_of_seed h, hp]

/-- A mark for which the channel's table has room. -/
theorem mark_of_room (s : State) {a : Nat} (ha : a < 0xA000000000) (h : (s.poisonEntries (s.chanAt a)).length < 4096) :
    s.mark a true = s.setPoison a true := by
  simp [State.mark, ha, h]

theorem poisoned_sector (s : State) (a : Nat) : s.poisoned (a / 64 * 64) = s.poisoned a :=
  poisoned_congr_sector s (by simp only [sectorOf]; omega)

theorem awaitRewrite_same (s : State) (a : Nat) : s.sameBut [.poison] (s.awaitRewrite a) := by
  unfold State.awaitRewrite
  split
  · intro k hk
    cases k <;> first | exact absurd (by decide) hk | exact ⟨rfl, rfl⟩ | rfl
  · exact fun k _ => Comp.same_refl k s

theorem poisoned_awaitRewrite {s : State} {a : Nat} (h : s.poisoned a = true) : (s.awaitRewrite a).poisoned a = true := by
  rw [State.awaitRewrite, if_pos h, State.poisoned]
  simp [aget_aset_same]

/-! ### A beat whose parity fails on a channel -/

/-- A failed beat marks its sector, where the channel's table has room for the mark. -/
theorem beatFails_marks (s : State) {c a x : Nat} (hr : (s.chan c).reading a = false) (hx : x < 0xA000000000)
    (hroom : (s.poisonEntries (s.chanAt x)).length < 4096) :
    (s.beatFails c a x).poisoned x = true ∧ (s.beatFails c a x).regs = s.regs := by
  unfold State.beatFails
  dsimp only
  rw [hr, Bool.false_and, if_neg Bool.false_ne_true]
  have hset : ∀ u : State, u.regs = s.regs → u.poison = s.poison → u.mark x true = u.setPoison x true := fun u hu hp => by
    refine mark_of_room u hx ?_
    rw [poisonEntries_of_seed (fun pg => rd_congr hu ..) hp, chanAt_of_seed (fun pg => rd_congr hu ..)]
    exact hroom
  split
  · rw [hset (s.modChan c _) rfl rfl]
    exact ⟨poisoned_awaitRewrite (poisoned_setPoison _ _ _), (awaitRewrite_same _ x .regs (by decide)).1⟩
  · rw [hset s rfl rfl]
    exact ⟨poisoned_setPoison _ _ _, rfl⟩

theorem quietFld_chan {c : Nat} (hc : c < 256) {F : Fld} (hin : F.inPage 0) (h44 : 44 ≤ F.at 0) : quietFld (pgChannel c) F 0 :=
  quietFld_of_page hin h44 (pgChannel_plain hc).1 (pgChannel_plain hc).2.1

theorem laneParity_same (s : State) (pg g n : Nat) {k : Comp} (h : k ∉ evented) : k.same s (s.laneParity pg g n) := raise_same _ _ _ _ k h

theorem rd_laneParity (s : State) (pg g n : Nat) {pg' : Nat} {F : Fld} {i : Nat} (h : quietFld pg' F i) :
    (s.laneParity pg g n).rd pg' F i = s.rd pg' F i := rd_raise_quiet _ _ _ _ h

/-- A beat that fails is counted on its channel's page with its group, and kept among the group's errors. -/
def State.beatCounted (s : State) (c g : Nat) : State :=
  ((s.bump (pgChannel c) MC_PARITY_COUNT).wr (pgChannel c) MC_PARITY_GROUP g).modChan c fun u =>
    { u with errs := aset [] u.errs g (recentErrs (aget [] (s.chan c).errs g) s.cycles)
             declared := if declares (recentErrs (aget [] (s.chan c).errs g) s.cycles) then u.declared ||| 2 ^ g else u.declared }

theorem sameBut_modChan (s : State) (c : Nat) (f : Chan → Chan) : s.sameBut [.chans] (s.modChan c f) := by
  intro k hk
  cases k <;> first | exact absurd (by decide) hk | exact ⟨rfl, rfl⟩ | rfl

theorem beatCounted_same (s : State) (c g : Nat) : s.sameBut [.regs, .chans] (s.beatCounted c g) :=
  sameBut_trans (sameBut_mono (sameBut_trans (sameBut_bump s _ _ _ _) (sameBut_wr _ _ _ _ _)) (by decide))
    (sameBut_mono (sameBut_modChan _ _ _) (by decide))

theorem chan_beatCounted (s : State) (c g : Nat) : ∃ (e : List (Nat × List Nat)) (d : Nat),
    (s.beatCounted c g).chan c = { s.chan c with errs := e, declared := d } := by
  unfold State.beatCounted
  rw [chan_modChan]
  have hchan : ∀ u : State, u.chans = s.chans → u.chan c = s.chan c := fun u h => by rw [State.chan, h]; rfl
  rw [hchan _ (sameBut_trans (sameBut_bump s _ _ _ _) (sameBut_wr _ _ _ _ _) .chans (by decide))]
  exact ⟨_, _, rfl⟩

theorem rd_beatCounted (s : State) {c g : Nat} (hg : g < 8) :
    (s.beatCounted c g).rd (pgChannel c) MC_PARITY_GROUP = g ∧
    (s.beatCounted c g).rd (pgChannel c) MC_PARITY_COUNT =
      min (s.rd (pgChannel c) MC_PARITY_COUNT + 1) (2 ^ MC_PARITY_COUNT.width - 1) := by
  constructor
  · exact rd_wr_fits _ _ _ _ (Nat.lt_of_lt_of_le hg (by decide))
  · exact (rd_wr_apart _ _ _ _ (by decide)).trans (rd_bump_same s _ _ _ _)

theorem exec_laneParityError_beat {s : State} {unit group addr : Nat} (hc : s.chanAt addr = unit) (hu : unit < 256) (hg : group < 8)
    (ha : addr < 0xA000000000) (hs : bit (s.rd (pgChannel unit) MC_SPARES_USED) group = false) :
    exec (.laneParityError 0 unit group addr) s = finish (evented ++ [.poison, .net, .chans, .wires]) s
      (((s.beatCounted unit group).beatFails unit (chanLocal (addr % 0x1400000000) / 64) (addr / 64 * 64)).laneParity (pgChannel unit) group
        (recentErrs (aget [] (s.chan unit).errs group) s.cycles).length) := by
  rw [show exec (.laneParityError 0 unit group addr) s = execLaneParityError 0 unit group addr s from rfl, execLaneParityError]
  simp only [Fin.val_zero, Nat.mod_eq_of_lt hu, Nat.mod_eq_of_lt hg, hs]
  rw [if_neg (by simp; omega)]
  rfl

/-- A beat of a sector in no read word poisons it, and is counted (R309, R305). -/
theorem leads_beatParity_marks {s : State} {unit group addr : Nat} (hc : s.chanAt addr = unit) (hu : unit < 256) (hg : group < 8)
    (ha : addr < 0xA000000000) (hs : bit (s.rd (pgChannel unit) MC_SPARES_USED) group = false)
    (hroom : (s.poisonEntries unit).length < 4096) (hr : (s.chan unit).reading (chanLocal (addr % 0x1400000000) / 64) = false) :
    Leads (.laneParityError 0 unit group addr) s fun t =>
      t.poisoned addr = true ∧ t.mem = s.mem ∧ t.rd (pgChannel unit) MC_PARITY_GROUP = group ∧
      t.rd (pgChannel unit) MC_PARITY_COUNT = min (s.rd (pgChannel unit) MC_PARITY_COUNT + 1) (2 ^ MC_PARITY_COUNT.width - 1) := by
  have hexec := exec_laneParityError_beat hc hu hg ha hs
  obtain ⟨s1, hs1⟩ : ∃ s1, s1 = s.beatCounted unit group := ⟨_, rfl⟩
  have hsame : s.sameBut [.regs, .chans] s1 := hs1 ▸ beatCounted_same s unit group
  have hseed : ∀ pg, s1.rd pg MC_SEED_SEED = s.rd pg MC_SEED_SEED := fun pg => by
    rw [hs1]
    exact (rd_wr_apart _ _ _ _ (by decide)).trans (rd_bump_apart _ _ _ _ (by decide))
  have hread : (s1.chan unit).reading (chanLocal (addr % 0x1400000000) / 64) = false := by
    obtain ⟨e, d, h⟩ := chan_beatCounted s unit group
    rw [hs1, h]
    exact hr
  obtain ⟨hp, hrg⟩ := beatFails_marks s1 hread (x := addr / 64 * 64) (by omega)
    (by rw [poisonEntries_of_seed hseed (hsame .poison (by decide)), chanAt_of_seed hseed, chanAt_sector, hc]; exact hroom)
  rw [← hs1] at hexec
  obtain ⟨t, ht⟩ : ∃ t, t = s1.beatFails unit (chanLocal (addr % 0x1400000000) / 64) (addr / 64 * 64) := ⟨_, rfl⟩
  rw [← ht] at hexec hp hrg
  have hq : quietFld (pgChannel unit) MC_PARITY_GROUP 0 ∧ quietFld (pgChannel unit) MC_PARITY_COUNT 0 :=
    ⟨quietFld_chan hu (by decide) (by decide), quietFld_chan hu (by decide) (by decide)⟩
  have hcount := rd_beatCounted s (c := unit) hg
  rw [← hs1] at hcount
  refine ⟨_, hexec, ?_, ?_, ?_, ?_⟩
  · change (State.laneParity _ _ _ _).poisoned addr = true
    rw [State.poisoned, show (t.laneParity _ _ _).poison = _ from laneParity_same t _ _ _ (k := .poison) (by decide)]
    rw [poisoned_sector] at hp
    exact hp
  · rfl
  · exact (rd_laneParity t _ _ _ hq.1).trans ((rd_congr hrg ..).trans hcount.1)
  · exact (rd_laneParity t _ _ _ hq.2).trans ((rd_congr hrg ..).trans hcount.2)

/-- A beat of a sector that is being read hurts the copy in its read word alone. -/
theorem leads_beatParity_hurts {s : State} {unit group addr : Nat} (hc : s.chanAt addr = unit) (hu : unit < 256) (hg : group < 8)
    (ha : addr < 0xA000000000) (hs : bit (s.rd (pgChannel unit) MC_SPARES_USED) group = false) (hdir : (s.chan unit).prevDir = 1)
    (hr : (s.chan unit).reading (chanLocal (addr % 0x1400000000) / 64) = true) :
    Leads (.laneParityError 0 unit group addr) s fun t =>
      t.poison = s.poison ∧ t.mem = s.mem ∧
      (t.chan unit).ready = ((s.chan unit).hurtRead (chanLocal (addr % 0x1400000000) / 64)).ready := by
  have hexec := exec_laneParityError_beat hc hu hg ha hs
  obtain ⟨s1, hs1⟩ : ∃ s1, s1 = s.beatCounted unit group := ⟨_, rfl⟩
  have hsame : s.sameBut [.regs, .chans] s1 := hs1 ▸ beatCounted_same s unit group
  obtain ⟨e, d, hchan⟩ := chan_beatCounted s unit group
  rw [← hs1] at hexec hchan
  have hfail : s1.beatFails unit (chanLocal (addr % 0x1400000000) / 64) (addr / 64 * 64) =
      s1.modChan unit fun u => u.hurtRead (chanLocal (addr % 0x1400000000) / 64) := by
    unfold State.beatFails
    dsimp only
    refine if_pos ?_
    rw [hchan, Bool.and_eq_true, Bool.or_eq_true]
    exact ⟨hr, .inl (decide_eq_true hdir)⟩
  rw [hfail] at hexec
  refine ⟨_, hexec, ?_, rfl, ?_⟩
  · refine (laneParity_same _ _ _ _ (k := .poison) (by decide)).trans ?_
    exact hsame .poison (by decide)
  change (State.chan (State.laneParity _ _ _ _) unit).ready = _
  rw [State.chan, show (State.laneParity _ _ _ _).chans = _ from laneParity_same _ _ _ _ (k := .chans) (by decide)]
  refine (congrArg Chan.ready (chan_modChan s1 unit _)).trans ?_
  rw [hchan]
  rfl

/-! ### The wires of a column group and of the parting -/

/-- Errors of the same wires that are all past declare nothing. -/
theorem err_declared_of_past (w : Wires) {h t : Nat} (half : Nat) (hpast : ∀ x ∈ w.errs, x.1 = h → x.2 + 256 ≤ t) :
    (w.err h t half).1.declared = w.declared := by
  have hnone : recentErrs ((w.errs.filter fun x => decide (x.1 = h)).map fun x => x.2) t = [t] := by
    rw [recentErrs, List.filter_eq_nil_iff.mpr]
    intro x hx
    obtain ⟨e, he, rfl⟩ := List.mem_map.mp hx
    obtain ⟨hmem, heq⟩ := List.mem_filter.mp he
    have := hpast e hmem (of_decide_eq_true heq)
    simp only [decide_eq_true_eq]
    omega
  simp only [Wires.err, hnone]
  rfl

/-- A group's error counted and its word marked, before the event of it. -/
def State.groupCounted (s : State) (n h group addr : Nat) : State :=
  let k := fkey (pgColumns n) MC_XG_INFO_PARITY group
  let w : Wires := aget {} s.wires (32 * n + group)
  let was := aget (w.parity, 0) s.hot k
  (({ s with hot := ains k (was.1, min 65535 (was.2 + 1)) s.hot }).modWires (32 * n + group) fun _ =>
    { (w.err h s.cycles (if h < 16 then 1 else 2)).1 with parity := min 65535 (w.parity + 1) }).hurtAt (groupInput n group).1 (groupInput n group).2 addr

theorem exec_laneParityError_group (s : State) {n h group : Nat} (addr : Nat) (hn : n < 8) (hh : h < 32) (hg : group < 32) :
    exec (.laneParityError 1 (n + 8 * h) group addr) s = finish (evented ++ [.poison, .net, .chans, .wires]) s
      ((s.groupCounted n h group addr).laneParity (pgColumns n) group
        ((aget {} s.wires (32 * n + group)).err h s.cycles (if h < 16 then 1 else 2)).2) := by
  have hun : (n + 8 * h) % 8 = n := by omega
  have huh : (n + 8 * h) / 8 % 32 = h := by omega
  rw [show exec (.laneParityError 1 (n + 8 * h) group addr) s = execLaneParityError 1 (n + 8 * h) group addr s from rfl,
    execLaneParityError]
  simp only [Fin.val_one, hun, huh, Nat.mod_eq_of_lt hg]
  rfl

theorem leads_groupParity {s : State} {n h group : Nat} (addr : Nat) (hn : n < 8) (hh : h < 32) (hg : group < 32) :
    Leads (.laneParityError 1 (n + 8 * h) group addr) s fun t =>
      (aget {} t.wires (32 * n + group)).parity = min 65535 ((aget {} s.wires (32 * n + group)).parity + 1) ∧
      t.net.hurt = ((groupInput n group).1 * 64 + (groupInput n group).2, addr, 255) :: s.net.hurt ∧
      ((∀ x ∈ (aget {} s.wires (32 * n + group)).errs, x.1 = h → x.2 + 256 ≤ s.cycles) →
        (aget {} t.wires (32 * n + group)).declared = (aget {} s.wires (32 * n + group)).declared) := by
  refine ⟨_, exec_laneParityError_group s addr hn hh hg, ?_⟩
  obtain ⟨u, hu⟩ : ∃ u, u = s.groupCounted n h group addr := ⟨_, rfl⟩
  obtain ⟨e, he⟩ : ∃ e, e = ((aget {} s.wires (32 * n + group)).err h s.cycles (if h < 16 then 1 else 2)).2 := ⟨_, rfl⟩
  have hwires : u.wires = aupd {} s.wires (32 * n + group) fun _ =>
      { ((aget {} s.wires (32 * n + group)).err h s.cycles (if h < 16 then 1 else 2)).1 with
        parity := min 65535 ((aget {} s.wires (32 * n + group)).parity + 1) } := hu ▸ rfl
  have hhurt : u.net.hurt = ((groupInput n group).1 * 64 + (groupInput n group).2, addr, 255) :: s.net.hurt := hu ▸ rfl
  rw [← hu, ← he]
  have hw : (u.laneParity (pgColumns n) group e).wires = _ := laneParity_same u _ _ _ (k := .wires) (by decide)
  have hnt : (u.laneParity (pgColumns n) group e).net = _ := laneParity_same u _ _ _ (k := .net) (by decide)
  refine ⟨?_, ?_, fun hpast => ?_⟩
  · change (aget {} (u.laneParity (pgColumns n) group e).wires _).parity = _
    rw [hw, hwires, aget_aupd_same]
  · change (u.laneParity (pgColumns n) group e).net.hurt = _
    rw [hnt, hhurt]
  · change (aget {} (u.laneParity (pgColumns n) group e).wires _).declared = _
    rw [hw, hwires, aget_aupd_same]
    exact err_declared_of_past _ _ hpast

/-- An error of the parting's wires counted and its words marked, before the event of it. -/
def State.partingCounted (s : State) (d g addr : Nat) : State :=
  let hub := if g < 100 then (if d = 0 then 84 else 81) else (if d = 0 then 86 else 83)
  let s1 := (s.bump pgParting MC_PL_PARITY_COUNT).wrs pgParting [(MC_PL_PARITY_GROUP, g), (MC_PL_PARITY_DIR, d)]
  ((s1.modWires (256 + d) fun _ => ((aget {} s.wires (256 + d)).err g s.cycles 4).1).hurtAt hub 40 addr).hurtAt hub 41 addr

theorem rd_partingCounted (s : State) (d g addr pg : Nat) (F : Fld) : (s.partingCounted d g addr).rd pg F =
    ((s.bump pgParting MC_PL_PARITY_COUNT).wrs pgParting [(MC_PL_PARITY_GROUP, g), (MC_PL_PARITY_DIR, d)]).rd pg F := by
  have hkeep : ∀ (u : State) (f : Wires → Wires) (hub : Nat),
      (((u.modWires (256 + d) f).hurtAt hub 40 addr).hurtAt hub 41 addr).regs = u.regs := fun _ _ _ => rfl
  exact rd_congr (hkeep _ _ _) ..

theorem exec_laneParityError_parting (s : State) {unit group : Nat} (addr : Nat) (hu : unit < 2) (hg : group < 200) :
    exec (.laneParityError 2 unit group addr) s = finish (evented ++ [.poison, .net, .chans, .wires]) s
      ((s.partingCounted unit group addr).laneParity pgParting group ((aget {} s.wires (256 + unit)).err group s.cycles 4).2) := by
  have hexec : exec (.laneParityError 2 unit group addr) s = finish (evented ++ [.poison, .net, .chans, .wires]) s
      ((s.partingCounted (unit % 2) (group % 200) addr).laneParity pgParting (group % 200)
        ((aget {} s.wires (256 + unit % 2)).err (group % 200) s.cycles 4).2) := rfl
  rwa [Nat.mod_eq_of_lt hu, Nat.mod_eq_of_lt hg] at hexec

theorem leads_partingParity {s : State} {unit group : Nat} (addr : Nat) (hu : unit < 2) (hg : group < 200) :
    Leads (.laneParityError 2 unit group addr) s fun t =>
      t.rd pgParting MC_PL_PARITY_GROUP = group ∧ t.rd pgParting MC_PL_PARITY_DIR = unit ∧
      t.rd pgParting MC_PL_PARITY_COUNT = min (s.rd pgParting MC_PL_PARITY_COUNT + 1) (2 ^ MC_PL_PARITY_COUNT.width - 1) := by
  have read : ∀ F, quietFld pgParting F 0 → ∀ e,
      ((s.partingCounted unit group addr).laneParity pgParting group e).rd pgParting F =
        ((s.bump pgParting MC_PL_PARITY_COUNT).wrs pgParting [(MC_PL_PARITY_GROUP, group), (MC_PL_PARITY_DIR, unit)]).rd pgParting F :=
    fun F h _ => (rd_laneParity _ _ _ _ h).trans (rd_partingCounted ..)
  refine ⟨_, exec_laneParityError_parting s addr hu hg, (read _ (by decide) _).trans ?_, (read _ (by decide) _).trans ?_, (read _ (by decide) _).trans ?_⟩
  · rw [rd_wrs_head _ _ _ _ _ _ (by simp +decide)]
    exact Nat.mod_eq_of_lt (Nat.lt_trans hg (by decide))
  · rw [wrs_cons, rd_wrs_head _ _ _ _ _ _ (by simp +decide)]
    exact Nat.mod_eq_of_lt (Nat.lt_of_lt_of_le hu (by decide))
  · rw [rd_wrs_apart _ _ _ _ (by simp +decide)]
    exact rd_bump_same s _ _ _ _

/-! ### Groups and halves that fail -/

theorem quietFld_chanDesc {t : State} {c : Nat} (hc : c < 256) {F : Fld} (hin : F.inPage 0) (h44 : 44 ≤ F.at 0) :
    t.redescribe.rd (pgChannel c) F = t.rd (pgChannel c) F := rd_redescribe t (quietFld_chan hc hin h44)

/-- The first group that fails on a channel leaves the other half in service. -/
theorem failChannel_first (s : State) {c g : Nat} (hc : c < 256) (hg : g < 8) (hbad : (s.chan c).bad = 0)
    (hex : s.rd (pgChannel c) MC_SPARES_EXHAUSTED = 0) :
    (s.failChannel c g).rd (pgChannel c) MC_STATUS_STATE = 3 ∧
    (s.failChannel c g).rd (pgChannel c) MC_STATUS_HALF_UPPER = if g < 4 then 1 else 0 := by
  have hhalf : (decide (g < 4) && halfBad (2 ^ g) 1) = false ∧ halfBad (2 ^ g) 0 = decide (g < 4) := by
    interval_cases g <;> decide
  obtain ⟨s1, hs1⟩ : ∃ s1 : State, s.failChannel c g = (s1.wrs (pgChannel c) [(MC_STATUS_STATE, 3), (MC_STATUS_HALF_UPPER, if g < 4 then 1 else 0)]).raise
      (pgChannel c) ev_MC_HALF_WIDTH (le 1 0 ++ le 1 g ++ le 1 (if g < 4 then 1 else 0)) := by
    rw [State.failChannel]
    simp only [hbad, hex, Nat.zero_or, hhalf.1, hhalf.2, Bool.false_eq_true, if_false, decide_eq_true_eq]
    exact ⟨_, rfl⟩
  rw [hs1, rd_raise_quiet _ _ _ _ (quietFld_chan hc (by decide) (by decide)),
    rd_raise_quiet _ _ _ _ (quietFld_chan hc (by decide) (by decide)), wrs_cons]
  refine ⟨?_, ?_⟩
  · rw [rd_wrs_apart _ _ _ _ (by simp +decide), rd_wr_same]
    rfl
  · rw [rd_wrs_head _ _ _ _ _ _ (by simp)]
    split <;> rfl

theorem leads_channelFailure {s : State} {unit group : Nat} (hu : unit < 256) (hg : group < 8)
    (hd : bit (s.chan unit).declared group = true) (hst : s.rd (pgChannel unit) MC_STATUS_STATE ∈ [1, 2]) (hbad : (s.chan unit).bad = 0)
    (hex : s.rd (pgChannel unit) MC_SPARES_EXHAUSTED = 0) :
    Leads (.laneFailure 0 unit group) s fun t =>
      t.rd (pgChannel unit) MC_STATUS_STATE = 3 ∧ t.rd (pgChannel unit) MC_STATUS_HALF_UPPER = (if group < 4 then 1 else 0) := by
  obtain ⟨s0, hs0⟩ : ∃ s0, s0 = s.modChan unit fun u => { u with declared := setBit u.declared group false } := ⟨_, rfl⟩
  have hexec : exec (.laneFailure 0 unit group) s = finishD (evented ++ [.descs, .chans, .wires]) s (s0.failChannel unit group) := by
    rw [show exec (.laneFailure 0 unit group) s = execLaneFailure 0 unit group s from rfl, execLaneFailure]
    have hnot : ¬ (s.rd (pgChannel unit) MC_STATUS_STATE = 0 ∨ s.rd (pgChannel unit) MC_STATUS_STATE = 5 ∨
        (s.rd (pgChannel unit) MC_STATUS_STATE = 3 ∧ (!decide (s.rd (pgChannel unit) MC_STATUS_HALF_UPPER = group / 4)) = true)) := by
      simp only [List.mem_cons, List.not_mem_nil, or_false] at hst
      omega
    simp only [Fin.val_zero, Nat.mod_eq_of_lt hu, Nat.mod_eq_of_lt hg, hd, Bool.not_true, Bool.false_eq_true, if_false, hnot, hs0]
  have hfirst := failChannel_first s0 hu hg (by rw [hs0, chan_modChan]; exact hbad) (by rw [hs0]; exact hex)
  refine ⟨_, hexec, ?_, ?_⟩
  · exact (quietFld_chanDesc hu (by decide) (by decide)).trans hfirst.1
  · exact (quietFld_chanDesc hu (by decide) (by decide)).trans hfirst.2

theorem leads_channelFailure_none {s : State} {unit group : Nat} (hu : unit < 256) (hg : group < 8)
    (hd : bit (s.chan unit).declared group = false) (hr : s.redescribe = s) :
    Leads (.laneFailure 0 unit group) s fun t => s.sameBut [] t := by
  have hexec : exec (.laneFailure 0 unit group) s = finishD (evented ++ [.descs, .chans, .wires]) s s := by
    rw [show exec (.laneFailure 0 unit group) s = execLaneFailure 0 unit group s from rfl, execLaneFailure]
    simp only [Fin.val_zero, Nat.mod_eq_of_lt hu, Nat.mod_eq_of_lt hg, hd, Bool.not_false, if_true]
  refine ⟨_, hexec, ?_⟩
  rw [hr]
  exact sameBut_only_of (sameBut_refl [] s)

theorem quietFld_columns {n : Nat} (hn : n < 8) {F : Fld} (hin : F.inPage 0) (h44 : 44 ≤ F.at 0) : quietFld (pgColumns n) F 0 := by
  have ht : pgType (pgColumns n) = 0x0021 := by simp only [pgType, pgColumns, pageId]; omega
  have hne : pgColumns n ≠ pgEv := by simp only [pgColumns, pgEv, pageId]; omega
  exact quietFld_of_page hin h44 (by rw [ht]; decide) hne

/-- Two bits of a word put at their place read back. -/
theorem twoBits_put (w : Nat) {j v : Nat} (hj : j < 16) (hv : v < 4) :
    (w - w / 2 ^ (2 * j) % 4 * 2 ^ (2 * j) + v * 2 ^ (2 * j)) % 2 ^ 32 / 2 ^ (2 * j) % 4 = v := by
  obtain ⟨k, hk⟩ : ∃ k, k = 2 ^ (2 * j) := ⟨_, rfl⟩
  have hpos : 0 < k := hk ▸ Nat.two_pow_pos _
  have hsplit : 2 ^ 32 = k * (4 * 2 ^ (30 - 2 * j)) := by
    rw [hk, show (4 : Nat) = 2 ^ 2 from rfl, ← pow_add, ← pow_add]
    congr 1
    omega
  have hle : w / k % 4 * k ≤ w / k * k := Nat.mul_le_mul_right k (Nat.mod_le _ _)
  have hw : w - w / k % 4 * k + v * k = w % k + k * (w / k - w / k % 4 + v) := by
    have h1 := Nat.div_add_mod' w k
    have h2 : (w / k - w / k % 4) * k = w / k * k - w / k % 4 * k := Nat.sub_mul ..
    rw [Nat.mul_comm k, Nat.add_mul, h2]
    omega
  rw [← hk, hw, hsplit, Nat.mod_mul_right_div_self, Nat.add_mul_div_left _ _ hpos, Nat.div_eq_of_lt (Nat.mod_lt _ hpos),
    Nat.mod_mul_right_mod]
  omega

theorem groupState_setGroup (s : State) (n g : Nat) {v : Nat} (hv : v < 4) : (s.setGroup n g v).groupState n g = v := by
  unfold State.groupState State.setGroup
  split
  · dsimp only
    rw [rd_wr_same]
    exact twoBits_put _ (Nat.mod_lt _ (by decide)) hv
  · dsimp only
    rw [rd_wr_same]
    exact twoBits_put _ (Nat.mod_lt _ (by decide)) hv

theorem groupState_congr {s t : State} {n : Nat} (hn : n < 8) (h : ∀ F, quietFld (pgColumns n) F 0 → t.rd (pgColumns n) F = s.rd (pgColumns n) F)
    (g : Nat) : t.groupState n g = s.groupState n g := by
  simp only [State.groupState, h _ (quietFld_columns hn (F := MC_XG_STATE_UP_STATE) (by decide) (by decide)),
    h _ (quietFld_columns hn (F := MC_XG_STATE_DN_STATE) (by decide) (by decide))]

theorem leads_groupFailure {s : State} {n h group : Nat} (hn : n < 8) (hh : h < 2) (hg : group < 32)
    (hd : (bit (aget {} s.wires (32 * n + group)).declared h || bit (aget {} s.wires (32 * n + group)).declared 2) = true)
    (hst : s.groupState n group < 2) :
    Leads (.laneFailure 1 (n + 8 * h) group) s fun t =>
      t.groupState n group = 2 ∧ (aget {} t.wires (32 * n + group)).upper = decide (h = 0) := by
  have hun : (n + 8 * h) % 8 = n := by omega
  have huh : (n + 8 * h) / 8 % 2 = h := by omega
  obtain ⟨s0, hs0⟩ : ∃ s0 : State, s0 = s.modWires (32 * n + group) fun w =>
      { w with declared := setBit (setBit (aget {} s.wires (32 * n + group)).declared h false) 2 false, cut := s.cutNow w.cut } := ⟨_, rfl⟩
  have hexec : exec (.laneFailure 1 (n + 8 * h) group) s = finishD (evented ++ [.descs, .chans, .wires]) s (s0.failGroup n group h) := by
    rw [show exec (.laneFailure 1 (n + 8 * h) group) s = execLaneFailure 1 (n + 8 * h) group s from rfl, execLaneFailure]
    simp only [Fin.val_one, hun, huh, Nat.mod_eq_of_lt hg, hd, if_true, hs0]
  have hregs : s0.regs = s.regs := hs0 ▸ rfl
  have hst0 : s0.groupState n group < 2 := by
    rw [groupState_congr hn fun _ _ => rd_congr hregs ..]
    exact hst
  obtain ⟨u, hu⟩ : ∃ u : State, u = (s0.setGroup n group 2).modWires (32 * n + group) fun w => { w with upper := decide (h = 0) } := ⟨_, rfl⟩
  obtain ⟨info, hfail⟩ : ∃ info, s0.failGroup n group h = u.raise (pgColumns n) ev_MC_HALF_WIDTH info := by
    rw [State.failGroup]
    rw [if_neg (by omega), if_neg (by omega), ← hu]
    exact ⟨_, rfl⟩
  rw [hfail] at hexec
  refine ⟨_, hexec, ?_, ?_⟩
  · have h1 : (u.raise (pgColumns n) ev_MC_HALF_WIDTH info).redescribe.groupState n group = u.groupState n group :=
      groupState_congr hn (fun F hF => (rd_redescribe _ hF).trans (rd_raise_quiet _ _ _ _ hF)) group
    refine h1.trans ?_
    rw [hu]
    exact groupState_setGroup s0 n group (by decide)
  · change (aget {} (State.redescribe _).wires _).upper = _
    rw [show (State.redescribe _).wires = _ from redescribe_same (u.raise (pgColumns n) ev_MC_HALF_WIDTH info) (k := .wires) (by decide),
      show (u.raise _ _ _).wires = _ from raise_same u _ _ _ .wires (by decide), hu]
    rw [State.modWires, aget_aupd_same]

theorem leads_partingFailure {s : State} {d h group : Nat} (hd : d < 2) (hh : h < 2)
    (hdec : (bit (aget {} s.wires (256 + d)).declared h || bit (aget {} s.wires (256 + d)).declared 2) = true)
    (hst : s.rd pgParting (if d = 0 then MC_PL_STATE_CD else MC_PL_STATE_DC) < 2) :
    Leads (.laneFailure 2 (d + 8 * h) group) s fun t =>
      t.rd pgParting (if d = 0 then MC_PL_STATE_CD else MC_PL_STATE_DC) = 2 ∧
      t.rd pgParting (if d = 0 then MC_PL_STATE_CD_UPPER else MC_PL_STATE_DC_UPPER) = 1 - h := by
  have hun : (d + 8 * h) % 2 = d := by omega
  have huh : (d + 8 * h) / 8 % 2 = h := by omega
  obtain ⟨s0, hs0⟩ : ∃ s0 : State, s0 = s.modWires (256 + d) fun w =>
      { w with declared := setBit (setBit (aget {} s.wires (256 + d)).declared h false) 2 false, cut := s.cutNow w.cut } := ⟨_, rfl⟩
  have hexec : exec (.laneFailure 2 (d + 8 * h) group) s = finishD (evented ++ [.descs, .chans, .wires]) s (s0.failParting d h) := by
    rw [show exec (.laneFailure 2 (d + 8 * h) group) s = execLaneFailure 2 (d + 8 * h) group s from rfl, execLaneFailure]
    simp only [Fin.val_two, hun, huh, hdec, if_true, hs0]
  have hregs : s0.regs = s.regs := hs0 ▸ rfl
  obtain ⟨F, hF⟩ : ∃ F, F = if d = 0 then MC_PL_STATE_CD else MC_PL_STATE_DC := ⟨_, rfl⟩
  obtain ⟨U, hU⟩ : ∃ U, U = if d = 0 then MC_PL_STATE_CD_UPPER else MC_PL_STATE_DC_UPPER := ⟨_, rfl⟩
  rw [← hF] at hst
  rw [← hF, ← hU]
  obtain ⟨info, hfail⟩ : ∃ info, s0.failParting d h = (s0.wrs pgParting [(F, 2), (U, 1 - h)]).raise pgParting ev_MC_HALF_WIDTH info := by
    have h0 : s0.rd pgParting F < 2 := (rd_congr hregs ..).trans_lt hst
    rw [State.failParting]
    rw [← hF, ← hU, if_neg (by omega), if_neg (by omega)]
    exact ⟨_, rfl⟩
  have hfld : (quietFld pgParting F 0 ∧ quietFld pgParting U 0) ∧ F.apart 0 U 0 ∧ F.width = 2 ∧ U.width = 1 := by
    subst hF hU
    split <;> decide
  obtain ⟨⟨hqF, hqU⟩, hap, hwF, hwU⟩ := hfld
  rw [hfail] at hexec
  refine ⟨_, hexec, ?_, ?_⟩
  · refine (rd_redescribe _ hqF).trans ((rd_raise_quiet _ _ _ _ hqF).trans ?_)
    rw [rd_wrs_head _ _ _ _ _ _ (by simpa using hap), hwF]
    rfl
  · refine (rd_redescribe _ hqU).trans ((rd_raise_quiet _ _ _ _ hqU).trans ?_)
    rw [wrs_cons, rd_wrs_head _ _ _ _ _ _ (by simp), hwU]
    exact Nat.mod_eq_of_lt (by omega)

/-! ### A sector rewritten after an error (R306) -/

/-- A whole sector written with sound data, where its channel stands. -/
theorem writeMem_sound_sector {s : State} {x : Nat} {d : Bytes} (hx : x % 64 = 0) (hdead : s.deadAt x = false) (hlen : d.length = 64) :
    s.writeMem x d 0 = (s.setBs x d).setPoison x false := by
  have hsec : x / 64 * 64 = x := by omega
  have hbad : dataBad x 64 0 x = false := by simp [dataBad, bit]
  rw [writeMem_one_sector s 0 (by omega) (by omega), hsec, storeSector_of_not_dead hdead, hlen, hbad]
  simp [← hlen, slice_zero_length, State.mark]

/-- A rewrite of a channel's sector is over. -/
def Chan.rewriteDone (u : Chan) (x : Nat) : Chan := { u with rewrite := u.rewrite.filter fun e => decide (e.1 ≠ x) }

theorem find_rewriteDone (u : Chan) (x : Nat) : (u.rewriteDone x).rewrite.find? (fun e => decide (e.1 = x)) = none := by
  rw [List.find?_eq_none]
  intro e he
  have hne := (List.mem_filter.mp he).2
  simpa using hne

theorem leads_writeParityRewrite_passes {s : State} {c : Fin 256} {x : Nat} {d : Bytes}
    (hfind : (s.chan c).rewrite.find? (fun e => decide (e.1 = x)) = some (x, d)) (hx : x % 64 = 0) (hlen : d.length = 64)
    (hdead : s.deadAt x = false) (haw : s.awaiting x = true) (hacc : (s.access c [chanLocal (x % 0x1400000000) / 64] 2).isSome = true) :
    Leads (.writeParityRewrite c x true) s fun t =>
      t.getBs x 64 = d ∧ t.poisoned x = false ∧ (t.chan c).rewrite.find? (fun e => decide (e.1 = x)) = none ∧
      ∀ b, b < x ∨ x + 64 ≤ b → t.getB b = s.getB b := by
  obtain ⟨l, hl⟩ := Option.isSome_iff_exists.mp hacc
  obtain ⟨hfit, hwait⟩ := Option.filter_eq_some_iff.mp hl
  have hwait : s.waitsRefresh c l = false := by simpa using hwait
  obtain ⟨s1, hs1⟩ : ∃ s1, s1 = s.modChan c fun u => u.lend c (s.actTh c) s.cps s.cycles l := ⟨_, rfl⟩
  have hexec : exec (.writeParityRewrite c x true) s = finish (tiled ++ [.chans]) s ((s1.writeMem x d 0).modChan c fun u => u.rewriteDone x) := by
    rw [show exec (.writeParityRewrite c x true) s = execWriteParityRewrite c x true s from rfl, execWriteParityRewrite]
    simp only [hfind, haw, hfit, hwait, hs1, Bool.not_true, Bool.false_eq_true, if_false, if_true]
    rfl
  have hdead1 : s1.deadAt x = false := hs1 ▸ hdead
  rw [writeMem_sound_sector hx hdead1 hlen] at hexec
  obtain ⟨u, hu⟩ : ∃ u, u = (s1.setBs x d).setPoison x false := ⟨_, rfl⟩
  have hundef : (s1.setBs x d).undef = s.undef := (sameBut_setBs s1 x d .undef (by decide)).trans (hs1 ▸ rfl)
  have hmem : u.mem = (s1.setBs x d).mem := hu ▸ rfl
  rw [← hu] at hexec
  obtain ⟨t, ht⟩ : ∃ t, t = s.only (tiled ++ [.chans]) (u.modChan c fun v => v.rewriteDone x) := ⟨_, rfl⟩
  have htmem : t.mem = (s1.setBs x d).mem := ht ▸ hmem
  have htundef : t.undef = (s1.setBs x d).undef := (ht ▸ rfl : t.undef = s.undef).trans hundef.symm
  rw [finish, ← ht] at hexec
  refine ⟨t, hexec, ?_, ?_, ?_, fun b hb => ?_⟩
  · rw [getBs_congr (s := s1.setBs x d) htmem htundef, ← hlen]
    exact getBs_setBs s1 x d
  · rw [ht]
    change u.poisoned x = false
    rw [hu]
    exact poisoned_setPoison _ _ _
  · rw [ht]
    change ((u.modChan c fun v => v.rewriteDone x).chan c).rewrite.find? _ = none
    rw [chan_modChan]
    exact find_rewriteDone _ _
  · rw [getB_congr (s := s1.setBs x d) htmem htundef, getB_setBs_outside _ (by omega), hs1]
    exact getB_modChan s _ _ b

theorem leads_writeParityRewrite_drops {s : State} {c : Fin 256} {x : Nat} (passed : Bool) (haw : s.awaiting x = false) :
    Leads (.writeParityRewrite c x passed) s fun t => t.mem = s.mem ∧ t.poison = s.poison ∧
      (t.chan c).rewrite.find? (fun e => decide (e.1 = x)) = none := by
  cases hf : (s.chan c).rewrite.find? (fun e => decide (e.1 = x)) with
  | none =>
    refine ⟨s.only (tiled ++ [.chans]) s, ?_, rfl, rfl, by exact hf⟩
    rw [show exec (.writeParityRewrite c x passed) s = execWriteParityRewrite c x passed s from rfl, execWriteParityRewrite]
    simp only [hf]
    rfl
  | some e =>
    refine ⟨s.only (tiled ++ [.chans]) (s.modChan c fun u => u.rewriteDone x), ?_, rfl, rfl, ?_⟩
    · rw [show exec (.writeParityRewrite c x passed) s = execWriteParityRewrite c x passed s from rfl, execWriteParityRewrite]
      simp only [hf, haw, Bool.not_false, if_true]
      rfl
    · change ((s.modChan c fun u => u.rewriteDone x).chan c).rewrite.find? _ = none
      rw [chan_modChan]
      exact find_rewriteDone _ _

/-- Settles O23, kind of wires by kind: an error counts before its event, a failure is written before it, and no event moves those fields. -/
theorem wireErrorsAreContained : Obligations.WireErrorsAreContained := by
  unfold Obligations.WireErrorsAreContained
  refine ⟨fun s _ _ _ hc hu hg ha hs hroom hr => leads_beatParity_marks hc hu hg ha hs hroom hr,
    fun s _ _ _ hc hu hg ha hs hdir hr => leads_beatParity_hurts hc hu hg ha hs hdir hr,
    fun s _ _ _ addr hn hh hg => leads_groupParity addr hn hh hg,
    fun s _ _ addr hu hg => leads_partingParity addr hu hg,
    fun s _ _ hu hg hd hst hbad hex => leads_channelFailure hu hg hd hst hbad hex,
    fun s _ _ hu hg hd hr => leads_channelFailure_none hu hg hd hr,
    fun s _ _ _ hn hh hg hd hst => leads_groupFailure hn hh hg hd hst,
    fun s _ _ _ hd hh _ hdec hst => leads_partingFailure hd hh hdec hst,
    fun s c x d hf hx _ hlen hdead haw hacc => leads_writeParityRewrite_passes hf hx hlen hdead haw hacc,
    fun s c x passed haw => leads_writeParityRewrite_drops passed haw⟩

end Sys2Proof.Machine
end

section
/-!
Proofs of the family 08_stacked_memory.md: the full retraining of channels and column groups (O24).
-/

namespace Sys2Proof.Machine

open Sys2Proof

theorem leads_retrainingStart_channel {s : State} {u : Nat} (hu : u < 256) (hslot : s.slot = 0) (hrest : s.atRest (s.partOfRiser (u / 32)) = true)
    (hdue : s.chanDue u = true) (hfree : ∀ i, i < 8 → s.rd (pgChannel (u / 8 * 8 + i)) MC_STATUS_STATE ≠ 4) :
    Leads (.retrainingStart 0 u) s fun t =>
      t.rd (pgChannel u) MC_STATUS_STATE = 4 ∧ (t.chan u).was = s.rd (pgChannel u) MC_STATUS_STATE ∧
      (t.chan u).training = s.time.epochs + 1 := by
  obtain ⟨f, hf⟩ : ∃ f : Chan → Chan, f = fun c => { c with training := s.time.epochs + 1, was := s.rd (pgChannel u) MC_STATUS_STATE } := ⟨_, rfl⟩
  have hall : ((List.range 8).all fun i => decide (s.rd (pgChannel (u / 8 * 8 + i)) MC_STATUS_STATE ≠ 4)) = true := by
    rw [List.all_eq_true]
    exact fun i hi => decide_eq_true (hfree i (List.mem_range.mp hi))
  have hexec : exec (.retrainingStart 0 u) s =
      finish [.regs, .chans, .wires] s ((s.wr (pgChannel u) MC_STATUS_STATE 4).modChan u f) := by
    rw [show exec (.retrainingStart 0 u) s = execRetrainingStart 0 u s from rfl, execRetrainingStart]
    simp only [Nat.mod_eq_of_lt hu, hrest, hslot, hdue, hall, Bool.not_true, Bool.false_eq_true, ne_eq, not_true_eq_false, or_self, if_false,
      Fin.val_zero, if_true, Bool.and_self, hf]
  have hchan := chan_modChan (s.wr (pgChannel u) MC_STATUS_STATE 4) u f
  refine ⟨_, hexec, ?_, ?_, ?_⟩
  · exact rd_wr_fits s (pgChannel u) MC_STATUS_STATE (v := 4) 0 (by decide)
  · exact (congrArg Chan.was hchan).trans (by rw [hf])
  · exact (congrArg Chan.training hchan).trans (by rw [hf])

theorem leads_retrainingStart_none {s : State} (k : Fin 2) {u : Nat} (hu : u < 256)
    (h : s.atRest (s.partOfRiser (u / 32)) = false ∨ s.slot ≠ 0) : Leads (.retrainingStart k u) s fun t => s.sameBut [] t := by
  refine leads_unchanged (l := [.regs, .chans, .wires]) ?_
  rw [show exec (.retrainingStart k u) s = execRetrainingStart k u s from rfl, execRetrainingStart]
  dsimp only
  rw [Nat.mod_eq_of_lt hu, if_pos]
  rcases h with h | h
  · exact .inl (by rw [h]; rfl)
  · exact .inr h

theorem sameBut_modWires (s : State) (g : Nat) (f : Wires → Wires) : s.sameBut [.wires] (s.modWires g f) := by
  intro k hk
  cases k <;> first | exact absurd (by decide) hk | exact ⟨rfl, rfl⟩ | rfl

theorem leads_retrainingStart_group {s : State} {u : Nat} (hu : u < 256) (hslot : s.slot = 0) (hrest : s.atRest (s.partOfRiser (u / 32)) = true)
    (hst : s.groupState (u / 32) (u % 32) = 2) (hno : (aget {} s.wires u).training = 0) :
    Leads (.retrainingStart 1 u) s fun t => (aget {} t.wires u).training = s.time.epochs + 1 ∧ s.sameBut [.wires] t := by
  obtain ⟨f, hf⟩ : ∃ f : Wires → Wires, f = fun w => { w with training := s.time.epochs + 1, was := 2 } := ⟨_, rfl⟩
  have hexec : exec (.retrainingStart 1 u) s = finish [.regs, .chans, .wires] s (s.modWires u f) := by
    rw [show exec (.retrainingStart 1 u) s = execRetrainingStart 1 u s from rfl, execRetrainingStart]
    simp only [Nat.mod_eq_of_lt hu, hrest, hslot, Bool.not_true, Bool.false_eq_true, ne_eq, not_true_eq_false, or_self, if_false,
      Fin.val_one, one_ne_zero, hst, hno, decide_true, Bool.or_true, Bool.and_true, hf]
    rfl
  refine ⟨_, hexec, ?_, sameBut_only_of (sameBut_modWires s u f)⟩
  exact (congrArg Wires.training (aget_aupd_same ..)).trans (by rw [hf])

/-! ### A channel trained -/

theorem aget_snd_default {α : Type} (a b : α) (v : Nat) (m : List (Nat × α × Nat)) (k : Nat) : (aget (a, v) m k).2 = (aget (b, v) m k).2 := by
  induction m with
  | nil => rfl
  | cons e m ih =>
    rw [aget, aget]
    split
    · rfl
    · exact ih

/-- What happened at a field counts by the cycle's record alone. -/
theorem happened_snd {s t : State} (h : t.hot = s.hot) (pg : Nat) (F : Fld) (i : Nat) : (t.happened pg F i).2 = (s.happened pg F i).2 := by
  rw [State.happened, State.happened, h]
  exact aget_snd_default ..

/-- A bit that hardware clears reads 0, where nothing set it in this cycle. -/
theorem rd_hwClear_bit {s : State} {pg : Nat} {F : Fld} {i : Nat} (hw : F.width = 1) (h : (s.happened pg F i).2 = 0) :
    (s.hwClear pg F 1 i).rd pg F i = 0 := by
  rw [State.hwClear, rd_wr_same, hw, h, Nat.zero_and, Nat.or_zero, Nat.and_one_is_mod]
  omega

/-- A field of a channel's page that no measured margin shows. -/
abbrev marginless (F : Fld) : Prop := F.apart 0 MC_STATUS_RETRAIN_DUE 0 ∧ F.apart 0 MC_MARGIN_PHASE 0 ∧ F.apart 0 MC_MARGIN_VOLT 0 ∧
  F.apart 0 MC_MARGIN_LANE 0 ∧ 44 ≤ F.at 0

theorem rd_chanMargin_other (s : State) {c : Nat} (hc : c < 256) (phase volt lane : Nat) {F : Fld} (hF : marginless F) :
    (s.chanMargin c phase volt lane).rd (pgChannel c) F = s.rd (pgChannel c) F := by
  obtain ⟨hdue, hphase, hvolt, hlane, h44⟩ := hF
  obtain ⟨s0, hs0⟩ : ∃ s0, s0 = (if phase = 0 ∨ volt = 0 then s.declare c (laneGroup lane) else s) := ⟨_, rfl⟩
  obtain ⟨s1, hs1⟩ : ∃ s1, s1 = s0.wrs (pgChannel c) [(MC_MARGIN_PHASE, phase), (MC_MARGIN_VOLT, volt), (MC_MARGIN_LANE, lane)] := ⟨_, rfl⟩
  have regs0 : s0.regs = s.regs := by rw [hs0]; split <;> rfl
  have kept : s1.rd (pgChannel c) F = s.rd (pgChannel c) F := by
    rw [hs1]
    exact (rd_wrs_apart _ _ _ _ (by simpa using ⟨hphase, hvolt, hlane⟩)).trans (rd_congr regs0 ..)
  unfold State.chanMargin
  dsimp only
  rw [← hs0, ← hs1]
  split
  · exact (rd_raise_quiet _ _ _ _ (quietFld_chan hc hdue.1 h44)).trans ((rd_wr_apart _ _ _ _ hdue).trans kept)
  · exact kept

theorem chanMargin_training (s : State) (c phase volt lane : Nat) : ((s.chanMargin c phase volt lane).chan c).training = (s.chan c).training := by
  obtain ⟨s0, hs0⟩ : ∃ s0, s0 = (if phase = 0 ∨ volt = 0 then s.declare c (laneGroup lane) else s) := ⟨_, rfl⟩
  have h0 : (s0.chan c).training = (s.chan c).training := by
    rw [hs0]
    split
    · rw [State.declare, chan_modChan]
    · rfl
  have hchan : ∀ t : State, t.chans = s0.chans → (t.chan c).training = (s.chan c).training := fun t h => by rw [← h0, State.chan, h]; rfl
  unfold State.chanMargin
  dsimp only
  rw [← hs0]
  split
  · exact hchan _ (raise_same _ _ _ _ .chans (by decide))
  · exact hchan _ rfl

theorem hot_useSpares (l : List (Nat × Nat)) (c : Nat) (s : State) : (l.foldl (fun s e => s.useSpare c e) s).hot = s.hot := by
  induction l generalizing s with
  | nil => rfl
  | cons e l ih =>
    rw [List.foldl_cons, ih, State.useSpare]
    dsimp only
    split <;> rfl

/-- A channel after a full retraining: its spares used and its work forgotten, before its new state is shown. -/
def State.retrainedChan (s : State) (c : Nat) (o : LaneObs) : State :=
  (((o.weak.foldl (fun s e => s.useSpare c e) s).modChan c fun u => { u with errs := [], bad := 0, declared := 0, training := 0 }).wrs (pgChannel c)
    [(MC_STATUS_RETRAIN_DUE, 0), (MC_STATUS_HALF_UPPER, 0)]).hwClear (pgChannel c) MC_TRAIN_CTRL_REQUEST

theorem retrainedChan_training (s : State) (c : Nat) (o : LaneObs) : ((s.retrainedChan c o).chan c).training = 0 :=
  congrArg Chan.training (chan_modChan (o.weak.foldl (fun s e => s.useSpare c e) s) c fun u =>
    { u with errs := [], bad := 0, declared := 0, training := 0 })

theorem retrainedChan_request (s : State) (c : Nat) (o : LaneObs) (h : (s.happened (pgChannel c) MC_TRAIN_CTRL_REQUEST).2 = 0) :
    (s.retrainedChan c o).rd (pgChannel c) MC_TRAIN_CTRL_REQUEST = 0 := by
  unfold State.retrainedChan
  refine rd_hwClear_bit (by decide) ?_
  rw [happened_snd (s := s)]
  · exact h
  · exact hot_useSpares o.weak c s

/-- The state that a retrained channel shows. -/
def State.retrainedState (s2 : State) (c was : Nat) : State :=
  let pg := pgChannel c
  let x := s2.rd pg MC_SPARES_EXHAUSTED
  if halfBad x 0 && halfBad x 1 then (s2.wr pg MC_STATUS_STATE 5).raise pg ev_MC_CHANNEL_FAILED (le 1 (c % 32))
  else if x ≠ 0 then
    let up := if halfBad x 0 then 1 else 0
    (s2.wrs pg [(MC_STATUS_STATE, 3), (MC_STATUS_HALF_UPPER, up)]).raise pg ev_MC_HALF_WIDTH
      (le 1 0 ++ le 1 ((List.range 8).find? (fun g => bit x g) |>.getD 0) ++ le 1 up)
  else
    let s3 := s2.wr pg MC_STATUS_STATE (if s2.rd pg MC_SPARES_USED = 0 then 1 else 2)
    if was = 3 then s3.raise pg ev_MC_REPAIRED (le 1 0 ++ le 1 0 ++ le 1 (popCount (s2.rd pg MC_SPARES_USED))) else s3

theorem chanTrained_eq (s : State) (c : Nat) (o : LaneObs) : s.chanTrained c o =
    ((((s.retrainedChan c o).retrainedState c (s.chan c).was).chanMargin c o.phase o.volt o.lane).trainedFull (pgChannel c)
      (((s.retrainedChan c o).retrainedState c (s.chan c).was).rd (pgChannel c) MC_STATUS_STATE ≠ 5)).ageTrained
        { seq := 0, unit := pgChannel c, hours := 0, kind := 1, index := 0xFF, phase := o.phase, volt := o.volt } := by
  have hx : (s.retrainedChan c o).rd (pgChannel c) MC_SPARES_EXHAUSTED =
      ((o.weak.foldl (fun s e => s.useSpare c e) s).modChan c fun u => { u with errs := [], bad := 0, declared := 0, training := 0 }).rd (pgChannel c)
        MC_SPARES_EXHAUSTED := (rd_wr_apart _ _ _ _ (by decide)).trans (rd_wrs_apart _ _ _ _ (by simp +decide))
  rw [State.retrainedState, hx]
  rfl

/-- The state shown is one of the four that a retraining may end in; the request and the channel's training stay as they were. -/
theorem retrainedState_shows (s : State) {c : Nat} (hc : c < 256) (was : Nat) :
    (s.retrainedState c was).rd (pgChannel c) MC_STATUS_STATE ∈ [1, 2, 3, 5] ∧
    (s.retrainedState c was).rd (pgChannel c) MC_TRAIN_CTRL_REQUEST = s.rd (pgChannel c) MC_TRAIN_CTRL_REQUEST ∧
    (s.retrainedState c was).chans = s.chans := by
  have told : ∀ (u : State) (k : EvKind) (info : Bytes), (∀ F, quietFld (pgChannel c) F 0 →
      (u.raise (pgChannel c) k info).rd (pgChannel c) F = u.rd (pgChannel c) F) ∧ (u.raise (pgChannel c) k info).chans = u.chans :=
    fun u k info => ⟨fun F hF => rd_raise_quiet _ _ _ _ hF, raise_same _ _ _ _ .chans (by decide)⟩
  have hst : quietFld (pgChannel c) MC_STATUS_STATE 0 := quietFld_chan hc (by decide) (by decide)
  have hreq : quietFld (pgChannel c) MC_TRAIN_CTRL_REQUEST 0 := quietFld_chan hc (by decide) (by decide)
  unfold State.retrainedState
  dsimp only
  split
  · obtain ⟨hr, hch⟩ := told (s.wr (pgChannel c) MC_STATUS_STATE 5) ev_MC_CHANNEL_FAILED (le 1 (c % 32))
    rw [hr _ hst, hr _ hreq, hch, rd_wr_fits _ _ _ _ (by decide)]
    exact ⟨by decide, rd_wr_apart _ _ _ _ (by decide), rfl⟩
  · split
    · obtain ⟨up, hup⟩ : ∃ up, up = if halfBad (s.rd (pgChannel c) MC_SPARES_EXHAUSTED) 0 = true then 1 else 0 := ⟨_, rfl⟩
      rw [← hup]
      obtain ⟨info, hinfo⟩ : ∃ info, info = le 1 0 ++ le 1 ((List.range 8).find?
        (fun g => bit (s.rd (pgChannel c) MC_SPARES_EXHAUSTED) g) |>.getD 0) ++ le 1 up := ⟨_, rfl⟩
      rw [← hinfo]
      obtain ⟨hr, hch⟩ := told (s.wrs (pgChannel c) [(MC_STATUS_STATE, 3), (MC_STATUS_HALF_UPPER, up)]) ev_MC_HALF_WIDTH info
      rw [hr _ hst, hr _ hreq, hch, rd_wrs_head _ _ _ _ _ _ (by simp +decide)]
      exact ⟨by decide, rd_wrs_apart _ _ _ _ (by simp +decide), rfl⟩
    · obtain ⟨v, hv⟩ : ∃ v, v = if s.rd (pgChannel c) MC_SPARES_USED = 0 then 1 else 2 := ⟨_, rfl⟩
      have hv' : v = 1 ∨ v = 2 := by rw [hv]; split <;> simp
      rw [← hv]
      have shown : (s.wr (pgChannel c) MC_STATUS_STATE v).rd (pgChannel c) MC_STATUS_STATE ∈ [1, 2, 3, 5] := by
        rw [rd_wr_fits _ _ _ _ (by rcases hv' with rfl | rfl <;> decide)]
        rcases hv' with rfl | rfl <;> decide
      have kept : (s.wr (pgChannel c) MC_STATUS_STATE v).rd (pgChannel c) MC_TRAIN_CTRL_REQUEST = s.rd (pgChannel c) MC_TRAIN_CTRL_REQUEST :=
        rd_wr_apart _ _ _ _ (by decide)
      split
      · obtain ⟨hr, hch⟩ := told (s.wr (pgChannel c) MC_STATUS_STATE v) ev_MC_REPAIRED
          (le 1 0 ++ le 1 0 ++ le 1 (popCount (s.rd (pgChannel c) MC_SPARES_USED)))
        rw [hr _ hst, hr _ hreq, hch]
        exact ⟨shown, kept, rfl⟩
      · exact ⟨shown, kept, rfl⟩

theorem sameBut_trainedFull_aged (s : State) (pg : Nat) (ok : Bool) (a : Age) : s.sameBut [.ledger] ((s.trainedFull pg ok).ageTrained a) := by
  unfold State.trainedFull
  intro k hk
  split <;> cases k <;> first | exact absurd (by decide) hk | exact ⟨rfl, rfl⟩ | rfl

theorem leads_retrainingDone_channel {s : State} {u : Nat} (o : LaneObs) (hu : u < 256) (hst : s.rd (pgChannel u) MC_STATUS_STATE = 4)
    (htime : (s.chan u).training + 1 ≤ s.time.epochs) :
    Leads (.retrainingDone 0 u o) s fun t =>
      t.rd (pgChannel u) MC_STATUS_STATE ∈ [1, 2, 3, 5] ∧ (t.chan u).training = 0 ∧
      ((s.happened (pgChannel u) MC_TRAIN_CTRL_REQUEST).2 = 0 → t.rd (pgChannel u) MC_TRAIN_CTRL_REQUEST = 0) ∧
      t.rd (pgChannel u) MC_MARGIN_PHASE = o.phase % 256 := by
  have hexec : exec (.retrainingDone 0 u o) s = finishD (evented ++ [.ledger, .descs, .chans, .wires]) s (s.chanTrained u o) := by
    rw [show exec (.retrainingDone 0 u o) s = execRetrainingDone 0 u o s from rfl, execRetrainingDone]
    simp only [Nat.mod_eq_of_lt hu, Fin.val_zero, if_true, hst, htime, and_self]
  rw [chanTrained_eq] at hexec
  obtain ⟨s2, hs2⟩ : ∃ s2, s2 = s.retrainedChan u o := ⟨_, rfl⟩
  obtain ⟨s3, hs3⟩ : ∃ s3, s3 = s2.retrainedState u (s.chan u).was := ⟨_, rfl⟩
  obtain ⟨s4, hs4⟩ : ∃ s4, s4 = s3.chanMargin u o.phase o.volt o.lane := ⟨_, rfl⟩
  rw [← hs2, ← hs3, ← hs4] at hexec
  obtain ⟨s5, hs5⟩ : ∃ s5, s5 = (s4.trainedFull (pgChannel u) (s3.rd (pgChannel u) MC_STATUS_STATE ≠ 5)).ageTrained
    { seq := 0, unit := pgChannel u, hours := 0, kind := 1, index := 0xFF, phase := o.phase, volt := o.volt } := ⟨_, rfl⟩
  rw [← hs5] at hexec
  have h45 : s4.sameBut [.ledger] s5 := hs5 ▸ sameBut_trainedFull_aged s4 _ _ _
  obtain ⟨hshow, hkeep, hchans⟩ := hs3 ▸ retrainedState_shows s2 hu (s.chan u).was
  have hend : ∀ F, quietFld (pgChannel u) F 0 → s5.redescribe.rd (pgChannel u) F = s4.rd (pgChannel u) F := fun F hF =>
    (rd_redescribe s5 hF).trans (rd_congr (h45 .regs (by decide)).1 ..)
  have hst' : quietFld (pgChannel u) MC_STATUS_STATE 0 := quietFld_chan hu (by decide) (by decide)
  have hreq : quietFld (pgChannel u) MC_TRAIN_CTRL_REQUEST 0 := quietFld_chan hu (by decide) (by decide)
  have hph : quietFld (pgChannel u) MC_MARGIN_PHASE 0 := quietFld_chan hu (by decide) (by decide)
  refine ⟨_, hexec, ?_, ?_, fun hno => ?_, ?_⟩
  · refine (congrArg (· ∈ [1, 2, 3, 5]) ((hend _ hst').trans ?_)).mpr hshow
    rw [hs4]
    exact rd_chanMargin_other s3 hu _ _ _ (by decide)
  · have h5 : s5.redescribe.chans = s4.chans := (redescribe_same s5 (k := .chans) (by decide)).trans (h45 .chans (by decide))
    change (s5.redescribe.chan u).training = 0
    rw [State.chan, h5, hs4]
    refine (chanMargin_training ..).trans ?_
    rw [State.chan, hchans, hs2]
    exact retrainedChan_training s u o
  · refine (hend _ hreq).trans ?_
    rw [hs4, rd_chanMargin_other s3 hu _ _ _ (by decide), hkeep, hs2]
    exact retrainedChan_request s u o hno
  · refine (hend _ hph).trans ?_
    rw [hs4]
    exact (rd_chanMargin s3 hu _ _ _).1

/-! ### A column group trained -/

/-- A column group after a full retraining, before its new state is shown. -/
def State.retrainedGroup (s : State) (u : Nat) (o : LaneObs) : State :=
  (s.modWires u fun w => { w with training := 0, errs := [], declared := 0
                                  spares := min 32 ((aget {} s.wires u).spares + o.weak.length), upper := false }).hwClear
    (pgColumns (u / 32)) MC_XG_RETRAIN_DUE (2 ^ (u % 32))

/-- What stays of a group's wires under events, measured margins and the half in use. -/
def wiresKept (u : Nat) (s t : State) : Prop :=
  (aget {} t.wires u).training = (aget {} s.wires u).training ∧ (aget {} t.wires u).spares = (aget {} s.wires u).spares

theorem wiresKept_of {u : Nat} {s t : State} (h : t.wires = s.wires) : wiresKept u s t := by
  rw [wiresKept, h]
  exact ⟨rfl, rfl⟩

theorem wiresKept_trans {u : Nat} {s t v : State} (h1 : wiresKept u s t) (h2 : wiresKept u t v) : wiresKept u s v :=
  ⟨h2.1.trans h1.1, h2.2.trans h1.2⟩

theorem wiresKept_raise (u : Nat) (s : State) (pg : Nat) (k : EvKind) (info : Bytes) : wiresKept u s (s.raise pg k info) :=
  wiresKept_of (raise_same s pg k info .wires (by decide))

theorem wiresKept_modWires (u : Nat) (s : State) (g : Nat) (f : Wires → Wires) (hf : ∀ w, (f w).training = w.training ∧ (f w).spares = w.spares) :
    wiresKept u s (s.modWires g f) := by
  by_cases h : u = g
  · subst h
    rw [wiresKept, State.modWires, aget_aupd_same]
    exact hf _
  · rw [wiresKept, State.modWires, aget_aupd_other _ _ _ h]
    exact ⟨rfl, rfl⟩

theorem wiresKept_groupMargin (u : Nat) (s : State) (n g m : Nat) : wiresKept u s (s.groupMargin n g m) := by
  have hmod := wiresKept_modWires u s (32 * n + g) (fun w => { w with margin := m, declared := if m = 0 then w.declared ||| 4 else w.declared })
    fun _ => ⟨rfl, rfl⟩
  unfold State.groupMargin
  dsimp only
  split
  · exact wiresKept_trans hmod (wiresKept_trans (wiresKept_of rfl) (wiresKept_raise ..))
  · exact hmod

/-- The state that a retrained column group shows, with `used` spares wanted and lanes lost in the lower half, the upper or both. -/
def State.retrainedGroupState (s1 : State) (u used was : Nat) (low high : Bool) : State :=
  let n := u / 32
  let g := u % 32
  if 32 < used then
    if low && high then (s1.setGroup n g 3).raise (pgColumns n) ev_MC_LINK_FENCED (le 1 (g % 16 / 2) ++ le 1 g)
    else ((s1.setGroup n g 2).modWires u fun w => { w with upper := low }).raise (pgColumns n) ev_MC_HALF_WIDTH (le 1 1 ++ le 1 g ++ le 1 low.toNat)
  else
    let s3 := s1.setGroup n g (if used = 0 then 0 else 1)
    if was = 2 then s3.raise (pgColumns n) ev_MC_REPAIRED (le 1 1 ++ le 1 g ++ le 1 used) else s3

theorem groupTrained_eq (s : State) (u : Nat) (o : LaneObs) : ∃ (s2 : State) (ok : Bool) (a : Age) (low high : Bool),
    s2 = (s.retrainedGroup u o).retrainedGroupState u ((aget {} s.wires u).spares + o.weak.length) (aget {} s.wires u).was low high ∧
    s.groupTrained u o = ((s2.groupMargin (u / 32) (u % 32) o.phase).trainedFull (pgGroup u) ok).ageTrained a :=
  ⟨_, _, _, _, _, rfl, rfl⟩

theorem wiresKept_setGroup (u : Nat) (s : State) (n g v : Nat) : wiresKept u s (s.setGroup n g v) := wiresKept_of rfl

theorem wiresKept_retrainedGroupState (s1 : State) (u used was : Nat) (low high : Bool) :
    wiresKept u s1 (s1.retrainedGroupState u used was low high) := by
  unfold State.retrainedGroupState
  dsimp only
  split
  · split
    · exact wiresKept_trans (wiresKept_setGroup ..) (wiresKept_raise ..)
    · exact wiresKept_trans (wiresKept_trans (wiresKept_setGroup ..) (wiresKept_modWires u _ u (fun w => { w with upper := low }) fun _ => ⟨rfl, rfl⟩))
        (wiresKept_raise ..)
  · split
    · exact wiresKept_trans (wiresKept_setGroup ..) (wiresKept_raise ..)
    · exact wiresKept_setGroup ..

theorem groupTrained_kept (s : State) (u : Nat) (o : LaneObs) : wiresKept u (s.retrainedGroup u o) (s.groupTrained u o) := by
  obtain ⟨s2, ok, a, low, high, hs2, heq⟩ := groupTrained_eq s u o
  have h2 : wiresKept u (s.retrainedGroup u o) s2 := hs2 ▸ wiresKept_retrainedGroupState ..
  rw [heq]
  exact wiresKept_trans (wiresKept_trans h2 (wiresKept_groupMargin ..)) (wiresKept_of (sameBut_trainedFull_aged _ _ _ _ .wires (by decide)))

theorem wires_retrainedGroup (s : State) (u : Nat) (o : LaneObs) : aget {} (s.retrainedGroup u o).wires u =
    { aget {} s.wires u with training := 0, errs := [], declared := 0, spares := min 32 ((aget {} s.wires u).spares + o.weak.length), upper := false } := by
  have hwires : (s.retrainedGroup u o).wires = aupd {} s.wires u fun w =>
      { w with training := 0, errs := [], declared := 0, spares := min 32 ((aget {} s.wires u).spares + o.weak.length), upper := false } := rfl
  rw [hwires, aget_aupd_same]

theorem leads_retrainingDone_group {s : State} {u : Nat} (o : LaneObs) (hu : u < 256) (hon : (aget {} s.wires u).training ≠ 0)
    (htime : (aget {} s.wires u).training ≤ s.time.epochs) :
    Leads (.retrainingDone 1 u o) s fun t =>
      (aget {} t.wires u).training = 0 ∧ (aget {} t.wires u).spares = min 32 ((aget {} s.wires u).spares + o.weak.length) := by
  have hexec : exec (.retrainingDone 1 u o) s = finishD (evented ++ [.ledger, .descs, .chans, .wires]) s (s.groupTrained u o) := by
    rw [show exec (.retrainingDone 1 u o) s = execRetrainingDone 1 u o s from rfl, execRetrainingDone]
    simp only [Nat.mod_eq_of_lt hu, Fin.val_one, one_ne_zero, if_false, ne_eq, hon, not_false_eq_true, htime, and_self, if_true]
  obtain ⟨t, ht⟩ : ∃ t, t = s.groupTrained u o := ⟨_, rfl⟩
  obtain ⟨htrain, hspares⟩ := wiresKept_trans (ht ▸ groupTrained_kept s u o)
    (wiresKept_of (u := u) (redescribe_same t (k := .wires) (by decide)))
  have hwires := wires_retrainedGroup s u o
  rw [← ht] at hexec
  exact ⟨_, hexec, htrain.trans (congrArg Wires.training hwires), hspares.trans (congrArg Wires.spares hwires)⟩

/-- Settles O24: a retraining marks its unit and what it was; when it is done the new state is written, and only events follow. -/
theorem retrainingRuns : Obligations.RetrainingRuns := by
  unfold Obligations.RetrainingRuns
  exact ⟨fun _ _ hu hslot hrest hdue hfree => leads_retrainingStart_channel hu hslot hrest hdue hfree,
    fun _ k _ hu h => leads_retrainingStart_none k hu h,
    fun _ _ hu hslot hrest hst hno => leads_retrainingStart_group hu hslot hrest hst hno,
    fun _ _ o hu hst htime => leads_retrainingDone_channel o hu hst htime,
    fun _ _ o hu hon htime => leads_retrainingDone_group o hu hon htime⟩

end Sys2Proof.Machine
end

section
/-!
Proofs of the family 07_networks.md: schedules, sync tokens, neighbour mode and parity errors of crossings (O25).
-/

namespace Sys2Proof.Machine

open Sys2Proof

/-! ### Router schedules and arriving tokens (R235, R246, R248) -/

theorem leads_scheduleEntry {s : State} {r : Fin 88} {index w : Nat} (hw : s.schedEntry r index = some w)
    (hplay : s.playing (s.partOfRiser (routerRiser r)) = true) (hmode : s.rd (pgBulk r) NW_BSTAT_MODE = 2)
    (hep : stampEpoch w = s.relInPeriod (s.partOfRiser (routerRiser r))) :
    Leads (.scheduleEntry r index) s fun t =>
      t.net = { s.net with conns := s.net.conns ++ entryConns r (s.absCycle (stampSlot w) (stampCyc w)) w } := by
  refine ⟨s.only [.regs, .net] (s.modNet fun n => { n with conns := n.conns ++ entryConns r (s.absCycle (stampSlot w) (stampCyc w)) w }), ?_, rfl⟩
  rw [show exec (.scheduleEntry r index) s = execScheduleEntry r index s from rfl, execScheduleEntry]
  simp only [hw, hplay, hmode, hep, decide_true, Bool.and_self, if_true]
  rfl

theorem flag_setFlag (s : State) (store index v : Nat) : (s.setFlag store index v).flag store index = v % 2 ^ 64 := aget_aset_same ..

theorem flag_setFlag_other (s : State) {store index store' index' : Nat} (v : Nat) (hi : index < 4096) (hi' : index' < 4096)
    (h : (store', index') ≠ (store, index)) : (s.setFlag store index v).flag store' index' = s.flag store' index' := by
  refine aget_aset_other _ _ _ fun heq => h ?_
  have h1 : store' = store := by omega
  have h2 : index' = index := by omega
  rw [h1, h2]

theorem leads_syncTokenArrival {s : State} {st : Fin 88} {k : Flying} (hk : s.net.nextToken st s.cycles = some k) (hi : k.index < 4096) :
    Leads (.syncTokenArrival st) s fun t =>
      t.flag st k.index = (if k.op = 0 then k.value else s.flag st k.index + k.value) % 2 ^ 64 ∧
      t.net.tokens = s.net.tokens.erase k ∧
      (∀ st' i, i < 4096 → (st', i) ≠ (st.val, k.index) → t.flag st' i = s.flag st' i) := by
  obtain ⟨v, hv⟩ : ∃ v, v = if k.op = 0 then k.value else s.flag st k.index + k.value := ⟨_, rfl⟩
  obtain ⟨u, hu⟩ : ∃ u, u = (s.setFlag st k.index v).bump (pgSync st) NW_STOKENS_COUNT := ⟨_, rfl⟩
  have hexec : exec (.syncTokenArrival st) s = finish [.regs, .flags, .net] s (u.modNet fun n => { n with tokens := n.tokens.erase k }) := by
    rw [show exec (.syncTokenArrival st) s = execSyncTokenArrival st s from rfl, execSyncTokenArrival]
    simp only [hk, hu, hv]
  have hflags : u.flags = (s.setFlag st k.index v).flags := hu ▸ sameBut_bump _ _ _ _ _ .flags (by decide)
  have hnet : u.net = s.net := hu ▸ sameBut_bump (s.setFlag st k.index v) _ _ _ _ .net (by decide)
  have hflag : ∀ st' i, (s.only [.regs, .flags, .net] (u.modNet fun n => { n with tokens := n.tokens.erase k })).flag st' i =
      (s.setFlag st k.index v).flag st' i := fun st' i => by
    change aget 0 u.flags _ = _
    rw [hflags]
    rfl
  rw [← hv]
  refine ⟨_, hexec, (hflag _ _).trans (flag_setFlag ..), ?_, fun st' i hi' h => (hflag _ _).trans (flag_setFlag_other s v hi hi' h)⟩
  change u.net.tokens.erase k = _
  rw [hnet]

/-! ### A token's way on one die (R250) -/

/-- A way along a row of a die has as many links as columns between. -/
theorem length_row (r x y : Nat) : (if x ≤ y then (List.range (y - x)).map fun i => (r + i) * 64 + 1
    else (List.range (x - y)).map fun i => (r - i) * 64 + 3).length = ((x : Int) - (y : Int)).natAbs := by
  by_cases h : x ≤ y
  · rw [if_pos h, List.length_map, List.length_range]
    omega
  · rw [if_neg h, List.length_map, List.length_range]
    omega

/-- A way along a column of a die's two rows has a link where the rows differ. -/
theorem length_column (k : Nat) {x y : Nat} (hx : x < 2) (hy : y < 2) :
    (if x < y then [k * 64 + 2] else if y < x then [k * 64] else []).length = ((x : Int) - (y : Int)).natAbs := by
  interval_cases x <;> interval_cases y <;> rfl

/-- The links of a way within a die are those of a die, twice as many cycles as hops. -/
theorem tokenLinks_die {r d : Nat} (hr : r < 80) (hd : d < 80) (hdie : r / 10 = d / 10) :
    (∀ k ∈ tokenLinks r d, linkKind (k / 64) (k % 64) = 0) ∧
    (tokenLinks r d).length = ((r % 5 : Int) - d % 5).natAbs + ((r / 5 % 2 : Int) - d / 5 % 2).natAbs := by
  have die : ∀ a o, a < 80 → o < 4 → linkKind ((a * 64 + o) / 64) ((a * 64 + o) % 64) = 0 := fun a o ha ho => by
    rw [show (a * 64 + o) / 64 = a by omega, show (a * 64 + o) % 64 = o by omega, linkKind, if_pos ha, if_neg (by omega)]
  have hat : r + d % 5 - r % 5 < 80 := by omega
  constructor
  · intro k hk
    rw [tokenLinks] at hk
    rcases List.mem_append.mp hk with hk | hk
    · split at hk
      · obtain ⟨i, hi, rfl⟩ := List.mem_map.mp hk
        have := List.mem_range.mp hi
        exact die _ 1 (by omega) (by omega)
      · obtain ⟨i, hi, rfl⟩ := List.mem_map.mp hk
        exact die _ 3 (by omega) (by omega)
    · split at hk
      · rw [List.mem_singleton.mp hk]
        exact die (r + d % 5 - r % 5) 2 hat (by omega)
      · split at hk
        · rw [List.mem_singleton.mp hk]
          simpa using die (r + d % 5 - r % 5) 0 hat (by omega)
        · exact absurd hk List.not_mem_nil
  · have hrow := length_row r (r % 5) (d % 5)
    have hcol := length_column (r + d % 5 - r % 5) (Nat.mod_lt (r / 5) (by omega : 2 > 0)) (Nat.mod_lt (d / 5) (by omega : 2 > 0))
    push_cast at hrow hcol
    rw [tokenLinks, List.length_append, hrow, hcol]

/-- With no other token on its links, a token passes each at once. -/
theorem linkFree_of_die (s : State) {k : Nat} (hk : linkKind (k / 64) (k % 64) = 0) (n t : Nat) : s.linkFree [] k n t = t := by
  cases n with
  | zero => rfl
  | succ n =>
    have hopen : s.linkOpen [] k t = true := by
      unfold State.linkOpen
      rw [hk]
      rfl
    rw [State.linkFree, if_pos hopen]

theorem tokenWay_of_die (s : State) (path : List Nat) (h : ∀ k ∈ path, linkKind (k / 64) (k % 64) = 0) (t : Nat) :
    (s.tokenWay [] path t).2 = t + 2 * path.length := by
  induction path generalizing t with
  | nil => rfl
  | cons k ks ih =>
    have hk := h k List.mem_cons_self
    rw [State.tokenWay]
    dsimp only
    rw [linkFree_of_die s hk, hopCycles, if_pos hk, ih (fun x hx => h x (List.mem_cons_of_mem k hx)), List.length_cons]
    omega

/-- Where no table is loaded, a token on one die takes R250's order. -/
theorem tokenPath_of_die {s : State} {r store : Nat} (ht : s.net.tables = []) (hr : r < 80) (hs : store < 80) (hdie : r / 10 = store / 10) :
    s.tokenPath r store = tokenLinks r store := by
  by_cases heq : r = store
  · subst heq
    simp [State.tokenPath, tokenLinks]
  · simp [State.tokenPath, heq, oneDie, hr, hs, hdie, ht]

theorem flyToken_due (s : State) (t own r store index op value : Nat) (hno : s.net.tokens = []) (ht : s.net.tables = []) (hr : r < 80)
    (hs : store < 80) (hdie : r / 10 = store / 10) :
    ∃ k, (s.flyToken t own r store index op value).net.tokens = [k] ∧ k.store = store ∧ k.index = index ∧
      k.due = t + 3 + 2 * (((r % 5 : Int) - store % 5).natAbs + ((r / 5 % 2 : Int) - store / 5 % 2).natAbs) := by
  obtain ⟨hlinks, hlen⟩ := tokenLinks_die hr hs hdie
  refine ⟨⟨store, index, op, value, (s.tokenWay [] (tokenLinks r store) (t + 1)).2 + 2, entryPort own (tokenLinks r store),
    (s.tokenWay [] (tokenLinks r store) (t + 1)).1⟩, ?_, rfl, rfl, ?_⟩
  · unfold State.flyToken
    rw [tokenPath_of_die ht hr hs hdie, modNet_net, hno]
    rfl
  · dsimp only
    rw [tokenWay_of_die s _ hlinks, hlen]
    omega

/-! ### Neighbour-mode chunks (R253) -/

/-- The chunks that a network has accepted stay accepted. -/
def chunksGrow (s t : State) : Prop := (∀ r k, k ∈ aget [] s.net.chunks r → k ∈ aget [] t.net.chunks r) ∧ t.regs = s.regs

theorem chunksGrow_trans {s t u : State} (h1 : chunksGrow s t) (h2 : chunksGrow t u) : chunksGrow s u :=
  ⟨fun r k hk => h2.1 r k (h1.1 r k hk), h2.2.trans h1.2⟩

theorem chunksGrow_of {s t : State} (h : t.net.chunks = s.net.chunks) (hr : t.regs = s.regs) : chunksGrow s t :=
  ⟨fun r k hk => by rw [h]; exact hk, hr⟩

theorem chunksGrow_foldl {β : Type} (f : State → β → State) (hf : ∀ s b, chunksGrow s (f s b)) (l : List β) (s : State) :
    chunksGrow s (l.foldl f s) := by
  induction l generalizing s with
  | nil => exact chunksGrow_of rfl rfl
  | cons b l ih => exact chunksGrow_trans (hf s b) (ih _)

theorem mem_accept (n : Net) (c r chunk : Nat) : chunk ∈ aget [] (n.accept c r chunk).chunks r := by
  unfold Net.accept
  split
  case isTrue h => simpa using h
  case isFalse =>
    rw [aget_aupd_same]
    exact List.mem_cons_self

theorem accept_grows (n : Net) (c r chunk : Nat) {r' k : Nat} (hk : k ∈ aget [] n.chunks r') : k ∈ aget [] (n.accept c r chunk).chunks r' := by
  unfold Net.accept
  split
  · exact hk
  · by_cases h : r' = r
    · subst h
      rw [aget_aupd_same]
      exact List.mem_cons_of_mem _ hk
    · rw [aget_aupd_other _ _ _ h]
      exact hk

theorem chunksGrow_accept (s : State) (c r chunk : Nat) : chunksGrow s (s.modNet fun n => n.accept c r chunk) :=
  ⟨fun _ _ hk => accept_grows s.net c r chunk hk, rfl⟩

theorem leads_neighbourModeStep {s : State} {n : Fin 8} (chunk : Nat) (hdue : aget 0 s.net.stepAt n ≤ s.cycles) (hfl : s.floods (80 + n) = true) :
    Leads (.neighbourModeStep n chunk) s fun t =>
      chunk ∈ aget [] t.net.chunks (80 + n) ∧ (∀ r k, k ∈ aget [] s.net.chunks r → k ∈ aget [] t.net.chunks r) ∧
      s.sameBut [.net] t := by
  obtain ⟨s2, hgrow, hexec⟩ : ∃ s2, chunksGrow s s2 ∧ exec (.neighbourModeStep n chunk) s =
      finish [.net] s (if s2.floods (80 + n) then s2.modNet fun m => m.accept s.cycles (80 + n) chunk else s2) := by
    rw [show exec (.neighbourModeStep n chunk) s = execNeighbourModeStep n chunk s from rfl, execNeighbourModeStep]
    dsimp only
    rw [if_neg (Nat.not_lt.mpr hdue)]
    refine ⟨_, ?_, rfl⟩
    refine chunksGrow_trans (t := s.modNet _) (chunksGrow_of rfl rfl) (chunksGrow_foldl _ (fun u e => ?_) _ _)
    split
    · exact chunksGrow_foldl _ (fun u r => chunksGrow_foldl _ (fun u k => chunksGrow_accept u _ _ _) _ _) _ _
    · exact chunksGrow_of rfl rfl
  have hfl2 : s2.floods (80 + n) = true := by
    rw [State.floods, rd_congr hgrow.2]
    exact hfl
  rw [if_pos hfl2] at hexec
  refine ⟨_, hexec, mem_accept s2.net _ _ _, fun r k hk => accept_grows s2.net _ _ _ (hgrow.1 r k hk), sameBut_only _ _ _⟩

/-! ### A parity error on a crossing (R239) -/

theorem sameBut_setReq (s : State) (id : Nat) (r : Req) : s.sameBut [.hall] (s.setReq id r) := sameBut_modHall s _

theorem sameBut_hurtFlit (s : State) (f : CFlit) : s.sameBut [.hall] (s.hurtFlit f) := by
  unfold State.hurtFlit
  split
  · split
    · exact sameBut_setReq s _ _
    · exact sameBut_setReq s _ _
  · split
    · exact sameBut_setReq s _ _
    · exact sameBut_refl _ s
  · exact sameBut_refl _ s

theorem quietFld_bulk {r : Nat} (hr : r < 88) {F : Fld} (hin : F.inPage 0) (h44 : 44 ≤ F.at 0) : quietFld (pgBulk r) F 0 := by
  have ht : pgType (pgBulk r) = 0x0014 ∨ pgType (pgBulk r) = 0x0031 := by
    simp only [pgType, pgBulk, pgRouter, pageId]
    split <;> omega
  have hne : pgBulk r ≠ pgEv := by
    simp only [pgBulk, pgRouter, pgEv, pageId]
    split <;> omega
  exact quietFld_of_page hin h44 (by omega) hne

theorem leads_crossingParityError {s : State} {r : Fin 88} {p : Fin 64} (group cyc : Nat)
    (hcross : if r.val < 80 then p.val = 4 else p.val < 8 ∨ 32 ≤ p.val ∧ p.val ≤ 41) (hfeed : (feeder r p).isSome = true) :
    Leads (.crossingParityError r p group cyc) s fun t =>
      t.net.hurt = (r.val * 64 + p.val, s.absCycle s.slot cyc, 255) :: s.net.hurt ∧ t.rd (pgBulk r) NW_XPARITY_PORT = p.val ∧
      t.rd (pgBulk r) NW_XPARITY_COUNT = min (s.rd (pgBulk r) NW_XPARITY_COUNT + 1) (2 ^ NW_XPARITY_COUNT.width - 1) := by
  obtain ⟨s1, hs1⟩ : ∃ s1, s1 = s.modNet fun n => { n with hurt := (r.val * 64 + p.val, s.absCycle s.slot cyc, 255) :: n.hurt } := ⟨_, rfl⟩
  obtain ⟨s2, hs2⟩ : ∃ s2, s2 = ((s.flitsAt r).filter fun f => decide (f.inp = p.val ∧ f.at_ = s.absCycle s.slot cyc)).foldl State.hurtFlit s1 :=
    ⟨_, rfl⟩
  have h12 : s1.sameBut [.hall] s2 := hs2 ▸ sameBut_foldl _ (fun u f => sameBut_hurtFlit u f) _ _
  obtain ⟨s3, hs3⟩ : ∃ s3, s3 = (s2.bump (pgBulk r) NW_XPARITY_COUNT).wr (pgBulk r) NW_XPARITY_PORT p := ⟨_, rfl⟩
  have hexec : exec (.crossingParityError r p group cyc) s = finish (evented ++ [.net, .hall]) s
      (s3.raise (pgBulk r) ev_NW_XPARITY (le 1 p ++ le 1 group)) := by
    rw [show exec (.crossingParityError r p group cyc) s = execCrossingParityError r p group cyc s from rfl, execCrossingParityError]
    have hc : (if r.val < 80 then decide (p.val = 4) else decide (p.val < 8 ∨ 32 ≤ p.val ∧ p.val ≤ 41)) = true := by
      split at hcross
      · rw [if_pos ‹_›]; exact decide_eq_true hcross
      · rw [if_neg ‹_›]; exact decide_eq_true hcross
    simp only [hc, hfeed, Bool.and_self, if_true, hs3, hs2, hs1]
  have hcount : quietFld (pgBulk r) NW_XPARITY_COUNT 0 := quietFld_bulk r.isLt (by decide) (by decide)
  have hport : quietFld (pgBulk r) NW_XPARITY_PORT 0 := quietFld_bulk r.isLt (by decide) (by decide)
  refine ⟨_, hexec, ?_, ?_, ?_⟩
  · have hnet : (s3.raise (pgBulk r) ev_NW_XPARITY (le 1 p ++ le 1 group)).net = s1.net :=
      (raise_same s3 _ _ _ .net (by decide)).trans
        ((hs3 ▸ sameBut_trans (sameBut_bump s2 _ _ _ _) (sameBut_wr _ _ _ _ _) .net (by decide)).trans (h12 .net (by decide)))
    refine (congrArg Net.hurt hnet).trans ?_
    rw [hs1]
    rfl
  · refine (rd_raise_quiet _ _ _ _ hport).trans ?_
    rw [hs3]
    exact rd_wr_fits _ _ _ _ (Nat.lt_of_lt_of_le p.isLt (by decide))
  · refine (rd_raise_quiet _ _ _ _ hcount).trans ?_
    rw [hs3, rd_wr_apart _ _ _ _ (by decide), rd_bump_same, rd_congr (h12 .regs (by decide)).1, hs1]
    rfl

/-- Settles O25: a token alone passes each link of its die at once; what is accepted, hurt or applied is kept or replaced in one place. -/
theorem networksCarryWordsAndTokens : Obligations.NetworksCarryWordsAndTokens := by
  unfold Obligations.NetworksCarryWordsAndTokens
  exact ⟨fun _ _ _ _ hw hplay hmode hep => leads_scheduleEntry hw hplay hmode hep,
    fun _ _ _ hk hi => leads_syncTokenArrival hk hi,
    fun s t own r store index op value hno ht hr hs hdie => flyToken_due s t own r store index op value hno ht hr hs hdie,
    fun _ _ chunk hdue hfl => leads_neighbourModeStep chunk hdue hfl,
    fun _ _ _ group cyc hcross hfeed => leads_crossingParityError group cyc hcross hfeed⟩

end Sys2Proof.Machine
end

section
/-!
Control routers (07_networks.md): one declared bad loses the flits that it holds (R271), which O26 denies.
-/

namespace Sys2Proof.Machine

open Sys2Proof

/-- Control router 4 declared bad, with one flit at its input 0. -/
def badRouterHolding : State :=
  (({} : State).wr (pgControl 4) NW_CSTAT_STATE 3).modNet fun n =>
    { n with flits := [(4, [{ id := 8, vc := 1, level := 0, dest := 4, inp := 0, head := true, last := true }])] }

theorem badRouterHolding_loses {t : State} (h : exec (.routerForward 4 1) badRouterHolding = .next t) : t.net.flits = [] := by
  change finish [.regs, .resets, .hall, .net, .movers, .gcores] badRouterHolding _ = .next t at h
  injection h with h
  rw [← h]
  decide

/-- Refutes O26: its second statement takes in a router declared bad (state 3), whose forwarding row drops the flits that it holds. -/
theorem not_controlRoutersForward : ¬ Obligations.ControlRoutersForward := by
  unfold Obligations.ControlRoutersForward
  intro h
  obtain ⟨-, hnone, -⟩ := h
  obtain ⟨t, hexec, hsame⟩ := hnone badRouterHolding 4 1 (.inl (by decide))
  have hkept : t.net.flits = badRouterHolding.net.flits := congrArg Net.flits (hsame .net (by decide))
  rw [badRouterHolding_loses hexec] at hkept
  exact absurd hkept (by decide)

end Sys2Proof.Machine
end

section
/-!
What taking a Sprue frame leaves (R442 to R447), and proofs of the family 11_hall_memory.md: received packets pass (O27).
-/

namespace Sys2Proof.Machine

open Sys2Proof

/-! ### A frame taken -/

/-- The line, sequence numbers and key of a Sprue port aside, it stands as it did. -/
def portKept (u v : SprueUnit) : Prop := ∃ line rx relay late1 late2 late3 key,
  v = { u with rxLine := line, rxSeq := rx, relaySeq := relay, lateRx := late1, lateTx := late2, lateRelay := late3, key := key }

theorem portKept_refl (u : SprueUnit) : portKept u u := ⟨_, _, _, _, _, _, _, rfl⟩

theorem portKept_trans {u v w : SprueUnit} (h1 : portKept u v) (h2 : portKept v w) : portKept u w := by
  obtain ⟨_, _, _, _, _, _, _, rfl⟩ := h1
  obtain ⟨_, _, _, _, _, _, _, rfl⟩ := h2
  exact ⟨_, _, _, _, _, _, _, rfl⟩

theorem sameBut_modSprue (s : State) (f : SprueUnit → SprueUnit) : s.sameBut [.sprue] (s.modSprue f) := by
  intro k hk
  cases k <;> first | exact absurd (by decide) hk | exact ⟨rfl, rfl⟩ | rfl

/-- A frame taken changes what events may, and of the port its line, its sequence numbers and its key. -/
def frameTaken (s t : State) : Prop := s.sameBut (.sprue :: evented) t ∧ portKept s.sprue t.sprue ∧
  ∀ pg F i, quietFld pg F i → (pg ≠ pgSprue ∨ F.apart i SP_LSLACK_STUFF_ERR 0 ∧ F.apart i SP_STATUS_KEYED 0) → t.rd pg F i = s.rd pg F i

theorem frameTaken_refl (s : State) : frameTaken s s := ⟨sameBut_refl _ s, portKept_refl _, fun _ _ _ _ _ => rfl⟩

theorem frameTaken_trans {s t u : State} (h1 : frameTaken s t) (h2 : frameTaken t u) : frameTaken s u :=
  ⟨sameBut_trans h1.1 h2.1, portKept_trans h1.2.1 h2.2.1, fun pg F i hq ha => (h2.2.2 pg F i hq ha).trans (h1.2.2 pg F i hq ha)⟩

theorem frameTaken_raise (s : State) (pg : Nat) (k : EvKind) (info : Bytes) : frameTaken s (s.raise pg k info) :=
  ⟨sameBut_mono (raise_eventOnly _ _ _ _).1 (by decide),
    by rw [show (s.raise pg k info).sprue = s.sprue from raise_same s pg k info .sprue (by decide)]; exact portKept_refl _,
    fun _ _ _ hq _ => rd_raise_quiet _ _ _ _ hq⟩

theorem frameTaken_modSprue (s : State) (f : SprueUnit → SprueUnit) (h : portKept s.sprue (f s.sprue)) : frameTaken s (s.modSprue f) :=
  ⟨sameBut_mono (sameBut_modSprue s f) (by decide), h, fun _ _ _ _ _ => rfl⟩

theorem frameTaken_bump (s : State) (n : Nat) : frameTaken s (s.bump pgSprue SP_LSLACK_STUFF_ERR n) := by
  refine ⟨sameBut_mono (sameBut_bump s _ _ _ _) (by decide), ?_, fun pg F i hq ha => ?_⟩
  · rw [show (s.bump pgSprue SP_LSLACK_STUFF_ERR n).sprue = s.sprue from sameBut_bump s _ _ _ _ .sprue (by decide)]
    exact portKept_refl _
  · rcases ha with hp | ⟨ha, -⟩
    · exact rd_bump_other _ _ _ _ _ (fkey_ne_of_page hp hq.2.1 (by decide))
    · exact rd_bump_apart _ _ _ _ ha

theorem frameTaken_unkeyed (s : State) : frameTaken s (s.wr pgSprue SP_STATUS_KEYED 0) := by
  refine ⟨sameBut_mono (sameBut_wr s _ _ _ _) (by decide), portKept_refl _, fun pg F i hq ha => ?_⟩
  rcases ha with hp | ⟨-, ha⟩
  · exact rd_wr_page _ _ hp hq.2.1 (by decide)
  · exact rd_wr_apart _ _ _ _ ha

theorem frameTaken_sprueLineIn (s : State) (f : Frame) : frameTaken s (s.sprueLineIn f) :=
  frameTaken_trans (frameTaken_modSprue s _ ⟨_, _, _, _, _, _, _, rfl⟩) (frameTaken_bump _ _)

theorem frameTaken_usedSeq (s : State) (d n : Nat) : frameTaken s (s.usedSeq d n) := by
  unfold State.usedSeq
  dsimp only
  split
  on_goal 1 =>
    refine frameTaken_trans ?_ (frameTaken_trans (frameTaken_modSprue _ (fun u => { u with key := none }) ⟨_, _, _, _, _, _, _, rfl⟩)
      (frameTaken_trans (frameTaken_unkeyed _) (frameTaken_raise ..)))
  all_goals
    split
    all_goals
      split
      · exact frameTaken_trans (frameTaken_raise ..) (frameTaken_modSprue _ _ ⟨_, _, _, _, _, _, _, rfl⟩)
      · exact frameTaken_refl s

theorem frameTaken_acceptSeq (s : State) (f : Frame) : frameTaken s (s.acceptSeq f) := by
  unfold State.acceptSeq
  split
  · exact frameTaken_trans (frameTaken_modSprue s (fun u => { u with relaySeq := some f.seq }) ⟨_, _, _, _, _, _, _, rfl⟩) (frameTaken_usedSeq ..)
  · exact frameTaken_trans (frameTaken_modSprue s (fun u => { u with rxSeq := some f.seq }) ⟨_, _, _, _, _, _, _, rfl⟩) (frameTaken_usedSeq ..)

theorem frameTaken_taking (s : State) (f : Frame) : frameTaken s (s.taking f) := by
  unfold State.taking
  split
  · exact frameTaken_trans (frameTaken_sprueLineIn s f) (frameTaken_acceptSeq _ f)
  · exact frameTaken_sprueLineIn s f

/-- A frame that passes its checks is handed on, its SEQ used. -/
theorem checkFrame_of_admits {s : State} {f : Frame} (h : s.admits f) (k : Bool → State → State) :
    s.checkFrame f k = k s.sprue.key.isSome (s.taking f) := by
  obtain ⟨huncorr, hfits, hpkg, hkey⟩ := h
  rw [State.checkFrame, State.taking]
  cases hk : s.sprue.key with
  | none => simp [huncorr, hfits, hpkg]
  | some key =>
    rw [hk] at hkey
    obtain ⟨htag, hstale⟩ := Bool.and_eq_true_iff.mp hkey
    simp_all

/-- What the intake's checks read stays under a frame that is taken. -/
theorem intakeStatus_of_taken {s t : State} (h : frameTaken s t) (keyed : Bool) (op : Nat) (c : Cmd) :
    t.intakeStatus keyed op c = s.intakeStatus keyed op c ∧ t.dueOf c = s.dueOf c := by
  obtain ⟨hsame, ⟨_, _, _, _, _, _, _, hsprue⟩, hrd⟩ := h
  have htime : t.time = s.time := hsame .time (by decide)
  have hboot : t.boot = s.boot := hsame .boot (by decide)
  have hslot : ∀ n, t.slotStart n = s.slotStart n := fun n => by simp only [State.slotStart, htime]
  have hdue : t.dueOf c = s.dueOf c := by simp only [State.dueOf, hslot]
  have hopen : t.opOpen keyed op = s.opOpen keyed op := by simp only [State.opOpen, State.started, hboot]
  have hcount : t.partCount = s.partCount := by
    rw [State.partCount, hrd pgBu PT_CONFIG_ACTIVE 0 (by decide) (.inl (by decide))]
    rfl
  have hpart : t.partOk op c = s.partOk op c := by simp only [State.partOk, hcount]
  have hintake : t.sprue.intake = s.sprue.intake := by rw [hsprue]
  refine ⟨?_, hdue⟩
  simp only [State.intakeStatus, hdue, hslot, hopen, hpart, hintake]

/-! ### Units of a receive buffer (R430) -/

/-- A port's receive buffer for sync units, and its credits, stand as they did. -/
def rxSyncSame (s t : State) : Prop := ∀ q, (t.port q).rxSync = (s.port q).rxSync ∧ (t.port q).freeSync = (s.port q).freeSync

theorem rxSyncSame_of {s t : State} (h : t.runner = s.runner) : rxSyncSame s t := fun q => by rw [State.port, h]; exact ⟨rfl, rfl⟩

theorem rxSyncSame_trans {s t u : State} (h1 : rxSyncSame s t) (h2 : rxSyncSame t u) : rxSyncSame s u :=
  fun q => ⟨(h2 q).1.trans (h1 q).1, (h2 q).2.trans (h1 q).2⟩

theorem port_modPort (s : State) (q : Nat) (f : RPort → RPort) : (s.modPort q f).port q = f (s.port q) := aget_aupd_same ..

theorem port_modPort_other (s : State) {q q' : Nat} (f : RPort → RPort) (h : q' ≠ q) : (s.modPort q f).port q' = s.port q' :=
  aget_aupd_other _ _ _ h

theorem rxSyncSame_modPort (s : State) (q : Nat) (f : RPort → RPort) (hf : ∀ u, (f u).rxSync = u.rxSync ∧ (f u).freeSync = u.freeSync) :
    rxSyncSame s (s.modPort q f) := fun q' => by
  by_cases h : q' = q
  · rw [h, port_modPort]
    exact hf _
  · rw [port_modPort_other s f h]
    exact ⟨rfl, rfl⟩

theorem runner_dropToken (s : State) (r flag who srcPkg : Nat) : (s.dropToken r flag who srcPkg).runner = s.runner :=
  (raise_same _ _ _ _ .runner (by decide)).trans (sameBut_bump s _ _ _ _ .runner (by decide))

theorem rxSyncSame_farToken (s : State) (p : Nat) (k : Token) : rxSyncSame s (s.farToken p k) := by
  unfold State.farToken
  split
  · exact rxSyncSame_modPort s _ _ fun _ => ⟨rfl, rfl⟩
  · exact rxSyncSame_of (sameBut_bump s _ _ _ _ .runner (by decide))

theorem rxSyncSame_tokenIn (s : State) (q : Nat) (k : Token) : rxSyncSame s (s.tokenIn q k) := by
  unfold State.tokenIn
  dsimp only
  split
  · exact rxSyncSame_of (runner_dropToken ..)
  · split
    · split
      · exact rxSyncSame_of rfl
      · exact rxSyncSame_of (runner_dropToken ..)
    · split
      · exact rxSyncSame_of (runner_dropToken ..)
      · exact rxSyncSame_farToken s _ _

theorem rxSyncSame_tokensIn (q : Nat) (l : List Token) (s : State) : rxSyncSame s (l.foldl (fun u k => u.tokenIn q k) s) := by
  induction l generalizing s with
  | nil => exact rxSyncSame_of rfl
  | cons k l ih => exact rxSyncSame_trans (rxSyncSame_tokenIn s q k) (ih _)

theorem exec_ingressUnit_sync (s : State) (q : Fin 24) :
    exec (.ingressUnit q 0) s = finish (evented ++ [.hall, .runner, .net]) s (s.ingressSync q) := rfl

/-- A sync unit that passes leaves the buffer, gives its credit back and sends its tokens on. -/
theorem passSync_passes {s : State} {q : Nat} {b : Bytes × Bool} {rest : List (Bytes × Bool)} (ts : List Token) (hrx : (s.port q).rxSync = b :: rest) :
    ((s.passSync q ts).port q).rxSync = rest ∧ ((s.passSync q ts).port q).freeSync = (s.port q).freeSync + 1 ∧
    (s.passSync q ts).net = (ts.foldl (fun u k => u.tokenIn q k) s).net := by
  obtain ⟨hsync, hfree⟩ := rxSyncSame_tokensIn q ts s q
  refine ⟨?_, ?_, rfl⟩
  · rw [State.passSync, port_modPort]
    change List.drop 1 (State.port _ q).rxSync = rest
    rw [hsync, hrx]
    rfl
  · rw [State.passSync, port_modPort]
    exact congrArg (· + 1) hfree

theorem leads_ingressSync {s : State} {q : Fin 24} {b : Bytes} {z : Bool} {rest : List (Bytes × Bool)} (hrx : (s.port q).rxSync = (b, z) :: rest)
    (ts : List Token) (hpass : s.ingressSync q = s.passSync q ts) :
    Leads (.ingressUnit q 0) s fun t => (t.port q).rxSync = rest ∧ (t.port q).freeSync = (s.port q).freeSync + 1 ∧
      t.net = (ts.foldl (fun u k => u.tokenIn q k) s).net := by
  have hexec := exec_ingressUnit_sync s q
  rw [hpass] at hexec
  exact ⟨_, hexec, passSync_passes ts hrx⟩

theorem ingressSync_open {s : State} {q : Nat} {b : Bytes} {z : Bool} {rest : List (Bytes × Bool)} (hrx : (s.port q).rxSync = (b, z) :: rest)
    (hstop : (s.port q).stop = none) (hf : s.foreign q = false) : s.ingressSync q = s.passSync q (tokensOf b) := by
  have hnow : s.stopNow q = none := by rw [State.stopNow, hstop]; rfl
  simp only [State.ingressSync, hrx, hf, hnow, Bool.false_eq_true, if_false]

theorem ingressSync_foreign {s : State} {q : Nat} {b : Bytes} {z : Bool} {rest : List (Bytes × Bool)} (hrx : (s.port q).rxSync = (b, z) :: rest)
    (hf : s.foreign q = true) : s.ingressSync q = s.passSync q [] := by
  simp only [State.ingressSync, hrx, hf, if_true]

theorem leads_ingressUnit_none {s : State} {q : Fin 24} (vc : Fin 3) (hs : (s.port q).rxSync = []) (hi : (s.port q).rxIndigo = [])
    (hw : (s.port q).rxWoad = []) : Leads (.ingressUnit q vc) s fun t => s.sameBut [] t := by
  refine leads_unchanged (l := evented ++ [.hall, .runner, .net]) ?_
  rw [show exec (.ingressUnit q vc) s = execIngressUnit q vc s from rfl, execIngressUnit]
  congr 1
  split
  · simp only [State.ingressSync, hs]
  · simp only [State.ingressIndigo, hi]
  · simp only [State.ingressWoad, hw]

/-! ### Transit (R424) -/

theorem leads_transitPacket {s : State} {q : Fin 24} {e : Nat × Packet} {o p : Nat}
    (hfind : s.hall.inbox.find? (fun x => decide (x.1 = q.val ∧ x.2.op ≠ 0x3F)) = some e)
    (hmemb : s.membState (e.2.dest / 2 ^ 48 % 2 ^ 16) = 2) (hhops : e.2.hops + 1 ≤ s.rd pgHall NW_HHOPMAX_MAX) (hown : s.rnOwner q = some p)
    (hroute : s.routeFor p (e.2.dest / 2 ^ 48 % 2 ^ 16) = some o) :
    Leads (.transitPacket q) s fun t =>
      t.hall.inbox = s.hall.inbox.erase e ∧ (∃ x ∈ (t.port o).txIndigo ++ (t.port o).txWoad, x.pkt = { e.2 with hops := e.2.hops + 1 }) := by
  obtain ⟨s1, hs1⟩ : ∃ s1, s1 = s.modHall fun h => { h with inbox := h.inbox.erase e } := ⟨_, rfl⟩
  obtain ⟨x, hx⟩ : ∃ x : TxPkt, x = { pkt := { e.2 with hops := e.2.hops + 1 } } := ⟨_, rfl⟩
  have hexec : exec (.transitPacket q) s = finish [.regs, .hall, .runner] s (s1.enqueue o (bit e.2.ctrl 3) x) := by
    rw [show exec (.transitPacket q) s = execTransitPacket q s from rfl, execTransitPacket]
    have hm1 : s1.membState (e.2.dest / 2 ^ 48 % 2 ^ 16) = 2 := by rw [hs1]; exact hmemb
    have hh1 : ¬ s1.rd pgHall NW_HHOPMAX_MAX < e.2.hops + 1 := by rw [hs1]; exact Nat.not_lt.mpr hhops
    have ho1 : (s1.rnOwner q).bind (fun o => s1.routeFor o (e.2.dest / 2 ^ 48 % 2 ^ 16)) = some o := by
      rw [hs1]
      change (s.rnOwner q).bind (fun o => s.routeFor o (e.2.dest / 2 ^ 48 % 2 ^ 16)) = some o
      rw [hown]
      exact hroute
    simp only [hfind, ← hs1, State.transit, hm1, hh1, ho1, hx]
    simp
  refine ⟨_, hexec, ?_, x, ?_, hx ▸ rfl⟩
  · rw [hs1]; rfl
  · change x ∈ ((s1.enqueue o (bit e.2.ctrl 3) x).port o).txIndigo ++ ((s1.enqueue o (bit e.2.ctrl 3) x).port o).txWoad
    rw [State.enqueue, port_modPort]
    cases bit e.2.ctrl 3 <;> simp

/-! ### STOP_RELAY (R429) -/

theorem frameTaken_hall {s t : State} (h : frameTaken s t) : t.hall = s.hall := h.1 .hall (by decide)

theorem leads_stopRelay_takes {s : State} {q : Fin 24} {e : Nat × Packet} {f : Frame}
    (hfind : s.hall.inbox.find? (fun x => decide (x.1 = q.val ∧ x.2.op = 0x3F)) = some e) (hf : f = frameOf e.2.payload) (hty : f.ty = 0x02)
    (hadm : s.admits f) (hnew : s.sprue.memory.find? (fun x => decide (x.1 = (cmdOf f true).id)) = none)
    (hst : s.intakeStatus s.sprue.key.isSome (opOf f) (cmdOf f true) = 0) :
    Leads (.stopRelay q) s fun t =>
      t.hall.inbox = s.hall.inbox.erase e ∧ t.hall.relayIn = s.hall.relayIn ++ [((cmdOf f true).id, q.val, e.2)] ∧
      t.sprue.intake = enqueueCmd ⟨opOf f, cmdOf f true, s.dueOf (cmdOf f true)⟩ s.sprue.intake := by
  obtain ⟨s1, hs1⟩ : ∃ s1, s1 = s.modHall fun h => { h with inbox := h.inbox.erase e } := ⟨_, rfl⟩
  obtain ⟨u, hu⟩ : ∃ u, u = s1.taking f := ⟨_, rfl⟩
  obtain ⟨v, hv⟩ : ∃ v, v = u.modHall fun h => { h with relayIn := h.relayIn ++ [((cmdOf f true).id, q.val, e.2)] } := ⟨_, rfl⟩
  have hadm1 : s1.admits f := by rw [hs1]; exact hadm
  have htaken : frameTaken s1 u := hu ▸ frameTaken_taking s1 f
  have hstat := intakeStatus_of_taken htaken s.sprue.key.isSome (opOf f) (cmdOf f true)
  have hs1stat : s1.intakeStatus s.sprue.key.isSome (opOf f) (cmdOf f true) = 0 := by rw [hs1]; exact hst
  have hs1due : s1.dueOf (cmdOf f true) = s.dueOf (cmdOf f true) := by rw [hs1]; rfl
  obtain ⟨_, _, _, _, _, _, _, hsprue⟩ := htaken.2.1
  have hs1sprue : s1.sprue = s.sprue := by rw [hs1]; rfl
  have hvsprue : v.sprue = u.sprue := by rw [hv]; rfl
  have hvst : v.intakeStatus s.sprue.key.isSome (opOf f) (cmdOf f true) = 0 := by rw [hv]; exact hstat.1.trans hs1stat
  have hvdue : v.dueOf (cmdOf f true) = s.dueOf (cmdOf f true) := by rw [hv]; exact hstat.2.trans hs1due
  have hexec : exec (.stopRelay q) s = finish answered s (v.takeCmd (opOf f) (cmdOf f true)) := by
    rw [show exec (.stopRelay q) s = execStopRelay q s from rfl, execStopRelay]
    have hmem : v.sprue.memory.find? (fun x => decide (x.1 = (cmdOf f true).id)) = none := by rw [hvsprue, hsprue, hs1sprue]; exact hnew
    simp only [hfind, ← hs1, ← hf, hty, ne_eq, not_true_eq_false, if_false, checkFrame_of_admits hadm1, hs1sprue, ← hu, ← hv]
    rw [State.intake, hmem]
    simp only [hvst, if_true]
  have hhall : u.hall = s1.hall := frameTaken_hall htaken
  refine ⟨_, hexec, ?_, ?_, ?_⟩
  · change v.hall.inbox = _
    rw [hv]
    change u.hall.inbox = _
    rw [hhall, hs1]
    rfl
  · change v.hall.relayIn = _
    rw [hv]
    change u.hall.relayIn ++ _ = _
    rw [hhall, hs1]
    rfl
  · change enqueueCmd ⟨opOf f, cmdOf f true, v.dueOf (cmdOf f true)⟩ v.sprue.intake = _
    rw [hvdue, hvsprue, hsprue, hs1sprue]

theorem leads_stopRelay_discards {s : State} {q : Fin 24} {e : Nat × Packet}
    (hfind : s.hall.inbox.find? (fun x => decide (x.1 = q.val ∧ x.2.op = 0x3F)) = some e) (hty : (frameOf e.2.payload).ty ≠ 0x02) :
    Leads (.stopRelay q) s fun t => t.hall.inbox = s.hall.inbox.erase e ∧ t.sprue = s.sprue ∧
      t.rd pgSprue SP_DISCARD_COUNT = min (s.rd pgSprue SP_DISCARD_COUNT + 1) (2 ^ SP_DISCARD_COUNT.width - 1) := by
  obtain ⟨s1, hs1⟩ : ∃ s1, s1 = s.modHall fun h => { h with inbox := h.inbox.erase e } := ⟨_, rfl⟩
  have hexec : exec (.stopRelay q) s = finish answered s (s1.bump pgSprue SP_DISCARD_COUNT) := by
    rw [show exec (.stopRelay q) s = execStopRelay q s from rfl, execStopRelay]
    simp only [hfind, ← hs1, hty, ne_eq, not_false_eq_true, if_true]
    rfl
  have hsame := sameBut_bump s1 pgSprue SP_DISCARD_COUNT 1 0
  refine ⟨_, hexec, ?_, ?_, ?_⟩
  · exact (congrArg Hall.inbox (hsame .hall (by decide))).trans (by rw [hs1]; rfl)
  · exact (hsame .sprue (by decide)).trans (by rw [hs1]; rfl)
  · exact (rd_bump_same s1 _ _ _ _).trans (by rw [hs1]; rfl)

/-! ### A STOP that expires (R434) -/

theorem showStop_none_ends (s : State) (q q' : Nat) (hq : q < 24) (hq' : q' < 24) :
    (q = q' ∨ (s.port q).stop = none ∧ s.rd pgHall NW_HSTOP_ACTION q = 0) →
      ((s.showStop q' none).port q).stop = none ∧ (s.showStop q' none).rd pgHall NW_HSTOP_ACTION q = 0 := by
  intro h
  have hport : ∀ (u : State) (a b c d : Nat), (u.wrs pgHall [(NW_HSTOP_ACTION, a), (NW_HSTOP_CLASSES, b), (NW_HSTOP_LIMIT, c),
      (NW_HSTOP_SRC, d)] q').port q = u.port q := fun _ _ _ _ _ => rfl
  unfold State.showStop
  dsimp only
  rw [hport]
  by_cases heq : q = q'
  · subst heq
    rw [port_modPort, rd_wrs_head _ _ _ _ _ _ (by simp [NW_HSTOP_ACTION, NW_HSTOP_CLASSES, NW_HSTOP_LIMIT, NW_HSTOP_SRC, Fld.apart, Fld.inPage, Fld.at]; omega)]
    exact ⟨rfl, rfl⟩
  · obtain ⟨hst, hact⟩ := h.resolve_left heq
    rw [port_modPort_other _ _ heq, rd_wrs_apart _ _ _ _ (by simp [NW_HSTOP_ACTION, NW_HSTOP_CLASSES, NW_HSTOP_LIMIT, NW_HSTOP_SRC, Fld.apart, Fld.inPage, Fld.at]; omega)]
    exact ⟨hst, hact⟩

theorem foldl_showStop_none (q : Nat) (hq : q < 24) (l : List Nat) (hl : ∀ x ∈ l, x < 24) (s : State)
    (h : q ∈ l ∨ (s.port q).stop = none ∧ s.rd pgHall NW_HSTOP_ACTION q = 0) :
    ((l.foldl (fun s x => s.showStop x none) s).port q).stop = none ∧
    (l.foldl (fun s x => s.showStop x none) s).rd pgHall NW_HSTOP_ACTION q = 0 := by
  induction l generalizing s with
  | nil => exact h.resolve_left List.not_mem_nil
  | cons x l ih =>
    have hx := hl x List.mem_cons_self
    refine ih (fun y hy => hl y (List.mem_cons_of_mem x hy)) _ ?_
    rcases h with hmem | hdone
    · rcases List.mem_cons.mp hmem with heq | hmem
      · exact .inr (showStop_none_ends s q x hq hx (.inl heq))
      · exact .inl hmem
    · exact .inr (showStop_none_ends s q x hq hx (.inr hdone))

theorem leads_stopExpiry {s : State} {q : Fin 24} {f : StopFilter} {e : Nat} (hstop : (s.port q).stop = some f) (hends : f.ends = some e)
    (hdue : e ≤ s.time.slots) : Leads (.stopExpiry q) s fun t => (t.port q).stop = none ∧ t.rd pgHall NW_HSTOP_ACTION q = 0 := by
  obtain ⟨l, hl⟩ : ∃ l, l = (List.range 24).filter fun x => decide ((s.port x).stop.map (fun g => (g.id, g.ends)) = some (f.id, f.ends)) := ⟨_, rfl⟩
  obtain ⟨u, hu⟩ : ∃ u, u = l.foldl (fun s x => s.showStop x none) s := ⟨_, rfl⟩
  have hexec : exec (.stopExpiry q) s = finish (evented ++ [.runner]) s (u.raise pgHall ev_NW_STOP_END (le 4 f.id ++ le 3 f.ports)) := by
    rw [show exec (.stopExpiry q) s = execStopExpiry q s from rfl, execStopExpiry]
    simp only [hstop, hends, Option.any_some, hdue, decide_true, if_true, hu, hl]
  have hmem : q.val ∈ l := by
    rw [hl, List.mem_filter]
    exact ⟨List.mem_range.mpr q.isLt, by rw [hstop]; simp⟩
  have hends := foldl_showStop_none q q.isLt l (fun x hx => by rw [hl] at hx; exact List.mem_range.mp (List.mem_filter.mp hx).1) s (.inl hmem)
  rw [← hu] at hends
  refine ⟨_, hexec, ?_, ?_⟩
  · change (State.port (State.raise _ _ _ _) q).stop = none
    rw [State.port, show (State.raise _ _ _ _).runner = _ from raise_same u _ _ _ .runner (by decide)]
    exact hends.1
  · refine (rd_raise_quiet _ _ _ _ ?_).trans hends.2
    refine quietFld_of_page ?_ ?_ (by decide) (by decide)
    · simp [NW_HSTOP_ACTION, Fld.inPage, Fld.at]; omega
    · simp [NW_HSTOP_ACTION, Fld.at]; omega

/-- Settles O27, unit by unit: what passes leaves its buffer or inbox first, and tokens, routes and the intake do not read either. -/
theorem packetsPass : Obligations.PacketsPass := by
  unfold Obligations.PacketsPass
  exact ⟨fun _ _ b _ _ hrx hstop hf => leads_ingressSync hrx (tokensOf b) (ingressSync_open hrx hstop hf),
    fun _ _ _ _ _ hrx hf => leads_ingressSync hrx [] (ingressSync_foreign hrx hf),
    fun _ _ vc hs hi hw => leads_ingressUnit_none vc hs hi hw,
    fun _ _ _ _ _ hfind _ hmemb hhops hown hroute => leads_transitPacket hfind hmemb hhops hown hroute,
    fun _ _ _ _ hfind hf hty hadm hnew hst => leads_stopRelay_takes hfind hf hty hadm hnew hst,
    fun _ _ _ hfind hty => leads_stopRelay_discards hfind hty,
    fun _ _ _ _ hstop hends hdue => leads_stopExpiry hstop hends hdue⟩

end Sys2Proof.Machine
end

section
/-!
Proofs of the family 11_hall_memory.md: STOP and RELAY (O28).
-/

namespace Sys2Proof.Machine

open Sys2Proof

/-! ### What a completion leaves of the ports and of the hall fabric -/

/-- A completion only queues answers at the ports, and of the hall fabric ends what was relayed. -/
def answersOnly (s t : State) : Prop :=
  (∀ q, ∃ l, t.port q = { s.port q with txIndigo := (s.port q).txIndigo ++ l }) ∧ ∃ r, t.hall = { s.hall with relayIn := r }

theorem answersOnly_of {s t : State} (hr : t.runner = s.runner) (hh : t.hall = s.hall) : answersOnly s t :=
  ⟨fun q => ⟨[], by rw [State.port, hr, List.append_nil]; rfl⟩, s.hall.relayIn, by rw [hh]⟩

theorem answersOnly_trans {s t u : State} (h1 : answersOnly s t) (h2 : answersOnly t u) : answersOnly s u := by
  refine ⟨fun q => ?_, ?_⟩
  · obtain ⟨l, hl⟩ := h1.1 q
    obtain ⟨m, hm⟩ := h2.1 q
    exact ⟨l ++ m, by rw [hm, hl, List.append_assoc]⟩
  · obtain ⟨r, hr⟩ := h1.2
    obtain ⟨r', hr'⟩ := h2.2
    exact ⟨r', by rw [hr', hr]⟩

theorem answersOnly_sendTx (s : State) (f : TxFrame) : answersOnly s (s.sendTx f) := by
  unfold State.sendTx
  split
  · exact answersOnly_of rfl rfl
  · exact answersOnly_of (sameBut_bump s _ _ _ _ .runner (by decide)) (sameBut_bump s _ _ _ _ .hall (by decide))

theorem answersOnly_relayAnswer (s : State) (id status : Nat) : answersOnly s (s.relayAnswer id status) := by
  unfold State.relayAnswer
  split
  · exact answersOnly_of rfl rfl
  · refine ⟨fun q => ?_, _, rfl⟩
    rename_i q' p _
    change ∃ l, aget {} (aupd {} s.runner q' fun u => { u with txIndigo := u.txIndigo ++ _ }) q = _
    by_cases h : q = q'
    · subst h
      rw [aget_aupd_same]
      exact ⟨_, rfl⟩
    · rw [aget_aupd_other _ _ _ h]
      exact ⟨[], by rw [List.append_nil]; rfl⟩

theorem answersOnly_complete (s : State) (op : Nat) (c : Cmd) (st : Nat) (d : Bytes) (a : Option Nat) : answersOnly s (s.complete op c st d a) := by
  have h : answersOnly s (((s.closeCmd c.id (some (.rsp c.id op st (a.getD s.time.ticks) c.part d))).sendTx
      (.rsp c.id op st (a.getD s.time.ticks) c.part d)).relayAnswer c.id st) :=
    answersOnly_trans (t := s.closeCmd c.id _) (answersOnly_of rfl rfl) (answersOnly_trans (answersOnly_sendTx _ _) (answersOnly_relayAnswer _ _ _))
  unfold State.complete
  dsimp only
  split
  · exact h
  · exact answersOnly_trans h (answersOnly_of (raise_same _ _ _ _ .runner (by decide)) (raise_same _ _ _ _ .hall (by decide)))

/-- The answer to a command that acted reads as completed at the state it acted from. -/
theorem completed_only {s u : State} (l : List Comp) (op : Nat) (c : Cmd) (st : Nat) (d : Bytes) (hl : .sprue ∈ l) (htime : u.time.ticks = s.time.ticks) :
    s.completed (s.only l (u.complete op c st d)) op c st d := by
  have h := completed_of_time htime (complete_completed u op c st d)
  rw [State.completed, State.rspOf] at h ⊢
  rw [only_sprue, if_pos (by simpa using hl)]
  exact h

/-! ### STOP (R434) -/

theorem stop_stopPort (s : State) (g : StopFilter) (q q' : Nat) (h : q' = q ∧ (s.port q).stop.map StopFilter.id ≠ some g.id ∨
    (s.port q).stop = if g.action = 0 then none else some g) :
    ((s.stopPort g q').port q).stop = if g.action = 0 then none else some g := by
  have hport : ∀ (u : State) (a b c d : Nat), (u.wrs pgHall [(NW_HSTOP_ACTION, a), (NW_HSTOP_CLASSES, b), (NW_HSTOP_LIMIT, c),
      (NW_HSTOP_SRC, d)] q').port q = u.port q := fun _ _ _ _ _ => rfl
  unfold State.stopPort
  split
  case isTrue hid =>
    rcases h with ⟨rfl, hne⟩ | h
    · exact absurd hid hne
    · exact h
  case isFalse hid =>
    unfold State.showStop
    dsimp only
    rw [hport]
    by_cases heq : q = q'
    · subst heq
      rw [port_modPort]
    · rw [port_modPort_other _ _ heq]
      exact h.resolve_left fun hh => heq hh.1.symm

theorem stop_stopPort_other (s : State) (g : StopFilter) {q q' : Nat} (h : q ≠ q') : ((s.stopPort g q').port q).stop = (s.port q).stop := by
  have hport : ∀ (u : State) (a b c d : Nat), (u.wrs pgHall [(NW_HSTOP_ACTION, a), (NW_HSTOP_CLASSES, b), (NW_HSTOP_LIMIT, c),
      (NW_HSTOP_SRC, d)] q').port q = u.port q := fun _ _ _ _ _ => rfl
  unfold State.stopPort
  split
  · rfl
  · unfold State.showStop
    dsimp only
    rw [hport, port_modPort_other _ _ h]

theorem stop_stopPorts (g : StopFilter) (q : Nat) (l : List Nat) (s : State) (h : q ∈ l ∧ (s.port q).stop.map StopFilter.id ≠ some g.id ∨
    (s.port q).stop = if g.action = 0 then none else some g) :
    ((l.foldl (fun s x => s.stopPort g x) s).port q).stop = if g.action = 0 then none else some g := by
  induction l generalizing s with
  | nil => exact h.resolve_left fun hh => absurd hh.1 List.not_mem_nil
  | cons x l ih =>
    refine ih _ ?_
    by_cases heq : q = x
    · subst heq
      exact .inr (stop_stopPort s g q q (h.imp (fun hh => ⟨rfl, hh.2⟩) id))
    · rw [stop_stopPort_other s g heq]
      exact h.imp (fun hh => ⟨(List.mem_cons.mp hh.1).resolve_left heq, hh.2⟩) id

theorem sameBut_modPort (s : State) (q : Nat) (f : RPort → RPort) : s.sameBut [.runner] (s.modPort q f) := by
  intro k hk
  cases k <;> first | exact absurd (by decide) hk | exact ⟨rfl, rfl⟩ | rfl

theorem sameBut_stopPort (s : State) (g : StopFilter) (q : Nat) : s.sameBut [.regs, .runner] (s.stopPort g q) := by
  unfold State.stopPort
  split
  · exact sameBut_refl _ s
  · exact sameBut_trans (sameBut_mono (sameBut_modPort s q _) (by decide)) (sameBut_mono (sameBut_wrs _ _ _ _) (by decide))

/-- What a STOP puts in force on each of its ports. -/
def stopFilter (s : State) (c : Cmd) : StopFilter :=
  { stopOf c with starts := s.time.slots + 1
                  ends := if fieldAt c.args 0x10 4 = 0 then none else some (s.time.slots + 1 + fieldAt c.args 0x10 4) }

theorem leads_stop {s : State} {c : Cmd} {q : Nat} (hturn : s.turnFirst c = true) (hpart : s.partOk 0x0010 c = true)
    (hact : (stopOf c).action < 3) (hcls : (stopOf c).classes < 8) (hlim : (stopOf c).limit ≤ 1024) (hdur : fieldAt c.args 0x10 4 < 2 ^ 20)
    (hnot : ¬((stopOf c).action = 2 ∧ bit (stopOf c).classes 1 = true)) (hq : q ∈ stopPorts (stopOf c).ports)
    (hid : (s.port q).stop.map StopFilter.id ≠ some (stopOf c).id) :
    Leads (.stop c) s fun t =>
      s.completed t 0x0010 c 0 ∧ t.rd pgHall NW_HSTOP_ID_ID = (stopOf c).id % 2 ^ 32 ∧
      (t.port q).stop = (if (stopOf c).action = 0 then none else some (stopFilter s c)) := by
  obtain ⟨s1, hs1⟩ : ∃ s1, s1 = (stopPorts (stopOf c).ports).foldl (fun u x => u.stopPort (stopFilter s c) x) s := ⟨_, rfl⟩
  obtain ⟨info, hinfo⟩ : ∃ info, info = le 4 (stopOf c).id ++ le 3 (stopOf c).ports ++ le 1 (stopOf c).action ++ le 1 (stopOf c).classes ++
    le 1 0 ++ le 2 (stopOf c).src ++ le 1 c.relayed.toNat := ⟨_, rfl⟩
  obtain ⟨s2, hs2⟩ : ∃ s2, s2 = (s1.wr pgHall NW_HSTOP_ID_ID (stopOf c).id).raise pgHall ev_NW_STOP info := ⟨_, rfl⟩
  have hcheck : firstStatus [(decide (3 ≤ (stopOf c).action) || decide (8 ≤ (stopOf c).classes) || decide (1024 < (stopOf c).limit) ||
      decide (2 ^ 20 ≤ fieldAt c.args 0x10 4) || (decide ((stopOf c).action = 2) && bit (stopOf c).classes 1), stBADFORMAT)] = 0 := by
    have h5 : (decide ((stopOf c).action = 2) && bit (stopOf c).classes 1) = false := by
      rw [Bool.and_eq_false_iff, decide_eq_false_iff_not, ← Bool.not_eq_true]
      exact (not_and_or.mp hnot)
    rw [h5, decide_eq_false (by omega), decide_eq_false (by omega), decide_eq_false (by omega), decide_eq_false (by omega)]
    rfl
  have hexec : exec (.stop c) s = finish answered s (s2.complete 0x0010 c 0) := by
    rw [show exec (.stop c) s = execStop c s from rfl, execStop]
    dsimp only
    rw [hcheck, hturn, actIf_ok s _ _ _ _ hpart, hs2, hs1, hinfo]
    rfl
  have h01 : s.sameBut [.regs, .runner] s1 := hs1 ▸ sameBut_foldl _ (fun u x => sameBut_stopPort u _ x) _ _
  have htime : s2.time = s.time := by
    rw [hs2, raise_time]
    exact h01 .time (by decide)
  refine ⟨_, hexec, completed_only _ _ _ _ _ (by decide) (by rw [htime]), ?_, ?_⟩
  · refine (rd_complete s2 _ _ _ _ _ (by decide) (.inr (by decide))).trans ?_
    rw [hs2, rd_raise_quiet _ _ _ _ (by decide)]
    exact rd_wr_same ..
  · change ((s2.complete 0x0010 c 0).port q).stop = _
    obtain ⟨l, hl⟩ := (answersOnly_complete s2 0x0010 c 0 [] none).1 q
    rw [hl]
    change (s2.port q).stop = _
    rw [State.port, hs2, show (State.raise _ _ _ _).runner = _ from raise_same (s1.wr pgHall NW_HSTOP_ID_ID (stopOf c).id) _ _ _ .runner (by decide)]
    change (s1.port q).stop = _
    rw [hs1]
    exact stop_stopPorts (stopFilter s c) q _ s (.inl ⟨hq, hid⟩)

/-! ### RELAY (R429) -/

/-- The packet that carries a relayed frame. -/
def relayPacket (s : State) (c : Cmd) : Packet :=
  { dest := s.rd (pgRunner (fieldAt c.args 0x00 1)) RN_PARTNER_PACKAGE * 2 ^ 48, src := pgSprue, op := 0x3F, ctrl := 8, tag := c.id % 65536
    srcPkg := s.pkg, body := List.replicate 32 0, payload := slice c.args 0x10 (32 + fieldAt c.args 0x12 2) }

theorem leads_relay {s : State} {c : Cmd} (hturn : s.turnFirst c = true) (hpart : s.partOk 0x0011 c = true) (hq : fieldAt c.args 0x00 1 < 24)
    (hlen : fieldAt c.args 0x12 2 ≤ 416) :
    Leads (.relay c) s fun t =>
      s.completed t 0x0011 c 0 ∧ aget 0 t.hall.relays (c.id % 65536) = fieldAt c.args 0x00 1 ∧
      ∃ x ∈ (t.port (fieldAt c.args 0x00 1)).txIndigo, x.pkt.op = 0x3F ∧ x.pkt.payload = slice c.args 0x10 (32 + fieldAt c.args 0x12 2) := by
  obtain ⟨q, hqv⟩ : ∃ q, q = fieldAt c.args 0x00 1 := ⟨_, rfl⟩
  obtain ⟨p, hp⟩ : ∃ p, p = relayPacket s c := ⟨_, rfl⟩
  obtain ⟨u, hu⟩ : ∃ u, u = (s.enqueue q true { pkt := p }).modHall fun h => { h with relays := ains (c.id % 65536) q h.relays } := ⟨_, rfl⟩
  have hcheck : firstStatus [(decide (24 ≤ q) || decide (416 < fieldAt c.args 0x12 2), stBADFORMAT)] = 0 := by
    rw [decide_eq_false (by omega), decide_eq_false (by omega)]
    rfl
  have hexec : exec (.relay c) s = finish answered s (u.complete 0x0011 c 0) := by
    rw [show exec (.relay c) s = execRelay c s from rfl, execRelay]
    dsimp only
    rw [← hqv, hcheck, hturn, actIf_ok s _ _ _ _ hpart, hu, hp, hqv]
    rfl
  obtain ⟨hports, r, hhall⟩ := answersOnly_complete u 0x0011 c 0 [] none
  rw [← hqv]
  refine ⟨_, hexec, completed_only _ _ _ _ _ (by decide) (by rw [hu]; rfl), ?_, { pkt := p }, ?_, by rw [hp]; rfl, by rw [hp]; rfl⟩
  · change aget 0 (u.complete 0x0011 c 0).hall.relays _ = _
    rw [hhall, hu]
    exact aget_ains_same ..
  · change _ ∈ ((u.complete 0x0011 c 0).port q).txIndigo
    obtain ⟨l, hl⟩ := hports q
    have hport : u.port q = { s.port q with txIndigo := (s.port q).txIndigo ++ [{ pkt := p }] } := by
      rw [hu]
      change (State.enqueue s q true _).port q = _
      rw [State.enqueue, port_modPort]
      rfl
    rw [hl, hport]
    simp

/-- Settles O28: both act through the ports before they complete, and a completion only queues answers there. -/
theorem stopAndRelayAct : Obligations.StopAndRelayAct := by
  unfold Obligations.StopAndRelayAct
  exact ⟨fun _ _ _ hturn hpart hact hcls hlim hdur hnot hq hid => leads_stop hturn hpart hact hcls hlim hdur hnot hq hid,
    fun _ _ hturn hpart hq hlen => leads_relay hturn hpart hq hlen⟩

end Sys2Proof.Machine
end

section
/-!
Proofs of the family 02_hall_time.md: POUR, HOLD and RELEASE (O29).
-/

namespace Sys2Proof.Machine

open Sys2Proof

theorem part_modPart (s : State) (p : Nat) (f : Part → Part) : (s.modPart p f).part p = f (s.part p) := aget_aupd_same ..

theorem part_modPart_other (s : State) {p j : Nat} (f : Part → Part) (h : j ≠ p) : (s.modPart p f).part j = s.part j := aget_aupd_other _ _ _ h

/-- A command of one turn that acts, its effect completed OK. -/
theorem leads_acts {s : State} {i : Instr} {op : Nat} {c : Cmd} {eff : State → State} {P : State → Prop} (h : s.acts op c)
    (hexec : exec i s = finish answered s (s.act1 op c 0 eff))
    (hP : P (s.only answered ((eff s).complete op c 0))) : Leads i s P :=
  ⟨_, by rw [hexec, act1_ok s op c eff [] h.1 h.2, finish], hP⟩

/-- A command of one turn that a check refuses. -/
theorem leads_refused {s : State} {i : Instr} {op : Nat} {c : Cmd} {st : Nat} {eff : State → State} (h : s.acts op c) (hst : st ≠ 0)
    (hexec : exec i s = finish answered s (s.act1 op c st eff)) : Leads i s fun t => s.completed t op c st :=
  ⟨_, by rw [hexec, act1_refused s op c st eff [] h.1 h.2 hst, finish], completed_only _ _ _ _ _ (by decide) rfl⟩

theorem part_complete_ok (s u : State) (op : Nat) (c : Cmd) (p : Nat) : (s.only answered (u.complete op c 0)).part p = u.part p := by
  change (u.complete op c 0).part p = u.part p
  rw [State.part, show (u.complete op c 0).parts = u.parts from sameBut_complete_ok u op c [] none .parts (by decide)]
  rfl

theorem pourCheck_ok {s : State} {c : Cmd} {k e : Nat} (hk : fieldAt c.args 0x00 1 = k) (he : fieldAt c.args 0x08 8 = e) (hk2 : k < 2)
    (hst : ((s.part c.part).slot k).st = .loaded) (hlive : (s.part c.part).run.live = false) (hearly : s.tooEarly e = false)
    (hlock : s.time.state = .locked) (hpin : s.holdPin = false) (hprot : s.protectHold c.part = false) (hshut : s.partShut c.part = false)
    (hrot : s.rotating c.part = false) : s.pourCheck c = 0 := by
  simp [State.pourCheck, firstStatus, hk, he, hst, hlive, hearly, hlock, hpin, hprot, hshut, hrot, hk2]

theorem leads_pour {s : State} {c : Cmd} {k e : Nat} (h : s.acts 0x0002 c) (hk : fieldAt c.args 0x00 1 = k) (he : fieldAt c.args 0x08 8 = e)
    (hcheck : s.pourCheck c = 0) :
    Leads (.pour c) s fun t =>
      s.completed t 0x0002 c 0 ∧ (t.part c.part).run = .armed ∧ (t.part c.part).active = k ∧ (t.part c.part).startE = e ∧
      ((t.part c.part).slot k) = ((s.part c.part).slot k) ∧ ∀ p, p ≠ c.part → t.part p = s.part p := by
  refine leads_acts (i := .pour c) (eff := fun s => s.modPart c.part fun q => q.arm 0x0002 c.id (fieldAt c.args 0x00 1) (fieldAt c.args 0x08 8)) h
    (by rw [show exec (.pour c) s = execPour c s from rfl, execPour, hcheck]) ?_
  refine ⟨completed_only _ _ _ _ _ (by decide) rfl, ?_, ?_, ?_, ?_, fun p hp => ?_⟩
  all_goals rw [part_complete_ok]
  · rw [part_modPart]; rfl
  · rw [part_modPart]; exact hk
  · rw [part_modPart]; exact he
  · rw [part_modPart]; rfl
  · exact part_modPart_other s _ hp

theorem releaseCheck_ok {s : State} {c : Cmd} {e : Nat} (he : fieldAt c.args 0x08 8 = e) (hheld : (s.part c.part).run = .held)
    (hgone : (s.part c.part).gone = false) (hst : ((s.part c.part).slot (s.part c.part).active).st = .loaded) (hearly : s.tooEarly e = false)
    (hlock : s.time.state = .locked) (hpin : s.holdPin = false) (hprot : s.protectHold c.part = false) (hshut : s.partShut c.part = false)
    (hrot : s.rotating c.part = false) : s.releaseCheck c = 0 := by
  simp [State.releaseCheck, firstStatus, he, hheld, hgone, hst, hearly, hlock, hpin, hprot, hshut, hrot]

theorem leads_release {s : State} {c : Cmd} {e : Nat} (h : s.acts 0x0004 c) (he : fieldAt c.args 0x08 8 = e) (hcheck : s.releaseCheck c = 0) :
    Leads (.release c) s fun t =>
      s.completed t 0x0004 c 0 ∧ (t.part c.part).run = .armed ∧ (t.part c.part).active = (s.part c.part).active ∧
      (t.part c.part).startE = e ∧ (t.part c.part).rel = (s.part c.part).rel ∧ ∀ p, p ≠ c.part → t.part p = s.part p := by
  refine leads_acts (i := .release c) (eff := fun s => s.modPart c.part fun q => q.arm 0x0004 c.id q.active (fieldAt c.args 0x08 8)) h
    (by rw [show exec (.release c) s = execRelease c s from rfl, execRelease, hcheck]) ?_
  refine ⟨completed_only _ _ _ _ _ (by decide) rfl, ?_, ?_, ?_, ?_, fun p hp => ?_⟩
  all_goals rw [part_complete_ok]
  · rw [part_modPart]; rfl
  · rw [part_modPart]; rfl
  · rw [part_modPart]; exact he
  · rw [part_modPart]; rfl
  · exact part_modPart_other s _ hp

/-- Each partition that a HOLD names is held once, and no other. -/
theorem holdNames_part (s : State) (c : Cmd) (p : Nat) : ((s.holdNames c).foldl State.holdPart s).part p =
    if (if c.part = 0xFF then p < s.partCount else p = c.part) then (s.part p).holdAt s.holdEpoch else s.part p := by
  unfold State.holdNames
  by_cases hall : c.part = 0xFF
  · rw [if_pos hall, State.partList, holdParts_part]
    simp only [hall, if_true]
  · rw [if_neg hall, List.foldl_cons, List.foldl_nil, holdPart_part]
    simp only [hall, if_false]
    split
    · rename_i h; rw [h]
    · rfl

theorem leads_hold {s : State} {c : Cmd} (h : s.acts 0x0003 c) :
    Leads (.hold c) s fun t => s.completed t 0x0003 c 0 ∧ ∀ p, t.part p =
      if (if c.part = 0xFF then p < s.partCount else p = c.part) then (s.part p).holdAt s.holdEpoch else s.part p := by
  refine leads_acts (i := .hold c) (eff := fun s => (s.holdNames c).foldl State.holdPart s) h
    (by rw [show exec (.hold c) s = execHold c s from rfl, execHold]) ?_
  refine ⟨completed_only _ _ _ _ _ (by decide) ?_, fun p => ?_⟩
  · rw [show (State.time _) = s.time from sameBut_holdParts _ s .time (by decide)]
  · rw [part_complete_ok]
    exact holdNames_part s c p

/-- Settles O29: the checks pass in the order that they are made, a completion OK raises no event, and each effect is on the partitions named. -/
theorem pourHoldReleaseMovePartitions : Obligations.PourHoldReleaseMovePartitions := by
  unfold Obligations.PourHoldReleaseMovePartitions
  refine ⟨fun s c k e h hk he hk2 hst hlive hearly hlock hpin hprot hshut hrot =>
      leads_pour h hk he (pourCheck_ok hk he hk2 hst hlive hearly hlock hpin hprot hshut hrot),
    fun s c e h he hheld hgone hst hearly hlock hpin hprot hshut hrot =>
      leads_release h he (releaseCheck_ok he hheld hgone hst hearly hlock hpin hprot hshut hrot),
    fun s c p h hp => ?_, fun s c p hone hp h => ?_, fun s c h hshut hk hrot => ?_, fun s c h hshut hrot => ?_⟩
  · obtain ⟨t, hexec, hdone, hparts⟩ := leads_hold h
    refine ⟨t, hexec, hdone, ?_⟩
    have hnamed : if c.part = 0xFF then p < s.partCount else p = c.part := by
      rcases hp with ⟨hne, heq⟩ | ⟨hall, hlt⟩
      · rw [if_neg hne]; exact heq
      · rw [if_pos hall]; exact hlt
    rw [hparts p, if_pos hnamed]
    unfold Part.holdAt State.holdEpoch
    cases (s.part p).run <;> rfl
  · obtain ⟨t, hexec, -, hparts⟩ := leads_hold h
    exact ⟨t, hexec, (hparts p).trans (if_neg (by rw [if_neg hone]; exact hp))⟩
  · have hcheck : s.pourCheck c = stBUSY := by simp [State.pourCheck, firstStatus, hshut, hk, hrot]
    exact leads_refused (i := .pour c) (st := stBUSY) h (by decide) (by rw [show exec (.pour c) s = execPour c s from rfl, execPour, hcheck])
  · have hcheck : s.releaseCheck c = stBUSY := by simp [State.releaseCheck, firstStatus, hshut, hrot]
    exact leads_refused (i := .release c) (st := stBUSY) h (by decide) (by rw [show exec (.release c) s = execRelease c s from rfl, execRelease, hcheck])

end Sys2Proof.Machine
end

section
/-!
Pattern images (02_hall_time.md): an image refused upon a full event queue, which O30 does not exclude.
-/

namespace Sys2Proof.Machine

open Sys2Proof

/-- Partition 0 runs the Pattern of its slot 0, an empty image for that slot has arrived beside it, and no room is left in the queue of the
Hall Time page. -/
def refusedImageCrowded : State :=
  { crowdedAt pgHt with parts := [(0, { run := .running, slot0 := { st := .loaded }, over0 := some { st := .loading, fromScratch := true } })] }

theorem refusedImageCrowded_loses {t : State} (h : exec (.patternLoadDone 0 0) refusedImageCrowded = .next t) : ((t.part 0).slot 0).st = .empty := by
  change finish answered refusedImageCrowded _ = .next t at h
  injection h with h
  rw [← h]
  decide

/-- Refutes O30: CMD_REFUSED comes upon a full queue, whose last event becomes of Madder, and every partition is lost (R602): the slot in
use, which a refused image is to leave as it was, is EMPTY. -/
theorem not_patternsLoad : ¬ Obligations.PatternsLoad := by
  unfold Obligations.PatternsLoad
  intro h
  obtain ⟨-, -, hfails, -⟩ := h
  obtain ⟨t, hexec, hslot, -⟩ := hfails refusedImageCrowded 0 0 [] (by decide) (by decide) (by decide) (by decide)
  have hkept : ((t.part 0).slot 0).st = .loaded := hslot.trans (by decide)
  rw [refusedImageCrowded_loses hexec] at hkept
  exact absurd hkept (by decide)

end Sys2Proof.Machine
end

section
/-!
Proofs of the family 12_sprue_and_far_tier.md: command frames, streams, event frames and the link (O31, O33).
-/

namespace Sys2Proof.Machine

open Sys2Proof

/-! ### Real time stands still under writes and events -/

theorem foldl_real {β : Type} (f : State → β → State) (hf : ∀ s b, (f s b).real = s.real) (l : List β) (s : State) :
    (l.foldl f s).real = s.real := by
  induction l generalizing s with
  | nil => rfl
  | cons b l ih => exact (ih _).trans (hf s b)

@[simp] theorem bump_real (s : State) (pg : Nat) (F : Fld) (n i : Nat) : (s.bump pg F n i).real = s.real := by
  unfold State.bump
  split <;> rfl

@[simp] theorem wr_real (s : State) (pg : Nat) (F : Fld) (v i : Nat) : (s.wr pg F v i).real = s.real := rfl
@[simp] theorem note_real (s : State) (pg : Nat) (F : Fld) (v i : Nat) : (s.note pg F v i).real = s.real := rfl
@[simp] theorem hwSet_real (s : State) (pg : Nat) (F : Fld) (v i : Nat) : (s.hwSet pg F v i).real = s.real := rfl
@[simp] theorem hwPut_real (s : State) (pg : Nat) (F : Fld) (v i : Nat) : (s.hwPut pg F v i).real = s.real := rfl
@[simp] theorem hwClear_real (s : State) (pg : Nat) (F : Fld) (v i : Nat) : (s.hwClear pg F v i).real = s.real := rfl
@[simp] theorem wrs_real (s : State) (pg : Nat) (l : List (Fld × Nat)) (i : Nat) : (s.wrs pg l i).real = s.real :=
  foldl_real (fun s (e : Fld × Nat) => s.wr pg e.1 e.2 i) (fun _ _ => rfl) l s

@[simp] theorem modPart_real (s : State) (p : Nat) (f : Part → Part) : (s.modPart p f).real = s.real := by
  simp [State.modPart]

@[simp] theorem halt_real (s : State) (pg : Nat) : (s.halt pg).real = s.real := by
  unfold State.halt
  split <;> simp

@[simp] theorem fenceOne_real (s : State) (pg : Nat) : (s.fenceOne pg).real = s.real := by
  simp [State.fenceOne, apply_ite State.real]

@[simp] theorem fenceUnit_real (s : State) (pg : Nat) : (s.fenceUnit pg).real = s.real := by
  simp only [State.fenceUnit]
  repeat' split
  all_goals simp [foldl_real]

@[simp] theorem losePart_real (s : State) (p : Nat) : (s.losePart p).real = s.real := by
  simp [State.losePart]

@[simp] theorem portsDown_real (s : State) : (s.portsDown).real = s.real := by
  simp only [State.portsDown]
  all_goals simp [foldl_real]

@[simp] theorem lampblack_real (s : State) : (s.lampblack).real = s.real := by
  unfold State.lampblack
  dsimp only
  all_goals simp [foldl_real]

@[simp] theorem act_real (s : State) (pg sev : Nat) (named : Bool) : (s.act pg sev named).real = s.real := by
  simp only [State.act]
  repeat' split
  all_goals simp [foldl_real]

@[simp] theorem setQueue_real (s : State) (pg : Nat) (q : List EvRec) : (s.setQueue pg q).real = s.real := by
  simp [State.setQueue]

@[simp] theorem await_real (s : State) (r : EvRec) : (s.await r).real = s.real := by
  simp [State.await, apply_ite State.real]

@[simp] theorem partRing_real (s : State) (r : EvRec) : (s.partRing r).real = s.real := by
  unfold State.partRing
  split <;> simp [apply_ite State.real]

@[simp] theorem delivered_real (s : State) (r : EvRec) : (s.delivered r).real = s.real := by
  simp [State.delivered]

@[simp] theorem deliver_real (s : State) (pg : Nat) : (s.deliver pg).real = s.real := by
  simp only [State.deliver]
  repeat' split
  all_goals simp [foldl_real]

@[simp] theorem evHeader_real (s : State) (pg code sev : Nat) (esc : Bool) : (s.evHeader pg code sev esc).real = s.real := by
  simp [State.evHeader, apply_ite State.real]

@[simp] theorem raiseAt_real (s : State) (pg code sev0 : Nat) (named : Bool) (info : Bytes) : (s.raiseAt pg code sev0 named info).real = s.real := by
  simp [State.raiseAt, apply_ite State.real]

@[simp] theorem raise_real (s : State) (pg : Nat) (k : EvKind) (info : Bytes) : (s.raise pg k info).real = s.real := by
  simp [State.raise]

/-- Taking a frame takes no time. -/
theorem taking_real (s : State) (f : Frame) : (s.taking f).real = s.real := by
  have line : (s.sprueLineIn f).real = s.real := bump_real ..
  have used : ∀ (u : State) (d n : Nat), (u.usedSeq d n).real = u.real := fun u d n => by
    unfold State.usedSeq
    dsimp only
    split
    all_goals
      simp only [raise_real, wr_real, State.modSprue]
      split
      all_goals split <;> rfl
  unfold State.taking State.acceptSeq
  split
  · split
    · exact (used _ _ _).trans line
    · exact (used _ _ _).trans line
  · exact line

/-! ### Command frames (R452, R454) -/

theorem execCmd_accepted {s : State} {f : Frame} (h : s.accepts 0x02 f) :
    exec (.cmd f) s = finish answered s ((s.taking f).intake s.sprue.key.isSome (opOf f) (cmdOf f false)) := by
  rw [show exec (.cmd f) s = execCmd f s from rfl, execCmd, onFrame_of_accepts h]

theorem leads_cmd_taken {s : State} {f : Frame} (h : s.accepts 0x02 f)
    (hnew : s.sprue.memory.find? (fun e => decide (e.1 = (cmdOf f false).id)) = none)
    (hst : s.intakeStatus s.sprue.key.isSome (opOf f) (cmdOf f false) = 0) :
    Leads (.cmd f) s fun t =>
      t.sprue.intake = enqueueCmd ⟨opOf f, cmdOf f false, s.dueOf (cmdOf f false)⟩ s.sprue.intake ∧
      t.sprue.memory.find? (fun e => decide (e.1 = (cmdOf f false).id)) = some ((cmdOf f false).id, none) ∧ t.sprue.tx = s.sprue.tx := by
  have hexec := execCmd_accepted h
  have htaken := frameTaken_taking s f
  obtain ⟨hstat, hdue⟩ := intakeStatus_of_taken htaken s.sprue.key.isSome (opOf f) (cmdOf f false)
  obtain ⟨_, _, _, _, _, _, _, hsprue⟩ := htaken.2.1
  have hmem : (s.taking f).sprue.memory.find? (fun e => decide (e.1 = (cmdOf f false).id)) = none := by rw [hsprue]; exact hnew
  have htake : (s.taking f).intake s.sprue.key.isSome (opOf f) (cmdOf f false) = (s.taking f).takeCmd (opOf f) (cmdOf f false) := by
    rw [State.intake, hmem]
    simp only [hstat.trans hst, if_true]
  rw [htake] at hexec
  refine ⟨_, hexec, ?_, ?_, ?_⟩
  · change enqueueCmd ⟨opOf f, cmdOf f false, (s.taking f).dueOf (cmdOf f false)⟩ (s.taking f).sprue.intake = _
    rw [hdue, hsprue]
  · exact find_remember _ _ _
  · change (s.taking f).sprue.tx = _
    rw [hsprue]

theorem sprue_bump (s : State) (pg : Nat) (F : Fld) (n i : Nat) : (s.bump pg F n i).sprue = s.sprue := sameBut_bump s pg F n i .sprue (by decide)

/-- What is sent, where there is room, joins the frames that wait. -/
theorem sprue_sendTx {s : State} (f : TxFrame) (h : s.sprue.tx.length < 256) : (s.sendTx f).sprue = { s.sprue with tx := s.sprue.tx ++ [f] } := by
  rw [State.sendTx, if_pos h]

theorem rd_sendTx {s : State} (f : TxFrame) (h : s.sprue.tx.length < 256) (pg : Nat) (F : Fld) (i : Nat) : (s.sendTx f).rd pg F i = s.rd pg F i := by
  rw [State.sendTx, if_pos h]
  rfl

theorem rd_relayAnswer (s : State) (id st pg : Nat) (F : Fld) (i : Nat) : (s.relayAnswer id st).rd pg F i = s.rd pg F i := by
  unfold State.relayAnswer
  split <;> rfl

theorem leads_cmd_refused {s : State} {f : Frame} (h : s.accepts 0x02 f)
    (hnew : s.sprue.memory.find? (fun e => decide (e.1 = (cmdOf f false).id)) = none)
    (hst : s.intakeStatus s.sprue.key.isSome (opOf f) (cmdOf f false) ≠ 0) (hroom : s.sprue.tx.length < 256) :
    Leads (.cmd f) s fun t =>
      t.sprue.intake = s.sprue.intake ∧
      .rsp (cmdOf f false).id (opOf f) (s.intakeStatus s.sprue.key.isSome (opOf f) (cmdOf f false)) s.time.ticks f.part [] ∈ t.sprue.tx ∧
      t.rd pgSprue SP_INTAKE_REFUSED =
        min (s.rd pgSprue SP_INTAKE_REFUSED + 1) (2 ^ SP_INTAKE_REFUSED.width - 1) := by
  have hexec := execCmd_accepted h
  have htaken := frameTaken_taking s f
  obtain ⟨hstat, -⟩ := intakeStatus_of_taken htaken s.sprue.key.isSome (opOf f) (cmdOf f false)
  obtain ⟨_, _, _, _, _, _, _, hsprue⟩ := htaken.2.1
  obtain ⟨st, hstv⟩ : ∃ st, st = s.intakeStatus s.sprue.key.isSome (opOf f) (cmdOf f false) := ⟨_, rfl⟩
  obtain ⟨u, hu⟩ : ∃ u, u = (s.taking f).bump pgSprue SP_INTAKE_REFUSED := ⟨_, rfl⟩
  have husprue : u.sprue = (s.taking f).sprue := hu ▸ sprue_bump ..
  have huroom : u.sprue.tx.length < 256 := by rw [husprue, hsprue]; exact hroom
  have hticks : (s.taking f).time.ticks = s.time.ticks := congrArg TimeUnit.ticks (htaken.1 .time (by decide))
  have huticks : u.time.ticks = s.time.ticks := by
    rw [hu, show ((s.taking f).bump pgSprue SP_INTAKE_REFUSED).time = (s.taking f).time from sameBut_bump _ _ _ _ _ .time (by decide)]
    exact hticks
  have hmem : (s.taking f).sprue.memory.find? (fun e => decide (e.1 = (cmdOf f false).id)) = none := by rw [hsprue]; exact hnew
  obtain ⟨r, hr⟩ : ∃ r, r = TxFrame.rsp (cmdOf f false).id (opOf f) st s.time.ticks f.part [] := ⟨_, rfl⟩
  have hrefuse : (s.taking f).intake s.sprue.key.isSome (opOf f) (cmdOf f false) =
      ((u.sendTx r).relayAnswer (cmdOf f false).id st).raise pgSprue ev_CMD_REFUSED (refusedInfo (opOf f) (cmdOf f false) st) := by
    rw [State.intake, hmem]
    simp only [hstat, ← hstv, if_neg (hstv ▸ hst : st ≠ 0)]
    rw [State.refuse, ← hu, hr, hticks]
    rfl
  rw [hrefuse] at hexec
  have hsent : (((u.sendTx r).relayAnswer (cmdOf f false).id st).raise pgSprue ev_CMD_REFUSED (refusedInfo (opOf f) (cmdOf f false) st)).sprue =
      { u.sprue with tx := u.sprue.tx ++ [r] } := by
    rw [show (State.raise _ _ _ _).sprue = _ from raise_same ((u.sendTx r).relayAnswer (cmdOf f false).id st) _ _ _ .sprue (by decide),
      relayAnswer_sprue, sprue_sendTx r huroom]
  rw [← hstv, ← hr]
  refine ⟨_, hexec, ?_, ?_, ?_⟩
  · refine (congrArg SprueUnit.intake hsent).trans ?_
    rw [husprue, hsprue]
  · refine (congrArg (r ∈ ·) (congrArg SprueUnit.tx hsent)).mpr ?_
    simp
  · refine (rd_raise_quiet _ _ _ _ (by decide)).trans ?_
    rw [rd_relayAnswer, rd_sendTx r huroom, hu, rd_bump_same, htaken.2.2 _ _ _ (by decide) (.inr (by decide))]

theorem leads_cmd_again {s : State} {f : Frame} {r : TxFrame} (h : s.accepts 0x02 f) (hrsp : s.rspOf (cmdOf f false).id = some r)
    (hkind : ∃ o st a p d, r = .rsp (cmdOf f false).id o st a p d) (hroom : s.sprue.tx.length < 256) :
    Leads (.cmd f) s fun t => r ∈ t.sprue.tx ∧ t.sprue.intake = s.sprue.intake := by
  have hexec := execCmd_accepted h
  obtain ⟨_, _, _, _, _, _, _, hsprue⟩ := (frameTaken_taking s f).2.1
  obtain ⟨u, hu⟩ : ∃ u, u = s.taking f := ⟨_, rfl⟩
  rw [← hu] at hexec hsprue
  obtain ⟨e, hfind, he⟩ : ∃ e, s.sprue.memory.find? (fun e => decide (e.1 = (cmdOf f false).id)) = some e ∧ e.2 = some r :=
    Option.bind_eq_some_iff.mp hrsp
  obtain ⟨o, st, a, p, d, hrv⟩ := hkind
  have hagain : u.intake s.sprue.key.isSome (opOf f) (cmdOf f false) = (u.sendTx r).relayAnswer (cmdOf f false).id st := by
    have hmem : u.sprue.memory.find? (fun e => decide (e.1 = (cmdOf f false).id)) = some e := by rw [hsprue]; exact hfind
    rw [State.intake, hmem]
    dsimp only
    rw [he, hrv]
    rfl
  have huroom : u.sprue.tx.length < 256 := by rw [hsprue]; exact hroom
  rw [hagain] at hexec
  have hend : ((u.sendTx r).relayAnswer (cmdOf f false).id st).sprue = { u.sprue with tx := u.sprue.tx ++ [r] } := by
    rw [relayAnswer_sprue, sprue_sendTx r huroom]
  refine ⟨_, hexec, ?_, ?_⟩
  · refine (congrArg (r ∈ ·) (congrArg SprueUnit.tx hend)).mpr ?_
    simp
  · refine (congrArg SprueUnit.intake hend).trans ?_
    rw [hsprue]

theorem leads_frameDiscarded {s : State} {f : Frame} (hty : frameTyOk f.ty = false) (hunc : f.uncorr = false)
    (hlink : s.rd pgSprue SP_STATUS_LINK = 2) :
    Leads (.frameDiscarded f) s fun t =>
      t.rd pgSprue SP_DISCARD_COUNT = min (s.rd pgSprue SP_DISCARD_COUNT + 1) (2 ^ SP_DISCARD_COUNT.width - 1) ∧
      t.sprue = { s.sprue with rxLine := t.sprue.rxLine } ∧ s.sameBut [.regs, .sprue] t := by
  obtain ⟨u, hu⟩ : ∃ u, u = s.modSprue fun v => { v with rxLine := (s.sprue.rxLine.take true 0 f.symbols).1 } := ⟨_, rfl⟩
  have hexec : exec (.frameDiscarded f) s = finish (evented ++ [.sprue]) s
      ((u.bump pgSprue SP_LSLACK_STUFF_ERR (s.sprue.rxLine.take true 0 f.symbols).2.2).bump pgSprue SP_DISCARD_COUNT) := by
    rw [show exec (.frameDiscarded f) s = execFrameDiscarded f s from rfl, execFrameDiscarded]
    simp only [hty, hunc, hlink, Bool.not_false, if_true, ne_eq, not_true_eq_false, Bool.false_eq_true, if_false, hu]
    rfl
  have hspr : ((u.bump pgSprue SP_LSLACK_STUFF_ERR (s.sprue.rxLine.take true 0 f.symbols).2.2).bump pgSprue SP_DISCARD_COUNT).sprue = u.sprue :=
    (sprue_bump ..).trans (sprue_bump ..)
  have hspr' : u.sprue = { s.sprue with rxLine := u.sprue.rxLine } := by rw [hu]; rfl
  refine ⟨_, hexec, ?_, ?_, sameBut_only_of ?_⟩
  · refine (rd_bump_same _ _ _ _ _).trans ?_
    rw [rd_bump_apart _ _ _ _ (by decide), hu]
    rfl
  · exact hspr.trans (hspr'.trans (by rw [← hspr]; rfl))
  · refine sameBut_trans (t := u) ?_ (sameBut_mono (sameBut_trans (sameBut_bump u _ _ _ _) (sameBut_bump _ _ _ _ _)) (by decide))
    rw [hu]
    exact sameBut_mono (sameBut_modSprue s _) (by decide)

/-- Settles O31: what the intake's checks read stays under a frame that is taken, and an event moves nothing of the port. -/
theorem commandFramesReachTheIntake : Obligations.CommandFramesReachTheIntake := by
  unfold Obligations.CommandFramesReachTheIntake
  exact ⟨fun _ _ h hnew hst => leads_cmd_taken h hnew hst, fun _ _ h hnew hst hroom => leads_cmd_refused h hnew hst hroom,
    fun _ _ _ h hrsp hkind hroom => leads_cmd_again h hrsp hkind hroom, fun _ _ hty hunc hlink => leads_frameDiscarded hty hunc hlink⟩

/-! ### Streams (R462) -/

theorem leads_bulk {s : State} {f : Frame} {x : Stream} (h : s.accepts 0x08 f) (hopen : (s.sprue.key.isSome && s.started || s.boot.recovery) = true)
    (hfind : s.sprue.streams.find? (fun t => decide (t.num = fieldAt (bodyOf f) 0 2) && !t.last) = some x)
    (hoff : fieldAt (bodyOf f) 0x08 8 = x.data.length) (hb : x.binder = 0) :
    Leads (.bulk f) s fun t => ∃ y ∈ t.sprue.streams, y.num = x.num ∧ y.data = x.data ++ (bodyOf f).drop 0x10 ∧
      y.last = lastFlag f ∧ y.at_ = s.real := by
  have htaken := frameTaken_taking s f
  obtain ⟨_, _, _, _, _, _, _, hsprue⟩ := htaken.2.1
  obtain ⟨u, hu⟩ : ∃ u, u = s.taking f := ⟨_, rfl⟩
  rw [← hu] at hsprue htaken
  have hreal : u.real = s.real := hu ▸ taking_real s f
  have hboot : u.boot = s.boot := htaken.1 .boot (by decide)
  have hfeed : u.takeBulk f = u.feedStream x ((bodyOf f).drop 0x10) (lastFlag f) := by
    have hf : u.sprue.streams.find? (fun t => decide (t.num = fieldAt (bodyOf f) 0 2) && !t.last) = some x := by rw [hsprue]; exact hfind
    rw [State.takeBulk, hf]
    simp only [hoff, ne_eq, not_true_eq_false, if_false]
  have hexec : exec (.bulk f) s = finish (answered ++ [.update]) s (u.feedStream x ((bodyOf f).drop 0x10) (lastFlag f)) := by
    rw [show exec (.bulk f) s = execBulk f s from rfl, execBulk, onFrame_of_accepts h, ← hu]
    have hopen' : (s.sprue.key.isSome && u.started || u.boot.recovery) = true := by rw [State.started, hboot]; exact hopen
    simp only [hopen', if_true, hfeed]
  have hmem : x ∈ u.sprue.streams := by
    rw [hsprue]
    exact List.mem_of_find?_eq_some hfind
  have hfed : u.feedStream x ((bodyOf f).drop 0x10) (lastFlag f) = u.modSprue fun v => { v with streams := v.streams.map fun y =>
      if y.num = x.num then { y with data := x.data ++ (bodyOf f).drop 0x10, last := lastFlag f, at_ := u.real } else y } := by
    simp [State.feedStream, hb]
  rw [hfed] at hexec
  refine ⟨_, hexec, { x with data := x.data ++ (bodyOf f).drop 0x10, last := lastFlag f, at_ := u.real }, ?_, rfl, rfl, rfl, hreal⟩
  exact List.mem_map.mpr ⟨x, hmem, if_pos rfl⟩

/-- The streams that a completion leaves. -/
theorem streams_complete (s : State) (op : Nat) (c : Cmd) (st : Nat) (d : Bytes) (a : Option Nat) :
    (s.complete op c st d a).sprue.streams = s.sprue.streams := by
  have sent : ∀ (t : State) f, (t.sendTx f).sprue.streams = t.sprue.streams := fun t f => by
    unfold State.sendTx
    split
    · rfl
    · rw [sprue_bump]
  have hbase : ((s.closeCmd c.id (some (.rsp c.id op st (a.getD s.time.ticks) c.part d))).sendTx
      (.rsp c.id op st (a.getD s.time.ticks) c.part d)).sprue.streams = s.sprue.streams := (sent _ _).trans rfl
  unfold State.complete
  dsimp only
  split
  · rw [relayAnswer_sprue]
    exact hbase
  · rw [show (State.raise _ _ _ _).sprue = _ from raise_same (State.relayAnswer _ _ _) _ _ _ .sprue (by decide), relayAnswer_sprue]
    exact hbase

/-- A stream that fails is unbound. -/
theorem failStream_unbinds (s : State) (x : Stream) : ∀ y ∈ (s.failStream x).sprue.streams, y.num ≠ x.num := by
  have hun : ∀ y ∈ (s.unbind x.num).sprue.streams, y.num ≠ x.num := fun y hy => of_decide_eq_true (List.mem_filter.mp hy).2
  unfold State.failStream
  dsimp only
  split
  · unfold State.failLoad
    dsimp only
    rw [streams_complete]
    exact fun y hy => hun y (List.mem_filter.mp hy).1
  · split
    · exact hun
    · unfold State.refuseBundle
      rw [streams_complete]
      exact hun

theorem leads_bulkTimeout {s : State} {n : Nat} {x : Stream} (hfind : s.sprue.streams.find? (fun t => decide (t.num = n) && !t.last) = some x)
    (hdue : s.rd pgSprue SP_BULK_TO_US * usTicks ≤ s.real - x.at_) :
    Leads (.bulkTimeout n) s fun t => ∀ y ∈ t.sprue.streams, y.num ≠ n := by
  have hnum : x.num = n := by
    have := List.find?_some hfind
    simpa using (Bool.and_eq_true_iff.mp this).1
  have hexec : exec (.bulkTimeout n) s = finish (answered ++ [.update]) s (s.failStream x) := by
    rw [show exec (.bulkTimeout n) s = execBulkTimeout n s from rfl, execBulkTimeout]
    simp only [hfind, hdue, if_true]
  have h := failStream_unbinds s x
  rw [hnum] at h
  exact ⟨_, hexec, h⟩

/-! ### Event frames and the link (R463, R448, R641) -/

theorem leads_evtFrameSend {s : State} (hlink : s.rd pgSprue SP_STATUS_LINK = 2)
    (hdue : 15 ≤ s.events.wait.length ∨ (∃ w ∈ s.events.wait, 1 ≤ w.rcd.sev ∨ 4 ≤ s.time.slots - w.at_)) :
    Leads .evtFrameSend s fun t =>
      t.sprue.tx = s.sprue.tx ++ [.evt ((s.events.wait.take 15).map EvWait.rcd)] ∧ t.events.wait = s.events.wait.drop 15 := by
  have hd : (decide (15 ≤ s.events.wait.length) || s.events.wait.any (fun w => decide (1 ≤ w.rcd.sev) || decide (4 ≤ s.time.slots - w.at_))) = true := by
    rw [Bool.or_eq_true, decide_eq_true_eq, List.any_eq_true]
    refine hdue.imp id fun ⟨w, hw, hs⟩ => ⟨w, hw, ?_⟩
    rw [Bool.or_eq_true, decide_eq_true_eq, decide_eq_true_eq]
    exact hs
  have hexec : exec .evtFrameSend s = finish [.sprue, .events] s
      { s with events := { s.events with wait := s.events.wait.drop 15 }
               sprue := { s.sprue with tx := s.sprue.tx ++ [.evt ((s.events.wait.take 15).map EvWait.rcd)] } } := by
    rw [show exec .evtFrameSend s = execEvtFrameSend s from rfl, execEvtFrameSend]
    dsimp only
    rw [if_pos ⟨hlink, hd⟩]
  exact ⟨_, hexec, rfl, rfl⟩

theorem leads_sprueLinkUp_good {s : State} (hlit : s.sprueLit = true) (hgood : 63 ≤ s.sprue.goodAm) :
    Leads (.sprueLinkUp true) s fun t => t.rd pgSprue SP_STATUS_LINK = 2 ∧ t.sprue.goodAm = s.sprue.goodAm + 1 := by
  have hexec : exec (.sprueLinkUp true) s = finish [.regs, .sprue] s
      ((s.modSprue fun u => { u with goodAm := s.sprue.goodAm + 1, badAm := 0 }).wr pgSprue SP_STATUS_LINK 2) := by
    rw [show exec (.sprueLinkUp true) s = execSprueLinkUp true s from rfl, execSprueLinkUp]
    have h64 : 64 ≤ s.sprue.goodAm + 1 := by omega
    simp only [hlit, Bool.not_true, Bool.false_eq_true, if_false, h64, or_true, if_true]
  exact ⟨_, hexec, rd_wr_fits (s.modSprue _) pgSprue SP_STATUS_LINK (v := 2) 0 (by decide), rfl⟩

theorem leads_sprueLinkUp_bad {s : State} (hlit : s.sprueLit = true) :
    Leads (.sprueLinkUp false) s fun t => t.sprue.goodAm = 0 ∧ t.sprue.badAm = s.sprue.badAm + 1 ∧
      t.rd pgSprue SP_STATUS_LINK = s.rd pgSprue SP_STATUS_LINK := by
  have hexec : exec (.sprueLinkUp false) s = finish [.regs, .sprue] s (s.modSprue fun u => { u with goodAm := 0, badAm := u.badAm + 1 }) := by
    rw [show exec (.sprueLinkUp false) s = execSprueLinkUp false s from rfl, execSprueLinkUp]
    simp only [hlit, Bool.not_true, Bool.false_eq_true, if_false, Bool.not_false, if_true]
  exact ⟨_, hexec, rfl, rfl, rfl⟩

theorem leads_sprueLinkUp_dark {s : State} (good : Bool) (hlit : s.sprueLit = false) : Leads (.sprueLinkUp good) s fun t => s.sameBut [] t := by
  refine leads_unchanged (l := [.regs, .sprue]) ?_
  rw [show exec (.sprueLinkUp good) s = execSprueLinkUp good s from rfl, execSprueLinkUp]
  simp only [hlit, Bool.not_false, if_true]

/-- A port that goes DOWN shows it, and its laser stays as it was. -/
theorem sprueDown_shows (s : State) (cause : Nat) :
    (s.sprueDown cause).rd pgSprue SP_STATUS_LINK = 0 ∧ (s.sprueDown cause).sprue.vlas = s.sprue.vlas := by
  obtain ⟨v, hv⟩ : ∃ v, v = (s.modSprue fun u => { u with goodAm := 0, badAm := 0, line := {}, txLine := {}, rxLine := {} }).wr pgSprue SP_STATUS_LINK 0 :=
    ⟨_, rfl⟩
  obtain ⟨w, hw⟩ : ∃ w : State, w = { v.wr pgSprue SP_LSLACK_OWED 0 with events :=
      { (v.wr pgSprue SP_LSLACK_OWED 0).events with wait := (v.wr pgSprue SP_LSLACK_OWED 0).events.wait.drop ((v.wr pgSprue SP_LSLACK_OWED 0).events.wait.length - 64) } } :=
    ⟨_, rfl⟩
  have hlink : w.rd pgSprue SP_STATUS_LINK = 0 := by
    rw [show w.rd pgSprue SP_STATUS_LINK = (v.wr pgSprue SP_LSLACK_OWED 0).rd pgSprue SP_STATUS_LINK from hw ▸ rfl,
      rd_wr_apart _ _ _ _ (by decide), hv]
    exact rd_wr_fits _ _ _ _ (by decide)
  have hvlas : w.sprue.vlas = s.sprue.vlas := by rw [hw, hv]; rfl
  rw [State.sprueDown]
  dsimp only
  rw [← hv, ← hw]
  split
  · refine ⟨(rd_raise_quiet _ _ _ _ (by decide)).trans hlink, ?_⟩
    rw [show (State.raise _ _ _ _).sprue = _ from raise_same w _ _ _ .sprue (by decide)]
    exact hvlas
  · exact ⟨hlink, hvlas⟩

theorem leads_sprueDown_lost {s : State} (h : 8 ≤ s.sprue.badAm) :
    Leads (.sprueDown 0) s fun t => t.rd pgSprue SP_STATUS_LINK = 0 ∧ t.sprue.vlas = s.sprue.vlas := by
  have hexec : exec (.sprueDown 0) s = finish (evented ++ [.sprue]) s (s.sprueDown 0) := by
    rw [show exec (.sprueDown 0) s = execSprueDown 0 s from rfl, execSprueDown]
    simp only [Fin.val_zero, h, if_true]
  exact ⟨_, hexec, sprueDown_shows s 0⟩

theorem leads_sprueDown_none {s : State} (h : s.sprue.badAm < 8) : Leads (.sprueDown 0) s fun t => s.sameBut [] t := by
  refine leads_unchanged (l := evented ++ [.sprue]) ?_
  rw [show exec (.sprueDown 0) s = execSprueDown 0 s from rfl, execSprueDown]
  simp only [Fin.val_zero, Nat.not_le.mpr h, if_false]

theorem leads_sprueDown_dark (s : State) : Leads (.sprueDown 1) s fun t => t.rd pgSprue SP_STATUS_LINK = 0 ∧ t.sprue.vlas = false := by
  have hexec : exec (.sprueDown 1) s = finish (evented ++ [.sprue]) s ((s.modSprue fun u => { u with vlas := false }).sprueDown 1) := rfl
  exact ⟨_, hexec, sprueDown_shows _ 1⟩

theorem leads_sprueDown_owed {s : State} (h : 256 < s.rd pgSprue SP_LSLACK_OWED) :
    Leads (.sprueDown 2) s fun t => t.rd pgSprue SP_STATUS_LINK = 0 := by
  have hexec : exec (.sprueDown 2) s = finish (evented ++ [.sprue]) s (s.sprueDown 2) := by
    rw [show exec (.sprueDown 2) s = execSprueDown 2 s from rfl, execSprueDown]
    simp only [Fin.val_two, h, if_true]
  exact ⟨_, hexec, (sprueDown_shows s 2).1⟩

theorem leads_vlasReturn (s : State) :
    Leads .vlasReturn s fun t => t.sprue.vlas = true ∧ t.sprue.goodAm = 0 ∧ s.sameBut [.regs, .sprue] t := by
  obtain ⟨u, hu⟩ : ∃ u, u = s.modSprue fun v => { v with vlas := true, goodAm := 0, badAm := 0 } := ⟨_, rfl⟩
  obtain ⟨t, ht⟩ : ∃ t, t = if u.sprueLit && s.time.running then u.wr pgSprue SP_STATUS_LINK (max 1 (s.rd pgSprue SP_STATUS_LINK)) else u := ⟨_, rfl⟩
  have hexec : exec .vlasReturn s = finish [.regs, .sprue] s t := by
    rw [show exec .vlasReturn s = execVlasReturn s from rfl, execVlasReturn, ht, hu]
  have hsprue : t.sprue = u.sprue := by rw [ht]; split <;> rfl
  refine ⟨_, hexec, (congrArg SprueUnit.vlas hsprue).trans ?_, (congrArg SprueUnit.goodAm hsprue).trans ?_, sameBut_only _ _ _⟩
  · rw [hu]; rfl
  · rw [hu]; rfl

/-- Settles O33, row by row: an event moves nothing of the Sprue port and no field that it shows. -/
theorem streamsEventsAndTheLink : Obligations.StreamsEventsAndTheLink := by
  unfold Obligations.StreamsEventsAndTheLink
  exact ⟨fun _ _ _ h hopen hfind hoff hb => leads_bulk h hopen hfind hoff hb, fun _ _ _ hfind hdue => leads_bulkTimeout hfind hdue,
    fun _ hlink hdue => leads_evtFrameSend hlink hdue, fun _ hlit hgood => leads_sprueLinkUp_good hlit hgood,
    fun _ hlit => leads_sprueLinkUp_bad hlit, fun _ good hlit => leads_sprueLinkUp_dark good hlit, fun _ h => leads_sprueDown_lost h,
    fun _ h => leads_sprueDown_none h, leads_sprueDown_dark, fun _ h => leads_sprueDown_owed h, leads_vlasReturn⟩

end Sys2Proof.Machine
end

section
/-!
Proofs of the family 13_trust.md: lifecycle and version (O35).
-/

namespace Sys2Proof.Machine

open Sys2Proof

/-- A command of one turn that acts, with an answer of its own: `leads_acts` for every command's components. -/
theorem leads_acts_data {s : State} {i : Instr} (l : List Comp) {op : Nat} {c : Cmd} {check : Nat} {eff : State → State} {d : Bytes} {P : State → Prop}
    (h : s.acts op c) (hexec : exec i s = finish l s (s.act1 op c check eff d)) (hcheck : check = 0)
    (hP : P (s.only l ((eff s).complete op c 0 d))) : Leads i s P :=
  ⟨_, by rw [hexec, hcheck, act1_ok s op c eff d h.1 h.2, finish], hP⟩

theorem leads_refuses {s : State} {i : Instr} (l : List Comp) {op : Nat} {c : Cmd} {st : Nat} {eff : State → State} {d : Bytes} {P : State → Prop}
    (h : s.acts op c) (hst : st ≠ 0) (hexec : exec i s = finish l s (s.act1 op c st eff d)) (hP : P (s.only l (s.complete op c st))) : Leads i s P :=
  ⟨_, by rw [hexec, act1_refused s op c st eff d h.1 h.2 hst, finish], hP⟩

theorem mordant_complete_ok (s : State) (op : Nat) (c : Cmd) (d : Bytes) (a : Option Nat) : (s.complete op c 0 d a).mordant = s.mordant :=
  sameBut_complete_ok s op c d a .mordant (by decide)

/-! ### What an event leaves of Mordant: all but the rings of sealed partitions -/

@[simp] theorem trusted_modTrusted (s : State) (p : Nat) (f : Trusted → Trusted) : (s.modTrusted p f).trusted p = f (s.trusted p) := aget_aupd_same ..

theorem trusted_modTrusted_other (s : State) {p q : Nat} (f : Trusted → Trusted) (h : q ≠ p) : (s.modTrusted p f).trusted q = s.trusted q :=
  aget_aupd_other _ _ _ h

/-- Of Mordant only the rings of partitions can change. -/
def ringsOnly (s t : State) : Prop :=
  (∃ ps, t.mordant = { s.mordant with parts := ps }) ∧ ∀ p, ∃ r, t.trusted p = { s.trusted p with ring := r }

theorem ringsOnly_of {s t : State} (h : t.mordant = s.mordant) : ringsOnly s t :=
  ⟨⟨s.mordant.parts, by rw [h]⟩, fun p => ⟨(s.trusted p).ring, by rw [State.trusted, h]; rfl⟩⟩

theorem ringsOnly_trans {s t u : State} (h1 : ringsOnly s t) (h2 : ringsOnly t u) : ringsOnly s u := by
  obtain ⟨⟨ps, hps⟩, hp⟩ := h1
  obtain ⟨⟨qs, hqs⟩, hq⟩ := h2
  refine ⟨⟨qs, by rw [hqs, hps]⟩, fun p => ?_⟩
  obtain ⟨r, hr⟩ := hp p
  obtain ⟨r', hr'⟩ := hq p
  exact ⟨r', by rw [hr', hr]⟩

theorem ringsOnly_ring (s : State) (p : Nat) (r : EvRec) : ringsOnly s (s.modTrusted p fun t => { t with ring := t.ring ++ [r] }) := by
  refine ⟨⟨_, rfl⟩, fun q => ?_⟩
  by_cases h : q = p
  · subst h
    exact ⟨_, trusted_modTrusted s q _⟩
  · exact ⟨(s.trusted q).ring, trusted_modTrusted_other s _ h⟩

theorem ringsOnly_delivered (s : State) (r : EvRec) : ringsOnly s (s.delivered r) := by
  have ring : ringsOnly s (s.partRing r) := by
    unfold State.partRing
    split
    · dsimp only
      split
      · exact ringsOnly_ring s _ r
      · exact ringsOnly_of rfl
    · exact ringsOnly_of rfl
  refine ringsOnly_trans ring (ringsOnly_of ?_)
  unfold State.delivered State.await
  split <;> rfl

theorem ringsOnly_deliver (s : State) (pg : Nat) : ringsOnly s (s.deliver pg) := by
  have rings : ∀ (q : List EvRec) (u : State), ringsOnly u (q.foldl State.delivered u) := by
    intro q
    induction q with
    | nil => exact fun u => ringsOnly_of rfl
    | cons r q ih => exact fun u => ringsOnly_trans (ringsOnly_delivered u r) (ih _)
  have sent : ringsOnly s ((s.queue pg).foldl State.delivered (s.setQueue pg [])) := rings _ (s.setQueue pg [])
  unfold State.deliver
  split
  · exact ringsOnly_of rfl
  · dsimp only
    split
    · exact ringsOnly_trans sent (ringsOnly_of (sameBut_bump _ _ _ _ _ .mordant (by decide)))
    · exact sent

theorem foldl_mordant {β : Type} (f : State → β → State) (hf : ∀ s b, (f s b).mordant = s.mordant) (l : List β) (s : State) :
    (l.foldl f s).mordant = s.mordant := by
  induction l generalizing s with
  | nil => rfl
  | cons b l ih => exact (ih _).trans (hf s b)

theorem mordant_fenceOne (s : State) (pg : Nat) : (s.fenceOne pg).mordant = s.mordant := by
  unfold State.fenceOne State.halt
  split
  · dsimp only
    split <;> rfl
  · rfl

theorem mordant_portsDown (s : State) : s.portsDown.mordant = s.mordant := by
  have cleared : ∀ (g : Nat → Nat) (F : Fld) (l : List Nat) (u : State), (l.foldl (fun s q => s.wr (g q) F 0) u).mordant = u.mordant :=
    fun g F => foldl_mordant _ fun _ _ => rfl
  unfold State.portsDown
  dsimp only
  rw [cleared pgCxl, cleared pgRunner]

theorem mordant_act (s : State) (pg sev : Nat) (named : Bool) : (s.act pg sev named).mordant = s.mordant := by
  have lost : ∀ (l : List Nat) (u : State), (l.foldl State.losePart u).mordant = u.mordant := foldl_mordant _ fun _ _ => rfl
  unfold State.act
  split
  · rfl
  · split
    · rfl
    · unfold State.fenceUnit
      split
      · exact foldl_mordant _ mordant_fenceOne _ _
      · exact mordant_fenceOne s pg
  · split
    · rfl
    · split
      · rfl
      · exact lost _ _
  · have gated : ∀ (u : State) (v : Pins), State.mordant { u with pins := v } = u.mordant := fun _ _ => rfl
    unfold State.lampblack
    dsimp only
    rw [gated, mordant_portsDown, lost]

/-- What an event leaves of Mordant. -/
theorem ringsOnly_raise (s : State) (pg : Nat) (k : EvKind) (info : Bytes) : ringsOnly s (s.raise pg k info) := by
  have sent : ∀ (u : State) (sev : Nat) (named : Bool), ringsOnly u ((u.deliver pg).act pg sev named) := fun u sev named =>
    ringsOnly_trans (ringsOnly_deliver u pg) (ringsOnly_of (mordant_act _ _ _ _))
  have queued : ∀ (u : State) (q : List EvRec), (u.setQueue pg q).mordant = u.mordant := fun _ _ => rfl
  have noted : ∀ (u : State) (F : Fld), (u.hwSet pg F).mordant = u.mordant := fun _ _ => rfl
  have levelled : ∀ (u : State) (v : Nat), (u.wr pg PAGE_STAT_LEVEL v).mordant = u.mordant := fun _ _ => rfl
  have header : ∀ sev esc, (s.evHeader pg k.code sev esc).mordant = s.mordant := fun sev esc =>
    sameBut_evHeader s pg k.code sev esc .mordant (by decide)
  unfold State.raise State.raiseAt
  dsimp only
  generalize (if decide (k.sev = 1 ∧ s.rd pg PAGE_STAT_LEVEL = 1) = true then 2 else k.sev) = sv
  split
  · exact ringsOnly_of (header _ _)
  · split
    · exact ringsOnly_trans (ringsOnly_of ((queued _ _).trans (header _ _))) (sent _ _ _)
    · split
      · exact ringsOnly_trans (ringsOnly_of ((queued _ _).trans (header _ _))) (sent _ _ _)
      · refine ringsOnly_trans (ringsOnly_of ?_) (sent _ _ _)
        rw [levelled, noted, noted, noted, queued, header]

/-! ### The clauses of O35 -/

theorem rd_complete_ok_mordant (s : State) (op : Nat) (c : Cmd) (d : Bytes) (a : Option Nat) {F : Fld} (i : Nat) (hq : quietFld pgMordant F i) :
    (s.complete op c 0 d a).rd pgMordant F i = s.rd pgMordant F i :=
  rd_complete s op c 0 d a hq (.inr (by decide))

theorem quietFld_mordant {F : Fld} {i : Nat} (hin : F.inPage i) (h44 : 44 ≤ F.at i) : quietFld pgMordant F i :=
  quietFld_of_page hin h44 (by decide) (by decide)

theorem leads_deploy {s : State} {c : Cmd} (h : s.acts 0x0101 c) (hlife : s.fuse.life = .provisioned) (hdep : s.fuse.deploying = false)
    (hkey : (coords (slice c.args 0 65)).bind pubKey ≠ none) :
    Leads (.deploy c) s fun t =>
      s.completed t 0x0101 c 0 ∧ t.fuse = { s.fuse with deploying := true } ∧ t.ledger.opHash = sha256 (slice c.args 0 65) ∧
      t.mordant.opKey = slice c.args 0 65 ∧ t.rd pgMordant MD_STATUS_OPERATOR = 1 := by
  refine leads_acts_data (i := .deploy c) (answered ++ [.fuse, .ledger]) h
    (by rw [show exec (.deploy c) s = execDeploy c s from rfl, execDeploy])
    (by simp [firstStatus, hlife, hdep, hkey]) ?_
  refine ⟨completed_only _ _ _ _ _ (by decide) rfl, ?_, ?_, ?_, ?_⟩
  · exact sameBut_complete_ok _ 0x0101 c [] none .fuse (by decide)
  · exact congrArg Ledger.opHash (sameBut_complete_ok _ 0x0101 c [] none .ledger (by decide))
  · exact congrArg Mordant.opKey (mordant_complete_ok _ 0x0101 c [] none)
  · exact (rd_complete_ok_mordant _ _ c [] none 0 (quietFld_mordant (by decide) (by decide))).trans
      (rd_wr_fits _ pgMordant MD_STATUS_OPERATOR (v := 1) 0 (by decide))

theorem leads_operatorRekey {s : State} {c : Cmd} (h : s.acts 0x0102 c) (hlife : s.fuse.life = .deployed)
    (hkey : (coords (slice c.args 0 65)).bind pubKey ≠ none)
    (hsig : verify s.mordant.opKey (sha256 (slice c.args 0 65 ++ le 4 c.id)) (slice c.args 0x48 64) = true) :
    Leads (.operatorRekey c) s fun t =>
      s.completed t 0x0102 c 0 ∧ t.mordant.opKey = slice c.args 0 65 ∧ t.ledger = { s.ledger with opHash := sha256 (slice c.args 0 65) } := by
  refine leads_acts_data (i := .operatorRekey c) (answered ++ [.ledger]) h
    (by rw [show exec (.operatorRekey c) s = execOperatorRekey c s from rfl, execOperatorRekey])
    (by simp [firstStatus, hlife, hkey, hsig]) ?_
  refine ⟨completed_only _ _ _ _ _ (by decide) rfl, ?_, ?_⟩
  · exact congrArg Mordant.opKey (mordant_complete_ok _ 0x0102 c [] none)
  · exact sameBut_complete_ok _ 0x0102 c [] none .ledger (by decide)

/-- What a completion leaves of Mordant, the event of a refusal included. -/
theorem ringsOnly_complete (s : State) (op : Nat) (c : Cmd) (st : Nat) (d : Bytes) : ringsOnly s (s.complete op c st d) := by
  by_cases hst : st = 0
  · exact ringsOnly_of (by rw [hst, mordant_complete_ok])
  · have answer : ∀ r, (((s.closeCmd c.id (some r)).sendTx r).relayAnswer c.id st).mordant = s.mordant := fun r => by
      have hsend : ∀ u : State, (u.sendTx r).mordant = u.mordant := fun u => by
        unfold State.sendTx
        split
        · rfl
        · exact sameBut_bump u _ _ _ _ .mordant (by decide)
      have hrelay : ∀ u : State, (u.relayAnswer c.id st).mordant = u.mordant := fun u => by
        unfold State.relayAnswer
        split <;> rfl
      rw [hrelay, hsend]
      rfl
    unfold State.complete
    dsimp only
    rw [if_neg hst]
    exact ringsOnly_trans (ringsOnly_of (answer _)) (ringsOnly_raise _ _ _ _)

theorem opKey_complete (s : State) (op : Nat) (c : Cmd) (st : Nat) : (s.complete op c st).mordant.opKey = s.mordant.opKey := by
  obtain ⟨⟨_, h⟩, -⟩ := ringsOnly_complete s op c st []
  rw [h]

theorem leads_operatorRekey_unsigned {s : State} {c : Cmd} (h : s.acts 0x0102 c) (hlife : s.fuse.life = .deployed)
    (hkey : (coords (slice c.args 0 65)).bind pubKey ≠ none)
    (hsig : verify s.mordant.opKey (sha256 (slice c.args 0 65 ++ le 4 c.id)) (slice c.args 0x48 64) = false) :
    Leads (.operatorRekey c) s fun t => s.completed t 0x0102 c stAUTHFAIL ∧ t.mordant.opKey = s.mordant.opKey ∧ t.ledger = s.ledger := by
  refine leads_refuses (i := .operatorRekey c) (st := stAUTHFAIL) (answered ++ [.ledger]) h (by decide)
    (by rw [show exec (.operatorRekey c) s = execOperatorRekey c s from rfl, execOperatorRekey]; simp [firstStatus, hlife, hkey, hsig]; rfl) ?_
  exact ⟨completed_only _ _ _ _ _ (by decide) rfl, opKey_complete s _ c _, sameBut_complete s _ c _ _ _ .ledger (by decide)⟩

theorem leads_decommission {s : State} {c : Cmd} (h : s.acts 0x0103 c) (hlife : s.lifeOpen = true) (hid : fieldAt c.args 0 4 = c.id) :
    Leads (.decommission c) s fun t => s.completed t 0x0103 c 0 ∧ t.fuse = { s.fuse with decommissioning := true } := by
  refine leads_acts_data (i := .decommission c) (answered ++ [.fuse]) h
    (by rw [show exec (.decommission c) s = execDecommission c s from rfl, execDecommission])
    (by simp [firstStatus, hlife, hid]) ?_
  exact ⟨completed_only _ _ _ _ _ (by decide) rfl, sameBut_complete_ok _ 0x0103 c [] none .fuse (by decide)⟩

theorem leads_svnAdvance {s : State} {c : Cmd} (h : s.acts 0x0130 c) (hlife : s.lifeOpen = true) (habove : s.fuse.svn < fieldAt c.args 0 1)
    (h64 : fieldAt c.args 0 1 ≤ 64) (hman : fieldAt c.args 0 1 ≤ s.rd pgMordant MD_SVN_MANIFEST) :
    Leads (.svnAdvance c) s fun t =>
      s.completed t 0x0130 c 0 ∧ t.rd pgMordant MD_SVN_PENDING = fieldAt c.args 0 1 ∧ t.fuse = s.fuse := by
  refine leads_acts_data (i := .svnAdvance c) answered h
    (by rw [show exec (.svnAdvance c) s = execSvnAdvance c s from rfl, execSvnAdvance])
    (by simp [firstStatus, hlife]; omega) ?_
  refine ⟨completed_only _ _ _ _ _ (by decide) rfl, ?_, rfl⟩
  exact (rd_complete_ok_mordant _ _ c [] none 0 (quietFld_mordant (by decide) (by decide))).trans
    (rd_wr_fits _ pgMordant MD_SVN_PENDING 0 (lt_of_le_of_lt h64 (by decide)))

theorem leads_svnFuseBlow {s : State} (hwin : 4088 ≤ s.slot) (hset : s.rd pgMordant MD_SVN_PENDING ≠ 0) :
    Leads .svnFuseBlow s fun t =>
      t.fuse = { s.fuse with svn := max s.fuse.svn (s.rd pgMordant MD_SVN_PENDING) } ∧ t.rd pgMordant MD_SVN_PENDING = 0 ∧
      (12 ≤ s.boot.next → t.ms 3 = sha256 t.deviceRecord) := by
  refine ⟨_, show exec .svnFuseBlow s = finish [.regs, .fuse, .mordant] s _ by
    rw [show exec .svnFuseBlow s = execSvnFuseBlow s from rfl, execSvnFuseBlow, if_pos ⟨hwin, hset⟩], ?_⟩
  have zeroed : ∀ f : Fuse, State.rd { s.wr pgMordant MD_SVN_PENDING 0 with fuse := f } pgMordant MD_SVN_PENDING = 0 := fun f =>
    rd_wr_fits s pgMordant MD_SVN_PENDING (v := 0) 0 (by decide)
  unfold State.noteRecord
  split
  · refine ⟨rfl, zeroed s.fuse, fun _ => ?_⟩
    exact aget_aset_same ..
  · rename_i hnext
    exact ⟨rfl, zeroed s.fuse, fun h => absurd h hnext⟩

theorem leads_svnFuseBlow_waits {s : State} (hwin : s.slot < 4088) : Leads .svnFuseBlow s fun t => s.sameBut [] t := by
  refine ⟨_, show exec .svnFuseBlow s = finish [.regs, .fuse, .mordant] s s by
    rw [show exec .svnFuseBlow s = execSvnFuseBlow s from rfl, execSvnFuseBlow, if_neg fun h => by omega], ?_⟩
  exact sameBut_only_of (sameBut_refl _ s)

/-- Settles O35: each command passes its checks in their order, a completion OK raises no event, and an event keeps the operator key. -/
theorem lifecycleAndVersionAdvance : Obligations.LifecycleAndVersionAdvance := by
  unfold Obligations.LifecycleAndVersionAdvance
  exact ⟨fun _ _ => leads_deploy, fun _ _ => leads_operatorRekey, fun _ _ => leads_operatorRekey_unsigned, fun _ _ => leads_decommission,
    fun _ _ => leads_svnAdvance, fun _ => leads_svnFuseBlow, fun _ => leads_svnFuseBlow_waits⟩

end Sys2Proof.Machine
end

section
/-!
Proofs of the family 13_trust.md: keys (O36) and what the commands that read answer (O37).
-/

namespace Sys2Proof.Machine

open Sys2Proof

/-! ### What the operations on a partition's keys leave -/

@[simp] theorem ms_modTrusted (s : State) (p : Nat) (f : Trusted → Trusted) (i : Nat) : (s.modTrusted p f).ms i = s.ms i := rfl

theorem trusted_of_mordant {s t : State} (h : t.mordant = s.mordant) (p : Nat) : t.trusted p = s.trusted p := by
  rw [State.trusted, h]
  rfl

theorem ms_of_mordant {s t : State} (h : t.mordant = s.mordant) (i : Nat) : t.ms i = s.ms i := by
  rw [State.ms, h]
  rfl

theorem trusted_acceptSctr (s : State) (c : Cmd) : ((s.acceptSctr c).trusted c.part).patKey = (s.trusted c.part).patKey ∧
    ((s.acceptSctr c).trusted c.part).rotate = (s.trusted c.part).rotate := by
  rw [State.acceptSctr, trusted_modTrusted]
  exact ⟨rfl, rfl⟩

/-- A measurement joins its register, and the log where that has room. -/
theorem ms_extend (s : State) (p ty : Nat) (digest : Bytes) : (s.extend p ty digest).ms (8 + p) = sha256 (s.ms (8 + p) ++ le 1 ty ++ digest) := by
  have measured : (s.setMs (8 + p) (sha256 (s.ms (8 + p) ++ le 1 ty ++ digest))).ms (8 + p) = sha256 (s.ms (8 + p) ++ le 1 ty ++ digest) :=
    aget_aset_same ..
  unfold State.extend
  dsimp only
  split
  · exact (ms_modTrusted _ _ _ _).trans measured
  · exact measured

theorem patKey_extend (s : State) (p ty : Nat) (digest : Bytes) : ((s.extend p ty digest).trusted p).patKey = (s.trusted p).patKey := by
  unfold State.extend
  dsimp only
  split
  · rw [trusted_modTrusted]
    rfl
  · rfl

/-! ### The clauses of O36 -/

/-- The DATA of an accepted SPRUE_KEYX. -/
def keyxData (s : State) (c : Cmd) : Bytes :=
  slice (point s.fresh.1) 0 0x48 ++ s.fresh.2.1 ++ s.fresh.2.2.sign
    (sha256 (slice c.args 0x00 65 ++ slice c.args 0x48 32 ++ point s.fresh.1 ++ s.fresh.2.1))

/-- The port under its new key, before the RSP under the former one is queued. -/
def rekeyed (s : State) (c : Cmd) : State :=
  let s1 := { s.fresh.2.2 with free := s.fresh.2.2.free + 1 }.closeCmd c.id (some (.rsp c.id 0x0100 0 s.time.ticks c.part (keyxData s c)))
  { s1 with sprue := { s1.sprue.rekey (extract (slice c.args 0x48 32 ++ s.fresh.2.1) ((shared s.fresh.1 (slice c.args 0x00 65)).getD [])) with
      former := some (s.sprue.key, s.sprue.salt, s.sprue.txSeq) } }

theorem exec_sprueKeyx {s : State} {c : Cmd} (h : s.acts 0x0100 c) (hcheck : s.keyxCheck c = 0) :
    exec (.sprueKeyx c) s = finish answered s
      (((rekeyed s c).sendTx (.rsp c.id 0x0100 0 s.time.ticks c.part (keyxData s c))).wr pgSprue SP_STATUS_KEYED 1) := by
  rw [show exec (.sprueKeyx c) s = execSprueKeyx c s from rfl, execSprueKeyx]
  simp only [h.1, h.2, hcheck, Bool.not_true, Bool.false_eq_true, if_false, ne_eq, not_true]
  rfl

theorem sprue_sendTx_tx (s : State) (f : TxFrame) : ∃ l, (s.sendTx f).sprue = { s.sprue with tx := l } := by
  unfold State.sendTx
  split
  · exact ⟨_, rfl⟩
  · exact ⟨s.sprue.tx, by rw [sprue_bump]⟩

theorem leads_sprueKeyx {s : State} {c : Cmd} (h : s.acts 0x0100 c) (hcheck : s.keyxCheck c = 0) :
    Leads (.sprueKeyx c) s fun t =>
      s.completed t 0x0100 c 0 (keyxData s c) ∧ t.sprue.key.isSome = true ∧ t.sprue.rxSeq = none ∧ t.sprue.txSeq = 0 ∧
      t.sprue.former = some (s.sprue.key, s.sprue.salt, s.sprue.txSeq) ∧ t.rd pgSprue SP_STATUS_KEYED = 1 := by
  refine ⟨_, exec_sprueKeyx h hcheck, ?_⟩
  obtain ⟨u, hu⟩ : ∃ u, u = (rekeyed s c).sendTx (.rsp c.id 0x0100 0 s.time.ticks c.part (keyxData s c)) := ⟨_, rfl⟩
  obtain ⟨l, hl⟩ := sprue_sendTx_tx (rekeyed s c) (.rsp c.id 0x0100 0 s.time.ticks c.part (keyxData s c))
  rw [← hu] at hl ⊢
  have hsprue : (s.only answered (u.wr pgSprue SP_STATUS_KEYED 1)).sprue = u.sprue := rfl
  refine ⟨?_, ?_, ?_, ?_, ?_, rd_wr_fits u pgSprue SP_STATUS_KEYED (v := 1) 0 (by decide)⟩
  · rw [State.completed, State.rspOf, hsprue, hl]
    exact congrArg (fun e : Option (Nat × Option TxFrame) => e.bind Prod.snd) (find_remember _ _ _)
  all_goals
    rw [hsprue, hl]
    rfl

theorem leads_sessionOpen {s : State} {c : Cmd} (h : s.acts 0x0120 c) (hseal : s.sealing c.part = false) (hlife : s.fuse.life ≠ .decommissioned)
    (hkeyed : s.mordant.keyed = true) (hdrbg : s.mordant.drbgFail = false) (hsh : (shared s.fresh.1 (slice c.args 0x00 65)).isSome = true) :
    Leads (.sessionOpen c) s fun t =>
      s.completed t 0x0120 c 0 (slice (point s.fresh.1) 0 0x48 ++ s.fresh.2.1) ∧
      (∃ e, (t.trusted c.part).session = some e ∧ e.qt = slice c.args 0x00 65 ∧ e.nt = slice c.args 0x48 32 ∧ e.sctr = none) ∧
      ∀ p, p ≠ c.part → t.trusted p = s.trusted p := by
  refine leads_acts_data (i := .sessionOpen c) answered (op := 0x0120) (eff := fun _ => s.fresh.2.2.modTrusted c.part fun t =>
      { t with session := some (newSession c.part (slice c.args 0x00 65) (point s.fresh.1) (slice c.args 0x48 32) s.fresh.2.1
        ((shared s.fresh.1 (slice c.args 0x00 65)).getD [])) }) (check := firstStatus [
      (s.sealing c.part || decide (s.fuse.life = .decommissioned) || !s.mordant.keyed, stWRONGSTATE),
      (s.mordant.drbgFail, stNOENTROPY), ((shared s.fresh.1 (slice c.args 0x00 65)).isNone, stBADFORMAT)]) h rfl
    (by rw [hseal, hkeyed, hdrbg, Option.isNone_eq_false_iff.mpr hsh, decide_eq_false hlife]; rfl) ?_
  obtain ⟨u, hu⟩ : ∃ u, u = s.fresh.2.2.modTrusted c.part fun t =>
      { t with session := some (newSession c.part (slice c.args 0x00 65) (point s.fresh.1) (slice c.args 0x48 32) s.fresh.2.1
        ((shared s.fresh.1 (slice c.args 0x00 65)).getD [])) } := ⟨_, rfl⟩
  have kept : ∀ d p, (s.only answered (u.complete 0x0120 c 0 d)).trusted p = u.trusted p := fun d p =>
    trusted_of_mordant (mordant_complete_ok u 0x0120 c d none) p
  rw [← hu]
  refine ⟨completed_only _ _ _ _ _ (by decide) (by rw [hu]; rfl), ?_, fun p hp => ?_⟩
  · rw [kept, hu, trusted_modTrusted]
    exact ⟨_, rfl, rfl, rfl, rfl⟩
  · rw [kept, hu, trusted_modTrusted_other _ _ hp]
    rfl

theorem leads_setPatternKey {s : State} {c : Cmd} (h : s.acts 0x0110 c) (hseal : s.sealed c.part = false) (hload : (s.part c.part).loading = false)
    (hlive : (s.part c.part).run.live = false) (hkey : (coords (slice c.args 0 65)).bind pubKey ≠ none) :
    Leads (.setPatternKey c) s fun t =>
      s.completed t 0x0110 c 0 ∧ (t.trusted c.part).patKey = some (slice c.args 0 65) ∧
      t.ms (8 + c.part) = sha256 (s.ms (8 + c.part) ++ le 1 2 ++ sha256 (slice c.args 0 65)) := by
  obtain ⟨v, hv⟩ : ∃ v, v = (s.modTrusted c.part fun t => { t with patKey := some (slice c.args 0x00 65) }).acceptSctr c := ⟨_, rfl⟩
  obtain ⟨u, hu⟩ : ∃ u, u = v.extend c.part 2 (sha256 (slice c.args 0x00 65)) := ⟨_, rfl⟩
  have hexec : exec (.setPatternKey c) s = finish answered s (u.complete 0x0110 c 0) := by
    rw [show exec (.setPatternKey c) s = execSetPatternKey c s from rfl, execSetPatternKey, hu, hv]
    simp only [h.1, h.2, hseal, hload, hlive, hkey, State.sealedCheck, Bool.not_true, Bool.or_false, Bool.false_eq_true, if_false, ne_eq, not_true]
  have htime : u.time = s.time := by
    rw [hu, time_extend, hv]
    rfl
  have hv8 : v.ms (8 + c.part) = s.ms (8 + c.part) := by rw [hv]; rfl
  have kept : (s.only answered (u.complete 0x0110 c 0)).mordant = u.mordant := mordant_complete_ok u 0x0110 c [] none
  refine ⟨_, hexec, completed_only _ _ _ _ _ (by decide) (by rw [htime]), ?_, ?_⟩
  · rw [trusted_of_mordant kept, hu, patKey_extend, hv, (trusted_acceptSctr _ c).1, trusted_modTrusted]
  · rw [ms_of_mordant kept, hu, ms_extend, hv8]

theorem leads_rotateFarKey {s : State} {c : Cmd} (h : s.acts 0x0111 c) (hseal : s.sealed c.part = false) (hrest : s.atRest c.part = true)
    (hnone : (s.trusted c.part).rotate = none) (hdrbg : s.mordant.drbgFail = false) :
    Leads (.rotateFarKey c) s fun t => (t.trusted c.part).rotate = some c ∧ t.rspOf c.id = none ∧ t.ctrs = s.ctrs := by
  obtain ⟨v, hv⟩ : ∃ v, v = (s.modTrusted c.part fun t => { t with rotate := some c }).acceptSctr c := ⟨_, rfl⟩
  obtain ⟨u, hu⟩ : ∃ u, u = ((List.range 2).filter fun x => s.cxOwner x == some c.part).foldl
    (fun s x => (List.range 8).foldl (fun s d =>
      if s.on (pgCxl x) CX_DEC_CTRL_COMMITTED d then s.wr (pgCxl x) CX_DEC_STAT_INITIALISING 1 d else s) s) v := ⟨_, rfl⟩
  have hexec : exec (.rotateFarKey c) s = finish answered s (u.closeCmd c.id none) := by
    rw [show exec (.rotateFarKey c) s = execRotateFarKey c s from rfl, execRotateFarKey, hu, hv]
    simp only [h.1, h.2, hseal, hrest, hnone, hdrbg, State.sealedCheck, Bool.not_true, Bool.or_false, Bool.false_eq_true, if_false, ne_eq,
      not_true, Option.isSome_none]
  have hmord : u.mordant = v.mordant := by
    rw [hu]
    refine foldl_mordant _ (fun s x => foldl_mordant _ (fun s d => ?_) _ _) _ _
    split <;> rfl
  have kept : (s.only answered (u.closeCmd c.id none)).mordant = v.mordant := hmord
  refine ⟨_, hexec, ?_, ?_, rfl⟩
  · rw [trusted_of_mordant kept, hv, (trusted_acceptSctr _ c).2, trusted_modTrusted]
  · exact congrArg (fun e : Option (Nat × Option TxFrame) => e.bind Prod.snd) (find_remember _ _ _)

/-- The rotated port x: its decoders are initialised, and the counters of its lines start afresh. -/
def portRotated (s : State) (x : Nat) : State :=
  { (List.range 8).foldl (fun s d => s.wr (pgCxl x) CX_DEC_STAT_INITIALISING 0 d) s with
    ctrs := s.ctrs.filter fun e => decide (e.1 < cxlBase x / 256 ∨ cxlBase (x + 1) / 256 ≤ e.1) }

theorem ctrs_portRotated (s : State) (x : Nat) :
    (portRotated s x).ctrs = s.ctrs.filter fun e => decide (e.1 < cxlBase x / 256 ∨ cxlBase (x + 1) / 256 ≤ e.1) := rfl

theorem sameBut_portRotated (s : State) (x : Nat) : s.sameBut [.regs, .ctrs] (portRotated s x) := by
  have hwrs : s.sameBut [.regs, .ctrs] ((List.range 8).foldl (fun s d => s.wr (pgCxl x) CX_DEC_STAT_INITIALISING 0 d) s) :=
    sameBut_foldl _ (fun u d => sameBut_mono (sameBut_wr u _ _ _ _) (by decide)) _ _
  have dropped : ∀ (v : State) l, v.sameBut [.regs, .ctrs] { v with ctrs := l } := fun v l k hk => by
    cases k <;> first | exact absurd (by decide) hk | rfl
  exact sameBut_trans hwrs (dropped _ _)

/-- Of the ports rotated none keeps a counter; a counter left was there before. -/
theorem ctrs_portsRotated (l : List Nat) (s : State) {x : Nat} (hx : x ∈ l) :
    ∀ e ∈ (l.foldl portRotated s).ctrs, e.1 < cxlBase x / 256 ∨ cxlBase (x + 1) / 256 ≤ e.1 := by
  have fewer : ∀ (l : List Nat) (s : State), ∀ e ∈ (l.foldl portRotated s).ctrs, e ∈ s.ctrs := by
    intro l
    induction l with
    | nil => exact fun _ _ he => he
    | cons y l ih =>
      intro s e he
      rw [List.foldl_cons] at he
      have h := ih (portRotated s y) e he
      rw [ctrs_portRotated] at h
      exact (List.mem_filter.mp h).1
  induction l generalizing s with
  | nil => exact absurd hx List.not_mem_nil
  | cons y l ih =>
    rw [List.foldl_cons]
    rcases List.mem_cons.mp hx with rfl | hx
    · intro e he
      have h := fewer l (portRotated s x) e he
      rw [ctrs_portRotated] at h
      exact of_decide_eq_true (List.mem_filter.mp h).2
    · exact ih _ hx

theorem leads_farKeyRotated {s : State} {p : Fin 8} {c : Cmd} (hrot : (s.trusted p).rotate = some c) :
    Leads (.farKeyRotated p) s fun t =>
      (t.trusted p).rotate = none ∧ s.completedLate t 0x0111 c (if s.sealed p then s.sessionTail 0x0111 c else []) ∧
      (∀ x, x < 2 → s.cxOwner x = some p.val → ∀ e ∈ t.ctrs, e.1 < cxlBase x / 256 ∨ cxlBase (x + 1) / 256 ≤ e.1) ∧ t.mem = s.mem := by
  obtain ⟨v, hv⟩ : ∃ v, v = s.modTrusted p fun t => { t with rotate := none } := ⟨_, rfl⟩
  obtain ⟨l, hl⟩ : ∃ l, l = (List.range 2).filter fun x => s.cxOwner x == some (p : Nat) := ⟨_, rfl⟩
  obtain ⟨u, hu⟩ : ∃ u, u = l.foldl portRotated v := ⟨_, rfl⟩
  obtain ⟨d, hd⟩ : ∃ d, d = if s.sealed p then s.sessionTail 0x0111 c else [] := ⟨_, rfl⟩
  have hexec : exec (.farKeyRotated p) s = finish (answered ++ [.ctrs]) s (u.completeLate 0x0111 c d) := by
    rw [show exec (.farKeyRotated p) s = execFarKeyRotated p s from rfl, execFarKeyRotated, hrot, hu, hv, hl, hd]
    rfl
  have hkept : v.sameBut [.regs, .ctrs] u := hu ▸ sameBut_foldl _ (fun u x => sameBut_portRotated u x) l v
  have hmord : (s.only (answered ++ [.ctrs]) (u.completeLate 0x0111 c d)).mordant = u.mordant := mordant_complete_ok ..
  have hctrs : (u.completeLate 0x0111 c d).ctrs = u.ctrs := sameBut_complete_ok u 0x0111 c d _ .ctrs (by decide)
  refine ⟨_, hexec, ?_, ?_, fun x hx hown => ?_, rfl⟩
  · rw [trusted_of_mordant hmord, trusted_of_mordant (hkept .mordant (by decide)), hv, trusted_modTrusted]
  · have hlate := completeLate_completed u 0x0111 c d
    have hsprue : u.sprue = s.sprue := (hkept .sprue (by decide)).trans (by rw [hv]; rfl)
    have htime : u.time = s.time := (hkept .time (by decide)).trans (by rw [hv]; rfl)
    rw [State.completedLate, State.actedAt, hsprue, htime] at hlate
    rw [← hd]
    exact hlate
  · change ∀ e ∈ (u.completeLate 0x0111 c d).ctrs, _
    rw [hctrs, hu]
    refine ctrs_portsRotated l v ?_
    rw [hl, List.mem_filter, hown]
    exact ⟨List.mem_range.mpr hx, by simp⟩

theorem leads_drbgHealthFail (s : State) (test : Fin 2) :
    Leads (.drbgHealthFail test) s fun t => t.mordant.drbgFail = true ∧ t.rd pgMordant MD_STATUS_DRBG_OK = 0 := by
  obtain ⟨u, hu⟩ : ∃ u, u = (s.modMordant fun m => { m with drbgFail := true }).wr pgMordant MD_STATUS_DRBG_OK 0 := ⟨_, rfl⟩
  have hexec : exec (.drbgHealthFail test) s = finish evented s (u.raise pgMordant ev_MD_DRBG_FAIL (le 1 test)) := by
    rw [show exec (.drbgHealthFail test) s = execDrbgHealthFail test s from rfl, execDrbgHealthFail, hu]
  obtain ⟨⟨ps, hps⟩, -⟩ := ringsOnly_raise u pgMordant ev_MD_DRBG_FAIL (le 1 test)
  refine ⟨_, hexec, ?_, ?_⟩
  · change (u.raise pgMordant ev_MD_DRBG_FAIL (le 1 test)).mordant.drbgFail = true
    rw [hps, hu]
    rfl
  · refine (rd_raise_quiet u pgMordant ev_MD_DRBG_FAIL (le 1 test) (quietFld_mordant (i := 0) (by decide) (by decide))).trans ?_
    rw [hu]
    exact rd_wr_fits _ pgMordant MD_STATUS_DRBG_OK (v := 0) 0 (by decide)

/-- Settles O36: keys are replaced where the checks pass; a completion and an event change nothing of Mordant but the rings of partitions; and
the rotation drops the counters of each port that the partition owns. -/
theorem keysAreAgreed : Obligations.KeysAreAgreed := by
  unfold Obligations.KeysAreAgreed
  exact ⟨fun _ _ => leads_sprueKeyx, fun _ _ => leads_sessionOpen, fun _ _ => leads_setPatternKey, fun _ _ => leads_rotateFarKey,
    fun _ _ _ => leads_farKeyRotated, leads_drbgHealthFail⟩

/-! ### What the commands that read answer (O37) -/

/-- A command that reads: its answer leaves, and nothing else changes. -/
theorem leads_reads {s : State} {i : Instr} {op : Nat} {c : Cmd} {check : Nat} {d : Bytes} (h : s.acts op c)
    (hexec : exec i s = finish answered s (s.act1 op c check id d)) (hcheck : check = 0) :
    Leads i s fun t => s.completed t op c 0 d ∧ s.sameBut [.regs, .sprue, .hall, .runner] t :=
  leads_acts_data answered h hexec hcheck
    ⟨completed_only _ _ _ _ _ (by decide) rfl, sameBut_only_of (sameBut_complete_ok s op c d none)⟩

theorem leads_attest {s : State} {c : Cmd} (h : s.acts 0x0109 c) (hlife : s.fuse.life ≠ .decommissioned) (hkeyed : s.mordant.keyed = true)
    (hslots : (maskSlots (fieldAt c.args 0x20 2)).length ≤ 7) :
    Leads (.attest c) s fun t =>
      s.completed t 0x0109 c 0 (s.report c ++ s.sign (sha256 (s.report c))) ∧ s.sameBut [.free, .regs, .sprue, .hall, .runner] t := by
  refine leads_acts_data (i := .attest c) (op := 0x0109) (eff := fun s => { s with free := s.free + 1 }) answered h
    (by rw [show exec (.attest c) s = execAttest c s from rfl, execAttest]) (by simp [firstStatus, hlife, hkeyed, Nat.not_lt.mpr hslots]) ?_
  refine ⟨completed_only _ _ _ _ _ (by decide) rfl, sameBut_only_of ?_⟩
  have drawn : s.sameBut [.free, .regs, .sprue, .hall, .runner] { s with free := s.free + 1 } := fun k hk => by
    cases k <;> first | exact absurd (by decide) hk | exact ⟨rfl, rfl⟩ | rfl
  exact sameBut_trans drawn (sameBut_mono (sameBut_complete_ok _ 0x0109 c _ none) (by decide))

/-- SHUTDOWN_ACK programs the ACK byte of the records named, and then perhaps no halt is left. -/
def acked (l : Ledger) (hit : List (Nat × Bytes)) : Ledger :=
  { l with shut := hit.foldl (fun m e => ains e.1 (e.2.set 0x3C 0) m) l.shut }

def ackEffect (e : Nat × Bytes) (s : State) : State :=
  let s1 := s.modLedger fun l => acked l [e]
  if s1.ledger.pending.isEmpty then
    { (s1.wr pgHk HK_STATUS_ACK_PENDING 0).wr pgHk PAGE_STAT_LEVEL (if s.rd pgHk PAGE_STAT_LEVEL = 1 then 0 else s.rd pgHk PAGE_STAT_LEVEL) with
      boot := { s1.boot with halted := false } }
  else s1

theorem ackEffect_frame (e : Nat × Bytes) (s : State) : (ackEffect e s).ledger = acked s.ledger [e] ∧ (ackEffect e s).time = s.time := by
  unfold ackEffect
  dsimp only
  split
  · exact ⟨rfl, rfl⟩
  · exact ⟨rfl, rfl⟩

theorem leads_shutdownAck {s : State} {c : Cmd} {e : Nat × Bytes} (h : s.acts 0x0400 c) (hkey : s.sprue.key.isSome = true)
    (hid : fieldAt c.args 0x08 4 = c.id)
    (hhit : s.ledger.pending.filter (fun e => decide (fieldAt e.2 0x08 8 = fieldAt c.args 0 8)) = [e]) :
    Leads (.shutdownAck c) s fun t =>
      s.completed t 0x0400 c 0 ∧ aget [] t.ledger.shut e.1 = e.2.set 0x3C 0 ∧
      ∀ i, i ≠ e.1 → aget [] t.ledger.shut i = aget [] s.ledger.shut i := by
  obtain ⟨hledger, htime⟩ := ackEffect_frame e s
  have hpend : s.ledger.pending.isEmpty = false := by
    cases hp : s.ledger.pending with
    | nil => simp [hp] at hhit
    | cons _ _ => rfl
  refine leads_acts_data (i := .shutdownAck c) (op := 0x0400) (eff := ackEffect e) (answered ++ [.ledger, .boot]) h
    (by rw [show exec (.shutdownAck c) s = execShutdownAck c s from rfl, execShutdownAck, hhit]; rfl)
    (by simp [firstStatus, hpend, hid, Option.isSome_iff_ne_none.mp hkey]) ?_
  have hkept : (s.only (answered ++ [.ledger, .boot]) ((ackEffect e s).complete 0x0400 c 0)).ledger = acked s.ledger [e] :=
    (sameBut_complete_ok (ackEffect e s) 0x0400 c [] none .ledger (by decide)).trans hledger
  refine ⟨completed_only _ _ _ _ _ (by decide) (by rw [htime]), ?_, fun i hi => ?_⟩
  · rw [hkept]
    exact aget_ains_same ..
  · rw [hkept]
    exact aget_ains_other _ _ _ hi

/-- Settles O37: each answers what it names, in one completion OK, which raises no event. -/
theorem readoutsAnswer : Obligations.ReadoutsAnswer := by
  unfold Obligations.ReadoutsAnswer
  refine ⟨fun s c h hlife hi => ?_, fun s c => leads_attest, fun s c h => ?_, fun s c d h hd hstart hlife hoff => ?_, fun s c h => ?_, fun s c h => ?_,
    fun s c e => leads_shutdownAck⟩
  · exact leads_reads (i := .getCerts c) h (by rw [show exec (.getCerts c) s = execGetCerts c s from rfl, execGetCerts])
      (by simp [firstStatus, hlife, Nat.not_le.mpr hi])
  · exact leads_reads (i := .getLog c) h (by rw [show exec (.getLog c) s = execGetLog c s from rfl, execGetLog]) rfl
  · rw [hd] at hoff ⊢
    exact leads_reads (i := .getDescription c) h (by rw [show exec (.getDescription c) s = execGetDescription c s from rfl, execGetDescription])
      (by simp only [State.describeCheck, firstStatus, hstart, hlife, Nat.not_le.mpr hoff]; decide)
  · exact leads_reads (i := .shutdownRead c) h (by rw [show exec (.shutdownRead c) s = execShutdownRead c s from rfl, execShutdownRead]) rfl
  · exact leads_reads (i := .ageingRead c) h (by rw [show exec (.ageingRead c) s = execAgeingRead c s from rfl, execAgeingRead]) rfl

end Sys2Proof.Machine
end

section
/-!
Rules for accesses to memory on the die (clusters and slices): what a store there leaves unchanged, and what an access check reads.
-/

namespace Sys2Proof.Machine

open Sys2Proof

/-! ### What an access check reads (R406) -/

/-- The two states answer an access to a home of this package alike. -/
structure StatusSame (s t : State) : Prop where
  parts : t.partCount = s.partCount ∧ t.partSize = s.partSize
  service : ∀ pg, t.service pg = s.service pg
  sealed : ∀ p, t.sealed p = s.sealed p
  owner : ∀ x, x < 2 → t.cxOwner x = s.cxOwner x
  absent : t.rd pgBu BU_REDUCED_RISER_ABSENT = s.rd pgBu BU_REDUCED_RISER_ABSENT
  decoders : ∀ x, (t.cx x).dec = (s.cx x).dec
  active : ∀ n, (t.sl n).active = (s.sl n).active
  resets : t.resets = s.resets
  boot : t.boot = s.boot
  lost : ∀ p, (t.part p).lost = (s.part p).lost

theorem statusSame_refl (s : State) : StatusSame s s :=
  ⟨⟨rfl, rfl⟩, fun _ => rfl, fun _ => rfl, fun _ _ => rfl, rfl, fun _ => rfl, fun _ => rfl, rfl, rfl, fun _ => rfl⟩

theorem homeOf_cxl_lt (o : Nat) : ∀ x f, homeOf o = .cxl x f → x < 2 := by
  intro x f
  unfold homeOf
  dsimp only
  split_ifs <;> simp <;> omega

section
variable {s t : State} (h : StatusSame s t)
include h

theorem partOfRiser_congr (r : Nat) : t.partOfRiser r = s.partOfRiser r := by rw [State.partOfRiser, h.parts.2, State.partOfRiser]

theorem homePart_congr (o : Nat) : t.homePart (homeOf o) = s.homePart (homeOf o) := by
  have hcxl := homeOf_cxl_lt o
  generalize homeOf o = x at hcxl ⊢
  cases x
  case cxl x f => exact h.owner x (hcxl x f rfl)
  all_goals simp only [State.homePart, partOfRiser_congr h]

theorem cxDec_congr (x f : Nat) (region : Bool) : t.cxDec x f region = s.cxDec x f region := by rw [State.cxDec, h.decoders, State.cxDec]

theorem unmapped_congr (x : Home) : t.unmapped x = s.unmapped x := by
  cases x <;> simp only [State.unmapped, cxDec_congr h]

theorem regionDenied_congr (r : Req) (x : Home) : t.regionDenied r x = s.regionDenied r x := by
  have hatom : ∀ n o, t.inAtomic n o = s.inAtomic n o := fun n o => by
    rw [State.inAtomic, State.inAtomic, State.atomMb, State.atomMb, h.active]
  have hcache : ∀ n o, t.inCache n o = s.inCache n o := fun n o => by
    rw [State.inCache, State.inCache, State.atomMb, State.atomMb, State.scratchMb, State.scratchMb, h.active]
  cases x <;> simp only [State.regionDenied, hatom, hcache, cxDec_congr h]

theorem inScope_congr (e : Reset) (x : Home) : t.inScope e x = s.inScope e x := by
  cases x <;> simp only [State.inScope, partOfRiser_congr h]

theorem fencedHome_congr (o : Nat) (inb : Bool) : t.fencedHome (homeOf o) inb = s.fencedHome (homeOf o) inb := by
  have hpart := homePart_congr h o
  generalize homeOf o = x at hpart ⊢
  simp only [State.fencedHome, hpart, h.lost]
  cases x <;> simp only [h.service, h.absent]

theorem localStatus_congr (r : Req) : t.localStatus r = s.localStatus r := by
  have denied : t.partDenied r (homeOf (localOf r.addr)) = s.partDenied r (homeOf (localOf r.addr)) := by
    simp only [State.partDenied, unmapped_congr h, homePart_congr h]
  have hsealed : t.sealedTo r (homeOf (localOf r.addr)) = s.sealedTo r (homeOf (localOf r.addr)) := by
    simp only [State.sealedTo, homePart_congr h, h.sealed]
  have shut : ∀ x, t.closed x = s.closed x := fun x => by
    simp only [State.closed, h.resets, inScope_congr h]
  simp only [State.localStatus, unmapped_congr h, denied, regionDenied_congr h, hsealed, shut, fencedHome_congr h, h.boot]

end

/-! ### Stores on the die -/

/-- A home on the die: a cluster memory or a slice. -/
def dieHome (o : Nat) : Prop := (∃ k f, homeOf o = .cluster k f) ∨ ∃ k f, homeOf o = .slice k f

theorem dieHome_not_dram {o : Nat} (h : dieHome o) : 0xA000000000 ≤ o := by
  by_contra hlt
  have hdram : homeOf o = .dram (o / 0x1400000000) := if_pos (by omega)
  rw [dieHome, hdram] at h
  rcases h with ⟨_, _, h⟩ | ⟨_, _, h⟩ <;> exact absurd h (by simp)

theorem homeOf_slice_lt (o : Nat) : ∀ n f, homeOf o = .slice n f → n < 8 := by
  intro n f
  unfold homeOf
  dsimp only
  split_ifs
  all_goals simp
  omega

theorem sectors_ge {a n x : Nat} (h : x ∈ sectors a n) : a / 64 * 64 ≤ x := by
  unfold sectors at h
  split at h
  · exact absurd h List.not_mem_nil
  · obtain ⟨i, -, rfl⟩ := List.mem_map.mp h
    exact Nat.mul_le_mul_right 64 (Nat.le_add_right _ _)

theorem sameBut_foldl_mem {β : Type} {l : List Comp} (f : State → β → State) (bs : List β) (hf : ∀ (s : State), ∀ b ∈ bs, s.sameBut l (f s b))
    (s : State) : s.sameBut l (bs.foldl f s) := by
  induction bs generalizing s with
  | nil => exact sameBut_refl l s
  | cons b bs ih =>
    exact sameBut_trans (hf s b List.mem_cons_self) (ih (fun s x hx => hf s x (List.mem_cons_of_mem _ hx)) _)

theorem sameBut_setPoison (s : State) (a : Nat) (b : Bool) : s.sameBut [.poison] (s.setPoison a b) := by
  intro k hk
  cases k <;> first | exact absurd (by decide) hk | exact ⟨rfl, rfl⟩ | rfl

/-- Away from DRAM a mark raises nothing. -/
theorem sameBut_mark_die (s : State) {a : Nat} (b : Bool) (h : 0xA000000000 ≤ a) : s.sameBut [.poison] (s.mark a b) := by
  rw [mark_of_not_dram s b h]
  exact sameBut_setPoison s a b

theorem sameBut_writeMem_die (s : State) {a : Nat} (d : Bytes) (poison : Nat) (h : 0xA000000000 ≤ a) : s.sameBut [.mem, .poison] (s.writeMem a d poison) := by
  rw [writeMem_eq_foldl]
  refine sameBut_foldl_mem _ _ (fun t x hx => ?_) s
  have hx : 0xA000000000 ≤ x := by have := sectors_ge hx; omega
  rw [storeSector_of_not_dead (deadAt_of_not_dram t hx)]
  exact sameBut_trans (sameBut_mono (sameBut_setBs t _ _) (by decide)) (sameBut_mono (sameBut_mark_die _ _ hx) (by decide))

/-- An addition of a reduction part, before it is counted. -/
def State.addWords (s : State) (n a : Nat) (d : Bytes) (poison : Nat) : State :=
  let ty := redType (s.redFmt n)
  let w := tyBytes ty
  let lo := a / w * w
  let hi := (a + d.length + w - 1) / w * w
  let pad := List.replicate (a - lo) (0 : Byte) ++ d ++ List.replicate (hi - (a + d.length)) 0
  (sectors lo (hi - lo)).foldl (fun s x => s.mark x (s.poisoned x || dataBad a d.length poison x))
    (s.setBs lo (reduceOp 0 ty (s.getBs lo (hi - lo)) pad))

theorem addMem_eq (s : State) (n a : Nat) (d : Bytes) (poison : Nat) :
    s.addMem n a d poison = (s.addWords n a d poison).bump (pgSlice n) SB_REDWORDS_COUNT ((d.length + 511) / 512) := rfl

theorem sameBut_addWords_die (s : State) (n : Nat) {a : Nat} (d : Bytes) (poison : Nat) (h : 0xA000000000 ≤ a) :
    s.sameBut [.mem, .poison] (s.addWords n a d poison) := by
  have hw : tyBytes (redType (s.redFmt n)) = 4 ∨ tyBytes (redType (s.redFmt n)) = 8 := by
    unfold tyBytes
    split
    · exact .inr rfl
    · exact .inl rfl
  unfold State.addWords
  refine sameBut_trans (sameBut_mono (sameBut_setBs s _ _) (by decide)) (sameBut_foldl_mem _ _ (fun t x hx => ?_) _)
  have hlo : 0xA000000000 ≤ a / tyBytes (redType (s.redFmt n)) * tyBytes (redType (s.redFmt n)) := by
    rcases hw with hw | hw <;> rw [hw] <;> omega
  exact sameBut_mono (sameBut_mark_die _ _ (by have := sectors_ge hx; omega)) (by decide)

/-- What a store on the die can change: memory, poison, and a slice's count of additions. -/
structure DieStored (s t : State) : Prop where
  frame : s.sameBut [.mem, .poison, .regs] t
  rd : ∀ pg F i, (∀ n, n < 8 → fkey pg F i ≠ fkey (pgSlice n) SB_REDWORDS_COUNT 0) → t.rd pg F i = s.rd pg F i

theorem dieStored_of {s t : State} (h : s.sameBut [.mem, .poison] t) : DieStored s t :=
  ⟨sameBut_mono h (by decide), fun _ _ _ _ => rd_congr (h .regs (by decide)).1 _ _ _⟩

theorem dieStored_storeLocal (s : State) {o : Nat} (d : Bytes) (poison : Nat) (h : dieHome o) : DieStored s (s.storeLocal o d poison) := by
  have ho := dieHome_not_dram h
  unfold State.storeLocal
  split
  case h_1 n _ hslice =>
    have hn : n < 8 := homeOf_slice_lt o _ _ hslice
    split
    · have hadd := sameBut_addWords_die s n d poison ho
      rw [addMem_eq]
      generalize s.addWords n o d poison = u at hadd
      exact ⟨sameBut_trans (sameBut_mono hadd (by decide)) (sameBut_mono (sameBut_bump u _ _ _ _) (by decide)), fun pg F i hne =>
        (rd_bump_other u _ _ _ _ (hne n hn)).trans (rd_congr (hadd .regs (by decide)).1 _ _ _)⟩
    · exact dieStored_of (sameBut_writeMem_die s d poison ho)
  case h_2 => exact dieStored_of (sameBut_writeMem_die s d poison ho)

theorem cxOwner_congr {s t : State} (hown : t.hall.owners = s.hall.owners) {x : Nat}
    (hrd : t.rd pgBu PT_CX_ASSIGN_PART x = s.rd pgBu PT_CX_ASSIGN_PART x ∧ t.rd pgBu PT_CX_ASSIGN_VALID x = s.rd pgBu PT_CX_ASSIGN_VALID x) :
    t.cxOwner x = s.cxOwner x := by
  unfold State.cxOwner State.portWord
  rw [hown, hrd.1, hrd.2]

/-- A store on the die changes no answer to another access. -/
theorem statusSame_of_dieStored {s t : State} (h : DieStored s t) : StatusSame s t := by
  have bu : ∀ {F : Fld} {i : Nat}, F.inPage i → t.rd pgBu F i = s.rd pgBu F i := fun hF =>
    h.rd _ _ _ fun n hn => fkey_ne_of_page (by simp [pgBu, pgSlice, pageId]; omega) hF (by decide)
  have hactive : t.rd pgBu PT_CONFIG_ACTIVE = s.rd pgBu PT_CONFIG_ACTIVE := bu (by decide)
  exact
    { parts := ⟨by rw [State.partCount, hactive, State.partCount], by rw [State.partSize, hactive, State.partSize]⟩
      service := fun pg => h.rd _ _ _ fun n _ => fkey_ne_of_apart _ _ (by decide)
      sealed := fun p => by
        rw [State.sealed, State.sealed, State.on, State.on, h.rd _ _ _ fun n _ => ?_]
        simp only [fkey, MD_PART_SEALED, SB_REDWORDS_COUNT]
        omega
      owner := fun x hx => cxOwner_congr (by rw [show t.hall = s.hall from h.frame .hall (by decide)])
        ⟨bu (by simp only [Fld.inPage, Fld.at, PT_CX_ASSIGN_PART]; omega), bu (by simp only [Fld.inPage, Fld.at, PT_CX_ASSIGN_VALID]; omega)⟩
      absent := bu (by decide)
      decoders := fun x => by rw [State.cx, State.cx, show t.cxl = s.cxl from h.frame .cxl (by decide)]
      active := fun n => by rw [State.sl, State.sl, show t.slices = s.slices from h.frame .slices (by decide)]
      resets := h.frame .resets (by decide)
      boot := h.frame .boot (by decide)
      lost := fun p => by rw [State.part, State.part, show t.parts = s.parts from h.frame .parts (by decide)] }

/-! ### Bytes stored on the die -/

theorem length_flatten_map {α : Type} (f : α → Bytes) (w : Nat) (l : List α) (h : ∀ x, (f x).length = w) : ((l.map f).flatten).length = l.length * w := by
  rw [List.length_flatten, List.map_map, List.map_congr_left (f := List.length ∘ f) (g := fun _ => w) fun x _ => h x, List.map_const', List.sum_replicate,
    smul_eq_mul]

theorem reduceOp_length_le (ty : Nat) (old data : Bytes) (h : ty ≠ 5) : (reduceOp 0 ty old data).length ≤ data.length := by
  rw [reduceOp, length_flatten_map _ (tyBytes ty) _ fun i => by simp [le, h], List.length_range, if_neg h]
  exact Nat.div_mul_le_self _ _

/-- A slice's reduction format is one of 4. -/
theorem redType_of_fmt (s : State) (n : Nat) : redType (s.redFmt n) ≠ 5 ∧
    (tyBytes (redType (s.redFmt n)) = 4 ∨ tyBytes (redType (s.redFmt n)) = 8) := by
  constructor
  · have h : s.redFmt n < 4 := Nat.mod_lt _ (by decide)
    unfold redType
    split <;> omega
  · unfold tyBytes
    split
    · exact .inr rfl
    · exact .inl rfl

/-- An addition changes no byte outside the 8-byte words of its data (R343). -/
theorem addMem_getB_outside (s : State) (n : Nat) {a b : Nat} {d : Bytes} (poison : Nat) (h : b < a / 8 * 8 ∨ (a + d.length + 7) / 8 * 8 ≤ b) :
    (s.addMem n a d poison).getB b = s.getB b := by
  obtain ⟨hty, hw⟩ := redType_of_fmt s n
  have hlen := reduceOp_length_le (redType (s.redFmt n))
  have counted : (s.addMem n a d poison).getB b = (s.addWords n a d poison).getB b :=
    getB_congr (sameBut_bump _ _ _ _ _ .mem (by decide)) (sameBut_bump _ _ _ _ _ .undef (by decide)) b
  rw [counted]
  unfold State.addWords
  rw [foldl_getB_same _ b _ (fun s x _ => mark_getB s x _ b)]
  generalize redType (s.redFmt n) = ty at hty hw hlen ⊢
  refine getB_setBs_outside s ?_
  generalize s.getBs _ _ = old
  have h' := hlen old (List.replicate (a - a / tyBytes ty * tyBytes ty) 0 ++ d ++
    List.replicate ((a + d.length + tyBytes ty - 1) / tyBytes ty * tyBytes ty - (a + d.length)) 0) hty
  rw [List.length_append, List.length_append, List.length_replicate, List.length_replicate] at h'
  generalize (reduceOp _ _ _ _).length = m at h' ⊢
  rcases hw with hw | hw <;> rw [hw] at h' ⊢ <;> omega

theorem storeLocal_getB_outside (s : State) {a b : Nat} {d : Bytes} (poison : Nat) (h : b < a / 8 * 8 ∨ (a + d.length + 7) / 8 * 8 ≤ b) :
    (s.storeLocal a d poison).getB b = s.getB b := by
  unfold State.storeLocal
  split
  · split
    · exact addMem_getB_outside s _ poison h
    · exact writeMem_getB_outside s poison (by omega)
  · exact writeMem_getB_outside s poison (by omega)

theorem slice_getElem (b : Bytes) {o n i : Nat} (hi : i < n) (h : i < (slice b o n).length) :
    (slice b o n)[i] = b.getD (o + i) 0 := by
  simp only [slice, List.getElem_append, List.length_take, List.length_drop, List.getElem_take, List.getElem_drop, List.getElem_replicate]
  split
  · rw [List.getD_eq_getElem]
  · rw [List.getD_eq_default _ _ (by omega)]

/-- Data stored sector by sector: a byte of a sector stored reads its data, whatever the order. -/
theorem getB_foldl_storeSector {a : Nat} {d : Bytes} (poison : Nat) {b : Nat} (hlo : a ≤ b) (hhi : b < a + d.length) (l : List Nat)
    (hl : ∀ x ∈ l, x % 64 = 0 ∧ 0xA000000000 ≤ x) (s : State)
    (h : b / 64 * 64 ∈ l ∨ s.getB b = d.getD (b - a) 0) : (l.foldl (fun s x => s.storeSector a d poison x) s).getB b = d.getD (b - a) 0 := by
  induction l generalizing s with
  | nil => exact h.resolve_left List.not_mem_nil
  | cons x l ih =>
    obtain ⟨hx64, hxd⟩ := hl x List.mem_cons_self
    refine ih (fun y hy => hl y (List.mem_cons_of_mem _ hy)) _ ?_
    by_cases hx : x = b / 64 * 64
    · right
      change (s.storeSector a d poison x).getB b = _
      have hlt : b - max a x < min (a + d.length) (x + 64) - max a x := by omega
      have hstored := getB_setBs_in s (max a x) (slice d (max a x - a) (min (a + d.length) (x + 64) - max a x)) (i := b - max a x)
        (by rw [slice_length]; exact hlt)
      rw [show max a x + (b - max a x) = b from by omega] at hstored
      rw [storeSector_of_not_dead (deadAt_of_not_dram s hxd), mark_getB, hstored, slice_getElem _ hlt]
      exact congrArg (d.getD · 0) (by omega)
    · rcases h with h | h
      · exact .inl ((List.mem_cons.mp h).resolve_left (Ne.symm hx))
      · exact .inr ((storeSector_getB_outside s poison x (by omega)).trans h)

theorem mem_sectors {a n b : Nat} (hlo : a ≤ b) (hhi : b < a + n) : b / 64 * 64 ∈ sectors a n := by
  unfold sectors
  rw [if_neg (by omega)]
  exact List.mem_map.mpr ⟨b / 64 - a / 64, List.mem_range.mpr (by omega), by omega⟩

theorem sectors_aligned {a n x : Nat} (h : x ∈ sectors a n) : x % 64 = 0 := by
  unfold sectors at h
  split at h
  · exact absurd h List.not_mem_nil
  · obtain ⟨i, -, rfl⟩ := List.mem_map.mp h
    exact Nat.mul_mod_left _ _

/-- What is written away from DRAM is what stands there. -/
theorem writeMem_getBs_die (s : State) {a : Nat} (d : Bytes) (poison : Nat) (ha : 0xA000000000 ≤ a) : (s.writeMem a d poison).getBs a d.length = d := by
  refine List.ext_getElem (getBs_length _ _ _) fun i hi hd => ?_
  rw [getBs_length] at hi
  have hbyte : ∀ h, ((s.writeMem a d poison).getBs a d.length)[i]'h = (s.writeMem a d poison).getB (a + i) := fun h => by simp [State.getBs]
  rw [hbyte, writeMem_eq_foldl,
    getB_foldl_storeSector poison (by omega) (by omega) _ (fun x hx => ⟨sectors_aligned hx, by have := sectors_ge hx; omega⟩) s
      (.inl (mem_sectors (by omega) (by omega))), Nat.add_sub_cancel_left, List.getD_eq_getElem _ _ hd]

/-! ### Reads on the die -/

theorem dieHome_range {o : Nat} (h : dieHome o) : 0x010000000000 ≤ o ∧ o < 0x010150000000 := by
  unfold dieHome homeOf at h
  dsimp only at h
  split_ifs at h
  all_goals simp at h
  all_goals omega

/-- No line below the far tier and above the DRAM is cached. -/
theorem cacheSlice_die (s : State) {o : Nat} (hlo : 0xA000000000 ≤ o) (hhi : o < 0x080000000000) (part : Option Nat) : s.cacheSlice o part = none := by
  have hhome : (∀ r, homeOf o ≠ .dram r) ∧ ∀ x f, homeOf o ≠ .cxl x f := by
    unfold homeOf
    dsimp only
    split_ifs
    all_goals first | omega | exact ⟨fun _ => by simp, fun _ _ => by simp⟩
  unfold State.cacheSlice
  split
  · rename_i r hr
    exact absurd hr (hhome.1 r)
  · rename_i x f hx
    exact absurd hx (hhome.2 x f)
  · rfl

theorem cacheIn_die (s : State) {o n : Nat} (h : dieHome o) (hn : n ≤ 4096) (part : Option Nat) (write : Bool) : s.cacheIn o n part write = s := by
  obtain ⟨hlo, hhi⟩ := dieHome_range h
  have hline : ∀ e ∈ linesOf o n, s.cacheSlice (e.1 * 256) part = none := by
    intro e he
    unfold linesOf at he
    split at he
    · exact absurd he List.not_mem_nil
    · obtain ⟨k, hk, rfl⟩ := List.mem_map.mp he
      have hk := List.mem_range.mp hk
      exact cacheSlice_die s (by dsimp only; omega) (by dsimp only; omega) part
  unfold State.cacheIn
  generalize linesOf o n = l at hline
  induction l with
  | nil => rfl
  | cons e l ih =>
    rw [List.foldl_cons, hline e List.mem_cons_self]
    exact ih fun e he => hline e (List.mem_cons_of_mem _ he)

theorem copyOf_die (s : State) {o : Nat} (hlo : 0xA000000000 ≤ o) (hhi : o < 0x080000000000) (part : Option Nat) :
    s.copyOf (fun line => s.cacheSlice (line * 256) part) o = none := by
  unfold State.copyOf State.lineAt
  dsimp only
  rw [cacheSlice_die s (by omega) (by omega)]

theorem sectors_lt {a n x : Nat} (h : x ∈ sectors a n) : x < a + n := by
  unfold sectors at h
  split at h
  · exact absurd h List.not_mem_nil
  · obtain ⟨i, hi, rfl⟩ := List.mem_map.mp h
    have hi := List.mem_range.mp hi
    omega

theorem any_congr_mem {α : Type} {l : List α} {p q : α → Bool} (h : ∀ x ∈ l, p x = q x) : l.any p = l.any q := by
  rw [Bool.eq_iff_iff, List.any_eq_true, List.any_eq_true]
  exact ⟨fun ⟨x, hx, hp⟩ => ⟨x, hx, h x hx ▸ hp⟩, fun ⟨x, hx, hq⟩ => ⟨x, hx, (h x hx).symm ▸ hq⟩⟩

theorem peek_die (s : State) {o n : Nat} (h : dieHome o) (hn : n ≤ 4096) (part : Option Nat) : s.peek o n part = s.readMem o n := by
  obtain ⟨hlo, hhi⟩ := dieHome_range h
  have bytes : ((List.range n).map fun i => match s.copyOf (fun line => s.cacheSlice (line * 256) part) (o + i) with
      | some (_, l) => l.data.getD ((o + i) % 256) 0
      | none => (s.readMem o n).1.getD i 0) = (s.readMem o n).1 := by
    refine List.ext_getElem (by simp [State.readMem]) fun i hi hj => ?_
    rw [List.length_map, List.length_range] at hi
    rw [List.getElem_map, List.getElem_range, copyOf_die s (by omega) (by omega) part, List.getD_eq_getElem]
  have marks : (fun i => (sectors (o + 64 * i) (min 64 (n - 64 * i))).any fun x =>
      match s.copyOf (fun line => s.cacheSlice (line * 256) part) x with
      | some (_, l) => bit l.poison (x / 64 % 4)
      | none => s.poisoned x || s.deadAt x) = s.chunkBad o n := by
    funext i
    unfold State.chunkBad
    refine any_congr_mem fun x hx => ?_
    have hpos : 0 < n - 64 * i := by
      by_contra h0
      rw [show n - 64 * i = 0 from by omega] at hx
      exact absurd hx (by simp [sectors])
    have hge := sectors_ge hx
    have hlt := sectors_lt hx
    rw [copyOf_die s (by omega) (by omega) part]
  exact Prod.ext bytes (congrArg (maskOf ((n + 63) / 64)) marks)

end Sys2Proof.Machine
end

section
/-!
Proofs of the family 13_trust.md: sealing, scrubs and session accesses (O38).
-/

namespace Sys2Proof.Machine

open Sys2Proof

/-! ### A partition emptied, and its memory keys replaced -/

/-- What emptying a partition leaves: a refused load answers and raises an event. -/
def emptied (s t : State) : Prop :=
  s.sameBut answered t ∧ ∀ (F : Fld) (i : Nat), quietFld pgBu F i → t.rd pgBu F i = s.rd pgBu F i

theorem emptied_trans {s t u : State} (h1 : emptied s t) (h2 : emptied t u) : emptied s u :=
  ⟨sameBut_trans h1.1 h2.1, fun F i h => (h2.2 F i h).trans (h1.2 F i h)⟩

theorem emptied_of {s t : State} (h : s.sameBut [.parts, .sprue] t) : emptied s t :=
  ⟨sameBut_mono h (by decide), fun _ _ _ => rd_congr (h .regs (by decide)).1 _ _ _⟩

theorem emptied_modPart (s : State) (p : Nat) (f : Part → Part) : emptied s (s.modPart p f) :=
  emptied_of (sameBut_mono (sameBut_modPart s p f) (by decide))

theorem emptied_failLoad (s : State) (p k st : Nat) : emptied s (s.failLoad p k st) := by
  unfold State.failLoad
  dsimp only
  have ended : emptied s (s.endLoad p k (if (s.part p).inUse k then none else some {})) := by
    refine emptied_of fun k hk => ?_
    cases k <;> first | exact absurd (by decide) hk | exact ⟨rfl, rfl⟩ | rfl
  exact emptied_trans ended ⟨sameBut_complete _ _ _ _ _ _, fun F i h => rd_complete _ _ _ _ _ _ h (.inr (by decide))⟩

theorem emptied_emptyPart (s : State) (p : Nat) : emptied s (s.emptyPart p) := by
  have step : ∀ (u : State) k, emptied u (if u.loadDue p k then u.failLoad p k stWRONGSTATE else u) := fun u k => by
    split
    · exact emptied_failLoad u p k _
    · exact ⟨sameBut_refl _ u, fun _ _ _ => rfl⟩
  exact emptied_trans (emptied_trans (step s 0) (step _ 1)) (emptied_modPart _ p _)

theorem risersOf_emptyPart (s : State) (p : Nat) : (s.emptyPart p).risersOf p = s.risersOf p := by
  have hrd : (s.emptyPart p).rd pgBu PT_CONFIG_ACTIVE = s.rd pgBu PT_CONFIG_ACTIVE :=
    (emptied_emptyPart s p).2 _ _ (quietFld_of_page (by decide) (by decide) (by decide) (by decide))
  simp only [State.risersOf, State.partOfRiser, State.partSize, hrd]

theorem sameBut_undefine (s : State) (b n : Nat) : s.sameBut [.free, .mem, .undef] (s.undefine b n) := by
  intro k hk
  cases k <;> first | exact absurd (by decide) hk | exact ⟨rfl, rfl⟩ | rfl

theorem cellAt_filter_none (m : List (Nat × Byte)) (p : Nat × Byte → Bool) (a : Nat) (h : cellAt m a = none ∨ ∀ v, p (a, v) = false) :
    cellAt (m.filter p) a = none := by
  induction m with
  | nil => rfl
  | cons e m ih =>
    obtain ⟨b, v⟩ := e
    have hrest : cellAt m a = none ∨ ∀ v, p (a, v) = false := h.imp_left fun h => by
      rw [cellAt] at h
      split at h
      · exact absurd h (by simp)
      · exact h
    rw [List.filter_cons]
    split
    · rename_i hp
      rw [cellAt, if_neg, ih hrest]
      rintro rfl
      rcases h with h | h
      · rw [cellAt, if_pos rfl] at h
        exact absurd h (by simp)
      · rw [h v] at hp
        exact absurd hp (by simp)
    · exact ih hrest

/-- Nothing is listed in a range made undefined, nor is anything added elsewhere. -/
theorem cellAt_undefine (s : State) (b n : Nat) {a : Nat} (h : cellAt s.mem a = none ∨ b ≤ a ∧ a < b + n) : cellAt (s.undefine b n).mem a = none :=
  cellAt_filter_none s.mem _ a (h.imp_right fun h v => decide_eq_false (by dsimp only; omega))

theorem cellAt_undefine_ranges (base : Nat → Nat) (n a : Nat) (l : List Nat) (s : State)
    (h : cellAt s.mem a = none ∨ ∃ r ∈ l, base r ≤ a ∧ a < base r + n) : cellAt (l.foldl (fun s r => s.undefine (base r) n) s).mem a = none := by
  induction l generalizing s with
  | nil =>
    rcases h with h | ⟨r, hr, -⟩
    · exact h
    · exact absurd hr List.not_mem_nil
  | cons x l ih =>
    refine ih _ ?_
    rcases h with h | ⟨r, hr, hin⟩
    · exact .inl (cellAt_undefine s _ _ (.inl h))
    · rcases List.mem_cons.mp hr with rfl | hr
      · exact .inl (cellAt_undefine s _ _ (.inr hin))
      · exact .inr ⟨r, hr, hin⟩

theorem cellAt_newMemKeys (s : State) (p : Nat) {r a : Nat} (hr : r ∈ s.risersOf p) (hlo : dramBase r ≤ a) (hhi : a < dramBase r + 0x1400000000) :
    cellAt (s.newMemKeys p).mem a = none :=
  cellAt_undefine_ranges cxlBase _ a _ _ (.inl (cellAt_undefine_ranges dramBase _ a _ s (.inr ⟨r, hr, hlo, hhi⟩)))

theorem sameBut_newMemKeys (s : State) (p : Nat) : s.sameBut [.free, .mem, .undef, .regs] (s.newMemKeys p) := by
  refine sameBut_trans (sameBut_foldl _ (fun u r => sameBut_mono (sameBut_undefine u _ _) (by decide)) _ s)
    (sameBut_trans (sameBut_foldl _ (fun u r => sameBut_mono (sameBut_undefine u _ _) (by decide)) _ _) (sameBut_mono (sameBut_wr _ _ _ _ _) (by decide)))

/-! ### SEAL and UNSEAL (R512, R513) -/

/-- The partition emptied, under new memory keys. -/
def rekeyedPart (s : State) (p : Nat) : State := (s.emptyPart p).newMemKeys p

theorem sameBut_rekeyedPart (s : State) (p : Nat) : s.sameBut (answered ++ [.mem, .undef]) (rekeyedPart s p) :=
  sameBut_trans (sameBut_mono (emptied_emptyPart s p).1 (by decide)) (sameBut_mono (sameBut_newMemKeys _ p) (by decide))

theorem cellAt_rekeyedPart (s : State) (p : Nat) {r a : Nat} (hr : r ∈ s.risersOf p) (hlo : dramBase r ≤ a) (hhi : a < dramBase r + 0x1400000000) :
    cellAt (rekeyedPart s p).mem a = none :=
  cellAt_newMemKeys _ p (by rw [risersOf_emptyPart]; exact hr) hlo hhi

theorem rd_scrubbing_complete_ok (s : State) (op : Nat) (c : Cmd) (d : Bytes) (p : Nat) :
    (s.complete op c 0 d).rd pgMordant MD_PART_SCRUBBING p = s.rd pgMordant MD_PART_SCRUBBING p :=
  complete_ok_rd s op c d _ _ _ (by simp only [fkey, MD_PART_SCRUBBING, SP_TXQ_DROPPED]; omega)

/-- The partition sealed under new keys, its scrub due. -/
def sealedPart (s : State) (c : Cmd) : State :=
  ((rekeyedPart (s.acceptSctr c) c.part).modTrusted c.part fun t =>
    { t with domain := slice c.args 0x00 32, pevAddr := fieldAt c.args 0x20 8, pevLog2 := fieldAt c.args 0x28 1,
             flags := fieldAt c.args 0x29 1, pevFault := false, scrubAt := some s.scrubDue, ending := none, sealReady := false }).wr
    pgMordant MD_PART_SCRUBBING 1 c.part

theorem leads_seal {s : State} {c : Cmd} (h : s.acts 0x0121 c) (hsess : s.sessionCheck 0x0121 c [] = 0) (hcheck : s.sealCheck c = 0) :
    Leads (.seal c) s fun t =>
      s.completed t 0x0121 c 0 (s.sessionTail 0x0121 c) ∧ (t.trusted c.part).scrubAt = some s.scrubDue ∧
      (t.trusted c.part).domain = slice c.args 0 32 ∧ t.rd pgMordant MD_PART_SCRUBBING c.part = 1 ∧
      ∀ r ∈ s.risersOf c.part, ∀ a, dramBase r ≤ a → a < dramBase r + 0x1400000000 → cellAt t.mem a = none := by
  obtain ⟨v, hv⟩ : ∃ v, v = rekeyedPart (s.acceptSctr c) c.part := ⟨_, rfl⟩
  obtain ⟨u, hu⟩ : ∃ u, u = sealedPart s c := ⟨_, rfl⟩
  have hexec : exec (.seal c) s = finish (answered ++ [.mem, .undef]) s (u.complete 0x0121 c 0 (s.sessionTail 0x0121 c)) := by
    rw [show exec (.seal c) s = execSeal c s from rfl, execSeal, hu]
    simp only [h.1, h.2, hsess, hcheck, Bool.not_true, Bool.false_eq_true, if_false, ne_eq, not_true]
    rfl
  rw [sealedPart, ← hv] at hu
  have htime : u.time = s.time := by
    rw [hu]
    exact (congrArg State.time hv).trans (sameBut_rekeyedPart (s.acceptSctr c) c.part .time (by decide))
  have hmord : (s.only (answered ++ [.mem, .undef]) (u.complete 0x0121 c 0 (s.sessionTail 0x0121 c))).mordant = u.mordant :=
    mordant_complete_ok u 0x0121 c _ none
  have hmem : (s.only (answered ++ [.mem, .undef]) (u.complete 0x0121 c 0 (s.sessionTail 0x0121 c))).mem = u.mem :=
    sameBut_complete_ok u 0x0121 c _ none .mem (by decide)
  have htr : ∀ w F, (State.wr w pgMordant MD_PART_SCRUBBING F c.part).trusted c.part = w.trusted c.part := fun _ _ => rfl
  refine ⟨_, hexec, completed_only _ _ _ _ _ (by decide) (by rw [htime]), ?_, ?_, ?_, fun r hr a hlo hhi => ?_⟩
  · rw [trusted_of_mordant hmord, hu, htr, trusted_modTrusted]
  · rw [trusted_of_mordant hmord, hu, htr, trusted_modTrusted]
  · refine (rd_scrubbing_complete_ok u 0x0121 c _ _).trans ?_
    rw [hu]
    exact rd_wr_fits _ pgMordant MD_PART_SCRUBBING (v := 1) _ (by decide)
  · rw [hmem, hu]
    change cellAt v.mem a = none
    rw [hv]
    exact cellAt_rekeyedPart _ _ hr hlo hhi

theorem leads_unseal {s : State} {c : Cmd} (h : s.acts 0x0122 c) (hseal : s.sealed c.part = true) (hsess : s.sessionCheck 0x0122 c [] = 0)
    (hdrbg : s.mordant.drbgFail = false) :
    Leads (.unseal c) s fun t =>
      t.rspOf c.id = none ∧ (t.trusted c.part).session = none ∧ (t.trusted c.part).patKey = none ∧
      (t.trusted c.part).scrubAt = some s.scrubDue ∧ t.rd pgMordant MD_PART_SCRUBBING c.part = 1 ∧
      (t.trusted c.part).ending.map SealEnd.cause = some 0 := by
  obtain ⟨u, hu⟩ : ∃ u, u = s.endSeal c.part 0 (some c) (s.sessionTail 0x0122 c) := ⟨_, rfl⟩
  have hexec : exec (.unseal c) s = finish (answered ++ [.mem, .undef]) s (u.closeCmd c.id none) := by
    rw [show exec (.unseal c) s = execUnseal c s from rfl, execUnseal, hu]
    simp only [h.1, h.2, hseal, hsess, hdrbg, Bool.not_true, Bool.false_eq_true, if_false, ne_eq, not_true]
  have htr : (s.only (answered ++ [.mem, .undef]) (u.closeCmd c.id none)).trusted c.part = u.trusted c.part := rfl
  have hended : u.trusted c.part = { ((s.emptyPart c.part).newMemKeys c.part).trusted c.part with
      session := none, patKey := none, sealReady := false, strictEnd := false,
      scrubAt := some s.scrubDue, ending := some ⟨0, some c, s.sessionTail 0x0122 c, s.risersOf c.part⟩ } := by
    rw [hu]
    exact trusted_modTrusted _ _ _
  refine ⟨_, hexec, ?_, ?_, ?_, ?_, ?_, ?_⟩
  · exact congrArg (fun e : Option (Nat × Option TxFrame) => e.bind Prod.snd) (find_remember _ _ _)
  · rw [htr, hended]
  · rw [htr, hended]
  · rw [htr, hended]
  · change u.rd pgMordant MD_PART_SCRUBBING c.part = 1
    rw [hu]
    exact rd_wr_fits _ pgMordant MD_PART_SCRUBBING (v := 1) _ (by decide)
  · rw [htr, hended]
    rfl

/-! ### Scrubs (R513, R519) -/

theorem ringsOnly_redescribe (s : State) : ringsOnly s s.redescribe := by
  have notice : ∀ (u : State) p, ringsOnly u (u.descNotice p) := fun u p => by
    unfold State.descNotice
    split
    · exact ringsOnly_of rfl
    · dsimp only
      split
      · exact ringsOnly_of rfl
      · exact ringsOnly_trans (t := { u with descs := _ }) (ringsOnly_of rfl) (ringsOnly_raise _ _ _ _)
  unfold State.redescribe
  generalize s.descs.map (fun e => e.1) = l
  induction l generalizing s with
  | nil => exact ringsOnly_of rfl
  | cons p l ih => exact ringsOnly_trans (notice s p) (ih _)

theorem mordant_scrubStores (s : State) (l : List Nat) : (s.scrubStores l).mordant = s.mordant := by
  have cores : ∀ (l : List Nat) (u : State), (l.foldl State.wipeGc u).mordant = u.mordant := foldl_mordant _ fun _ _ => rfl
  have arrays : ∀ (l : List Nat) (u : State), (l.foldl State.wipeMx u).mordant = u.mordant := foldl_mordant _ fun _ _ => rfl
  have movers : ∀ (l : List Nat) (u : State), (l.foldl State.wipeMover u).mordant = u.mordant := foldl_mordant _ fun _ _ => rfl
  have mover : ∀ (u : State) m, (u.wipeMover m).mordant = u.mordant := fun _ _ => rfl
  have wiped : ∀ (u : State) n, (u.wipeRiser n).mordant = u.mordant := fun u n => by
    rw [State.wipeRiser, movers]
    exact foldl_mordant _ (fun w c => by rw [State.wipeCluster, mover, cores, arrays]) _ _
  have zeroed : ∀ (l : List Nat) (u : State), (l.foldl (fun s c => s.zeroCluster c false) u).mordant = u.mordant := foldl_mordant _ fun _ _ => rfl
  have slice : ∀ (u : State) n, (u.zeroSlice n).mordant = u.mordant := fun _ _ => rfl
  have emptied : ∀ (u : State) n, (u.emptyChans n).mordant = u.mordant := fun u n => foldl_mordant (fun s c => s.modChan c Chan.empty) (fun _ _ => rfl) _ _
  have flags : ∀ (u : State) r, (u.zeroFlags r).mordant = u.mordant := fun _ _ => rfl
  have routers : ∀ (u : State) r, (u.wipeRouters r).mordant = u.mordant := fun _ _ => rfl
  have marks : ∀ (u : State) n, (u.emptyPoison n).mordant = u.mordant := fun _ _ => rfl
  refine foldl_mordant _ (fun u n => ?_) l s
  dsimp only
  rw [marks, emptied, routers, flags, wiped, slice, zeroed]

theorem quietFld_scrubbing (p : Fin 8) : quietFld pgMordant MD_PART_SCRUBBING p :=
  quietFld_mordant (by revert p; decide) (by revert p; decide)

theorem leads_scrubComplete {s : State} {p : Fin 8} {n : Nat} (hat : (s.trusted p).scrubAt = some n) (hdue : n ≤ s.time.slots)
    (hend : (s.trusted p).ending = none) :
    Leads (.scrubComplete p) s fun t =>
      (t.trusted p).scrubAt = none ∧ (t.trusted p).sealReady = true ∧ t.rd pgMordant MD_PART_SCRUBBING p = 0 := by
  obtain ⟨v, hv⟩ : ∃ v, v = s.scrubStores (s.risersOf p) := ⟨_, rfl⟩
  obtain ⟨u, hu⟩ : ∃ u, u = (v.modTrusted p fun t => { t with scrubAt := none, sealReady := t.ending.isNone }).wr pgMordant MD_PART_SCRUBBING 0 p := ⟨_, rfl⟩
  have hexec : exec (.scrubComplete p) s = finishD (asked ++ [.mem, .undef, .poison, .flags, .sprue, .descs, .chans]) s u := by
    rw [show exec (.scrubComplete p) s = execScrubComplete p s from rfl, execScrubComplete, hu, hv]
    simp only [hat, hend, Nat.not_lt.mpr hdue, if_false]
  obtain ⟨-, hrings⟩ := ringsOnly_redescribe u
  obtain ⟨r, hr⟩ := hrings p
  have hkept : (s.only (asked ++ [.mem, .undef, .poison, .flags, .sprue, .descs, .chans]) u.redescribe).trusted p = { u.trusted p with ring := r } := hr
  have hnow : u.trusted p = { v.trusted p with scrubAt := none, sealReady := (v.trusted p).ending.isNone } := by
    rw [hu]
    exact trusted_modTrusted _ _ _
  have hending : (v.trusted p).ending = none := by rw [trusted_of_mordant (hv ▸ mordant_scrubStores s _), hend]
  refine ⟨_, hexec, ?_, ?_, ?_⟩
  · rw [hkept, hnow]
  · rw [hkept, hnow, hending]
    rfl
  · refine (rd_redescribe u (quietFld_scrubbing p)).trans ?_
    rw [hu]
    exact rd_wr_fits _ pgMordant MD_PART_SCRUBBING (v := 0) _ (by decide)

/-! ### Session accesses to memory on the die (R507, R508) -/

theorem length_ctrText (n i : Nat) (ks : List Nat) (nonce : Nat) (b : Bytes) (h : b.length ≤ 16 * n) : (ctrText n i ks nonce b).length = b.length := by
  induction n generalizing i b with
  | zero =>
    rw [ctrText, List.length_nil]
    omega
  | succ n ih =>
    rw [ctrText, List.length_append, ih _ _ (by rw [List.length_drop]; omega), List.length_map, List.length_zip, List.length_take, List.length_drop]
    have hbe : ∀ v, (be 16 v).length = 16 := fun v => by simp [be, le]
    rw [hbe]
    omega

theorem length_sessText (e : Session) (dir : Nat) (c : Cmd) (b : Bytes) : (sessText e dir c b).length = b.length :=
  length_ctrText _ _ _ _ _ (by omega)

theorem sessStatus_congr {s t : State} (h : StatusSame s t) (hpkg : t.pkg = s.pkg) (p : Nat) (write : Bool) {e : Nat × Nat} (he : dieHome e.1) :
    t.sessStatus p write e = s.sessStatus p write e := by
  have hrisers : t.risersOf p = s.risersOf p := by simp only [State.risersOf, partOfRiser_congr h]
  unfold State.sessStatus
  rw [State.sessReq, hpkg, hrisers, localStatus_congr h, State.sessReq]
  rcases he with ⟨k, f, hk⟩ | ⟨k, f, hk⟩ <;> simp only [hk]

theorem pkg_of_dieStored {s t : State} (h : DieStored s t) : t.pkg = s.pkg :=
  h.rd _ _ _ fun n hn => fkey_ne_of_page (by simp [pgHall, pgSlice, pageId]; omega) (by decide) (by decide)

theorem sessWrite_die {s : State} {p : Nat} {e : Nat × Nat} (he : dieHome e.1) (hst : s.sessStatus p true e = 0) (d : Bytes) :
    s.sessWrite p e d = (0, s.storeLocal e.1 d 0) := by
  unfold State.sessWrite
  simp only [hst, ne_eq, not_true, if_false]
  rcases he with ⟨k, f, hk⟩ | ⟨k, f, hk⟩ <;> rw [hk]

/-- The pieces of a write that each pass are stored one after the other. -/
theorem sessWrite_pieces (p : Nat) (f : Nat × Nat → Bytes) (l : List (Nat × Nat)) (s : State) (h : ∀ e ∈ l, dieHome e.1 ∧ s.sessStatus p true e = 0) :
    l.foldl (fun t e => (worse t.1 (t.2.sessWrite p e (f e)).1, (t.2.sessWrite p e (f e)).2)) (0, s) =
      (0, l.foldl (fun u e => u.storeLocal e.1 (f e) 0) s) := by
  induction l generalizing s with
  | nil => rfl
  | cons e l ih =>
    obtain ⟨he, hst⟩ := h e List.mem_cons_self
    have hstored := dieStored_storeLocal s (f e) 0 he
    rw [List.foldl_cons, List.foldl_cons, sessWrite_die he hst]
    refine ih _ fun x hx => ?_
    obtain ⟨hxe, hxst⟩ := h x (List.mem_cons_of_mem _ hx)
    exact ⟨hxe, by rw [sessStatus_congr (statusSame_of_dieStored hstored) (pkg_of_dieStored hstored) p true hxe, hxst]⟩

/-- Two states that a store on the die changes alike. -/
def memSame (s t : State) : Prop := t.mem = s.mem ∧ t.undef = s.undef ∧ t.slices = s.slices

theorem memSame_of_regs {s t u : State} (h : memSame s t) (hframe : t.sameBut [.regs, .poison] u) : memSame s u :=
  ⟨(hframe .mem (by decide)).trans h.1, (hframe .undef (by decide)).trans h.2.1, (hframe .slices (by decide)).trans h.2.2⟩

theorem memSame_symm {s t : State} (h : memSame s t) : memSame t s := ⟨h.1.symm, h.2.1.symm, h.2.2.symm⟩

theorem memSame_setBs {s t : State} (h : memSame s t) (a : Nat) (bs : Bytes) : memSame (s.setBs a bs) (t.setBs a bs) := by
  induction bs generalizing s t a with
  | nil => exact h
  | cons b bs ih =>
    refine ih (s := s.setB a b) (t := t.setB a b) ⟨?_, h.2⟩ (a + 1)
    rw [State.setB, h.1, h.2.1, State.setB]

theorem memSame_mark {s t : State} (h : memSame s t) {a : Nat} (b b' : Bool) (ha : 0xA000000000 ≤ a) : memSame (s.mark a b) (t.mark a b') :=
  memSame_of_regs (memSame_symm (memSame_of_regs (memSame_symm h) (sameBut_mono (sameBut_mark_die s b ha) (by decide))))
    (sameBut_mono (sameBut_mark_die t b' ha) (by decide))

theorem memSame_writeMem {s t : State} (h : memSame s t) {a : Nat} (d : Bytes) (poison : Nat) (ha : 0xA000000000 ≤ a) :
    memSame (s.writeMem a d poison) (t.writeMem a d poison) := by
  rw [writeMem_eq_foldl, writeMem_eq_foldl]
  have hsec : ∀ x ∈ sectors a d.length, 0xA000000000 ≤ x := fun x hx => by have := sectors_ge hx; omega
  generalize sectors a d.length = l at hsec
  induction l generalizing s t with
  | nil => exact h
  | cons x l ih =>
    refine ih ?_ fun y hy => hsec y (List.mem_cons_of_mem _ hy)
    have hx := hsec x List.mem_cons_self
    dsimp only
    rw [storeSector_of_not_dead (deadAt_of_not_dram s hx), storeSector_of_not_dead (deadAt_of_not_dram t hx)]
    exact memSame_mark (memSame_setBs h _ _) _ _ hx

theorem memSame_addMem {s t : State} (h : memSame s t) (n : Nat) {a : Nat} (d : Bytes) (poison : Nat) (ha : 0xA000000000 ≤ a) :
    memSame (s.addMem n a d poison) (t.addMem n a d poison) := by
  have hfmt : t.redFmt n = s.redFmt n := by rw [State.redFmt, State.sl, h.2.2]; rfl
  have hold : ∀ x k, t.getBs x k = s.getBs x k := fun x k => getBs_congr h.1 h.2.1 x k
  obtain ⟨-, hw⟩ := redType_of_fmt s n
  have words : memSame (s.addWords n a d poison) (t.addWords n a d poison) := by
    unfold State.addWords
    rw [hfmt]
    dsimp only
    rw [hold]
    generalize redType (s.redFmt n) = ty at hw ⊢
    have hsec : ∀ x ∈ sectors (a / tyBytes ty * tyBytes ty) ((a + d.length + tyBytes ty - 1) / tyBytes ty * tyBytes ty - a / tyBytes ty * tyBytes ty),
        0xA000000000 ≤ x := fun x hx => by
      have := sectors_ge hx
      rcases hw with hw | hw <;> rw [hw] at this <;> omega
    have hset := memSame_setBs h (a / tyBytes ty * tyBytes ty) (reduceOp 0 ty
      (s.getBs (a / tyBytes ty * tyBytes ty) ((a + d.length + tyBytes ty - 1) / tyBytes ty * tyBytes ty - a / tyBytes ty * tyBytes ty))
      (List.replicate (a - a / tyBytes ty * tyBytes ty) 0 ++ d ++ List.replicate ((a + d.length + tyBytes ty - 1) / tyBytes ty * tyBytes ty - (a + d.length)) 0))
    revert hset
    generalize s.setBs _ _ = u
    generalize t.setBs _ _ = v
    intro hset
    generalize sectors _ _ = l at hsec
    induction l generalizing u v with
    | nil => exact hset
    | cons x l ih =>
      exact ih _ _ (memSame_mark hset _ _ (hsec x List.mem_cons_self)) fun y hy => hsec y (List.mem_cons_of_mem _ hy)
  rw [addMem_eq, addMem_eq]
  exact memSame_of_regs (memSame_symm (memSame_of_regs (memSame_symm words) (sameBut_mono (sameBut_bump _ _ _ _ _) (by decide))))
    (sameBut_mono (sameBut_bump _ _ _ _ _) (by decide))

theorem memSame_storeLocal {s t : State} (h : memSame s t) {o : Nat} (d : Bytes) (poison : Nat) (ho : dieHome o) :
    memSame (s.storeLocal o d poison) (t.storeLocal o d poison) := by
  have ha := dieHome_not_dram ho
  unfold State.storeLocal
  split
  · rename_i n off _
    have hred : t.inRed n off = s.inRed n off := by
      rw [State.inRed, State.atomMb, State.redMb, State.sl, h.2.2]
      rfl
    rw [hred]
    split
    · exact memSame_addMem h _ d poison ha
    · exact memSame_writeMem h d poison ha
  · exact memSame_writeMem h d poison ha

/-- The checked pieces of a session's access. -/
theorem sessionOpens_pieces {s : State} {op : Nat} {c : Cmd} {e : Session} {a n : Nat} {text : Bytes} {write : Bool}
    (h : s.sessionOpens op c e a n text write) :
    s.acts op c ∧ sessionArgsOk c = true ∧ (s.trusted c.part).session = some e ∧ s.sessionCheck op c text = 0 ∧ a = fieldAt c.args 0 8 ∧
      n = fieldAt c.args 0x08 2 ∧ fieldAt c.args 0x0A 1 = 0 ∧ (1 ≤ n ∧ n ≤ 416) ∧
      ∀ x ∈ pagePieces a n, dieHome x.1 ∧ (s.acceptSctr c).sessStatus c.part write x = 0 := by
  obtain ⟨hturn, hpart, hargs, hsess, hok, ha, hn, hmode, hpieces⟩ := h
  refine ⟨⟨hturn, hpart⟩, hargs, hsess, ?_, ha, hn, hmode, ?_, fun x hx => ?_⟩
  · rw [State.sessionCheck, hsess]
    simp only [hok, if_true]
  · rw [hn]
    unfold sessionArgsOk at hargs
    exact of_decide_eq_true (Bool.and_eq_true_iff.mp hargs).1
  · obtain ⟨hst, hdie⟩ := hpieces x hx
    have hsame : StatusSame s (s.acceptSctr c) :=
      ⟨⟨rfl, rfl⟩, fun _ => rfl, fun _ => rfl, fun _ _ => rfl, rfl, fun _ => rfl, fun _ => rfl, rfl, rfl, fun _ => rfl⟩
    exact ⟨hdie, (sessStatus_congr hsame rfl c.part write hdie).trans hst⟩

theorem session_acceptSctr {s : State} {c : Cmd} {e : Session} (h : (s.trusted c.part).session = some e) :
    ((s.acceptSctr c).trusted c.part).session = some { e with sctr := some (fieldAt c.args 0x1B8 8) } := by
  rw [State.acceptSctr, trusted_modTrusted, h]
  rfl

/-- A session access's answer: its RSP is kept, and only the answer's path changes. -/
theorem sameBut_sessDone (s : State) (op : Nat) (c : Cmd) (st : Nat) (d : Bytes) : s.sameBut [.regs, .sprue, .hall, .runner] (s.sessDone op c st d) := by
  have closed : ∀ r, s.sameBut [.regs, .sprue, .hall, .runner] (s.closeCmd c.id r) := fun r k hk => by
    cases k <;> first | exact absurd (by decide) hk | exact ⟨rfl, rfl⟩ | rfl
  have sent : ∀ (t : State) f, t.sameBut [.regs, .sprue, .hall, .runner] (t.sendTx f) := fun t f => by
    unfold State.sendTx
    split
    · exact fun k hk => by cases k <;> first | exact absurd (by decide) hk | exact ⟨rfl, rfl⟩ | rfl
    · exact sameBut_mono (sameBut_bump _ _ _ _ _) (by decide)
  have relayed : ∀ (t : State) id n, t.sameBut [.regs, .sprue, .hall, .runner] (t.relayAnswer id n) := fun t id n => by
    unfold State.relayAnswer
    split
    · exact sameBut_refl _ t
    · exact fun k hk => by cases k <;> first | exact absurd (by decide) hk | exact ⟨rfl, rfl⟩ | rfl
  exact sameBut_trans (closed _) (sameBut_trans (sent _ _) (relayed _ _ _))

theorem completed_sessDone (s : State) (op : Nat) (c : Cmd) (st : Nat) (d : Bytes) : s.completed (s.sessDone op c st d) op c st d := by
  rw [State.completed, State.rspOf, State.sessDone, relayAnswer_sprue, sendTx_memory]
  exact congrArg (fun e : Option (Nat × Option TxFrame) => e.bind Prod.snd) (find_remember _ _ _)

/-- What the answer to a session access, and descriptions brought up to date, leave of the access. -/
theorem sessDone_leaves (l : List Comp) {s u : State} (op : Nat) (c : Cmd) (st : Nat) (d : Bytes) (hl : .sprue ∈ l) (htime : u.time = s.time) :
    s.completed (s.only l (u.sessDone op c st d).redescribe) op c st d ∧
      (u.sessDone op c st d).redescribe.mem = u.mem ∧ (u.sessDone op c st d).redescribe.poison = u.poison ∧
      ∀ p, ((u.sessDone op c st d).redescribe.trusted p).session = (u.trusted p).session := by
  have hd := sameBut_sessDone u op c st d
  refine ⟨?_, (redescribe_same _ (k := .mem) (by decide)).trans (hd .mem (by decide)),
    (redescribe_same _ (k := .poison) (by decide)).trans (hd .poison (by decide)), fun p => ?_⟩
  · have hdone := completed_of_time (s := s) (by rw [htime]) (completed_sessDone u op c st d)
    have hsprue : (s.only l (u.sessDone op c st d).redescribe).sprue = (u.sessDone op c st d).sprue := by
      rw [only_sprue, if_pos (by simpa using hl)]
      exact redescribe_same _ (k := .sprue) (by decide)
    rw [State.completed, State.rspOf, hsprue]
    exact hdone
  · obtain ⟨r, hr⟩ := (ringsOnly_redescribe (u.sessDone op c st d)).2 p
    rw [hr, ← trusted_of_mordant (s := u) (hd .mordant (by decide)) p]

/-- The pieces stored, from a state that admits them. -/
def storedPieces (f : Nat × Nat → Bytes) (l : List (Nat × Nat)) (s : State) : State := l.foldl (fun u e => u.storeLocal e.1 (f e) 0) s

theorem dieStored_trans {s t u : State} (h1 : DieStored s t) (h2 : DieStored t u) : DieStored s u :=
  ⟨sameBut_trans h1.frame h2.frame, fun pg F i h => (h2.rd pg F i h).trans (h1.rd pg F i h)⟩

theorem dieStored_pieces (f : Nat × Nat → Bytes) (l : List (Nat × Nat)) (hl : ∀ e ∈ l, dieHome e.1) (s : State) : DieStored s (storedPieces f l s) := by
  induction l generalizing s with
  | nil => exact ⟨sameBut_refl _ s, fun _ _ _ _ => rfl⟩
  | cons e l ih =>
    exact dieStored_trans (dieStored_storeLocal s _ 0 (hl e List.mem_cons_self)) (ih (fun x hx => hl x (List.mem_cons_of_mem _ hx)) _)

theorem memSame_pieces (f : Nat × Nat → Bytes) (l : List (Nat × Nat)) (hl : ∀ e ∈ l, dieHome e.1) {s t : State} (h : memSame s t) :
    memSame (storedPieces f l s) (storedPieces f l t) := by
  induction l generalizing s t with
  | nil => exact h
  | cons e l ih => exact ih (fun x hx => hl x (List.mem_cons_of_mem _ hx)) (memSame_storeLocal h _ 0 (hl e List.mem_cons_self))

/-- The deciphered data of one piece of a session's write. -/
def sessPiece (e : Session) (c : Cmd) (a n : Nat) (x : Nat × Nat) : Bytes := slice (sessText e 0 c (slice c.args 0x10 n)) (x.1 - a) x.2

theorem pagePieces_within {a n : Nat} (hn : 1 ≤ n) : ∀ x ∈ pagePieces a n, a ≤ x.1 ∧ x.1 + x.2 ≤ a + n := by
  intro x hx
  unfold pagePieces at hx
  split at hx
  · rw [List.mem_singleton.mp hx]
    exact ⟨le_refl _, le_refl _⟩
  · rcases List.mem_cons.mp hx with rfl | hx
    · exact ⟨le_refl _, by dsimp only; omega⟩
    · rw [List.mem_singleton.mp hx]
      dsimp only
      omega

theorem storedPieces_getB_outside (f : Nat × Nat → Bytes) (hf : ∀ x, (f x).length = x.2) {a n b : Nat} (h : b < a / 8 * 8 ∨ (a + n + 7) / 8 * 8 ≤ b)
    (l : List (Nat × Nat)) (hl : ∀ x ∈ l, a ≤ x.1 ∧ x.1 + x.2 ≤ a + n) (s : State) : (storedPieces f l s).getB b = s.getB b :=
  foldl_getB_same _ b l (fun u x hx => storeLocal_getB_outside u 0 (by
    obtain ⟨hlo, hhi⟩ := hl x hx
    rw [hf]
    omega)) s

theorem exec_sessionWrite {s : State} {c : Cmd} {e : Session} {a n : Nat} (h : s.sessionOpens 0x0123 c e a n (slice c.args 0x10 n) true) :
    exec (.sessionWrite c) s = finishD (accessed ++ [.sprue, .descs]) s
      ((storedPieces (sessPiece e c a n) (pagePieces a n) (s.acceptSctr c)).sessDone 0x0123 c 0
        (sessionData e 0x0123 c [] [])) := by
  obtain ⟨hacts, hargs, hsess, hcheck, ha, hn, hmode, hlen, hpieces⟩ := sessionOpens_pieces h
  have hall : (s.acceptSctr c).sessWriteAll c (sessText e 0 c (slice c.args 0x10 n)) =
      (0, storedPieces (sessPiece e c a n) (pagePieces a n) (s.acceptSctr c)) := by
    unfold State.sessWriteAll
    dsimp only
    rw [if_pos hmode, length_sessText, slice_length, ← ha]
    exact sessWrite_pieces c.part _ _ _ hpieces
  rw [show exec (.sessionWrite c) s = execSessionWrite c s from rfl, execSessionWrite]
  simp only [hacts.1, hacts.2, hargs, hsess, ← hn, hcheck, hall, Bool.not_true, Bool.or_false, Bool.false_eq_true, if_false, ne_eq, not_true]

theorem leads_sessionWrite {s : State} {c : Cmd} {e : Session} {a n : Nat} (h : s.sessionOpens 0x0123 c e a n (slice c.args 0x10 n) true) :
    Leads (.sessionWrite c) s fun t =>
      s.completed t 0x0123 c 0 (sessionData e 0x0123 c [] []) ∧
      t.mem = ((pagePieces a n).foldl (fun u x =>
        u.storeLocal x.1 (slice (sessText e 0 c (slice c.args 0x10 n)) (x.1 - a) x.2) 0) s).mem ∧
      (∀ b, b < a / 8 * 8 ∨ (a + n + 7) / 8 * 8 ≤ b → t.getB b = s.getB b) ∧
      (t.trusted c.part).session = some { e with sctr := some (fieldAt c.args 0x1B8 8) } := by
  obtain ⟨hacts, hargs, hsess, hcheck, ha, hn, hmode, hlen, hpieces⟩ := sessionOpens_pieces h
  have hdie : ∀ x ∈ pagePieces a n, dieHome x.1 := fun x hx => (hpieces x hx).1
  obtain ⟨u, hu⟩ : ∃ u, u = storedPieces (sessPiece e c a n) (pagePieces a n) (s.acceptSctr c) := ⟨_, rfl⟩
  have hframe : DieStored (s.acceptSctr c) u := hu ▸ dieStored_pieces _ _ hdie _
  obtain ⟨hdone, hmem, -, hsession⟩ := sessDone_leaves (s := s) (accessed ++ [.sprue, .descs]) 0x0123 c 0 (sessionData e 0x0123 c [] []) (by decide)
    (hframe.frame .time (by decide))
  refine ⟨_, exec_sessionWrite h, by rw [← hu]; exact hdone, ?_, fun b hb => ?_, ?_⟩
  · rw [← hu]
    refine hmem.trans ?_
    rw [hu]
    exact (memSame_pieces (sessPiece e c a n) (pagePieces a n) hdie (s := s) (t := s.acceptSctr c) ⟨rfl, rfl, rfl⟩).1
  · rw [← hu]
    refine (getB_congr (s := u) (t := s.only (accessed ++ [Comp.sprue, Comp.descs]) (u.sessDone 0x0123 c 0 (sessionData e 0x0123 c [] [])).redescribe) hmem
      (hframe.frame .undef (by decide)).symm b).trans ?_
    rw [hu]
    exact storedPieces_getB_outside _ (fun x => slice_length _ _ _) hb _ (pagePieces_within hlen.1) _
  · rw [← hu]
    refine (hsession c.part).trans ?_
    rw [trusted_of_mordant (hframe.frame .mordant (by decide)), session_acceptSctr hsess]

theorem leads_sessionWrite_cluster {s : State} {c : Cmd} {e : Session} {a n k f : Nat} (h : s.sessionOpens 0x0123 c e a n (slice c.args 0x10 n) true)
    (hhome : homeOf a = .cluster k f) (hone : a % 4096 + n ≤ 4096) :
    Leads (.sessionWrite c) s fun t => t.getBs a n = sessText e 0 c (slice c.args 0x10 n) := by
  obtain ⟨-, -, -, -, -, -, -, hlen, -⟩ := sessionOpens_pieces h
  obtain ⟨t, hexec, -, hmem, -⟩ := leads_sessionWrite h
  refine ⟨t, hexec, ?_⟩
  have hpieces : pagePieces a n = [(a, n)] := if_pos (by omega)
  obtain ⟨d, hd⟩ : ∃ d, d = sessText e 0 c (slice c.args 0x10 n) := ⟨_, rfl⟩
  have hdlen : d.length = n := by rw [hd, length_sessText, slice_length]
  have hstore : (pagePieces a n).foldl (fun u x => u.storeLocal x.1 (slice (sessText e 0 c (slice c.args 0x10 n)) (x.1 - a) x.2) 0) s = s.writeMem a d 0 := by
    rw [hpieces, List.foldl_cons, List.foldl_nil, ← hd]
    dsimp only
    rw [Nat.sub_self, ← hdlen, slice_zero_length, State.storeLocal, hhome]
  rw [hstore] at hmem
  have hdie : 0xA000000000 ≤ a := dieHome_not_dram (.inl ⟨k, f, hhome⟩)
  have hundef : t.undef = (s.writeMem a d 0).undef := by
    rw [exec_sessionWrite h] at hexec
    injection hexec with hexec
    rw [← hexec]
    exact (sameBut_writeMem_die s d 0 hdie .undef (by decide)).symm
  change t.getBs a n = _
  rw [getBs_congr hmem hundef, ← hd, ← hdlen]
  exact writeMem_getBs_die s d 0 hdie

/-! ### Session reads -/

theorem sessRead_die {s : State} {p : Nat} {e : Nat × Nat} (he : dieHome e.1) (hlen : e.2 ≤ 4096) (hst : s.sessStatus p false e = 0) :
    s.sessRead p e = (poisonStatus (s.readMem e.1 e.2).2, (s.readMem e.1 e.2).1, { s with free := s.free + 1 }) := by
  unfold State.sessRead
  simp only [hst, ne_eq, not_true, if_false, cacheIn_die s he hlen, peek_die s he hlen]

theorem mem_sectors_iff {a n x : Nat} : x ∈ sectors a n ↔ 0 < n ∧ x % 64 = 0 ∧ a < x + 64 ∧ x < a + n := by
  constructor
  · intro h
    have hge := sectors_ge h
    have hlt := sectors_lt h
    have hal := sectors_aligned h
    refine ⟨?_, hal, by omega, hlt⟩
    by_contra hn
    rw [show n = 0 from by omega] at h
    exact absurd h (by simp [sectors])
  · rintro ⟨hn, hal, hlo, hhi⟩
    by_cases hax : a ≤ x
    · have h := mem_sectors (b := x) hax hhi
      rwa [show x / 64 * 64 = x from by omega] at h
    · have h := mem_sectors (a := a) (n := n) (b := a) (le_refl _) (by omega)
      rwa [show a / 64 * 64 = x from by omega] at h

theorem maskOf_eq_zero (n : Nat) (f : Nat → Bool) : maskOf n f = 0 ↔ ∀ i, i < n → f i = false := by
  induction n with
  | zero => exact ⟨fun _ i hi => absurd hi (Nat.not_lt_zero i), fun _ => rfl⟩
  | succ n ih =>
    rw [maskOf, List.range_succ, List.foldl_append, List.foldl_cons, List.foldl_nil]
    change (if f n then maskOf n f + 2 ^ n else maskOf n f) = 0 ↔ _
    constructor
    · intro h i hi
      cases hfn : f n with
      | true =>
        rw [hfn, if_pos rfl] at h
        have := Nat.two_pow_pos n
        omega
      | false =>
        rw [hfn, if_neg (by simp)] at h
        rcases Nat.lt_succ_iff_lt_or_eq.mp hi with hi | rfl
        · exact ih.mp h i hi
        · exact hfn
    · intro h
      rw [h n (Nat.lt_succ_self n), if_neg (by simp)]
      exact ih.mpr fun i hi => h i (Nat.lt_succ_of_lt hi)

/-- A read finds no poison exactly where no sector that it covers is bad. -/
theorem readMem_clean_iff (s : State) (a n : Nat) : (s.readMem a n).2 = 0 ↔ ∀ x ∈ sectors a n, (s.poisoned x || s.deadAt x) = false := by
  change maskOf ((n + 63) / 64) (s.chunkBad a n) = 0 ↔ _
  rw [maskOf_eq_zero]
  constructor
  · intro h x hx
    obtain ⟨hn, hal, hlo, hhi⟩ := mem_sectors_iff.mp hx
    have hbad := h ((max a x - a) / 64) (by omega)
    exact (List.any_eq_false.mp hbad x (mem_sectors_iff.mpr ⟨by omega, hal, by omega, by omega⟩)) |> fun h => by simpa using h
  · intro h i hi
    refine List.any_eq_false.mpr fun x hx => ?_
    obtain ⟨hn, hal, hlo, hhi⟩ := mem_sectors_iff.mp hx
    rw [h x (mem_sectors_iff.mpr ⟨by omega, hal, by omega, by omega⟩)]
    exact Bool.false_ne_true

theorem readMem_split (s t : State) {a n k : Nat} (ha : 0xA000000000 ≤ a) (hk : 0 < k) (hkn : k < n)
    (hsame : t.mem = s.mem ∧ t.undef = s.undef ∧ t.poison = s.poison) :
    (s.readMem a k).1 ++ (t.readMem (a + k) (n - k)).1 = (s.readMem a n).1 ∧
      worse (poisonStatus (s.readMem a k).2) (poisonStatus (t.readMem (a + k) (n - k)).2) = poisonStatus (s.readMem a n).2 := by
  have hbytes : ∀ (u : State) x m, 0xA000000000 ≤ x → (u.readMem x m).1 = u.getBs x m := fun u x m hx => by
    refine List.map_congr_left fun i _ => ?_
    rw [deadAt_of_not_dram u (by omega)]
    rfl
  constructor
  · rw [hbytes s a k ha, hbytes t (a + k) _ (by omega), hbytes s a n ha, getBs_congr hsame.1 hsame.2.1]
    rw [State.getBs, State.getBs, State.getBs, show n = k + (n - k) from by omega, List.range_add, List.map_append, List.map_map,
      Nat.add_sub_cancel_left]
    congr 1
    exact List.map_congr_left fun i _ => congrArg s.getB (Nat.add_assoc a k i)
  · have hclean : (s.readMem a n).2 = 0 ↔ (s.readMem a k).2 = 0 ∧ (t.readMem (a + k) (n - k)).2 = 0 := by
      rw [readMem_clean_iff, readMem_clean_iff, readMem_clean_iff]
      have hdead : ∀ x u, x ∈ sectors a n → State.deadAt u x = false := fun x u hx =>
        deadAt_of_not_dram u (by have := sectors_ge hx; omega)
      have hbad : ∀ x ∈ sectors a n, (t.poisoned x || t.deadAt x) = (s.poisoned x || s.deadAt x) := fun x hx => by
        rw [hdead x t hx, hdead x s hx, State.poisoned, hsame.2.2]
        rfl
      have hsub1 : ∀ x ∈ sectors a k, x ∈ sectors a n := fun x hx => by
        obtain ⟨-, hal, hlo, hhi⟩ := mem_sectors_iff.mp hx
        exact mem_sectors_iff.mpr ⟨by omega, hal, hlo, by omega⟩
      have hsub2 : ∀ x ∈ sectors (a + k) (n - k), x ∈ sectors a n := fun x hx => by
        obtain ⟨-, hal, hlo, hhi⟩ := mem_sectors_iff.mp hx
        exact mem_sectors_iff.mpr ⟨by omega, hal, by omega, by omega⟩
      constructor
      · intro h
        refine ⟨fun x hx => h x (hsub1 x hx), fun x hx => ?_⟩
        rw [hbad x (hsub2 x hx)]
        exact h x (hsub2 x hx)
      · rintro ⟨h1, h2⟩ x hx
        obtain ⟨-, hal, hlo, hhi⟩ := mem_sectors_iff.mp hx
        by_cases hxk : x < a + k
        · exact h1 x (mem_sectors_iff.mpr ⟨hk, hal, hlo, hxk⟩)
        · have h := h2 x (mem_sectors_iff.mpr ⟨by omega, hal, by omega, by omega⟩)
          rwa [hbad x hx] at h
    unfold worse poisonStatus
    by_cases h1 : (s.readMem a k).2 = 0
    · by_cases h2 : (t.readMem (a + k) (n - k)).2 = 0
      · rw [if_pos h1, if_pos h2, if_pos (hclean.mpr ⟨h1, h2⟩), if_pos rfl]
      · rw [if_pos h1, if_neg h2, if_neg fun h => h2 (hclean.mp h).2, if_pos rfl]
    · rw [if_neg h1, if_neg fun h => h1 (hclean.mp h).1, if_neg (by decide)]

/-- A session reads its pieces one after the other: the bytes of the whole, the poison of any. -/
theorem sessReadAll_die {s : State} {c : Cmd} {a n : Nat} (ha : a = fieldAt c.args 0 8) (hmode : fieldAt c.args 0x0A 1 = 0) (hlen : 1 ≤ n ∧ n ≤ 416)
    (hpieces : ∀ x ∈ pagePieces a n, dieHome x.1 ∧ s.sessStatus c.part false x = 0) :
    ∃ f, s.sessReadAll c n = (poisonStatus (s.readMem a n).2, (s.readMem a n).1, { s with free := f }) := by
  have hwithin := pagePieces_within (a := a) hlen.1
  have hread : ∀ x ∈ pagePieces a n, ∀ u : State, StatusSame s u → u.pkg = s.pkg → u.sessRead c.part x =
      (poisonStatus (u.readMem x.1 x.2).2, (u.readMem x.1 x.2).1, { u with free := u.free + 1 }) := fun x hx u hu hpkg => by
    obtain ⟨hdie, hst⟩ := hpieces x hx
    have hw := hwithin x hx
    exact sessRead_die hdie (by omega) ((sessStatus_congr hu hpkg c.part false hdie).trans hst)
  unfold State.sessReadAll
  dsimp only
  rw [if_pos hmode, ← ha]
  have hdie : 0xA000000000 ≤ a := by
    have hmem : (pagePieces a n).head?.map Prod.fst = some a := by unfold pagePieces; split <;> rfl
    cases hp : pagePieces a n with
    | nil => rw [hp] at hmem; exact absurd hmem (by simp)
    | cons x l =>
      rw [hp] at hmem
      have hx : x.1 = a := by simpa using hmem
      rw [← hx]
      exact dieHome_not_dram (hpieces x (by rw [hp]; exact List.mem_cons_self)).1
  have hone : ∀ x, worse 0 x = x := fun x => if_pos rfl
  by_cases hpage : a / 4096 = (a + n - 1) / 4096
  · have heq : pagePieces a n = [(a, n)] := if_pos hpage
    rw [heq, List.foldl_cons, List.foldl_nil]
    dsimp only
    rw [hread (a, n) (by rw [heq]; exact List.mem_cons_self) s (statusSame_refl s) rfl, hone]
    exact ⟨_, rfl⟩
  · obtain ⟨k, hk⟩ : ∃ k, k = 4096 - a % 4096 := ⟨_, rfl⟩
    have heq : pagePieces a n = [(a, k), (a + k, n - k)] := by rw [hk]; exact if_neg hpage
    have hsame : StatusSame s { s with free := s.free + 1 } :=
      ⟨⟨rfl, rfl⟩, fun _ => rfl, fun _ => rfl, fun _ _ => rfl, rfl, fun _ => rfl, fun _ => rfl, rfl, rfl, fun _ => rfl⟩
    have hsplit := readMem_split s { s with free := s.free + 1 } (k := k) hdie (by omega) (by omega : k < n) ⟨rfl, rfl, rfl⟩
    rw [heq, List.foldl_cons, List.foldl_cons, List.foldl_nil]
    dsimp only
    rw [hread (a, k) (by rw [heq]; exact List.mem_cons_self) s (statusSame_refl s) rfl]
    dsimp only
    rw [hread (a + k, n - k) (by rw [heq]; exact List.mem_cons_of_mem _ List.mem_cons_self) _ hsame rfl, hone]
    dsimp only
    rw [List.nil_append, hsplit.1, hsplit.2]
    exact ⟨_, rfl⟩

theorem leads_sessionRead {s : State} {c : Cmd} {e : Session} {a n : Nat} (h : s.sessionOpens 0x0124 c e a n [] false) :
    Leads (.sessionRead c) s fun t =>
      s.completed t 0x0124 c (poisonStatus (s.readMem a n).2)
        (sessionData e 0x0124 c (List.replicate 16 0) (sessText e 1 c (s.readMem a n).1)) ∧
      t.mem = s.mem ∧ t.poison = s.poison ∧
      (t.trusted c.part).session = some { e with sctr := some (fieldAt c.args 0x1B8 8) } := by
  obtain ⟨hacts, hargs, hsess, hcheck, ha, hn, hmode, hlen, hpieces⟩ := sessionOpens_pieces h
  obtain ⟨f, hall⟩ := sessReadAll_die ha hmode hlen hpieces
  have hread : (s.acceptSctr c).readMem a n = s.readMem a n := rfl
  rw [hread] at hall
  have hexec : exec (.sessionRead c) s = finishD (answered ++ [.latches, .mem, .poison, .ctrs, .slices, .descs, .wires]) s
      (State.sessDone { s.acceptSctr c with free := f } 0x0124 c (poisonStatus (s.readMem a n).2)
        (sessionData e 0x0124 c (List.replicate 16 0) (sessText e 1 c (s.readMem a n).1))) := by
    rw [show exec (.sessionRead c) s = execSessionRead c s from rfl, execSessionRead]
    simp only [hacts.1, hacts.2, hargs, hsess, ← hn, hcheck, hall, Bool.not_true, Bool.or_false, Bool.false_eq_true, if_false, ne_eq, not_true]
  obtain ⟨hdone, hmem, hpoison, hsession⟩ := sessDone_leaves (s := s) (u := { s.acceptSctr c with free := f })
    (answered ++ [.latches, .mem, .poison, .ctrs, .slices, .descs, .wires]) 0x0124 c (poisonStatus (s.readMem a n).2)
    (sessionData e 0x0124 c (List.replicate 16 0) (sessText e 1 c (s.readMem a n).1)) (by decide) rfl
  exact ⟨_, hexec, hdone, hmem, hpoison, (hsession c.part).trans (session_acceptSctr hsess)⟩

/-! ### Session accesses refused -/

/-- What a completion, and descriptions brought up to date, leave: the RSP, and memory. -/
theorem complete_leaves (l : List Comp) (s u : State) (op : Nat) (c : Cmd) (st : Nat) (d : Bytes) (hl : .sprue ∈ l) (htime : u.time.ticks = s.time.ticks)
    (hmem : u.mem = s.mem) :
    s.completed (s.only l (u.complete op c st d).redescribe) op c st d ∧ (s.only l (u.complete op c st d).redescribe).mem = s.mem := by
  constructor
  · have hdone := completed_of_time htime (complete_completed u op c st d)
    have hsprue : (s.only l (u.complete op c st d).redescribe).sprue = (u.complete op c st d).sprue := by
      rw [only_sprue, if_pos (by simpa using hl)]
      exact redescribe_same _ (k := .sprue) (by decide)
    rw [State.completed, State.rspOf, hsprue]
    exact hdone
  · have hkept : (u.complete op c st d).redescribe.mem = s.mem :=
      (redescribe_same _ (k := .mem) (by decide)).trans ((sameBut_complete u op c st d none .mem (by decide)).trans hmem)
    rw [only_mem, hkept]
    exact ite_self _

theorem leads_sessionWrite_closed {s : State} {c : Cmd} (h : s.acts 0x0123 c) (hargs : sessionArgsOk c = true) (hsess : (s.trusted c.part).session = none) :
    Leads (.sessionWrite c) s fun t => s.completed t 0x0123 c stNOSESSION ∧ t.mem = s.mem := by
  refine ⟨_, show exec (.sessionWrite c) s = finishD (accessed ++ [.sprue, .descs]) s (s.complete 0x0123 c stNOSESSION) from ?_,
    complete_leaves _ s s 0x0123 c stNOSESSION [] (by decide) rfl rfl⟩
  rw [show exec (.sessionWrite c) s = execSessionWrite c s from rfl, execSessionWrite]
  simp only [h.1, h.2, hargs, hsess, Bool.not_true, Bool.or_false, Bool.false_eq_true, if_false]

theorem leads_sessionRead_refused {s : State} {c : Cmd} {e : Session} (h : s.acts 0x0124 c) (hargs : sessionArgsOk c = true)
    (hsess : (s.trusted c.part).session = some e) (hok : sessionOk e 0x0124 c [] = false) :
    Leads (.sessionRead c) s fun t => s.completed t 0x0124 c stAUTHFAIL ∧ t.mem = s.mem := by
  have hcheck : s.sessionCheck 0x0124 c [] = stAUTHFAIL := by
    rw [State.sessionCheck, hsess]
    simp only [hok, Bool.false_eq_true, if_false]
  obtain ⟨u, hu⟩ : ∃ u, u = (s.bump pgMordant MD_FAIL_SESSION).raise pgMordant ev_MD_SESSION_AUTH (le 1 c.part ++ le 7 0 ++ slice c.args 0x1B8 8) := ⟨_, rfl⟩
  have hexec : exec (.sessionRead c) s = finishD (answered ++ [.latches, .mem, .poison, .ctrs, .slices, .descs, .wires]) s (u.complete 0x0124 c stAUTHFAIL) := by
    rw [show exec (.sessionRead c) s = execSessionRead c s from rfl, execSessionRead, hu]
    simp only [h.1, h.2, hargs, hsess, hcheck, Bool.not_true, Bool.or_false, Bool.false_eq_true, if_false]
    rfl
  have hframe : ∀ k, k ∉ evented → k.same s u := fun k hk => by
    rw [hu]
    exact sameBut_trans (sameBut_mono (sameBut_bump s _ _ _ _) (by decide)) (fun k hk => raise_same _ _ _ _ k hk) k hk
  exact ⟨_, hexec, complete_leaves _ s u 0x0124 c stAUTHFAIL [] (by decide) (congrArg TimeUnit.ticks (hframe .time (by decide))) (hframe .mem (by decide))⟩

/-- Settles O38: each clause follows the command's checks, the store or the read of its pieces on the die, and what its answer leaves. -/
theorem sealsAndSessionsRun : Obligations.SealsAndSessionsRun := by
  unfold Obligations.SealsAndSessionsRun
  refine ⟨fun _ _ => leads_seal, fun _ _ => leads_unseal, fun _ _ _ => leads_scrubComplete, fun s p n hat hwait hdesc => ?_,
    fun _ _ _ _ _ => leads_sessionWrite, fun _ _ _ _ _ _ _ => leads_sessionWrite_cluster, fun _ _ _ _ _ => leads_sessionRead,
    fun _ _ => leads_sessionWrite_closed, fun _ _ _ => leads_sessionRead_refused⟩
  refine ⟨_, show exec (.scrubComplete p) s = finishD (asked ++ [.mem, .undef, .poison, .flags, .sprue, .descs, .chans]) s s from ?_, ?_⟩
  · rw [show exec (.scrubComplete p) s = execScrubComplete p s from rfl, execScrubComplete]
    simp only [hat, hwait, if_true]
  · rw [hdesc]
    exact sameBut_only_of (sameBut_refl _ s)

end Sys2Proof.Machine
end

section
/-!
Proofs of the family 15_firmware_update.md: commits (O40).
-/

namespace Sys2Proof.Machine

open Sys2Proof

theorem ms_of_rings {s t : State} (h : ringsOnly s t) (i : Nat) : t.ms i = s.ms i := by
  obtain ⟨⟨ps, hps⟩, -⟩ := h
  rw [State.ms, hps, State.ms]

/-! ### Arming and preparing (R567, R568) -/

theorem leads_updCommit {s : State} {c : Cmd} (h : s.acts 0x0202 c) (hbusy : s.updBusy = false) (hdist : s.update.distributed = true)
    (hlate : s.epoch < fieldAt c.args 0x08 8) (hsvn : s.fuse.svn ≤ manSvn s.update.bundle) :
    Leads (.updCommit c) s fun t => t.update.commit = some c ∧ t.update.commitE = fieldAt c.args 0x08 8 ∧
      t.rd pgBu BU_UPD_STATE_STATE = 6 ∧ t.rspOf c.id = none := by
  obtain ⟨u, hu⟩ : ∃ u, u = (s.modUpdate fun u => { u with commit := some c, commitE := fieldAt c.args 0x08 8, prepared := none, ready := [] }).closeCmd c.id none :=
    ⟨_, rfl⟩
  have hexec : exec (.updCommit c) s = finish (answered ++ [.update]) s ((u.updState 6).wr pgBu BU_UPD_EPOCH_EPOCH (fieldAt c.args 0x08 8)) := by
    rw [show exec (.updCommit c) s = execUpdCommit c s from rfl, execUpdCommit, hu]
    simp [h.1, h.2, hbusy, hdist, firstStatus, Nat.not_le.mpr hlate, Nat.not_lt.mpr hsvn]
  refine ⟨_, hexec, ?_, ?_, ?_, ?_⟩
  · change u.update.commit = some c
    rw [hu]
    rfl
  · change u.update.commitE = _
    rw [hu]
    rfl
  · exact (rd_wr_apart pgBu pgBu (u.updState 6) _ (by decide)).trans (rd_wr_fits u pgBu BU_UPD_STATE_STATE (v := 6) 0 (by decide))
  · change u.rspOf c.id = none
    rw [hu]
    exact congrArg (fun e : Option (Nat × Option TxFrame) => e.bind Prod.snd) (find_remember _ _ _)

theorem leads_commitPrepare {s : State} (l : List Nat) (hcommit : s.update.commit.isSome = true) (hep : s.epoch = s.update.commitE)
    (hlo : 4088 ≤ s.slot) (hhi : s.slot < 4094) (hnew : s.update.prepared = none) :
    Leads (.commitPrepare l) s fun t => t.update.prepared = some s.liveCores ∧ t.update.ready = s.readyCores l ∧ s.sameBut [.update] t := by
  refine ⟨_, show exec (.commitPrepare l) s = finish [.update] s _ by
    rw [show exec (.commitPrepare l) s = execCommitPrepare l s from rfl, execCommitPrepare, if_pos ⟨hcommit, hep, hlo, hhi, hnew⟩], rfl, rfl,
    sameBut_only [.update] s _⟩

/-! ### The hand-over (R568 to R570) -/

/-- The hand-over of the armed commit is due. -/
theorem exec_handOver {s : State} {c : Cmd} (hcommit : s.update.commit = some c) (hep : s.epoch = s.update.commitE) (hslot : s.slot = 4094)
    (hshut : s.health.shutdown = none) :
    exec .handOver s = finish (answered ++ [.update]) s
      (if manSvn s.update.bundle < s.fuse.svn then
        ((s.modUpdate fun u => { u with commit := none, prepared := none, ready := [] }).updState 5).complete 0x0202 c stROLLBACK
      else if s.update.prepared.isSome ∧ (s.update.prepared.getD []).filter (fun p => !s.update.ready.contains p) = [] then s.goCommit c
      else s.abortCommit ((s.update.prepared.getD []).filter fun p => !s.update.ready.contains p)) := by
  rw [show exec .handOver s = execHandOver s from rfl, execHandOver, hcommit]
  simp only [hep, hslot, hshut, Option.isNone_none, and_self, if_true]

theorem filter_ready_nil {m l : List Nat} : m.filter (fun p => !l.contains p) = [] ↔ ∀ p ∈ m, p ∈ l := by
  simp [List.filter_eq_nil_iff]

theorem ringsOnly_tellTcb (s : State) (p : Nat) : (s.tellTcb p).ms = s.ms ∧ s.sameBut [.mordant] (s.tellTcb p) := by
  unfold State.tellTcb
  split
  · exact ⟨rfl, fun k hk => by cases k <;> first | exact absurd (by decide) hk | exact ⟨rfl, rfl⟩ | rfl⟩
  · exact ⟨rfl, sameBut_refl _ s⟩

theorem ms_markStrict (s : State) (p : Nat) : (s.markStrict p).ms = s.ms ∧ s.sameBut [.mordant] (s.markStrict p) := by
  unfold State.markStrict
  split
  · exact ⟨rfl, fun k hk => by cases k <;> first | exact absurd (by decide) hk | exact ⟨rfl, rfl⟩ | rfl⟩
  · exact ⟨rfl, sameBut_refl _ s⟩

theorem ms_seals (l : List Nat) (s : State) : (l.foldl (fun s p => (s.markStrict p).tellTcb p) s).ms = s.ms ∧
    s.sameBut [.mordant] (l.foldl (fun s p => (s.markStrict p).tellTcb p) s) := by
  induction l generalizing s with
  | nil => exact ⟨rfl, sameBut_refl _ s⟩
  | cons p l ih =>
    obtain ⟨hms, hframe⟩ := ih ((s.markStrict p).tellTcb p)
    obtain ⟨hm1, hf1⟩ := ms_markStrict s p
    obtain ⟨hm2, hf2⟩ := ringsOnly_tellTcb (s.markStrict p) p
    exact ⟨hms.trans (hm2.trans hm1), sameBut_trans (sameBut_trans hf1 hf2) hframe⟩

/-- The new ALIAS2 leaves the measurements, and takes draws and registers alone. -/
theorem newAlias2_frame (s : State) : s.newAlias2.ms = s.ms ∧ s.sameBut [.free, .regs, .mordant] s.newAlias2 :=
  ⟨rfl, fun k hk => by cases k <;> first | exact absurd (by decide) hk | exact ⟨rfl, rfl⟩ | rfl⟩

/-- The device as every core has switched to the manifest `m`, before it is told. -/
def switched (s : State) (m : Bytes) : State :=
  let s1 := s.modUpdate fun u => { u with commit := none, prepared := none, ready := [], inForce := m, goDone := true }
  let s2 := ((s1.setMs 2 (sha256 m)).wr pgMordant MD_SVN_MANIFEST (manSvn m)).newAlias2
  let s3 := if decide (s.ms 2 ≠ sha256 m) then s2.partList.foldl (fun s p => (s.markStrict p).tellTcb p) s2 else s2
  (s3.updState 0).wr pgBu BU_UPD_COUNT_COMMITS (s.rd pgBu BU_UPD_COUNT_COMMITS + 1)

theorem goCommit_eq (s : State) (c : Cmd) : s.goCommit c =
    ((switched s (s.update.bundle.take (manLength s.update.bundle))).raise pgBu ev_UPD_COMMITTED
      (le 8 (manRelease (s.update.bundle.take (manLength s.update.bundle))) ++ le 8 s.update.commitE)).completeLate 0x0202 c (le 2 0 ++ le 2 0 ++ le 4 0) := rfl

theorem switched_frame (s : State) (m : Bytes) : (switched s m).ms 2 = sha256 m ∧
    (switched s m).update = { s.update with commit := none, prepared := none, ready := [], inForce := m, goDone := true } ∧
    (switched s m).sprue = s.sprue ∧ (switched s m).time = s.time := by
  obtain ⟨v, hv⟩ : ∃ v, v = ((s.modUpdate fun u => { u with commit := none, prepared := none, ready := [], inForce := m, goDone := true }).setMs 2 (sha256 m)).wr
    pgMordant MD_SVN_MANIFEST (manSvn m) := ⟨_, rfl⟩
  have hms : v.ms 2 = sha256 m := by rw [hv]; exact aget_aset_same ..
  obtain ⟨hams, haframe⟩ := newAlias2_frame v
  obtain ⟨w, hw⟩ : ∃ w, w = if decide (s.ms 2 ≠ sha256 m) then v.newAlias2.partList.foldl (fun s p => (s.markStrict p).tellTcb p) v.newAlias2 else v.newAlias2 :=
    ⟨_, rfl⟩
  have hwframe : w.ms = v.newAlias2.ms ∧ v.newAlias2.sameBut [.mordant] w := by
    rw [hw]
    split
    · exact ms_seals _ _
    · exact ⟨rfl, sameBut_refl _ _⟩
  have heq : switched s m = (w.updState 0).wr pgBu BU_UPD_COUNT_COMMITS (s.rd pgBu BU_UPD_COUNT_COMMITS + 1) := by rw [hw, hv]; rfl
  have hkept : ∀ k, k ∉ [Comp.free, .regs, .mordant] → k.same v (switched s m) := by
    rw [heq]
    exact sameBut_trans haframe (sameBut_trans (sameBut_mono hwframe.2 (by decide))
      (sameBut_trans (sameBut_mono (sameBut_wr w _ _ _ _) (by decide)) (sameBut_mono (sameBut_wr _ _ _ _ _) (by decide))))
  refine ⟨?_, (hkept .update (by decide)).trans (by rw [hv]; rfl), (hkept .sprue (by decide)).trans (by rw [hv]; rfl),
    (hkept .time (by decide)).trans (by rw [hv]; rfl)⟩
  have hsw : (switched s m).ms 2 = w.ms 2 := by rw [heq]; rfl
  rw [hsw, hwframe.1, hams, hms]

theorem leads_handOver_go {s : State} {c : Cmd} {m : List Nat} (hcommit : s.update.commit = some c) (hep : s.epoch = s.update.commitE) (hslot : s.slot = 4094)
    (hshut : s.health.shutdown = none) (hsvn : s.fuse.svn ≤ manSvn s.update.bundle) (hprep : s.update.prepared = some m) (hall : ∀ p ∈ m, p ∈ s.update.ready) :
    Leads .handOver s fun t =>
      t.ms 2 = sha256 (s.update.bundle.take (manLength s.update.bundle)) ∧ t.update.goDone = true ∧ t.update.commit = none ∧
      t.update.inForce = s.update.bundle.take (manLength s.update.bundle) ∧
      s.completedLate t 0x0202 c (le 2 0 ++ le 2 0 ++ le 4 0) := by
  have hexec := exec_handOver hcommit hep hslot hshut
  rw [if_neg (Nat.not_lt.mpr hsvn), hprep, if_pos ⟨rfl, filter_ready_nil.mpr hall⟩, goCommit_eq] at hexec
  obtain ⟨hms, hupd, hsprue, htime⟩ := switched_frame s (s.update.bundle.take (manLength s.update.bundle))
  generalize s.update.bundle.take (manLength s.update.bundle) = b at hexec hms hupd hsprue htime ⊢
  generalize switched s b = v at hexec hms hupd hsprue htime
  obtain ⟨u, hu⟩ : ∃ u, u = v.raise pgBu ev_UPD_COMMITTED (le 8 (manRelease b) ++ le 8 s.update.commitE) := ⟨_, rfl⟩
  rw [← hu] at hexec
  have hrings : ringsOnly v u := hu ▸ ringsOnly_raise v _ _ _
  have hkept : ∀ k, k ∉ evented → k.same v u := hu ▸ fun k hk => raise_same v _ _ _ k hk
  have hupdate : (u.completeLate 0x0202 c (le 2 0 ++ le 2 0 ++ le 4 0)).update = v.update :=
    (sameBut_completeLate u 0x0202 c _ .update (by decide)).trans (hkept .update (by decide))
  have hmord : (s.only (answered ++ [.update]) (u.completeLate 0x0202 c (le 2 0 ++ le 2 0 ++ le 4 0))).mordant = u.mordant :=
    mordant_complete_ok u 0x0202 c _ _
  refine ⟨_, hexec, ?_, ?_, ?_, ?_, ?_⟩
  · rw [ms_of_mordant hmord, ms_of_rings hrings, hms]
  · exact (congrArg Update.goDone hupdate).trans (by rw [hupd])
  · exact (congrArg Update.commit hupdate).trans (by rw [hupd])
  · exact (congrArg Update.inForce hupdate).trans (by rw [hupd])
  · have hlate := completeLate_completed u 0x0202 c (le 2 0 ++ le 2 0 ++ le 4 0)
    have hs : u.sprue = s.sprue := (hkept .sprue (by decide)).trans hsprue
    have ht : u.time = s.time := (hkept .time (by decide)).trans htime
    rw [State.completedLate, State.actedAt, hs, ht] at hlate
    exact hlate

/-- The commit ends without effect: its answer leaves, and the set and the measurements stay. -/
theorem commitEnds {s u : State} (c : Cmd) (st : Nat) (d : Bytes) (hrings : ringsOnly s u) (htime : u.time = s.time) :
    (s.only (answered ++ [.update]) (u.complete 0x0202 c st d)).ms 2 = s.ms 2 ∧
    (s.only (answered ++ [.update]) (u.complete 0x0202 c st d)).update = u.update ∧
    s.completed (s.only (answered ++ [.update]) (u.complete 0x0202 c st d)) 0x0202 c st d := by
  have hmord : (s.only (answered ++ [.update]) (u.complete 0x0202 c st d)).mordant = (u.complete 0x0202 c st d).mordant := rfl
  refine ⟨?_, sameBut_complete u 0x0202 c st d none .update (by decide), completed_only _ _ _ _ _ (by decide) (by rw [htime])⟩
  rw [ms_of_mordant hmord, ms_of_rings (ringsOnly_trans hrings (ringsOnly_complete u 0x0202 c st d))]

theorem leads_handOver_aborts {s : State} {c : Cmd} {m : List Nat} {p : Nat} (hcommit : s.update.commit = some c) (hep : s.epoch = s.update.commitE)
    (hslot : s.slot = 4094) (hshut : s.health.shutdown = none) (hsvn : s.fuse.svn ≤ manSvn s.update.bundle) (hprep : s.update.prepared = some m)
    (hp : p ∈ m) (hnot : p ∉ s.update.ready) :
    Leads .handOver s fun t =>
      t.ms 2 = s.ms 2 ∧ t.update.commit = none ∧ t.update.inForce = s.update.inForce ∧ t.update.distributed = s.update.distributed ∧
      ∃ data, s.completed t 0x0202 c stCOMMITABORTED data := by
  have hexec := exec_handOver hcommit hep hslot hshut
  rw [if_neg (Nat.not_lt.mpr hsvn), hprep, if_neg fun h => hnot (filter_ready_nil.mp h.2 p hp), State.abortCommit, hcommit] at hexec
  dsimp only at hexec
  generalize (Option.getD (some m) []).filter (fun p => !s.update.ready.contains p) = l at hexec
  obtain ⟨v, hv⟩ : ∃ v, v = (((s.modUpdate fun u => { u with commit := none, prepared := none, ready := [] }).updState 5).notReady l).bump pgBu
    BU_UPD_COUNT_ABORTS := ⟨_, rfl⟩
  rw [← hv] at hexec
  obtain ⟨u, hu⟩ : ∃ u, u = v.raise pgBu ev_UPD_ABORTED (le 2 l.length ++ le 2 0 ++ le 4 (l.headD 0)) := ⟨_, rfl⟩
  rw [← hu] at hexec
  have hregs : (s.modUpdate fun u => { u with commit := none, prepared := none, ready := [] }).sameBut [.regs] v := by
    rw [hv]
    exact sameBut_trans (sameBut_wr _ _ _ _ _) (sameBut_trans (sameBut_wrs _ _ _ _) (sameBut_bump _ _ _ _ _))
  have hkept : ∀ k, k ∉ evented → k.same v u := hu ▸ fun k hk => raise_same v _ _ _ k hk
  have hrings : ringsOnly s u := ringsOnly_trans (ringsOnly_of (hregs .mordant (by decide))) (hu ▸ ringsOnly_raise v _ _ _)
  have htime : u.time = s.time := (hkept .time (by decide)).trans (hregs .time (by decide))
  have hupd : u.update = { s.update with commit := none, prepared := none, ready := [] } :=
    (hkept .update (by decide)).trans (hregs .update (by decide))
  obtain ⟨hms, hupdate, hdone⟩ := commitEnds c stCOMMITABORTED (le 2 l.length ++ le 2 0 ++ le 4 (l.headD 0)) hrings htime
  refine ⟨_, hexec, hms, ?_, ?_, ?_, _, hdone⟩ <;> rw [hupdate, hupd]

theorem leads_handOver_rollback {s : State} {c : Cmd} (hcommit : s.update.commit = some c) (hep : s.epoch = s.update.commitE) (hslot : s.slot = 4094)
    (hshut : s.health.shutdown = none) (hsvn : manSvn s.update.bundle < s.fuse.svn) :
    Leads .handOver s fun t => t.ms 2 = s.ms 2 ∧ t.update.commit = none ∧ t.update.inForce = s.update.inForce ∧ s.completed t 0x0202 c stROLLBACK := by
  have hexec := exec_handOver hcommit hep hslot hshut
  rw [if_pos hsvn] at hexec
  obtain ⟨hms, hupdate, hdone⟩ := commitEnds (s := s) (u := (s.modUpdate fun u => { u with commit := none, prepared := none, ready := [] }).updState 5)
    c stROLLBACK [] (ringsOnly_of rfl) rfl
  refine ⟨_, hexec, hms, ?_, ?_, hdone⟩ <;> (rw [hupdate]; rfl)

theorem leads_handOver_waits {s : State} (h : s.update.commit = none ∨ s.epoch ≠ s.update.commitE ∨ s.slot ≠ 4094 ∨ s.health.shutdown ≠ none) :
    Leads .handOver s fun t => s.sameBut [] t := by
  refine ⟨_, show exec .handOver s = finish (answered ++ [.update]) s s from ?_, sameBut_only_of (sameBut_refl _ s)⟩
  rw [show exec .handOver s = execHandOver s from rfl, execHandOver]
  split
  · rfl
  · rename_i c hcommit
    rw [if_neg]
    rintro ⟨hep, hslot, hshut⟩
    rcases h with h | h | h | h
    · rw [h] at hcommit
      exact absurd hcommit (by simp)
    · exact h hep
    · exact h hslot
    · exact h (Option.isNone_iff_eq_none.mp hshut)

/-! ### The select record (R570) -/

/-- Which record is in force: a valid one, the later of two. -/
theorem select_eq_some {u : Update} {r : Select} (h : u.select = some r) :
    r.valid = true ∧ (u.selA = some r ∧ (∀ b, u.selB = some b → b.valid = true → b.seq ≤ r.seq) ∨
      u.selB = some r ∧ ∀ a, u.selA = some a → a.valid = true → a.seq < r.seq) := by
  unfold Update.select at h
  cases ha : u.selA.filter (·.valid) with
  | none =>
    have hnone : ∀ a, u.selA = some a → a.valid = true → a.seq < r.seq := fun a hs hv => by simp [hs, hv] at ha
    rw [ha] at h
    obtain ⟨hs, hv⟩ := Option.filter_eq_some_iff.mp h
    exact ⟨hv, .inr ⟨hs, hnone⟩⟩
  | some a =>
    obtain ⟨has, hav⟩ := Option.filter_eq_some_iff.mp ha
    rw [ha] at h
    cases hb : u.selB.filter (·.valid) with
    | none =>
      rw [hb] at h
      injection h with h
      exact ⟨h ▸ hav, .inl ⟨h ▸ has, fun b hs hv => by simp [hs, hv] at hb⟩⟩
    | some b =>
      obtain ⟨hbs, hbv⟩ := Option.filter_eq_some_iff.mp hb
      rw [hb] at h
      dsimp only at h
      split at h
      · injection h with h
        exact ⟨h ▸ hbv, .inr ⟨h ▸ hbs, fun a' hs _ => by rw [has] at hs; injection hs with hs; rw [← hs, ← h]; assumption⟩⟩
      · injection h with h
        exact ⟨h ▸ hav, .inl ⟨h ▸ has, fun b' hs _ => by rw [hbs] at hs; injection hs with hs; rw [← hs, ← h]; omega⟩⟩

theorem filter_valid {y : Select} (h : y.valid = true) : (some y).filter (fun x => x.valid) = some y := by
  rw [Option.filter_some, if_pos h]

theorem filter_torn {y : Select} (h : y.valid = false) : (some y).filter (fun x => x.valid) = none := by
  rw [Option.filter_some, if_neg (by rw [h]; exact Bool.false_ne_true)]

/-- The record rewritten names the other set, one later. -/
theorem select_writeSelect_good {u : Update} {r : Select} (h : u.select = some r) (b : Bytes) :
    ∃ x, (u.writeSelect b true).select = some x ∧ x.seq = r.seq + 1 ∧ x.set = 1 - r.set := by
  obtain ⟨hv, hrest⟩ := select_eq_some h
  obtain ⟨x, hx⟩ : ∃ x : Select, x = { seq := r.seq + 1, set := 1 - r.set, hash := sha256 (b.take (manLength b)), valid := true } := ⟨_, rfl⟩
  refine ⟨x, ?_, by rw [hx], by rw [hx]⟩
  have hseq : r.seq < x.seq := by rw [hx]; exact Nat.lt_succ_self _
  have hxv : x.valid = true := by rw [hx]
  unfold Update.writeSelect Update.setInForce
  rw [h]
  dsimp only
  rw [← hx]
  cases ha : u.selA with
  | none =>
    have hb : u.selB = some r := (hrest.resolve_left fun hl => by rw [ha] at hl; exact absurd hl.1 (by simp)).1
    simp [Update.select, hb, filter_valid hxv, filter_valid hv, Nat.not_lt.mpr (Nat.le_of_lt hseq)]
  | some a =>
    dsimp only
    by_cases hra : r = a
    · subst hra
      simp [Update.select, filter_valid hxv, filter_valid hv, hseq]
    · have hb : u.selB = some r := (hrest.resolve_left fun hl => by rw [ha] at hl; exact hra (by simpa using hl.1.symm)).1
      simp [Update.select, hra, hb, filter_valid hxv, filter_valid hv, Nat.not_lt.mpr (Nat.le_of_lt hseq)]

/-- A torn record is the one not in force. -/
theorem select_writeSelect_torn (u : Update) (b : Bytes) : (u.writeSelect b false).select = u.select := by
  unfold Update.writeSelect
  dsimp only
  cases h : u.select with
  | none =>
    have hnone : u.selA.filter (·.valid) = none ∧ u.selB.filter (·.valid) = none := by
      unfold Update.select at h
      split at h
      · split at h <;> exact absurd h (by simp)
      · exact absurd h (by simp)
      · exact ⟨by assumption, h⟩
    simp [Update.select, filter_torn, hnone.2]
  | some r =>
    obtain ⟨hv, hrest⟩ := select_eq_some h
    cases ha : u.selA with
    | none =>
      have hb : u.selB = some r := (hrest.resolve_left fun hl => by rw [ha] at hl; exact absurd hl.1 (by simp)).1
      simp [Update.select, hb, filter_torn, filter_valid hv]
    | some a =>
      dsimp only
      by_cases hra : r = a
      · subst hra
        simp [Update.select, filter_torn, filter_valid hv]
      · have hb : u.selB = some r := (hrest.resolve_left fun hl => by rw [ha] at hl; exact hra (by simpa using hl.1.symm)).1
        simp [Update.select, hra, hb, filter_torn, filter_valid hv]

/-- A bit set reads 1. -/
theorem rd_hwSet_bit (s : State) (pg : Nat) (F : Fld) (i : Nat) (h : F.width = 1) : (s.hwSet pg F 1 i).rd pg F i = 1 := by
  rw [rd_hwSet_same, h, Nat.or_mod_two_pow]
  rcases Nat.mod_two_eq_zero_or_one (s.rd pg F i) with h | h <;> rw [Nat.pow_one, h] <;> rfl

theorem rd_writeFail (s : State) (off kind : Nat) : (s.writeFail off kind).rd pgEv LG_STATUS_WRITE_FAIL = 1 :=
  rd_hwSet_bit _ pgEv LG_STATUS_WRITE_FAIL 0 rfl

/-- The update unit after the select record is written, its set no longer staged. -/
def selectWritten (s : State) (good : Bool) : State :=
  (s.modUpdate fun u => { u.writeSelect u.bundle good with goDone := false }).unstage

theorem selectWritten_update (s : State) (good : Bool) :
    (selectWritten s good).update.goDone = false ∧ (selectWritten s good).update.select = (s.update.writeSelect s.update.bundle good).select := ⟨rfl, rfl⟩

theorem leads_selectRecordWrite_good {s : State} {r : Select} (hgo : s.update.goDone = true) (hr : s.update.select = some r) (hshut : s.health.shutdown = none) :
    Leads (.selectRecordWrite true) s fun t => t.update.goDone = false ∧
      ∃ x, t.update.select = some x ∧ x.seq = r.seq + 1 ∧ x.set = 1 - r.set := by
  refine ⟨_, show exec (.selectRecordWrite true) s = finish (evented ++ [.update]) s (selectWritten s true) from ?_, rfl, ?_⟩
  · rw [show exec (.selectRecordWrite true) s = execSelectRecordWrite true s from rfl, execSelectRecordWrite]
    simp only [hgo, hshut, Option.isNone_none, Bool.and_self, if_true]
    rfl
  · exact select_writeSelect_good hr _

theorem leads_selectRecordWrite_torn {s : State} (hgo : s.update.goDone = true) (hshut : s.health.shutdown = none) :
    Leads (.selectRecordWrite false) s fun t => t.update.goDone = false ∧ t.update.select = s.update.select ∧ t.rd pgEv LG_STATUS_WRITE_FAIL = 1 := by
  refine ⟨_, show exec (.selectRecordWrite false) s = finish (evented ++ [.update]) s ((selectWritten s false).writeFail 0x1000000 0) from ?_, ?_, ?_, ?_⟩
  · rw [show exec (.selectRecordWrite false) s = execSelectRecordWrite false s from rfl, execSelectRecordWrite]
    simp only [hgo, hshut, Option.isNone_none, Bool.and_self, if_true]
    rfl
  all_goals
    generalize hv : selectWritten s false = v
    have hupd : (v.writeFail 0x1000000 0).update = v.update := raise_same v _ _ _ .update (by decide)
  · exact (congrArg Update.goDone hupd).trans (by rw [← hv]; rfl)
  · refine (congrArg Update.select hupd).trans ?_
    rw [← hv, (selectWritten_update s false).2, select_writeSelect_torn]
  · exact rd_writeFail v 0x1000000 0

/-- Settles O40: the checks of Table 15-9 in their order; neither a completion nor the event before it changes the set or MS2. -/
theorem commitsHandOver : Obligations.CommitsHandOver := by
  unfold Obligations.CommitsHandOver
  exact ⟨fun _ _ => leads_updCommit, fun _ l => leads_commitPrepare l, fun _ _ _ => leads_handOver_go, fun _ _ _ _ => leads_handOver_aborts,
    fun _ _ => leads_handOver_rollback, fun _ => leads_handOver_waits, fun _ _ => leads_selectRecordWrite_good, fun _ => leads_selectRecordWrite_torn⟩

end Sys2Proof.Machine
end

section
/-!
Proofs of the family 16_health.md: samples of the housekeeping round, and the shutdown path (O41).
-/

namespace Sys2Proof.Machine

open Sys2Proof

/-! ### What an event of Lampblack does -/

/-- Raising an event queues it, delivers it, and acts; an event of Lampblack always acts as one. -/
theorem raise_acts (s : State) (pg : Nat) (k : EvKind) (info : Bytes) :
    ∃ (u : State) (sev : Nat) (named : Bool), s.sameBut [.regs, .events, .mordant] u ∧ s.raise pg k info = u.act pg sev named ∧ (k.sev = 3 → 3 ≤ sev) := by
  obtain ⟨esc, hesc⟩ : ∃ esc, esc = decide (k.sev = 1 ∧ s.rd pg PAGE_STAT_LEVEL = 1) := ⟨_, rfl⟩
  obtain ⟨sv, hsv⟩ : ∃ sv, sv = if esc = true then 2 else k.sev := ⟨_, rfl⟩
  have hthree : k.sev = 3 → sv = 3 := fun h => by rw [hsv, hesc, h]; rfl
  have header : s.sameBut [.regs, .events, .mordant] (s.evHeader pg k.code sv esc) := sameBut_mono (sameBut_evHeader s pg k.code sv esc) (by decide)
  have queued : ∀ q, s.sameBut [.regs, .events, .mordant] (((s.evHeader pg k.code sv esc).setQueue pg q).deliver pg) := fun q =>
    sameBut_trans header (sameBut_trans (sameBut_mono (sameBut_setQueue _ pg q) (by decide)) (sameBut_deliver _ pg))
  unfold State.raise State.raiseAt
  dsimp only
  rw [← hesc, ← hsv]
  split
  · next h => exact ⟨_, 0, false, header, rfl, fun h3 => absurd (h.1.symm.trans (hthree h3)) (by decide)⟩
  · split
    · exact ⟨_, _, _, queued _, rfl, fun h3 => (hthree h3).ge⟩
    · split
      · exact ⟨_, _, _, queued _, rfl, fun h3 => (hthree h3).ge⟩
      · refine ⟨_, _, _, ?_, rfl, fun h3 => ?_⟩
        · exact sameBut_trans (sameBut_trans header (sameBut_mono (sameBut_setQueue _ pg _) (by decide)))
            (sameBut_trans (sameBut_mono (sameBut_trans (sameBut_hwSet _ _ _ _ _) (sameBut_trans (sameBut_hwSet _ _ _ _ _)
              (sameBut_trans (sameBut_hwSet _ _ _ _ _) (sameBut_wr _ _ _ _ _)))) (by decide)) (sameBut_deliver _ pg))
        · rw [hthree h3]
          unfold escalateTail
          split
          · exact le_refl _
          · rw [List.getLast?_reverse, List.head?_cons]
            simp

theorem gated_act (s : State) (pg sev : Nat) (named : Bool) :
    (s.pins.gated = true → (s.act pg sev named).pins.gated = true) ∧ (3 ≤ sev → (s.act pg sev named).pins.gated = true) := by
  have lost : ∀ (l : List Nat) (u : State), (l.foldl State.losePart u).pins = u.pins := fun l => by
    induction l with
    | nil => exact fun _ => rfl
    | cons p l ih => exact fun u => ih _
  have fenced : ∀ (u : State) pg, (u.fenceOne pg).pins = u.pins := fun u pg => by
    unfold State.fenceOne State.halt
    split
    · dsimp only
      split <;> rfl
    · rfl
  unfold State.act
  split
  · exact ⟨id, fun h => absurd h (by decide)⟩
  · refine ⟨fun h => ?_, fun h => absurd h (by decide)⟩
    split
    · exact h
    · unfold State.fenceUnit
      split
      · rw [show (State.pins _) = s.pins from ?_, h]
        generalize (clusterPages (pgInst pg)).filter fenceable = l
        revert s
        induction l with
        | nil => exact fun _ _ => rfl
        | cons p l ih => exact fun s h => (ih (s.fenceOne p) (by rw [fenced]; exact h)).trans (fenced s p)
      · rw [fenced, h]
  · refine ⟨fun h => ?_, fun h => absurd h (by decide)⟩
    split
    · exact h
    · split
      · exact h
      · rw [lost, h]
  · exact ⟨fun _ => rfl, fun _ => rfl⟩

theorem gated_raise (s : State) (pg : Nat) (k : EvKind) (info : Bytes) :
    (s.pins.gated = true → (s.raise pg k info).pins.gated = true) ∧ (k.sev = 3 → (s.raise pg k info).pins.gated = true) := by
  obtain ⟨u, sev, named, hframe, heq, hsev⟩ := raise_acts s pg k info
  have hpins : u.pins = s.pins := hframe .pins (by decide)
  rw [heq]
  exact ⟨fun h => (gated_act u pg sev named).1 (by rw [hpins, h]), fun h => (gated_act u pg sev named).2 (hsev h)⟩

/-! ### What acting on a sample leaves -/

/-- The fields that a sample shows, and the flags of the shutdown path. -/
inductive RoundFld : Nat → Fld → Nat → Prop
  | reading (c : Nat) (h : c < 512) : RoundFld pgHk HK_READ_VALUE c
  | shutdown : RoundFld pgHk HK_STATUS_SHUTDOWN 0
  | tripped : RoundFld pgBu BU_PINS_THERM_TRIP 0

theorem RoundFld.quiet {pg : Nat} {F : Fld} {i : Nat} (h : RoundFld pg F i) : quietFld pg F i := by
  cases h with
  | reading c h =>
    exact quietFld_of_page (by simp only [Fld.inPage, Fld.at, HK_READ_VALUE]; omega) (by simp only [Fld.at, HK_READ_VALUE]; omega) (by decide) (by decide)
  | shutdown => exact quietFld_of_page (by decide) (by decide) (by decide) (by decide)
  | tripped => exact quietFld_of_page (by decide) (by decide) (by decide) (by decide)

/-- A field that is none of them. -/
def offRound (pg : Nat) (F : Fld) (i : Nat) : Prop := ∀ pg' F' i', RoundFld pg' F' i' → fkey pg' F' i' ≠ fkey pg F i

theorem offRound_hk {F : Fld} {i : Nat} (hin : F.inPage i) (h : 0x044 ≤ F.at i ∧ F.at i < 0x400 ∨ 0xC00 ≤ F.at i) : offRound pgHk F i := by
  intro pg' F' i' hr
  cases hr with
  | reading c hc =>
    refine fkey_ne_of_apart _ _ ⟨by simp only [Fld.inPage, Fld.at, HK_READ_VALUE]; omega, hin, .inl ?_⟩
    simp only [Fld.at, HK_READ_VALUE] at h ⊢
    omega
  | shutdown =>
    refine fkey_ne_of_apart _ _ ⟨by decide, hin, .inl ?_⟩
    simp only [Fld.at, HK_STATUS_SHUTDOWN] at h ⊢
    omega
  | tripped => exact fkey_ne_of_page (by decide) (by decide) hin

theorem offRound_sprue {F : Fld} {i : Nat} (hin : F.inPage i) : offRound pgSprue F i := by
  intro pg' F' i' hr
  cases hr with
  | reading c hc => exact fkey_ne_of_page (by decide) (by simp only [Fld.inPage, Fld.at, HK_READ_VALUE]; omega) hin
  | shutdown => exact fkey_ne_of_page (by decide) (by decide) hin
  | tripped => exact fkey_ne_of_page (by decide) (by decide) hin

/-- What acting on a sample leaves where no shutdown starts. -/
structure Calm (s t : State) : Prop where
  chan : t.health.chan = s.health.chan
  roundAt : t.health.roundAt = s.health.roundAt
  shutdown : t.health.shutdown = s.health.shutdown
  boot : t.boot = s.boot
  real : t.real = s.real
  gated : s.pins.gated = true → t.pins.gated = true
  rd : ∀ pg F i, RoundFld pg F i → t.rd pg F i = s.rd pg F i

theorem calm_refl (s : State) : Calm s s := ⟨rfl, rfl, rfl, rfl, rfl, id, fun _ _ _ _ => rfl⟩

theorem calm_trans {s t u : State} (h1 : Calm s t) (h2 : Calm t u) : Calm s u :=
  ⟨h2.chan.trans h1.chan, h2.roundAt.trans h1.roundAt, h2.shutdown.trans h1.shutdown, h2.boot.trans h1.boot, h2.real.trans h1.real,
    fun h => h2.gated (h1.gated h), fun pg F i h => (h2.rd pg F i h).trans (h1.rd pg F i h)⟩

/-- An operation that touches neither registers, nor the pins, nor the round. -/
theorem calm_of {s t : State} (hh : t.health = s.health) (hb : t.boot = s.boot) (hr : t.real = s.real) (hp : t.pins = s.pins) (hregs : t.regs = s.regs) : Calm s t :=
  ⟨by rw [hh], by rw [hh], by rw [hh], hb, hr, by rw [hp]; exact id, fun pg F i _ => rd_congr hregs pg F i⟩

theorem calm_modHealth (s : State) (f : Health → Health) (h : (f s.health).chan = s.health.chan ∧ (f s.health).roundAt = s.health.roundAt ∧
    (f s.health).shutdown = s.health.shutdown) : Calm s (s.modHealth f) :=
  ⟨h.1, h.2.1, h.2.2, rfl, rfl, id, fun _ _ _ _ => rfl⟩

theorem calm_wr (s : State) {pg : Nat} {F : Fld} (v : Nat) {i : Nat} (h : offRound pg F i) : Calm s (s.wr pg F v i) :=
  ⟨rfl, rfl, rfl, rfl, rfl, id, fun _ _ _ hr => rd_wr_other s pg F v i (h _ _ _ hr)⟩

theorem calm_bump (s : State) {pg : Nat} {F : Fld} (n : Nat) {i : Nat} (h : offRound pg F i) : Calm s (s.bump pg F n i) := by
  have hframe := sameBut_bump s pg F n i
  exact ⟨by rw [show (s.bump pg F n i).health = s.health from hframe .health (by decide)],
    by rw [show (s.bump pg F n i).health = s.health from hframe .health (by decide)],
    by rw [show (s.bump pg F n i).health = s.health from hframe .health (by decide)], hframe .boot (by decide), bump_real _ _ _ _ _,
    by rw [show (s.bump pg F n i).pins = s.pins from hframe .pins (by decide)]; exact id,
    fun _ _ _ hr => rd_bump_other s pg F n i (h _ _ _ hr)⟩

/-- What an event changes alone is calm, but for the pins. -/
theorem calm_of_eventOnly {s t : State} (h : eventOnly s t) (hreal : t.real = s.real) (hg : s.pins.gated = true → t.pins.gated = true) : Calm s t := by
  have hhealth : t.health = s.health := h.1 .health (by decide)
  exact ⟨by rw [hhealth], by rw [hhealth], by rw [hhealth], h.1 .boot (by decide), hreal, hg,
    fun _ _ _ hr => rd_quiet h.2 _ _ _ (quietKey_of_quietFld hr.quiet)⟩

theorem calm_raise (s : State) (pg : Nat) (k : EvKind) (info : Bytes) : Calm s (s.raise pg k info) :=
  calm_of_eventOnly (raise_eventOnly s pg k info) (raise_real s pg k info) (gated_raise s pg k info).1

/-- Each step of acting on a sample without a shutdown. -/
theorem calm_setBand (s : State) (r b : Nat) : Calm s (s.setBand r b) :=
  calm_trans (calm_modHealth s _ ⟨rfl, rfl, rfl⟩) (calm_raise _ _ _ _)

theorem calm_bandRise (s : State) (r : Nat) : Calm s (s.bandRise r) := by
  have risen : ∀ up, Calm s (if aget 0 s.health.band r < up then s.setBand r up else s) := fun up => by
    split
    · exact calm_setBand s r up
    · exact calm_refl s
  exact risen _

theorem calm_tempNotice (s : State) (c : Nat) (v : Int) : Calm s (s.tempNotice c v) := by
  unfold State.tempNotice
  dsimp only
  have counted := fun f => calm_modHealth s (fun h => { h with tempSince := f }) ⟨rfl, rfl, rfl⟩
  split
  · exact calm_trans (counted _) (calm_trans (calm_raise _ _ _ _) (calm_bump _ (F := HK_EVENTS_NOTICE) (i := 0) 1 (offRound_hk (by decide) (by decide))))
  · exact counted _

theorem calm_riseNotice (s : State) (c : Nat) (v d : Int) : Calm s (s.riseNotice c v d) := by
  have counted := fun f g => calm_modHealth s (fun h => { h with rateNotice := f, riseSince := g }) ⟨rfl, rfl, rfl⟩
  have told : ∀ (n : Nat) (r : Nat × Bool) (info : Bytes), Calm s (if r.2 then
      ((s.modHealth fun h => { h with rateNotice := aset 0 h.rateNotice c n, riseSince := aset 0 h.riseSince c r.1 }).raise pgHk ev_HK_RISE_NOTICE info).bump
        pgHk HK_EVENTS_NOTICE
      else s.modHealth fun h => { h with rateNotice := aset 0 h.rateNotice c n, riseSince := aset 0 h.riseSince c r.1 }) := fun n r info => by
    split
    · exact calm_trans (counted _ _) (calm_trans (calm_raise _ _ _ _) (calm_bump _ (F := HK_EVENTS_NOTICE) (i := 0) 1 (offRound_hk (by decide) (by decide))))
    · exact counted _ _
  exact told _ _ _

theorem calm_protHold (s : State) (p kind chan val : Nat) : Calm s (s.protHold p kind chan val) := by
  have hoff : offRound pgHk (holdField kind) 0 := by
    unfold holdField
    split <;> exact offRound_hk (by decide) (by decide)
  unfold State.protHold
  split
  · exact calm_refl s
  · exact calm_trans (calm_wr s _ hoff) (calm_trans (calm_raise _ _ _ _)
      (calm_trans (calm_bump _ (F := HK_EVENTS_HOLD) (i := 0) 1 (offRound_hk (by decide) (by decide))) (calm_of rfl rfl rfl rfl rfl)))

theorem calm_sensorFail (s : State) (c : Nat) (v : Int) : Calm s (s.sensorFail c v) := by
  unfold State.sensorFail
  dsimp only
  generalize hu : State.wrs _ pgHk [(HK_SENSOR_FAIL_COUNT, _), (HK_SENSOR_FAIL_CHANNEL, c)] = u
  have counted : Calm s u := by
    rw [← hu]
    exact calm_trans (calm_modHealth s _ ⟨rfl, rfl, rfl⟩) (calm_trans (calm_wr _ (F := HK_SENSOR_FAIL_COUNT) (i := 0) _ (offRound_hk (by decide) (by decide)))
      (calm_wr _ (F := HK_SENSOR_FAIL_CHANNEL) (i := 0) _ (offRound_hk (by decide) (by decide))))
  have told := fun info => calm_trans counted (calm_raise u pgHk ev_HK_SENSOR_FAIL info)
  split
  · refine calm_trans (told _) (calm_of_eventOnly (fenceUnit_eventOnly _ _) (fenceUnit_real _ _) ?_)
    exact (gated_act _ (pgCluster c) 1 false).1
  · split
    · exact calm_trans (told _) (calm_bandRise _ _)
    · generalize (if c % 2 = 0 then c + 1 else c - 1) = other
      split
      · have raised : Calm u (u.raiseAt pgHk ev_HK_SENSOR_FAIL.code 2 true (le 2 c ++ le 2 (ofInt 16 v))) :=
          calm_raise u pgHk ⟨ev_HK_SENSOR_FAIL.code, 2, true⟩ _
        exact calm_trans (calm_trans counted raised) (calm_of rfl rfl rfl rfl rfl)
      · exact told _

/-! ### Where a shutdown may start -/

/-- What acting on a sample leaves in any case: a shutdown that has started stays as it is. -/
structure Acted (s t : State) : Prop where
  chan : t.health.chan = s.health.chan
  roundAt : t.health.roundAt = s.health.roundAt
  shutdown : ∀ d, s.health.shutdown = some d → t.health.shutdown = some d
  gated : s.pins.gated = true → t.pins.gated = true
  reading : ∀ c, c < 512 → t.rd pgHk HK_READ_VALUE c = s.rd pgHk HK_READ_VALUE c
  shown : s.rd pgHk HK_STATUS_SHUTDOWN = 1 → t.rd pgHk HK_STATUS_SHUTDOWN = 1
  tripped : s.rd pgBu BU_PINS_THERM_TRIP = 1 → t.rd pgBu BU_PINS_THERM_TRIP = 1

theorem acted_trans {s t u : State} (h1 : Acted s t) (h2 : Acted t u) : Acted s u :=
  ⟨h2.chan.trans h1.chan, h2.roundAt.trans h1.roundAt, fun d h => h2.shutdown d (h1.shutdown d h), fun h => h2.gated (h1.gated h),
    fun c hc => (h2.reading c hc).trans (h1.reading c hc), fun h => h2.shown (h1.shown h), fun h => h2.tripped (h1.tripped h)⟩

theorem Calm.acted {s t : State} (h : Calm s t) : Acted s t :=
  ⟨h.chan, h.roundAt, fun _ hd => h.shutdown.trans hd, h.gated, fun c hc => h.rd _ _ _ (.reading c hc),
    fun hs => (h.rd _ _ _ .shutdown).trans hs, fun hs => (h.rd _ _ _ .tripped).trans hs⟩

/-- The shutdown path begun, before it is told. -/
def shutting (s : State) (d : Shutdown) : State :=
  let s1 := (s.modHealth fun h => { h with shutdown := some d }).wrs pgHk [(HK_STATUS_SHUTDOWN, 1), (HK_STATUS_CAUSE, d.cause)]
  if d.cause ≤ 2 then s1.wr pgBu BU_PINS_THERM_TRIP 1 else s1

theorem shutting_shows (s : State) (d : Shutdown) : (shutting s d).health = { s.health with shutdown := some d } ∧ (shutting s d).pins = s.pins ∧
    (∀ c, c < 512 → (shutting s d).rd pgHk HK_READ_VALUE c = s.rd pgHk HK_READ_VALUE c) ∧ (shutting s d).rd pgHk HK_STATUS_SHUTDOWN = 1 ∧
    (d.cause ≤ 2 → (shutting s d).rd pgBu BU_PINS_THERM_TRIP = 1) ∧
    (s.rd pgBu BU_PINS_THERM_TRIP = 1 → (shutting s d).rd pgBu BU_PINS_THERM_TRIP = 1) := by
  have hreads : ∀ c, c < 512 → HK_READ_VALUE.inPage c ∧ HK_READ_VALUE.at c ≠ HK_STATUS_SHUTDOWN.at 0 := fun c hc => by
    simp only [Fld.inPage, Fld.at, HK_READ_VALUE, HK_STATUS_SHUTDOWN]
    omega
  obtain ⟨v, hv⟩ : ∃ v, v = (s.modHealth fun h => { h with shutdown := some d }).wr pgHk HK_STATUS_SHUTDOWN 1 := ⟨_, rfl⟩
  obtain ⟨u, hu⟩ : ∃ u, u = v.wr pgHk HK_STATUS_CAUSE d.cause := ⟨_, rfl⟩
  have hcause : Calm v u := by
    rw [hu]
    refine calm_wr v _ fun pg' F' i' hr => ?_
    cases hr with
    | reading _ hc => exact fkey_ne_of_apart _ _ ⟨(hreads _ hc).1, by decide, .inl (hreads _ hc).2⟩
    | shutdown => exact fkey_ne_of_apart _ _ (by decide)
    | tripped => exact fkey_ne_of_page (by decide) (by decide) (by decide)
  have hreading : ∀ c, c < 512 → u.rd pgHk HK_READ_VALUE c = s.rd pgHk HK_READ_VALUE c := fun c hc => by
    rw [hcause.rd _ _ _ (.reading c hc), hv]
    exact rd_wr_apart (F := HK_STATUS_SHUTDOWN) (i := 0) pgHk pgHk _ _ ⟨(hreads c hc).1, by decide, .inl (hreads c hc).2⟩
  have hshown : u.rd pgHk HK_STATUS_SHUTDOWN = 1 := by
    rw [hcause.rd _ _ _ .shutdown, hv]
    exact rd_wr_fits _ pgHk HK_STATUS_SHUTDOWN (v := 1) 0 (by decide)
  have htrip : u.rd pgBu BU_PINS_THERM_TRIP = s.rd pgBu BU_PINS_THERM_TRIP := by
    rw [hcause.rd _ _ _ .tripped, hv]
    exact rd_wr_page (F := HK_STATUS_SHUTDOWN) (i := 0) _ _ (by decide) (by decide) (by decide)
  have hone := rd_wr_fits u pgBu BU_PINS_THERM_TRIP (v := 1) 0 (by decide)
  have heq : shutting s d = if d.cause ≤ 2 then u.wr pgBu BU_PINS_THERM_TRIP 1 else u := by rw [hu, hv]; rfl
  have hkept : u.health = { s.health with shutdown := some d } ∧ u.pins = s.pins := by
    rw [hu, hv]
    exact ⟨rfl, rfl⟩
  rw [heq]
  split
  · refine ⟨hkept.1, hkept.2, fun c hlt => ?_, ?_, fun _ => hone, fun _ => hone⟩
    · exact (rd_wr_page (F := BU_PINS_THERM_TRIP) (i := 0) u 1 (by decide) (hreads c hlt).1 (by decide)).trans (hreading c hlt)
    · exact (rd_wr_page (F := BU_PINS_THERM_TRIP) (i := 0) u 1 (by decide) (by decide) (by decide)).trans hshown
  · next hc => exact ⟨hkept.1, hkept.2, hreading, hshown, fun h => absurd h hc, fun h => htrip.trans h⟩

/-- What a shutdown of this moment records. -/
def State.shutdownOf (s : State) (cause chan : Nat) (rd rt : Int) : Shutdown :=
  { t0 := s.real, cause, channel := chan, reading := rd, rate := rt, stamp := s.time.ticks, running := s.runMask }

theorem startShutdown_none {s : State} (h : s.health.shutdown = none) (cause chan : Nat) (rd rt : Int) :
    ∃ info, s.startShutdown cause chan rd rt = (shutting s (s.shutdownOf cause chan rd rt)).raise pgHk ev_HK_SHUTDOWN info := by
  unfold State.startShutdown
  rw [h]
  exact ⟨_, rfl⟩

theorem acted_startShutdown (s : State) (cause chan : Nat) (rd rt : Int) : Acted s (s.startShutdown cause chan rd rt) := by
  cases h : s.health.shutdown with
  | some d =>
    rw [State.startShutdown, h]
    exact (calm_refl s).acted
  | none =>
    obtain ⟨info, heq⟩ := startShutdown_none h cause chan rd rt
    rw [heq]
    obtain ⟨hhealth, hpins, hread, hshown, -, htrip⟩ := shutting_shows s (s.shutdownOf cause chan rd rt)
    refine acted_trans ⟨by rw [hhealth], by rw [hhealth], fun d hd => ?_, fun hg => by rw [hpins, hg], hread, fun _ => hshown, htrip⟩ (calm_raise _ _ _ _).acted
    rw [h] at hd
    exact absurd hd (by simp)

/-- A shutdown that starts for a temperature holds the device. -/
theorem startShutdown_hot {s : State} (h : s.health.shutdown = none) (chan : Nat) (rd rt : Int) :
    (∃ d, (s.startShutdown 1 chan rd rt).health.shutdown = some d ∧ d.cause = 1 ∧ d.channel = chan ∧ d.reading = rd ∧ d.t0 = s.real) ∧
    (s.startShutdown 1 chan rd rt).rd pgHk HK_STATUS_SHUTDOWN = 1 ∧ (s.startShutdown 1 chan rd rt).rd pgBu BU_PINS_THERM_TRIP = 1 ∧
    (s.startShutdown 1 chan rd rt).pins.gated = true := by
  obtain ⟨info, heq⟩ := startShutdown_none h 1 chan rd rt
  rw [heq]
  obtain ⟨hhealth, hpins, hread, hshown, htrip, -⟩ := shutting_shows s (s.shutdownOf 1 chan rd rt)
  generalize shutting s _ = u at hhealth hpins hread hshown htrip
  have hcalm := calm_raise u pgHk ev_HK_SHUTDOWN info
  refine ⟨⟨_, hcalm.shutdown.trans (by rw [hhealth]), rfl, rfl, rfl, rfl⟩, (hcalm.rd _ _ _ .shutdown).trans hshown, (hcalm.rd _ _ _ .tripped).trans (htrip (show 1 ≤ 2 from by decide)),
    (gated_raise u pgHk ev_HK_SHUTDOWN info).2 rfl⟩

theorem calm_overHold (s : State) (hot : Prop) [Decidable hot] (p kind chan val : Nat) : Calm s (if hot then s.protHold p kind chan val else s) := by
  split
  · exact calm_protHold s p kind chan val
  · exact calm_refl s

theorem acted_ifShutdown (s : State) (hot : Prop) [Decidable hot] (cause chan : Nat) (rd rt : Int) :
    Acted s (if hot then s.startShutdown cause chan rd rt else s) := by
  split
  · exact acted_startShutdown s cause chan rd rt
  · exact (calm_refl s).acted

theorem acted_rateActs (s : State) (c : Nat) (v d : Int) : Acted s (s.rateActs c v d) := by
  unfold State.rateActs
  dsimp only
  exact acted_trans (acted_trans (calm_modHealth s _ ⟨rfl, rfl, rfl⟩).acted (calm_overHold _ _ _ _ _ _).acted) (acted_ifShutdown _ _ _ _ _ _)

theorem acted_absActs (s : State) (c : Nat) (v d : Int) : Acted s (s.absActs c v d) := by
  unfold State.absActs
  dsimp only
  exact acted_trans (calm_overHold _ _ _ _ _ _).acted (acted_ifShutdown _ _ _ _ _ _)

/-- A reading above the limit of shutdown starts it. -/
theorem absActs_hot {s : State} {c : Nat} {v : Int} (d : Int) (hnone : s.health.shutdown = none) (hhot : ((s.tempLimits c).2.2 : Int) * 64 < v) :
    (∃ x, (s.absActs c v d).health.shutdown = some x ∧ x.cause = 1 ∧ x.channel = c ∧ x.reading = v ∧ x.t0 = s.real) ∧
    (s.absActs c v d).rd pgHk HK_STATUS_SHUTDOWN = 1 ∧ (s.absActs c v d).rd pgBu BU_PINS_THERM_TRIP = 1 ∧ (s.absActs c v d).pins.gated = true := by
  unfold State.absActs
  dsimp only
  rw [if_pos hhot]
  have hcalm := calm_overHold s ((s.tempLimits c).2.1 * 64 < v) (s.partOfRiser (chanRiser c)) 1 c (ofInt 32 v)
  rw [← hcalm.real]
  exact startShutdown_hot (hcalm.shutdown.trans hnone) c v (rateOf d)

/-! ### The clauses of O41 -/

theorem acted_sampleTemp (s : State) (c : Nat) (v : Int) (bad : Bool) (hc : c < 160) : Acted s (s.sampleTemp c v bad) := by
  have hrate : offRound pgHk HK_RATE_RATE c :=
    offRound_hk (by simp only [Fld.inPage, Fld.at, HK_RATE_RATE]; omega) (.inr (by simp only [Fld.at, HK_RATE_RATE]; omega))
  unfold State.sampleTemp
  split
  · exact (calm_refl s).acted
  · split
    · exact (calm_sensorFail s c v).acted
    · dsimp only
      have risen : ∀ u, Calm s u → Calm s (if 80 ≤ c ∧ c < 144 then u.bandRise (chanRiser c) else u) := fun u hu => by
        split
        · exact calm_trans hu (calm_bandRise u _)
        · exact hu
      have rated := fun f hf n => risen _ (calm_trans (calm_modHealth s f hf) (calm_wr _ n hrate))
      split
      · exact (rated _ ⟨rfl, rfl, rfl⟩ _).acted
      · exact acted_trans (calm_trans (rated _ ⟨rfl, rfl, rfl⟩ _) (calm_trans (calm_tempNotice _ _ _) (calm_riseNotice _ _ _ _))).acted
          (acted_trans (acted_absActs _ _ _ _) (acted_rateActs _ _ _ _))

theorem acted_sampleDomain (s : State) (c : Nat) (v : Int) : Acted s (s.sampleDomain c v) := by
  refine Calm.acted ?_
  unfold State.sampleDomain State.noteDelay
  dsimp only
  split
  · exact calm_modHealth s _ ⟨rfl, rfl, rfl⟩
  · split
    · exact calm_trans (calm_modHealth s _ ⟨rfl, rfl, rfl⟩) (calm_modHealth _ _ ⟨rfl, rfl, rfl⟩)
    · exact calm_modHealth s _ ⟨rfl, rfl, rfl⟩

theorem acted_sampleVin (s : State) (c : Nat) (v : Int) : Acted s (s.sampleVin c v) := by
  have shown : ∀ (F : Fld) (n : Nat) (f : Health → Health), F.inPage 0 → 0x044 ≤ F.at 0 ∧ F.at 0 < 0x400 → ((f s.health).chan = s.health.chan ∧
      (f s.health).roundAt = s.health.roundAt ∧ (f s.health).shutdown = s.health.shutdown) → Acted s ((s.wr pgHk F n).modHealth f) :=
    fun F n f hin hat hf => (calm_trans (calm_wr s n (offRound_hk hin (.inl hat))) (calm_modHealth _ f hf)).acted
  unfold State.sampleVin
  split
  · exact acted_trans (shown PD_VIN_MV _ _ (by decide) (by decide) ⟨rfl, rfl, rfl⟩) (acted_ifShutdown _ _ _ _ _ _)
  · exact acted_trans (shown PD_VIN_DA _ _ (by decide) (by decide) ⟨rfl, rfl, rfl⟩) (acted_ifShutdown _ _ _ _ _ _)

theorem acted_sampleSupply (s : State) (c : Nat) (v : Int) : Acted s (s.sampleSupply c v) := by
  refine Calm.acted ?_
  unfold State.sampleSupply
  split
  · exact calm_wr s _ (offRound_hk (by decide) (by decide))
  · exact calm_wr s _ (offRound_hk (by decide) (by decide))
  · exact calm_wr s _ (offRound_hk (by decide) (by decide))
  · exact calm_wr s _ (offRound_hk (by decide) (by decide))
  · exact calm_wr s _ (offRound_sprue (by decide))
  · exact calm_refl s

/-- A sample taken, before it is acted on. -/
def published (s : State) (c : Nat) (v : Int) : State :=
  (s.wr pgHk HK_READ_VALUE (if 480 ≤ c then 0 else ofInt 16 v) c).modHealth fun h => { h with chan := c + 1 }

theorem sample_acts (s : State) {c : Nat} (v : Int) (o : HkObs) (hc : c < 511) : Acted (published s c v) (s.sample c v o) := by
  unfold State.sample
  dsimp only
  rw [if_neg (by omega : ¬c = 511)]
  split
  · next h => exact acted_sampleTemp (published s c v) c v o.fault h
  · split
    · exact acted_sampleDomain (published s c v) c v
    · split
      · exact acted_sampleVin (published s c v) c v
      · exact acted_sampleSupply (published s c v) c v

theorem exec_hkSample {s : State} (v : Int) (o : HkObs) (hon : s.health.roundOn = true) (hclk : s.pins.refclk = true)
    (hdue : s.health.roundAt + 5000 * s.health.chan ≤ s.real) :
    exec (.hkSample v o) s = finish (evented ++ [.health]) s (s.sample s.health.chan v o) := by
  rw [show exec (.hkSample v o) s = execHkSample v o s from rfl, execHkSample, hon, hclk, decide_eq_true hdue]
  rfl

theorem leads_hkSample {s : State} (v : Int) (o : HkObs) (hon : s.health.roundOn = true) (hclk : s.pins.refclk = true)
    (hdue : s.health.roundAt + 5000 * s.health.chan ≤ s.real) (hc : s.health.chan < 511) :
    Leads (.hkSample v o) s fun t => t.health.chan = s.health.chan + 1 ∧ t.health.roundAt = s.health.roundAt ∧
      t.rd pgHk HK_READ_VALUE s.health.chan = if 480 ≤ s.health.chan then 0 else ofInt 16 v := by
  have hacts := sample_acts s v o hc
  refine ⟨_, exec_hkSample v o hon hclk hdue, hacts.chan, hacts.roundAt, ?_⟩
  refine (hacts.reading _ (by omega)).trans (rd_wr_fits s pgHk HK_READ_VALUE s.health.chan ?_)
  split
  · decide
  · have hpos := Int.emod_nonneg v (show (2 ^ 16 : Int) ≠ 0 by decide)
    have hlt := Int.emod_lt_of_pos v (show (0 : Int) < 2 ^ 16 by decide)
    change (v % 2 ^ 16).toNat < 2 ^ 16
    omega

theorem leads_hkSample_waits {s : State} (v : Int) (o : HkObs)
    (h : s.health.roundOn = false ∨ s.pins.refclk = false ∨ s.real < s.health.roundAt + 5000 * s.health.chan) :
    Leads (.hkSample v o) s fun t => s.sameBut [] t := by
  refine ⟨_, show exec (.hkSample v o) s = finish (evented ++ [.health]) s s from ?_, sameBut_only_of (sameBut_refl _ s)⟩
  rw [show exec (.hkSample v o) s = execHkSample v o s from rfl, execHkSample, if_neg]
  rcases h with h | h | h
  · simp [h]
  · simp [h]
  · simp [Nat.not_le.mpr h]

theorem leads_hkSample_hot {s : State} (v : Int) (o : HkObs) (hfault : o.fault = false) (hon : s.health.roundOn = true) (hclk : s.pins.refclk = true)
    (hdue : s.health.roundAt + 5000 * s.health.chan ≤ s.real) (hc : s.health.chan < 160) (hgood : s.health.chan ∉ s.health.failed)
    (hboot : 3 ≤ s.boot.next) (hnone : s.health.shutdown = none) (hhot : ((s.tempLimits s.health.chan).2.2 : Int) * 64 < v) (hmax : v ≤ 150 * 64) :
    Leads (.hkSample v o) s fun t =>
      (∃ d, t.health.shutdown = some d ∧ d.cause = 1 ∧ d.channel = s.health.chan ∧ d.reading = v ∧ d.t0 = s.real) ∧
      t.rd pgHk HK_STATUS_SHUTDOWN = 1 ∧ t.rd pgBu BU_PINS_THERM_TRIP = 1 ∧ t.pins.gated = true := by
  obtain ⟨c, hcc⟩ : ∃ c, c = s.health.chan := ⟨_, rfl⟩
  rw [← hcc] at hc hgood hhot ⊢
  have hlim : ∀ u : State, (u.tempLimits c).2.2 = (s.tempLimits c).2.2 := fun u => by
    unfold State.tempLimits
    split <;> rfl
  have hlow : (100 : Int) ≤ (s.tempLimits c).2.2 := by
    unfold State.tempLimits
    split <;> norm_num
  have hexec := exec_hkSample v o hon hclk hdue
  rw [← hcc] at hexec
  suffices h : (∃ d, (s.sample c v o).health.shutdown = some d ∧ d.cause = 1 ∧ d.channel = c ∧ d.reading = v ∧ d.t0 = s.real) ∧
      (s.sample c v o).rd pgHk HK_STATUS_SHUTDOWN = 1 ∧ (s.sample c v o).rd pgBu BU_PINS_THERM_TRIP = 1 ∧ (s.sample c v o).pins.gated = true from
    ⟨_, hexec, h⟩
  obtain ⟨p, hp⟩ : ∃ p, p = published s c v := ⟨_, rfl⟩
  have hsample : s.sample c v o = p.sampleTemp c v false := by
    unfold State.sample
    dsimp only
    rw [if_neg (by omega : ¬c = 511), if_pos hc, hp, hfault]
    rfl
  have hfailed : p.health.failed.contains c = false := by
    rw [hp]
    exact (Bool.eq_false_iff).mpr fun h => hgood (List.contains_iff_mem.mp h)
  have hrate : offRound pgHk HK_RATE_RATE c :=
    offRound_hk (by simp only [Fld.inPage, Fld.at, HK_RATE_RATE]; omega) (.inr (by simp only [Fld.at, HK_RATE_RATE]; omega))
  have hin : (false || decide (v < -40 * 64) || decide (150 * 64 < v)) = false := by
    simp only [Bool.false_or, Bool.or_eq_false_iff, decide_eq_false_iff_not]
    omega
  obtain ⟨q, d, hcalm, heq⟩ : ∃ q d, Calm p q ∧ p.sampleTemp c v false = (q.absActs c v d).rateActs c v d := by
    unfold State.sampleTemp
    rw [if_neg (by rw [hfailed]; exact Bool.false_ne_true), hin]
    dsimp only
    rw [if_neg Bool.false_ne_true, if_neg (by rw [hp]; exact Nat.not_le.mpr hboot)]
    refine ⟨_, _, ?_, rfl⟩
    refine calm_trans ?_ (calm_trans (calm_tempNotice _ _ _) (calm_riseNotice _ _ _ _))
    split
    · exact calm_trans (calm_trans (calm_modHealth p _ ⟨rfl, rfl, rfl⟩) (calm_wr _ _ hrate)) (calm_bandRise _ _)
    · exact calm_trans (calm_modHealth p _ ⟨rfl, rfl, rfl⟩) (calm_wr _ _ hrate)
  obtain ⟨⟨x, hx, hcause, hchan, hread, ht0⟩, hshown, htrip, hgated⟩ := absActs_hot (s := q) (c := c) d (hcalm.shutdown.trans (by rw [hp]; exact hnone)) (by rw [hlim]; exact hhot)
  have hacted := acted_rateActs (q.absActs c v d) c v d
  rw [hsample, heq]
  refine ⟨⟨x, hacted.shutdown x hx, hcause, hchan, hread, ?_⟩, hacted.shown hshown, hacted.tripped htrip, hacted.gated hgated⟩
  rw [ht0, hcalm.real, hp]
  rfl

theorem leads_shutdownRecordWrite_good {s : State} {d : Shutdown} {i : Nat} (hshut : s.health.shutdown = some d) (hrec : d.recorded = false) (hoff : d.off = false)
    (hfree : s.ledger.freeSlot = some i) :
    Leads (.shutdownRecordWrite true) s fun t =>
      t.ledger.shut = ains i (s.shutRecord d) s.ledger.shut ∧ t.health.shutdown = some { d with recorded := true } := by
  refine ⟨_, show exec (.shutdownRecordWrite true) s = finish (evented ++ [.ledger, .health]) s
    ((s.modLedger fun l => { l with shut := ains i (s.shutRecord d) l.shut }).modHealth fun h => { h with shutdown := some { d with recorded := true } }) from ?_, rfl, rfl⟩
  rw [show exec (.shutdownRecordWrite true) s = execShutdownRecordWrite true s from rfl, execShutdownRecordWrite, hshut, hfree]
  simp only [hrec, hoff, Bool.or_self, Bool.false_eq_true, if_false, if_true]

theorem self_mem_ains {α : Type} (k : Nat) (v : α) (m : List (Nat × α)) : (k, v) ∈ ains k v m := by
  induction m with
  | nil => exact List.mem_cons_self
  | cons e m ih =>
    unfold ains
    split
    · exact List.mem_cons_self
    · split
      · exact List.mem_cons_self
      · exact List.mem_cons_of_mem _ ih

theorem leads_shutdownRecordWrite_torn {s : State} {d : Shutdown} {i : Nat} (hshut : s.health.shutdown = some d) (hrec : d.recorded = false) (hoff : d.off = false)
    (hfree : s.ledger.freeSlot = some i) :
    Leads (.shutdownRecordWrite false) s fun t =>
      t.health.shutdown = some d ∧ t.ledger.freeSlot ≠ some i ∧ t.rd pgEv LG_STATUS_WRITE_FAIL = 1 := by
  obtain ⟨u, hu⟩ : ∃ u, u = s.modLedger fun l => { l with shut := ains i (List.replicate 64 0) l.shut } := ⟨_, rfl⟩
  have hexec : exec (.shutdownRecordWrite false) s = finish (evented ++ [.ledger, .health]) s (u.writeFail (0x100E000 + 64 * i) 0) := by
    rw [show exec (.shutdownRecordWrite false) s = execShutdownRecordWrite false s from rfl, execShutdownRecordWrite, hshut, hfree, hu]
    simp only [hrec, hoff, Bool.or_self, Bool.false_eq_true, if_false]
  have hledger : (u.writeFail (0x100E000 + 64 * i) 0).ledger = u.ledger := raise_same u _ _ _ .ledger (by decide)
  have hhealth : (u.writeFail (0x100E000 + 64 * i) 0).health = u.health := raise_same u _ _ _ .health (by decide)
  refine ⟨_, hexec, ?_, ?_, rd_writeFail u _ _⟩
  · refine (congrArg Health.shutdown hhealth).trans ?_
    rw [hu]
    exact hshut
  · change (u.writeFail (0x100E000 + 64 * i) 0).ledger.freeSlot ≠ some i
    rw [hledger, hu]
    intro h
    have hnot := List.find?_some h
    rw [show ((s.modLedger fun l => { l with shut := ains i (List.replicate 64 0) l.shut }).ledger.shut.any fun e => decide (e.1 = i)) = true from ?_] at hnot
    · exact absurd hnot (by decide)
    · exact List.any_eq_true.mpr ⟨(i, List.replicate 64 0), (self_mem_ains i (List.replicate 64 0) s.ledger.shut), decide_eq_true rfl⟩

theorem leads_pwrOffReq {s : State} {d : Shutdown} (hshut : s.health.shutdown = some d) (hoff : d.off = false) (hdue : 250 * usTicks ≤ s.real - d.t0) :
    Leads .pwrOffReq s fun t => t.rd pgBu BU_PINS_PWR_OFF_REQ = 1 ∧ t.health.shutdown = some { d with off := true } ∧ s.sameBut [.regs, .health] t := by
  refine ⟨_, show exec .pwrOffReq s = finish [.regs, .health] s
    ((s.wr pgBu BU_PINS_PWR_OFF_REQ 1).modHealth fun h => { h with shutdown := some { d with off := true } }) from ?_,
    rd_wr_fits s pgBu BU_PINS_PWR_OFF_REQ (v := 1) 0 (by decide), rfl, sameBut_only [.regs, .health] s _⟩
  rw [show exec .pwrOffReq s = execPwrOffReq s from rfl, execPwrOffReq, hshut]
  simp only [hdue, hoff, and_self, if_true]

/-- Settles O41: a sample is published before it is acted on; what acting on it leaves is `Acted`; a reading above the limit begins the shutdown, whose
event of Lampblack gates the ports. -/
theorem samplesAndShutdowns : Obligations.SamplesAndShutdowns := by
  unfold Obligations.SamplesAndShutdowns
  exact ⟨fun _ => leads_hkSample, fun _ => leads_hkSample_waits, fun _ => leads_hkSample_hot, fun _ _ _ => leads_shutdownRecordWrite_good,
    fun _ _ _ => leads_shutdownRecordWrite_torn, fun _ _ => leads_pwrOffReq⟩

end Sys2Proof.Machine
end

section
/-!
Refutations: DECODER commits (O58), register accesses (O59) and configuration writes (O60). Each statement takes in a state, or a page, for
which the model does otherwise.
-/

namespace Sys2Proof.Machine

open Sys2Proof

/-! ### A decoder whose register holds more than its field -/

/-- A device past start-up, with a decoder of CXL port 0 whose stored WAYS is wider than the field: it reads as IG. -/
def wideWays : State := { boot := { next := 12 }, regs := [(fkey (pgCxl 0) CX_DEC_CTRL_WAYS 0, 4)] }

/-- The COMMIT is asked for the decoder as the write leaves it. -/
theorem wideWays_asks {t : State} (h : exec (.commit .sprue 0 0) wideWays = .next t) :
    ((t.cx 0).asked.head?.map fun e => e.2.2.ways) = some 0 := by
  change finishD (accessed ++ [.descs]) wideWays (wideWays.putField .sprue (pgCxl 0) CX_DEC_CTRL_COMMIT 1 0) = .next t at h
  injection h with h
  rw [← h]
  decide +kernel

/-- Refutes O58: a stored WAYS of 4 reads as IG 1 (the words of a register are sums), so that the write which asks for the COMMIT changes the
decoder, and the decoder asked for is not the one before the write. -/
theorem not_expandersAndDecoders : ¬ Obligations.ExpandersAndDecoders := by
  unfold Obligations.ExpandersAndDecoders
  intro h
  obtain ⟨-, -, -, -, hcommit, -⟩ := h
  obtain ⟨t, hexec, -, hasked⟩ := hcommit wideWays .sprue 0 0 (by unfold State.takesField State.takes; decide +kernel)
  obtain ⟨-, -, hhead⟩ := hasked (by decide +kernel)
  have hways : ((t.cx 0).asked.head?.map fun e => e.2.2.ways) = some 4 := by rw [show (t.cx 0).asked.head? = _ from hhead]; decide
  exact absurd (hways.symm.trans (wideWays_asks hexec)) (by decide)

/-! ### ENABLE of a page that is not FENCEABLE -/

/-- A device past start-up. -/
def started : State := { boot := { next := 12 } }

theorem started_stays_enabled {t : State} (h : exec (.enable .sprue pgHk) started = .next t) : t.on pgHk PAGE_CTRL_ENABLE = true := by
  change finishD (accessed ++ [.descs]) started (started.putField .sprue pgHk PAGE_CTRL_ENABLE 0) = .next t at h
  injection h with h
  rw [← h]
  decide +kernel

/-- Refutes O59: on a page that is not FENCEABLE, ENABLE is read-only (R619): the write is taken and changes nothing. -/
theorem not_registerAccessesAct : ¬ Obligations.RegisterAccessesAct := by
  unfold Obligations.RegisterAccessesAct
  intro h
  obtain ⟨-, -, -, -, -, -, -, henable⟩ := h
  obtain ⟨t, hexec, hoff, -⟩ := henable started .sprue pgHk (by unfold State.takesField State.takes; decide +kernel)
  exact absurd ((started_stays_enabled hexec).symm.trans hoff) (by decide)

/-! ### A copy that is asked for again in the cycle in which it completes -/

/-- The copy of partition 0 is under way, and NW_HRT_COPY was written for it in this cycle. -/
def copyAskedAgain : State := { hall := { copies := [(0, 3)] }, hot := [(fkey pgHall NW_HRT_COPY_PARTS 0, 0, 1)] }

theorem copyAskedAgain_copies {t : State} (h : exec (.routeCopyDone 0) copyAskedAgain = .next t) : ∃ e ∈ t.hall.copies, e.1 = 0 := by
  change finish [.hall] copyAskedAgain _ = .next t at h
  injection h with h
  rw [← h]
  decide

/-- Refutes O60: a bit of NW_HRT_COPY that was set in the cycle in which the copy completes stays set (R13), and the copy is asked for again. -/
theorem not_configurationWritesAct : ¬ Obligations.ConfigurationWritesAct := by
  unfold Obligations.ConfigurationWritesAct
  intro h
  obtain ⟨-, -, -, -, -, -, -, -, -, -, -, -, -, -, -, -, -, hdone, -⟩ := h
  obtain ⟨t, hexec, -, hgone, -⟩ := hdone copyAskedAgain 0 (by decide)
  obtain ⟨e, he, hpart⟩ := copyAskedAgain_copies hexec
  exact hgone e he hpart

end Sys2Proof.Machine
end

section
/-!
Tile operations (05_tile_programs.md): a core fenced in the step in which its TMM issues loses it, which O53 denies.
-/

namespace Sys2Proof.Machine

open Sys2Proof

/-- A tile program of one TMM (M, N and K of 1), stamped slot 9 of relative epoch 0: its activations lie at 0x100 of cluster 0. -/
def oneTmm : Section :=
  { ty := 1, riser := 0, unit := 0, body := le 2 1 ++ le 2 1 ++ le 2 1 ++ le 2 0 ++ le 4 64 ++ le 4 80 ++ le 4 96 ++ le 4 160 ++
      List.replicate 40 0 ++ le 16 (3 + 9 * 2 ^ 17 + 2 ^ 84) ++ le 16 0 ++
      (le 8 0xFFFF010100000100 ++ [1, 0, 0, 1, 0, 0, 1, 0, 0, 1, 0, 0] ++ List.replicate 36 0 ++ le 8 (2 ^ 24)) }

/-- The first cycle of slot 9 of epoch 7. -/
def cycleNine : Nat := (7 * 4096 + 9) * 256

/-- Core 0 comes to that TMM in the cycle in which the cluster's mover has the bank of its activations, and its page's queue is full. -/
def tmmConflict : State :=
  { ({} : State).setQueue (pgMatrix 0) (List.replicate 16 { stamp := 0, source := 0, code := 0, sev := 0 }) with
    boot := { next := 12 }
    time := { running := true, state := .locked, ticks := cycleNine, slots := 7 * 4096 + 9, epochs := 7 }
    parts := [(0, { run := .running, base := 7, slot0 := { st := .loaded, sections := [oneTmm] } })]
    banks := { ports := [(4, { free := cycleNine + 1, at_ := cycleNine, page := pgClMover 0 })] } }

theorem tmmConflict_drops {t : State} (h : exec (.tmm 0 []) tmmConflict = .next t) : (t.mx 0).run = none := by
  change finish (tiled ++ [.banks]) tmmConflict _ = .next t at h
  injection h with h
  rw [← h]
  decide +kernel

/-- Refutes O53: the slip of the fill's first cycle comes upon a full queue, whose last event becomes of Madder, and the core is fenced
(R604, R602): the TMM that has just issued is gone. -/
theorem not_tileOperationsRun : ¬ Obligations.TileOperationsRun := by
  unfold Obligations.TileOperationsRun
  intro h
  obtain ⟨htmm, -⟩ := h
  obtain ⟨t, hexec, -, ⟨r, hrun, -⟩, -⟩ := htmm tmmConflict 0 (by decide)
    (by unfold State.tileIssues Issue.settled; decide +kernel) (by decide +kernel)
  exact absurd (hrun.symm.trans (tmmConflict_drops hexec)) (by simp)

end Sys2Proof.Machine
end

section
/-!
Mover instructions (07_networks.md): a mover fenced in the step in which its MXFER issues loses the transfer, which O54 denies.
-/

namespace Sys2Proof.Machine

open Sys2Proof

/-- A mover program of one MXFER of an element at 0x100 of cluster 0, which goes nowhere (destination 2), stamped slot 9 of relative epoch 0. -/
def oneMxfer : Section :=
  { ty := 2, riser := 0, unit := 0, body := le 2 1 ++ le 2 1 ++ le 4 64 ++ le 4 80 ++ List.replicate 52 0 ++
      le 16 (1 + 9 * 2 ^ 17 + 2 * 2 ^ 52) ++
      (le 8 0xFFFF010100000100 ++ [1, 0, 0, 1, 0, 0, 1, 0, 0, 1, 0, 0] ++ List.replicate 36 0 ++ le 8 (2 ^ 24)) }

/-- The cluster's mover comes to that MXFER in a cycle in which a port of the cluster's page still has the bank of its source, and that page's
queue is full. -/
def mxferConflict : State :=
  { ({} : State).setQueue (pgCluster 0) (List.replicate 16 { stamp := 0, source := 0, code := 0, sev := 0 }) with
    boot := { next := 12 }
    time := { running := true, state := .locked, ticks := cycleNine, slots := 7 * 4096 + 9, epochs := 7 }
    parts := [(0, { run := .running, base := 7, slot0 := { st := .loaded, sections := [oneMxfer] } })]
    banks := { ports := [(4, { free := cycleNine + 1, at_ := cycleNine - 1, page := pgCluster 0 })] } }

theorem mxferConflict_drops {t : State} (h : exec (.mxfer ⟨0, []⟩) mxferConflict = .next t) : (t.mover 0).xfer = none := by
  rw [show exec (.mxfer ⟨0, []⟩) mxferConflict = execMxfer ⟨0, []⟩ mxferConflict from rfl, execMxfer, finishD, finish] at h
  injection h with h
  rw [← h]
  decide +kernel

/-- Refutes O54: the slip of the port that loses the bank comes upon a full queue, whose last event becomes of Madder, and the cluster is
fenced with its mover (R604, R602): the MXFER that has just issued is gone. -/
theorem not_moverInstructionsRun : ¬ Obligations.MoverInstructionsRun := by
  unfold Obligations.MoverInstructionsRun
  intro h
  obtain ⟨-, -, -, -, -, -, hxfer, -⟩ := h
  obtain ⟨t, hexec, -, x, hx, -⟩ := hxfer mxferConflict 0 (by unfold State.moverIssues Issue.settled; decide +kernel) (by decide +kernel)
    (by decide +kernel) (by decide +kernel) (by decide +kernel) (by decide)
  exact absurd (hx.symm.trans (mxferConflict_drops hexec)) (by simp)

end Sys2Proof.Machine
end

section
/-!
General cores and cluster memories (06_clusters.md): a window with RESTART that begins upon a vector access (O55), and a parity error in a
sector that the same cycle has written (O57).
-/

namespace Sys2Proof.Machine

open Sys2Proof

/-! ### A window that begins in the middle of a vector access -/

/-- A general core's program of one window with RESTART, slots 5 to 20 of relative epoch 0, its text at 80. -/
def oneWindow : Section :=
  { ty := 5, riser := 0, unit := 0, body := le 2 1 ++ le 2 0 ++ le 4 64 ++ le 4 80 ++ le 4 64 ++ List.replicate 48 0 ++
      le 16 (2 ^ 60 + 5 * 2 ^ 20 + 20 * 2 ^ 40) ++ List.replicate 64 0 }

/-- The window has come, and core 0 is in the middle of a vector access at instruction 8. -/
def midAccess : State :=
  { boot := { next := 12 }
    time := { running := true, state := .locked, ticks := cycleNine, slots := 7 * 4096 + 9, epochs := 7 }
    parts := [(0, { run := .running, base := 7, slot0 := { st := .loaded, sections := [oneWindow] } })]
    gcores := [(0, { pc := 8, mid := true })] }

theorem midAccess_stays {t : State} (h : exec (.windowStart 0) midAccess = .next t) : (t.gc 0).pc = 8 := by
  rw [show exec (.windowStart 0) midAccess = execWindowStart 0 midAccess from rfl, execWindowStart, finish] at h
  injection h with h
  rw [← h]
  decide +kernel

/-- Refutes O55: a vector load or store in progress is completed before the program goes to the window's entry (R221); the window begins with
the program counter where it stood. -/
theorem not_coreWindowsAndWaits : ¬ Obligations.CoreWindowsAndWaits := by
  unfold Obligations.CoreWindowsAndWaits
  intro h
  obtain ⟨hstart, -⟩ := h
  obtain ⟨t, hexec, -, -, hpc, -⟩ := hstart midAccess 0 (by decide +kernel) (by decide) (by decide +kernel) (by decide +kernel) (by decide)
  have hentry : (t.gc 0).pc = 0 := hpc.trans (by decide +kernel)
  exact absurd (hentry.symm.trans (midAccess_stays hexec)) (by decide)

/-! ### A parity error in a sector that this cycle has written -/

/-- The sector at 0x80 of cluster 0 was written in this cycle: what it held before is kept for the cycle's reads (R201). -/
def writtenNow : State := { banks := { at_ := 0, old := [(clusterBase 0 + 128, List.replicate 64 0, false)] } }

/-- Core 0 of the device reads a word of that sector, which fails parity. -/
def badRead : MemAccess := { who := pgMatrix 0, off := 128, parity := [0] }

theorem writtenNow_stays_clean {t : State} (h : exec (.clusterMemoryAccess 0 badRead) writtenNow = .next t) :
    t.poisoned (clusterBase 0 + 128) = false := by
  rw [show exec (.clusterMemoryAccess 0 badRead) writtenNow = execClusterMemoryAccess 0 badRead writtenNow from rfl, execClusterMemoryAccess,
    finishD, finish] at h
  injection h with h
  rw [← h]
  decide +kernel

/-- Refutes O57: what fails is what the sector held before the cycle's write (log entry 128); what the write put there is not poisoned. -/
theorem not_cachesAndChecksWork : ¬ Obligations.CachesAndChecksWork := by
  unfold Obligations.CachesAndChecksWork
  intro h
  obtain ⟨-, -, hparity, -⟩ := h
  obtain ⟨t, hexec, hpoison, -⟩ := hparity writtenNow 0 badRead 0 rfl (by unfold State.bankFree; decide +kernel) (.inl (by decide)) rfl
    (by decide)
  exact absurd ((writtenNow_stays_clean hexec).symm.trans hpoison) (by decide)

end Sys2Proof.Machine
end

section
/-!
Rules of a Runner port's state (10_runner_lanes.md): what operations on its lanes leave of its page and of the port, and what
training begins with.
-/

namespace Sys2Proof.Machine

open Sys2Proof

/-! ### The pages of a port -/

theorem lanePage_ne_pgRunner {q : Nat} (hq : q < 24) (q' l : Nat) : pgRunner q ≠ lanePage q' l := by
  simp only [pgRunner, lanePage, pgLane, pageId]
  omega

theorem pgMordant_ne_pgRunner {q : Nat} (hq : q < 24) : pgRunner q ≠ pgMordant := by
  simp only [pgRunner, pgMordant, pageId]
  omega

/-- A field of the port's page stays where lanes alone are written. -/
theorem rd_lanes {q : Nat} (f : State → Nat → State) (ls : List Nat) {F : Fld} {i : Nat}
    (hf : ∀ (s : State) l, (f s l).rd (pgRunner q) F i = s.rd (pgRunner q) F i) (s : State) :
    (ls.foldl f s).rd (pgRunner q) F i = s.rd (pgRunner q) F i :=
  rd_foldl_same f _ F i ls (fun s b _ => hf s b) s

/-- A write of lane fields leaves the port's page. -/
theorem rd_lane_wrs {q : Nat} (hq : q < 24) (s : State) (q' l : Nat) (w : List (Fld × Nat)) {F : Fld} {i : Nat} (hF : F.inPage i)
    (hw : ∀ e ∈ w, e.1.inPage i) : (s.wrs (lanePage q' l) w i).rd (pgRunner q) F i = s.rd (pgRunner q) F i :=
  rd_wrs_page s w (lanePage_ne_pgRunner hq q' l) hF hw

theorem rd_lane_wr {q : Nat} (hq : q < 24) (s : State) (q' l : Nat) {G : Fld} (v : Nat) {F : Fld} (hF : F.inPage 0) (hG : G.inPage 0) :
    (s.wr (lanePage q' l) G v).rd (pgRunner q) F = s.rd (pgRunner q) F :=
  rd_wr_page s v (lanePage_ne_pgRunner hq q' l) hF hG

/-- No event writes a field past the page header that starts neither a port's state nor the count of lost events. -/
theorem quietFld_of_place {pg : Nat} {F : Fld} {i : Nat} (hin : F.inPage i) (h44 : 44 ≤ F.at i) (hstate : F.at i ≠ 0x040 ∨ F.lo ≠ 0)
    (hlost : F.at i ≠ 0x058 ∨ F.lo ≠ 0) : quietFld pg F i :=
  ⟨h44, hin, hstate.imp_right .inl, hlost.imp_right .inl⟩

theorem runner_wr (s : State) (pg : Nat) (F : Fld) (v i : Nat) : (s.wr pg F v i).runner = s.runner := rfl

theorem runner_wrs (s : State) (pg : Nat) (l : List (Fld × Nat)) (i : Nat) : (s.wrs pg l i).runner = s.runner :=
  sameBut_wrs s pg l i .runner (by decide)

theorem port_of_runner {s t : State} (h : t.runner = s.runner) (q : Nat) : t.port q = s.port q := by rw [State.port, h]; rfl

theorem port_of_sameBut {l : List Comp} {s t : State} (h : s.sameBut l t) (hl : .runner ∉ l) (q : Nat) : t.port q = s.port q :=
  port_of_runner (h .runner hl) q

theorem runner_foldl {β : Type} (f : State → β → State) (hf : ∀ s b, (f s b).runner = s.runner) (l : List β) (s : State) :
    (l.foldl f s).runner = s.runner := by
  induction l generalizing s with
  | nil => rfl
  | cons b l ih => exact (ih _).trans (hf s b)

theorem port_free (s : State) (n q : Nat) : State.port { s with free := n } q = s.port q := rfl

theorem rd_modPort (s : State) (q : Nat) (f : RPort → RPort) (pg : Nat) (F : Fld) (i : Nat) : (s.modPort q f).rd pg F i = s.rd pg F i := rfl

/-- An event leaves the Runner ports. -/
theorem port_raise (s : State) (pg : Nat) (k : EvKind) (info : Bytes) (q : Nat) : (s.raise pg k info).port q = s.port q :=
  port_of_runner ((raise_eventOnly s pg k info).1 .runner (by decide)) q

theorem regs_sendSets (s : State) (q : Nat) (ls : List Nat) (ty target width flags : Nat) : (s.sendSets q ls ty target width flags).regs = s.regs := rfl

theorem port_sendSets (s : State) (q : Nat) (ls : List Nat) (ty target width flags : Nat) :
    (s.sendSets q ls ty target width flags).port q = { s.port q with rts := ((s.sendSets q ls ty target width flags).port q).rts } := by
  simp only [State.sendSets, port_free, port_modPort]

theorem regs_enter (s : State) (q st : Nat) : (s.enter q st).regs = (s.wr (pgRunner q) RN_PSTAT_STATE st).regs := rfl

theorem port_enter (s : State) (q st : Nat) : (s.enter q st).port q = { s.port q with since := s.real } := port_modPort _ q _

theorem pst_enter (s : State) (q : Nat) {st : Nat} (h : st < 16) : (s.enter q st).pst q = st :=
  (rd_congr (regs_enter s q st) _ _ _).trans (rd_wr_fits _ _ RN_PSTAT_STATE 0 h)

theorem rd_enter (s : State) (pg q st : Nat) {F : Fld} (h : F.apart 0 RN_PSTAT_STATE 0) : (s.enter q st).rd pg F = s.rd pg F :=
  (rd_congr (regs_enter s q st) _ _ _).trans (rd_wr_apart _ _ _ _ h)

/-! ### Training begins (R369) -/

/-- The registers of a port and its lanes as training clears them. -/
def linkCleared (s : State) (q : Nat) : State :=
  let s2 := (List.range 8).foldl (fun s l =>
    s.wrs (lanePage q l) [(RN_LSTAT_STATE, 1), (RN_LSTAT_POLINV, 0), (RN_LSTAT_FEC_LOCK, 0), (RN_LSLACK_OWED, 0)])
    ((s.hwClear (pgRunner q) RN_PCTRL_RETRAIN).wrs (pgRunner q) [(RN_PSTAT_WIDTH, 0), (RN_PSTAT_RATE, 0), (RN_PSTAT_REVERSED, 0), (RN_PSTAT_RETRAIN_DUE, 0),
      (RN_PSTAT_SCHED_OK, 0), (RN_KEY_INDEX, 0), (RN_REPLAY_OUTSTANDING, 0), (RN_CREDIT_INDIGO, 0), (RN_CREDIT_WOAD, 0), (RN_CREDIT_SYNC, 0)])
  s2.wr pgMordant MD_LINKS_KEYED (setBit (s2.rd pgMordant MD_LINKS_KEYED) q false)

theorem beginTraining_eq (s : State) (q : Nat) :
    s.beginTraining q = (((linkCleared s q).modPort q RPort.restart).enter q 1).sendSets q (List.range 8) 0x4A 0 0 0 := rfl

theorem runner_linkCleared (s : State) (q : Nat) : (linkCleared s q).runner = s.runner := by
  unfold linkCleared
  dsimp only
  rw [runner_wr, runner_foldl _ (fun s l => runner_wrs _ _ _ _), runner_wrs]
  rfl

/-- The port's page where training clears it: the fields named, and no other. -/
theorem rd_linkCleared (s : State) {q : Nat} (hq : q < 24) {F : Fld} (hF : F.inPage 0) :
    (linkCleared s q).rd (pgRunner q) F = ((s.hwClear (pgRunner q) RN_PCTRL_RETRAIN).wrs (pgRunner q) [(RN_PSTAT_WIDTH, 0), (RN_PSTAT_RATE, 0),
      (RN_PSTAT_REVERSED, 0), (RN_PSTAT_RETRAIN_DUE, 0), (RN_PSTAT_SCHED_OK, 0), (RN_KEY_INDEX, 0), (RN_REPLAY_OUTSTANDING, 0), (RN_CREDIT_INDIGO, 0),
      (RN_CREDIT_WOAD, 0), (RN_CREDIT_SYNC, 0)]).rd (pgRunner q) F := by
  unfold linkCleared
  dsimp only
  rw [rd_wr_page _ _ (pgMordant_ne_pgRunner hq) hF (by decide)]
  exact rd_lanes _ _ (fun s l => rd_lane_wrs hq s q l _ hF (by decide)) _

theorem pst_beginTraining (s : State) (q : Nat) : (s.beginTraining q).pst q = 1 := by
  rw [beginTraining_eq, State.pst, rd_congr (regs_sendSets _ _ _ _ _ _ _)]
  exact pst_enter _ q (by decide)

theorem rd_beginTraining (s : State) (q : Nat) {F : Fld} (hF : F.apart 0 RN_PSTAT_STATE 0) :
    (s.beginTraining q).rd (pgRunner q) F = (linkCleared s q).rd (pgRunner q) F := by
  rw [beginTraining_eq, rd_congr (regs_sendSets _ _ _ _ _ _ _), rd_enter _ _ _ _ hF, rd_modPort]

theorem keyIndex_beginTraining (s : State) {q : Nat} (hq : q < 24) : (s.beginTraining q).rd (pgRunner q) RN_KEY_INDEX = 0 := by
  rw [rd_beginTraining s q (by decide), rd_linkCleared s hq (by decide)]
  iterate 5 rw [wrs_cons]
  rw [rd_wrs_head _ _ _ _ _ _ (by decide), Nat.zero_mod]

/-- The counts of failed trainings stay where training begins. -/
theorem trainFails_beginTraining (s : State) {q : Nat} (hq : q < 24) {F : Fld} (hF : F = RN_TRAIN_FAILS ∨ F = RN_TRAIN_FAIL_STATE) :
    (s.beginTraining q).rd (pgRunner q) F = s.rd (pgRunner q) F := by
  have hin : F.apart 0 RN_PSTAT_STATE 0 := by rcases hF with rfl | rfl <;> decide
  rw [rd_beginTraining s q hin, rd_linkCleared s hq hin.1, rd_wrs_apart _ _ _ _ (by rcases hF with rfl | rfl <;> decide),
    rd_hwClear_apart _ _ _ _ (by rcases hF with rfl | rfl <;> decide)]

/-- A port in training keeps nothing of the former link's keys or blocks. -/
theorem port_beginTraining (s : State) (q : Nat) : (s.beginTraining q).port q =
    { (s.port q).restart with since := ((s.beginTraining q).port q).since, rts := ((s.beginTraining q).port q).rts } := by
  simp only [beginTraining_eq]
  rw [port_sendSets, port_enter, port_modPort, port_of_runner (runner_linkCleared s q)]

end Sys2Proof.Machine
end

section
/-!
Proofs of the family 10_runner_lanes.md: scheduled words over a Runner link (O48), and what a port sends (O46).
-/

namespace Sys2Proof.Machine

open Sys2Proof

/-! ### Scheduled words (O48) -/

theorem leads_schedWordDrive {s : State} {q : Fin 24} {cyc : Nat} {w : BWord} {m : Bool} (hcyc : cyc < s.cps) (hst : s.pst q = 6)
    (hok : s.on (pgRunner q) RN_PSTAT_SCHED_OK = true) (hforeign : s.foreign q = false) (hown : s.rnOwner q = some (s.partOfRiser (q.val / 3)))
    (hout : s.wordOut (80 + q.val / 3) (43 + q.val % 3) (s.absCycle s.slot cyc) = some (w, m))
    (hroom : s.drovenNow q < s.rd (pgRunner q) RN_DL_SCHED_WORDS) :
    Leads (.schedWordDrive q cyc) s fun t =>
      t.port q = { s.port q with txSched := (s.port q).txSched ++ [w], drove := (s.epoch * 4096 + s.slot, s.drovenNow q + 1) } ∧
      t.mem = s.mem ∧ (m = false → s.sameBut [.runner] t) := by
  obtain ⟨u, hu⟩ : ∃ u, u = if m then s.slipAt (pgRunner q) (q.val / 3) (s.absCycle s.slot cyc) else s := ⟨_, rfl⟩
  have hframe : s.sameBut evented u := by
    rw [hu]
    split
    · exact sameBut_slip _ _ _ _ _ _ _
    · exact sameBut_refl _ s
  have hexec : exec (.schedWordDrive q cyc) s = finish (evented ++ [.runner]) s (u.modPort q fun v =>
      { v with txSched := v.txSched ++ [w], drove := (s.epoch * 4096 + s.slot, s.drovenNow q + 1) }) := by
    rw [show exec (.schedWordDrive q cyc) s = execSchedWordDrive q cyc s from rfl, execSchedWordDrive]
    dsimp only
    rw [if_pos ⟨hcyc, hst, hok, hforeign, hown, hroom⟩, hout, hu]
  have hport := port_modPort u q fun v => { v with txSched := v.txSched ++ [w], drove := (s.epoch * 4096 + s.slot, s.drovenNow q + 1) }
  rw [port_of_sameBut hframe (by decide)] at hport
  refine ⟨_, hexec, hport, rfl, fun hm => sameBut_only_of ?_⟩
  rw [hu, hm]
  exact sameBut_modPort s q _

theorem leads_schedWordDrive_none {s : State} {q : Fin 24} (cyc : Nat) (h : s.pst q ≠ 6 ∨ s.foreign q = true ∨
    s.on (pgRunner q) RN_PSTAT_SCHED_OK = false ∨ s.rd (pgRunner q) RN_DL_SCHED_WORDS ≤ s.drovenNow q) :
    Leads (.schedWordDrive q cyc) s fun t => s.sameBut [] t := by
  refine leads_unchanged (l := evented ++ [.runner]) ?_
  rw [show exec (.schedWordDrive q cyc) s = execSchedWordDrive q cyc s from rfl, execSchedWordDrive]
  dsimp only
  rw [if_neg]
  rintro ⟨-, hst, hok, hforeign, -, hroom⟩
  rcases h with h | h | h | h
  · exact h hst
  · exact absurd (h.symm.trans hforeign) (by decide)
  · exact absurd (h.symm.trans hok) (by decide)
  · omega

theorem leads_schedWordRelease (s : State) (q : Fin 24) :
    Leads (.schedWordRelease q) s fun t =>
      (t.port q).released = (s.port q).released ++ (s.port q).rxSched.filter (fun e => decide (e.1 ≤ s.time.ticks / 256)) ∧
      (t.port q).rxSched = (s.port q).rxSched.filter (fun e => decide (s.time.ticks / 256 < e.1)) ∧ s.sameBut [.runner] t := by
  have hport := port_modPort s q fun u => { u with released := u.released ++ u.rxSched.filter fun e => decide (e.1 ≤ s.time.ticks / 256)
                                                   rxSched := u.rxSched.filter fun e => decide (s.time.ticks / 256 < e.1) }
  exact ⟨_, rfl, congrArg RPort.released hport, congrArg RPort.rxSched hport, sameBut_only _ _ _⟩

theorem leads_releaseBufferFlush {s : State} {q : Fin 24} (h : 4088 ≤ s.slot) :
    Leads (.releaseBufferFlush q) s fun t =>
      (t.port q).released = (s.port q).released.filter (fun e => decide (s.epoch * 4096 + 4087 < e.1)) ∧
      (t.port q).rxSched = (s.port q).rxSched ∧ s.sameBut [.regs, .runner] t := by
  obtain ⟨u, hu⟩ : ∃ u, u = s.bump (pgRunner q) RN_SCHED_LATE_DROP (leftReleased s.net s.cps (80 + q.val / 3) (43 + q.val % 3) s.epoch 0
      ((s.port q).released.filter fun e => decide (e.1 ≤ s.epoch * 4096 + 4087))) := ⟨_, rfl⟩
  have hexec : exec (.releaseBufferFlush q) s = finish [.regs, .runner] s (u.modPort q fun v =>
      { v with released := v.released.filter fun e => decide (s.epoch * 4096 + 4087 < e.1) }) := by
    rw [show exec (.releaseBufferFlush q) s = execReleaseBufferFlush q s from rfl, execReleaseBufferFlush]
    dsimp only
    rw [if_pos h, hu]
  have hport := port_modPort u q fun v => { v with released := v.released.filter fun e => decide (s.epoch * 4096 + 4087 < e.1) }
  have hsame : u.port q = s.port q := by rw [hu, port_of_sameBut (sameBut_bump _ _ _ _ _) (by decide)]
  rw [hsame] at hport
  have hreleased := congrArg RPort.released hport
  have hrx := congrArg RPort.rxSched hport
  exact ⟨_, hexec, hreleased, hrx, sameBut_only _ _ _⟩

theorem leads_releaseBufferFlush_none {s : State} {q : Fin 24} (h : s.slot < 4088) : Leads (.releaseBufferFlush q) s fun t => s.sameBut [] t := by
  refine leads_unchanged (l := [.regs, .runner]) ?_
  rw [show exec (.releaseBufferFlush q) s = execReleaseBufferFlush q s from rfl, execReleaseBufferFlush]
  dsimp only
  rw [if_neg (by omega)]

/-- Settles O48: a slip raises an event and leaves the ports, and each command writes the lists of its port alone. -/
theorem scheduledWordsCrossLinks : Obligations.ScheduledWordsCrossLinks := by
  unfold Obligations.ScheduledWordsCrossLinks
  exact ⟨fun _ _ _ _ _ => leads_schedWordDrive, fun _ _ cyc => leads_schedWordDrive_none cyc, leads_schedWordRelease,
    fun _ _ => leads_releaseBufferFlush, fun _ _ => leads_releaseBufferFlush_none⟩

/-! ### What fills a block leaves of its port (R378) -/

/-- The units that fill a block leave the port's count of LCFs and what its next LCF asks. -/
def fillKept (f g : Filling) : Prop := g.port.lcfTx = f.port.lcfTx ∧ g.port.linkReq = f.port.linkReq

theorem fillKept_refl (f : Filling) : fillKept f f := ⟨rfl, rfl⟩

theorem fillKept_trans {f g h : Filling} (h1 : fillKept f g) (h2 : fillKept g h) : fillKept f h := ⟨h2.1.trans h1.1, h2.2.trans h1.2⟩

theorem fillKept_woads {f g : Filling} {x : Nat × Bytes × Bool} (h : f.woads = some (x, g)) : fillKept f g := by
  unfold Filling.woads at h
  split at h
  · split at h
    · cases h; exact ⟨rfl, rfl⟩
    · cases h
  · cases h

theorem fillKept_packets {f g : Filling} {x : Nat × Bytes × Bool} (h : f.packets = some (x, g)) : fillKept f g := by
  unfold Filling.packets at h
  split at h
  · split at h
    · cases h; exact ⟨rfl, rfl⟩
    · exact fillKept_woads h
  · exact fillKept_woads h

theorem fillKept_next {f g : Filling} {x : Nat × Bytes × Bool} (h : f.next = some (x, g)) : fillKept f g := by
  unfold Filling.next at h
  split at h
  · split at h
    · cases h; exact ⟨rfl, rfl⟩
    · exact fillKept_packets h
  · exact fillKept_packets h

theorem fillKept_units (n : Nat) (f : Filling) : fillKept f (f.units n).2 := by
  induction n generalizing f with
  | zero => exact fillKept_refl f
  | succ n ih =>
    unfold Filling.units
    split
    · exact fillKept_refl f
    · next x g h => exact fillKept_trans (fillKept_next h) (ih g)

theorem fillKept_step (f : Filling) (j : Nat) : fillKept f (f.step j) := by
  unfold Filling.step
  split
  · exact ⟨rfl, rfl⟩
  · exact ⟨rfl, rfl⟩
  · dsimp only
    split <;> exact fillKept_units 4 f

theorem fillKept_steps (l : List Nat) (f : Filling) : fillKept f (l.foldl Filling.step f) := by
  induction l generalizing f with
  | nil => exact fillKept_refl f
  | cons j l ih => exact fillKept_trans (fillKept_step f j) (ih _)

/-! ### What the leaving of an LCF leaves (R374, R376) -/

/-- The lanes' stuffing changes what their coders hold, and fields of their pages. -/
def stuffed (q : Nat) (s t : State) : Prop :=
  s.sameBut [.regs, .runner] t ∧ t.port q = { s.port q with txLine := (t.port q).txLine } ∧
  ∀ F : Fld, F.inPage 0 → t.rd (pgRunner q) F = s.rd (pgRunner q) F

theorem stuffed_trans {q : Nat} {s t u : State} (h1 : stuffed q s t) (h2 : stuffed q t u) : stuffed q s u := by
  obtain ⟨f1, p1, r1⟩ := h1
  obtain ⟨f2, p2, r2⟩ := h2
  exact ⟨sameBut_trans f1 f2, by rw [p2, p1], fun F hF => (r2 F hF).trans (r1 F hF)⟩

theorem stuffed_stuffing (s : State) {q : Nat} (hq : q < 24) (symbols : List (List LineSym)) : stuffed q s (s.stuffing q symbols) := by
  unfold State.stuffing
  dsimp only
  generalize s.portPam q = pam
  generalize slackSymbols pam (s.pwidth q) = slack
  generalize lanesOf (s.pwidth q) = ls
  induction ls generalizing s with
  | nil => exact ⟨sameBut_refl _ s, rfl, fun _ _ => rfl⟩
  | cons l ls ih =>
    rw [List.foldl_cons]
    refine stuffed_trans ?_ (ih _)
    obtain ⟨v, o, n, r, hv⟩ : ∃ v o n r, v = (s.wr (lanePage q l) RN_LSLACK_OWED o).bump (lanePage q l) RN_LSTUFF_TX n ∧
        o = min 511 (s.rd (lanePage q l) RN_LSLACK_OWED - min (s.rd (lanePage q l) RN_LSLACK_OWED) slack + n) ∧ n = r.2 ∧
        r = (aget {} (s.port q).txLine l).send pam slack (s.rd (lanePage q l) RN_LSLACK_OWED) (symbols.getD l []) := ⟨_, _, _, _, rfl, rfl, rfl, rfl⟩
    obtain ⟨hv, ho, hn, hr⟩ := hv
    rw [← hr, ← hn, ← ho, ← hv]
    have hrunner : v.port q = s.port q := by
      rw [hv]
      exact port_of_sameBut (sameBut_trans (sameBut_wr _ _ _ _ _) (sameBut_bump _ _ _ _ _)) (by decide) q
    refine ⟨?_, by rw [port_modPort, hrunner], fun F hF => ?_⟩
    · rw [hv]
      exact sameBut_mono (sameBut_trans (sameBut_mono (sameBut_trans (sameBut_wr _ _ _ _ _) (sameBut_bump _ _ _ _ _)) (by decide))
        (sameBut_mono (sameBut_modPort _ q _) (by decide : ∀ k ∈ [Comp.runner], k ∈ [Comp.regs, Comp.runner]))) (by decide)
    · rw [rd_modPort, hv, rd_bump_other _ _ _ _ _ (fkey_ne_of_page (lanePage_ne_pgRunner hq q l) hF (by decide)), rd_lane_wr hq s q l o hF (by decide)]

/-- The port once an LCF and its payload have left on its lanes. -/
def lcfSpent (s : State) (q : Nat) (lcf ct : Bytes) (v : RPort) : RPort :=
  { v with lcfTx := v.lcfTx + 1, freeSync := 0, freeIndigo := 0, freeWoad := 0, linkReq := 0,
           linkArg := 0, markDue := false, wire := some (lcf, ct), line := (v.line_ (s.pwidth q) (lanesOf (s.pwidth q)) (lcf ++ ct)).line,
           stall := if v.unacked.isEmpty then 0 else v.stall + 1 }

/-- An LCF without a RETRAIN_ACK that leaves: its counts and requests are spent, and nothing starts. -/
theorem lcfLeft_spends (s : State) {q : Nat} (hq : q < 24) (lcf ct : Bytes) (symbols : List (List LineSym)) (hreq : (s.port q).linkReq ≠ 5) :
    (∃ l : List (Nat × LineRun), (s.lcfLeft q lcf ct symbols).port q = lcfSpent s q lcf ct { s.port q with txLine := l }) ∧
    s.sameBut [.regs, .runner] (s.lcfLeft q lcf ct symbols) ∧
    ∀ F : Fld, F.inPage 0 → (s.lcfLeft q lcf ct symbols).rd (pgRunner q) F = s.rd (pgRunner q) F := by
  obtain ⟨hframe, hport, hrd⟩ := stuffed_stuffing s hq symbols
  obtain ⟨u, hu⟩ : ∃ u, u = s.stuffing q symbols := ⟨_, rfl⟩
  have heq : s.lcfLeft q lcf ct symbols = u.modPort q (lcfSpent s q lcf ct) := by
    unfold State.lcfLeft
    dsimp only
    rw [if_neg fun h => hreq h.1, hu]
    rfl
  rw [← hu] at hframe hport hrd
  rw [heq]
  refine ⟨⟨(u.port q).txLine, ?_⟩, sameBut_trans hframe (sameBut_mono (sameBut_modPort u q _) (by decide)), hrd⟩
  exact (port_modPort u q _).trans (congrArg _ hport)

/-! ### Blocks (O46) -/

/-- A block that is to be filled, with the credits that the port has. -/
def fillStart (s : State) (q : Nat) : Filling :=
  { port := s.port q, sync := s.rd (pgRunner q) RN_CREDIT_SYNC, indigo := s.rd (pgRunner q) RN_CREDIT_INDIGO, woad := s.rd (pgRunner q) RN_CREDIT_WOAD }

/-- The block that a filling gives. -/
def blockOf (s : State) (q : Nat) (f : Filling) : TxBlock :=
  { seq := (s.port q).txSeq, ftype := f.ftype, utype := f.utype, poison := f.poison, plain := f.flits.reverse.flatten, before := (s.port q).lastTag }

/-- The port with that block formed, its tag to come. -/
def blockFormed (s : State) (q : Nat) (f : Filling) : State :=
  ((s.wrs (pgRunner q) [(RN_CREDIT_SYNC, f.sync), (RN_CREDIT_INDIGO, f.indigo), (RN_CREDIT_WOAD, f.woad)]).modPort q
    fun _ => { f.port with txSeq := (s.port q).txSeq + 1, unacked := (s.port q).unacked ++ [blockOf s q f] }).wr (pgRunner q) RN_REPLAY_OUTSTANDING
      ((s.port q).unacked.length + 1)

/-- A block's payload as it leaves. -/
def blockText (s : State) (q : Nat) (k : Bytes) (b : TxBlock) : Bytes :=
  gcmText (trafficKey k (s.port q).first (b.seq / 2 ^ 32)) (blockNonce k (s.port q).first b.seq) b.plain

/-- The port with the tag of a block that goes out for the first time. -/
def blockTagged (s : State) (q : Nat) (k : Bytes) (b : TxBlock) : State :=
  s.modPort q fun u => { u with lastTag := gcmTag (trafficKey k (s.port q).first (b.seq / 2 ^ 32)) (blockNonce k (s.port q).first b.seq)
                                  (blockAad b.seq b.ftype b.utype b.poison) (blockText s q k b) }

theorem newBlock_eq (s : State) (q : Nat) (k : Bytes) (l : List (List LineSym)) (f : Filling)
    (hf : f = (List.range 63).foldl Filling.step (fillStart s q)) :
    s.newBlock q k l = (blockFormed s q f).sendBlock q k (blockOf s q f) false l := by
  rw [State.newBlock]
  dsimp only
  rw [← fillStart, ← hf]
  rfl

theorem sendBlock_new (s : State) (q : Nat) (k : Bytes) (b : TxBlock) (l : List (List LineSym)) :
    s.sendBlock q k b false l = (blockTagged s q k b).lcfLeft q (s.lcf q b false false) (blockText s q k b) l := rfl

theorem sendBlock_again (s : State) (q : Nat) (k : Bytes) (b : TxBlock) (l : List (List LineSym)) :
    s.sendBlock q k b true l = s.lcfLeft q (s.lcf q b true false) (blockText s q k b) l := rfl

theorem port_blockFormed (s : State) (q : Nat) (f : Filling) : (blockFormed s q f).port q =
    { f.port with txSeq := (s.port q).txSeq + 1, unacked := (s.port q).unacked ++ [blockOf s q f] } := by
  rw [blockFormed, port_of_runner (runner_wr _ _ _ _ _), port_modPort]

/-- A new block leaves: the port as it was filled, with the block among those unacknowledged, and an LCF more. -/
theorem newBlock_leaves (s : State) {q : Nat} (hq : q < 24) (k : Bytes) (l : List (List LineSym)) (hreq : (s.port q).linkReq ≠ 5) :
    ((s.newBlock q k l).port q).txSeq = (s.port q).txSeq + 1 ∧ ((s.newBlock q k l).port q).lcfTx = (s.port q).lcfTx + 1 ∧
    ((s.newBlock q k l).port q).wire.isSome = true ∧
    ∃ b, ((s.newBlock q k l).port q).unacked = (s.port q).unacked ++ [b] ∧ b.seq = (s.port q).txSeq := by
  obtain ⟨f, hf⟩ : ∃ f, f = (List.range 63).foldl Filling.step (fillStart s q) := ⟨_, rfl⟩
  obtain ⟨hlcf, hask⟩ : fillKept (fillStart s q) f := hf ▸ fillKept_steps _ _
  obtain ⟨b, hb⟩ : ∃ b, b = blockOf s q f := ⟨_, rfl⟩
  obtain ⟨v, hv⟩ : ∃ v, v = blockTagged (blockFormed s q f) q k b := ⟨_, rfl⟩
  have hvport : v.port q =
      { f.port with txSeq := (s.port q).txSeq + 1, unacked := (s.port q).unacked ++ [b], lastTag := (v.port q).lastTag } := by
    rw [hv, blockTagged, port_modPort, port_blockFormed, hb]
  rw [newBlock_eq s q k l f hf, sendBlock_new, ← hb, ← hv]
  obtain ⟨⟨line, hleft⟩, -, -⟩ := lcfLeft_spends v hq ((blockFormed s q f).lcf q b false false) (blockText (blockFormed s q f) q k b) l
    (by rw [hvport]; exact fun h => hreq (hask.symm.trans h))
  rw [hleft, hvport]
  exact ⟨rfl, congrArg (· + 1) hlcf, rfl, b, rfl, congrArg TxBlock.seq hb⟩

/-- The care of a port's keys leaves what it sends. -/
theorem keyCare_keeps (s : State) (q : Nat) :
    ((s.keyCare q).port q).txSeq = (s.port q).txSeq ∧ ((s.keyCare q).port q).lcfTx = (s.port q).lcfTx ∧
    ((s.keyCare q).port q).linkReq = (s.port q).linkReq ∧ ((s.keyCare q).port q).unacked = (s.port q).unacked := by
  have loaded : ∀ (u : State) n, (u.modPort q fun v => { v with loaded := n }).port q = { u.port q with loaded := n } := fun u n => port_modPort u q _
  have late : ∀ (u : State) n, (u.modPort q fun v => { v with lateFor := n }).port q = { u.port q with lateFor := n } := fun u n => port_modPort u q _
  unfold State.keyCare
  dsimp only
  split <;> split <;> simp only [late, port_raise, loaded, and_self]

theorem exec_blockSend {s : State} {q : Fin 24} {k : Bytes} (l : List (List LineSym)) (hk : (s.port q).prk = some k) (hst : s.pst q = 6) :
    exec (.blockSend q l) s = finish (evented ++ [.runner]) s
      (match (s.port q).resend with
        | r :: rs =>
          match (s.port q).unacked.find? fun b => decide (b.seq = r) with
          | none => s.modPort q fun u => { u with resend := rs }
          | some b => ((s.bump (pgRunner q) RN_REPLAY_COUNT).modPort q fun u =>
              { u with resend := rs, unacked := u.unacked.map fun x => if x.seq = r then { x with resent := x.resent + 1 } else x }).sendBlock q k b true l
        | [] => if 32 ≤ (s.port q).unacked.length ∨ (s.port q).txSeq / 2 ^ 32 ≠ s.rd (pgRunner q) RN_KEY_INDEX then s else (s.keyCare q).newBlock q k l) := by
  rw [show exec (.blockSend q l) s = execBlockSend q l s from rfl, execBlockSend]
  dsimp only
  rw [hk]
  dsimp only
  rw [if_neg (not_not_intro hst)] <;> rfl

theorem leads_blockSend_new {s : State} {q : Fin 24} {k : Bytes} {l : List (List LineSym)} (hk : (s.port q).prk = some k) (hst : s.pst q = 6)
    (hnone : (s.port q).resend = []) (hroom : (s.port q).unacked.length < 32) (hkey : (s.port q).txSeq / 2 ^ 32 = s.rd (pgRunner q) RN_KEY_INDEX)
    (hreq : (s.port q).linkReq ≠ 5) :
    Leads (.blockSend q l) s fun t =>
      (t.port q).txSeq = (s.port q).txSeq + 1 ∧ (t.port q).lcfTx = (s.port q).lcfTx + 1 ∧ (t.port q).wire.isSome = true ∧
      (∃ b, (t.port q).unacked = (s.port q).unacked ++ [b] ∧ b.seq = (s.port q).txSeq) := by
  obtain ⟨c, hc⟩ : ∃ c, c = s.keyCare q := ⟨_, rfl⟩
  obtain ⟨hseq, hlcf, hask, hun⟩ := keyCare_keeps s q
  rw [← hc] at hseq hlcf hask hun
  obtain ⟨hnewSeq, hnewLcf, hwire, b, hnewUn, hb⟩ := newBlock_leaves c q.isLt k l (by rw [hask]; exact hreq)
  have hexec : exec (.blockSend q l) s = finish (evented ++ [.runner]) s (c.newBlock q k l) := by
    rw [exec_blockSend l hk hst, hnone]
    dsimp only
    rw [if_neg (by rw [not_or, not_not]; exact ⟨by omega, hkey⟩), hc]
  generalize c.newBlock q k l = u at hexec hnewSeq hnewLcf hwire hnewUn
  rw [hseq] at hnewSeq hb
  rw [hlcf] at hnewLcf
  rw [hun] at hnewUn
  exact ⟨_, hexec, hnewSeq, hnewLcf, hwire, b, hnewUn, hb⟩

theorem leads_blockSend_again {s : State} {q : Fin 24} {k : Bytes} {l : List (List LineSym)} {r : Nat} {rs : List Nat} {b : TxBlock}
    (hk : (s.port q).prk = some k) (hst : s.pst q = 6) (hresend : (s.port q).resend = r :: rs)
    (hfind : (s.port q).unacked.find? (fun b => decide (b.seq = r)) = some b) (hreq : (s.port q).linkReq ≠ 5) :
    Leads (.blockSend q l) s fun t =>
      (t.port q).resend = rs ∧ (t.port q).txSeq = (s.port q).txSeq ∧ (t.port q).lcfTx = (s.port q).lcfTx + 1 ∧
      (t.port q).unacked.map TxBlock.seq = (s.port q).unacked.map TxBlock.seq ∧
      t.rd (pgRunner q) RN_REPLAY_COUNT = min (s.rd (pgRunner q) RN_REPLAY_COUNT + 1) (2 ^ RN_REPLAY_COUNT.width - 1) := by
  obtain ⟨v, hv⟩ : ∃ v : State, v = (s.bump (pgRunner q) RN_REPLAY_COUNT).modPort q fun u =>
      { u with resend := rs, unacked := u.unacked.map fun x => if x.seq = r then { x with resent := x.resent + 1 } else x } := ⟨_, rfl⟩
  have hvport : v.port q = { s.port q with
      resend := rs, unacked := (s.port q).unacked.map fun x => if x.seq = r then { x with resent := x.resent + 1 } else x } := by
    rw [hv, port_modPort, port_of_sameBut (sameBut_bump _ _ _ _ _) (by decide)]
  obtain ⟨⟨line, hleft⟩, -, hrd⟩ := lcfLeft_spends v q.isLt (v.lcf q b true false) (blockText v q k b) l (by rw [hvport]; exact hreq)
  obtain ⟨u, hu⟩ : ∃ u, u = v.sendBlock q k b true l := ⟨_, rfl⟩
  have hsend : u = v.lcfLeft q (v.lcf q b true false) (blockText v q k b) l := hu.trans (sendBlock_again v q k b l)
  rw [← hsend, hvport] at hleft
  rw [← hsend] at hrd
  have hexec : exec (.blockSend q l) s = finish (evented ++ [.runner]) s u := by
    rw [exec_blockSend l hk hst, hresend, hu, hv]
    dsimp only
    rw [hfind]
  have hport : (s.only (evented ++ [.runner]) u).port q = u.port q := rfl
  refine ⟨_, hexec, ?_⟩
  beta_reduce
  rw [hport, hleft]
  refine ⟨rfl, rfl, rfl, ?_, (hrd RN_REPLAY_COUNT (by decide)).trans ?_⟩
  · change ((s.port q).unacked.map _).map TxBlock.seq = _
    rw [List.map_map]
    refine List.map_congr_left fun x _ => ?_
    simp only [Function.comp_apply]
    split <;> rfl
  · rw [hv, rd_modPort, rd_bump_same]

theorem leads_blockSend_full {s : State} {q : Fin 24} (l : List (List LineSym)) (hnone : (s.port q).resend = []) (hfull : 32 ≤ (s.port q).unacked.length) :
    Leads (.blockSend q l) s fun t => s.sameBut [] t := by
  refine leads_unchanged (l := evented ++ [.runner]) ?_
  rw [show exec (.blockSend q l) s = execBlockSend q l s from rfl, execBlockSend]
  dsimp only
  split
  · rfl
  · split
    · rfl
    · rw [hnone]
      dsimp only
      rw [if_pos (.inl hfull)]

theorem leads_replay {s : State} {q : Fin 24} (hst : s.pst q = 6) (hnak : (s.port q).nakRx = true) :
    Leads (.replay q) s fun t =>
      t.port q = { s.port q with nakRx := false, resend := (s.port q).unacked.map TxBlock.seq } ∧ s.sameBut [.runner] t := by
  have hexec : exec (.replay q) s = finish [.runner] s (s.modPort q fun u => { u with nakRx := false, resend := u.unacked.map TxBlock.seq }) := by
    rw [show exec (.replay q) s = execReplay q s from rfl, execReplay, if_pos ⟨hst, hnak⟩]
  have hport := port_modPort s q fun u => { u with nakRx := false, resend := u.unacked.map TxBlock.seq }
  exact ⟨_, hexec, hport, sameBut_only _ _ _⟩

theorem leads_replay_none {s : State} {q : Fin 24} (hnak : (s.port q).nakRx = false) : Leads (.replay q) s fun t => s.sameBut [] t := by
  refine leads_unchanged (l := [.runner]) ?_
  rw [show exec (.replay q) s = execReplay q s from rfl, execReplay, if_neg fun h => absurd (h.2.symm.trans hnak) (by decide)]

theorem leads_fillBlock {s : State} {q : Fin 24} {l : List (List LineSym)}
    (hst : s.pst q = 3 ∨ s.pst q = 6 ∧ 32 ≤ (s.port q).unacked.length ∧ (s.port q).resend = []) (hreq : (s.port q).linkReq ≠ 5) :
    Leads (.fillBlock ⟨q, l⟩) s fun t =>
      (t.port q).unacked = (s.port q).unacked ∧ (t.port q).txSeq = (s.port q).txSeq ∧
      (t.port q).lcfTx = (s.port q).lcfTx + 1 ∧ (t.port q).markDue = false ∧ s.sameBut [.regs, .runner] t := by
  obtain ⟨⟨line, hleft⟩, hframe, -⟩ := lcfLeft_spends s q.isLt (s.lcf q { seq := 0 } false true) (List.replicate 16128 0) l hreq
  have hprobe : s.probe q = s := by
    rw [State.probe, if_neg]
    rintro ⟨h4, -, -⟩
    rcases hst with h | ⟨h, -⟩ <;> rw [h] at h4 <;> exact absurd h4 (by decide)
  have hexec : exec (.fillBlock ⟨q, l⟩) s = finish [.free, .regs, .runner] s
      (s.lcfLeft q (s.lcf q { seq := 0 } false true) (List.replicate 16128 0) l) := by
    rw [show exec (.fillBlock ⟨q, l⟩) s = execFillBlock ⟨q, l⟩ s from rfl, execFillBlock]
    dsimp only
    rw [if_pos (hst.imp_left fun h => by rw [h]; decide), hprobe]
  have hport : ∀ u : State, (s.only [.free, .regs, .runner] u).port q = u.port q := fun _ => rfl
  refine ⟨_, hexec, ?_⟩
  beta_reduce
  rw [hport, hleft]
  exact ⟨rfl, rfl, rfl, rfl, sameBut_only_of hframe⟩

/-- Settles O46: what fills a block leaves the port's counts, and an LCF that leaves adds one to them. -/
theorem blocksAreSent : Obligations.BlocksAreSent := by
  unfold Obligations.BlocksAreSent
  exact ⟨fun _ _ _ _ => leads_blockSend_new, fun _ _ _ _ _ _ _ => leads_blockSend_again, fun _ _ l => leads_blockSend_full l,
    fun _ _ => leads_replay, fun _ _ => leads_replay_none, fun _ _ _ => leads_fillBlock⟩

end Sys2Proof.Machine
end

section
/-!
Proofs of the family 10_runner_lanes.md: blocks and link control flits that a port receives (O47).
-/

namespace Sys2Proof.Machine

open Sys2Proof

/-! ### What the lanes' decoders leave (R371, R373) -/

/-- Counting what the lanes saw changes what their decoders hold and the counts of their pages. -/
def counted (q : Nat) (s t : State) : Prop :=
  s.sameBut [.regs, .runner] t ∧ t.port q = { s.port q with rxLine := (t.port q).rxLine, uncorr := (t.port q).uncorr } ∧
  ∀ F : Fld, F.inPage 0 → t.rd (pgRunner q) F = s.rd (pgRunner q) F

theorem counted_trans {q : Nat} {s t u : State} (h1 : counted q s t) (h2 : counted q t u) : counted q s u := by
  obtain ⟨f1, p1, r1⟩ := h1
  obtain ⟨f2, p2, r2⟩ := h2
  exact ⟨sameBut_trans f1 f2, by rw [p2, p1], fun F hF => (r2 F hF).trans (r1 F hF)⟩

theorem counted_bump (s : State) {q : Nat} (hq : q < 24) (l n : Nat) {G : Fld} (hG : G.inPage 0) : counted q s (s.bump (lanePage q l) G n) :=
  ⟨sameBut_mono (sameBut_bump _ _ _ _ _) (by decide), by rw [port_of_sameBut (sameBut_bump _ _ _ _ _) (by decide)],
    fun _ hF => rd_bump_other _ _ _ _ _ (fkey_ne_of_page (lanePage_ne_pgRunner hq q l) hF hG)⟩

theorem counted_modPort (s : State) (q : Nat) {f : RPort → RPort} (hf : ∀ u, f u = { u with rxLine := (f u).rxLine, uncorr := (f u).uncorr }) :
    counted q s (s.modPort q f) :=
  ⟨sameBut_mono (sameBut_modPort _ q _) (by decide), by rw [port_modPort]; exact hf _, fun _ _ => rfl⟩

theorem counted_countLanes (s : State) {q : Nat} (hq : q < 24) (lcf : Bool) (ls : List LaneRx) : counted q s (s.countLanes q lcf ls) := by
  unfold State.countLanes
  dsimp only
  generalize s.portPam q = pam
  generalize (if lcf then slackSymbols pam (s.pwidth q) else 0) = slack
  generalize ls.zipIdx = es
  induction es generalizing s with
  | nil => exact ⟨sameBut_refl _ s, rfl, fun _ _ => rfl⟩
  | cons e es ih =>
    rw [List.foldl_cons]
    have bumps := counted_trans (counted_trans (counted_bump s hq e.2 ((e.1.errors.filter fun n => !beyond n).sum) (G := RN_LCORR_COUNT) (by decide))
      (counted_bump _ hq e.2 (e.1.errors.filter beyond).length (G := RN_LUNCORR_COUNT) (by decide)))
      (counted_trans (counted_bump _ hq e.2 ((aget {} (s.port q).rxLine e.2).take pam slack e.1.symbols).2.1 (G := RN_LSTUFF_RX) (by decide))
        (counted_bump _ hq e.2 ((aget {} (s.port q).rxLine e.2).take pam slack e.1.symbols).2.2 (G := RN_LSLACK_STUFF_ERR) (by decide)))
    exact counted_trans (counted_trans bumps (counted_modPort _ q fun _ => rfl)) (ih _)

/-! ### A block's delivery (R383, R389) -/

/-- A scheduled word that arrives joins those that wait for their slot, or is counted late: the rest of the port stays. -/
theorem port_wordArrived (s : State) (q d : Nat) (w : BWord) :
    (s.wordArrived q d w).port q = { s.port q with rxSched := ((s.wordArrived q d w).port q).rxSched } := by
  unfold State.wordArrived
  dsimp only
  split
  · rfl
  · split
    · rfl
    · split
      · rw [port_modPort]
      · have late : (s.bump (pgRunner q) RN_SCHED_LATE_LATE).port q = s.port q := port_of_sameBut (sameBut_bump _ _ _ _ _) (by decide) q
        split
        · rw [late]
        · rw [port_of_sameBut (sameBut_slip _ _ _ _ _ _ _) (by decide), late]

theorem port_wordsArrived (q : Nat) (l : List (BWord × Nat)) (s : State) :
    ∃ r, (l.foldl (fun s e => s.wordArrived q e.2 e.1) s).port q = { s.port q with rxSched := r } := by
  induction l generalizing s with
  | nil => exact ⟨_, rfl⟩
  | cons e l ih =>
    obtain ⟨r, hr⟩ := ih (s.wordArrived q e.2 e.1)
    exact ⟨r, hr.trans (by rw [port_wordArrived])⟩

/-- An accepted block: its number, and its units behind those that wait. -/
theorem port_deliverBlock (s : State) (q : Nat) (b : Block) (pt : Bytes) {d : Delivery}
    (hd : d = (List.range 63).foldl (Delivery.flit b pt) { half := (s.port q).rxHalf }) :
    ∃ r, (s.deliverBlock q b pt).port q = { s.port q with
      rxSeq := (s.port q).rxSeq + 1, nakTx := false, rxHalf := d.half, rxSync := (s.port q).rxSync ++ d.sync,
      rxIndigo := (s.port q).rxIndigo ++ d.indigo, rxWoad := (s.port q).rxWoad ++ d.woad, rxSched := r } := by
  unfold State.deliverBlock
  dsimp only
  rw [← hd]
  obtain ⟨r, hr⟩ := port_wordsArrived q (d.words.zip b.drives) (s.modPort q fun u =>
    { u with rxSeq := u.rxSeq + 1, nakTx := false, rxHalf := d.half, rxSync := u.rxSync ++ d.sync,
             rxIndigo := u.rxIndigo ++ d.indigo, rxWoad := u.rxWoad ++ d.woad })
  exact ⟨r, hr.trans (by rw [port_modPort])⟩

/-! ### BLOCK_RECEIVE (R383) -/

/-- What becomes of a block on an ACTIVE port with keys, once its lanes are counted. -/
theorem exec_blockReceive {s : State} {q : Fin 24} {k : Bytes} {b : Block} (hk : (s.port q).prk = some k) (hst : s.pst q = 6) :
    exec (.blockReceive q b) s = finish (evented ++ [.runner]) s
      (if b.lanes.any (fun l => l.errors.any beyond) then
        ((s.countLanes q false b.lanes).bump (pgRunner q) RN_FEC_UNCORR).modPort q fun u => { u with nakTx := true }
      else if b.seq ≠ (s.port q).rxSeq ∨ ((s.port q).nakTx ∧ !b.replay) then (s.countLanes q false b.lanes).modPort q fun u => { u with nakTx := true }
      else if b.tag ≠ gcmTag (trafficKey k (!(s.port q).first) (b.seq / 2 ^ 32)) (blockNonce k (!(s.port q).first) b.seq)
          (blockAad b.seq b.ftype b.utype b.poison) b.payload then
        ((s.countLanes q false b.lanes).bump (pgRunner q) RN_FEC_AUTH_FAIL).modPort q fun u => { u with nakTx := true }
      else (s.countLanes q false b.lanes).deliverBlock q b (gcmText (trafficKey k (!(s.port q).first) (b.seq / 2 ^ 32))
        (blockNonce k (!(s.port q).first) b.seq) b.payload)) := by
  rw [show exec (.blockReceive q b) s = execBlockReceive q b s from rfl, execBlockReceive]
  dsimp only
  rw [hst, if_neg (by decide), hk]
  dsimp only
  rw [if_neg (by decide)]

/-- A block of the number expected, with REPLAY where a NAK has gone out, is not turned away. -/
theorem block_wanted {u : RPort} {b : Block} (hseq : b.seq = u.rxSeq) (hnak : u.nakTx = false ∨ b.replay = true) :
    ¬ (b.seq ≠ u.rxSeq ∨ (u.nakTx = true ∧ (!b.replay) = true)) := by
  rintro (h | ⟨h1, h2⟩)
  · exact h hseq
  · rcases hnak with h | h <;> simp [h] at h1 h2

/-- The port after a block that asks for a replay, where a count of the port's page went up by one. -/
theorem nak_shows (s : State) {q : Fin 24} (b : Block) {F : Fld} (hF : F.inPage 0) {u : State}
    (hu : u = ((s.countLanes q false b.lanes).bump (pgRunner q) F).modPort q fun u => { u with nakTx := true }) :
    u.port q = { s.port q with nakTx := true, rxLine := (u.port q).rxLine, uncorr := (u.port q).uncorr } ∧
    u.rd (pgRunner q) F = min (s.rd (pgRunner q) F + 1) (2 ^ F.width - 1) := by
  obtain ⟨-, hport, hrd⟩ := counted_countLanes s q.isLt false b.lanes
  refine ⟨?_, ?_⟩
  · rw [hu, port_modPort, port_of_sameBut (sameBut_bump _ _ _ _ _) (by decide), hport]
  · rw [hu, rd_modPort, rd_bump_same, hrd F hF]

theorem leads_blockReceive_accepted {s : State} {q : Fin 24} {k : Bytes} {b : Block} (hk : (s.port q).prk = some k) (hst : s.pst q = 6)
    (hsound : (b.lanes.any fun l => l.errors.any beyond) = false) (hseq : b.seq = (s.port q).rxSeq) (hnak : (s.port q).nakTx = false ∨ b.replay = true)
    (htag : b.tag = gcmTag (trafficKey k (!(s.port q).first) (b.seq / 2 ^ 32)) (blockNonce k (!(s.port q).first) b.seq)
      (blockAad b.seq b.ftype b.utype b.poison) b.payload) :
    Leads (.blockReceive q b) s fun t =>
      (t.port q).rxSeq = (s.port q).rxSeq + 1 ∧ (t.port q).nakTx = false ∧ (t.port q).txSeq = (s.port q).txSeq ∧
      (t.port q).rxSync = (s.port q).rxSync ++ (s.delivers q k b).sync ∧
      (t.port q).rxIndigo = (s.port q).rxIndigo ++ (s.delivers q k b).indigo ∧
      (t.port q).rxWoad = (s.port q).rxWoad ++ (s.delivers q k b).woad := by
  obtain ⟨-, hport, -⟩ := counted_countLanes s q.isLt false b.lanes
  obtain ⟨pt, hpt⟩ : ∃ pt, pt = gcmText (trafficKey k (!(s.port q).first) (b.seq / 2 ^ 32)) (blockNonce k (!(s.port q).first) b.seq) b.payload := ⟨_, rfl⟩
  have hd : s.delivers q k b = (List.range 63).foldl (Delivery.flit b pt) { half := ((s.countLanes q false b.lanes).port q).rxHalf } := by
    rw [hport, hpt]
    rfl
  obtain ⟨r, hr⟩ := port_deliverBlock (s.countLanes q false b.lanes) q b pt hd
  generalize s.delivers q k b = d at hr ⊢
  rw [hport] at hr
  obtain ⟨u, hu⟩ : ∃ u, u = (s.countLanes q false b.lanes).deliverBlock q b pt := ⟨_, rfl⟩
  have hexec : exec (.blockReceive q b) s = finish (evented ++ [.runner]) s u := by
    rw [exec_blockReceive hk hst, if_neg (by rw [hsound]; decide), if_neg (block_wanted hseq hnak), if_neg (not_not_intro htag), ← hpt, hu]
  rw [← hu] at hr
  have only : (s.only (evented ++ [.runner]) u).port q = u.port q := rfl
  refine ⟨_, hexec, ?_⟩
  beta_reduce
  rw [only, hr]
  exact ⟨rfl, rfl, rfl, rfl, rfl, rfl⟩

theorem leads_blockReceive_uncorrectable {s : State} {q : Fin 24} {k : Bytes} {b : Block} (hk : (s.port q).prk = some k) (hst : s.pst q = 6)
    (hbad : (b.lanes.any fun l => l.errors.any beyond) = true) :
    Leads (.blockReceive q b) s fun t =>
      t.port q = { s.port q with nakTx := true, rxLine := (t.port q).rxLine, uncorr := (t.port q).uncorr } ∧
      t.rd (pgRunner q) RN_FEC_UNCORR = min (s.rd (pgRunner q) RN_FEC_UNCORR + 1) (2 ^ RN_FEC_UNCORR.width - 1) := by
  obtain ⟨u, hu⟩ : ∃ u, u = ((s.countLanes q false b.lanes).bump (pgRunner q) RN_FEC_UNCORR).modPort q fun u => { u with nakTx := true } := ⟨_, rfl⟩
  have hexec : exec (.blockReceive q b) s = finish (evented ++ [.runner]) s u := by rw [exec_blockReceive hk hst, if_pos hbad, hu]
  obtain ⟨hport, hcount⟩ := nak_shows s b (F := RN_FEC_UNCORR) (by decide) hu
  exact ⟨_, hexec, hport, hcount⟩

theorem leads_blockReceive_unverified {s : State} {q : Fin 24} {k : Bytes} {b : Block} (hk : (s.port q).prk = some k) (hst : s.pst q = 6)
    (hsound : (b.lanes.any fun l => l.errors.any beyond) = false) (hseq : b.seq = (s.port q).rxSeq) (hnak : (s.port q).nakTx = false ∨ b.replay = true)
    (htag : b.tag ≠ gcmTag (trafficKey k (!(s.port q).first) (b.seq / 2 ^ 32)) (blockNonce k (!(s.port q).first) b.seq)
      (blockAad b.seq b.ftype b.utype b.poison) b.payload) :
    Leads (.blockReceive q b) s fun t =>
      t.port q = { s.port q with nakTx := true, rxLine := (t.port q).rxLine, uncorr := (t.port q).uncorr } ∧
      t.rd (pgRunner q) RN_FEC_AUTH_FAIL = min (s.rd (pgRunner q) RN_FEC_AUTH_FAIL + 1) (2 ^ RN_FEC_AUTH_FAIL.width - 1) := by
  obtain ⟨u, hu⟩ : ∃ u, u = ((s.countLanes q false b.lanes).bump (pgRunner q) RN_FEC_AUTH_FAIL).modPort q fun u => { u with nakTx := true } := ⟨_, rfl⟩
  have hexec : exec (.blockReceive q b) s = finish (evented ++ [.runner]) s u := by
    rw [exec_blockReceive hk hst, if_neg (by rw [hsound]; decide), if_neg (block_wanted hseq hnak), if_pos htag, hu]
  obtain ⟨hport, hcount⟩ := nak_shows s b (F := RN_FEC_AUTH_FAIL) (by decide) hu
  exact ⟨_, hexec, hport, hcount⟩

/-! ### LCF_RECEIVE (R379, R381) -/

/-- What becomes of an LCF on an ACTIVE port with keys. -/
theorem exec_lcfReceive {s : State} {q : Fin 24} {k : Bytes} {l : Lcf} (hk : (s.port q).prk = some k) (hst : s.pst q = 6)
    {v : State} (hv : v = (s.countLanes q true l.lanes).modPort q fun u => { u with lcfRx := (s.port q).lcfRx + 1 }) :
    exec (.lcfReceive q l) s = finish (evented ++ [.runner]) s
      (if l.ltag = lcfTag k (!(s.port q).first) ((s.port q).rxSeq / 2 ^ 32) (s.port q).lcfRx (Machine.Lcf.mid l) then
        if l.req = 5 ∧ (s.port q).asking ∧ s.portFree q then (((v.takeCredits q l).takeAck q l.ack).modPort q fun u =>
          { u with badLtag := 0, nakRx := bit l.flags 1, heard := some l }).beginTraining q
        else ((v.takeCredits q l).takeAck q l.ack).modPort q fun u => { u with badLtag := 0, nakRx := bit l.flags 1, heard := some l }
      else ((v.bump (pgRunner q) RN_FEC_AUTH_FAIL).raise (pgRunner q) ev_RN_AUTH (le 8 (s.port q).lcfRx)).modPort q fun u =>
        { u with badLtag := u.badLtag + 1, heard := none }) := by
  rw [show exec (.lcfReceive q l) s = execLcfReceive q l s from rfl, execLcfReceive]
  dsimp only
  rw [hst, if_neg (by decide), hk]
  dsimp only
  rw [if_neg (by decide), ← hv]

/-- The port whose LCF's lanes are counted, with the LCF's number used. -/
theorem lcfCounted (s : State) {q : Fin 24} (l : Lcf) {v : State}
    (hv : v = (s.countLanes q true l.lanes).modPort q fun u => { u with lcfRx := (s.port q).lcfRx + 1 }) :
    v.port q = { s.port q with lcfRx := (s.port q).lcfRx + 1, rxLine := (v.port q).rxLine, uncorr := (v.port q).uncorr } ∧
    ∀ F : Fld, F.inPage 0 → v.rd (pgRunner q) F = s.rd (pgRunner q) F := by
  obtain ⟨-, hport, hrd⟩ := counted_countLanes s q.isLt true l.lanes
  refine ⟨?_, fun F hF => ?_⟩
  · rw [hv, port_modPort, hport]
  · rw [hv, rd_modPort, hrd F hF]

theorem port_takeAck (s : State) (q ack : Nat) :
    ∃ stall, (s.takeAck q ack).port q = { s.port q with
      unacked := (s.port q).unacked.filter fun b => decide (ack = 2 ^ 64 - 1 ∨ ack < b.seq),
      resend := (s.port q).resend.filter fun r => decide (ack = 2 ^ 64 - 1 ∨ ack < r), stall := stall } :=
  ⟨_, by rw [State.takeAck, port_of_runner (runner_wr _ _ _ _ _), port_modPort]⟩

theorem port_takeCredits (s : State) (q : Nat) (l : Lcf) : (s.takeCredits q l).port q = s.port q :=
  port_of_runner (runner_wrs _ _ _ _) q

/-- Credits come back, held to the receiver's buffers. -/
theorem rd_takeCredits (s : State) (q : Nat) (l : Lcf) (ack : Nat) :
    ((s.takeCredits q l).takeAck q ack).rd (pgRunner q) RN_CREDIT_SYNC = min 64 (s.rd (pgRunner q) RN_CREDIT_SYNC + l.credSync) ∧
    ((s.takeCredits q l).takeAck q ack).rd (pgRunner q) RN_CREDIT_INDIGO = min 256 (s.rd (pgRunner q) RN_CREDIT_INDIGO + l.credIndigo) ∧
    ((s.takeCredits q l).takeAck q ack).rd (pgRunner q) RN_CREDIT_WOAD = min 4096 (s.rd (pgRunner q) RN_CREDIT_WOAD + l.credWoad) := by
  have acked : ∀ (u : State) (F : Fld), F.apart 0 RN_REPLAY_OUTSTANDING 0 → (u.takeAck q ack).rd (pgRunner q) F = u.rd (pgRunner q) F := fun u F hF => by
    rw [State.takeAck, rd_wr_apart _ _ _ _ hF, rd_modPort]
  refine ⟨?_, ?_, ?_⟩
  · rw [acked _ _ (by decide), State.takeCredits, rd_wrs_head _ _ _ _ _ _ (by
      simp [RN_CREDIT_SYNC, RN_CREDIT_INDIGO, RN_CREDIT_WOAD, Fld.apart, Fld.inPage, Fld.at])]
    exact Nat.mod_eq_of_lt (lt_of_le_of_lt (min_le_left _ _) (by decide))
  · rw [acked _ _ (by decide), State.takeCredits, wrs_cons, rd_wrs_head _ _ _ _ _ _ (by
      simp [RN_CREDIT_INDIGO, RN_CREDIT_WOAD, Fld.apart, Fld.inPage, Fld.at])]
    exact Nat.mod_eq_of_lt (lt_of_le_of_lt (min_le_left _ _) (by decide))
  · rw [acked _ _ (by decide), State.takeCredits, wrs_cons, wrs_cons, rd_wrs_head _ _ _ _ _ _ (by decide)]
    exact Nat.mod_eq_of_lt (lt_of_le_of_lt (min_le_left _ _) (by decide))

theorem leads_lcfReceive_good {s : State} {q : Fin 24} {k : Bytes} {l : Lcf} (hk : (s.port q).prk = some k) (hst : s.pst q = 6)
    (htag : l.ltag = lcfTag k (!(s.port q).first) ((s.port q).rxSeq / 2 ^ 32) (s.port q).lcfRx (Machine.Lcf.mid l))
    (hreq : l.req ≠ 5 ∨ (s.port q).asking = false ∨ s.portFree q = false) :
    Leads (.lcfReceive q l) s fun t =>
      (t.port q).lcfRx = (s.port q).lcfRx + 1 ∧ (t.port q).badLtag = 0 ∧ (t.port q).nakRx = bit l.flags 1 ∧ (t.port q).heard = some l ∧
      (t.port q).unacked = (s.port q).unacked.filter (fun b => decide (l.ack = 2 ^ 64 - 1 ∨ l.ack < b.seq)) ∧
      t.rd (pgRunner q) RN_CREDIT_SYNC = min 64 (s.rd (pgRunner q) RN_CREDIT_SYNC + l.credSync) ∧
      t.rd (pgRunner q) RN_CREDIT_INDIGO = min 256 (s.rd (pgRunner q) RN_CREDIT_INDIGO + l.credIndigo) ∧
      t.rd (pgRunner q) RN_CREDIT_WOAD = min 4096 (s.rd (pgRunner q) RN_CREDIT_WOAD + l.credWoad) := by
  obtain ⟨v, hv⟩ : ∃ v, v = (s.countLanes q true l.lanes).modPort q fun u => { u with lcfRx := (s.port q).lcfRx + 1 } := ⟨_, rfl⟩
  obtain ⟨hvport, hvrd⟩ := lcfCounted s l hv
  obtain ⟨stall, hacked⟩ := port_takeAck (v.takeCredits q l) q l.ack
  obtain ⟨hsync, hindigo, hwoad⟩ := rd_takeCredits v q l l.ack
  rw [port_takeCredits, hvport] at hacked
  rw [hvrd _ (by decide)] at hsync hindigo hwoad
  obtain ⟨u, hu⟩ : ∃ u, u = ((v.takeCredits q l).takeAck q l.ack).modPort q fun u => { u with badLtag := 0, nakRx := bit l.flags 1, heard := some l } := ⟨_, rfl⟩
  have hexec : exec (.lcfReceive q l) s = finish (evented ++ [.runner]) s u := by
    rw [exec_lcfReceive hk hst hv, if_pos htag, if_neg, hu]
    rintro ⟨h5, hask, hfree⟩
    rcases hreq with h | h | h
    · exact h h5
    · exact absurd (h.symm.trans hask) (by decide)
    · exact absurd (h.symm.trans hfree) (by decide)
  have hport := port_modPort ((v.takeCredits q l).takeAck q l.ack) q fun u => { u with badLtag := 0, nakRx := bit l.flags 1, heard := some l }
  rw [← hu, hacked] at hport
  have hrd : ∀ F, (s.only (evented ++ [.runner]) u).rd (pgRunner q) F = ((v.takeCredits q l).takeAck q l.ack).rd (pgRunner q) F := fun F => by rw [hu]; rfl
  have only : (s.only (evented ++ [.runner]) u).port q = u.port q := rfl
  refine ⟨_, hexec, ?_⟩
  beta_reduce
  rw [only, hport, hrd, hrd, hrd]
  exact ⟨rfl, rfl, rfl, rfl, rfl, hsync, hindigo, hwoad⟩

theorem leads_lcfReceive_bad {s : State} {q : Fin 24} {k : Bytes} {l : Lcf} (hk : (s.port q).prk = some k) (hst : s.pst q = 6)
    (htag : l.ltag ≠ lcfTag k (!(s.port q).first) ((s.port q).rxSeq / 2 ^ 32) (s.port q).lcfRx (Machine.Lcf.mid l)) :
    Leads (.lcfReceive q l) s fun t =>
      t.port q = { s.port q with lcfRx := (s.port q).lcfRx + 1, badLtag := (s.port q).badLtag + 1, heard := none,
                                 rxLine := (t.port q).rxLine, uncorr := (t.port q).uncorr } ∧
      t.rd (pgRunner q) RN_CREDIT_SYNC = s.rd (pgRunner q) RN_CREDIT_SYNC := by
  obtain ⟨v, hv⟩ : ∃ v, v = (s.countLanes q true l.lanes).modPort q fun u => { u with lcfRx := (s.port q).lcfRx + 1 } := ⟨_, rfl⟩
  obtain ⟨hvport, hvrd⟩ := lcfCounted s l hv
  obtain ⟨w, hw⟩ : ∃ w, w = (v.bump (pgRunner q) RN_FEC_AUTH_FAIL).raise (pgRunner q) ev_RN_AUTH (le 8 (s.port q).lcfRx) := ⟨_, rfl⟩
  have hwport : w.port q = v.port q := by rw [hw, port_raise, port_of_sameBut (sameBut_bump _ _ _ _ _) (by decide)]
  have hwrd : w.rd (pgRunner q) RN_CREDIT_SYNC = s.rd (pgRunner q) RN_CREDIT_SYNC := by
    rw [hw, rd_raise_quiet _ _ _ _ (quietFld_of_place (by decide) (by decide) (by decide) (by decide)), rd_bump_apart _ _ _ _ (by decide), hvrd _ (by decide)]
  obtain ⟨u, hu⟩ : ∃ u, u = w.modPort q fun u => { u with badLtag := u.badLtag + 1, heard := none } := ⟨_, rfl⟩
  have hexec : exec (.lcfReceive q l) s = finish (evented ++ [.runner]) s u := by
    rw [exec_lcfReceive hk hst hv, if_neg htag, hu, hw]
  have hport : u.port q = { s.port q with lcfRx := (s.port q).lcfRx + 1, badLtag := (s.port q).badLtag + 1, heard := none,
                                          rxLine := (u.port q).rxLine, uncorr := (u.port q).uncorr } := by
    rw [hu, port_modPort, hwport, hvport]
  have hrd : u.rd (pgRunner q) RN_CREDIT_SYNC = s.rd (pgRunner q) RN_CREDIT_SYNC := by rw [hu, rd_modPort, hwrd]
  exact ⟨_, hexec, hport, hrd⟩

/-- Settles O47: counting what the lanes saw leaves the port's page and its links' state, and so each block and each LCF does what its checks say. -/
theorem blocksAndLcfsAreReceived : Obligations.BlocksAndLcfsAreReceived := by
  unfold Obligations.BlocksAndLcfsAreReceived
  exact ⟨fun _ _ _ _ => leads_blockReceive_accepted, fun _ _ _ _ => leads_blockReceive_uncorrectable, fun _ _ _ _ => leads_blockReceive_unverified,
    fun _ _ _ _ => leads_lcfReceive_good, fun _ _ _ _ => leads_lcfReceive_bad⟩

end Sys2Proof.Machine
end

section
/-!
Proofs of the family 10_runner_lanes.md: key agreement of a link and its loss (O44).
-/

namespace Sys2Proof.Machine

open Sys2Proof

/-! ### KEYX (R495) -/

/-- A failed agreement is remembered, and the rest of the port stays. -/
theorem port_keyxFail (s : State) (q cause : Nat) : (s.keyxFail q cause).port q = { s.port q with kxFailed := true } := by
  rw [State.keyxFail, port_modPort, port_raise, port_of_sameBut (sameBut_bump _ _ _ _ _) (by decide)]

theorem exec_keyxMessage {s : State} {q : Fin 24} (msg : KxMsg) (hst : s.pst q = 5) (hok : (s.port q).kxFailed = false) :
    exec (.keyxMessage q msg) s = finish (evented ++ [.runner]) s
      (match (s.port q).own, (s.port q).peer, msg with
        | some a, none, .kx1 k => s.takeKx1 q a k
        | some a, some k, .kx2 sig => if (s.port q).prk.isSome then s else s.takeKx2 q a k sig
        | _, _, _ => s) := by
  rw [show exec (.keyxMessage q msg) s = execKeyxMessage q msg s from rfl, execKeyxMessage]
  dsimp only
  rw [if_neg (by rw [hok]; exact fun h => h.elim (fun h => h hst) (fun h => absurd h (by decide)))] <;> rfl

theorem leads_kx1 {s : State} {q : Fin 24} {a k : Kx1} (hst : s.pst q = 5) (hok : (s.port q).kxFailed = false) (hown : (s.port q).own = some a)
    (hpeer : (s.port q).peer = none) (hdevid : (s.certKey k.devid).isSome = true) (halias1 : (s.certKey k.alias1).isSome = true)
    (halias2 : (s.certKey k.alias2).isSome = true) (hlife : s.fuse.life ≠ .deployed ∨ k.life = 2) :
    Leads (.keyxMessage q (.kx1 k)) s fun t =>
      (t.port q).peer = some k ∧ (t.port q).kx2 = s.sign (kxDigest (t.port q).first a k) ∧ (t.port q).kxFailed = false := by
  obtain ⟨dk, hdk⟩ := Option.isSome_iff_exists.mp hdevid
  obtain ⟨k1, hk1⟩ := Option.isSome_iff_exists.mp halias1
  obtain ⟨k2, hk2⟩ := Option.isSome_iff_exists.mp halias2
  obtain ⟨first, hfirst⟩ : ∃ first, first = decide (beNat (sha256 (point s.mordant.devid)) < beNat (sha256 dk)) := ⟨_, rfl⟩
  obtain ⟨sig, hsig⟩ : ∃ sig, sig = s.sign (kxDigest first a k) := ⟨_, rfl⟩
  obtain ⟨u, hu⟩ : ∃ u, u = s.modPort q fun u => { u with peer := some k, first := first, kx2 := sig } := ⟨_, rfl⟩
  have hexec : exec (.keyxMessage q (.kx1 k)) s = finish (evented ++ [.runner]) s { u with free := s.free + 1 } := by
    rw [exec_keyxMessage _ hst hok, hown, hpeer]
    dsimp only
    rw [State.takeKx1, hdk, hk1, hk2]
    dsimp only
    rw [if_neg fun h => hlife.elim (fun h' => h' h.1) h.2, ← hfirst, ← hsig, ← hu]
  have hport := port_modPort s q fun u => { u with peer := some k, first := first, kx2 := sig }
  rw [← hu] at hport
  have only : (s.only (evented ++ [.runner]) { u with free := s.free + 1 }).port q = u.port q := rfl
  refine ⟨_, hexec, ?_⟩
  beta_reduce
  rw [only, hport]
  exact ⟨rfl, hsig, hok⟩

theorem leads_kx1_unchained {s : State} {q : Fin 24} {a k : Kx1} (hst : s.pst q = 5) (hok : (s.port q).kxFailed = false)
    (hown : (s.port q).own = some a) (hpeer : (s.port q).peer = none) (hdevid : s.certKey k.devid = none) :
    Leads (.keyxMessage q (.kx1 k)) s fun t => (t.port q).peer = none ∧ (t.port q).kxFailed = true := by
  obtain ⟨u, hu⟩ : ∃ u, u = s.keyxFail q 0 := ⟨_, rfl⟩
  have hexec : exec (.keyxMessage q (.kx1 k)) s = finish (evented ++ [.runner]) s u := by
    rw [exec_keyxMessage _ hst hok, hown, hpeer, hu]
    dsimp only
    rw [State.takeKx1, hdevid]
  have hport := port_keyxFail s q 0
  rw [← hu] at hport
  have only : (s.only (evented ++ [.runner]) u).port q = u.port q := rfl
  refine ⟨_, hexec, ?_⟩
  beta_reduce
  rw [only, hport]
  exact ⟨hpeer, rfl⟩

theorem leads_kx2 {s : State} {q : Fin 24} {a k : Kx1} {key z sig : Bytes} (hst : s.pst q = 5) (hok : (s.port q).kxFailed = false)
    (hown : (s.port q).own = some a) (hpeer : (s.port q).peer = some k) (hprk : (s.port q).prk = none) (hkey : s.certKey k.alias2 = some key)
    (hz : shared (s.port q).eph k.epk = some z) (hsig : verify key (kxDigest (s.port q).first a k) sig = true) :
    Leads (.keyxMessage q (.kx2 sig)) s fun t =>
      (t.port q).prk = some (extract (if (s.port q).first then a.nonce ++ k.nonce else k.nonce ++ a.nonce) z) ∧
      bit (t.rd pgMordant MD_LINKS_KEYED) q = true := by
  obtain ⟨prk, hp⟩ : ∃ prk, prk = extract (if (s.port q).first then a.nonce ++ k.nonce else k.nonce ++ a.nonce) z := ⟨_, rfl⟩
  obtain ⟨v, hv⟩ : ∃ v, v = s.modPort q fun u => { u with prk := some prk, loaded := 1 } := ⟨_, rfl⟩
  have hexec : exec (.keyxMessage q (.kx2 sig)) s = finish (evented ++ [.runner]) s
      (v.wr pgMordant MD_LINKS_KEYED (setBit (s.rd pgMordant MD_LINKS_KEYED) q true)) := by
    rw [exec_keyxMessage _ hst hok, hown, hpeer]
    dsimp only
    rw [hprk, if_neg (by decide), State.takeKx2]
    dsimp only
    rw [hkey, hz]
    dsimp only
    rw [if_pos hsig, ← hp, hv]
  have hport := port_modPort s q fun u => { u with prk := some prk, loaded := 1 }
  rw [← hv] at hport
  have only : (s.only (evented ++ [.runner]) (v.wr pgMordant MD_LINKS_KEYED (setBit (s.rd pgMordant MD_LINKS_KEYED) q true))).port q = v.port q := rfl
  refine ⟨_, hexec, ?_, ?_⟩
  · rw [only, hport, ← hp]
  · have hrd : (s.only (evented ++ [.runner]) (v.wr pgMordant MD_LINKS_KEYED (setBit (s.rd pgMordant MD_LINKS_KEYED) q true))).rd pgMordant MD_LINKS_KEYED =
        setBit (s.rd pgMordant MD_LINKS_KEYED) q true % 2 ^ 24 := rd_wr_same v pgMordant MD_LINKS_KEYED _ 0
    rw [bit, hrd, Nat.testBit_mod_two_pow, testBit_setBit_true, decide_eq_true q.isLt, Bool.and_self]

theorem leads_kx2_unverified {s : State} {q : Fin 24} {a k : Kx1} {key sig : Bytes} (hst : s.pst q = 5) (hok : (s.port q).kxFailed = false)
    (hown : (s.port q).own = some a) (hpeer : (s.port q).peer = some k) (hprk : (s.port q).prk = none) (hkey : s.certKey k.alias2 = some key)
    (hsig : verify key (kxDigest (s.port q).first a k) sig = false) :
    Leads (.keyxMessage q (.kx2 sig)) s fun t => (t.port q).prk = none ∧ (t.port q).kxFailed = true := by
  obtain ⟨u, hu⟩ : ∃ u, u = s.keyxFail q 2 := ⟨_, rfl⟩
  have hexec : exec (.keyxMessage q (.kx2 sig)) s = finish (evented ++ [.runner]) s u := by
    rw [exec_keyxMessage _ hst hok, hown, hpeer]
    dsimp only
    rw [hprk, if_neg (by decide), State.takeKx2]
    dsimp only
    rw [hkey, ← hu]
    rcases shared (s.port q).eph k.epk with - | z
    · rfl
    · dsimp only
      rw [if_neg (by rw [hsig]; decide)]
  have hport := port_keyxFail s q 2
  rw [← hu] at hport
  have only : (s.only (evented ++ [.runner]) u).port q = u.port q := rfl
  refine ⟨_, hexec, ?_⟩
  beta_reduce
  rw [only, hport]
  exact ⟨hprk, rfl⟩

/-! ### Key switches and loss of the link (R382, R384) -/

/-- A link that is lost trains anew, with nothing of its keys or blocks. -/
theorem linkLost_shows (s : State) (q cause : Nat) :
    (s.linkLost q cause).pst q = 1 ∧ ((s.linkLost q cause).port q).prk = none ∧ ((s.linkLost q cause).port q).unacked = [] ∧
    ((s.linkLost q cause).port q).resend = [] := by
  rw [State.linkLost, State.dropLink]
  exact ⟨pst_beginTraining _ q, by rw [port_beginTraining]; rfl, by rw [port_beginTraining]; rfl, by rw [port_beginTraining]; rfl⟩

theorem exec_trafficKeySwitch {s : State} {q : Fin 24} (hst : s.pst q = 6) (hseq : (s.port q).txSeq = (s.rd (pgRunner q) RN_KEY_INDEX + 1) * 2 ^ 32) :
    exec (.trafficKeySwitch q) s = finish (evented ++ [.resets, .hall, .runner, .gcores]) s
      (if s.rd (pgRunner q) RN_KEY_INDEX + 1 < (s.port q).loaded then s.wr (pgRunner q) RN_KEY_INDEX (s.rd (pgRunner q) RN_KEY_INDEX + 1)
        else s.linkLost q 3) := by
  rw [show exec (.trafficKeySwitch q) s = execTrafficKeySwitch q s from rfl, execTrafficKeySwitch]
  dsimp only
  rw [if_pos ⟨hst, hseq⟩]

theorem leads_trafficKeySwitch {s : State} {q : Fin 24} (hst : s.pst q = 6)
    (hseq : (s.port q).txSeq = (s.rd (pgRunner q) RN_KEY_INDEX + 1) * 2 ^ 32) (hloaded : s.rd (pgRunner q) RN_KEY_INDEX + 1 < (s.port q).loaded) :
    Leads (.trafficKeySwitch q) s fun t =>
      t.rd (pgRunner q) RN_KEY_INDEX = (s.rd (pgRunner q) RN_KEY_INDEX + 1) % 2 ^ RN_KEY_INDEX.width ∧ s.sameBut [.regs] t := by
  have hexec := exec_trafficKeySwitch hst hseq
  rw [if_pos hloaded] at hexec
  exact ⟨_, hexec, rd_wr_same s (pgRunner q) RN_KEY_INDEX _ 0, sameBut_only_of (sameBut_wr _ _ _ _ _)⟩

theorem leads_trafficKeySwitch_absent {s : State} {q : Fin 24} (hst : s.pst q = 6)
    (hseq : (s.port q).txSeq = (s.rd (pgRunner q) RN_KEY_INDEX + 1) * 2 ^ 32) (hloaded : (s.port q).loaded ≤ s.rd (pgRunner q) RN_KEY_INDEX + 1) :
    Leads (.trafficKeySwitch q) s fun t => t.pst q = 1 ∧ (t.port q).prk = none := by
  have hexec := exec_trafficKeySwitch hst hseq
  rw [if_neg (Nat.not_lt.mpr hloaded)] at hexec
  obtain ⟨hpst, hprk, -, -⟩ := linkLost_shows s q 3
  generalize s.linkLost q 3 = u at hexec hpst hprk
  exact ⟨_, hexec, hpst, hprk⟩

theorem leads_linkLoss {s : State} {q : Fin 24} {cause : Fin 4} (hst : s.pst q = 6)
    (h : (cause.val = 0 ∧ (∃ b ∈ (s.port q).unacked, 4 ≤ b.resent)) ∨ (cause.val = 1 ∧ 1024 ≤ (s.port q).stall) ∨
      (cause.val = 2 ∧ 64 ≤ (s.port q).badLtag)) :
    Leads (.linkLoss q cause) s fun t =>
      t.pst q = 1 ∧ (t.port q).prk = none ∧ (t.port q).unacked = [] ∧ (t.port q).resend = [] := by
  have hexec : exec (.linkLoss q cause) s = finish (evented ++ [.resets, .hall, .runner, .gcores]) s (s.linkLost q cause) := by
    rw [show exec (.linkLoss q cause) s = execLinkLoss q cause s from rfl, execLinkLoss]
    dsimp only
    refine congrArg _ (if_pos ⟨hst, ?_⟩)
    rcases h with ⟨hc, b, hb, hresent⟩ | ⟨hc, hstall⟩ | ⟨hc, hbad⟩ <;> rw [hc]
    · exact List.any_eq_true.mpr ⟨b, hb, decide_eq_true hresent⟩
    · exact decide_eq_true hstall
    · exact decide_eq_true hbad
  obtain ⟨hpst, hprk, hun, hresend⟩ := linkLost_shows s q cause
  generalize s.linkLost q cause = u at hexec hpst hprk hun hresend
  exact ⟨_, hexec, hpst, hprk, hun, hresend⟩

theorem leads_linkLoss_none {s : State} {q : Fin 24} (cause : Fin 4) (hst : s.pst q ≠ 6) : Leads (.linkLoss q cause) s fun t => s.sameBut [] t := by
  refine leads_unchanged (l := evented ++ [.resets, .hall, .runner, .gcores]) ?_
  rw [show exec (.linkLoss q cause) s = execLinkLoss q cause s from rfl, execLinkLoss]
  dsimp only
  rw [if_neg fun h => hst h.1]

/-- Settles O44: each message of the agreement changes the keys that it names, and a link that is lost trains with nothing of them. -/
theorem linkKeysAndLoss : Obligations.LinkKeysAndLoss := by
  unfold Obligations.LinkKeysAndLoss
  exact ⟨fun _ _ _ _ => leads_kx1, fun _ _ _ _ => leads_kx1_unchained, fun _ _ _ _ _ _ _ => leads_kx2, fun _ _ _ _ _ _ => leads_kx2_unverified,
    fun _ _ => leads_trafficKeySwitch, fun _ _ => leads_trafficKeySwitch_absent, fun _ _ _ => leads_linkLoss, fun _ _ cause => leads_linkLoss_none cause⟩

end Sys2Proof.Machine
end

section
/-!
Proofs of the family 10_runner_lanes.md: a port's width, a partner's retraining, and the margins of its eyes (O45).
-/

namespace Sys2Proof.Machine

open Sys2Proof

/-! ### Lanes that fail (R395, R396) -/

theorem lanePage_inj {q l l' : Nat} (h : lanePage q l = lanePage q l') : l = l' := by
  simp only [lanePage, pgLane, pageId] at h
  omega

theorem pgType_lanePage {q l : Nat} (hq : q < 24) (hl : l < 8) : pgType (lanePage q l) = 0x0041 := by
  simp only [pgType, lanePage, pgLane, pageId]
  omega

/-- Field STATE of a lane, which no event writes. -/
theorem quietFld_laneState {q l : Nat} (hq : q < 24) (hl : l < 8) : quietFld (lanePage q l) RN_LSTAT_STATE 0 :=
  quietFld_of_page (by decide) (by decide) (by rw [pgType_lanePage hq hl]; decide) (by simp only [lanePage, pgLane, pgEv, pageId]; omega)

theorem mem_lanesOf_half {h l : Nat} (hh : h < 2) : l ∈ lanesOf (h + 1) ↔ 4 * h ≤ l ∧ l < 4 * h + 4 := by
  interval_cases h <;> simp only [lanesOf, List.mem_cons, List.not_mem_nil, or_false] <;> omega

/-- The port with one lane marked failed. -/
def laneFailed (s : State) (q l : Nat) : State := (s.wr (lanePage q l) RN_LSTAT_STATE 3).wr (lanePage q l) RN_LSTAT_FEC_LOCK 0

theorem rd_laneFailed (s : State) (q l l' : Nat) :
    (laneFailed s q l).rd (lanePage q l') RN_LSTAT_STATE = if l' = l then 3 else s.rd (lanePage q l') RN_LSTAT_STATE := by
  rw [laneFailed, rd_wr_apart _ _ _ _ (by decide)]
  split
  · next h => rw [h]; exact rd_wr_fits s (lanePage q l) RN_LSTAT_STATE (v := 3) 0 (by decide)
  · next h => exact rd_wr_page s 3 (fun h' => h (lanePage_inj h')) (by decide) (by decide)

/-- Of a sound port with one failed lane, the other half is good. -/
theorem halfGood_laneFailed {s : State} {q l h : Nat} (hl : l < 8) (hh : h < 2) (hsound : ∀ l, l < 8 → s.rd (lanePage q l) RN_LSTAT_STATE ≠ 3) :
    (laneFailed s q l).halfGood q h = decide (¬ (4 * h ≤ l ∧ l < 4 * h + 4)) := by
  rw [State.halfGood, Bool.eq_iff_iff, List.all_eq_true, decide_eq_true_iff]
  constructor
  · intro hall hin
    have hbad := of_decide_eq_true (hall l ((mem_lanesOf_half hh).mpr hin))
    rw [rd_laneFailed, if_pos rfl] at hbad
    exact hbad rfl
  · intro hout l' hl'
    have hin := (mem_lanesOf_half hh).mp hl'
    rw [decide_eq_true_iff, rd_laneFailed, if_neg (by rintro rfl; exact hout hin)]
    exact hsound l' (by omega)

theorem runner_redescribe (s : State) : s.redescribe.runner = s.runner := redescribe_same s (k := .runner) (by decide)

theorem leads_runnerLaneFailure {s : State} {q : Fin 24} {x : LaneFault} (hst : s.pst q = 6) (hwidth : s.pwidth q = 3) (hfails : s.laneFails q x = true)
    (hsound : ∀ l, l < 8 → s.rd (lanePage q l) RN_LSTAT_STATE ≠ 3) :
    Leads (.runnerLaneFailure q x) s fun t =>
      t.rd (lanePage q x.lane) RN_LSTAT_STATE = 3 ∧ (t.port q).narrow = some (if x.lane.val < 4 then 1 else 0) ∧
      (t.port q).linkReq = 1 ∧ (t.port q).linkArg = (if x.lane.val < 4 then 1 else 0) ∧ t.pwidth q = 3 := by
  have hl := x.lane.isLt
  obtain ⟨v, hv⟩ : ∃ v, v = laneFailed s q x.lane := ⟨_, rfl⟩
  have hgood0 := halfGood_laneFailed (q := q) (h := 0) hl (by decide) hsound
  have hgood1 := halfGood_laneFailed (q := q) (h := 1) hl (by decide) hsound
  rw [← hv] at hgood0 hgood1
  obtain ⟨h, hh⟩ : ∃ h, h = if x.lane.val < 4 then 1 else 0 := ⟨_, rfl⟩
  obtain ⟨w, hw⟩ : ∃ w, w = v.modPort q fun u => { u with linkReq := 1, linkArg := h, narrow := some h } := ⟨_, rfl⟩
  obtain ⟨u, hu⟩ : ∃ u, u = w.raise (pgRunner q) ev_RN_NARROW (le 1 x.lane.val ++ le 1 h) := ⟨_, rfl⟩
  have hhalf : (if v.halfGood q 0 then 0 else 1) = h := by
    rw [hgood0, hh]
    by_cases hlow : x.lane.val < 4
    · rw [if_pos hlow, if_neg (by rw [decide_eq_true_iff]; omega)]
    · rw [if_neg hlow, if_pos (by rw [decide_eq_true_iff]; omega)]
  have hexec : exec (.runnerLaneFailure q x) s = finish (evented ++ [.resets, .descs, .hall, .runner, .gcores]) s u.redescribe := by
    rw [show exec (.runnerLaneFailure q x) s = execRunnerLaneFailure q x s from rfl, execRunnerLaneFailure, finishD]
    dsimp only
    rw [if_neg, ← laneFailed, ← hv, if_neg, hhalf, ← hw, ← hu]
    · rw [hwidth, hgood0, hgood1]
      simp only [ne_eq, not_true_eq_false, false_or, Bool.and_eq_true, Bool.not_eq_true', decide_eq_false_iff_not, not_not]
      omega
    · rw [hst, hwidth, hfails]
      simp only [ne_eq, not_true_eq_false, Bool.not_true, Bool.false_eq_true, or_false, false_or, lanesOf, Bool.not_eq_true']
      simp only [List.contains_eq_mem, decide_eq_false_iff_not, not_not, List.mem_cons, List.not_mem_nil, or_false]
      omega
  have hport : (s.only (evented ++ [.resets, .descs, .hall, .runner, .gcores]) u.redescribe).port q =
      { s.port q with linkReq := 1, linkArg := h, narrow := some h } := by
    have hred : u.redescribe.port q = u.port q := port_of_runner (runner_redescribe u) q
    refine Eq.trans hred ?_
    rw [hu, port_raise, hw, port_modPort, hv]
    rfl
  have hrd : ∀ pg F, quietFld pg F 0 → (s.only (evented ++ [.resets, .descs, .hall, .runner, .gcores]) u.redescribe).rd pg F = v.rd pg F := fun pg F hF => by
    refine Eq.trans (rd_redescribe u hF) ?_
    rw [hu, rd_raise_quiet _ _ _ _ hF, hw, rd_modPort]
  refine ⟨_, hexec, ?_⟩
  beta_reduce
  rw [hport, hrd _ _ (quietFld_laneState q.isLt hl), State.pwidth, hrd _ _ (quietFld_of_place (by decide) (by decide) (by decide) (by decide)), hv,
    rd_laneFailed, if_pos rfl, ← hh, laneFailed, rd_lane_wr q.isLt _ _ _ _ (by decide) (by decide), rd_lane_wr q.isLt _ _ _ _ (by decide) (by decide)]
  exact ⟨rfl, rfl, rfl, rfl, hwidth⟩

theorem leads_runnerLaneFailure_none {s : State} {q : Fin 24} {x : LaneFault} (hfails : s.laneFails q x = false) :
    Leads (.runnerLaneFailure q x) s fun t => t.runner = s.runner ∧ t.hall = s.hall ∧ t.resets = s.resets := by
  have hexec : exec (.runnerLaneFailure q x) s = finish (evented ++ [.resets, .descs, .hall, .runner, .gcores]) s s.redescribe := by
    rw [show exec (.runnerLaneFailure q x) s = execRunnerLaneFailure q x s from rfl, execRunnerLaneFailure, finishD]
    dsimp only
    rw [if_pos (.inr (.inr (by rw [hfails]; rfl)))]
  exact ⟨_, hexec, runner_redescribe s, redescribe_same s (k := .hall) (by decide), redescribe_same s (k := .resets) (by decide)⟩

/-! ### NARROW and RETRAIN (R369, R397) -/

/-- The lanes that the port leaves are idle, or failed. -/
theorem lanesLeft_keeps (s : State) {q : Nat} (hq : q < 24) (ls : List Nat) {t : State} (ht : t = ls.foldl (fun s l =>
      (if s.rd (lanePage q l) RN_LSTAT_STATE = 3 then s else s.wr (lanePage q l) RN_LSTAT_STATE 0).wr (lanePage q l) RN_LSTAT_FEC_LOCK 0) s) :
    t.runner = s.runner ∧ ∀ F : Fld, F.inPage 0 → t.rd (pgRunner q) F = s.rd (pgRunner q) F := by
  rw [ht]
  refine ⟨runner_foldl _ (fun u l => ?_) ls s, fun F hF => rd_lanes _ ls (fun u l => ?_) s⟩
  · rw [runner_wr]
    split <;> rfl
  · rw [rd_lane_wr hq _ _ _ _ hF (by decide)]
    split
    · rfl
    · rw [rd_lane_wr hq _ _ _ _ hF (by decide)]

/-- A port narrowed to a half: its width, its figures, and no NARROW that waits. -/
theorem narrowTo_shows (s : State) {q h : Nat} (hq : q < 24) (hh : h < 2) :
    (s.narrowTo q h).pwidth q = h + 1 ∧
    (s.narrowTo q h).rd (pgRunner q) RN_DL_SCHED_WORDS = schedWords (s.prate q) (h + 1) % 2 ^ RN_DL_SCHED_WORDS.width ∧
    (s.narrowTo q h).port q = { s.port q with shown := ((s.narrowTo q h).port q).shown, narrow := none, heard := none } := by
  obtain ⟨v, hv⟩ : ∃ v, v = (lanesOf (2 - h)).foldl (fun s l =>
      (if s.rd (lanePage q l) RN_LSTAT_STATE = 3 then s else s.wr (lanePage q l) RN_LSTAT_STATE 0).wr (lanePage q l) RN_LSTAT_FEC_LOCK 0) s := ⟨_, rfl⟩
  obtain ⟨hrunner, hrd⟩ := lanesLeft_keeps s hq (lanesOf (2 - h)) hv
  obtain ⟨w, hw⟩ : ∃ w, w = v.wr (pgRunner q) RN_PSTAT_WIDTH (h + 1) := ⟨_, rfl⟩
  have hwidth : w.pwidth q = h + 1 := by rw [hw]; exact rd_wr_fits v _ RN_PSTAT_WIDTH 0 (by change h + 1 < 4; omega)
  have hrate : w.prate q = s.prate q := by rw [State.prate, hw, rd_wr_apart _ _ _ _ (by decide), hrd _ (by decide)]; rfl
  have heq : s.narrowTo q h = (w.setFigures q).modPort q fun u => { u with narrow := none, heard := none } := by rw [hw, hv]; rfl
  rw [heq]
  refine ⟨?_, ?_, ?_⟩
  · rw [State.pwidth, rd_modPort, State.setFigures, rd_modPort, rd_wrs_apart _ _ _ _ (by
      simp [RN_PSTAT_WIDTH, RN_DL_SLOTS, RN_DL_SCHED_WORDS, RN_PSTAT_SCHED_OK, Fld.apart, Fld.inPage, Fld.at])]
    exact hwidth
  · rw [rd_modPort, State.setFigures, rd_modPort, wrs_cons, rd_wrs_head _ _ _ _ _ _ (by
      simp [RN_DL_SCHED_WORDS, RN_PSTAT_SCHED_OK, Fld.apart, Fld.inPage, Fld.at]), hrate, hwidth]
  · rw [port_modPort, State.setFigures, port_modPort, port_of_runner (runner_wrs _ _ _ _), hw, port_of_runner (runner_wr _ _ _ _ _),
      port_of_runner hrunner]

theorem exec_narrow {s : State} {q : Fin 24} {upper : Bool} (hst : s.pst q = 6) (hwidth : s.pwidth q = 3) (hhears : s.hears q 1 = true)
    (harg : (s.port q).heard.map Lcf.arg = some upper.toNat) :
    exec (.narrow q upper) s = finishD (evented ++ [.resets, .descs, .hall, .runner, .gcores]) s
      (match (s.port q).narrow with
        | some h => if h = upper.toNat then s.narrowTo q h else s.lanesLost q
        | none => { (((s.modPort q fun u => { u with linkReq := 1, linkArg := upper.toNat }).raise (pgRunner q) ev_RN_NARROW
            ([Config.freeByte s.free 0] ++ le 1 upper.toNat)).narrowTo q upper.toNat) with free := s.free + 1 }) := by
  rw [show exec (.narrow q upper) s = execNarrow q upper s from rfl, execNarrow]
  have heard : ¬(s.pst q ≠ 6 ∨ s.pwidth q ≠ 3 ∨ (!s.hears q 1) = true ∨ (s.port q).heard.map Lcf.arg ≠ some upper.toNat) := by
    rw [hst, hwidth, hhears, harg]
    simp
  dsimp only
  rw [if_neg heard] <;> rfl

/-- What a port narrowed shows once the descriptions are brought up to date. -/
theorem narrowed_shown (s : State) {q : Nat} (u : State) {t : State}
    (ht : t = s.only (evented ++ [.resets, .descs, .hall, .runner, .gcores]) u.redescribe) :
    t.pwidth q = u.pwidth q ∧ t.rd (pgRunner q) RN_DL_SCHED_WORDS = u.rd (pgRunner q) RN_DL_SCHED_WORDS ∧ t.port q = u.port q := by
  subst ht
  exact ⟨rd_redescribe u (quietFld_of_place (by decide) (by decide) (by decide) (by decide)),
    rd_redescribe u (quietFld_of_place (by decide) (by decide) (by decide) (by decide)), port_of_runner (runner_redescribe u) q⟩

theorem leads_narrow_echoed {s : State} {q : Fin 24} {upper : Bool} (hst : s.pst q = 6) (hwidth : s.pwidth q = 3) (hnone : (s.port q).narrow = none)
    (hhears : s.hears q 1 = true) (harg : (s.port q).heard.map Lcf.arg = some upper.toNat) :
    Leads (.narrow q upper) s fun t =>
      t.pwidth q = upper.toNat + 1 ∧ (t.port q).linkReq = 1 ∧ (t.port q).linkArg = upper.toNat ∧
      t.rd (pgRunner q) RN_DL_SCHED_WORDS = schedWords (s.prate q) (upper.toNat + 1) % 2 ^ RN_DL_SCHED_WORDS.width := by
  obtain ⟨v, hv⟩ : ∃ v, v = (s.modPort q fun u => { u with linkReq := 1, linkArg := upper.toNat }).raise (pgRunner q) ev_RN_NARROW
      ([Config.freeByte s.free 0] ++ le 1 upper.toNat) := ⟨_, rfl⟩
  have hvport : v.port q = { s.port q with linkReq := 1, linkArg := upper.toNat } := by rw [hv, port_raise, port_modPort]
  have hrate : v.prate q = s.prate q := by
    rw [State.prate, hv, rd_raise_quiet _ _ _ _ (quietFld_of_place (by decide) (by decide) (by decide) (by decide)), rd_modPort]
    rfl
  obtain ⟨hw, hwords, hport⟩ := narrowTo_shows v q.isLt (h := upper.toNat) (by cases upper <;> decide)
  obtain ⟨u, hu⟩ : ∃ u, u = v.narrowTo q upper.toNat := ⟨_, rfl⟩
  rw [← hu] at hw hwords hport
  have hexec := exec_narrow hst hwidth hhears harg
  rw [hnone] at hexec
  dsimp only at hexec
  rw [← hv, ← hu, finishD] at hexec
  obtain ⟨h1, h2, h3⟩ := narrowed_shown s (q := q) { u with free := s.free + 1 } rfl
  refine ⟨_, hexec, ?_⟩
  beta_reduce
  rw [h1, h2, h3]
  refine ⟨hw, ?_, ?_, hwords.trans (by rw [hrate])⟩
  · exact (congrArg RPort.linkReq hport).trans (by rw [hvport])
  · exact (congrArg RPort.linkArg hport).trans (by rw [hvport])

theorem leads_narrow_agreed {s : State} {q : Fin 24} {upper : Bool} (hst : s.pst q = 6) (hwidth : s.pwidth q = 3)
    (hnamed : (s.port q).narrow = some upper.toNat) (hhears : s.hears q 1 = true) (harg : (s.port q).heard.map Lcf.arg = some upper.toNat) :
    Leads (.narrow q upper) s fun t => t.pwidth q = upper.toNat + 1 ∧ (t.port q).narrow = none := by
  obtain ⟨hw, -, hport⟩ := narrowTo_shows s q.isLt (h := upper.toNat) (by cases upper <;> decide)
  obtain ⟨u, hu⟩ : ∃ u, u = s.narrowTo q upper.toNat := ⟨_, rfl⟩
  rw [← hu] at hw hport
  have hexec := exec_narrow hst hwidth hhears harg
  rw [hnamed] at hexec
  dsimp only at hexec
  rw [if_pos rfl, ← hu, finishD] at hexec
  obtain ⟨h1, -, h3⟩ := narrowed_shown s (q := q) u rfl
  refine ⟨_, hexec, ?_⟩
  beta_reduce
  rw [h1, h3]
  exact ⟨hw, congrArg RPort.narrow hport⟩

theorem leads_retrain {s : State} {q : Fin 24} (hst : s.pst q = 6) (hfree : s.portFree q = true) (hhears : s.hears q 2 = true) :
    Leads (.retrain q) s fun t =>
      t.port q = { s.port q with linkReq := 5, accepted := true, heard := none } ∧ s.sameBut [.runner] t := by
  have hexec : exec (.retrain q) s = finish [.runner] s (s.modPort q fun u => { u with linkReq := 5, accepted := true, heard := none }) := by
    rw [show exec (.retrain q) s = execRetrain q s from rfl, execRetrain, if_pos ⟨hst, hfree, hhears⟩]
  have hport := port_modPort s q fun u => { u with linkReq := 5, accepted := true, heard := none }
  exact ⟨_, hexec, hport, sameBut_only _ _ _⟩

theorem leads_retrain_none {s : State} {q : Fin 24} (h : s.portFree q = false ∨ s.hears q 2 = false) : Leads (.retrain q) s fun t => s.sameBut [] t := by
  refine leads_unchanged (l := [.runner]) ?_
  rw [show exec (.retrain q) s = execRetrain q s from rfl, execRetrain, if_neg]
  rintro ⟨-, hfree, hhears⟩
  rcases h with h | h
  · exact absurd (h.symm.trans hfree) (by decide)
  · exact absurd (h.symm.trans hhears) (by decide)

/-! ### Eye scans (R393, R394) -/

theorem find?_ains {α : Type} (k : Nat) (v : α) (m : List (Nat × α)) : (ains k v m).find? (fun e => decide (e.1 = k)) = some (k, v) := by
  induction m with
  | nil => simp [ains]
  | cons e m ih =>
    rw [ains]
    split
    · simp
    · split
      · simp
      · next h => rw [List.find?_cons_of_neg (by simpa using fun h' : e.1 = k => h h'.symm), ih]

theorem armMargin_le {f : Nat → Nat} {n d : Nat} (h : armMargin f n = some d) : d ≤ n :=
  Nat.lt_succ_iff.mp (List.mem_range.mp (List.mem_of_find?_eq_some h))

/-- A margin lies within the arms, where the value that stands for one without errors does. -/
theorem twoArms_le {f g : Nat → Nat} {m n b x : Nat} (hm : m ≤ b) (hn : n ≤ b) (hx : x ≤ b) : twoArms (armMargin f m) (armMargin g n) x ≤ b := by
  rcases hf : armMargin f m with - | d <;> rcases hg : armMargin g n with - | e
  · exact hx
  · exact (armMargin_le hg).trans hn
  · exact (armMargin_le hf).trans hm
  · exact (min_le_left d e).trans ((armMargin_le hf).trans hm)

theorem gridMargins_lt (g : List (Nat × Nat)) (f1 f2 : Nat) : (gridMargins g (f1 % 33) (f2 % 33)).1 < 255 :=
  lt_of_le_of_lt (twoArms_le (b := 32) (by decide) (by decide) (by omega)) (by decide)

/-- What the end of a pass over one eye shows: the eye, and a pass more. -/
theorem eyesDone_one (s : State) {q l e : Nat} {m : Nat × Nat} (hq : q < 24) (hm : m.1 < 255) (he : e < 4) :
    (s.eyesDone q l [(e, m)]).port q = s.port q ∧
    (s.eyesDone q l [(e, m)]).rd (lanePage q l) RN_EYE_MARGIN_EYE = e ∧
    (s.eyesDone q l [(e, m)]).rd (lanePage q l) RN_EYE_MARGIN_PASSES =
      min (s.rd (lanePage q l) RN_EYE_MARGIN_PASSES + 1) (2 ^ RN_EYE_MARGIN_PASSES.width - 1) := by
  obtain ⟨v, hv⟩ : ∃ v, v = (s.wrs (lanePage q l) [(RN_EYE_MARGIN_PHASE, m.1), (RN_EYE_MARGIN_VOLT, m.2), (RN_EYE_MARGIN_EYE, e)]).bump (lanePage q l)
      RN_EYE_MARGIN_PASSES := ⟨_, rfl⟩
  obtain ⟨w, hw⟩ : ∃ w, w = v.ageMoved { seq := 0, unit := lanePage q l, hours := 0, kind := 4, index := l, phase := m.1, volt := m.2 } := ⟨_, rfl⟩
  have hwv : w.port q = v.port q ∧ ∀ pg F, w.rd pg F = v.rd pg F := by
    rw [hw, State.ageMoved]
    dsimp only
    split
    · exact ⟨rfl, fun _ _ => rfl⟩
    · split <;> exact ⟨rfl, fun _ _ => rfl⟩
  have heq : s.eyesDone q l [(e, m)] = if m.1 < s.rd (lanePage q l) RN_MARGIN_MIN_PHASE ∨ m.2 < s.rd (lanePage q l) RN_MARGIN_MIN_VOLT then
      (w.wr (pgRunner q) RN_PSTAT_RETRAIN_DUE 1).raise (pgRunner q) ev_RN_MARGIN_LOW (le 1 l ++ le 1 e ++ le 1 m.1 ++ le 1 m.2) else w := by
    rw [State.eyesDone]
    simp only [List.foldl_cons, List.foldl_nil, List.any_cons, List.any_nil, Bool.or_false, decide_eq_true_eq]
    rw [if_pos (lt_of_le_of_lt (min_le_left _ _) (by rw [min_self]; exact hm)), ← hv, ← hw]
  have hkeep : (s.eyesDone q l [(e, m)]).port q = w.port q ∧ ∀ F, F.inPage 0 → quietFld (lanePage q l) F 0 →
      (s.eyesDone q l [(e, m)]).rd (lanePage q l) F = w.rd (lanePage q l) F := by
    rw [heq]
    split
    · refine ⟨by rw [port_raise, port_of_runner (runner_wr _ _ _ _ _)], fun F hin hF => ?_⟩
      rw [rd_raise_quiet _ _ _ _ hF, rd_wr_page _ _ (lanePage_ne_pgRunner hq q l).symm hin (by decide)]
    · exact ⟨rfl, fun _ _ _ => rfl⟩
  refine ⟨?_, ?_, ?_⟩
  · rw [hkeep.1, hwv.1, hv, port_of_sameBut (sameBut_bump _ _ _ _ _) (by decide), port_of_runner (runner_wrs _ _ _ _)]
  · rw [hkeep.2 _ (by decide) (quietFld_of_place (by decide) (by decide) (by decide) (by decide)), hwv.2, hv, rd_bump_apart _ _ _ _ (by decide), wrs_cons, wrs_cons,
      wrs_cons, wrs_nil]
    exact rd_wr_fits _ _ RN_EYE_MARGIN_EYE 0 he
  · rw [hkeep.2 _ (by decide) (quietFld_of_place (by decide) (by decide) (by decide) (by decide)), hwv.2, hv, rd_bump_same, rd_wrs_apart _ _ _ _ (by
      simp [RN_EYE_MARGIN_PASSES, RN_EYE_MARGIN_EYE, RN_EYE_MARGIN_VOLT, RN_EYE_MARGIN_PHASE, Fld.apart, Fld.inPage, Fld.at])]

theorem leads_eyeScanGridEnd {s : State} {q : Fin 24} {lane : Fin 8} {eye : Fin 3} {grid : List (Nat × Nat)} (hst : s.pst q = 6)
    (huse : lane.val ∈ lanesOf (s.pwidth q)) (hon : s.on (lanePage q lane) RN_EYE_CTRL_ENABLE = true)
    (hnamed : s.rd (lanePage q lane) RN_EYE_CTRL_EYE = eye.val + 1) (hturn : s.eyeTurn q lane = some (eye.val + 1)) :
    Leads (.eyeScanGridEnd q lane eye grid) s fun t =>
      aget [] (t.port q).grids (lane.val * 4 + eye.val + 1) = eyeGrid (s.rd (lanePage q lane) RN_EYE_CTRL_DWELL) grid ∧
      t.rd (lanePage q lane) RN_EYE_MARGIN_EYE = eye.val + 1 ∧
      t.rd (lanePage q lane) RN_EYE_MARGIN_PASSES =
        min (s.rd (lanePage q lane) RN_EYE_MARGIN_PASSES + 1) (2 ^ RN_EYE_MARGIN_PASSES.width - 1) := by
  obtain ⟨g, hg⟩ : ∃ g, g = eyeGrid (s.rd (lanePage q lane) RN_EYE_CTRL_DWELL) grid := ⟨_, rfl⟩
  obtain ⟨m, hm⟩ : ∃ m, m = gridMargins g (Config.freeNat s.free % 33) (Config.freeNat (s.free + 1) % 33) := ⟨_, rfl⟩
  obtain ⟨k, hk⟩ : ∃ k, k = lane.val * 4 + (eye.val + 1) := ⟨_, rfl⟩
  obtain ⟨v, hv⟩ : ∃ v, v = State.modPort { s with free := s.free + 2 } q fun u => { u with grids := ains k g u.grids, eyes := ains k m u.eyes } := ⟨_, rfl⟩
  have hvport : v.port q = { s.port q with grids := ains k g (s.port q).grids, eyes := ains k m (s.port q).eyes } := by
    rw [hv, port_modPort, port_free]
  have heyes : v.eyesOf (lanePage q lane) = [eye.val + 1] := by
    have hrd : v.rd (lanePage q lane) RN_EYE_CTRL_EYE = eye.val + 1 := by rw [hv]; exact hnamed
    rw [State.eyesOf, hrd]
    rfl
  obtain ⟨u, hu⟩ : ∃ u, u = v.eyesDone q lane [(eye.val + 1, m)] := ⟨_, rfl⟩
  obtain ⟨hport, heye, hpasses⟩ := eyesDone_one v (q := q) (l := lane) (e := eye.val + 1) (m := m) q.isLt (by rw [hm]; exact gridMargins_lt _ _ _) (by omega)
  rw [← hu] at hport heye hpasses
  have hexec : exec (.eyeScanGridEnd q lane eye grid) s = finish (evented ++ [.ledger, .runner]) s (u.modPort q fun u =>
      { u with eyes := u.eyes.filter fun z => decide (z.1 < lane.val * 4 ∨ lane.val * 4 + 4 ≤ z.1) }) := by
    rw [show exec (.eyeScanGridEnd q lane eye grid) s = execEyeScanGridEnd q lane eye grid s from rfl, execEyeScanGridEnd]
    dsimp only
    rw [if_pos, ← hg, ← hm, ← hk, ← hv, heyes]
    · simp only [List.filterMap_cons, List.filterMap_nil, ← hk, hvport, find?_ains, Option.map_some, List.length_cons, ← hu]
      exact congrArg _ (if_pos rfl)
    · rw [hst, hon, hturn]
      simpa using huse
  have hgrids := port_modPort u q fun u => { u with eyes := u.eyes.filter fun z => decide (z.1 < lane.val * 4 ∨ lane.val * 4 + 4 ≤ z.1) }
  rw [hport, hvport] at hgrids
  have hrd : ∀ F, (u.modPort q fun u => { u with eyes := u.eyes.filter fun z => decide (z.1 < lane.val * 4 ∨ lane.val * 4 + 4 ≤ z.1) }).rd
      (lanePage q lane) F = u.rd (lanePage q lane) F := fun F => rfl
  have hpasses' : v.rd (lanePage q lane) RN_EYE_MARGIN_PASSES = s.rd (lanePage q lane) RN_EYE_MARGIN_PASSES := by rw [hv]; rfl
  refine ⟨_, hexec, ?_, (hrd _).trans heye, (hrd _).trans (hpasses.trans (by rw [hpasses']))⟩
  exact (congrArg (fun u => aget [] (RPort.grids u) (lane.val * 4 + eye.val + 1)) hgrids).trans (by rw [← hg, hk]; exact aget_ains_same _ _ _ _)

theorem leads_eyeScanGridEnd_off {s : State} {q : Fin 24} {lane : Fin 8} (eye : Fin 3) (grid : List (Nat × Nat))
    (hoff : s.on (lanePage q lane) RN_EYE_CTRL_ENABLE = false) : Leads (.eyeScanGridEnd q lane eye grid) s fun t => s.sameBut [] t := by
  refine leads_unchanged (l := evented ++ [.ledger, .runner]) ?_
  rw [show exec (.eyeScanGridEnd q lane eye grid) s = execEyeScanGridEnd q lane eye grid s from rfl, execEyeScanGridEnd]
  dsimp only
  rw [hoff, Bool.and_false, Bool.false_and, if_neg Bool.false_ne_true]

/-- Settles O45: of a sound port the half without the failed lane is good; narrowing writes the width and what follows from it; and a grid in its
turn gives the margins of its eye. -/
theorem widthAndMargins : Obligations.WidthAndMargins := by
  unfold Obligations.WidthAndMargins
  exact ⟨fun _ _ _ => leads_runnerLaneFailure, fun _ _ _ => leads_runnerLaneFailure_none, fun _ _ _ => leads_narrow_echoed,
    fun _ _ _ => leads_narrow_agreed, fun _ _ => leads_retrain, fun _ _ => leads_retrain_none, fun _ _ _ _ _ => leads_eyeScanGridEnd,
    fun _ _ _ eye grid => leads_eyeScanGridEnd_off eye grid⟩

end Sys2Proof.Machine
end

section
/-!
Proofs of the family 10_runner_lanes.md: how a port trains, state by state (O43).
-/

namespace Sys2Proof.Machine

open Sys2Proof

/-! ### A port's state through an event -/

/-- A port's state stays, or a Lampblack event has gated the clocks (Table 16-7). -/
def trainsOrGated (q : Nat) (s t : State) : Prop := t.pst q = s.pst q ∨ t.pins.gated = true

theorem trainsOrGated_act (s : State) (pg sev : Nat) (named : Bool) (q : Nat) : trainsOrGated q s (s.act pg sev named) := by
  unfold State.act
  split
  · exact .inl rfl
  · split
    · exact .inl rfl
    · exact .inl ((linksHold_fenceUnit s pg).2 q)
  · split
    · exact .inl rfl
    · split
      · exact .inl ((linksHold_losePart s _).2 q)
      · exact .inl ((linksHold_foldl _ _ (fun s p _ => linksHold_losePart s p) s).2 q)
  · exact .inr rfl

theorem trainsOrGated_raise (s : State) (pg : Nat) (k : EvKind) (info : Bytes) (q : Nat) : trainsOrGated q s (s.raise pg k info) := by
  have acted : ∀ (u : State) sev named, linksHold s u → trainsOrGated q s (u.act pg sev named) := fun u sev named hu =>
    (trainsOrGated_act u pg sev named q).imp_left fun h => h.trans (hu.2 q)
  simp only [State.raise, State.raiseAt]
  generalize (if decide (k.sev = 1 ∧ s.rd pg PAGE_STAT_LEVEL = 1) = true then 2 else k.sev) = sev
  have header := linksHold_evHeader s pg k.code sev (decide (k.sev = 1 ∧ s.rd pg PAGE_STAT_LEVEL = 1))
  split
  · exact .inl (header.2 q)
  · split
    · exact acted _ _ _ (linksHold_trans header (linksHold_enqueue _ pg _))
    · split
      · exact acted _ _ _ (linksHold_trans header (linksHold_enqueue _ pg _))
      · refine acted _ _ _ (linksHold_trans ?_ (linksHold_deliver _ pg))
        refine linksHold_trans ?_ (linksHold_wr _ pg _ (by decide))
        refine linksHold_trans ?_ (linksHold_hwSet _ pg _ (offLinks_sevField _))
        refine linksHold_trans ?_ (linksHold_hwSet _ pg _ (by decide))
        refine linksHold_trans ?_ (linksHold_hwSet _ pg _ (by decide))
        exact linksHold_trans header (linksHold_of_regs rfl rfl)

theorem trainsOrGated_redescribe (s : State) (q : Nat) : trainsOrGated q s s.redescribe := by
  have notice : ∀ (u : State) p, (u.descNotice p).pst q = u.pst q ∧ (u.pins.gated = true → (u.descNotice p).pins.gated = true) ∨
      (u.descNotice p).pins.gated = true := fun u p => by
    unfold State.descNotice
    split
    · exact .inl ⟨rfl, id⟩
    · dsimp only
      split
      · exact .inl ⟨rfl, id⟩
      · exact (trainsOrGated_raise _ _ _ _ q).imp_left fun h => ⟨h, fun hg => (gated_raise _ _ _ _).1 hg⟩
  unfold State.redescribe
  generalize s.descs.map (fun e => e.1) = l
  induction l generalizing s with
  | nil => exact .inl rfl
  | cons p l ih =>
    rw [List.foldl_cons]
    have keep : ∀ (l : List Nat) (u : State), u.pins.gated = true → (l.foldl State.descNotice u).pins.gated = true := fun l => by
      induction l with
      | nil => exact fun _ h => h
      | cons p l ih => exact fun u h => ih _ ((notice u p).elim (fun h' => h'.2 h) id)
    rcases notice s p with ⟨hp, -⟩ | hg
    · exact (ih (s.descNotice p)).imp_left fun h => h.trans hp
    · exact .inr (keep l _ hg)

/-! ### TRAINING_STATE_ADVANCE (R366 to R369) -/

/-- What a state of training leads to: its fields and its port stay as it left them, and its state does, unless the clocks are gated. -/
theorem advanced_shows (s u : State) (q : Nat) {t : State} (ht : t = s.only (evented ++ [.ledger, .descs, .runner]) u.redescribe) :
    (t.pst q = u.pst q ∨ t.pins.gated = true) ∧ t.port q = u.port q ∧ ∀ F, quietFld (pgRunner q) F 0 → t.rd (pgRunner q) F = u.rd (pgRunner q) F := by
  subst ht
  exact ⟨trainsOrGated_redescribe u q, port_of_runner (runner_redescribe u) q, fun _ hF => rd_redescribe u hF⟩

/-- A port in training state `st` advances by that state's rule. -/
theorem leads_advance {s : State} {q : Fin 24} {o : TrainObs} {P : State → Prop} (u : State)
    (hexec : exec (.trainingStateAdvance q o) s = finishD (evented ++ [.ledger, .descs, .runner]) s u)
    (hP : ∀ t : State, (t.pst q = u.pst q ∨ t.pins.gated = true) → t.port q = u.port q →
      (∀ F, quietFld (pgRunner q) F 0 → t.rd (pgRunner q) F = u.rd (pgRunner q) F) → P t) :
    Leads (.trainingStateAdvance q o) s P := by
  obtain ⟨h1, h2, h3⟩ := advanced_shows s u q rfl
  exact ⟨_, hexec, hP _ h1 h2 h3⟩

theorem exec_advance (s : State) (q : Fin 24) (o : TrainObs) :
    exec (.trainingStateAdvance q o) s = finishD (evented ++ [.ledger, .descs, .runner]) s
      (match s.pst q with
        | 0 => if s.canTrain && s.on (pgRunner q) RN_PCTRL_ENABLE && s.portFree q then s.beginTraining q else s
        | 1 => s.detect q o
        | 2 => s.config q o
        | 3 => s.stepRate q o
        | 4 => s.delayDone q o
        | 5 => if (s.port q).prk.isSome && o.keyed then s.goActive q else s
        | _ => s) := rfl

/-- The place of a field of the port's page that no event writes. -/
theorem quietFld_runner {q : Nat} {F : Fld} (hin : F.inPage 0) (h44 : 44 ≤ F.at 0) (hstate : F.at 0 ≠ 0x040 ∨ F.lo ≠ 0) (hlost : F.at 0 ≠ 0x058 ∨ F.lo ≠ 0) :
    quietFld (pgRunner q) F 0 := quietFld_of_place hin h44 hstate hlost

theorem leads_advance_down {s : State} {q : Fin 24} {o : TrainObs} (hst : s.pst q = 0) (hcan : s.canTrain = true)
    (hon : s.on (pgRunner q) RN_PCTRL_ENABLE = true) (hfree : s.portFree q = true) :
    Leads (.trainingStateAdvance q o) s fun t =>
      (t.pst q = 1 ∨ t.pins.gated = true) ∧ (t.port q).prk = none ∧ (t.port q).unacked = [] ∧
      t.rd (pgRunner q) RN_KEY_INDEX = 0 ∧ (t.port q).txSched = (s.port q).txSched := by
  refine leads_advance (s.beginTraining q) (by rw [exec_advance, hst, hcan, hon, hfree]; rfl) fun t hpst hport hrd => ?_
  rw [hport, hrd _ (quietFld_runner (by decide) (by decide) (by decide) (by decide)), keyIndex_beginTraining s q.isLt, port_beginTraining]
  rw [pst_beginTraining] at hpst
  exact ⟨hpst, rfl, rfl, rfl, rfl⟩

/-- Where a half of the lanes came up, DETECT takes the partner's fields and goes on. -/
theorem detect_shows (s : State) (q : Nat) {o : TrainObs} (hup : (hasAll (trainGood o) 0x0F || hasAll (trainGood o) 0xF0) = true) :
    (s.detect q o).pst q = 2 ∧
    (s.detect q o).rd (pgRunner q) RN_PARTNER_PACKAGE = (trainField o 6 + 256 * trainField o 7) % 2 ^ RN_PARTNER_PACKAGE.width ∧
    (s.detect q o).rd (pgRunner q) RN_PARTNER_PORT = trainField o 2 % 2 ^ RN_PARTNER_PORT.width ∧
    (s.detect q o).rd (pgRunner q) RN_PSTAT_REVERSED = (trainReversed o).toNat := by
  obtain ⟨v, hv⟩ : ∃ v : State, v = (List.range 8).foldl (fun s l =>
      s.wrs (lanePage q l) [(RN_LSTAT_STATE, if bit (trainMask o) l then 1 else 3), (RN_LSTAT_PHYS, (trainPhys o l)),
        (RN_LSTAT_POLINV, (bit (maskOf 8 fun l => (trainPlaced o).any fun e => decide (e.1.lane = l) && rtsInverted e.1) (trainPhys o l)).toNat)]) s := ⟨_, rfl⟩
  obtain ⟨w, hw⟩ : ∃ w : State, w = v.wrs (pgRunner q) [(RN_PSTAT_REVERSED, (trainReversed o).toNat), (RN_PARTNER_PACKAGE, (trainField o 6) + 256 * (trainField o 7)),
      (RN_PARTNER_PORT, (trainField o 2)), (RN_PARTNER_RATES, (trainField o 3))] := ⟨_, rfl⟩
  have hregs : (s.detect q o).regs = (w.enter q 2).regs := by
    rw [State.detect, if_neg]
    · dsimp only
      rw [← hv, ← hw]
      rfl
    · rw [Bool.or_eq_true] at hup
      rcases hup with h | h <;> rw [h] <;> simp
  have hrd : ∀ F : Fld, F.apart 0 RN_PSTAT_STATE 0 → (s.detect q o).rd (pgRunner q) F = w.rd (pgRunner q) F := fun F hF => by
    rw [rd_congr hregs, rd_enter _ _ _ _ hF]
  refine ⟨?_, ?_, ?_, ?_⟩
  · exact (rd_congr hregs _ _ _).trans (pst_enter w q (by decide))
  · rw [hrd _ (by decide), hw, wrs_cons, rd_wrs_head _ _ _ _ _ _ (by
      simp [RN_PARTNER_PACKAGE, RN_PARTNER_PORT, RN_PARTNER_RATES, Fld.apart, Fld.inPage, Fld.at])]
  · rw [hrd _ (by decide), hw, wrs_cons, wrs_cons, rd_wrs_head _ _ _ _ _ _ (by simp [RN_PARTNER_PORT, RN_PARTNER_RATES, Fld.apart, Fld.inPage, Fld.at])]
  · rw [hrd _ (by decide), hw, rd_wrs_head _ _ _ _ _ _ (by
      simp [RN_PSTAT_REVERSED, RN_PARTNER_PACKAGE, RN_PARTNER_PORT, RN_PARTNER_RATES, Fld.apart, Fld.inPage, Fld.at])]
    cases trainReversed o <;> rfl

theorem leads_advance_detect {s : State} {q : Fin 24} {o : TrainObs} (hst : s.pst q = 1)
    (hup : (hasAll (trainGood o) 0x0F || hasAll (trainGood o) 0xF0) = true) :
    Leads (.trainingStateAdvance q o) s fun t =>
      (t.pst q = 2 ∨ t.pins.gated = true) ∧
      t.rd (pgRunner q) RN_PARTNER_PACKAGE = (trainField o 6 + 256 * trainField o 7) % 2 ^ RN_PARTNER_PACKAGE.width ∧
      t.rd (pgRunner q) RN_PARTNER_PORT = trainField o 2 % 2 ^ RN_PARTNER_PORT.width ∧
      t.rd (pgRunner q) RN_PSTAT_REVERSED = (trainReversed o).toNat := by
  obtain ⟨h2, hpackage, hpartner, hreversed⟩ := detect_shows s q hup
  refine leads_advance (s.detect q o) (by rw [exec_advance, hst]; rfl) fun t hpst _ hrd => ?_
  rw [h2] at hpst
  exact ⟨hpst, (hrd _ (quietFld_runner (by decide) (by decide) (by decide) (by decide))).trans hpackage,
    (hrd _ (quietFld_runner (by decide) (by decide) (by decide) (by decide))).trans hpartner,
    (hrd _ (quietFld_runner (by decide) (by decide) (by decide) (by decide))).trans hreversed⟩

theorem leads_advance_undetected {s : State} {q : Fin 24} {o : TrainObs} (hst : s.pst q = 1)
    (hup : (hasAll (trainGood o) 0x0F || hasAll (trainGood o) 0xF0) = false) :
    Leads (.trainingStateAdvance q o) s fun t => t.pst q = 1 ∨ t.pins.gated = true := by
  refine leads_advance (s.sendSets q (List.range 8) 0x4A 0 (trainMask o) 0) ?_ fun t hpst _ _ => ?_
  · rw [exec_advance, hst]
    change finishD _ s (s.detect q o) = _
    rw [State.detect, if_pos]
    rw [Bool.or_eq_false_iff] at hup
    rw [hup.1, hup.2]
    rfl
  · exact hpst.imp_left fun h => h.trans ((rd_congr (regs_sendSets _ _ _ _ _ _ _) _ _ _).trans hst)

/-- KEYX begins: the port's state is 5, and its other fields stay. -/
theorem beginKeyx_shows (s : State) (q : Nat) :
    (s.beginKeyx q).pst q = 5 ∧ ∀ F : Fld, F.apart 0 RN_PSTAT_STATE 0 → (s.beginKeyx q).rd (pgRunner q) F = s.rd (pgRunner q) F := by
  unfold State.beginKeyx
  dsimp only [State.fresh]
  split
  · exact ⟨pst_enter s q (by decide), fun F hF => rd_enter s _ q 5 hF⟩
  · refine ⟨?_, fun F hF => ?_⟩
    · rw [State.pst, rd_modPort]
      exact pst_enter _ q (by decide)
    · rw [rd_modPort, rd_enter _ _ _ _ hF]
      rfl

theorem leads_advance_delay {s : State} {q : Fin 24} {o : TrainObs} (hst : s.pst q = 4) (hprobes : o.probes.length = 64) :
    Leads (.trainingStateAdvance q o) s fun t =>
      (t.pst q = 5 ∨ t.pins.gated = true) ∧
      t.rd (pgRunner q) RN_DELAY_PS = (probeMean o.probes + o.partnerMean) / 2 % 2 ^ RN_DELAY_PS.width := by
  obtain ⟨h5, hkeep⟩ := beginKeyx_shows (s.wr (pgRunner q) RN_DELAY_PS ((probeMean o.probes + o.partnerMean) / 2)) q
  refine leads_advance (s.delayDone q o) (by rw [exec_advance, hst]; rfl) fun t hpst _ hrd => ?_
  rw [State.delayDone, if_pos hprobes] at hpst hrd
  rw [h5] at hpst
  exact ⟨hpst, ((hrd _ (quietFld_runner (by decide) (by decide) (by decide) (by decide))).trans (hkeep _ (by decide))).trans (rd_wr_same ..)⟩

/-! ### An agreed port becomes ACTIVE (R379) -/

/-- An operation that leaves the port's state and its credits. -/
def creditsKept (q : Nat) (s t : State) : Prop :=
  ∀ F : Fld, F = RN_PSTAT_STATE ∨ F = RN_CREDIT_SYNC ∨ F = RN_CREDIT_INDIGO ∨ F = RN_CREDIT_WOAD → t.rd (pgRunner q) F = s.rd (pgRunner q) F

theorem creditsKept_trans {q : Nat} {s t u : State} (h1 : creditsKept q s t) (h2 : creditsKept q t u) : creditsKept q s u :=
  fun F hF => (h2 F hF).trans (h1 F hF)

theorem creditsKept_of_regs {q : Nat} {s t : State} (h : t.regs = s.regs) : creditsKept q s t := fun _ _ => rd_congr h _ _ _

theorem creditsKept_wr {q : Nat} (s : State) (pg : Nat) {G : Fld} (v : Nat)
    (h : pgRunner q ≠ pg ∧ G.inPage 0 ∨ ∀ F : Fld, F = RN_PSTAT_STATE ∨ F = RN_CREDIT_SYNC ∨ F = RN_CREDIT_INDIGO ∨ F = RN_CREDIT_WOAD → F.apart 0 G 0) :
    creditsKept q s (s.wr pg G v) := fun F hF => by
  rcases h with ⟨hp, hG⟩ | h
  · exact rd_wr_page s v hp (by rcases hF with rfl | rfl | rfl | rfl <;> decide) hG
  · exact rd_wr_apart _ _ s v (h F hF)

theorem creditsKept_foldl {q : Nat} {β : Type} (f : State → β → State) (hf : ∀ s b, creditsKept q s (f s b)) (l : List β) (s : State) :
    creditsKept q s (l.foldl f s) := fun F hF => rd_foldl_same f _ F 0 l (fun s b _ => hf s b F hF) s

theorem goActive_shows (s : State) {q : Nat} (hq : q < 24) :
    (s.goActive q).pst q = 6 ∧ (s.goActive q).rd (pgRunner q) RN_CREDIT_SYNC = 64 ∧
    (s.goActive q).rd (pgRunner q) RN_CREDIT_INDIGO = 256 ∧ (s.goActive q).rd (pgRunner q) RN_CREDIT_WOAD = 4096 := by
  obtain ⟨v, hv⟩ : ∃ v, v = ((s.enter q 6).setFigures q).wrs (pgRunner q) [(RN_CREDIT_SYNC, 64), (RN_CREDIT_INDIGO, 256), (RN_CREDIT_WOAD, 4096), (RN_KEY_INDEX, 0)] :=
    ⟨_, rfl⟩
  have hlevel : creditsKept q v (v.levelNone (pgRunner q)) := by
    rw [State.levelNone]
    split
    · exact creditsKept_of_regs rfl
    · exact creditsKept_wr v _ 0 (.inr fun F hF => by rcases hF with rfl | rfl | rfl | rfl <;> decide)
  have hkept : creditsKept q v (s.goActive q) := by
    rw [State.goActive]
    rw [← hv]
    refine creditsKept_trans ?_ (creditsKept_foldl (fun u l => u.ageLane q l) (fun u l => creditsKept_of_regs rfl) _ _)
    refine creditsKept_trans ?_ (creditsKept_of_regs rfl)
    refine creditsKept_trans ?_ (creditsKept_wr _ pgMordant _ (.inl ⟨pgMordant_ne_pgRunner hq, by decide⟩))
    refine creditsKept_trans ?_ (creditsKept_foldl _ (fun u l => creditsKept_wr u _ 2 (.inl ⟨lanePage_ne_pgRunner hq q l, by decide⟩)) _ _)
    exact creditsKept_trans hlevel (creditsKept_of_regs rfl)
  refine ⟨(hkept _ (.inl rfl)).trans ?_, (hkept _ (.inr (.inl rfl))).trans ?_, (hkept _ (.inr (.inr (.inl rfl)))).trans ?_,
    (hkept _ (.inr (.inr (.inr rfl)))).trans ?_⟩
  · rw [hv, rd_wrs_apart _ _ _ _ (by decide), State.setFigures, rd_modPort, rd_wrs_apart _ _ _ _ (by
      simp [RN_PSTAT_STATE, RN_DL_SLOTS, RN_DL_SCHED_WORDS, RN_PSTAT_SCHED_OK, Fld.apart, Fld.inPage, Fld.at])]
    exact pst_enter s q (by decide)
  · rw [hv]
    exact rd_wrs_head _ _ _ _ _ _ (by decide)
  · rw [hv, wrs_cons]
    exact rd_wrs_head _ _ _ _ _ _ (by decide)
  · rw [hv, wrs_cons, wrs_cons]
    exact rd_wrs_head _ _ _ _ _ _ (by decide)

theorem leads_advance_keyed {s : State} {q : Fin 24} {o : TrainObs} (hst : s.pst q = 5) (hprk : (s.port q).prk.isSome = true) (hkeyed : o.keyed = true) :
    Leads (.trainingStateAdvance q o) s fun t =>
      (t.pst q = 6 ∨ t.pins.gated = true) ∧ t.rd (pgRunner q) RN_CREDIT_SYNC = 64 ∧
      t.rd (pgRunner q) RN_CREDIT_INDIGO = 256 ∧ t.rd (pgRunner q) RN_CREDIT_WOAD = 4096 := by
  obtain ⟨h6, hsync, hindigo, hwoad⟩ := goActive_shows s q.isLt
  refine leads_advance (s.goActive q) (by rw [exec_advance, hst, hprk, hkeyed]; rfl) fun t hpst _ hrd => ?_
  rw [h6] at hpst
  exact ⟨hpst, (hrd _ (quietFld_runner (by decide) (by decide) (by decide) (by decide))).trans hsync,
    (hrd _ (quietFld_runner (by decide) (by decide) (by decide) (by decide))).trans hindigo,
    (hrd _ (quietFld_runner (by decide) (by decide) (by decide) (by decide))).trans hwoad⟩

theorem leads_advance_unkeyed {s : State} {q : Fin 24} {o : TrainObs} (hst : s.pst q = 5) (h : (s.port q).prk = none ∨ o.keyed = false) :
    Leads (.trainingStateAdvance q o) s fun t => t.port q = s.port q := by
  refine leads_advance s ?_ fun t _ hport _ => hport
  rw [exec_advance, hst]
  refine congrArg (finishD _ s) (if_neg ?_)
  rcases h with h | h <;> rw [h] <;> simp

/-! ### TRAINING_TIMEOUT (R366) -/

theorem trainLimit_lt {st : Nat} (h : trainLimit st ≠ 0) : st < 16 := by
  by_contra hge
  refine h ?_
  unfold trainLimit
  split <;> omega

theorem rd_keyxFail (s : State) (q cause pg : Nat) {F : Fld} (hF : quietFld pg F 0) (hp : pg ≠ pgMordant) :
    (s.keyxFail q cause).rd pg F = s.rd pg F := by
  rw [State.keyxFail, rd_modPort, rd_raise_quiet _ _ _ _ hF]
  exact rd_bump_other _ _ _ _ _ (fkey_ne_of_page hp hF.2.1 (by decide))

theorem leads_trainingTimeout {s : State} {q : Fin 24} (hlimit : trainLimit (s.pst q) ≠ 0) (hdue : trainLimit (s.pst q) ≤ s.real - (s.port q).since) :
    Leads (.trainingTimeout q) s fun t =>
      t.pst q = 1 ∧ (t.port q).prk = none ∧ t.rd (pgRunner q) RN_TRAIN_FAIL_STATE = s.pst q ∧
      t.rd (pgRunner q) RN_TRAIN_FAILS = min (s.rd (pgRunner q) RN_TRAIN_FAILS + 1) (2 ^ RN_TRAIN_FAILS.width - 1) := by
  obtain ⟨v, hv⟩ : ∃ v, v = if s.pst q = 5 ∧ (s.port q).kxFailed = false ∧ (s.port q).prk = none then s.keyxFail q 3 else s := ⟨_, rfl⟩
  obtain ⟨w, hw⟩ : ∃ w, w = ((v.trainFail q).bump (pgRunner q) RN_TRAIN_FAILS).wr (pgRunner q) RN_TRAIN_FAIL_STATE (s.pst q) := ⟨_, rfl⟩
  obtain ⟨u, hu⟩ : ∃ u, u = w.beginTraining q := ⟨_, rfl⟩
  have hexec : exec (.trainingTimeout q) s = finish (evented ++ [.runner]) s u := by
    rw [show exec (.trainingTimeout q) s = execTrainingTimeout q s from rfl, execTrainingTimeout]
    dsimp only
    rw [if_pos ⟨hlimit, hdue⟩, ← hv, ← hw, ← hu]
  have hquiet : quietFld (pgRunner q) RN_TRAIN_FAILS 0 := quietFld_runner (by decide) (by decide) (by decide) (by decide)
  have hfails : v.rd (pgRunner q) RN_TRAIN_FAILS = s.rd (pgRunner q) RN_TRAIN_FAILS := by
    rw [hv]
    split
    · exact rd_keyxFail s q 3 _ hquiet (pgMordant_ne_pgRunner q.isLt)
    · rfl
  have hpst : u.pst q = 1 := by rw [hu, pst_beginTraining]
  have hprk : (u.port q).prk = none := by rw [hu, port_beginTraining]; rfl
  have hstate : u.rd (pgRunner q) RN_TRAIN_FAIL_STATE = s.pst q := by
    rw [hu, trainFails_beginTraining w q.isLt (.inr rfl), hw]
    exact rd_wr_fits _ _ RN_TRAIN_FAIL_STATE 0 (trainLimit_lt hlimit)
  have hcount : u.rd (pgRunner q) RN_TRAIN_FAILS = min (s.rd (pgRunner q) RN_TRAIN_FAILS + 1) (2 ^ RN_TRAIN_FAILS.width - 1) := by
    rw [hu, trainFails_beginTraining w q.isLt (.inl rfl), hw, rd_wr_apart _ _ _ _ (by decide), rd_bump_same, State.trainFail, rd_raise_quiet _ _ _ _ hquiet, hfails]
  exact ⟨_, hexec, hpst, hprk, hstate, hcount⟩

theorem leads_trainingTimeout_none {s : State} {q : Fin 24} (h : s.real - (s.port q).since < trainLimit (s.pst q)) :
    Leads (.trainingTimeout q) s fun t => s.sameBut [] t := by
  refine leads_unchanged (l := evented ++ [.runner]) ?_
  rw [show exec (.trainingTimeout q) s = execTrainingTimeout q s from rfl, execTrainingTimeout]
  dsimp only
  rw [if_neg fun h' => absurd h'.2 (Nat.not_le.mpr h)]

/-- Settles O43: each state of training writes the port's next state and what it names, and an event that a changed description raises leaves them,
unless it gates the clocks. -/
theorem portsTrain : Obligations.PortsTrain := by
  unfold Obligations.PortsTrain
  exact ⟨fun _ _ _ => leads_advance_down, fun _ _ _ => leads_advance_detect, fun _ _ _ => leads_advance_undetected, fun _ _ _ => leads_advance_delay,
    fun _ _ _ => leads_advance_keyed, fun _ _ _ => leads_advance_unkeyed, fun _ _ => leads_trainingTimeout, fun _ _ => leads_trainingTimeout_none⟩

end Sys2Proof.Machine
end

section
/-!
Rules of requests (11_hall_memory.md): the flits that enter a router, and requests under way; and the refutation that every answer completes
its request (O49).
-/

namespace Sys2Proof.Machine

open Sys2Proof

/-! ### Flits that enter a router (R241, R242) -/

theorem sameBut_modNet (s : State) (f : Net → Net) : s.sameBut [.net] (s.modNet f) := fun k hk => by
  cases k <;> first | exact absurd (by decide) hk | exact ⟨rfl, rfl⟩ | rfl

theorem sameBut_letIn (fuel r : Nat) (s : State) : s.sameBut [.net] (State.letIn fuel r s) := by
  induction fuel generalizing s with
  | zero => exact sameBut_refl _ s
  | succ n ih =>
    rw [State.letIn]
    split
    · exact sameBut_refl _ s
    · exact sameBut_trans (sameBut_modNet s _) (ih _)

theorem sameBut_injectFlits (s : State) (r : Nat) (l : List CFlit) : s.sameBut [.net] (s.injectFlits r l) :=
  sameBut_trans (sameBut_modNet s _) (sameBut_letIn 8 r _)

theorem sameBut_inject (s : State) (id : Nat) (r : Req) : s.sameBut [.net] (s.inject id r) := sameBut_injectFlits _ _ _

/-! ### Requests under way -/

theorem req_of_hall {s t : State} (h : t.hall = s.hall) (id : Nat) : t.req id = s.req id := by rw [State.req, h]; rfl

/-! ### An answer to a request of no class -/

/-- A class whose latency figures would lie at the Sprue port's SERVICE. -/
def strayClass : Nat := (pgSprue * 4096 + 0x010 - (pgControl 80 * 4096 + 0x0A0)) / 4

/-- The Sprue port's request 0, in that class, is answered; router 80 has filtered latencies of about 3 cycles for it. -/
def strayAnswer : State :=
  { hall := { reqs := [(0, { src := pgSprue, cls := strayClass, op := 0x01, addr := 0, ans := some {} })] }, net := { filt := [(80 * 8 + strayClass, 816)] } }

theorem strayAnswer_discarded {t : State} (h : exec (.response 0 1) strayAnswer = .next t) : (t.takeDone 0).isNone = true := by
  rw [show exec (.response 0 1) strayAnswer = execResponse 0 1 strayAnswer from rfl, execResponse, finish] at h
  injection h with h
  rw [← h]
  decide +kernel

/-- Refutes O49: a request whose stored class is none of the network's has its latency filtered at another place of the field store, here the
SERVICE of its own requester's page, which then reads 3, in reset: its answer is discarded. -/
theorem not_requestsIssueAndComplete : ¬ Obligations.RequestsIssueAndComplete := by
  unfold Obligations.RequestsIssueAndComplete
  intro h
  obtain ⟨-, -, -, hanswered, -⟩ := h
  obtain ⟨t, hexec, hdone, -⟩ := hanswered strayAnswer 0 1 { src := pgSprue, cls := strayClass, op := 0x01, addr := 0, ans := some {} } {}
    (by decide +kernel) rfl (by decide +kernel) (by decide) (by decide +kernel)
  have hnone := strayAnswer_discarded hexec
  rw [hdone] at hnone
  exact absurd hnone (by decide)

end Sys2Proof.Machine
end

section
/-!
Rules of accesses at their banks (06_clusters.md, 09_shared_buffer.md): what a grant leaves unchanged, and what a memory then reads and stores.
-/

namespace Sys2Proof.Machine

open Sys2Proof

/-! ### Grants (R200, R204, R323) -/

/-- A field that no grant counts in: elsewhere than the merged reads of a cluster memory and of a slice. -/
def offMerges (pg : Nat) (F : Fld) (i : Nat) : Prop :=
  F.inPage i ∧ ((F.at i ≠ 0x050 ∨ F.lo ≠ 0) ∨ ∀ k, k < 80 → pg ≠ pgCluster k) ∧ (F.at i ≠ 0x07C ∨ F.lo ≠ 0)

theorem offMerges_of_place {pg : Nat} {F : Fld} {i : Nat} (hin : F.inPage i) (h50 : F.at i ≠ 0x050 ∨ F.lo ≠ 0) (h7C : F.at i ≠ 0x07C ∨ F.lo ≠ 0) :
    offMerges pg F i := ⟨hin, .inl h50, h7C⟩

/-- What a grant can change: the banks, and the counts of merged reads. -/
structure BanksOnly (s t : State) : Prop where
  frame : s.sameBut [.regs, .banks] t
  rd : ∀ pg F i, offMerges pg F i → t.rd pg F i = s.rd pg F i

theorem banksOnly_refl (s : State) : BanksOnly s s := ⟨sameBut_refl _ s, fun _ _ _ _ => rfl⟩

theorem banksOnly_trans {s t u : State} (h1 : BanksOnly s t) (h2 : BanksOnly t u) : BanksOnly s u :=
  ⟨sameBut_trans h1.frame h2.frame, fun pg F i h => (h2.rd pg F i h).trans (h1.rd pg F i h)⟩

theorem banksOnly_modBanks (s : State) (f : Banks → Banks) : BanksOnly s (s.modBanks f) :=
  ⟨fun k hk => by cases k <;> first | exact absurd (by decide) hk | exact ⟨rfl, rfl⟩ | rfl, fun _ _ _ _ => rfl⟩

theorem banksOnly_foldl {β : Type} (f : State → β → State) (hf : ∀ s b, BanksOnly s (f s b)) (l : List β) (s : State) : BanksOnly s (l.foldl f s) := by
  induction l generalizing s with
  | nil => exact banksOnly_refl s
  | cons b l ih => exact banksOnly_trans (hf s b) (ih _)

/-- A merged read of a cluster memory counts on its page; one of a slice at another place. -/
theorem banksOnly_readSectors (s : State) (l : List (Nat × Nat)) : BanksOnly s (s.readSectors l) := by
  refine banksOnly_foldl _ (fun u e => ?_) l s
  split
  · split
    · next hb =>
      refine ⟨sameBut_mono (sameBut_bump _ _ _ _ _) (by decide), fun pg F i ⟨hin, h50, _⟩ => rd_bump_other _ _ _ _ _ ?_⟩
      rw [bankUnit, if_pos hb]
      rcases h50 with h | h
      · exact fkey_ne_of_apart _ _ ⟨hin, by decide, h⟩
      · exact fkey_ne_of_page (h _ (by omega)) hin (by decide)
    · exact ⟨sameBut_mono (sameBut_bump _ _ _ _ _) (by decide), fun pg F i ⟨hin, _, h7C⟩ =>
        rd_bump_other _ _ _ _ _ (fkey_ne_of_apart _ _ ⟨hin, by decide, h7C⟩)⟩
  · exact banksOnly_modBanks _ _

/-- Ports that are free take no one's turn away. -/
theorem takePorts_free (rank page : Nat) (l : List (Nat × Nat)) (hnodup : (l.map fun e => e.1).Nodup) (s : State)
    (hfree : ∀ e ∈ l, (aget {} s.banks.ports e.1).free ≤ s.cycles) :
    ∃ p, s.takePorts rank page l = s.modBanks fun b => { b with ports := p } := by
  induction l generalizing s with
  | nil => exact ⟨s.banks.ports, rfl⟩
  | cons e l ih =>
    rw [List.map_cons, List.nodup_cons] at hnodup
    obtain ⟨hnew, hnodup⟩ := hnodup
    have hno : decide (s.cycles < (aget {} s.banks.ports e.1).free) = false := decide_eq_false (Nat.not_lt.mpr (hfree e List.mem_cons_self))
    obtain ⟨v, hv⟩ : ∃ v : BankPort, v = { free := s.cycles + e.2, at_ := s.cycles, rank := rank, page := page } := ⟨_, rfl⟩
    have hstep : s.takePorts rank page (e :: l) = (s.modBanks fun b => { b with ports := aset {} b.ports e.1 v }).takePorts rank page l := by
      rw [State.takePorts, List.foldl_cons]
      dsimp only
      rw [hno, hv]
      rfl
    obtain ⟨p, hp⟩ := ih hnodup (s.modBanks fun b => { b with ports := aset {} b.ports e.1 v }) fun x hx => by
      have hne : x.1 ≠ e.1 := fun h => hnew (h ▸ List.mem_map_of_mem hx)
      change (aget {} (aset {} s.banks.ports e.1 v) x.1).free ≤ s.cycles
      rw [aget_aset_other _ _ _ hne]
      exact hfree x (List.mem_cons_of_mem _ hx)
    exact ⟨p, by rw [hstep, hp]; rfl⟩

theorem portUses_fst (write : Bool) (l : List (Nat × Nat)) :
    ∃ bs : List Nat, bs.Nodup ∧ (portUses write l).map (fun e => e.1) = bs.map fun b => 2 * b + (if write then 1 else 0) := by
  unfold portUses
  dsimp only
  exact ⟨_, List.nodup_dedup _, by rw [List.map_map]; rfl⟩

/-- An access needs each port once: reads those of even number, writes those of odd. -/
theorem nodup_needPorts (s : State) (n : BankNeed) : ((s.needPorts n).map fun e => e.1).Nodup := by
  obtain ⟨rs, hrs, hr⟩ := portUses_fst false (n.reads.filter fun e => !s.merges e)
  obtain ⟨ws, hws, hw⟩ := portUses_fst true n.writes
  rw [State.needPorts, List.map_append, hr, hw, List.nodup_append']
  refine ⟨hrs.map fun a b h => ?_, hws.map fun a b h => ?_, fun x hx hy => ?_⟩
  · simpa using h
  · simpa using h
  · obtain ⟨a, -, rfl⟩ := List.mem_map.mp hx
    obtain ⟨b, -, hb⟩ := List.mem_map.mp hy
    simp at hb
    omega

/-- What an access whose ports are free finds once it is granted them. -/
theorem granted_shows (s : State) (rank page : Nat) (n : BankNeed) (hfree : ∀ e ∈ s.needPorts n, (aget {} s.banks.ports e.1).free ≤ s.cycles) :
    BanksOnly s (s.granted rank page n) ∧ (n.writes = [] →
      (s.granted rank page n).banks.at_ = s.cycles ∧ (s.granted rank page n).banks.old = if s.banks.at_ = s.cycles then s.banks.old else []) := by
  obtain ⟨p, hp⟩ := takePorts_free rank page (s.needPorts n) (nodup_needPorts s n) s hfree
  obtain ⟨v, hv⟩ : ∃ v, v = (s.modBanks fun b => { b with ports := p }).readSectors n.reads := ⟨_, rfl⟩
  have hports : BanksOnly s v := hv ▸ banksOnly_trans (banksOnly_modBanks _ _) (banksOnly_readSectors _ _)
  have heq : s.granted rank page n = n.writes.foldl State.closeWindow (v.keepOld n.writes) := by rw [State.granted, hp, hv]
  rw [heq]
  have kept : BanksOnly v (v.keepOld n.writes) := by
    rw [State.keepOld]
    exact banksOnly_modBanks _ _
  refine ⟨banksOnly_trans (banksOnly_trans hports kept) (banksOnly_foldl State.closeWindow (fun u e => banksOnly_modBanks _ _) _ _), fun hw => ?_⟩
  have hold : v.banks.at_ = s.banks.at_ ∧ v.banks.old = s.banks.old := by
    rw [hv]
    have step : ∀ (l : List (Nat × Nat)) (u : State), (u.readSectors l).banks.at_ = u.banks.at_ ∧ (u.readSectors l).banks.old = u.banks.old := fun l => by
      induction l with
      | nil => exact fun _ => ⟨rfl, rfl⟩
      | cons e l ih =>
        intro u
        have bumped : ∀ pg F, (u.bump pg F).banks = u.banks := fun pg F => sameBut_bump u pg F 1 0 .banks (by decide)
        refine ⟨(ih _).1.trans ?_, (ih _).2.trans ?_⟩ <;> dsimp only <;> split
        · split <;> rw [bumped]
        · rfl
        · split <;> rw [bumped]
        · rfl
    exact step n.reads _
  have hcycles : v.cycles = s.cycles := by
    rw [State.cycles, State.cycle, State.tick, State.cps, show v.time = s.time from hports.frame .time (by decide), show v.fuse = s.fuse from hports.frame .fuse (by decide)]
    rfl
  rw [hw]
  change v.cycles = s.cycles ∧ (if v.banks.at_ = v.cycles then v.banks.old else []) ++ [] = _
  rw [List.append_nil, hcycles, hold.1, hold.2]
  exact ⟨rfl, rfl⟩

/-! ### What a memory reads where fields and cells are as before -/

/-- Cells and failed channels are as before: what a store writes is the same. -/
structure CellsSame (s t : State) : Prop where
  mem : t.mem = s.mem
  undef : t.undef = s.undef
  dead : ∀ x, t.deadAt x = s.deadAt x

/-- Marks and free values too: what a read finds is the same. -/
structure MemSame (s t : State) : Prop extends CellsSame s t where
  poison : t.poison = s.poison
  free : t.free = s.free

theorem readMem_congr {s t : State} (h : MemSame s t) (a n : Nat) : t.readMem a n = s.readMem a n := by
  have hpoisoned : ∀ x, t.poisoned x = s.poisoned x := fun x => by rw [State.poisoned, h.poison]; rfl
  have hbad : t.chunkBad a n = s.chunkBad a n := by
    funext i
    simp only [State.chunkBad, hpoisoned, h.dead]
  simp only [State.readMem, hbad, h.dead, h.free, getB_congr h.mem h.undef]

section
variable {s t : State} (h : BanksOnly s t)
include h

theorem banks_ownPkg (a : Nat) : t.ownPkg a = s.ownPkg a := by
  rw [State.ownPkg, State.pkg, h.rd _ _ _ (offMerges_of_place (by decide) (by decide) (by decide))]
  rfl

theorem banks_chanAt (a : Nat) : t.chanAt a = s.chanAt a := by
  rw [State.chanAt, h.rd _ _ _ (offMerges_of_place (by decide) (by decide) (by decide))]
  rfl

theorem banks_deadAt (a : Nat) : t.deadAt a = s.deadAt a := by
  rw [State.deadAt, State.chanFailed, banks_chanAt h, h.rd _ _ _ (offMerges_of_place (by decide) (by decide) (by decide))]
  rfl

theorem banks_memSame : MemSame s t :=
  { mem := h.frame .mem (by decide), undef := h.frame .undef (by decide), dead := banks_deadAt h, poison := h.frame .poison (by decide)
    free := h.frame .free (by decide) }

theorem banks_servedAll (r : Req) (n : Nat) : t.servedAll r n = s.servedAll r n := by
  have hchans : t.chansOf (localOf r.addr) n = s.chansOf (localOf r.addr) n := by
    rw [State.chansOf, State.chansOf, show t.chanAt = s.chanAt from funext (banks_chanAt h)]
  rw [State.servedAll, State.servedAll, hchans]

theorem banks_cxUp (x : Nat) : t.cxUp x = s.cxUp x := by
  rw [State.cxUp, h.rd _ _ _ (offMerges_of_place (by decide) (by decide) (by decide))]
  rfl

theorem banks_sl (n : Nat) : t.sl n = s.sl n := by rw [State.sl, show t.slices = s.slices from h.frame .slices (by decide)]; rfl

end

/-! ### A request of this package at its banks -/

section
variable {s t : State} (h : BanksOnly s t)
include h

theorem banks_cxOwner {x : Nat} (hx : x < 2) : t.cxOwner x = s.cxOwner x :=
  cxOwner_congr (by rw [show t.hall = s.hall from h.frame .hall (by decide)])
    ⟨h.rd _ _ _ (offMerges_of_place (by simp only [Fld.inPage, Fld.at, PT_CX_ASSIGN_PART]; omega) (.inl (by simp only [Fld.at, PT_CX_ASSIGN_PART]; omega))
      (.inl (by simp only [Fld.at, PT_CX_ASSIGN_PART]; omega))),
    h.rd _ _ _ (offMerges_of_place (by simp only [Fld.inPage, Fld.at, PT_CX_ASSIGN_VALID]; omega) (.inr (by decide)) (.inr (by decide)))⟩

/-- The ranges that a slice may cache are its own page's. -/
theorem banks_cacheable {o : Nat} (ho : o < 0xA000000000) : t.cacheable o = s.cacheable o := by
  have page : ∀ k, k < 80 → pgSlice (o / 0x1400000000) ≠ pgCluster k := fun k hk => by
    simp only [pgSlice, pgCluster, pageId]
    omega
  have field : ∀ (F : Fld) i, i ∈ List.range 4 → F.off = 0x04C ∧ F.stride = 4 ∧ F.lo < 32 →
      t.rd (pgSlice (o / 0x1400000000)) F i = s.rd (pgSlice (o / 0x1400000000)) F i := fun F i hi ⟨hoff, hstride, hlo⟩ => by
    have hi := List.mem_range.mp hi
    refine h.rd _ _ _ ⟨⟨?_, hlo⟩, .inr page, .inl ?_⟩ <;> rw [Fld.at, hoff, hstride] <;> omega
  rw [State.cacheable, State.cacheable, State.inRange, State.inRange]
  refine any_congr_mem fun i hi => ?_
  rw [State.on, State.on, field SB_CRANGE_VALID i hi (by decide), field SB_CRANGE_BASE i hi (by decide), field SB_CRANGE_COUNT i hi (by decide)]

theorem banks_cacheMb (n : Nat) : t.cacheMb n = s.cacheMb n := by
  simp only [State.cacheMb, State.scratchMb, State.atomMb, banks_sl h]

theorem banks_farSlice (p a : Nat) : t.farSlice p a = s.farSlice p a := by
  have hactive : t.rd pgBu PT_CONFIG_ACTIVE = s.rd pgBu PT_CONFIG_ACTIVE := h.rd _ _ _ (offMerges_of_place (by decide) (by decide) (by decide))
  simp only [State.farSlice, State.firstRiser, State.partSize, hactive]

theorem banks_cacheSlice (o : Nat) (part : Option Nat) : t.cacheSlice o part = s.cacheSlice o part := by
  unfold State.cacheSlice
  split
  · next r hr =>
    have ho : o < 0xA000000000 := by
      by_contra hge
      unfold homeOf at hr
      dsimp only at hr
      split_ifs at hr
    simp only [banks_cacheable h ho, banks_cacheMb h]
  · next x f hx => simp only [banks_cxOwner h (homeOf_cxl_lt o x f hx), banks_cacheMb h, banks_farSlice h]
  · rfl

theorem banks_viaCache {r : Req} (hown : s.ownPkg r.addr = true) : t.viaCache r = s.viaCache r := by
  have hslice : ∀ o, t.cacheSlice o r.part = s.cacheSlice o r.part := fun o => banks_cacheSlice h o r.part
  simp only [State.viaCache, banks_ownPkg h, hown, if_true, State.viaLocal, hslice]

end

/-- A request is an own one, unanswered and not under way to another package, that goes through no cache, and its home is ready and not fenced. -/
structure Ready (s : State) (id : Nat) (r : Req) : Prop where
  req : s.req id = some r
  via : r.via = none
  remote : r.remote = none
  ans : r.ans = none
  cache : s.viaCache r = none
  own : s.ownPkg r.addr = true
  served : s.servedAll r r.span = true
  once : s.atOnce id r

theorem perform_ready {s : State} {id : Nat} {r : Req} (h : Ready s id r) {ops : Nat → Bool} (hops : ops r.op = true) :
    s.perform id ops [] = s.atBanks r.src r.level false true (s.bankNeed r) (.request id []) fun s => s.carryOut id [] r := by
  obtain ⟨htravels, hfenced, hturn, -⟩ := h.once
  rw [State.perform, h.req]
  dsimp only
  rw [if_neg (by rw [hops, h.remote, h.ans, htravels]; decide), if_neg (by simp [State.sourceAbsent, h.via]), h.via, hfenced, Bool.and_false]
  simp only [Option.isSome_none, Bool.false_eq_true, if_false, ne_eq, not_true_eq_false]
  rw [if_neg (by simp [State.readyFor, h.cache, h.served]), hturn]

/-- It is carried out at once, on the state that its grant leaves. -/
theorem perform_carriesOut {s : State} {id : Nat} {r : Req} (h : Ready s id r) {ops : Nat → Bool} (hops : ops r.op = true) :
    ∃ u, BanksOnly s u ∧ s.perform id ops [] = u.carryOut id [] r ∧
      ((s.bankNeed r).writes = [] → u = s ∨ u.banks.at_ = s.cycles ∧ u.banks.old = if s.banks.at_ = s.cycles then s.banks.old else []) := by
  obtain ⟨-, -, -, hbanks⟩ := h.once
  rw [perform_ready h hops, State.atBanks]
  rcases hhome : (s.bankNeed r).home with - | home
  · exact ⟨s, banksOnly_refl s, rfl, fun _ => .inl rfl⟩
  · obtain ⟨hwait, hfree⟩ := hbanks.resolve_left (by rw [hhome]; simp)
    obtain ⟨honly, hold⟩ := granted_shows s (s.bankRank home r.src r.level false) r.src (s.bankNeed r) hfree
    refine ⟨_, honly, ?_, fun hw => .inr (hold hw)⟩
    have hports : s.portsFree (s.bankRank home r.src r.level false) (s.needPorts (s.bankNeed r)) = true :=
      List.all_eq_true.mpr fun e he => Bool.or_eq_true _ _ ▸ .inl (decide_eq_true (hfree e he))
    dsimp only
    rw [hwait, hports]
    rfl

/-- With no parity error, what its operation does is all that happens. -/
theorem parityOf_nil (s : State) (fw : Bool) (c : Option (Via × Nat)) (o : Nat) : s.parityOf fw c o [] = s := by
  unfold State.parityOf
  split <;> rfl

/-! ### Answers -/

theorem answer_shows (s : State) (id : Nat) {r : Req} (a : Ans) (hvia : r.via = none) :
    (s.answer id r a).req id = some { r with ans := some a } ∧ s.sameBut [.hall, .net] (s.answer id r a) := by
  obtain ⟨v, hv⟩ : ∃ v, v = s.setReq id { r with ans := some a } := ⟨_, rfl⟩
  have hreq : v.req id = some { r with ans := some a } := hv ▸ req_setReq s id _
  have set : s.sameBut [.hall] v := fun k hk => by
    rw [hv]
    cases k <;> first | exact absurd (by decide) hk | exact ⟨rfl, rfl⟩ | rfl
  have heq : s.answer id r a = if s.ownPkg r.addr then v.injectResponse id r a else v := by
    unfold State.answer
    split
    · next q hq => exact absurd (hvia.symm.trans hq) (by simp)
    · rw [hv]
  rw [heq]
  split
  · have sent : v.sameBut [.net] (v.injectResponse id r a) := sameBut_injectFlits _ _ _
    exact ⟨(req_of_hall (sent .hall (by decide)) id).trans hreq, sameBut_trans (sameBut_mono set (by decide)) (sameBut_mono sent (by decide))⟩
  · exact ⟨hreq, sameBut_mono set (by decide)⟩

end Sys2Proof.Machine
end

section
/-!
Proofs of the family 11_hall_memory.md: reads and writes at their home memory (O50).
-/

namespace Sys2Proof.Machine

open Sys2Proof

/-! ### READ (R407) -/

theorem span_read {r : Req} (h : r.op = 0x01) : r.span = r.len := by simp [Req.span, isAtomic, isReduce, h]

theorem span_store {r : Req} (h : r.op = 0x02 ∨ r.op = 0x03) : r.span = r.len := by
  rcases h with h | h <;> simp [Req.span, isAtomic, isReduce, h]

theorem carryOut_read {s : State} {id : Nat} {r : Req} (h : r.op = 0x01) : s.carryOut id [] r = s.doRead id [] r := by
  rw [State.carryOut, parityOf_nil, if_pos h]

theorem carryOut_write {s : State} {id : Nat} {r : Req} (h : r.op = 0x02 ∨ r.op = 0x03) : s.carryOut id [] r = s.doWrite id [] r := by
  rw [State.carryOut, parityOf_nil, if_neg (by rcases h with h | h <;> rw [h] <;> decide), if_pos (by rcases h with h | h <;> simp [isStore, h])]

theorem hurtMask_nil (o n m : Nat) : hurtMask o n m [] = m := by
  have : maskOf ((n + 63) / 64) (fun _ => false) = 0 := (maskOf_eq_zero _ _).mpr fun _ _ => rfl
  simp [hurtMask, this]

theorem badLines_nil (s : State) (r : Req) : s.badLines r [] = [] := by simp [State.badLines]

/-- A read that goes through no cache, of an own home that is no cluster memory, whose channels have served it, and that is up. -/
theorem doRead_answers {s : State} {id : Nat} {r : Req} (hvia : r.via = none) (hcache : s.viaCache r = none) (hown : s.ownPkg r.addr = true)
    (hserved : s.servedAll r r.len = true) (hcluster : ∀ k off, homeOf (localOf r.addr) ≠ .cluster k off)
    (hup : ∀ x off, homeOf (localOf r.addr) = .cxl x off → s.cxUp x = true) {d : Bytes × Nat} (hd : d = s.readMem (localOf r.addr) r.len) :
    (s.doRead id [] r).req id = some { r with ans := some { status := poisonStatus d.2, data := d.1, poison := d.2 } } ∧
    (s.doRead id [] r).mem = s.mem ∧ (s.doRead id [] r).poison = s.poison := by
  obtain ⟨hreq, hframe⟩ := answer_shows s id { status := poisonStatus d.2, data := d.1, poison := d.2 } hvia
  obtain ⟨v, hv⟩ : ∃ v, v = s.answer id r { status := poisonStatus d.2, data := d.1, poison := d.2 } := ⟨_, rfl⟩
  rw [← hv] at hreq hframe
  have heq : s.doRead id [] r = v ∨ s.doRead id [] r = { v with free := s.free + 1 } := by
    unfold State.doRead
    rw [hcache]
    dsimp only
    rw [if_neg (by rw [hown, hserved]; decide)]
    split
    · rw [← hd, ← hv]
      exact .inr rfl
    · next k off h => exact absurd h (hcluster k off)
    · next x off h =>
      rw [if_neg (by rw [hup x off h]; decide), badLines_nil, hurtMask_nil, ← hd]
      exact .inl hv.symm
    · rw [← hd]
      exact .inl hv.symm
  have hmem : v.mem = s.mem := hframe .mem (by decide)
  have hpoison : v.poison = s.poison := hframe .poison (by decide)
  rcases heq with h | h <;> rw [h]
  · exact ⟨hreq, hmem, hpoison⟩
  · exact ⟨hreq, hmem, hpoison⟩

theorem leads_read {s : State} {id : Nat} {r : Req} (hreq : s.req id = some r) (hop : r.op = 0x01) (hvia : r.via = none) (hremote : r.remote = none)
    (hans : r.ans = none) (hcache : s.viaCache r = none) (hown : s.ownPkg r.addr = true) (hserved : s.servedAll r r.len = true) (honce : s.atOnce id r)
    (hcluster : ∀ k off, homeOf (localOf r.addr) ≠ .cluster k off) (hup : ∀ x off, homeOf (localOf r.addr) = .cxl x off → s.cxUp x = true) :
    Leads (.read id []) s fun t =>
      (∃ a, t.req id = some { r with ans := some a } ∧ a.status = poisonStatus (s.readMem (localOf r.addr) r.len).2 ∧
        a.data = (s.readMem (localOf r.addr) r.len).1 ∧ a.poison = (s.readMem (localOf r.addr) r.len).2) ∧
      t.mem = s.mem ∧ t.poison = s.poison := by
  obtain ⟨u, hu, hperform, -⟩ := perform_carriesOut ⟨hreq, hvia, hremote, hans, hcache, hown, by rw [span_read hop]; exact hserved, honce⟩
    (ops := (· == 0x01)) (by rw [hop]; rfl)
  rw [carryOut_read hop] at hperform
  obtain ⟨hanswer, hmem, hpoison⟩ := doRead_answers (s := u) (id := id) hvia ((banks_viaCache hu hown).trans hcache) ((banks_ownPkg hu _).trans hown)
    ((banks_servedAll hu r r.len).trans hserved) hcluster (fun x off hx => (banks_cxUp hu x).trans (hup x off hx)) rfl
  rw [readMem_congr (banks_memSame hu)] at hanswer
  obtain ⟨v, hv⟩ : ∃ v, v = u.doRead id [] r := ⟨_, rfl⟩
  rw [← hv] at hanswer hmem hpoison hperform
  have hexec : exec (.read id []) s = finish served s v := by
    rw [show exec (.read id []) s = execRead id [] s from rfl, execRead, hperform]
  exact ⟨_, hexec, ⟨_, hanswer, rfl, rfl, rfl⟩, hmem.trans (hu.frame .mem (by decide)), hpoison.trans (hu.frame .poison (by decide))⟩

/-! ### What a read of a cluster memory sees of its cycle (R201) -/

theorem cellsSame_of_mem {s t s' t' : State} (hs : s.sameBut [.mem] s') (ht : t.sameBut [.mem] t') (h : CellsSame s t) (hmem : t'.mem = s'.mem) :
    CellsSame s' t' :=
  have dead : ∀ {u u' : State}, u.sameBut [.mem] u' → ∀ x, u'.deadAt x = u.deadAt x := fun hu x => by
    rw [State.deadAt, State.chanFailed, State.chanAt, rd_congr (hu .regs (by decide)).1, rd_congr (hu .regs (by decide)).1]
    rfl
  { mem := hmem
    undef := (ht .undef (by decide)).trans (h.undef.trans (hs .undef (by decide)).symm)
    dead := fun x => (dead ht x).trans ((h.dead x).trans (dead hs x).symm) }

theorem cellsSame_setBs {s t : State} (h : CellsSame s t) (a : Nat) (bs : Bytes) : CellsSame (s.setBs a bs) (t.setBs a bs) := by
  refine cellsSame_of_mem (sameBut_setBs s a bs) (sameBut_setBs t a bs) h ?_
  obtain ⟨hmem, hundef, -⟩ := h
  induction bs generalizing s t a with
  | nil => exact hmem
  | cons b bs ih => exact ih (s := s.setB a b) (t := t.setB a b) (a + 1) (by simp only [State.setB, hmem, hundef]) hundef

theorem memSame_restore {s t : State} (h : MemSame s t) (e : Nat × Bytes × Bool) :
    MemSame ((s.setBs e.1 e.2.1).setPoison e.1 e.2.2) ((t.setBs e.1 e.2.1).setPoison e.1 e.2.2) :=
  { cellsSame_setBs h.toCellsSame e.1 e.2.1 with
    poison := by
      have hs : ∀ u : State, (u.setBs e.1 e.2.1).poison = u.poison := fun u => sameBut_setBs u _ _ .poison (by decide)
      simp only [State.setPoison, hs, h.poison]
    free := (sameBut_setBs t _ _ .free (by decide)).trans (h.free.trans (sameBut_setBs s _ _ .free (by decide)).symm) }

theorem memSame_restores {s t : State} (h : MemSame s t) (l : List (Nat × Bytes × Bool)) :
    MemSame (l.foldl (fun s e => (s.setBs e.1 e.2.1).setPoison e.1 e.2.2) s) (l.foldl (fun s e => (s.setBs e.1 e.2.1).setPoison e.1 e.2.2) t) := by
  induction l generalizing s t with
  | nil => exact h
  | cons e l ih => exact ih (memSame_restore h e)

theorem banks_cycles {s t : State} (h : BanksOnly s t) : t.cycles = s.cycles := by
  rw [State.cycles, State.cycle, State.tick, State.cps, show t.time = s.time from h.frame .time (by decide), show t.fuse = s.fuse from h.frame .fuse (by decide)]
  rfl

/-- A read that was granted sees the cycle as one before the grant does. -/
theorem memSame_beforeCycle {s u : State} (h : BanksOnly s u)
    (hbanks : u = s ∨ u.banks.at_ = s.cycles ∧ u.banks.old = if s.banks.at_ = s.cycles then s.banks.old else []) :
    MemSame s.beforeCycle u.beforeCycle := by
  rcases hbanks with rfl | ⟨hat, hold⟩
  · exact banks_memSame (banksOnly_refl u) |> fun _ => ⟨⟨rfl, rfl, fun _ => rfl⟩, rfl, rfl⟩
  · rw [State.beforeCycle, State.beforeCycle, State.before, State.before, banks_cycles h, if_pos hat, hold]
    split
    · exact memSame_restores (banks_memSame h) _
    · exact banks_memSame h

theorem bankNeed_read {s : State} {r : Req} (hop : r.op = 0x01) : (s.bankNeed r).writes = [] := by
  simp [State.bankNeed, isAtomic, isReduce, isStore, hop]

theorem servedAll_of_not_dram (s : State) {r : Req} (h : ∀ k, homeOf (localOf r.addr) ≠ .dram k) (n : Nat) : s.servedAll r n = true := by
  unfold State.servedAll
  split
  · next k hk => exact absurd hk (h k)
  · rfl

theorem leads_read_cluster {s : State} {id k off : Nat} {r : Req} (hreq : s.req id = some r) (hop : r.op = 0x01) (hvia : r.via = none)
    (hremote : r.remote = none) (hans : r.ans = none) (hcache : s.viaCache r = none) (hown : s.ownPkg r.addr = true) (honce : s.atOnce id r)
    (hhome : homeOf (localOf r.addr) = .cluster k off) :
    Leads (.read id []) s fun t =>
      (∃ a, t.req id = some { r with ans := some a } ∧ a.data = (s.beforeCycle.readMem (localOf r.addr) r.len).1 ∧
        a.poison = (s.beforeCycle.readMem (localOf r.addr) r.len).2) ∧ t.mem = s.mem ∧ t.poison = s.poison := by
  have hserved : ∀ u : State, ∀ n, u.servedAll r n = true := fun u n => servedAll_of_not_dram u (by rw [hhome]; simp) n
  obtain ⟨u, hu, hperform, hbanks⟩ := perform_carriesOut ⟨hreq, hvia, hremote, hans, hcache, hown, hserved s _, honce⟩ (ops := (· == 0x01)) (by rw [hop]; rfl)
  obtain ⟨d, hd⟩ : ∃ d, d = s.beforeCycle.readMem (localOf r.addr) r.len := ⟨_, rfl⟩
  have hread : u.beforeCycle.readMem (localOf r.addr) r.len = d := hd ▸ readMem_congr (memSame_beforeCycle hu (hbanks (bankNeed_read hop))) _ _
  obtain ⟨hanswer, hframe⟩ := answer_shows u id { status := poisonStatus d.2, data := d.1, poison := d.2 } hvia
  obtain ⟨v, hv⟩ : ∃ v, v = u.answer id r { status := poisonStatus d.2, data := d.1, poison := d.2 } := ⟨_, rfl⟩
  have hdo : u.doRead id [] r = v := by
    unfold State.doRead
    rw [banks_viaCache hu hown, hcache]
    dsimp only
    rw [if_neg (by rw [banks_ownPkg hu, hown, hserved]; decide), hhome]
    dsimp only
    rw [hread, ← hv]
  rw [← hv] at hanswer hframe
  have hexec : exec (.read id []) s = finish served s v := by
    rw [show exec (.read id []) s = execRead id [] s from rfl, execRead, hperform, carryOut_read hop, hdo]
  have hmem : v.mem = s.mem := (hframe .mem (by decide)).trans (hu.frame .mem (by decide))
  have hpoison : v.poison = s.poison := (hframe .poison (by decide)).trans (hu.frame .poison (by decide))
  rw [← hd]
  exact ⟨_, hexec, ⟨_, hanswer, rfl, rfl⟩, hmem, hpoison⟩

/-! ### Requests that are not performed yet -/

theorem leads_read_waits {s : State} {id : Nat} {parity : List Nat} {r : Req} (hreq : s.req id = some r) (hvia : r.via = none)
    (hcache : s.viaCache r = none) (hfenced : s.fencedHome (homeOf (localOf r.addr)) false = false)
    (h : s.servedAll r r.span = false ∨ s.travels id false = true) : Leads (.read id parity) s fun t => s.sameBut [] t := by
  refine leads_unchanged (l := served) ?_
  rw [show exec (.read id parity) s = execRead id parity s from rfl, execRead, State.perform, hreq]
  dsimp only
  split
  · rfl
  · next hcome =>
    have htravels : s.travels id false = false := by
      rw [Bool.or_eq_true, not_or] at hcome
      exact Bool.eq_false_iff.mpr hcome.2
    have hserved : s.servedAll r r.span = false := h.resolve_right (by rw [htravels]; decide)
    rw [if_neg (by simp [State.sourceAbsent, hvia]), hvia, hfenced, Bool.and_false]
    simp only [Option.isSome_none, Bool.false_eq_true, if_false, ne_eq, not_true_eq_false]
    rw [if_pos (by simp [State.readyFor, hcache, hserved])]

theorem leads_read_fenced {s : State} {id : Nat} {parity : List Nat} {r : Req} (hreq : s.req id = some r) (hop : r.op = 0x01) (hvia : r.via = none)
    (hremote : r.remote = none) (hans : r.ans = none) (htravels : s.travels id false = false) (hown : s.ownPkg r.addr = true)
    (hfenced : s.fencedHome (homeOf (localOf r.addr)) false = true) :
    Leads (.read id parity) s fun t =>
      t.req id = some { r with ans := some { status := xFENCED } } ∧ t.mem = s.mem ∧ t.poison = s.poison ∧ t.banks = s.banks := by
  obtain ⟨u, hu⟩ : ∃ u, u = s.bump (pgControl (homeRouter (homeOf (localOf r.addr)))) NW_CABSORB_FENCED := ⟨_, rfl⟩
  have hcounted : s.sameBut [.regs] u := hu ▸ sameBut_bump _ _ _ _ _
  obtain ⟨hanswer, hframe⟩ := answer_shows u id { status := xFENCED } hvia
  obtain ⟨v, hv⟩ : ∃ v, v = u.answer id r { status := xFENCED } := ⟨_, rfl⟩
  have hcount : s.countStatus r xFENCED = u := by
    rw [State.countStatus, if_neg (by decide), if_neg (by rintro ⟨h, -⟩; exact absurd h (by decide)), if_neg (by decide), if_pos rfl, hu]
  have hexec : exec (.read id parity) s = finish served s v := by
    rw [show exec (.read id parity) s = execRead id parity s from rfl, execRead, State.perform, hreq]
    dsimp only
    rw [if_neg (by rw [hop, hremote, hans, htravels]; decide), if_neg (by simp [State.sourceAbsent, hvia]), hown, hfenced]
    simp only [hvia, Option.isSome_none, Bool.false_eq_true, if_false, Bool.and_self, if_true]
    rw [if_pos (by decide), hcount, hv]
  rw [← hv] at hanswer hframe
  have hmem : v.mem = s.mem := (hframe .mem (by decide)).trans (hcounted .mem (by decide))
  have hpoison : v.poison = s.poison := (hframe .poison (by decide)).trans (hcounted .poison (by decide))
  have hbanks : v.banks = s.banks := (hframe .banks (by decide)).trans (hcounted .banks (by decide))
  exact ⟨_, hexec, hanswer, hmem, hpoison, hbanks⟩

theorem leads_read_queued {s : State} {id h : Nat} {parity : List Nat} {r : Req} (hreq : s.req id = some r) (hop : r.op = 0x01) (hvia : r.via = none)
    (hremote : r.remote = none) (hans : r.ans = none) (htravels : s.travels id false = false)
    (hfenced : s.fencedHome (homeOf (localOf r.addr)) false = false) (hready : s.readyFor r = true) (hturn : s.hasTurn id r = true)
    (hhome : (s.bankNeed r).home = some h) (hwait : ∀ w ∈ s.banks.wait, w.work ≠ .request id parity)
    (hports : s.portsFree (s.bankRank h r.src r.level false) (s.needPorts (s.bankNeed r)) = false) :
    Leads (.read id parity) s fun t =>
      t.req id = some r ∧ t.mem = s.mem ∧ t.banks.wait = s.banks.wait ++
        [{ rank := s.bankRank h r.src r.level false, page := r.src, need := s.needPorts (s.bankNeed r), work := .request id parity }] := by
  obtain ⟨w, hw⟩ : ∃ w : BankWait, w = { rank := s.bankRank h r.src r.level false, page := r.src, need := s.needPorts (s.bankNeed r), work := .request id parity } :=
    ⟨_, rfl⟩
  have hlost : s.sameBut [.regs] (s.bankLost h r.src false) := by
    unfold State.bankLost
    rw [if_neg (by decide)]
    split
    · exact sameBut_bump _ _ _ _ _
    · split
      · exact sameBut_bump _ _ _ _ _
      · exact sameBut_refl _ s
  obtain ⟨u, hu⟩ : ∃ u, u = (s.bankLost h r.src false).modBanks fun b => { b with wait := b.wait ++ [w] } := ⟨_, rfl⟩
  have hexec : exec (.read id parity) s = finish served s u := by
    rw [show exec (.read id parity) s = execRead id parity s from rfl, execRead, State.perform, hreq]
    dsimp only
    rw [if_neg (by rw [hop, hremote, hans, htravels]; decide), if_neg (by simp [State.sourceAbsent, hvia]), hfenced, Bool.and_false, hvia]
    simp only [Option.isSome_none, Bool.false_eq_true, if_false, ne_eq, not_true_eq_false]
    rw [hready, if_neg (by decide), State.atBanks, hhome, hturn]
    dsimp only
    rw [if_neg (by simpa using hwait), hports, ← hw, hu]
    rfl
  have hhall : u.hall = s.hall := hu ▸ hlost .hall (by decide)
  have hmem : u.mem = s.mem := hu ▸ hlost .mem (by decide)
  have hqueued : u.banks.wait = s.banks.wait ++ [w] := by
    rw [hu]
    change (s.bankLost h r.src false).banks.wait ++ [w] = _
    rw [show (s.bankLost h r.src false).banks = s.banks from hlost .banks (by decide)]
  rw [← hw]
  exact ⟨_, hexec, (req_of_hall hhall id).trans hreq, hmem, hqueued⟩

/-! ### WRITE and WRITE_SHORT (R407) -/

theorem mark_deadAt (s : State) (a : Nat) (b : Bool) (x : Nat) : (s.mark a b).deadAt x = s.deadAt x := by
  have set : ∀ c, (s.setPoison a c).deadAt x = s.deadAt x := fun _ => rfl
  have raised : ∀ pg k info, (s.raise pg k info).deadAt x = s.deadAt x := fun pg k info => by
    by_cases hx : x < 0xA000000000
    · have hchan : (s.raise pg k info).chanAt x = s.chanAt x := by
        rw [State.chanAt, rd_raise_quiet _ _ _ _ (quietFld_of_place (by decide) (by decide) (by decide) (by decide))]
        rfl
      have hlt : s.chanAt x < 256 := by
        dsimp only [State.chanAt, channelOf]
        omega
      obtain ⟨hplain, hev, -⟩ := pgChannel_plain hlt
      rw [State.deadAt, State.chanFailed, hchan, rd_raise_quiet _ _ _ _ ⟨by decide, by decide, .inr (.inr hplain), .inr (.inr hev)⟩]
      rfl
    · rw [deadAt_of_not_dram _ (by omega), deadAt_of_not_dram _ (by omega)]
  unfold State.mark
  split
  · exact set _
  · split
    · dsimp only
      split
      · exact set _
      · exact raised _ _ _
    · exact set _

theorem cellsSame_mark {s t : State} (h : CellsSame s t) (a : Nat) (b b' : Bool) : CellsSame (s.mark a b) (t.mark a b') :=
  { mem := (sameBut_mark t a b' .mem (by decide)).trans (h.mem.trans (sameBut_mark s a b .mem (by decide)).symm)
    undef := (sameBut_mark t a b' .undef (by decide)).trans (h.undef.trans (sameBut_mark s a b .undef (by decide)).symm)
    dead := fun x => (mark_deadAt t a b' x).trans ((h.dead x).trans (mark_deadAt s a b x).symm) }

theorem cellsSame_storeSector {s t : State} (h : CellsSame s t) (a : Nat) (d : Bytes) (poison x : Nat) :
    CellsSame (s.storeSector a d poison x) (t.storeSector a d poison x) := by
  unfold State.storeSector
  rw [h.dead]
  split
  · exact h
  · exact cellsSame_mark (cellsSame_setBs h _ _) _ _ _

theorem writeMem_mem_congr {s t : State} (h : CellsSame s t) (a : Nat) (d : Bytes) (poison : Nat) :
    (t.writeMem a d poison).mem = (s.writeMem a d poison).mem := by
  rw [writeMem_eq_foldl, writeMem_eq_foldl]
  generalize sectors a d.length = l
  induction l generalizing s t with
  | nil => exact h.mem
  | cons x l ih => exact ih (cellsSame_storeSector h a d poison x)

theorem storeLocal_of_not_slice {s : State} {o : Nat} (h : ¬∃ n f, homeOf o = .slice n f) (d : Bytes) (poison : Nat) :
    s.storeLocal o d poison = s.writeMem o d poison := by
  unfold State.storeLocal
  split
  · next n f hn => exact absurd ⟨n, f, hn⟩ h
  · rfl

/-- What a store leaves in memory, on the state that a grant leaves. -/
theorem banks_storeLocal_mem {s t : State} (h : BanksOnly s t) (o : Nat) (d : Bytes) (poison : Nat) :
    (t.storeLocal o d poison).mem = (s.storeLocal o d poison).mem := by
  by_cases hslice : ∃ n f, homeOf o = .slice n f
  · exact (memSame_storeLocal ⟨h.frame .mem (by decide), h.frame .undef (by decide), h.frame .slices (by decide)⟩ d poison (.inr hslice)).1
  · rw [storeLocal_of_not_slice hslice, storeLocal_of_not_slice hslice]
    exact writeMem_mem_congr (banks_memSame h).toCellsSame o d poison

theorem doWrite_stores {s : State} {id : Nat} {r : Req} (hcache : s.viaCache r = none) (hown : s.ownPkg r.addr = true)
    (hserved : s.servedAll r r.len = true) (hcxl : ∀ x f, homeOf (localOf r.addr) ≠ .cxl x f) :
    s.doWrite id [] r = (s.storeLocal (localOf r.addr) (slice r.data 0 r.len) r.poison).answer id r {} := by
  unfold State.doWrite
  rw [hcache]
  dsimp only
  rw [if_neg (by rw [hown, hserved]; decide)]
  split
  · next x f h => exact absurd h (hcxl x f)
  · rfl

theorem homeOf_not_cxl {o : Nat} (h : o < 0x080000000000) (x f : Nat) : homeOf o ≠ .cxl x f := by
  have below0 : ¬(0x080000000000 ≤ o ∧ o < 0x0C0000000000) := by omega
  have below1 : ¬(0x0C0000000000 ≤ o ∧ o < 0x100000000000) := by omega
  rw [homeOf]
  dsimp only
  rw [if_neg below0, if_neg below1]
  split_ifs <;> simp

theorem storeLocal_undef (s : State) (o : Nat) (d : Bytes) (poison : Nat) : (s.storeLocal o d poison).undef = s.undef := by
  by_cases hslice : ∃ n f, homeOf o = .slice n f
  · exact (dieStored_storeLocal s d poison (.inr hslice)).frame .undef (by decide)
  · rw [storeLocal_of_not_slice hslice]
    exact sameBut_writeMem s _ _ _ .undef (by decide)

/-- A store of a request that is ready: what a command that performs it then leaves. -/
theorem perform_stores {s : State} {id : Nat} {r : Req} (h : Ready s id r) (hop : r.op = 0x02 ∨ r.op = 0x03) (hhome : localOf r.addr < 0x080000000000)
    {ops : Nat → Bool} (hops : ops r.op = true) :
    ∃ v : State, s.perform id ops [] = v ∧ v.mem = (s.storeLocal (localOf r.addr) (slice r.data 0 r.len) r.poison).mem ∧
      v.req id = some { r with ans := some {} } := by
  obtain ⟨u, hu, hperform, -⟩ := perform_carriesOut h hops
  have hserved : u.servedAll r r.len = true := (banks_servedAll hu r r.len).trans (span_store hop ▸ h.served)
  rw [carryOut_write hop, doWrite_stores ((banks_viaCache hu h.own).trans h.cache) ((banks_ownPkg hu _).trans h.own) hserved
    (homeOf_not_cxl hhome)] at hperform
  obtain ⟨hanswer, hframe⟩ := answer_shows (u.storeLocal (localOf r.addr) (slice r.data 0 r.len) r.poison) id {} h.via
  exact ⟨_, hperform, (hframe .mem (by decide)).trans (banks_storeLocal_mem hu _ _ _), hanswer⟩

/-- The memory that a store leaves: the bytes outside the 8-byte words it covers are as before. -/
theorem stored_outside {s t : State} {r : Req} (hmem : t.mem = (s.storeLocal (localOf r.addr) (slice r.data 0 r.len) r.poison).mem) (hundef : t.undef = s.undef)
    (b : Nat) (hb : b < localOf r.addr / 8 * 8 ∨ (localOf r.addr + r.len + 7) / 8 * 8 ≤ b) : t.getB b = s.getB b := by
  rw [← storeLocal_getB_outside s r.poison (d := slice r.data 0 r.len) (by rw [slice_length]; exact hb)]
  exact getB_congr hmem (hundef.trans (storeLocal_undef s _ _ _).symm) b

theorem leads_stored {s : State} {id : Nat} {r : Req} (h : Ready s id r) (hop : r.op = 0x02 ∨ r.op = 0x03) (hhome : localOf r.addr < 0x080000000000)
    {ops : Nat → Bool} (hops : ops r.op = true) {c : Instr} (hexec : exec c s = finish served s (s.perform id ops [])) :
    Leads c s fun t =>
      t.mem = (s.storeLocal (localOf r.addr) (slice r.data 0 r.len) r.poison).mem ∧ t.req id = some { r with ans := some {} } ∧
      (∀ b, b < localOf r.addr / 8 * 8 ∨ (localOf r.addr + r.len + 7) / 8 * 8 ≤ b → t.getB b = s.getB b) := by
  obtain ⟨v, hv, hmem, hanswer⟩ := perform_stores h hop hhome hops
  rw [hv] at hexec
  exact ⟨_, hexec, hmem, hanswer, fun b hb => stored_outside (t := s.only served v) hmem rfl b hb⟩

theorem leads_write_cluster {s : State} {id k f : Nat} {r : Req} (h : Ready s id r) (hop : r.op = 0x02) (hhome : homeOf (localOf r.addr) = .cluster k f) :
    Leads (.write ⟨id, []⟩) s fun t => t.getBs (localOf r.addr) r.len = slice r.data 0 r.len := by
  have hdie : dieHome (localOf r.addr) := .inl ⟨k, f, hhome⟩
  obtain ⟨-, hlt⟩ := dieHome_range hdie
  obtain ⟨v, hv, hmem, -⟩ := perform_stores h (.inl hop) (by omega) (ops := (· == 0x02)) (by rw [hop]; rfl)
  have hexec : exec (.write ⟨id, []⟩) s = finish served s v := by
    rw [show exec (.write ⟨id, []⟩) s = execWrite ⟨id, []⟩ s from rfl, execWrite, hv]
  refine ⟨_, hexec, ?_⟩
  beta_reduce
  obtain ⟨w, hw⟩ : ∃ w, w = s.storeLocal (localOf r.addr) (slice r.data 0 r.len) r.poison := ⟨_, rfl⟩
  have hcell : w = s.writeMem (localOf r.addr) (slice r.data 0 r.len) r.poison := hw.trans (storeLocal_of_not_slice (by rw [hhome]; simp) _ _)
  rw [← hw] at hmem
  rw [getBs_congr (s := w) (t := s.only served v) hmem (hw ▸ (storeLocal_undef s _ _ _).symm), hcell]
  have hlen := slice_length r.data 0 r.len
  have := writeMem_getBs_die s (slice r.data 0 r.len) r.poison (dieHome_not_dram hdie)
  rwa [hlen] at this

/-- Settles O50: an access that is ready is carried out on the state its grant leaves, where every memory reads as before. -/
theorem readsAndWritesReachTheirHomes : Obligations.ReadsAndWritesReachTheirHomes := by
  unfold Obligations.ReadsAndWritesReachTheirHomes
  refine ⟨fun _ _ _ h1 h2 h3 h4 h5 h6 h7 h8 h9 h10 h11 => leads_read h1 h2 h3 h4 h5 h6 h7 h8 h9 h10 h11,
    fun _ _ _ _ _ h1 h2 h3 h4 h5 h6 h7 h8 h9 => leads_read_cluster h1 h2 h3 h4 h5 h6 h7 h8 h9,
    fun _ _ _ _ h1 h2 _ _ h5 h6 h7 => leads_read_waits h1 h2 h5 h6 h7,
    fun _ _ _ _ h1 h2 h3 h4 h5 h6 h7 h8 => leads_read_fenced h1 h2 h3 h4 h5 h6 h7 h8,
    fun _ _ _ _ _ h1 h2 h3 h4 h5 h6 h7 h8 h9 h10 h11 h12 => leads_read_queued h1 h2 h3 h4 h5 h6 h7 h8 h9 h10 h11 h12,
    fun _ _ _ h1 hop h3 h4 h5 h6 h7 h8 hhome honce =>
      leads_stored ⟨h1, h3, h4, h5, h6, h7, span_store (.inl hop) ▸ h8, honce⟩ (.inl hop) hhome (ops := (· == 0x02)) (by rw [hop]; rfl) rfl,
    fun _ _ _ h1 hop h3 h4 h5 h6 h7 h8 hhome honce =>
      leads_stored ⟨h1, h3, h4, h5, h6, h7, span_store (.inr hop) ▸ h8, honce⟩ (.inr hop) hhome (ops := (· == 0x03)) (by rw [hop]; rfl) rfl,
    fun s _ _ _ r h1 hop h3 h4 h5 h6 h7 hhome honce =>
      leads_write_cluster ⟨h1, h3, h4, h5, h6, h7, servedAll_of_not_dram s (by rw [hhome]; simp) _, honce⟩ hop hhome⟩

end Sys2Proof.Machine
end

section
/-!
Proofs of the family 09_shared_buffer.md: atomics and reductions at their home slice (O51).
-/

namespace Sys2Proof.Machine

open Sys2Proof

/-! ### Sector by sector, a write away from DRAM is one store -/

theorem setBs_append (s : State) (a : Nat) (b c : Bytes) : s.setBs a (b ++ c) = (s.setBs a b).setBs (a + b.length) c := by
  induction b generalizing s a with
  | nil => rfl
  | cons x b ih =>
    rw [List.cons_append, State.setBs, ih, State.setBs, List.length_cons, Nat.add_assoc, Nat.add_comm 1]

theorem slice_eq_drop_take (b : Bytes) {o n : Nat} (h : o + n ≤ b.length) : slice b o n = (b.take (o + n)).drop o := by
  have hlen : ((b.drop o).take n).length = n := by
    rw [List.length_take, List.length_drop]
    omega
  rw [slice, hlen, Nat.sub_self, List.replicate_zero, List.append_nil, List.drop_take, Nat.add_sub_cancel_left]

/-- The first `k` sectors written leave the memory that one store of their bytes does. -/
theorem memSame_firstSectors (s : State) {a : Nat} (d : Bytes) (poison : Nat) (ha : 0xA000000000 ≤ a) (hd : d.length ≠ 0) (k : Nat)
    (hk : k ≤ (a + d.length - 1) / 64 - a / 64 + 1) :
    memSame (s.setBs a (d.take (64 * (a / 64 + k) - a)))
      (((List.range k).map fun i => (a / 64 + i) * 64).foldl (fun u x => u.storeSector a d poison x) s) := by
  induction k with
  | zero =>
    rw [show 64 * (a / 64 + 0) - a = 0 by omega, List.take_zero]
    exact ⟨rfl, rfl, rfl⟩
  | succ k ih =>
    obtain ⟨x, hx⟩ : ∃ x, x = (a / 64 + k) * 64 := ⟨_, rfl⟩
    have hlast : a / 64 + k ≤ (a + d.length - 1) / 64 := by
      have : a / 64 ≤ (a + d.length - 1) / 64 := Nat.div_le_div_right (by omega)
      omega
    have hbelow : x < a + d.length := by omega
    have hprefix : (d.take (x - a)).length = max a x - a := by
      rw [List.length_take]
      omega
    have hpiece : d.take (x + 64 - a) = d.take (x - a) ++ slice d (max a x - a) (min (a + d.length) (x + 64) - max a x) := by
      have hcut : max a x - a + (min (a + d.length) (x + 64) - max a x) = min (x + 64 - a) d.length := by omega
      have htake : (d.take (x + 64 - a)).take (x - a) = d.take (x - a) := by rw [List.take_take, Nat.min_eq_left (by omega)]
      rw [slice_eq_drop_take d (by omega), hcut, show max a x - a = x - a by omega, ← List.take_eq_take_min, ← htake, List.take_append_drop]
    have hstep := ih (by omega)
    rw [List.range_succ, List.map_append, List.foldl_append]
    generalize ((List.range k).map fun i => (a / 64 + i) * 64).foldl (fun u x => u.storeSector a d poison x) s = u at hstep ⊢
    rw [show 64 * (a / 64 + k) - a = x - a by omega] at hstep
    rw [show 64 * (a / 64 + (k + 1)) - a = x + 64 - a by omega, hpiece, setBs_append, hprefix, List.map_singleton, List.foldl_cons, List.foldl_nil, ← hx,
      show a + (max a x - a) = max a x by omega, storeSector_of_not_dead (deadAt_of_not_dram u (by omega))]
    exact memSame_of_regs (memSame_setBs hstep _ _) (sameBut_mono (sameBut_mark_die _ _ (by omega)) (by decide))

theorem writeMem_mem_die (s : State) {a : Nat} (d : Bytes) (poison : Nat) (ha : 0xA000000000 ≤ a) : (s.writeMem a d poison).mem = (s.setBs a d).mem := by
  rw [writeMem_eq_foldl, sectors]
  split
  · next h => rw [List.length_eq_zero_iff.mp h]; rfl
  · next h =>
    have := (memSame_firstSectors s d poison ha h _ le_rfl).1
    rw [List.take_of_length_le (by omega)] at this
    exact this

/-! ### What a home slice does for an atomic and a reduction -/

theorem readMem_die (s : State) {a : Nat} (ha : 0xA000000000 ≤ a) (n : Nat) : (s.readMem a n).1 = s.getBs a n :=
  List.map_congr_left fun i _ => if_neg (by rw [deadAt_of_not_dram s (by omega)]; decide)

/-- What an atomic or a reduction stores. -/
def atomicResult (s : State) (r : Req) : Bytes :=
  if isReduce r.op then reduceOp (r.op - 0x20) r.ty (s.getBs (localOf r.addr) r.span) r.data
  else le r.span (atomicOp (r.op - 0x10) r.ty (unle (s.getBs (localOf r.addr) r.span)) r.value r.compare)

theorem doAtomic_slice {s : State} {id k off : Nat} {r : Req} (hcache : s.viaCache r = none) (hown : s.ownPkg r.addr = true)
    (hhome : homeOf (localOf r.addr) = .slice k off) :
    ∃ (poison : Nat) (a : Ans), s.doAtomic id r = ((s.writeMem (localOf r.addr) (atomicResult s r) poison).bump (pgSlice k) SB_ATOMS_COUNT).answer id r a ∧
      a.value = (if !isReduce r.op && !r.posted then unle (s.getBs (localOf r.addr) r.span) else 0) ∧
      (isReduce r.op = true → a.status = 0) := by
  have hread := readMem_die s (dieHome_not_dram (.inr ⟨k, off, hhome⟩)) r.span
  unfold State.doAtomic
  rw [hcache]
  dsimp only
  rw [hown, servedAll_of_not_dram s (by rw [hhome]; simp), hhome]
  simp only [Bool.not_true, Bool.or_false, Bool.false_eq_true, if_false, State.targetRead, State.targetWrite, Option.isNone_none, Bool.and_false, hread]
  exact ⟨_, _, rfl, rfl, fun h => by rw [h]; rfl⟩

/-- An atomic or a reduction that is ready, at its home slice: what a command that performs it leaves. -/
theorem perform_atomic {s : State} {id k off : Nat} {r : Req} (h : Ready s id r) (hop : isAtomic r.op = true ∨ isReduce r.op = true)
    (hhome : homeOf (localOf r.addr) = .slice k off) {ops : Nat → Bool} (hops : ops r.op = true) :
    ∃ (v : State) (poison : Nat) (a : Ans), s.perform id ops [] = v ∧
      v.mem = (s.writeMem (localOf r.addr) (atomicResult s r) poison).mem ∧ v.req id = some { r with ans := some a } ∧
      a.value = (if !isReduce r.op && !r.posted then unle (s.getBs (localOf r.addr) r.span) else 0) ∧ (isReduce r.op = true → a.status = 0) ∧
      v.rd (pgSlice k) SB_ATOMS_COUNT = min (s.rd (pgSlice k) SB_ATOMS_COUNT + 1) (2 ^ SB_ATOMS_COUNT.width - 1) := by
  have hdie := dieHome_not_dram (.inr ⟨k, off, hhome⟩)
  obtain ⟨u, hu, hperform, -⟩ := perform_carriesOut h hops
  have hcarry : u.carryOut id [] r = u.doAtomic id r := by
    have hother : r.op ≠ 0x01 ∧ ¬isStore r.op = true := by
      have hrange : 0x10 ≤ r.op := by
        simp only [isAtomic, isReduce, decide_eq_true_eq] at hop
        omega
      refine ⟨by omega, fun hstore => ?_⟩
      simp only [isStore, beq_iff_eq, Bool.or_eq_true] at hstore
      omega
    rw [State.carryOut, parityOf_nil, if_neg hother.1, if_neg hother.2]
  obtain ⟨poison, a, hdo, hvalue, hstatus⟩ := doAtomic_slice (s := u) (id := id) ((banks_viaCache hu h.own).trans h.cache)
    ((banks_ownPkg hu _).trans h.own) hhome
  have hold : ∀ x n, u.getBs x n = s.getBs x n := fun x n => getBs_congr (hu.frame .mem (by decide)) (hu.frame .undef (by decide)) x n
  have hresult : atomicResult u r = atomicResult s r := by rw [atomicResult, hold, atomicResult]
  rw [hcarry, hdo, hresult] at hperform
  rw [hold] at hvalue
  obtain ⟨w, hw⟩ : ∃ w, w = u.writeMem (localOf r.addr) (atomicResult s r) poison := ⟨_, rfl⟩
  rw [← hw] at hperform
  have hregs : w.regs = u.regs := hw ▸ (sameBut_writeMem_die u _ _ hdie .regs (by decide)).1
  obtain ⟨hanswer, hframe⟩ := answer_shows (w.bump (pgSlice k) SB_ATOMS_COUNT) id a h.via
  refine ⟨_, poison, a, hperform, ?_, hanswer, hvalue, hstatus, ?_⟩
  · rw [hframe .mem (by decide), sameBut_bump w _ _ _ _ .mem (by decide), hw]
    exact writeMem_mem_congr (banks_memSame hu).toCellsSame _ _ _
  · rw [rd_congr (hframe .regs (by decide)).1, rd_bump_same, rd_congr hregs, hu.rd _ _ _ (offMerges_of_place (by decide) (by decide) (by decide))]

theorem leads_atomic {s : State} {id k off : Nat} {r : Req} (h : Ready s id r) (hop : isAtomic r.op = true) (hhome : homeOf (localOf r.addr) = .slice k off) :
    Leads (.atomic ⟨id, []⟩) s fun t =>
      t.getBs (localOf r.addr) (tyBytes r.ty) =
        le (tyBytes r.ty) (atomicOp (r.op - 0x10) r.ty (unle (s.getBs (localOf r.addr) (tyBytes r.ty))) r.value r.compare) ∧
      (∀ b, b < localOf r.addr ∨ localOf r.addr + tyBytes r.ty ≤ b → t.getB b = s.getB b) ∧
      (∃ a, t.req id = some { r with ans := some a } ∧
        a.value = if r.posted then 0 else unle (s.getBs (localOf r.addr) (tyBytes r.ty))) ∧
      t.rd (pgSlice k) SB_ATOMS_COUNT = min (s.rd (pgSlice k) SB_ATOMS_COUNT + 1) (2 ^ SB_ATOMS_COUNT.width - 1) := by
  have hdie := dieHome_not_dram (.inr ⟨k, off, hhome⟩)
  have hreduce : isReduce r.op = false := by
    simp only [isAtomic, isReduce, decide_eq_true_eq, decide_eq_false_iff_not] at hop ⊢
    omega
  have hspan : r.span = tyBytes r.ty := if_pos hop
  obtain ⟨v, poison, a, hperform, hmem, hanswer, hvalue, -, hcount⟩ := perform_atomic h (.inl hop) hhome hop
  have hexec : exec (.atomic ⟨id, []⟩) s = finish served s v := by
    rw [show exec (.atomic ⟨id, []⟩) s = execAtomic ⟨id, []⟩ s from rfl, execAtomic, hperform]
  obtain ⟨d, hd⟩ : ∃ d, d = atomicResult s r := ⟨_, rfl⟩
  have hresult : d = le (tyBytes r.ty) (atomicOp (r.op - 0x10) r.ty (unle (s.getBs (localOf r.addr) (tyBytes r.ty))) r.value r.compare) := by
    rw [hd, atomicResult, hreduce, hspan]
    rfl
  have hlen : d.length = tyBytes r.ty := by rw [hresult, le, List.length_map, List.length_range]
  rw [← hd] at hmem
  have hundef : (s.writeMem (localOf r.addr) d poison).undef = s.undef := sameBut_writeMem_die s _ _ hdie .undef (by decide)
  rw [hspan, hreduce] at hvalue
  refine ⟨_, hexec, ?_, fun b hb => ?_, ⟨a, hanswer, ?_⟩, hcount⟩
  · rw [← hresult, ← hlen, getBs_congr (s := s.writeMem (localOf r.addr) d poison) (t := s.only served v) hmem hundef.symm]
    exact writeMem_getBs_die s d poison hdie
  · rw [getB_congr (s := s.writeMem (localOf r.addr) d poison) (t := s.only served v) hmem hundef.symm]
    exact writeMem_getB_outside s poison (hlen ▸ hb)
  · rw [hvalue]
    cases r.posted <;> rfl

theorem leads_reduce {s : State} {id k off : Nat} {r : Req} (h : Ready s id r) (hop : isReduce r.op = true) (hhome : homeOf (localOf r.addr) = .slice k off) :
    Leads (.reduce ⟨id, []⟩) s fun t =>
      t.mem = (s.setBs (localOf r.addr) (reduceOp (r.op - 0x20) r.ty (s.getBs (localOf r.addr) r.span) r.data)).mem ∧
      (∃ a, t.req id = some { r with ans := some a } ∧ a.value = 0 ∧ a.status = 0) ∧
      t.rd (pgSlice k) SB_ATOMS_COUNT = min (s.rd (pgSlice k) SB_ATOMS_COUNT + 1) (2 ^ SB_ATOMS_COUNT.width - 1) := by
  obtain ⟨v, poison, a, hperform, hmem, hanswer, hvalue, hstatus, hcount⟩ := perform_atomic h (.inr hop) hhome hop
  have hexec : exec (.reduce ⟨id, []⟩) s = finish served s v := by
    rw [show exec (.reduce ⟨id, []⟩) s = execReduce ⟨id, []⟩ s from rfl, execReduce, hperform]
  have hresult : atomicResult s r = reduceOp (r.op - 0x20) r.ty (s.getBs (localOf r.addr) r.span) r.data := if_pos hop
  rw [writeMem_mem_die s _ _ (dieHome_not_dram (.inr ⟨k, off, hhome⟩)), hresult] at hmem
  rw [hop] at hvalue
  exact ⟨_, hexec, hmem, ⟨a, hanswer, hvalue, hstatus hop⟩, hcount⟩

/-- A request of another kind is not performed by this command. -/
theorem perform_other {s : State} {id : Nat} {parity : List Nat} {r : Req} (hreq : s.req id = some r) {ops : Nat → Bool} (hops : ops r.op = false) :
    s.perform id ops parity = s := by
  rw [State.perform, hreq]
  dsimp only
  rw [if_pos (by rw [hops]; rfl)]

/-- Settles O51: away from DRAM the sectors of a write make one store, and what it stores is the operation's result on what stood there. -/
theorem atomicsOperateAtHome : Obligations.AtomicsOperateAtHome := by
  unfold Obligations.AtomicsOperateAtHome
  have served : ∀ {s : State} {r : Req} {k off : Nat}, homeOf (localOf r.addr) = .slice k off → s.servedAll r r.span = true :=
    fun h => servedAll_of_not_dram _ (by rw [h]; simp) _
  exact ⟨fun _ _ _ _ _ h1 h2 h3 h4 h5 h6 h7 h8 h9 => leads_atomic ⟨h1, h3, h4, h5, h6, h7, served h8, h9⟩ h2 h8,
    fun _ _ _ _ _ h1 h2 h3 h4 h5 h6 h7 h8 h9 => leads_reduce ⟨h1, h3, h4, h5, h6, h7, served h8, h9⟩ h2 h8,
    fun s id p r h1 h2 => leads_unchanged (l := Machine.served)
      (by rw [show exec (.atomic ⟨id, p⟩) s = execAtomic ⟨id, p⟩ s from rfl, execAtomic, perform_other h1 h2]),
    fun s id p r h1 h2 => leads_unchanged (l := Machine.served)
      (by rw [show exec (.reduce ⟨id, p⟩) s = execReduce ⟨id, p⟩ s from rfl, execReduce, perform_other h1 h2])⟩

end Sys2Proof.Machine
end

section
/-!
Proofs of the family 06_clusters.md: accesses of general cores' programs, their answers, and packing (O56).
-/

namespace Sys2Proof.Machine

open Sys2Proof

/-! ### A general core's state -/

theorem gc_modGc (s : State) (g : Nat) (f : Gcore → Gcore) : (s.modGc g f).gc g = f (s.gc g) := by
  rw [State.gc, State.modGc, aget_aupd_same]
  rfl

theorem gc_of_gcores {s t : State} (h : t.gcores = s.gcores) (g : Nat) : t.gc g = s.gc g := by rw [State.gc, h, State.gc]

theorem gc_only {l : List Comp} {s u : State} {g : Nat} (h : l.contains .gcores = true) : (s.only l u).gc g = u.gc g :=
  gc_of_gcores (by simp only [State.only, h, if_true]) g

theorem gcTry_runs {s : State} {g kind : Nat} (h : s.gcRuns g = true) (f : State → Gcore → State) (land : State → Req → Ans → State) :
    s.gcTry g kind f land = f s (s.gc g) := if_pos h

/-- An instruction whose access is answered takes the answer, which is then gone. -/
theorem gcTry_answered {s : State} {g kind : Nat} {w : Await} {a : Ans} (h : s.gcAnswered g kind w a) (f : State → Gcore → State)
    (land : State → Req → Ans → State) : s.gcTry g kind f land = land (s.modHall fun h => { h with done := adel w.id h.done }) w.req a := by
  obtain ⟨hawaits, hwaits, hdone⟩ := h
  obtain ⟨e, he, rfl⟩ := Option.map_eq_some_iff.mp hdone
  have hruns : s.gcRuns g = false := by simp [State.gcRuns, hawaits]
  rw [State.gcTry, if_neg (by rw [hruns]; decide), if_pos hwaits, hawaits]
  dsimp only
  rw [he]

/-- What taking an answer changes of the device, the core aside. -/
theorem gc_adone (s : State) (id g : Nat) (f : Gcore → Gcore) :
    (((s.modHall fun h => { h with done := adel id h.done }).modGc g f).gc g = f (s.gc g)) ∧
    s.sameBut [.hall, .gcores] ((s.modHall fun h => { h with done := adel id h.done }).modGc g f) := by
  have taken : s.sameBut [.hall] (s.modHall fun h => { h with done := adel id h.done }) := fun k hk => by
    cases k <;> first | exact absurd (by decide) hk | exact ⟨rfl, rfl⟩ | rfl
  exact ⟨gc_modGc _ _ _, sameBut_trans (sameBut_mono taken (by decide)) (sameBut_mono (sameBut_modGc _ _ _) (by decide))⟩

/-! ### Accesses that begin (R210, R212) -/

theorem issueReq_reaches {s : State} {r : Req} (hown : s.ownPkg r.addr = true) (hst : s.originStatus r = 0) :
    ∃ u : State, s.issueReq r = (s.hall.nextId, u) ∧ u.hall.nextId = s.hall.nextId + 1 ∧
      u.req s.hall.nextId = some { r with issuedAt := s.real, level := s.levelOf r } ∧ u.hall.done = s.hall.done ∧ s.sameBut [.hall, .net] u := by
  obtain ⟨x, hx⟩ : ∃ x : Req, x = { r with issuedAt := s.real, level := s.levelOf r } := ⟨_, rfl⟩
  obtain ⟨v, hv⟩ : ∃ v, v = s.modHall fun h => { h with reqs := ains s.hall.nextId x h.reqs, nextId := s.hall.nextId + 1 } := ⟨_, rfl⟩
  have given : s.sameBut [.hall] v := fun k hk => by
    rw [hv]
    cases k <;> first | exact absurd (by decide) hk | exact ⟨rfl, rfl⟩ | rfl
  have hreq : v.req s.hall.nextId = some x := by rw [hv]; exact req_setReq s s.hall.nextId x
  have hstatus : s.originStatus { r with issuedAt := s.real, level := s.levelOf r } = 0 := hst
  have sent : v.sameBut [.net] (v.inject s.hall.nextId x) := sameBut_inject _ _ _
  have hhall := sent .hall (by decide)
  have heq : s.issueReq r = (s.hall.nextId, v.inject s.hall.nextId x) := by
    rw [State.issueReq]
    dsimp only
    rw [if_neg (not_not_intro hstatus), if_pos hown, hv, hx]
  rw [← hx]
  exact ⟨_, heq, (congrArg Hall.nextId hhall).trans (by rw [hv]; rfl), (req_of_hall hhall _).trans hreq, (congrArg Hall.done hhall).trans (by rw [hv]; rfl),
    sameBut_trans (sameBut_mono given (by decide)) (sameBut_mono sent (by decide))⟩

theorem gcAccess_issues {s : State} {g : Nat} {r : Req} (h : s.gcReaches g r) (kind rd : Nat) (wide : Bool) :
    ∃ t : State, s.gcAccess g kind rd wide false r = t ∧ s.gcIssued t g kind rd wide r := by
  obtain ⟨-, -, hown, hst, -⟩ := h
  obtain ⟨u, hu, hnext, hreq, -, hframe⟩ := issueReq_reaches hown hst
  refine ⟨u.modGc g fun c => { c with awaits := some { id := s.hall.nextId, kind := kind, rd := rd, wide := wide, req := r } }, ?_, hnext, hreq, ?_,
    hframe .mem (by decide)⟩
  · rw [State.gcAccess, if_neg (by rintro ⟨h, -⟩; exact absurd h (by decide)), hu]
    dsimp only
    rw [if_pos (by rw [hreq]; rfl)]
  · rw [gc_modGc]

theorem leads_issued {c : Instr} {s : State} {g kind rd : Nat} {wide : Bool} {r : Req} (h : s.gcReaches g r)
    (hexec : exec c s = finish (asked ++ [.descs]) s (s.gcAccess g kind rd wide false r)) :
    Leads c s fun t => s.gcIssued t g kind rd wide r := by
  obtain ⟨t, ht, hnext, hreq, hawaits, -⟩ := gcAccess_issues h kind rd wide
  rw [ht] at hexec
  exact ⟨_, hexec, hnext, hreq, hawaits, rfl⟩

/-- An answer that is taken, by an instruction that changes the core alone. -/
theorem leads_landed {c : Instr} {s : State} {g kind : Nat} {w : Await} {a : Ans} (h : s.gcAnswered g kind w a) (f : Gcore → Gcore)
    {start : State → Gcore → State} {land : State → Req → Ans → State} (hland : ∀ u, land u w.req a = u.modGc g f)
    (hexec : exec c s = finish (asked ++ [.descs]) s (s.gcTry g kind start land)) :
    Leads c s fun t => t.gc g = f (s.gc g) ∧ s.sameBut [.hall, .gcores] t := by
  obtain ⟨hgc, hframe⟩ := gc_adone s w.id g f
  rw [gcTry_answered h, hland] at hexec
  exact ⟨_, hexec, hgc, sameBut_only_of hframe⟩

/-! ### Traps (R222) -/

theorem rd_trap {s : State} {g cause tval : Nat} (hg : g < 640) :
    ((s.userTrap g cause tval).gc g).stopped = true ∧ (s.userTrap g cause tval).rd (pgGcore g) GC_TRAP_CAUSE = cause % 2 ^ GC_TRAP_CAUSE.width := by
  have hquiet : quietFld (pgGcore g) GC_TRAP_CAUSE 0 := quietFld_of_place (by decide) (by decide) (by decide) (by decide)
  refine ⟨by rw [State.userTrap, gc_modGc], ?_⟩
  rw [State.userTrap]
  generalize (State.gc s g).status = st
  have hpart : ∀ u : State, u.gcPart g < 8 := fun u => partOfRiser_lt u (by omega)
  have hother : pgGcore g ≠ pgHt := by
    simp only [pgGcore, pgHt, pageId]
    omega
  rw [rd_congr (sameBut_modGc _ _ _ .regs (by decide)).1, State.gcSlip]
  rw [rd_slip _ _ _ _ _ _ hquiet hother (hpart _), rd_raise_quiet _ _ _ _ hquiet, rd_bump_apart _ _ _ _ (by decide),
    rd_wrs_head _ _ _ _ _ _ (by
      simp [GC_TRAP_CAUSE, GC_TRAP_STATUS, GC_TRAP_PC_OFFSET, GC_TRAP_TVAL_LO_TVAL, GC_TRAP_TVAL_HI_TVAL, Fld.apart, Fld.inPage, Fld.at])]

theorem illegal_traps (s : State) {g : Nat} (hg : g < 640) :
    ((s.illegal g).gc g).stopped = true ∧ (s.illegal g).rd (pgGcore g) GC_TRAP_CAUSE = 2 := by
  obtain ⟨hstopped, hcause⟩ := rd_trap (s := s) (cause := 2) (tval := Config.freeNat s.free % 2 ^ 64) hg
  obtain ⟨u, hu⟩ : ∃ u, u = s.userTrap g 2 (Config.freeNat s.free % 2 ^ 64) := ⟨_, rfl⟩
  rw [← hu] at hstopped hcause
  rw [State.illegal, State.openTrap, ← hu]
  exact ⟨hstopped, hcause⟩

/-- A trap of the program, and all that it shows. -/
theorem leads_traps {c : Instr} {l : List Comp} {s u : State} {g cause : Nat} (hexec : exec c s = finish l s u) (hgc : l.contains .gcores = true)
    (hregs : l.contains .regs = true) (h : (u.gc g).stopped = true ∧ u.rd (pgGcore g) GC_TRAP_CAUSE = cause) :
    Leads c s fun t => (t.gc g).stopped = true ∧ t.rd (pgGcore g) GC_TRAP_CAUSE = cause := by
  refine ⟨_, hexec, ?_, ?_⟩
  · rw [gc_only hgc]
    exact h.1
  · rw [rd_congr (s := u) (by simp only [State.only, hregs, if_true])]
    exact h.2

/-! ### Each access -/

theorem leads_amo {s : State} {g : Fin 640} {op : Fin 9} {wide : Bool} {rd rs1 rs2 : Fin 32} {r : Req}
    (hr : r = s.gcReq g (0x10 + (amoCode op wide).1) (amoCode op wide).2 ((s.gc g).getX rs1) 0
      (if wide then (s.gc g).getX rs2 else (s.gc g).getX rs2 % 2 ^ 32) 0)
    (h : s.gcReaches g r) (hin : crossesSector ((s.gc g).getX rs1) (if wide then 8 else 4) = false) (hatomic : s.atomicAt ((s.gc g).getX rs1) = true) :
    Leads (.amo g op wide rd rs1 rs2) s fun t => s.gcIssued t g 0 rd wide r := by
  have hexec : exec (.amo g op wide rd rs1 rs2) s = finish (asked ++ [.descs]) s (s.gcAccess g 0 rd wide false r) := by
    rw [show exec (.amo g op wide rd rs1 rs2) s = execAmo g op wide rd rs1 rs2 s from rfl, execAmo, gcTry_runs h.1]
    dsimp only
    rw [if_neg (by rw [hin]; decide), hatomic, hr]
    rfl
  exact leads_issued h hexec

theorem gcOutcome_faults (s : State) (g : Nat) (addr : Nat) : ((s.gcOutcome g false false addr xREGIONDENIED).gc g).fault = some (7, addr) := by
  unfold State.gcOutcome
  rw [if_neg (by decide)]
  dsimp only
  rw [if_neg (fun h => absurd h.2.1 (by decide)), gc_modGc]
  rfl

theorem leads_amo_denied {s : State} {g : Fin 640} {op : Fin 9} {wide : Bool} {rd rs1 rs2 : Fin 32} {r : Req}
    (hr : r = s.gcReq g (0x10 + (amoCode op wide).1) (amoCode op wide).2 ((s.gc g).getX rs1) 0
      (if wide then (s.gc g).getX rs2 else (s.gc g).getX rs2 % 2 ^ 32) 0)
    (hruns : s.gcRuns g = true) (hst : s.originStatus r = 0) (hin : crossesSector ((s.gc g).getX rs1) (if wide then 8 else 4) = false)
    (hatomic : s.atomicAt ((s.gc g).getX rs1) = false) :
    Leads (.amo g op wide rd rs1 rs2) s fun t => (t.gc g).fault = some (7, (s.gc g).getX rs1) ∧ t.mem = s.mem := by
  obtain ⟨u, hu⟩ : ∃ u, u = s.countStatus r xREGIONDENIED := ⟨_, rfl⟩
  have hread : (decide (r.op = 0x01)) = false := by
    rw [hr]
    exact decide_eq_false (show ¬0x10 + (amoCode op wide).1 = 0x01 by omega)
  have haddr : r.addr = (s.gc g).getX rs1 := by rw [hr]; rfl
  have hexec : exec (.amo g op wide rd rs1 rs2) s = finish (asked ++ [.descs]) s (u.gcOutcome g false false ((s.gc g).getX rs1) xREGIONDENIED) := by
    rw [show exec (.amo g op wide rd rs1 rs2) s = execAmo g op wide rd rs1 rs2 s from rfl, execAmo, gcTry_runs hruns]
    dsimp only
    rw [if_neg (by rw [hin]; decide), hatomic, ← hr, State.gcAccess, if_pos ⟨rfl, hst⟩, hread, haddr, hu]
  exact ⟨_, hexec, gcOutcome_faults u g _, rfl⟩

theorem leads_lr {s : State} {g : Fin 640} {wide : Bool} {rd rs1 : Fin 32} {n : Nat} (hn : n = if wide then 8 else 4)
    (h : s.gcReaches g (s.gcReq g 0x01 0 ((s.gc g).getX rs1) n 0 0)) (hal : (s.gc g).getX rs1 % n = 0) (hatomic : s.atomicAt ((s.gc g).getX rs1) = true) :
    Leads (.lr g wide rd rs1) s fun t => s.gcIssued t g 1 rd wide (s.gcReq g 0x01 0 ((s.gc g).getX rs1) n 0 0) := by
  have hexec : exec (.lr g wide rd rs1) s = finish (asked ++ [.descs]) s (s.gcAccess g 1 rd wide false (s.gcReq g 0x01 0 ((s.gc g).getX rs1) n 0 0)) := by
    rw [show exec (.lr g wide rd rs1) s = execLr g wide rd rs1 s from rfl, execLr, gcTry_runs h.1]
    dsimp only
    rw [← hn, if_neg (not_not_intro hal), hatomic]
    rfl
  exact leads_issued h hexec

theorem leads_lr_misaligned {s : State} {g : Fin 640} {wide : Bool} {rd rs1 : Fin 32} (hruns : s.gcRuns g = true)
    (hal : (s.gc g).getX rs1 % (if wide then 8 else 4) ≠ 0) :
    Leads (.lr g wide rd rs1) s fun t => (t.gc g).stopped = true ∧ t.rd (pgGcore g) GC_TRAP_CAUSE = 4 := by
  have hexec : exec (.lr g wide rd rs1) s = finish (asked ++ [.descs]) s (s.userTrap g 4 ((s.gc g).getX rs1)) := by
    rw [show exec (.lr g wide rd rs1) s = execLr g wide rd rs1 s from rfl, execLr, gcTry_runs hruns]
    dsimp only
    rw [if_pos hal]
  exact leads_traps hexec (by decide) (by decide) (rd_trap g.isLt)

theorem leads_sc {s : State} {g : Fin 640} {wide : Bool} {rd rs1 rs2 : Fin 32} {n v : Nat} {r : Req} (hn : n = if wide then 8 else 4)
    (hr : r = s.gcReq g 0x14 (if wide then 7 else 6) ((s.gc g).getX rs1) 0 ((s.gc g).getX rs2 % 2 ^ (8 * n)) v) (h : s.gcReaches g r)
    (hal : (s.gc g).getX rs1 % n = 0) (hres : (s.gc g).reserved = some ((s.gc g).getX rs1, n, v)) (hatomic : s.atomicAt ((s.gc g).getX rs1) = true) :
    Leads (.sc g wide rd rs1 rs2) s fun t => s.gcIssued t g 2 rd wide r := by
  have hexec : exec (.sc g wide rd rs1 rs2) s = finish (asked ++ [.descs]) s (s.gcAccess g 2 rd wide false r) := by
    rw [show exec (.sc g wide rd rs1 rs2) s = execSc g wide rd rs1 rs2 s from rfl, execSc, gcTry_runs h.1]
    dsimp only
    rw [← hn, if_neg (not_not_intro hal), hres]
    dsimp only
    rw [if_pos ⟨rfl, rfl⟩, hatomic, hr]
    rfl
  exact leads_issued h hexec

theorem leads_sc_fails {s : State} {g : Fin 640} {wide : Bool} {rd rs1 rs2 : Fin 32} (hruns : s.gcRuns g = true)
    (hal : (s.gc g).getX rs1 % (if wide then 8 else 4) = 0) (hatomic : s.atomicAt ((s.gc g).getX rs1) = true) (hres : (s.gc g).reserved = none) :
    Leads (.sc g wide rd rs1 rs2) s fun t => t.gc g = { ((s.gc g).setX rd 1).retire with reserved := none } ∧ t.mem = s.mem := by
  have hexec : exec (.sc g wide rd rs1 rs2) s =
      finish (asked ++ [.descs]) s (s.modGc g fun u => { (u.setX rd 1).retire with reserved := none }) := by
    rw [show exec (.sc g wide rd rs1 rs2) s = execSc g wide rd rs1 rs2 s from rfl, execSc, gcTry_runs hruns]
    dsimp only
    rw [if_neg (not_not_intro hal), hres]
    dsimp only
    rw [hatomic]
    rfl
  exact ⟨_, hexec, (gc_only (by decide)).trans (gc_modGc _ _ _), rfl⟩

theorem leads_crcblk {s : State} {g : Fin 640} {rd rs1 : Fin 32} (h : s.gcReaches g (s.gcReq g 0x01 0 ((s.gc g).getX rs1) 2048 0 0))
    (hal : (s.gc g).getX rs1 % 2048 = 0) :
    Leads (.crcblk g rd rs1) s fun t => s.gcIssued t g 3 rd true (s.gcReq g 0x01 0 ((s.gc g).getX rs1) 2048 0 0) := by
  have hexec : exec (.crcblk g rd rs1) s =
      finish (asked ++ [.descs]) s (s.gcAccess g 3 rd true false (s.gcReq g 0x01 0 ((s.gc g).getX rs1) 2048 0 0)) := by
    rw [show exec (.crcblk g rd rs1) s = execCrcblk g rd rs1 s from rfl, execCrcblk, gcTry_runs h.1]
    dsimp only
    rw [if_neg (not_not_intro hal)]
  exact leads_issued h hexec

theorem leads_descld {s : State} {g : Fin 640} {vd rs1 : Fin 32} (h : s.gcReaches g (s.gcReq g 0x01 0 ((s.gc g).getX rs1) 64 0 0))
    (hal : (s.gc g).getX rs1 % 64 = 0) :
    Leads (.descld g vd rs1) s fun t => s.gcIssued t g 4 vd true (s.gcReq g 0x01 0 ((s.gc g).getX rs1) 64 0 0) := by
  have hexec : exec (.descld g vd rs1) s =
      finish (asked ++ [.descs]) s (s.gcAccess g 4 vd true false (s.gcReq g 0x01 0 ((s.gc g).getX rs1) 64 0 0)) := by
    rw [show exec (.descld g vd rs1) s = execDescld g vd rs1 s from rfl, execDescld, gcTry_runs h.1]
    dsimp only
    rw [if_neg (not_not_intro hal)]
  exact leads_issued h hexec

/-- A descriptor that is refused makes its event, which leaves the cores. -/
theorem gcores_descNote (s : State) (g a st : Nat) : (s.descNote g a st).gcores = s.gcores := by
  unfold State.descNote
  split
  · exact (raise_eventOnly _ _ _ _).1 .gcores (by decide)
  · split
    · exact (raise_eventOnly _ _ _ _).1 .gcores (by decide)
    · rfl

theorem leads_descld_answered {s : State} {g : Fin 640} {vd rs1 : Fin 32} {w : Await} {a : Ans} {st : Nat} (h : s.gcAnswered g 4 w a)
    (hst : st = coreDesc (s.gcPart g) (Tensor.of a.data)) :
    Leads (.descld g vd rs1) s fun t =>
      t.gc g = ((if st = 0 then (s.gc g).setV vd a.data else s.gc g).setStatus st).retire ∧ t.mem = s.mem := by
  obtain ⟨u, hu⟩ : ∃ u, u = (s.modHall fun h => { h with done := adel w.id h.done }).modGc g fun u => ((if st = 0 then u.setV vd a.data else u).setStatus st).retire :=
    ⟨_, rfl⟩
  have hgc : u.gc g = ((if st = 0 then (s.gc g).setV vd a.data else s.gc g).setStatus st).retire := by
    rw [hu]
    exact (gc_adone s w.id g _).1
  have hexec : exec (.descld g vd rs1) s = finish (asked ++ [.descs]) s (u.descNote g w.req.addr st) := by
    rw [show exec (.descld g vd rs1) s = execDescld g vd rs1 s from rfl, execDescld, gcTry_answered h]
    dsimp only
    rw [show (s.modHall fun h => { h with done := adel w.id h.done }).gcPart g = s.gcPart g from rfl, ← hst, ← hu]
  exact ⟨_, hexec, (gc_of_gcores (gcores_descNote u _ _ _) g).trans hgc, rfl⟩

/-! ### Packing (R215 to R217) -/

theorem gcDo_runs {s : State} {g : Nat} (h : s.gcRuns g = true) (f : State → Gcore → State) : s.gcDo g f = f s (s.gc g) := if_pos h

theorem leads_mxpack {s : State} {g : Fin 640} {vd vs rs1 : Fin 32} {x : Bytes × Nat} (hruns : s.gcRuns g = true)
    (hlegal : (s.gc g).mxIllegal vs ((s.gc g).getX rs1 % 32) = false)
    (hx : x = mxPack ((s.gc g).getX rs1 % 32) ((List.range 32).map fun i =>
      fFP32.decode (fieldAt ((s.gc g).getV vs ++ (s.gc g).getV (vs.val + 1)) (4 * i) 4))) :
    Leads (.mxpack g vd vs rs1) s fun t => t.gc g = (((s.gc g).setV vd x.1).flag x.2).retire ∧ s.sameBut [.gcores] t := by
  have hexec : exec (.mxpack g vd vs rs1) s = finish (evented ++ [.gcores]) s (s.modGc g fun u => ((u.setV vd x.1).flag x.2).retire) := by
    rw [show exec (.mxpack g vd vs rs1) s = execMxpack g vd vs rs1 s from rfl, execMxpack, gcDo_runs hruns]
    dsimp only
    rw [if_neg (by rw [hlegal]; decide), ← hx]
  exact ⟨_, hexec, (gc_only (by decide)).trans (gc_modGc _ _ _), sameBut_only_of (sameBut_modGc _ _ _)⟩

theorem leads_mxpack_illegal {s : State} {g : Fin 640} {vd vs rs1 : Fin 32} (hruns : s.gcRuns g = true)
    (hillegal : (s.gc g).mxIllegal vs ((s.gc g).getX rs1 % 32) = true) :
    Leads (.mxpack g vd vs rs1) s fun t => (t.gc g).stopped = true ∧ t.rd (pgGcore g) GC_TRAP_CAUSE = 2 := by
  have hexec : exec (.mxpack g vd vs rs1) s = finish (evented ++ [.gcores]) s (s.illegal g) := by
    rw [show exec (.mxpack g vd vs rs1) s = execMxpack g vd vs rs1 s from rfl, execMxpack, gcDo_runs hruns]
    dsimp only
    rw [if_pos hillegal]
  exact leads_traps hexec (by decide) (by decide) (illegal_traps s g.isLt)

theorem unle_le (n v : Nat) : unle (le n v) = v % 2 ^ (8 * n) := by
  induction n generalizing v with
  | zero => simp [le, unle, Nat.mod_one]
  | succ n ih =>
    have hcons : le (n + 1) v = BitVec.ofNat 8 v :: le n (v / 2 ^ 8) := by
      simp only [le, List.range_succ_eq_map, List.map_cons, List.map_map, Nat.mul_zero, Nat.shiftRight_zero]
      refine congrArg _ (List.map_congr_left fun i _ => ?_)
      simp only [Function.comp_apply, Nat.shiftRight_eq_div_pow, Nat.div_div_eq_div_mul, ← Nat.pow_add]
      rw [show 8 * (i + 1) = 8 + 8 * i by omega]
    rw [hcons, unle, ih, BitVec.toNat_ofNat, show 8 * (n + 1) = 8 + 8 * n by omega, Nat.pow_add, Nat.mod_mul]

/-- Pieces of four bytes, one after the other: each is at its place. -/
theorem slice_flatMap {α : Type} (f : α → Bytes) (hf : ∀ x, (f x).length = 4) (l : List α) {i : Nat} (hi : i < l.length) :
    slice (l.flatMap f) (4 * i) 4 = f l[i] := by
  have hdrop : (l.flatMap f).drop (4 * i) = f l[i] ++ (l.drop (i + 1)).flatMap f := by
    induction l generalizing i with
    | nil => exact absurd hi (Nat.not_lt_zero _)
    | cons x l ih =>
      cases i with
      | zero => rfl
      | succ i =>
        rw [List.flatMap_cons, show 4 * (i + 1) = (f x).length + 4 * i by rw [hf]; omega, List.drop_length_add_append, ih (Nat.lt_of_succ_lt_succ hi)]
        rfl
  rw [slice, hdrop, List.take_left' (hf _), hf, Nat.sub_self, List.replicate_zero, List.append_nil]

theorem length_flatMap_four {α : Type} (f : α → Bytes) (hf : ∀ x, (f x).length = 4) (l : List α) : (l.flatMap f).length = 4 * l.length := by
  rw [List.length_flatMap, List.map_congr_left fun x _ => hf x, List.map_const', List.sum_replicate, smul_eq_mul, Nat.mul_comm]

theorem getV_setV_same (u : Gcore) (n : Nat) (d : Bytes) : (u.setV n d).getV n = slice d 0 64 := aget_aset_same ..

theorem getV_setV_other (u : Gcore) {n k : Nat} (d : Bytes) (h : k ≠ n) : (u.setV n d).getV k = u.getV k := aget_aset_other _ _ _ h

/-- Two halves of 128 bytes written to a pair of registers are read as they were. -/
theorem getV_pair (u : Gcore) (n : Nat) {out : Bytes} (h : out.length = 128) :
    ((u.setV n (slice out 0 64)).setV (n + 1) (slice out 64 64)).getV n ++ ((u.setV n (slice out 0 64)).setV (n + 1) (slice out 64 64)).getV (n + 1) = out := by
  have whole : ∀ o, slice (slice out o 64) 0 64 = slice out o 64 := fun o => by
    have := slice_zero_length (slice out o 64)
    rwa [slice_length] at this
  rw [getV_setV_other _ _ (Nat.ne_of_lt (Nat.lt_succ_self n)), getV_setV_same, getV_setV_same, whole, whole, slice_eq_drop_take out (by omega),
    slice_eq_drop_take out (by omega), List.drop_zero, List.take_of_length_le (i := 64 + 64) (by omega)]
  exact List.take_append_drop 64 out

/-- What MXUNPACK makes of a block: its elements in FP32 and their flags. -/
def unpacked (d : Bytes) (f : Nat) : List (Nat × Nat) := (slotCodes d 32 (fmtBits f)).map (mxElem f (fieldAt d 63 1))

theorem unpacked_getElem (d : Bytes) (f : Nat) {i : Nat} (hi : i < 32) (h : i < (unpacked d f).length) :
    (unpacked d f)[i] = mxElem f (fieldAt d 63 1) ((slotCodes d 32 (fmtBits f)).getD i 0) := by
  have hlen : i < (slotCodes d 32 (fmtBits f)).length := by simpa [slotCodes] using hi
  rw [List.getD_eq_getElem _ _ hlen]
  simp [unpacked]

theorem leads_mxunpack {s : State} {g : Fin 640} {vd vs rs1 : Fin 32} (hruns : s.gcRuns g = true)
    (hlegal : (s.gc g).mxIllegal vd ((s.gc g).getX rs1 % 32) = false) :
    Leads (.mxunpack g vd vs rs1) s fun t => (t.gc g).pc = (s.gc g).pc + 4 ∧ (t.gc g).retired = (s.gc g).retired + 1 ∧
      s.sameBut [.gcores] t ∧ (∀ i, i ≠ vd.val → i ≠ vd.val + 1 → (t.gc g).getV i = (s.gc g).getV i) ∧
      ∀ i, i < 32 → fieldAt ((t.gc g).getV vd ++ (t.gc g).getV (vd + 1)) (4 * i) 4 =
        (mxElem ((s.gc g).getX rs1 % 32) (fieldAt ((s.gc g).getV vs) 63 1)
          ((slotCodes ((s.gc g).getV vs) 32 (fmtBits ((s.gc g).getX rs1 % 32))).getD i 0)).1 % 2 ^ 32 := by
  obtain ⟨es, hes⟩ : ∃ es, es = unpacked ((s.gc g).getV vs) ((s.gc g).getX rs1 % 32) := ⟨_, rfl⟩
  obtain ⟨out, hout⟩ : ∃ out, out = es.flatMap fun e => le 4 e.1 := ⟨_, rfl⟩
  obtain ⟨fl, hfl⟩ : ∃ fl, fl = es.foldl (fun x e => x ||| e.2) 0 := ⟨_, rfl⟩
  have hle : ∀ e : Nat × Nat, (le 4 e.1).length = 4 := fun e => by simp [le]
  have hcount : es.length = 32 := by simp [hes, unpacked, slotCodes]
  have hexec : exec (.mxunpack g vd vs rs1) s = finish (evented ++ [.gcores]) s
      (s.modGc g fun u => (((u.setV vd (slice out 0 64)).setV (vd.val + 1) (slice out 64 64)).flag fl).retire) := by
    rw [show exec (.mxunpack g vd vs rs1) s = execMxunpack g vd vs rs1 s from rfl, execMxunpack, gcDo_runs hruns]
    dsimp only
    rw [if_neg (by rw [hlegal]; decide), hfl, hout, hes]
    rfl
  refine ⟨_, hexec, ?_⟩
  beta_reduce
  rw [gc_only (by decide), gc_modGc]
  generalize hu : s.gc g = u at *
  have hawaits : u.awaits = none := by
    rw [← hu]
    simp only [State.gcRuns, Bool.and_eq_true, Option.isNone_iff_eq_none] at hruns
    exact hruns.1.2
  refine ⟨?_, rfl, sameBut_only_of (sameBut_modGc _ _ _), fun i hd hd1 => ?_, fun i hi => ?_⟩
  · change (if u.awaits.any Await.moved then u.pc else u.pc + 4) = u.pc + 4
    rw [hawaits]
    rfl
  · change ((u.setV vd (slice out 0 64)).setV (vd.val + 1) (slice out 64 64)).getV i = u.getV i
    rw [getV_setV_other _ _ hd1, getV_setV_other _ _ hd]
  · change fieldAt (((u.setV vd (slice out 0 64)).setV (vd.val + 1) (slice out 64 64)).getV vd ++
      ((u.setV vd (slice out 0 64)).setV (vd.val + 1) (slice out 64 64)).getV (vd.val + 1)) (4 * i) 4 = _
    rw [getV_pair u vd (by rw [hout, length_flatMap_four _ hle, hcount]), fieldAt, hout, slice_flatMap _ hle _ (by rw [hcount]; exact hi), unle_le]
    simp only [hes]
    rw [unpacked_getElem _ _ hi]

/-- Settles O56: an access that its origin lets pass is issued, one that is answered lands, and the rest follow the branch they name. -/
theorem coreAccessesAndPacking : Obligations.CoreAccessesAndPacking := by
  unfold Obligations.CoreAccessesAndPacking
  refine ⟨fun _ _ _ _ _ _ _ _ hr h h1 h2 => leads_amo hr h h1 h2, ?_,
    fun _ _ _ _ _ _ _ _ hr h1 h2 h3 h4 => leads_amo_denied hr h1 h2 h3 h4, ?_, ?_, ?_,
    ?_, ?_, ?_, ?_, ?_,
    fun _ _ _ _ _ _ _ h hst => leads_descld_answered h hst, fun _ _ _ _ _ h1 h2 => leads_lr_misaligned h1 h2,
    fun _ _ _ _ _ _ h1 h2 h3 => leads_mxpack h1 h2 h3, fun _ _ _ _ _ h1 h2 => leads_mxpack_illegal h1 h2, fun _ _ _ _ _ h1 h2 => leads_mxunpack h1 h2⟩
  · intro s g op wide rd rs1 rs2 w a h
    exact leads_landed h (fun u => (u.setX rd (sext wide a.value)).retire) (fun _ => rfl) rfl
  · rintro s g wide rd rs1 a n rfl hn h hal hatomic
    exact leads_lr hn h hal hatomic
  · intro s g wide rd rs1 w a h
    exact leads_landed h (fun u => { (u.setX rd (sext wide (unle a.data))).retire with reserved := some (w.req.addr, w.req.len, unle a.data) })
      (fun _ => rfl) rfl
  · rintro s g wide rd rs1 rs2 a n v r rfl hn hr h hal hres hatomic
    exact leads_sc hn hr h hal hres hatomic
  · intro s g wide rd rs1 rs2 w a h
    exact leads_landed h (fun u => { (u.setX rd (if a.value = w.req.compare then 0 else 1)).retire with reserved := none }) (fun _ => rfl) rfl
  · rintro s g wide rd rs1 rs2 a rfl h hal hatomic hres
    exact leads_sc_fails h hal hatomic hres
  · rintro s g rd rs1 a rfl h hal
    exact leads_crcblk h hal
  · intro s g rd rs1 w a h
    exact leads_landed h (fun u => (u.setX rd (crc32c a.data)).retire) (fun _ => rfl) rfl
  · rintro s g vd rs1 a rfl h hal
    exact leads_descld h hal

end Sys2Proof.Machine
end

section
/-!
Proofs of the family 12_sprue_and_far_tier.md: register frames (O32).
-/

namespace Sys2Proof.Machine

open Sys2Proof

/-! ### Pages of control space -/

theorem pgType_pageId {ty n : Nat} (h : n < 65536) : pgType (pageId ty n) = ty := by
  rw [pgType, pageId]
  omega

theorem pgInst_pageId {ty n : Nat} (h : n < 65536) : pgInst (pageId ty n) = n := by
  rw [pgInst, pageId]
  omega

/-- A page lies in no Riser, or in one of the eight. -/
def inRisers (pg : Nat) : Prop := ∀ r, riserOf pg = some r → r < 8

/-- How many units of a page type eight Risers have. -/
def unitsOf (ty : Nat) : Nat :=
  match ty with
  | 0x0011 => 320
  | 0x0012 => 640
  | 0x0020 => 256
  | 0x0010 | 0x0013 | 0x0014 | 0x0015 | 0x0016 => 80
  | 0x0034 => 32
  | _ => 8

theorem inRisers_of_inst {pg : Nat} (h : pgInst pg < unitsOf (pgType pg)) : inRisers pg := by
  intro r hr
  unfold riserOf at hr
  dsimp only at hr
  split at hr <;> simp only [Option.some.injEq, reduceCtorEq] at hr
  all_goals
    next hty =>
      rw [hty] at h
      simp only [unitsOf] at h
      omega

theorem inRisers_unit {ty n : Nat} (hn : n < unitsOf ty) (hle : n < 65536) : inRisers (pageId ty n) :=
  inRisers_of_inst (by rw [pgType_pageId hle, pgInst_pageId hle]; exact hn)

theorem inRisers_pgRouter {net r : Nat} (hnet : net < 3) (hr : r < 88) : inRisers (pgRouter net r) := by
  unfold pgRouter
  split
  · interval_cases net <;> exact inRisers_unit (by simp only [unitsOf]; omega) (by omega)
  · interval_cases net <;> exact inRisers_unit (by simp only [unitsOf]; omega) (by omega)

theorem inRisers_clusterPage {c k pg : Nat} (hc : c < 80) (h : clusterPage c k = some pg) : inRisers pg := by
  unfold clusterPage at h
  split_ifs at h <;> injection h with h <;> subst h
  case pos | pos | pos | pos => exact inRisers_unit (by simp only [unitsOf]; omega) (by omega)
  case pos => exact inRisers_pgRouter (by omega) (by omega)

theorem inRisers_port {ty n : Nat} (hty : ty = 0x0040 ∨ ty = 0x0041) (hle : n < 65536) : inRisers (pageId ty n) := by
  intro r hr
  rw [riserOf, pgType_pageId hle] at hr
  rcases hty with rfl | rfl <;> exact absurd hr (by simp)

theorem ite_cases {c : Prop} [Decidable c] {x y : Option Nat} {v : Nat} (h : (if c then x else y) = some v) :
    (c ∧ x = some v) ∨ (¬c ∧ y = some v) := by
  split at h
  · next hc => exact .inl ⟨hc, h⟩
  · next hc => exact .inr ⟨hc, h⟩

theorem inRisers_pageAt {k pg : Nat} (h : pageAt k = some pg) : inRisers pg := by
  have single : ∀ {ty n : Nat}, n < 8 → inRisers (pageId ty n) := fun hn =>
    inRisers_unit (Nat.lt_of_lt_of_le hn (by unfold unitsOf; split <;> decide)) (by omega)
  have one : ∀ {ty n : Nat}, some (pageId ty n) = some pg → n < 8 → inRisers pg := fun h hn => Option.some.inj h ▸ single hn
  rw [pageAt] at h
  obtain ⟨-, h⟩ | ⟨-, h⟩ := ite_cases h
  · exact one h (by decide)
  obtain ⟨-, h⟩ | ⟨-, h⟩ := ite_cases h
  · exact one h (by decide)
  obtain ⟨hk, h⟩ | ⟨-, h⟩ := ite_cases h
  · obtain ⟨hc, h⟩ | ⟨-, h⟩ := ite_cases h
    · exact inRisers_clusterPage (by omega) h
    · exact absurd h (by simp)
  obtain ⟨hk, h⟩ | ⟨-, h⟩ := ite_cases h
  · unfold riserPage at h
    split_ifs at h <;> injection h with h <;> subst h
    · exact inRisers_unit (by simp only [unitsOf]; omega) (by omega)
    · exact single (by omega)
  obtain ⟨-, h⟩ | ⟨-, h⟩ := ite_cases h
  · exact one h (by decide)
  obtain ⟨hk, h⟩ | ⟨-, h⟩ := ite_cases h
  · unfold slicePage at h
    split_ifs at h <;> injection h with h <;> subst h
    · exact single (by omega)
    · exact inRisers_pgRouter (by omega) (by omega)
    · exact inRisers_unit (by simp only [unitsOf]; omega) (by omega)
  obtain ⟨hk, h⟩ | ⟨-, h⟩ := ite_cases h
  · unfold runnerPage at h
    split_ifs at h <;> injection h with h <;> subst h
    · exact inRisers_port (.inl rfl) (by omega)
    · exact inRisers_port (.inr rfl) (by omega)
  iterate 8
    obtain ⟨-, h⟩ | ⟨-, h⟩ := ite_cases h
    · exact one h (by decide)
  exact absurd h (by simp)

theorem inRisers_of_place {x pg o : Nat} (h : placeOf x = .page pg o) : inRisers pg := by
  rw [placeOf] at h
  split at h
  · exact absurd h (by simp)
  split at h
  · dsimp only at h
    split at h <;> exact absurd h (by simp)
  split at h
  · next q hq =>
    injection h with h
    exact h ▸ inRisers_pageAt hq
  · exact absurd h (by simp)

/-- The word of SCRATCH holds it alone: block registers lie behind the header. -/
theorem cellsAt_scratch (pg : Nat) : cellsAt pg (SCRATCH_VALUE.at 0) = [(SCRATCH_VALUE, 0)] := by
  have block : ∀ F ∈ blockFields pg, F.instAt (SCRATCH_VALUE.at 0) = none := by
    have pages : ∀ l ∈ [Fld.hallFabricPage, Fld.clusterPage, Fld.matrixPage, Fld.gcorePage, Fld.moverPage, Fld.bulkRouterPage, Fld.ctrlRouterPage,
        Fld.syncRouterPage, Fld.channelPage, Fld.colGroupPage, Fld.partingLinkPage, Fld.slicePage, Fld.runnerPage, Fld.lanePage, Fld.spruePage,
        Fld.cxlPage, Fld.mordantPage, Fld.housekeepingPage, Fld.bringupPage, Fld.hallTimePage, Fld.eventsPage],
        ∀ F ∈ l, F.instAt (SCRATCH_VALUE.at 0) = none := by decide +kernel
    intro F hF
    unfold blockFields at hF
    split at hF
    case h_7 | h_8 => exact pages _ (by simp) F (List.mem_of_mem_filter hF)
    case h_26 => exact absurd hF List.not_mem_nil
    all_goals exact pages _ (by simp) F hF
  have header : ∀ a b : Bool, (Fld.headerPage.filter fun F => (decide (F ≠ PAGE_CTRL_FENCE) || a) && (decide (F ≠ PAGE_CTRL_RESET_REQ) || b)).filterMap
      (fun F => (F.instAt (SCRATCH_VALUE.at 0)).map fun i => (F, i)) = [(SCRATCH_VALUE, 0)] := by decide +kernel
  rw [cellsAt, pageFields, List.filterMap_append, header, List.filterMap_eq_nil_iff.mpr fun F hF => by rw [block F hF]; rfl, List.append_nil]

/-! ### Reads of registers leave the Sprue port -/

theorem countStatus_unmapped_sprue (s : State) (r : Req) : (s.countStatus r xUNMAPPED).sprue = s.sprue := by
  have counted : ((s.bump pgHall NW_HUNMAP_COUNT).wr pgHall NW_HUNMAP_SRC (pgInst r.src)).sprue = s.sprue := sprue_bump _ _ _ _ _
  rw [State.countStatus]
  dsimp only
  rw [if_pos rfl]
  split
  · exact counted
  · exact (raise_same _ _ _ _ .sprue (by decide)).trans counted

theorem readClear_sprue (s : State) (pg : Nat) (e : Fld × Nat) : (s.readClear pg e).sprue = s.sprue := by
  unfold State.readClear
  dsimp only
  split
  · rfl
  · split <;> rfl

theorem readPage_sprue (s : State) (src pg o : Nat) : (s.readPage src pg o).2.sprue = s.sprue := by
  have cleared : ∀ (l : List (Fld × Nat)) (u : State), (l.foldl (fun t e => t.readClear pg e) u).sprue = u.sprue := fun l => by
    induction l with
    | nil => exact fun _ => rfl
    | cons e l ih => exact fun u => (ih _).trans (readClear_sprue u pg e)
  have latched : ∀ (l : List Nat) (u : State), (l.foldl (fun t c => t.setLatch src pg c (some (s.regWord pg c))) u).sprue = u.sprue := fun l => by
    induction l with
    | nil => exact fun _ => rfl
    | cons c l ih => exact fun u => (ih _).trans rfl
  exact (cleared _ _).trans (latched _ _)

theorem readWord_sprue (s : State) (src x : Nat) : (s.readWord src x).2.2.sprue = s.sprue := by
  unfold State.readWord
  dsimp only
  split
  · rfl
  · split
    · exact countStatus_unmapped_sprue s _
    · rfl
    · rfl
    · rfl
    · split
      · rfl
      · exact readPage_sprue s _ _ _

/-- The entries of a REGRD, one after the other: each has its answer, and the port stands as it did. -/
theorem regrdEntries_answer (keyed : Bool) (l : List (Nat × Nat)) (a : State × List (Nat × Nat)) :
    (l.foldl (State.regrdEntry keyed) a).1.sprue = a.1.sprue ∧ (l.foldl (State.regrdEntry keyed) a).2.length = a.2.length + l.length := by
  induction l generalizing a with
  | nil => exact ⟨rfl, rfl⟩
  | cons e l ih =>
    have hone : (State.regrdEntry keyed a e).1.sprue = a.1.sprue ∧ (State.regrdEntry keyed a e).2.length = a.2.length + 1 := by
      unfold State.regrdEntry
      split
      · exact ⟨readWord_sprue _ _ _, List.length_append⟩
      · exact ⟨rfl, List.length_append⟩
    obtain ⟨hsprue, hlen⟩ := ih (State.regrdEntry keyed a e)
    refine ⟨hsprue.trans hone.1, hlen.trans ?_⟩
    rw [hone.2, List.length_cons]
    omega

/-! ### Frames -/

/-- A response that is sent waits among the frames to be sent. -/
theorem mem_sent {l : List Comp} {s u : State} (f : TxFrame) (hl : l.contains .sprue = true) (h : u.sprue.tx.length < 256) :
    f ∈ (s.only l (u.sendTx f).redescribe).sprue.tx := by
  have hsprue : (s.only l (u.sendTx f).redescribe).sprue = (u.sendTx f).redescribe.sprue := by simp only [State.only, hl, if_true]
  rw [hsprue, show (u.sendTx f).redescribe.sprue = (u.sendTx f).sprue from redescribe_same (k := .sprue) _ (by decide), sprue_sendTx f h]
  exact List.mem_append_right _ List.mem_cons_self

theorem taking_tx (s : State) (f : Frame) : (s.taking f).sprue.tx = s.sprue.tx := by
  obtain ⟨-, ⟨_, _, _, _, _, _, _, h⟩, -⟩ := frameTaken_taking s f
  rw [h]

theorem taking_started (s : State) (f : Frame) : (s.taking f).started = s.started := by
  rw [State.started, show (s.taking f).boot = s.boot from (frameTaken_taking s f).1 .boot (by decide), State.started]

theorem exec_regrd {s : State} {f : Frame} (h : s.accepts 0x05 f) {a : State × List (Nat × Nat)}
    (ha : a = (regEntries (bodyOf f)).foldl (State.regrdEntry s.sprue.key.isSome) (s.taking f, [])) :
    exec (.regrd f) s = finishD (evented ++ [.latches, .sprue, .descs, .hall, .wires]) s (a.1.sendTx (.reg false f.part a.2)) := by
  rw [show exec (.regrd f) s = execRegrd f s from rfl, execRegrd, onFrame_of_accepts h, ha]

theorem exec_regwr {s : State} {f : Frame} (h : s.accepts 0x06 f) {a : State × List (Nat × Nat)}
    (ha : a = (regEntries (bodyOf f)).foldl (State.regwrEntry s.sprue.key.isSome) (s.taking f, [])) :
    exec (.regwr f) s = finishD (accessed ++ [.sprue, .descs]) s (a.1.sendTx (.reg true f.part a.2)) := by
  rw [show exec (.regwr f) s = execRegwr f s from rfl, execRegwr, onFrame_of_accepts h, ha]

theorem leads_regrd {s : State} {f : Frame} (h : s.accepts 0x05 f) (htx : s.sprue.tx.length < 256) {a : State × List (Nat × Nat)}
    (ha : a = (regEntries (bodyOf f)).foldl (State.regrdEntry s.sprue.key.isSome) (s.taking f, [])) :
    Leads (.regrd f) s fun t => .reg false f.part a.2 ∈ t.sprue.tx ∧ a.2.length = (regEntries (bodyOf f)).length := by
  obtain ⟨hsprue, hlen⟩ := regrdEntries_answer s.sprue.key.isSome (regEntries (bodyOf f)) (s.taking f, [])
  rw [← ha] at hsprue hlen
  have htx' : a.1.sprue.tx.length < 256 := by
    rw [hsprue, taking_tx]
    exact htx
  exact ⟨_, exec_regrd h ha, mem_sent _ (by decide) htx', hlen.trans (Nat.zero_add _)⟩

/-- Entries that are denied, one after the other. -/
theorem denied_entries (step : State × List (Nat × Nat) → Nat × Nat → State × List (Nat × Nat)) (l : List (Nat × Nat)) (s : State) (b : List (Nat × Nat))
    (h : ∀ e ∈ l, ∀ b, step (s, b) e = (s, b ++ [(0, xREGIONDENIED)])) :
    l.foldl step (s, b) = (s, b ++ l.map fun _ => (0, xREGIONDENIED)) := by
  induction l generalizing b with
  | nil => rw [List.map_nil, List.append_nil]; rfl
  | cons e l ih =>
    rw [List.foldl_cons, h e List.mem_cons_self, ih _ fun e he => h e (List.mem_cons_of_mem _ he), List.map_cons, List.append_assoc]
    rfl

theorem leads_regrd_denied {s : State} {f : Frame} (h : s.accepts 0x05 f) (htx : s.sprue.tx.length < 256) (hkey : s.sprue.key = none)
    (hpages : ∀ x ∈ regEntries (bodyOf f), onDevicePages x.1 = false) :
    Leads (.regrd f) s fun t => .reg false f.part ((regEntries (bodyOf f)).map fun _ => (0, xREGIONDENIED)) ∈ t.sprue.tx ∧ t.latches = s.latches := by
  have hfold := denied_entries (State.regrdEntry s.sprue.key.isSome) (regEntries (bodyOf f)) (s.taking f) [] fun e he b => by
    rw [State.regrdEntry, if_neg (by rw [hkey, hpages e he]; simp)]
  rw [List.nil_append] at hfold
  have hexec := exec_regrd h hfold.symm
  obtain ⟨r, hr⟩ : ∃ r, r = TxFrame.reg false f.part ((regEntries (bodyOf f)).map fun _ => (0, xREGIONDENIED)) := ⟨_, rfl⟩
  rw [← hr] at hexec ⊢
  have hlatches : ((s.taking f).sendTx r).redescribe.latches = s.latches := by
    rw [show ((s.taking f).sendTx r).redescribe.latches = ((s.taking f).sendTx r).latches from redescribe_same (k := .latches) _ (by decide), State.sendTx,
      if_pos (by rw [taking_tx]; exact htx)]
    exact (frameTaken_taking s f).1 .latches (by decide)
  exact ⟨_, hexec, mem_sent r (by decide) (by rw [taking_tx]; exact htx), hlatches⟩

theorem leads_regwr_denied {s : State} {f : Frame} (h : s.accepts 0x06 f) (htx : s.sprue.tx.length < 256) (hkey : s.sprue.key = none) :
    Leads (.regwr f) s fun t =>
      .reg true f.part ((regEntries (bodyOf f)).map fun _ => (0, xREGIONDENIED)) ∈ t.sprue.tx ∧ t.mem = s.mem ∧ t.resets = s.resets := by
  have hfold := denied_entries (State.regwrEntry s.sprue.key.isSome) (regEntries (bodyOf f)) (s.taking f) [] fun e _ b => by
    rw [State.regwrEntry, if_neg (by rw [hkey]; simp)]
  rw [List.nil_append] at hfold
  have hexec := exec_regwr h hfold.symm
  obtain ⟨r, hr⟩ : ∃ r, r = TxFrame.reg true f.part ((regEntries (bodyOf f)).map fun _ => (0, xREGIONDENIED)) := ⟨_, rfl⟩
  rw [← hr] at hexec ⊢
  obtain ⟨u, hu⟩ : ∃ u, u = (s.taking f).sendTx r := ⟨_, rfl⟩
  have hsent : u.mem = s.mem ∧ u.resets = s.resets := by
    rw [hu, State.sendTx, if_pos (by rw [taking_tx]; exact htx)]
    exact ⟨(frameTaken_taking s f).1 .mem (by decide), (frameTaken_taking s f).1 .resets (by decide)⟩
  have hmem : u.redescribe.mem = s.mem := (redescribe_same (k := .mem) _ (by decide)).trans hsent.1
  have hresets : u.redescribe.resets = s.resets := (redescribe_same (k := .resets) _ (by decide)).trans hsent.2
  have hin := mem_sent (l := accessed ++ [.sprue, .descs]) (s := s) (u := s.taking f) r (by decide) (by rw [taking_tx]; exact htx)
  rw [← hu] at hexec hin
  exact ⟨_, hexec, hin, hmem, hresets⟩

/-! ### One page's word -/

/-- Whether a page is sealed to a requester does not depend on what taking a frame changes. -/
theorem taking_closedTo (s : State) (f : Frame) {src pg : Nat} (h : inRisers pg) : (s.taking f).closedTo src pg = s.closedTo src pg := by
  obtain ⟨-, -, hrd⟩ := frameTaken_taking s f
  have hsize : (s.taking f).partSize = s.partSize := by
    rw [State.partSize, hrd pgBu PT_CONFIG_ACTIVE 0 (by decide) (.inl (by decide))]
    rfl
  have hsealed : ∀ p, p < 8 → (s.taking f).sealed p = s.sealed p := fun p hp => by
    have inside : ∀ p < 8, quietFld pgMordant MD_PART_SEALED p := by decide
    rw [State.sealed, State.on, hrd pgMordant MD_PART_SEALED p (inside p hp) (.inl (by decide))]
    rfl
  have hpage : (s.taking f).sealedPage pg = s.sealedPage pg := by
    rw [State.sealedPage, State.sealedPage]
    split
    · next r hr =>
      rw [State.partOfRiser, hsize, hsealed _ (Nat.lt_of_le_of_lt (Nat.div_le_self _ _) (h r hr))]
      rfl
    · rfl
  rw [State.closedTo, hpage]
  rfl

theorem leads_regrd_word {s : State} {f : Frame} {pg o v : Nat} (h : s.accepts 0x05 f) (htx : s.sprue.tx.length < 256) (hkey : s.sprue.key.isSome = true)
    (hstarted : s.started = true) (hentry : regEntries (bodyOf f) = [(offOf pg o, v)]) (hreach : reachStatus pgSprue (offOf pg o) = 0)
    (hplace : placeOf (offOf pg o) = .page pg o) (hopen : s.closedTo pgSprue pg = false) (hcomp : isCompanion pg o = false) :
    Leads (.regrd f) s fun t => .reg false f.part [((s.taking f).regWord pg o, 0)] ∈ t.sprue.tx := by
  obtain ⟨u, hu⟩ : ∃ u, u = s.taking f := ⟨_, rfl⟩
  have hword : u.readWord pgSprue (offOf pg o) = (0, u.regWord pg o, (u.readPage pgSprue pg o).2) := by
    rw [State.readWord]
    dsimp only
    rw [if_neg (not_not_intro hreach), hplace]
    dsimp only
    rw [hu, taking_closedTo s f (inRisers_of_place hplace), hopen, if_neg (by rintro ⟨h, -⟩; exact absurd h (by decide)), State.readPage, hcomp]
    rfl
  have hfold : (regEntries (bodyOf f)).foldl (State.regrdEntry s.sprue.key.isSome) (s.taking f, []) =
      ((u.readPage pgSprue pg o).2, [(u.regWord pg o, 0)]) := by
    rw [hentry, List.foldl_cons, List.foldl_nil, State.regrdEntry, taking_started, hkey, hstarted, if_pos (by rfl), ← hu, hword]
    rfl
  obtain ⟨t, hexec, hin, -⟩ := leads_regrd h htx hfold.symm
  exact ⟨t, hexec, hu ▸ hin⟩

theorem wrote_scratch (s0 s : State) (src pg w : Nat) : s0.wrote s src pg (SCRATCH_VALUE.at 0) w = s := by
  change (match pgType pg with
    | 0x0002 => s.wroteHall 0x03C w
    | 0x0010 => if 0x064 ≤ 0x03C ∧ 0x03C ≤ 0x06C then s.wrs pg [(CL_PATROL_DESC_DESC, 0), (CL_PATROL_BLK_BLOCK, 0)] else s
    | 0x0016 | 0x0033 => s.wroteFlag src pg 0x03C w
    | 0x0020 => if 0x03C = 0x084 ∧ bit w 1 then s.wr pg MC_STATUS_RETRAIN_DUE 1 else s
    | 0x0030 => s0.wroteSlice s (pgInst pg) 0x03C w
    | 0x0040 => if 0x03C = 0x044 ∧ bit w 5 then s.askRetrain (pgInst pg) else s
    | 0x0051 => if 0x080 ≤ 0x03C ∧ 0x03C % 16 = 4 ∧ bit w 30 then s.askCommit (pgInst pg) ((0x03C - 0x080) / 16) else s
    | 0x0062 => s0.wroteBringup s 0x03C w
    | 0x0064 => s.wroteEvents 0x03C
    | _ => s) = s
  split <;> rfl

theorem lockedFor_scratch (s : State) (pg : Nat) : s.lockedFor none pg SCRATCH_VALUE = false := by
  have hacc : accOf pg SCRATCH_VALUE = .rw := if_neg fun h => absurd h.1 (by decide)
  unfold State.lockedFor
  rw [hacc]
  split
  · rfl
  · split <;> rfl
  · rfl

theorem noCause_scratch (s : State) (pg w : Nat) : s.writeCause none pg w [(SCRATCH_VALUE, 0)] = 0 := by
  have hallows : s.allows pg w (SCRATCH_VALUE, 0) = true := rfl
  have hrange : inRangeOf SCRATCH_VALUE (SCRATCH_VALUE.of w) = true := rfl
  have hfence : decide ((SCRATCH_VALUE, 0).1 = PAGE_CTRL_FENCE ∧ (SCRATCH_VALUE, 0).1.of w = 1) = false :=
    decide_eq_false fun h => absurd h.1 (by decide)
  have any : ∀ p : Fld × Nat → Bool, p (SCRATCH_VALUE, 0) = false → ([(SCRATCH_VALUE, 0)].filter fun e => s.changes pg w e).any p = false := fun p hp =>
    List.any_eq_false.mpr fun e he => by
      rw [List.mem_singleton.mp (List.mem_of_mem_filter he), hp]
      decide
  rw [State.writeCause]
  rw [any _ (lockedFor_scratch s pg), any _ (by rw [hallows]; rfl), any _ (by rw [hrange]; rfl), any _ rfl, List.any_cons, hfence]
  rfl

/-- SCRATCH is written as any page that may be reached: nothing locks or refuses it, and nothing else happens. -/
theorem writeWord_scratch {s : State} {src pg w : Nat} (hreach : reachStatus src (offOf pg (SCRATCH_VALUE.at 0)) = 0)
    (hplace : placeOf (offOf pg (SCRATCH_VALUE.at 0)) = .page pg (SCRATCH_VALUE.at 0)) (hopen : s.closedTo src pg = false) :
    s.writeWord src none (offOf pg (SCRATCH_VALUE.at 0)) w = (0, s.wr pg SCRATCH_VALUE (SCRATCH_VALUE.of (w % 2 ^ 32))) := by
  rw [State.writeWord, if_neg (not_not_intro hreach), hplace]
  dsimp only
  rw [State.writePage, cellsAt_scratch, hopen, noCause_scratch, wrote_scratch]
  rfl

theorem leads_regwr_scratch {s : State} {f : Frame} {pg w : Nat} (h : s.accepts 0x06 f) (htx : s.sprue.tx.length < 256) (hkey : s.sprue.key.isSome = true)
    (hstarted : s.started = true) (hentry : regEntries (bodyOf f) = [(offOf pg (SCRATCH_VALUE.at 0), w)])
    (htakes : s.takes .sprue pg (SCRATCH_VALUE.at 0) w) :
    Leads (.regwr f) s fun t => .reg true f.part [(0, 0)] ∈ t.sprue.tx ∧ t.rd pg SCRATCH_VALUE = w % 2 ^ 32 ∧ t.mem = s.mem := by
  obtain ⟨hreach, hplace, hopen, -⟩ := htakes
  obtain ⟨v, hv⟩ : ∃ v, v = (s.taking f).wr pg SCRATCH_VALUE (SCRATCH_VALUE.of (w % 2 ^ 32)) := ⟨_, rfl⟩
  have hwrite := writeWord_scratch (s := s.taking f) (w := w) hreach hplace ((taking_closedTo s f (inRisers_of_place hplace)).trans hopen)
  have hfold : (regEntries (bodyOf f)).foldl (State.regwrEntry s.sprue.key.isSome) (s.taking f, []) = (v, [(0, 0)]) := by
    rw [hentry, List.foldl_cons, List.foldl_nil, State.regwrEntry, taking_started, hkey, hstarted, if_pos (by rfl)]
    dsimp only
    rw [show pgSprue = reqIdent .sprue from rfl, hwrite, hv]
    rfl
  have hsprue : v.sprue.tx.length < 256 := by
    rw [hv]
    exact (taking_tx s f).symm ▸ htx
  have hexec := exec_regwr h hfold.symm
  have hin := mem_sent (l := accessed ++ [.sprue, .descs]) (s := s) (.reg true f.part [(0, 0)]) (by decide) hsprue
  obtain ⟨u, hu⟩ : ∃ u, u = v.sendTx (.reg true f.part [(0, 0)]) := ⟨_, rfl⟩
  have hmem : u.redescribe.mem = s.mem := by
    rw [show u.redescribe.mem = u.mem from redescribe_same (k := .mem) _ (by decide), hu, State.sendTx, if_pos hsprue, hv]
    exact (frameTaken_taking s f).1 .mem (by decide)
  have hvalue : u.redescribe.rd pg SCRATCH_VALUE = w % 2 ^ 32 := by
    rw [rd_redescribe u (quietFld_of_place (by decide) (by decide) (by decide) (by decide)), hu, rd_sendTx _ hsprue, hv, rd_wr_same]
    change w % 2 ^ 32 / 2 ^ 0 % 2 ^ 32 % 2 ^ 32 = w % 2 ^ 32
    omega
  dsimp only at hexec
  rw [← hu] at hexec hin
  exact ⟨_, hexec, hin, hvalue, hmem⟩

/-- Settles O32: entry after entry is answered, and a word that may be reached reads, or SCRATCH is written, on the state the frame leaves. -/
theorem registerFramesAreAnswered : Obligations.RegisterFramesAreAnswered := by
  unfold Obligations.RegisterFramesAreAnswered
  exact ⟨fun _ _ h1 h2 => leads_regrd h1 h2 rfl, fun _ _ _ _ _ h1 h2 h3 h4 h5 h6 h7 h8 h9 => leads_regrd_word h1 h2 h3 h4 h5 h6 h7 h8 h9,
    fun _ _ h1 h2 h3 => leads_regwr_denied h1 h2 h3, fun _ _ h1 h2 h3 h4 => leads_regrd_denied h1 h2 h3 h4,
    fun _ _ _ _ h1 h2 h3 h4 _ h6 h7 => leads_regwr_scratch h1 h2 h3 h4 h6 h7⟩

end Sys2Proof.Machine
end

section
/-!
Proofs of the family 12_sprue_and_far_tier.md: frames that leave, DMA requests and the event ring (O34).
-/

namespace Sys2Proof.Machine

open Sys2Proof

/-! ### Frame positions (R440, R444, R449) -/

theorem pumpDma_idle {s : State} (hw : s.sprue.writes = []) (hr : s.sprue.reads = []) : s.pumpDma = s := by
  rw [State.pumpDma, hw, List.foldl_nil, hr]
  rfl

/-- A frame position that has been passed: the port stands one on, and owes what the line's coder left it. -/
def passedPosition (s : State) (l : List LineSym) (slack : Nat) : State :=
  (s.wr pgSprue SP_LSLACK_OWED (min 511 (s.rd pgSprue SP_LSLACK_OWED - min (s.rd pgSprue SP_LSLACK_OWED) slack +
    (s.sprue.txLine.send true slack (s.rd pgSprue SP_LSLACK_OWED) l).2))).modSprue
    fun u => { u with pos := (u.pos + 1) % 257, txLine := (s.sprue.txLine.send true slack (s.rd pgSprue SP_LSLACK_OWED) l).1 }

theorem exec_sprueFrameSend {s : State} {l : List LineSym} {f : TxFrame} (hlit : s.sprueLit = true) (hpos : s.sprue.pos ≠ 256)
    (hlink : s.rd pgSprue SP_STATUS_LINK = 2) (hw : s.sprue.writes = []) (hr : s.sprue.reads = []) (hnext : s.nextFrame = some f) {u : State}
    (hu : u = ((passedPosition s l 0).unqueue f).emit f) :
    exec (.sprueFrameSend l) s = finish (asked ++ [.sprue]) s (u.codeFrame u.sprue.out) := by
  obtain ⟨v, hv⟩ : ∃ v, v = passedPosition s l 0 := ⟨_, rfl⟩
  have hqueue : v.nextFrame = some f := by rw [hv, ← hnext]; rfl
  have hpump : v.pumpDma = v := pumpDma_idle (by rw [hv]; exact hw) (by rw [hv]; exact hr)
  rw [show exec (.sprueFrameSend l) s = execSprueFrameSend l s from rfl, execSprueFrameSend]
  dsimp only
  rw [if_neg (by rw [hlit]; decide), decide_eq_false hpos]
  simp only [Bool.false_eq_true, if_false]
  rw [hu, ← hv]
  rw [passedPosition] at hv
  rw [← hv, if_neg (not_not_intro hlink), hpump, hqueue]

theorem emit_untagged {s : State} {f : TxFrame} (hk : f.isKeyx = false) (hkey : s.sprue.key = none) : s.emit f = s.emitUnder f none 0 0 := by
  unfold State.emit
  rw [hk, hkey]

theorem emit_tagged {s : State} {f : TxFrame} {k : Bytes} (hk : f.isKeyx = false) (hkey : s.sprue.key = some k) :
    s.emit f = ((s.emitUnder f (some k) s.sprue.salt s.sprue.txSeq).modSprue fun u => { u with txSeq := s.sprue.txSeq + 1 }).usedSeq 1 s.sprue.txSeq := by
  unfold State.emit
  rw [hk, hkey]

theorem txText_passed (s : State) (l : List LineSym) (f g : TxFrame) (n : Nat) : ((passedPosition s l 0).unqueue f).txText g n = s.txText g n := by
  have hpkg : ((passedPosition s l 0).unqueue f).pkg = s.pkg := rd_wr_apart _ _ _ _ (by decide)
  rw [State.txText, hpkg, State.txText]

theorem leads_send_untagged {s : State} {l : List LineSym} {f : TxFrame} (hlit : s.sprueLit = true) (hpos : s.sprue.pos ≠ 256)
    (hlink : s.rd pgSprue SP_STATUS_LINK = 2) (hw : s.sprue.writes = []) (hr : s.sprue.reads = []) (hkey : s.sprue.key = none) (hk : f.isKeyx = false)
    (hnext : s.nextFrame = some f) (hrank : f.rank ≠ 5) :
    Leads (.sprueFrameSend l) s fun t =>
      t.sprue.tx = s.sprue.tx.erase f ∧ t.sprue.out = s.txText f 0 ++ List.replicate 16 0 ∧ t.sprue.pos = (s.sprue.pos + 1) % 257 := by
  obtain ⟨u, hu⟩ : ∃ u, u = ((passedPosition s l 0).unqueue f).emit f := ⟨_, rfl⟩
  obtain ⟨v, hv⟩ : ∃ v, v = (passedPosition s l 0).unqueue f := ⟨_, rfl⟩
  have hport : v.sprue = { (passedPosition s l 0).sprue with tx := s.sprue.tx.erase f } := by
    rw [hv, State.unqueue]
    change (if f.rank = 5 then _ else _) = _
    rw [if_neg hrank]
    rfl
  have htext : v.txText f 0 = s.txText f 0 := hv ▸ txText_passed s l f f 0
  have hsent : u.sprue = { v.sprue with out := s.txText f 0 ++ List.replicate 16 0 } := by
    rw [hu, ← hv, emit_untagged hk (by rw [hport]; exact hkey), ← htext]
    rfl
  have hexec := exec_sprueFrameSend hlit hpos hlink hw hr hnext hu
  have only : (s.only (asked ++ [.sprue]) (u.codeFrame u.sprue.out)).sprue = { u.sprue with line := u.sprue.line.feed 0 u.sprue.out } := rfl
  refine ⟨_, hexec, ?_⟩
  beta_reduce
  rw [only, hsent, hport]
  exact ⟨rfl, rfl, rfl⟩

theorem leads_send_tagged {s : State} {l : List LineSym} {f : TxFrame} {k : Bytes} (hlit : s.sprueLit = true) (hpos : s.sprue.pos ≠ 256)
    (hlink : s.rd pgSprue SP_STATUS_LINK = 2) (hw : s.sprue.writes = []) (hr : s.sprue.reads = []) (hkey : s.sprue.key = some k) (hk : f.isKeyx = false)
    (hseq : s.sprue.txSeq < seqLast) (hnext : s.nextFrame = some f) :
    Leads (.sprueFrameSend l) s fun t =>
      t.sprue.out = s.txText f s.sprue.txSeq ++ frameTag k s.sprue.salt 1 s.sprue.txSeq (s.txText f s.sprue.txSeq) ∧
      t.sprue.txSeq = s.sprue.txSeq + 1 ∧ t.sprue.sentSeq = s.sprue.txSeq := by
  obtain ⟨u, hu⟩ : ∃ u, u = ((passedPosition s l 0).unqueue f).emit f := ⟨_, rfl⟩
  obtain ⟨v, hv⟩ : ∃ v, v = (passedPosition s l 0).unqueue f := ⟨_, rfl⟩
  have hport : v.sprue.key = some k ∧ v.sprue.txSeq = s.sprue.txSeq ∧ v.sprue.salt = s.sprue.salt := by
    rw [hv, State.unqueue]
    change (if f.rank = 5 then _ else _ : SprueUnit).key = _ ∧ (if f.rank = 5 then _ else _ : SprueUnit).txSeq = _ ∧ (if f.rank = 5 then _ else _ : SprueUnit).salt = _
    split <;> exact ⟨hkey, rfl, rfl⟩
  obtain ⟨hvkey, hvseq, hvsalt⟩ := hport
  have htext : v.txText f s.sprue.txSeq = s.txText f s.sprue.txSeq := hv ▸ txText_passed s l f f _
  obtain ⟨w, hw'⟩ : ∃ w, w = (v.emitUnder f (some k) s.sprue.salt s.sprue.txSeq).modSprue fun u => { u with txSeq := s.sprue.txSeq + 1 } := ⟨_, rfl⟩
  have hused : u = w.usedSeq 1 s.sprue.txSeq := by rw [hu, ← hv, emit_tagged hk hvkey, hvseq, hvsalt, hw']
  obtain ⟨late, hlate⟩ : ∃ b, u.sprue = { w.sprue with lateTx := b } := by
    rw [hused, State.usedSeq]
    dsimp only
    rw [if_neg (Nat.ne_of_lt hseq)]
    split
    · refine ⟨true, ?_⟩
      rw [State.modSprue, show (w.raise pgSprue ev_SP_KEY_LATE (le 4 s.sprue.txSeq ++ le 1 1)).sprue = w.sprue from raise_same w _ _ _ .sprue (by decide)]
    · exact ⟨_, rfl⟩
  have hwport : w.sprue = { v.sprue with out := s.txText f s.sprue.txSeq ++ frameTag k s.sprue.salt 1 s.sprue.txSeq (s.txText f s.sprue.txSeq),
                                         sentSeq := s.sprue.txSeq, txSeq := s.sprue.txSeq + 1 } := by
    rw [hw', ← htext]
    rfl
  have hexec := exec_sprueFrameSend hlit hpos hlink hw hr hnext hu
  have only : (s.only (asked ++ [.sprue]) (u.codeFrame u.sprue.out)).sprue = { u.sprue with line := u.sprue.line.feed 0 u.sprue.out } := rfl
  refine ⟨_, hexec, ?_⟩
  beta_reduce
  rw [only, hlate, hwport]
  exact ⟨rfl, rfl, rfl⟩

theorem leads_send_am {s : State} {l : List LineSym} (hlit : s.sprueLit = true) (hpos : s.sprue.pos = 256) :
    Leads (.sprueFrameSend l) s fun t => t.sprue.out = [] ∧ t.sprue.pos = 0 ∧ t.sprue.tx = s.sprue.tx ∧
      t.sprue.txLine = (s.sprue.txLine.send true amSlack (s.rd pgSprue SP_LSLACK_OWED) l).1 ∧
      t.rd pgSprue SP_LSLACK_OWED = min 511 (s.rd pgSprue SP_LSLACK_OWED - min (s.rd pgSprue SP_LSLACK_OWED) amSlack +
        (s.sprue.txLine.send true amSlack (s.rd pgSprue SP_LSLACK_OWED) l).2) := by
  obtain ⟨v, hv⟩ : ∃ v, v = passedPosition s l amSlack := ⟨_, rfl⟩
  have hport : v.sprue = { s.sprue with pos := (s.sprue.pos + 1) % 257, txLine := (s.sprue.txLine.send true amSlack (s.rd pgSprue SP_LSLACK_OWED) l).1 } := by
    rw [hv]
    rfl
  have howed : v.rd pgSprue SP_LSLACK_OWED = min 511 (s.rd pgSprue SP_LSLACK_OWED - min (s.rd pgSprue SP_LSLACK_OWED) amSlack +
      (s.sprue.txLine.send true amSlack (s.rd pgSprue SP_LSLACK_OWED) l).2) := by
    rw [hv]
    exact rd_wr_fits s pgSprue SP_LSLACK_OWED 0 (by change min 511 _ < 512; omega)
  rw [← howed]
  obtain ⟨b, hb⟩ : ∃ b, b = amBytes s.free := ⟨_, rfl⟩
  obtain ⟨u, hu⟩ : ∃ u : State, u = { (v.modSprue fun u => { u with out := [] }).codeFrame b with free := s.free + 1 } := ⟨_, rfl⟩
  have hexec : exec (.sprueFrameSend l) s = finish (asked ++ [.sprue]) s u := by
    rw [show exec (.sprueFrameSend l) s = execSprueFrameSend l s from rfl, execSprueFrameSend]
    dsimp only
    rw [if_neg (by rw [hlit]; decide), decide_eq_true hpos]
    simp only [if_true]
    rw [passedPosition] at hv
    rw [← hv, hu, hb]
  have hsprue : u.sprue = { v.sprue with out := [], line := v.sprue.line.feed 0 b } := by rw [hu]; rfl
  have hregs : (s.only (asked ++ [Comp.sprue]) u).regs = v.regs := by
    have only : (s.only (asked ++ [Comp.sprue]) u).regs = u.regs := rfl
    rw [only, hu]
    rfl
  have only : (s.only (asked ++ [Comp.sprue]) u).sprue = u.sprue := rfl
  refine ⟨_, hexec, ?_⟩
  beta_reduce
  rw [only, hsprue, hport, rd_congr hregs, hpos]
  exact ⟨rfl, rfl, rfl, rfl, rfl⟩

/-! ### Frames taken while their SEQ is early (R444) -/

theorem taking_early {s : State} {f : Frame} (hkey : s.sprue.key.isSome = true) (hseq : f.seq < seqLate) :
    ∃ g : SprueUnit → SprueUnit, s.taking f = (s.sprueLineIn f).modSprue g := by
  have unused : ∀ (u : State) d, u.usedSeq d f.seq = u := fun u d => by
    have hlast : f.seq ≠ seqLast := Nat.ne_of_lt (Nat.lt_of_lt_of_le hseq (by decide))
    unfold State.usedSeq
    dsimp only
    rw [if_neg hlast, if_neg fun h => absurd hseq (Nat.not_lt.mpr h.1)]
  rw [State.taking, if_pos hkey, State.acceptSeq]
  split <;> rw [unused] <;> exact ⟨_, rfl⟩

/-- A field that the count of stuff errors does not share. -/
theorem rd_taking_early {s : State} {f : Frame} (hkey : s.sprue.key.isSome = true) (hseq : f.seq < seqLate) {pg : Nat} {F : Fld} {i : Nat}
    (h : fkey pg F i ≠ fkey pgSprue SP_LSLACK_STUFF_ERR 0) : (s.taking f).rd pg F i = s.rd pg F i := by
  obtain ⟨g, hg⟩ := taking_early hkey hseq
  rw [hg]
  exact rd_bump_other _ _ _ _ _ h

theorem statusSame_taking {s : State} {f : Frame} (hkey : s.sprue.key.isSome = true) (hseq : f.seq < seqLate) : StatusSame s (s.taking f) := by
  obtain ⟨g, hg⟩ := taking_early hkey hseq
  have hframe : s.sameBut [.regs, .sprue] (s.taking f) := by
    rw [hg]
    exact sameBut_trans (sameBut_mono (sameBut_modSprue s _) (by decide))
      (sameBut_trans (sameBut_mono (sameBut_bump _ _ _ _ _) (by decide)) (sameBut_mono (sameBut_modSprue _ _) (by decide)))
  have bu : ∀ {F : Fld} {i : Nat}, F.inPage i → (s.taking f).rd pgBu F i = s.rd pgBu F i := fun hF =>
    rd_taking_early hkey hseq (fkey_ne_of_page (by decide) hF (by decide))
  have hactive : (s.taking f).rd pgBu PT_CONFIG_ACTIVE = s.rd pgBu PT_CONFIG_ACTIVE := bu (by decide)
  exact
    { parts := ⟨by rw [State.partCount, hactive, State.partCount], by rw [State.partSize, hactive, State.partSize]⟩
      service := fun pg => rd_taking_early hkey hseq (fkey_ne_of_apart _ _ (by decide))
      sealed := fun p => by
        rw [State.sealed, State.sealed, State.on, State.on, rd_taking_early hkey hseq]
        simp only [fkey, MD_PART_SEALED, SP_LSLACK_STUFF_ERR]
        omega
      owner := fun x hx => cxOwner_congr (by rw [show (s.taking f).hall = s.hall from hframe .hall (by decide)])
        ⟨bu (by simp only [Fld.inPage, Fld.at, PT_CX_ASSIGN_PART]; omega), bu (by simp only [Fld.inPage, Fld.at, PT_CX_ASSIGN_VALID]; omega)⟩
      absent := bu (by decide)
      decoders := fun x => by rw [State.cx, State.cx, show (s.taking f).cxl = s.cxl from hframe .cxl (by decide)]
      active := fun n => by rw [State.sl, State.sl, show (s.taking f).slices = s.slices from hframe .slices (by decide)]
      resets := hframe .resets (by decide)
      boot := hframe .boot (by decide)
      lost := fun p => by rw [State.part, State.part, show (s.taking f).parts = s.parts from hframe .parts (by decide)] }

theorem ownPkg_taking {s : State} {f : Frame} (hkey : s.sprue.key.isSome = true) (hseq : f.seq < seqLate) (a : Nat) :
    (s.taking f).ownPkg a = s.ownPkg a := by
  rw [State.ownPkg, State.pkg, rd_taking_early hkey hseq (fkey_ne_of_page (by decide) (by decide) (by decide)), State.ownPkg, State.pkg]

theorem originStatus_own {s t : State} (h : StatusSame s t) {r : Req} (ht : t.ownPkg r.addr = true) (hs : s.ownPkg r.addr = true) :
    t.originStatus r = s.originStatus r := by
  rw [State.originStatus, State.originStatus, if_pos ht, if_pos hs, localStatus_congr h]

/-! ### DMA (R460, R461) -/

theorem taking_dma (s : State) (f : Frame) : (s.taking f).sprue.writes = s.sprue.writes ∧ (s.taking f).sprue.reads = s.sprue.reads ∧
    (s.taking f).hall = s.hall := by
  obtain ⟨hframe, ⟨_, _, _, _, _, _, _, h⟩, -⟩ := frameTaken_taking s f
  rw [h]
  exact ⟨rfl, rfl, hframe .hall (by decide)⟩

/-- Requests under way, and what waits of READ transfers, stand as they did. -/
def requestsKept (s t : State) : Prop := t.hall.nextId = s.hall.nextId ∧ t.hall.reqs = s.hall.reqs ∧ t.sprue.reads = s.sprue.reads

theorem requestsKept_trans {s t u : State} (h1 : requestsKept s t) (h2 : requestsKept t u) : requestsKept s u :=
  ⟨h2.1.trans h1.1, h2.2.1.trans h1.2.1, h2.2.2.trans h1.2.2⟩

theorem requestsKept_foldl {β : Type} (g : State → β → State) (hg : ∀ s b, requestsKept s (g s b)) (l : List β) (s : State) : requestsKept s (l.foldl g s) := by
  induction l generalizing s with
  | nil => exact ⟨rfl, rfl, rfl⟩
  | cons b l ih => exact requestsKept_trans (hg s b) (ih _)

/-- A WRITE transfer that takes its answers issues nothing. -/
theorem requestsKept_pumpWrite (s : State) (x : DmaXfer) : requestsKept s (s.pumpWrite x) := by
  unfold State.pumpWrite
  dsimp only
  have taken := requestsKept_foldl (fun (u : State) (e : (Nat × Nat × Nat × Nat) × Ans) => u.dropDone e.1.1) (fun _ _ => ⟨rfl, rfl, rfl⟩)
    (x.waits.filterMap fun w => (s.takeDone w.1).map fun a => (w, a)) s
  split
  · exact requestsKept_trans taken ⟨rfl, rfl, rfl⟩
  · exact requestsKept_trans taken ⟨rfl, rfl, rfl⟩

theorem requestsKept_pumpDma {s : State} (hr : s.sprue.reads = []) : requestsKept s s.pumpDma := by
  have written := requestsKept_foldl State.pumpWrite requestsKept_pumpWrite s.sprue.writes s
  rw [State.pumpDma, written.2.2, hr]
  exact written

theorem dmaWrite_issues {u : State} {b : Bytes} {x : DmaXfer} {a n : Nat} {poison : Bool} (hlen : b.length = n) (hn : 0 < n) (hpage : a % 4096 + n ≤ 4096)
    (hown : u.ownPkg a = true) (hheld : u.dmaHeld = 0) (hst : u.originStatus (sprueReq 0x02 a n b poison) = 0) :
    ∃ (v : State) (y : DmaXfer), u.dmaFrame x true a b poison = (v, y) ∧ v.hall.nextId = u.hall.nextId + 1 ∧ v.sprue = u.sprue ∧
      ∃ r, v.req u.hall.nextId = some r ∧ r.op = 0x02 ∧ r.addr = a ∧ r.len = n ∧ r.data = b := by
  obtain ⟨v, hv, hnext, hreq, -, hframe⟩ := issueReq_reaches (r := sprueReq 0x02 a n b poison) hown hst
  have hpieces : pieces 2 a n = [(a, n)] := by
    rw [pieces, if_neg (by omega)]
    dsimp only
    rw [Nat.min_eq_left (by omega), Nat.sub_self, pieces, if_pos rfl]
  have hslice : slice b (a - a) n = b := by rw [Nat.sub_self, ← hlen, slice_zero_length]
  have hempty : b.isEmpty = false := by
    cases b with
    | nil => exact absurd hlen (Nat.ne_of_lt hn)
    | cons c b => rfl
  refine ⟨v, { x with waits := x.waits ++ [(u.hall.nextId, x.frames, a, n)] }, ?_, hnext, hframe .sprue (by decide), _, hreq, rfl, rfl, rfl, rfl⟩
  unfold State.dmaFrame
  rw [hempty, hown, hheld, hlen, hpieces]
  dsimp only [Bool.not_true, Bool.false_eq_true, if_false, List.foldl_cons, List.foldl_nil]
  rw [if_neg (by decide), if_neg (by decide), if_neg (by decide), if_neg (by omega), hslice, hv]

theorem leads_dmaWrite {s : State} {f : Frame} {a n : Nat} (h : s.accepts 0x07 f) (hcode : fieldAt (bodyOf f) 0 1 = 0) (ha : fieldAt (bodyOf f) 0x08 8 = a)
    (hlen : (bodyOf f).length = 16 + n) (hn : 0 < n) (hpage : a % 4096 + n ≤ 4096) (hkey : s.sprue.key.isSome = true) (hstarted : s.started = true)
    (hown : s.ownPkg a = true) (hseq : f.seq < seqLate) (hw : s.sprue.writes = []) (hr : s.sprue.reads = [])
    (hst : s.originStatus (sprueReq 0x02 a n ((bodyOf f).drop 16) (poisonFlag f)) = 0) :
    Leads (.dmaWrite f) s fun t =>
      t.hall.nextId = s.hall.nextId + 1 ∧
      ∃ r, t.req s.hall.nextId = some r ∧ r.op = 0x02 ∧ r.addr = a ∧ r.len = n ∧ r.data = slice (bodyOf f) 16 n := by
  obtain ⟨hwrites, hreads, hhall⟩ := taking_dma s f
  have hdrop : ((bodyOf f).drop 16).length = n := by rw [List.length_drop]; omega
  have hu := ownPkg_taking hkey hseq a
  obtain ⟨u, hu'⟩ : ∃ u, u = s.taking f := ⟨_, rfl⟩
  rw [← hu'] at hwrites hreads hhall hu
  have hstatus : u.originStatus (sprueReq 0x02 a n ((bodyOf f).drop 16) (poisonFlag f)) = 0 :=
    (originStatus_own (hu' ▸ statusSame_taking hkey hseq) (hu.trans hown) hown).trans hst
  obtain ⟨v, y, hframe, hnext, hsprue, r, hreq, hop, haddr, hrlen, hdata⟩ :=
    dmaWrite_issues (x := u.xferOf (fieldAt (bodyOf f) 0x04 4)) hdrop hn hpage (hu.trans hown) (by rw [State.dmaHeld, hwrites, hw]; rfl) hstatus
  obtain ⟨w, hw'⟩ : ∃ w, w = v.setXfer { y with frames := y.frames + 1, last := lastFlag f } := ⟨_, rfl⟩
  obtain ⟨hpnext, hpreqs, -⟩ := requestsKept_pumpDma (s := w) (by rw [hw']; exact (congrArg SprueUnit.reads hsprue).trans (hreads.trans hr))
  have hexec : exec (.dmaWrite f) s = finish (asked ++ [.sprue]) s w.pumpDma := by
    rw [show exec (.dmaWrite f) s = execDmaWrite f s from rfl, execDmaWrite, if_neg (not_not_intro hcode), onFrame_of_accepts h, ← hu']
    dsimp only
    rw [hkey, hu', taking_started, hstarted, ← hu', ha, Bool.and_self, hframe, hw']
  have hwhall : w.hall = v.hall := by rw [hw']; rfl
  have hslice : (bodyOf f).drop 16 = slice (bodyOf f) 16 n := by
    rw [slice_eq_drop_take _ (by omega), List.take_of_length_le (by omega)]
  have hid : w.pumpDma.hall.nextId = s.hall.nextId + 1 := by rw [hpnext, hwhall, hnext, hhall]
  have hget : w.pumpDma.req s.hall.nextId = some r := by
    rw [State.req, hpreqs, hwhall, ← hhall]
    exact hreq
  exact ⟨_, hexec, hid, r, hget, hop, haddr, hrlen, hdata.trans hslice⟩

theorem leads_dmaRead {s : State} {f : Frame} {a n m : Nat} (h : s.accepts 0x07 f) (hcode : fieldAt (bodyOf f) 0 1 = 1) (ha : fieldAt (bodyOf f) 0x08 8 = a)
    (hlen : fieldAt (bodyOf f) 0x10 4 = n) (hn : 0 < n) (hmax : n ≤ 1048576) (hm : m = min (min 464 n) (4096 - a % 4096)) (hkey : s.sprue.key.isSome = true)
    (hstarted : s.started = true) (hown : s.ownPkg a = true) (hseq : f.seq < seqLate) (hw : s.sprue.writes = []) (hr : s.sprue.reads = [])
    (hst : s.originStatus (sprueReq 0x01 a m [] false) = 0) (hdone : s.takeDone s.hall.nextId = none) :
    Leads (.dmaRead f) s fun t =>
      t.hall.nextId = s.hall.nextId + 1 ∧ (∃ r, t.req s.hall.nextId = some r ∧ r.op = 0x01 ∧ r.addr = a ∧ r.len = m) ∧
      t.sprue.reads = [{ xid := fieldAt (bodyOf f) 0x04 4, at_ := a, len := m, id := s.hall.nextId, stop := a + n }] := by
  obtain ⟨hwrites, hreads, hhall⟩ := taking_dma s f
  have hu := ownPkg_taking hkey hseq a
  obtain ⟨u, hu'⟩ : ∃ u, u = s.taking f := ⟨_, rfl⟩
  rw [← hu'] at hwrites hreads hhall hu
  have hstatus : u.originStatus (sprueReq 0x01 a m [] false) = 0 :=
    (originStatus_own (hu' ▸ statusSame_taking hkey hseq) (hu.trans hown) hown).trans hst
  obtain ⟨v, hv, hnext, hreq, hvdone, hframe⟩ := issueReq_reaches (r := sprueReq 0x01 a m [] false) (hu.trans hown) hstatus
  have hsprue : v.sprue = u.sprue := hframe .sprue (by decide)
  obtain ⟨d, hd⟩ : ∃ d : DmaRead, d = { xid := fieldAt (bodyOf f) 0x04 4, at_ := a, len := m, id := s.hall.nextId, stop := a + n } := ⟨_, rfl⟩
  obtain ⟨w, hw'⟩ : ∃ w, w = v.modSprue fun u => { u with reads := u.reads ++ [d] } := ⟨_, rfl⟩
  have hask : u.askRead (fieldAt (bodyOf f) 0x04 4) a (a + n) = w := by
    rw [State.askRead, Nat.add_sub_cancel_left, ← hm, hv, hw', hd, hhall]
  have hwreads : w.sprue.reads = [d] := by
    rw [hw']
    change v.sprue.reads ++ [d] = [d]
    rw [hsprue, hreads, hr, List.nil_append]
  have hpump : w.pumpDma = w := by
    have hnone : w.takeDone d.id = none := by
      rw [hw', State.takeDone]
      change (v.hall.done.find? fun e => decide (e.1 = d.id)).map _ = none
      rw [hvdone, hhall, hd]
      exact hdone
    have hwwrites : w.sprue.writes = [] := by
      rw [hw']
      exact (congrArg SprueUnit.writes hsprue).trans (hwrites.trans hw)
    rw [State.pumpDma, hwwrites, List.foldl_nil, hwreads, List.foldl_cons, List.foldl_nil, State.pumpRead, hnone]
  have hexec : exec (.dmaRead f) s = finish (asked ++ [.sprue]) s w := by
    rw [show exec (.dmaRead f) s = execDmaRead f s from rfl, execDmaRead, if_neg (not_not_intro hcode), onFrame_of_accepts h, ← hu']
    dsimp only
    rw [hkey, hu', taking_started, hstarted, ← hu', ha, hlen, if_neg (by decide), if_neg (by omega), if_neg (by rw [hreads, hr]; decide),
      if_neg (by rw [hu, hown]; decide), hask, hpump]
  have hwhall : w.hall = v.hall := by rw [hw']; rfl
  have hid : w.hall.nextId = s.hall.nextId + 1 := by rw [hwhall, hnext, hhall]
  have hget : w.req s.hall.nextId = some { sprueReq 0x01 a m [] false with issuedAt := u.real, level := u.levelOf (sprueReq 0x01 a m [] false) } := by
    rw [req_of_hall hwhall, ← hhall]
    exact hreq
  rw [← hd]
  exact ⟨_, hexec, hid, ⟨_, hget, rfl, rfl, rfl⟩, hwreads⟩

/-! ### The event ring (R465) -/

/-- A record that is delivered changes no queue of a page, no register and no memory. -/
theorem delivered_keeps (s : State) (r : EvRec) :
    (s.delivered r).events.queues = s.events.queues ∧ (s.delivered r).regs = s.regs ∧ (s.delivered r).mem = s.mem := by
  have ring : ∀ u : State, (u.partRing r).events = u.events ∧ (u.partRing r).regs = u.regs ∧ (u.partRing r).mem = u.mem := fun u => by
    unfold State.partRing
    split
    · dsimp only
      split <;> exact ⟨rfl, rfl, rfl⟩
    · exact ⟨rfl, rfl, rfl⟩
  have waits : ∀ u : State, (u.await r).events.queues = u.events.queues ∧ (u.await r).regs = u.regs ∧ (u.await r).mem = u.mem := fun u => by
    unfold State.await
    split
    · exact ⟨rfl, rfl, rfl⟩
    · exact ⟨rfl, rfl, rfl⟩
  obtain ⟨hq, hr, hm⟩ := waits (s.partRing r)
  obtain ⟨he, hr', hm'⟩ := ring s
  exact ⟨hq.trans (congrArg EventUnit.queues he), hr.trans hr', hm.trans hm'⟩

theorem firstStatus_zero {b : Bool} {st : Nat} {l : List (Bool × Nat)} (h : firstStatus ((b, st) :: l) = 0) (hst : st ≠ 0) :
    b = false ∧ firstStatus l = 0 := by
  cases b with
  | false => exact ⟨rfl, h⟩
  | true => exact absurd h hst

/-- A ring that may be written lies in scratch of a slice: 127 MiB at most. -/
theorem ring_in_slice {s : State} {base n : Nat} {r : Req} (h : s.ringStatus base n r = 0) :
    (∃ k o, homeOf (localOf base) = .slice k o) ∧ 32 * n ≤ 127 * mib := by
  rw [State.ringStatus] at h
  obtain ⟨-, h⟩ := firstStatus_zero h (by decide)
  obtain ⟨-, h⟩ := firstStatus_zero h (by decide)
  obtain ⟨hregion, -⟩ := firstStatus_zero h (by decide)
  split at hregion
  · next k o hslice =>
    have hscratch : s.scratchMb k ≤ 127 := by rw [State.scratchMb]; omega
    have hfits := of_decide_eq_false hregion
    exact ⟨⟨k, o, hslice⟩, Nat.le_trans (by omega) (Nat.mul_le_mul_right mib hscratch)⟩
  · exact absurd hregion (by decide)

/-- A record's place lies away from DRAM. -/
theorem ring_not_dram {s : State} {base n k : Nat} {r : Req} (h : s.ringStatus base n r = 0) (hk : k < n) : 0xA000000000 ≤ localOf (base + 32 * k) := by
  obtain ⟨hslice, hn⟩ := ring_in_slice h
  obtain ⟨hlo, hhi⟩ := dieHome_range (.inr hslice)
  simp only [localOf, mib] at hlo hhi hn ⊢
  omega

theorem storeLocal_not_dram (s : State) {o : Nat} (d : Bytes) (poison : Nat) (h : 0xA000000000 ≤ o) : DieStored s (s.storeLocal o d poison) := by
  by_cases hslice : ∃ n f, homeOf o = .slice n f
  · exact dieStored_storeLocal s d poison (.inr hslice)
  · rw [storeLocal_of_not_slice hslice]
    exact dieStored_of (sameBut_writeMem_die s d poison h)

/-- What a store leaves in memory does not depend on the records that wait. -/
theorem storeLocal_mem_setQueue (s : State) (pg : Nat) (q : List EvRec) {o : Nat} (d : Bytes) (poison : Nat) (h : 0xA000000000 ≤ o) :
    ((s.setQueue pg q).storeLocal o d poison).mem = (s.storeLocal o d poison).mem := by
  have queued : memSame s (s.setQueue pg q) := ⟨rfl, rfl, rfl⟩
  by_cases hslice : ∃ n f, homeOf o = .slice n f
  · exact (memSame_storeLocal queued d poison (.inr hslice)).1
  · rw [storeLocal_of_not_slice hslice, storeLocal_of_not_slice hslice]
    exact (memSame_writeMem queued d poison h).1

theorem leads_ringWrite {s : State} {pg : Nat} {r : EvRec} {rest : List EvRec} (hon : s.ringOn = true) (hqueue : s.queue pg = r :: rest)
    (hriser : riserOf pg = none) {n w a : Nat} {d : Bytes} (hn : n = 2 ^ s.rd pgEv EV_RING_SIZE_LOG2) (hw : w = s.rd pgEv EV_WR_INDEX)
    (hroom : (w + 2 ^ 32 - s.rd pgEv EV_RD_INDEX) % 2 ^ 32 ≠ n) (ha : a = s.ringBase + 32 * (w % n))
    (hd : d = ({ s.leaveInfo r with lostBefore := s.events.lostBefore } : EvRec).bytes) (hst : s.ringStatus s.ringBase n (ringReq pgEv a none d) = 0) :
    Leads (.ringWrite pg) s fun t =>
      t.queue pg = rest ∧ t.rd pgEv EV_WR_INDEX = (w + 1) % 2 ^ 32 ∧ t.mem = (s.storeLocal (localOf a) d 0).mem := by
  have hdram : 0xA000000000 ≤ localOf a := ha ▸ ring_not_dram hst (Nat.mod_lt _ (hn ▸ Nat.two_pow_pos _))
  obtain ⟨v, hv⟩ : ∃ v, v = (s.setQueue pg rest).storeLocal (localOf a) d 0 := ⟨_, rfl⟩
  obtain ⟨u, hu⟩ : ∃ u : State, u = { v.wr pgEv EV_WR_INDEX (w + 1) with events := { v.events with lostBefore := false } } := ⟨_, rfl⟩
  have hstored := storeLocal_not_dram (s.setQueue pg rest) d 0 hdram
  rw [← hv] at hstored
  have hwrite : s.ringWrite pg = u.delivered r := by
    unfold State.ringWrite
    rw [hqueue]
    dsimp only
    rw [← hn, ← hw, if_neg hroom, ← ha, ← hd, hst, if_neg (by decide), hu, hv]
    rfl
  obtain ⟨hqueues, hregs, hmem⟩ := delivered_keeps u r
  have hexec : exec (.ringWrite pg) s = finish (tiled ++ [.hall]) s (u.delivered r) := by
    rw [show exec (.ringWrite pg) s = execRingWrite pg s from rfl, execRingWrite, hriser, hon, if_pos rfl, hwrite]
    rfl
  have hrest : (u.delivered r).queue pg = rest := by
    rw [State.queue, hqueues, hu]
    change aget [] v.events.queues pg = rest
    rw [show v.events = (s.setQueue pg rest).events from hstored.frame .events (by decide)]
    exact aget_aset_same ..
  have hindex : (u.delivered r).rd pgEv EV_WR_INDEX = (w + 1) % 2 ^ 32 := by
    rw [rd_congr hregs, hu]
    exact rd_wr_same ..
  have hstore : (u.delivered r).mem = (s.storeLocal (localOf a) d 0).mem := by
    rw [hmem, hu, ← storeLocal_mem_setQueue s pg rest d 0 hdram, ← hv]
    rfl
  exact ⟨_, hexec, hrest, hindex, hstore⟩

/-- Settles O34: a frame position is passed and its frame leaves, a DMA frame whose request its origin lets pass issues it, and a record's place
lies away from DRAM. -/
theorem sprueFramesLeaveAndDmaRuns : Obligations.SprueFramesLeaveAndDmaRuns := by
  unfold Obligations.SprueFramesLeaveAndDmaRuns
  exact ⟨fun _ _ _ h1 h2 h3 h4 h5 h6 h7 h8 h9 => leads_send_untagged h1 h2 h3 h4 h5 h6 h7 h8 h9,
    fun _ _ _ _ h1 h2 h3 h4 h5 h6 h7 h8 h9 => leads_send_tagged h1 h2 h3 h4 h5 h6 h7 h8 h9, fun _ _ h1 h2 => leads_send_am h1 h2,
    fun _ _ _ _ h1 h2 h3 h4 h5 h6 h7 h8 h9 h10 h11 h12 h13 => leads_dmaWrite h1 h2 h3 h4 h5 h6 h7 h8 h9 h10 h11 h12 h13,
    fun _ _ _ _ h1 h2 h3 h4 h5 h6 h7 h8 h9 h10 h11 h12 h13 h14 => leads_dmaRead h1 h2 h3 h4 h5 h6 rfl h7 h8 h9 h10 h11 h12 h13 h14,
    fun _ _ _ _ h1 h2 h3 h4 h5 => leads_ringWrite h1 h2 h3 rfl rfl h4 rfl rfl h5⟩

end Sys2Proof.Machine
end

section
/-!
A tick moves real time on, and nothing that the clock runs in it does (O1): of each operation that a tick comes to, in the order in which they
build on each other, that real time stands as it did.
-/

namespace Sys2Proof.Machine

open Sys2Proof

@[simp] theorem stageFor_real (s : State) (k late : Nat) : (s.stageFor k late).real = s.real := rfl
@[simp] theorem holdRunning_real (s : State) (p : Nat) : (s.holdRunning p).real = s.real := rfl

@[simp] theorem slip_real (s : State) (pg p rel slot cyc late : Nat) : (s.slip pg p rel slot cyc late).real = s.real := by
  simp [State.slip]

@[simp] theorem setB_real (s : State) (a : Nat) (v : Byte) : (s.setB a v).real = s.real := rfl

@[simp] theorem setBs_real (s : State) (a : Nat) (bs : Bytes) : (s.setBs a bs).real = s.real := by
  induction bs generalizing s a with
  | nil => rfl
  | cons b bs ih => exact (ih _ _).trans rfl

@[simp] theorem retag_real (s : State) (b n : Nat) (t : Option Nat) : (s.retag b n t).real = s.real := rfl
@[simp] theorem undefine_real (s : State) (b n : Nat) : (s.undefine b n).real = s.real := rfl
@[simp] theorem setPoison_real (s : State) (a : Nat) (b : Bool) : (s.setPoison a b).real = s.real := rfl
@[simp] theorem clearPoison_real (s : State) (a n : Nat) : (s.clearPoison a n).real = s.real := rfl
@[simp] theorem zeroStore_real (s : State) (a n : Nat) : (s.zeroStore a n).real = s.real := rfl
@[simp] theorem modPort_real (s : State) (q : Nat) (f : RPort → RPort) : (s.modPort q f).real = s.real := rfl
@[simp] theorem modChan_real (s : State) (c : Nat) (f : Chan → Chan) : (s.modChan c f).real = s.real := rfl
@[simp] theorem modSl_real (s : State) (n : Nat) (f : SliceUnit → SliceUnit) : (s.modSl n f).real = s.real := rfl
@[simp] theorem modCx_real (s : State) (x : Nat) (f : CxlUnit → CxlUnit) : (s.modCx x f).real = s.real := rfl
@[simp] theorem modMover_real (s : State) (m : Nat) (f : Mover → Mover) : (s.modMover m f).real = s.real := rfl
@[simp] theorem modNet_real (s : State) (f : Net → Net) : (s.modNet f).real = s.real := rfl
@[simp] theorem modHall_real (s : State) (f : Hall → Hall) : (s.modHall f).real = s.real := rfl

@[simp] theorem slipAt_real (s : State) (pg n c : Nat) : (s.slipAt pg n c).real = s.real := by
  simp [State.slipAt]

@[simp] theorem countConn_real (s : State) (c : Nat) (k : Conn) : (s.countConn c k).real = s.real := by
  simp only [State.countConn]
  repeat' split
  all_goals simp

@[simp] theorem countPackets_real (s : State) (c : Nat) : (s.countPackets c).real = s.real := by
  unfold State.countPackets
  exact foldl_real _ (fun _ _ => by simp) _ _

@[simp] theorem countNet_real (s : State) (c : Nat) : (s.countNet c).real = s.real := by
  simp only [State.countNet]
  simp [foldl_real]

@[simp] theorem drive_real (s : State) (r p c : Nat) (w : BWord) : (s.drive r p c w).real = s.real := rfl
@[simp] theorem countRoute_real (s : State) (P : Nat) : (s.countRoute P).real = s.real := rfl
@[simp] theorem countNoMemb_real (s : State) (P : Nat) : (s.countNoMemb P).real = s.real := rfl

@[simp] theorem letIn_real (n r : Nat) (s : State) : (State.letIn n r s).real = s.real := by
  induction n generalizing s with
  | zero => rfl
  | succ n ih =>
    unfold State.letIn
    split
    · rfl
    · exact (ih _).trans rfl

@[simp] theorem injectFlits_real (s : State) (r : Nat) (l : List CFlit) : (s.injectFlits r l).real = s.real := by
  simp [State.injectFlits]

@[simp] theorem setFlag_real (s : State) (store index v : Nat) : (s.setFlag store index v).real = s.real := rfl

@[simp] theorem mark_real (s : State) (a : Nat) (b : Bool) : (s.mark a b).real = s.real := by
  simp [State.mark, apply_ite State.real]

@[simp] theorem writeMem_real (s : State) (a : Nat) (d : Bytes) (poison : Nat) : (s.writeMem a d poison).real = s.real := by
  unfold State.writeMem
  exact foldl_real _ (fun _ _ => by simp [apply_ite State.real]) _ _

@[simp] theorem addMem_real (s : State) (n a : Nat) (d : Bytes) (poison : Nat) : (s.addMem n a d poison).real = s.real := by
  simp only [State.addMem]
  simp [foldl_real]

@[simp] theorem storeLocal_real (s : State) (o : Nat) (d : Bytes) (poison : Nat) : (s.storeLocal o d poison).real = s.real := by
  unfold State.storeLocal
  split <;> simp [apply_ite State.real]

@[simp] theorem sendTx_real (s : State) (f : TxFrame) : (s.sendTx f).real = s.real := by
  simp [State.sendTx, apply_ite State.real]

@[simp] theorem relayAnswer_real (s : State) (id status : Nat) : (s.relayAnswer id status).real = s.real := by
  unfold State.relayAnswer
  split <;> simp

@[simp] theorem modTime_real (s : State) (f : TimeUnit → TimeUnit) : (s.modTime f).real = s.real := rfl
@[simp] theorem lostPart_real (s : State) (p : Nat) : (s.lostPart p).real = s.real := rfl

@[simp] theorem toLost_real (s : State) (cause : Nat) : (s.toLost cause).real = s.real := by
  unfold State.toLost
  exact (foldl_real _ lostPart_real _ _).trans (raise_real ..)

@[simp] theorem crossCheck_real (s : State) : (s.crossCheck).real = s.real := by
  simp only [State.crossCheck]
  repeat' split
  all_goals simp

@[simp] theorem notePinHold_real (s : State) : (s.notePinHold).real = s.real := by
  simp [State.notePinHold, apply_ite State.real]

@[simp] theorem endLoad_real (s : State) (p k : Nat) (v : Option PSlot) : (s.endLoad p k v).real = s.real := rfl

@[simp] theorem complete_real (s : State) (op : Nat) (c : Cmd) (status : Nat) (data : Bytes) (acted : Option Nat) :
    (s.complete op c status data acted).real = s.real := by
  simp only [State.complete]
  split <;> simp

@[simp] theorem failLoad_real (s : State) (p k st : Nat) : (s.failLoad p k st).real = s.real := by
  simp [State.failLoad]

@[simp] theorem modHealth_real (s : State) (f : Health → Health) : (s.modHealth f).real = s.real := rfl
@[simp] theorem modMordant_real (s : State) (f : Mordant → Mordant) : (s.modMordant f).real = s.real := rfl
@[simp] theorem setMs_real (s : State) (i : Nat) (v : Bytes) : (s.setMs i v).real = s.real := rfl
@[simp] theorem refreshMs3_real (s : State) : (s.refreshMs3).real = s.real := rfl
@[simp] theorem fullReset_real (s : State) : (s.fullReset).real = s.real := rfl
@[simp] theorem modTrusted_real (s : State) (p : Nat) (f : Trusted → Trusted) : (s.modTrusted p f).real = s.real := rfl

@[simp] theorem extend_real (s : State) (p ty : Nat) (digest : Bytes) : (s.extend p ty digest).real = s.real := by
  simp [State.extend, apply_ite State.real]

@[simp] theorem clearMs_real (s : State) (p : Nat) : (s.clearMs p).real = s.real := rfl

@[simp] theorem newMemKeys_real (s : State) (p : Nat) : (s.newMemKeys p).real = s.real := by
  unfold State.newMemKeys
  exact (foldl_real _ (fun _ _ => undefine_real ..) _ _).trans (foldl_real _ (fun _ _ => undefine_real ..) _ _)

@[simp] theorem dropLoads_real (s : State) (p : Nat) : (s.dropLoads p).real = s.real := by
  simp [State.dropLoads, apply_ite State.real]

@[simp] theorem emptyPart_real (s : State) (p : Nat) : (s.emptyPart p).real = s.real := by
  simp [State.emptyPart]

@[simp] theorem descNotice_real (s : State) (p : Nat) : (s.descNotice p).real = s.real := by
  unfold State.descNotice
  split <;> simp [apply_ite State.real]

@[simp] theorem redescribe_real (s : State) : (s.redescribe).real = s.real := by
  unfold State.redescribe
  exact foldl_real _ (fun _ _ => by simp) _ _

@[simp] theorem formDesc_real (s : State) (p : Nat) : (s.formDesc p).real = s.real := rfl

@[simp] theorem stepCtr_real (s : State) (x line : Nat) : (s.stepCtr x line).1.real = s.real := by
  simp only [State.stepCtr]
  repeat' split
  all_goals simp

@[simp] theorem stepCtrs_real (s : State) (x : Nat) (l : List Nat) : (s.stepCtrs x l).1.real = s.real := by
  simp only [State.stepCtrs]
  repeat' split
  all_goals simp [foldl_real]

@[simp] theorem wbLost_real (s : State) (n line mask : Nat) : (s.wbLost n line mask).real = s.real := by
  simp [State.wbLost]

@[simp] theorem homeWrite_real (s : State) (l : CLine) (mask : Nat) : (s.homeWrite l mask).real = s.real := by
  unfold State.homeWrite
  exact foldl_real _ (fun _ _ => by simp [apply_ite State.real]) _ _

@[simp] theorem writeBack_real (s : State) (n : Nat) (l : CLine) : (s.writeBack n l).real = s.real := by
  simp only [State.writeBack]
  repeat' split
  all_goals simp

@[simp] theorem writeBackAll_real (s : State) (n : Nat) : (s.writeBackAll n).real = s.real := by
  unfold State.writeBackAll
  exact foldl_real _ (fun _ _ => by simp) _ _

@[simp] theorem allocate_real (s : State) (n line : Nat) : (s.allocate n line).real = s.real := by
  simp only [State.allocate, modSl_real]
  split
  · rfl
  · split <;> simp

@[simp] theorem cWrite_real (s : State) (f : Via) (a : Nat) (d : Bytes) (poison : Nat) (dirty : Bool) : (s.cWrite f a d poison dirty).real = s.real := by
  unfold State.cWrite
  refine foldl_real _ (fun u e => ?_) _ _
  dsimp only
  split
  · simp
  · split <;> simp

@[simp] theorem modBanks_real (s : State) (f : Banks → Banks) : (s.modBanks f).real = s.real := rfl

@[simp] theorem bankLost_real (s : State) (home page : Nat) (sched : Bool) : (s.bankLost home page sched).real = s.real := by
  simp [State.bankLost, apply_ite State.real]

@[simp] theorem takePorts_real (s : State) (rank page : Nat) (need : List (Nat × Nat)) : (s.takePorts rank page need).real = s.real := by
  unfold State.takePorts
  exact foldl_real _ (fun _ _ => by simp [apply_ite State.real]) _ _

@[simp] theorem openWindow_real (s : State) (e : Nat × Nat) : (s.openWindow e).real = s.real := rfl
@[simp] theorem closeWindow_real (s : State) (e : Nat × Nat) : (s.closeWindow e).real = s.real := rfl

@[simp] theorem readSectors_real (s : State) (l : List (Nat × Nat)) : (s.readSectors l).real = s.real := by
  unfold State.readSectors
  exact foldl_real _ (fun _ _ => by simp [apply_ite State.real]) _ _

@[simp] theorem keepOld_real (s : State) (l : List (Nat × Nat)) : (s.keepOld l).real = s.real := rfl

@[simp] theorem before_real (s : State) (c : Nat) : (s.before c).real = s.real := by
  simp only [State.before]
  repeat' split
  all_goals simp [foldl_real]

@[simp] theorem beforeCycle_real (s : State) : (s.beforeCycle).real = s.real := by
  simp [State.beforeCycle]

@[simp] theorem hurtSector_real (s : State) (x : Nat) : (s.hurtSector x).real = s.real := by
  simp [State.hurtSector, apply_ite State.real]

@[simp] theorem granted_real (s : State) (rank page : Nat) (n : BankNeed) : (s.granted rank page n).real = s.real := by
  unfold State.granted
  exact (foldl_real _ closeWindow_real _ _).trans (by simp)

@[simp] theorem schedTake_real (s : State) (page : Nat) (reads writes : List Nat) : (s.schedTake page reads writes).real = s.real := by
  unfold State.schedTake
  refine (foldl_real _ closeWindow_real _ _).trans ?_
  rw [readSectors_real, takePorts_real]
  dsimp only
  split <;> simp

@[simp] theorem countStatus_real (s : State) (r : Req) (st : Nat) : (s.countStatus r st).real = s.real := by
  simp only [State.countStatus]
  repeat' split
  all_goals simp

@[simp] theorem setReq_real (s : State) (id : Nat) (r : Req) : (s.setReq id r).real = s.real := rfl
@[simp] theorem dropReq_real (s : State) (id : Nat) : (s.dropReq id).real = s.real := rfl

@[simp] theorem moverDone_real (s : State) (r : Req) (a : Ans) : (s.moverDone r a).real = s.real := by
  simp only [State.moverDone]
  repeat' split
  all_goals simp

@[simp] theorem modGc_real (s : State) (g : Nat) (f : Gcore → Gcore) : (s.modGc g f).real = s.real := rfl

@[simp] theorem gcOutcome_real (s : State) (g : Nat) (machine load : Bool) (addr status : Nat) : (s.gcOutcome g machine load addr status).real = s.real := by
  simp [State.gcOutcome, apply_ite State.real]

theorem discarded_real {s t : State} {id src : Nat} (h : s.discarded id src = some t) : t.real = s.real := by
  unfold State.discarded at h
  split at h
  · injection h with h
    simp [← h]
  · split at h
    · injection h with h
      rw [h]
    · exact absurd h (by simp)

@[simp] theorem completeReq_real (s : State) (id : Nat) (r : Req) (a : Ans) : (s.completeReq id r a).real = s.real := by
  unfold State.completeReq
  split
  · next t h => simp [discarded_real h]
  · dsimp only
    split <;> simp

@[simp] theorem enqueue_real (s : State) (q : Nat) (ind : Bool) (p : TxPkt) : (s.enqueue q ind p).real = s.real := rfl

@[simp] theorem respond_real (s : State) (q : Nat) (r : Req) (a : Ans) : (s.respond q r a).real = s.real := by
  unfold State.respond
  split <;> simp

@[simp] theorem injectResponse_real (s : State) (id : Nat) (r : Req) (a : Ans) : (s.injectResponse id r a).real = s.real := by
  simp [State.injectResponse]

@[simp] theorem answer_real (s : State) (id : Nat) (r : Req) (a : Ans) : (s.answer id r a).real = s.real := by
  unfold State.answer
  split <;> simp [apply_ite State.real]

@[simp] theorem sliceParity_real (s : State) (n off : Nat) (clean : Bool) : (s.sliceParity n off clean).real = s.real := by
  simp [State.sliceParity, apply_ite State.real]

@[simp] theorem clusterParity_real (s : State) (k off : Nat) (fw : Bool) : (s.clusterParity k off fw).real = s.real := by
  simp [State.clusterParity, apply_ite State.real]

@[simp] theorem parityAt_real (s : State) (fw : Bool) (xs : List Nat) : (s.parityAt fw xs).real = s.real := by
  unfold State.parityAt
  exact foldl_real _ (fun _ _ => by split <;> simp) _ _

@[simp] theorem cacheParity_real (s : State) (f : Via) (a : Nat) : (s.cacheParity f a).real = s.real := by
  unfold State.cacheParity
  split <;> simp

@[simp] theorem parityOf_real (s : State) (fw : Bool) (c : Option (Via × Nat)) (o : Nat) (parity : List Nat) : (s.parityOf fw c o parity).real = s.real := by
  simp only [State.parityOf]
  repeat' split
  all_goals simp [foldl_real]

@[simp] theorem tagFail_real (s : State) (l : List Nat) : (s.tagFail l).real = s.real := by
  unfold State.tagFail
  exact foldl_real _ (fun _ _ => by split <;> simp) _ _

@[simp] theorem doRead_real (s : State) (id : Nat) (parity : List Nat) (r : Req) : (s.doRead id parity r).real = s.real := by
  simp only [State.doRead]
  repeat' split
  all_goals simp

@[simp] theorem doWrite_real (s : State) (id : Nat) (parity : List Nat) (r : Req) : (s.doWrite id parity r).real = s.real := by
  simp only [State.doWrite]
  repeat' split
  all_goals simp [foldl_real]

@[simp] theorem targetWrite_real (s : State) (c : Option (Via × Nat)) (o : Nat) (d : Bytes) (bad : Bool) : (s.targetWrite c o d bad).real = s.real := by
  simp only [State.targetWrite]
  repeat' split
  all_goals simp

@[simp] theorem passThrough_real (s : State) (k o n : Nat) : (s.passThrough k o n).real = s.real := by
  unfold State.passThrough
  exact foldl_real _ (fun _ _ => by simp [apply_ite State.real]) _ _

@[simp] theorem doAtomic_real (s : State) (id : Nat) (r : Req) : (s.doAtomic id r).real = s.real := by
  unfold State.doAtomic
  simp only [apply_ite State.real, answer_real, bump_real, targetWrite_real, passThrough_real, ite_self]
  repeat' split
  all_goals simp

@[simp] theorem carryOut_real (s : State) (id : Nat) (parity : List Nat) (r : Req) : (s.carryOut id parity r).real = s.real := by
  simp only [State.carryOut]
  repeat' split
  all_goals simp

@[simp] theorem performNow_real (s : State) (id : Nat) (parity : List Nat) : (s.performNow id parity).real = s.real := by
  unfold State.performNow
  split <;> simp [apply_ite State.real]

@[simp] theorem startFlush_real (s : State) (n : Nat) : (s.startFlush n).real = s.real := rfl

@[simp] theorem askCommit_real (s : State) (x d : Nat) : (s.askCommit x d).real = s.real := by
  simp [State.askCommit, apply_ite State.real]

@[simp] theorem enter_real (s : State) (q st : Nat) : (s.enter q st).real = s.real := rfl
@[simp] theorem sendSets_real (s : State) (q : Nat) (lanes : List Nat) (ty target width flags : Nat) : (s.sendSets q lanes ty target width flags).real = s.real := rfl

@[simp] theorem beginTraining_real (s : State) (q : Nat) : (s.beginTraining q).real = s.real := by
  unfold State.beginTraining
  dsimp only
  rw [sendSets_real, enter_real, modPort_real, wr_real, foldl_real _ (fun _ _ => wrs_real ..), wrs_real, hwClear_real]

@[simp] theorem sendBack_real (s : State) (q : Nat) (p : Packet) (st : Nat) : (s.sendBack q p st).real = s.real := by
  unfold State.sendBack
  split <;> simp

@[simp] theorem losePacket_real (s : State) (q : Nat) (p : TxPkt) : (s.losePacket q p).real = s.real := by
  unfold State.losePacket
  split <;> simp [apply_ite State.real]

@[simp] theorem dropLink_real (s : State) (q : Nat) : (s.dropLink q).real = s.real := by
  simp only [State.dropLink]
  simp [foldl_real]

@[simp] theorem rekeyPort_real (s : State) (q : Nat) : (s.rekeyPort q).real = s.real := by
  simp [State.rekeyPort, apply_ite State.real]

@[simp] theorem rekeyPorts_real (s : State) (p : Nat) : (s.rekeyPorts p).real = s.real := by
  unfold State.rekeyPorts
  exact foldl_real _ (fun _ _ => by simp) _ _

@[simp] theorem askRetrain_real (s : State) (q : Nat) : (s.askRetrain q).real = s.real := by
  simp [State.askRetrain, apply_ite State.real]

@[simp] theorem inject_real (s : State) (id : Nat) (r : Req) : (s.inject id r).real = s.real := by
  simp [State.inject]

@[simp] theorem updateCopies_real (s : State) (p a : Nat) (d : Bytes) (poison : Nat) : (s.updateCopies p a d poison).real = s.real := by
  unfold State.updateCopies
  exact foldl_real _ (fun _ _ => by split <;> simp) _ _

@[simp] theorem issueReq_real (s : State) (r : Req) : (s.issueReq r).2.real = s.real := by
  unfold State.issueReq
  dsimp only
  split
  · simp
  · split
    · simp
    · split
      · simp
      · split
        · split <;> simp
        · simp

@[simp] theorem writeSector64_real (s : State) (l : List EWrite) (x : Nat) : (s.writeSector64 l x).real = s.real := by
  simp [State.writeSector64]

@[simp] theorem writeElems_real (s : State) (l : List EWrite) : (s.writeElems l).real = s.real := by
  unfold State.writeElems
  exact foldl_real _ (fun _ _ => by simp) _ _

@[simp] theorem seqSlip_real (s : State) (k : SeqUnit) (due late : Nat) : (s.seqSlip k due late).real = s.real := by
  simp [State.seqSlip]

@[simp] theorem modMx_real (s : State) (m : Nat) (f : MxCore → MxCore) : (s.modMx m f).real = s.real := rfl
@[simp] theorem add64_real (s : State) (pg : Nat) (lo hi : Fld) (n : Nat) : (s.add64 pg lo hi n).real = s.real := rfl
@[simp] theorem loseStage_real (s : State) (m : Nat) : (s.loseStage m).real = s.real := rfl

@[simp] theorem setAflags_real (s : State) (pg f : Nat) : (s.setAflags pg f).real = s.real := by
  simp [State.setAflags, apply_ite State.real]

@[simp] theorem runFlags_real (s : State) (m : Nat) (f : Nat × Nat) : (s.runFlags m f).real = s.real := by
  simp [State.runFlags]

@[simp] theorem writeChecks_real (s : State) (t : Tensor) (bytes : Nat) : (s.writeChecks t bytes).real = s.real := by
  unfold State.writeChecks
  exact foldl_real _ (fun _ _ => by simp) _ _

@[simp] theorem runFill_real (s : State) (m : Nat) (b : Bytes) (p : Plan) (r : TRun) (t : Nat) : (s.runFill m b p r t).real = s.real := rfl
@[simp] theorem swapSets_real (s : State) (m : Nat) : (s.swapSets m).real = s.real := rfl
@[simp] theorem runSwap_real (s : State) (m : Nat) (r : TRun) (t : Nat) : (s.runSwap m r t).real = s.real := rfl
@[simp] theorem runStall_real (s : State) (m : Nat) (p : Plan) (r : TRun) (d : Nat) : (s.runStall m p r d).real = s.real := rfl

@[simp] theorem runLate_real (s : State) (m : Nat) (r : TRun) (t n late : Nat) : (s.runLate m r t n late).real = s.real := by
  unfold State.runLate
  exact foldl_real _ (fun _ _ => by simp) _ _

@[simp] theorem runRow_real (s : State) (m : Nat) (b : Bytes) (p : Plan) (r : TRun) (t : Nat) (l : List (Nat × List Nat)) : (s.runRow m b p r t l).real = s.real := by
  simp [State.runRow]

@[simp] theorem runSecond_real (s : State) (m : Nat) (r : TRun) : (s.runSecond m r).real = s.real := rfl

@[simp] theorem runWrite_real (s : State) (m : Nat) (b : Bytes) (r : TRun) (l : List OutVal) : (s.runWrite m b r l).real = s.real := by
  simp [State.runWrite]

@[simp] theorem runBlock_real (s : State) (m : Nat) (b : Bytes) (p : Plan) (r : TRun) (g k : Nat) : (s.runBlock m b p r g k).real = s.real := by
  simp [State.runBlock, apply_ite State.real]

@[simp] theorem endRun_real (s : State) (m : Nat) (b : Bytes) (p : Plan) (r : TRun) : (s.endRun m b p r).real = s.real := by
  simp [State.endRun, apply_ite State.real]

theorem runOnce_real {s t : State} {m : Nat} {b : Bytes} {p : Plan} {r : TRun} {h : Nat} (ht : s.runOnce m b p r h = some t) : t.real = s.real := by
  unfold State.runOnce at ht
  dsimp only at ht
  repeat' split at ht
  all_goals
    simp only [Option.some.injEq, reduceCtorEq] at ht
  all_goals
    rw [← ht]
    simp

@[simp] theorem runTo_real (m : Nat) (b : Bytes) (p : Plan) (h n : Nat) (s : State) : (State.runTo m b p h n s).real = s.real := by
  induction n generalizing s with
  | zero => rfl
  | succ n ih =>
    unfold State.runTo
    split
    · rfl
    · split
      · next r _ t ht => exact (ih _).trans (runOnce_real ht)
      · rfl

@[simp] theorem settleRun_real (s : State) (m h : Nat) : (s.settleRun m h).real = s.real := by
  simp only [State.settleRun]
  repeat' split
  all_goals simp

@[simp] theorem endOut_real (s : State) (m : Nat) (o : TOut) : (s.endOut m o).real = s.real := by
  simp only [State.endOut]
  repeat' split
  all_goals simp

@[simp] theorem settleMx_real (s : State) (m h : Nat) : (s.settleMx m h).real = s.real := by
  unfold State.settleMx
  split <;> simp [apply_ite State.real]

@[simp] theorem putWord_real (s : State) (m : Nat) (b : Bytes) (x : Xfer) (i : Nat) (w : BWord) : (s.putWord m b x i w).real = s.real := by
  simp only [State.putWord]
  repeat' split
  all_goals simp

@[simp] theorem serveWords_real (m : Nat) (b : Bytes) (h n : Nat) (s : State) : (State.serveWords m b h n s).real = s.real := by
  induction n generalizing s with
  | zero => rfl
  | succ n ih =>
    unfold State.serveWords
    split
    · rfl
    · dsimp only
      split
      · rfl
      · refine (ih _).trans ?_
        split
        · split <;> simp
        · simp

@[simp] theorem takeReads_real (s : State) (m : Nat) (l : List Nat) : (s.takeReads m l).real = s.real := by
  simp [State.takeReads, apply_ite State.real]

@[simp] theorem issueChunk_real (s : State) (m n : Nat) (c : Chunk) : (s.issueChunk m n c).real = s.real := by
  simp [State.issueChunk]

@[simp] theorem pump_real (s : State) (m : Nat) : (s.pump m).real = s.real := by
  simp only [State.pump]
  repeat' split
  all_goals simp

@[simp] theorem settleMover_real (s : State) (m h : Nat) : (s.settleMover m h).real = s.real := by
  simp [State.settleMover]

@[simp] theorem putMover_real (s : State) (m : Nat) (q : Seq) : (s.putMover m q).real = s.real := rfl

@[simp] theorem restartMover_real (s : State) (m : Nat) : (s.restartMover m).real = s.real := by
  simp [State.restartMover, apply_ite State.real]

@[simp] theorem bookNow_real (s : State) (k : BankBook) : (s.bookNow k).real = s.real := by
  simp [State.bookNow, apply_ite State.real]

@[simp] theorem schedBanks_real (s : State) : (s.schedBanks).real = s.real := by
  simp only [State.schedBanks]
  simp [foldl_real, apply_ite State.real]

@[simp] theorem gcSlip_real (s : State) (g : Nat) : (s.gcSlip g).real = s.real := by
  simp [State.gcSlip]

@[simp] theorem userTrap_real (s : State) (g cause tval : Nat) : (s.userTrap g cause tval).real = s.real := by
  simp [State.userTrap]

@[simp] theorem openTrap_real (s : State) (g cause : Nat) : (s.openTrap g cause).real = s.real := by
  simp [State.openTrap]

@[simp] theorem gcAccess_real (s : State) (g kind rd : Nat) (wide barred : Bool) (r : Req) : (s.gcAccess g kind rd wide barred r).real = s.real := by
  simp [State.gcAccess, apply_ite State.real]

@[simp] theorem doAccess_real (s : State) (k : Nat) (acc : MemAccess) : (s.doAccess k acc).real = s.real := by
  simp [State.doAccess, apply_ite State.real]

@[simp] theorem runWork_real (s : State) (w : BankWork) : (s.runWork w).real = s.real := by
  cases w <;> simp [State.runWork]

@[simp] theorem grantOne_real (x : State × List BankWait) (w : BankWait) : (State.grantOne x w).1.real = x.1.real := by
  unfold State.grantOne
  dsimp only
  split
  · rfl
  · split
    · simp
    · split
      · simp
      · dsimp only
        split <;> simp

@[simp] theorem grantBanks_real (s : State) : s.grantBanks.real = s.real := by
  have all : ∀ (l : List BankWait) x, (l.foldl State.grantOne x).1.real = x.1.real := fun l => by
    induction l with
    | nil => exact fun _ => rfl
    | cons w l ih => exact fun x => (ih _).trans (grantOne_real x w)
  unfold State.grantBanks
  split
  · rfl
  · exact (all _ _).trans rfl

@[simp] theorem setLatch_real (s : State) (src pg o : Nat) (v : Option Nat) : (s.setLatch src pg o v).real = s.real := rfl
@[simp] theorem noteRefused_real (s : State) (src pg o cause : Nat) : (s.noteRefused src pg o cause).real = s.real := rfl
@[simp] theorem addReset_real (s : State) (r : Reset) : (s.addReset r).real = s.real := rfl

@[simp] theorem takeField_real (s : State) (pg w : Nat) (e : Fld × Nat) : (s.takeField pg w e).real = s.real := by
  simp only [State.takeField]
  repeat' split
  all_goals simp

@[simp] theorem rearm_real (s : State) (pg : Nat) : (s.rearm pg).real = s.real := by
  simp [State.rearm, apply_ite State.real]

@[simp] theorem pageCtrl_real (s0 s : State) (src pg w : Nat) : (s0.pageCtrl s src pg w).real = s.real := by
  simp only [State.pageCtrl]
  split <;> split <;> simp

@[simp] theorem keepOwner_real (s0 s : State) (k i : Nat) (P V : Fld) : (s0.keepOwner s k i P V).real = s.real := by
  simp only [State.keepOwner]
  split <;> simp

@[simp] theorem wroteBringup_real (s0 s : State) (o w : Nat) : (s0.wroteBringup s o w).real = s.real := by
  have seeds : ∀ (l : List Nat) (u : State), (l.foldl (fun s p => s.wr pgBu PT_SEED_SEED 0 p) u).real = u.real := foldl_real _ fun _ _ => rfl
  simp only [State.wroteBringup]
  repeat' split
  all_goals simp [seeds]

@[simp] theorem wroteHall_real (s : State) (o w : Nat) : (s.wroteHall o w).real = s.real := by
  simp only [State.wroteHall]
  repeat' split
  all_goals simp [foldl_real]

@[simp] theorem wroteFlag_real (s : State) (src pg o w : Nat) : (s.wroteFlag src pg o w).real = s.real := by
  simp [State.wroteFlag, apply_ite State.real]

@[simp] theorem wroteSlice_real (s0 s : State) (n o w : Nat) : (s0.wroteSlice s n o w).real = s.real := by
  simp only [State.wroteSlice]
  repeat' split
  all_goals simp

@[simp] theorem wroteEvents_real (s : State) (o : Nat) : (s.wroteEvents o).real = s.real := by
  simp only [State.wroteEvents]
  repeat' split
  all_goals simp [foldl_real]

@[simp] theorem wrote_real (s0 s : State) (src pg o w : Nat) : (s0.wrote s src pg o w).real = s.real := by
  unfold State.wrote
  dsimp only
  repeat' split
  all_goals simp

@[simp] theorem noteSets_real (s : State) (pg w : Nat) (cells : List (Fld × Nat)) : (s.noteSets pg w cells).real = s.real := by
  unfold State.noteSets
  exact foldl_real _ (fun _ _ => by simp [apply_ite State.real]) _ _

@[simp] theorem writePage_real (s : State) (src : Nat) (own : Option Nat) (pg o w : Nat) : (s.writePage src own pg o w).2.real = s.real := by
  have taken : ∀ (l : List (Fld × Nat)) (u : State), (l.foldl (fun t e => t.takeField pg w e) u).real = u.real :=
    foldl_real _ fun _ _ => takeField_real ..
  unfold State.writePage
  dsimp only
  repeat' split
  all_goals simp [taken]

@[simp] theorem writeWord_real (s : State) (src : Nat) (own : Option Nat) (x w : Nat) : (s.writeWord src own x w).2.real = s.real := by
  unfold State.writeWord
  dsimp only
  repeat' split
  all_goals simp

@[simp] theorem put_real (s : State) (r : Requester) (x w : Nat) : (s.put r x w).real = s.real := by
  simp [State.put]

@[simp] theorem again_real (s : State) (c : Cmd) (r : Option TxFrame) : (s.again c r).real = s.real := by
  unfold State.again
  split <;> simp

@[simp] theorem modWires_real (s : State) (g : Nat) (f : Wires → Wires) : (s.modWires g f).real = s.real := rfl

@[simp] theorem abandonChan_real (s : State) (c : Nat) : (s.abandonChan c).real = s.real := by
  simp [State.abandonChan, apply_ite State.real]

@[simp] theorem abandonGroup_real (s : State) (u : Nat) : (s.abandonGroup u).real = s.real := rfl

@[simp] theorem judgeDie_real (s : State) (n : Nat) : (s.judgeDie n).real = s.real := by
  simp only [State.judgeDie]
  repeat' split
  all_goals simp [foldl_real]

@[simp] theorem emptyPoison_real (s : State) (n : Nat) : (s.emptyPoison n).real = s.real := rfl
@[simp] theorem restart_real (s : State) : (s.restart).real = s.real := rfl

@[simp] theorem measureAlloc_real (s : State) (p : Nat) : (s.measureAlloc p).real = s.real := by
  simp [State.measureAlloc]

@[simp] theorem setLevels_real (s : State) (l : List (Nat × Nat)) : (s.setLevels l).real = s.real := rfl

@[simp] theorem relevel_real (s : State) : (s.relevel).real = s.real := by
  simp only [State.relevel]
  repeat' split
  all_goals simp [foldl_real]

@[simp] theorem releasePorts_real (s : State) (count : Nat) : (s.releasePorts count).real = s.real := by
  simp only [State.releasePorts]
  simp [foldl_real, apply_ite State.real]

@[simp] theorem takeCount_real (s : State) : (s.takeCount).real = s.real := by
  simp [State.takeCount]

@[simp] theorem setSeed_real (s : State) (p : Nat) : (s.setSeed p).real = s.real := by
  unfold State.setSeed
  refine (foldl_real _ (fun t n => ?_) _ _).trans rfl
  rw [emptyPoison_real]
  exact foldl_real _ (fun _ _ => wr_real ..) _ _

@[simp] theorem allocAll_real (s : State) (new : Bool) : (s.allocAll new).real = s.real := by
  simp only [State.allocAll]
  repeat' split
  all_goals simp [foldl_real]

@[simp] theorem measureChange_real (s : State) (p : Nat) : (s.measureChange p).real = s.real := by
  simp [State.measureChange]

@[simp] theorem takeNumber_real (s : State) (e : Nat) : (s.takeNumber e).real = s.real := by
  unfold State.takeNumber
  split <;> simp [apply_ite State.real]

@[simp] theorem changeCount_real (s : State) (e : Nat) : (s.changeCount e).real = s.real := by
  have ended : ∀ (l : List Nat) (u : State),
      (l.foldl (fun s p => if s.sealing p && (s.trusted p).ending.isNone then s.endSeal p 2 none else s) u).real = u.real :=
    foldl_real _ fun u p => by split <;> simp [State.endSeal]
  have emptied : ∀ (l : List Nat) (u : State), (l.foldl State.emptyPart u).real = u.real := foldl_real _ fun u p => by simp
  have cleared : ∀ (l : List Nat) (u : State), (l.foldl (fun s p => s.modTrusted p fun t => { t with session := none, patKey := none }) u).real = u.real :=
    foldl_real _ fun u p => by simp
  simp only [State.changeCount]
  split
  · simp only [refreshMs3_real, allocAll_real, takeCount_real, ended, emptied, cleared]
  · rfl

@[simp] theorem takeRegions_real (s : State) (n e : Nat) : (s.takeRegions n e).real = s.real := by
  simp only [State.takeRegions]
  repeat' split
  all_goals simp [foldl_real, apply_ite State.real]

@[simp] theorem endCopies_real (s : State) (n : Nat) : (s.endCopies n).real = s.real := by
  unfold State.endCopies
  exact foldl_real _ (fun _ _ => by simp) _ _

@[simp] theorem judgeHot_real (s : State) (c n sum : Nat) : (s.judgeHot c n sum).real = s.real := by
  simp [State.judgeHot, apply_ite State.real]

@[simp] theorem countSectors_real (s : State) (n : Nat) : (s.countSectors n).real = s.real := by
  unfold State.countSectors
  exact foldl_real _ (fun _ _ => by simp) _ _

@[simp] theorem abandonAll_real (s : State) (p : Nat) : (s.abandonAll p).real = s.real := by
  simp only [State.abandonAll]
  simp [foldl_real]

@[simp] theorem endEpoch_real (s : State) (p e : Nat) : (s.endEpoch p e).real = s.real := by
  simp only [State.endEpoch]
  repeat' split
  all_goals simp

@[simp] theorem undoArm_real (s : State) (p : Nat) : (s.undoArm p).real = s.real := by
  simp [State.undoArm]

@[simp] theorem pourMx_real (s : State) (at_ m : Nat) : (s.pourMx at_ m).real = s.real := by
  simp [State.pourMx, apply_ite State.real]

@[simp] theorem pourGc_real (s : State) (g : Nat) : (s.pourGc g).real = s.real := by
  unfold State.pourGc
  split <;> simp

@[simp] theorem pour_real (s : State) (p e : Nat) : (s.pour p e).real = s.real := by
  simp only [State.pour]
  simp [foldl_real]

@[simp] theorem release_real (s : State) (p e : Nat) : (s.release p e).real = s.real := by
  simp only [State.release]
  simp [foldl_real]

@[simp] theorem boundaryPart_real (s : State) (e p : Nat) : (s.boundaryPart e p).real = s.real := by
  simp only [State.boundaryPart]
  repeat' split
  all_goals simp

@[simp] theorem boundarySeal_real (s : State) (p : Nat) : (s.boundarySeal p).real = s.real := by
  simp only [State.boundarySeal]
  split
  · simp
  · split <;> simp [State.endSeal]

@[simp] theorem newTables_real (s : State) : (s.newTables).real = s.real := by
  simp only [State.newTables]
  repeat' split
  all_goals simp [foldl_real]

@[simp] theorem fenceRetired_real (s : State) : (s.fenceRetired).real = s.real := by
  unfold State.fenceRetired
  exact foldl_real _ (fun _ _ => by simp) _ _

@[simp] theorem crossBoundary_real (s : State) (e : Nat) : (s.crossBoundary e).real = s.real := by
  simp only [State.crossBoundary]
  repeat' split
  all_goals simp [foldl_real]

@[simp] theorem coreTrap_real (s : State) (g cause tval w : Nat) : (s.coreTrap g cause tval w).real = s.real := by
  unfold State.coreTrap
  split <;> simp [apply_ite State.real]

@[simp] theorem coreStep_real (s : State) (g : Nat) : (s.coreStep g).real = s.real := by
  simp only [State.coreStep]
  repeat' split
  all_goals simp

@[simp] theorem coreLand_real (s : State) (g : Nat) : (s.coreLand g).real = s.real := by
  simp only [State.coreLand]
  repeat' split
  all_goals simp

@[simp] theorem runCore_real (s : State) (g : Nat) : (s.runCore g).real = s.real := by
  simp only [State.runCore]
  repeat' split
  all_goals simp

@[simp] theorem runCores_real (s : State) : (s.runCores).real = s.real := by
  unfold State.runCores
  exact foldl_real _ (fun _ _ => by simp) _ _

@[simp] theorem fenceNow_real (s : State) : (s.fenceNow).real = s.real := by
  simp only [State.fenceNow]
  repeat' split
  all_goals simp [foldl_real]

@[simp] theorem settleAll_real (s : State) : (s.settleAll).real = s.real := by
  simp only [State.settleAll]
  simp [foldl_real]

@[simp] theorem restartAll_real (s : State) : (s.restartAll).real = s.real := by
  unfold State.restartAll
  exact foldl_real _ (fun _ _ => by simp) _ _

@[simp] theorem epochNow_real (s : State) : (s.epochNow).real = s.real := by
  simp [State.epochNow, apply_ite State.real]

@[simp] theorem nextCycle_real (s : State) : (s.nextCycle).real = s.real := by
  simp [State.nextCycle, apply_ite State.real]

@[simp] theorem nextTick_real (s : State) : (s.nextTick).real = s.real := by
  simp [State.nextTick, apply_ite State.real]

@[simp] theorem passTicks_real (s : State) : (s.passTicks).real = s.real := by
  simp [State.passTicks, apply_ite State.real]

/-- Settles O1: a step is the front command's meaning by definition, and nothing that happens in a tick touches real time. -/
theorem stepRunsFrontCommand : Obligations.StepRunsFrontCommand := by
  unfold Obligations.StepRunsFrontCommand
  refine ⟨fun s c rest h => by rw [step, h], fun s h => ⟨tick s, by rw [step, h], rfl, ?_, h, rfl⟩⟩
  rw [tick]
  dsimp only
  rw [crossCheck_real]
  split
  · rw [passTicks_real]
  · rfl

end Sys2Proof.Machine
end
